-- ==== Sys2Proof/Word.lean ====
section
/-! DEFINITION. The word types of the SK-880 and the sparse tables State is built from. -/

namespace Sys2Proof

/-- A byte of memory (R2). -/
abbrev Byte := BitVec 8

/-- A 32-bit lane, scalar or predicate value (R15). -/
abbrev Word := BitVec 32

/-- A 64-bit value: an IW, a CW, an address, a pair (R17, R59). -/
abbrev DWord := BitVec 64

/-- A sparse table: pairs of a key and a value. In canonical form the keys rise strictly. -/
abbrev Tbl (α : Type) := List (Nat × α)

end Sys2Proof
end

