-- ==== Sys2Proof/Syntax.lean ====
section
/-! DEFINITION. The syntax of the SK-880: the fields of an instruction, and one constructor of `Instr` per row of
spec/opcode_table.json. Rows that no word encodes are steps of the machine's other agents. -/

namespace Sys2Proof

/-- The control word (R61); its reserved bits [63:60] are refused by the decoder. -/
structure CW where
  imm : Word
  modA : BitVec 8
  modB : BitVec 8
  modC : BitVec 8
  rm : BitVec 2
  sat : Bool
  mz : Bool
  deriving DecidableEq, Repr

/-- The inline parameter block, PB0 to PB3 (R65). -/
structure PB where
  w0 : Word
  w1 : Word
  w2 : Word
  w3 : Word
  deriving DecidableEq, Repr

/-- What the word C1 of a Choarnif instruction carries of the CW (R373). -/
structure C1 where
  rm : BitVec 2
  sat : Bool
  mz : Bool
  deriving DecidableEq, Repr

/-- Which encoding the instruction was read from: an IW with its optional CW (R60), or Choarnif words (R373). -/
inductive Enc where
  | native (cw : Option CW)
  | choarnif (c1 : Option C1)
  deriving DecidableEq, Repr

/-- The fields of an IW but for OP and X (R60), by the manual's names; `enc` holds the CW. -/
structure Fields where
  tc : BitVec 2
  stall : BitVec 4
  d : BitVec 8
  a : BitVec 8
  b : BitVec 8
  c : BitVec 8
  pg : BitVec 3
  pgn : Bool
  ma : BitVec 4
  mae : Bool
  mb : BitVec 4
  mbe : Bool
  y : Bool
  enc : Enc
  deriving DecidableEq, Repr

/-- A copy word but for its opcode CO (R211): bits [19:8], [31:20] and [63:32]. -/
structure CopyWord where
  lo : BitVec 12
  mid : BitVec 12
  hi : Word
  deriving DecidableEq, Repr

/-- The shape record of XFER, FILL, TCOPY and TFILL (R212). -/
structure Shape where
  w0 : Word
  w1 : Word
  w2 : Word
  w3 : Word
  w4 : Word
  w5 : Word
  w6 : Word
  w7 : Word
  w8 : Word
  w9 : Word
  w10 : Word
  w11 : Word
  deriving DecidableEq, Repr

/-- An extension entry of a task: its phase bit and X1 to X7; `x0` is X0 [30:0], which must be zero (R246). -/
structure TaskExt where
  ph : Bool
  x0 : BitVec 31
  x1 : Word
  x2 : Word
  x3 : Word
  x4 : Word
  x5 : Word
  x6 : Word
  x7 : Word
  deriving DecidableEq, Repr

/-- A task's words but for TOP (R246): T0 [30:8] with EXT in its low two bits, the phase bit, T1 to T7, extensions. -/
structure TaskWord where
  t0 : BitVec 23
  ph : Bool
  t1 : Word
  t2 : Word
  t3 : Word
  t4 : Word
  t5 : Word
  t6 : Word
  t7 : Word
  ext : List TaskExt
  deriving DecidableEq, Repr

/-- A task fault to be raised: class, reason, WHERE and INFO of R271. -/
structure TaskFault where
  cls : BitVec 8
  reason : BitVec 8
  loc : BitVec 8
  info : Word
  deriving DecidableEq, Repr

/-- An engine event addressed to a saved workgroup's image (R333). -/
inductive ImageEv where
  | copyEnd (rope : Nat)
  | sems (sem : Nat)
  | semw (sem : Nat)
  | scratchWrite (addr : Nat) (bytes : List Byte)
  | copyFault (rope : Nat) (cause reason : BitVec 8) (start : DWord) (off : BitVec 16) (addr : DWord)
  | monitorWrite (rope : Nat)
  deriving DecidableEq, Repr

/-- A stage-2 entry (R304): frame number (64 KiB units), rights, key index. -/
structure S2Entry where
  frame : Nat
  w : Bool
  x : Bool
  key : BitVec 12
  deriving DecidableEq, Repr

/-- The Herey controller's answer to a translation fault (R306): resolved, or declined. -/
inductive Decision where
  | resolved
  | declined
  deriving DecidableEq, Repr

/-- The registers REGISTER_WRITE names: partition registers of a die (R337), hub-die owners (R337), calendar slots and
shares (R326). -/
inductive SysReg where
  | partReq (die i : Nat)
  | partMp (die j : Nat)
  | conn (die i : Nat)
  | partDie (die p : Nat)
  | hubSlot (i : Nat)
  | hubPort (i : Nat)
  | hubVf (i : Nat)
  | calSlot (part k : Nat)
  | calShare (part j : Nat)
  deriving DecidableEq, Repr

/-- An algorithm choice of NEGOTIATE_ALGORITHMS (R343): true where the requester offers the one the responder has. -/
structure Algorithms where
  rsa3072sha256 : Bool
  p384 : Bool
  aes256gcm : Bool
  sha256 : Bool
  deriving DecidableEq, Repr

/-- The fields of KEYSET (R345). -/
structure KeySetReq where
  idx : Nat
  did : BitVec 16
  key : BitVec 512
  mask : BitVec 6
  policy : BitVec 256
  deriving DecidableEq, Repr

/-- A launch packet's payload (R351). -/
structure LaunchPkt where
  ver : BitVec 16
  did : BitVec 16
  idx : BitVec 16
  count : BitVec 8
  zero : BitVec 8
  seq : DWord
  entries : List (BitVec 256)
  deriving DecidableEq, Repr

/-- An Ethernet frame after MACsec: its secure channel identifier and EtherType, and the launch packet when it is one. -/
structure EthFrame where
  sci : DWord
  etherType : BitVec 16
  pkt : Option LaunchPkt
  deriving DecidableEq, Repr

/-- A virtual function's doorbell window (R348): the hub die that holds it, and the domain it belongs to. -/
structure Doorbell where
  hub : Nat
  did : BitVec 16
  deriving DecidableEq, Repr

/-- A map duty in percent, of the package or fixed for the isolated domains' slots of a partition (R362). -/
structure DutySet where
  part : Option Nat
  duty : Nat
  deriving DecidableEq, Repr

/-- What a black-box record entry says of the place of an event (R359). -/
structure ErrWhere where
  code : BitVec 8
  die : BitVec 4
  part : BitVec 4
  did : BitVec 16
  unit : DWord
  detail : DWord
  deriving DecidableEq, Repr

/-- Where an uncorrectable error lies (R356). -/
inductive ErrLoc where
  | workgroup (wg : Nat)
  | mapldSource (slot : Nat)
  | dataLine (asid : BitVec 16) (line : Nat)
  | structural (part : Nat)
  deriving DecidableEq, Repr

/-- The state a TDISP message asks for (R347). -/
inductive TdispReq where
  | lock
  | start
  | stop
  deriving DecidableEq, Repr

/-- The memories a host write reaches (R291). -/
inductive HostSpace where
  | host
  | device (asid : BitVec 16)
  deriving DecidableEq, Repr

/-- One constructor per row of spec/opcode_table.json, in the table's order. -/
inductive Instr where
  /-- IADD.S32 (R96) -/
  | iaddS32 (f : Fields)
  /-- IADD.N32 (R96) -/
  | iaddN32 (f : Fields)
  /-- ISUB.S32 (R96) -/
  | isubS32 (f : Fields)
  /-- ISUB.N32 (R96) -/
  | isubN32 (f : Fields)
  /-- IADD.S64 (R96) -/
  | iaddS64 (f : Fields)
  /-- IADD.N64 (R96) -/
  | iaddN64 (f : Fields)
  /-- ISUB.S64 (R96) -/
  | isubS64 (f : Fields)
  /-- ISUB.N64 (R96) -/
  | isubN64 (f : Fields)
  /-- IADD.S16 (R96) -/
  | iaddS16 (f : Fields)
  /-- IADD.N16 (R96) -/
  | iaddN16 (f : Fields)
  /-- ISUB.S16 (R96) -/
  | isubS16 (f : Fields)
  /-- ISUB.N16 (R96) -/
  | isubN16 (f : Fields)
  /-- IADD.S8 (R96) -/
  | iaddS8 (f : Fields)
  /-- IADD.N8 (R96) -/
  | iaddN8 (f : Fields)
  /-- ISUB.S8 (R96) -/
  | isubS8 (f : Fields)
  /-- ISUB.N8 (R96) -/
  | isubN8 (f : Fields)
  /-- IMIN.S32 (R96) -/
  | iminS32 (f : Fields)
  /-- IMIN.N32 (R96) -/
  | iminN32 (f : Fields)
  /-- IMAX.S32 (R96) -/
  | imaxS32 (f : Fields)
  /-- IMAX.N32 (R96) -/
  | imaxN32 (f : Fields)
  /-- ICMP.S32 (R101) -/
  | icmpS32 (f : Fields)
  /-- ICMP.N32 (R101) -/
  | icmpN32 (f : Fields)
  /-- ICMP.S64 (R101) -/
  | icmpS64 (f : Fields)
  /-- ICMP.N64 (R101) -/
  | icmpN64 (f : Fields)
  /-- AND (R102) -/
  | andB (f : Fields)
  /-- OR (R102) -/
  | orB (f : Fields)
  /-- XOR (R102) -/
  | xorB (f : Fields)
  /-- ANDN (R102) -/
  | andnB (f : Fields)
  /-- NOT (R102) -/
  | notB (f : Fields)
  /-- BITMIX (R103) -/
  | bitmix (f : Fields)
  /-- PLOP (R104) -/
  | plop (f : Fields)
  /-- PRDS (R105) -/
  | prds (f : Fields)
  /-- PWRS (R105) -/
  | pwrs (f : Fields)
  /-- SHL.N32 (R106) -/
  | shlN32 (f : Fields)
  /-- SHR.N32 (R106) -/
  | shrN32 (f : Fields)
  /-- SHR.S32 (R106) -/
  | shrS32 (f : Fields)
  /-- ROL.N32 (R106) -/
  | rolN32 (f : Fields)
  /-- SHL.N64 (R106) -/
  | shlN64 (f : Fields)
  /-- SHR.N64 (R106) -/
  | shrN64 (f : Fields)
  /-- SHR.S64 (R106) -/
  | shrS64 (f : Fields)
  /-- MOV (R110) -/
  | mov (f : Fields)
  /-- MOV64 (R110) -/
  | mov64 (f : Fields)
  /-- SEL (R111) -/
  | sel (f : Fields)
  /-- SEL64 (R111) -/
  | sel64 (f : Fields)
  /-- LEA.N32 (R112) -/
  | leaN32 (f : Fields)
  /-- LEA.N64 (R112) -/
  | leaN64 (f : Fields)
  /-- IMUL.S32 (R97) -/
  | imulS32 (f : Fields)
  /-- IMUL.N32 (R97) -/
  | imulN32 (f : Fields)
  /-- IMULH.S32 (R97) -/
  | imulhS32 (f : Fields)
  /-- IMULH.N32 (R97) -/
  | imulhN32 (f : Fields)
  /-- IMUL.S16 (R97) -/
  | imulS16 (f : Fields)
  /-- IMUL.N16 (R97) -/
  | imulN16 (f : Fields)
  /-- IMUL.S8 (R97) -/
  | imulS8 (f : Fields)
  /-- IMUL.N8 (R97) -/
  | imulN8 (f : Fields)
  /-- IMAD.S32 (R98) -/
  | imadS32 (f : Fields)
  /-- IMAD.N32 (R98) -/
  | imadN32 (f : Fields)
  /-- IMAD.S16 (R98) -/
  | imadS16 (f : Fields)
  /-- IMAD.N16 (R98) -/
  | imadN16 (f : Fields)
  /-- IDP.S8 (R99) -/
  | idpS8 (f : Fields)
  /-- IDP.N8 (R99) -/
  | idpN8 (f : Fields)
  /-- IDP.N4 (R99) -/
  | idpN4 (f : Fields)
  /-- IMUL.S64 (R97) -/
  | imulS64 (f : Fields)
  /-- IMUL.N64 (R97) -/
  | imulN64 (f : Fields)
  /-- IMULH.S64 (R97) -/
  | imulhS64 (f : Fields)
  /-- IMULH.N64 (R97) -/
  | imulhN64 (f : Fields)
  /-- IDIV.S32 (R100) -/
  | idivS32 (f : Fields)
  /-- IDIV.N32 (R100) -/
  | idivN32 (f : Fields)
  /-- IREM.S32 (R100) -/
  | iremS32 (f : Fields)
  /-- IREM.N32 (R100) -/
  | iremN32 (f : Fields)
  /-- IDIV.S64 (R100) -/
  | idivS64 (f : Fields)
  /-- IDIV.N64 (R100) -/
  | idivN64 (f : Fields)
  /-- IREM.S64 (R100) -/
  | iremS64 (f : Fields)
  /-- IREM.N64 (R100) -/
  | iremN64 (f : Fields)
  /-- POPC.N32 (R107) -/
  | popcN32 (f : Fields)
  /-- CLZ.N32 (R107) -/
  | clzN32 (f : Fields)
  /-- CTZ.N32 (R107) -/
  | ctzN32 (f : Fields)
  /-- BREV.N32 (R107) -/
  | brevN32 (f : Fields)
  /-- BFE.S32 (R108) -/
  | bfeS32 (f : Fields)
  /-- BFE.N32 (R108) -/
  | bfeN32 (f : Fields)
  /-- BFI.N32 (R109) -/
  | bfiN32 (f : Fields)
  /-- FADD.F32 (R118) -/
  | faddF32 (f : Fields)
  /-- FSUB.F32 (R118) -/
  | fsubF32 (f : Fields)
  /-- FMUL.F32 (R118) -/
  | fmulF32 (f : Fields)
  /-- FFMA.F32 (R118) -/
  | ffmaF32 (f : Fields)
  /-- FMIN.F32 (R121) -/
  | fminF32 (f : Fields)
  /-- FMAX.F32 (R121) -/
  | fmaxF32 (f : Fields)
  /-- FCMP.F32 (R122) -/
  | fcmpF32 (f : Fields)
  /-- FCLASS.F32 (R123) -/
  | fclassF32 (f : Fields)
  /-- FADD.F16 (R118) -/
  | faddF16 (f : Fields)
  /-- FSUB.F16 (R118) -/
  | fsubF16 (f : Fields)
  /-- FMUL.F16 (R118) -/
  | fmulF16 (f : Fields)
  /-- FFMA.F16 (R118) -/
  | ffmaF16 (f : Fields)
  /-- FMIN.F16 (R121) -/
  | fminF16 (f : Fields)
  /-- FMAX.F16 (R121) -/
  | fmaxF16 (f : Fields)
  /-- FCMP.F16 (R122) -/
  | fcmpF16 (f : Fields)
  /-- FCLASS.F16 (R123) -/
  | fclassF16 (f : Fields)
  /-- FADD.BF16 (R118) -/
  | faddBf16 (f : Fields)
  /-- FSUB.BF16 (R118) -/
  | fsubBf16 (f : Fields)
  /-- FMUL.BF16 (R118) -/
  | fmulBf16 (f : Fields)
  /-- FFMA.BF16 (R118) -/
  | ffmaBf16 (f : Fields)
  /-- FMIN.BF16 (R121) -/
  | fminBf16 (f : Fields)
  /-- FMAX.BF16 (R121) -/
  | fmaxBf16 (f : Fields)
  /-- FCMP.BF16 (R122) -/
  | fcmpBf16 (f : Fields)
  /-- FCLASS.BF16 (R123) -/
  | fclassBf16 (f : Fields)
  /-- FADD.F64 (R118) -/
  | faddF64 (f : Fields)
  /-- FSUB.F64 (R118) -/
  | fsubF64 (f : Fields)
  /-- FMUL.F64 (R118) -/
  | fmulF64 (f : Fields)
  /-- FFMA.F64 (R118) -/
  | ffmaF64 (f : Fields)
  /-- FMIN.F64 (R121) -/
  | fminF64 (f : Fields)
  /-- FMAX.F64 (R121) -/
  | fmaxF64 (f : Fields)
  /-- FCMP.F64 (R122) -/
  | fcmpF64 (f : Fields)
  /-- FCLASS.F64 (R123) -/
  | fclassF64 (f : Fields)
  /-- FACC.N4 (R120) -/
  | faccN4 (f : Fields)
  /-- FACC.S8 (R120) -/
  | faccS8 (f : Fields)
  /-- FACC.N8 (R120) -/
  | faccN8 (f : Fields)
  /-- FACC.E2M1 (R120) -/
  | faccE2m1 (f : Fields)
  /-- FACC.E4M3 (R120) -/
  | faccE4m3 (f : Fields)
  /-- FACC.E5M2 (R120) -/
  | faccE5m2 (f : Fields)
  /-- CVT.F32.F16 (R126) -/
  | cvtF32F16 (f : Fields)
  /-- CVT.F32.BF16 (R126) -/
  | cvtF32Bf16 (f : Fields)
  /-- CVT.F16.F32 (R126) -/
  | cvtF16F32 (f : Fields)
  /-- CVT.BF16.F32 (R126) -/
  | cvtBf16F32 (f : Fields)
  /-- CVT.F64.F32 (R126) -/
  | cvtF64F32 (f : Fields)
  /-- CVT.F32.F64 (R126) -/
  | cvtF32F64 (f : Fields)
  /-- CVT.F32.E4M3 (R126) -/
  | cvtF32E4m3 (f : Fields)
  /-- CVT.F32.E5M2 (R126) -/
  | cvtF32E5m2 (f : Fields)
  /-- CVT.E4M3.F32 (R126) -/
  | cvtE4m3F32 (f : Fields)
  /-- CVT.E5M2.F32 (R126) -/
  | cvtE5m2F32 (f : Fields)
  /-- CVT.F32.E2M1 (R126) -/
  | cvtF32E2m1 (f : Fields)
  /-- CVT.E2M1.F32 (R126) -/
  | cvtE2m1F32 (f : Fields)
  /-- CVT.F32.S32 (R126) -/
  | cvtF32S32 (f : Fields)
  /-- CVT.F32.N32 (R126) -/
  | cvtF32N32 (f : Fields)
  /-- CVT.S32.F32 (R126) -/
  | cvtS32F32 (f : Fields)
  /-- CVT.N32.F32 (R126) -/
  | cvtN32F32 (f : Fields)
  /-- CVT.F64.S64 (R126) -/
  | cvtF64S64 (f : Fields)
  /-- CVT.F64.N64 (R126) -/
  | cvtF64N64 (f : Fields)
  /-- CVT.S64.F64 (R126) -/
  | cvtS64F64 (f : Fields)
  /-- CVT.N64.F64 (R126) -/
  | cvtN64F64 (f : Fields)
  /-- CVT.F64.S32 (R126) -/
  | cvtF64S32 (f : Fields)
  /-- CVT.S32.F64 (R126) -/
  | cvtS32F64 (f : Fields)
  /-- FRND.F32 (R127) -/
  | frndF32 (f : Fields)
  /-- FRND.F64 (R127) -/
  | frndF64 (f : Fields)
  /-- PACK.F16 (R128) -/
  | packF16 (f : Fields)
  /-- PACK.BF16 (R128) -/
  | packBf16 (f : Fields)
  /-- PACK.E4M3 (R128) -/
  | packE4m3 (f : Fields)
  /-- PACK.E5M2 (R128) -/
  | packE5m2 (f : Fields)
  /-- PACK.E2M1 (R128) -/
  | packE2m1 (f : Fields)
  /-- PACK.S16 (R128) -/
  | packS16 (f : Fields)
  /-- PACK.N16 (R128) -/
  | packN16 (f : Fields)
  /-- PACK.S8 (R128) -/
  | packS8 (f : Fields)
  /-- PACK.N8 (R128) -/
  | packN8 (f : Fields)
  /-- PACK.N4 (R128) -/
  | packN4 (f : Fields)
  /-- MAPLD (R134) -/
  | mapld (f : Fields)
  /-- MAPCLR (R137) -/
  | mapclr (f : Fields)
  /-- MAPQ (R138) -/
  | mapq (f : Fields)
  /-- SHFL (R154) -/
  | shfl (f : Fields)
  /-- BCAST (R154) -/
  | bcast (f : Fields)
  /-- RDLANE (R154) -/
  | rdlane (f : Fields)
  /-- WRLANE (R154) -/
  | wrlane (f : Fields)
  /-- MATCH.N32 (R172) -/
  | matchN32 (f : Fields)
  /-- MATCH.N64 (R172) -/
  | matchN64 (f : Fields)
  /-- BRA (R158) -/
  | bra (f : Fields)
  /-- CALL (R158) -/
  | call (f : Fields)
  /-- JMPI (R159) -/
  | jmpi (f : Fields)
  /-- CALLI (R159) -/
  | calli (f : Fields)
  /-- RET (R159) -/
  | ret (f : Fields)
  /-- SPLICE (R164) -/
  | splice (f : Fields)
  /-- SPLICE.C (R168) -/
  | spliceC (f : Fields)
  /-- YIELD (R173) -/
  | yield (f : Fields)
  /-- NOP (R173) -/
  | nop (f : Fields)
  /-- EXIT (R166) -/
  | exit (f : Fields)
  /-- BAR.SYNC (R170) -/
  | barSync (f : Fields)
  /-- BAR.ARR (R170) -/
  | barArr (f : Fields)
  /-- BAR.WAIT (R170) -/
  | barWait (f : Fields)
  /-- BAR.SET (R170) -/
  | barSet (f : Fields)
  /-- VOTE.ANY (R171) -/
  | voteAny (f : Fields)
  /-- VOTE.ALL (R171) -/
  | voteAll (f : Fields)
  /-- VOTE.BAL (R171) -/
  | voteBal (f : Fields)
  /-- WAITC (R196) -/
  | waitc (f : Fields)
  /-- WAITV (R197) -/
  | waitv (f : Fields)
  /-- FENCE.ACQ (R198) -/
  | fenceAcq (f : Fields)
  /-- FENCE.REL (R198) -/
  | fenceRel (f : Fields)
  /-- FENCE.AR (R198) -/
  | fenceAr (f : Fields)
  /-- LD.N8 (R186) -/
  | ldN8 (f : Fields)
  /-- LD.S8 (R186) -/
  | ldS8 (f : Fields)
  /-- LD.N16 (R186) -/
  | ldN16 (f : Fields)
  /-- LD.S16 (R186) -/
  | ldS16 (f : Fields)
  /-- LD.N32 (R186) -/
  | ldN32 (f : Fields)
  /-- LD.N64 (R186) -/
  | ldN64 (f : Fields)
  /-- LDQ.N32 (R186) -/
  | ldqN32 (f : Fields)
  /-- ST.N8 (R186) -/
  | stN8 (f : Fields)
  /-- ST.N16 (R186) -/
  | stN16 (f : Fields)
  /-- ST.N32 (R186) -/
  | stN32 (f : Fields)
  /-- ST.N64 (R186) -/
  | stN64 (f : Fields)
  /-- STQ.N32 (R186) -/
  | stqN32 (f : Fields)
  /-- PREF (R188) -/
  | pref (f : Fields)
  /-- LDT (R187) -/
  | ldt (f : Fields) (pb : PB)
  /-- STT (R187) -/
  | stt (f : Fields) (pb : PB)
  /-- ATOM.ADD.N32 (R189) -/
  | atomAddN32 (f : Fields)
  /-- ATOM.ADD.N64 (R189) -/
  | atomAddN64 (f : Fields)
  /-- ATOM.ADD.F32 (R189) -/
  | atomAddF32 (f : Fields)
  /-- ATOM.ADD2.BF16 (R189) -/
  | atomAdd2Bf16 (f : Fields)
  /-- ATOM.MIN.S32 (R189) -/
  | atomMinS32 (f : Fields)
  /-- ATOM.MIN.N32 (R189) -/
  | atomMinN32 (f : Fields)
  /-- ATOM.MIN.F32 (R189) -/
  | atomMinF32 (f : Fields)
  /-- ATOM.MAX.S32 (R189) -/
  | atomMaxS32 (f : Fields)
  /-- ATOM.MAX.N32 (R189) -/
  | atomMaxN32 (f : Fields)
  /-- ATOM.MAX.F32 (R189) -/
  | atomMaxF32 (f : Fields)
  /-- ATOM.AND.N32 (R189) -/
  | atomAndN32 (f : Fields)
  /-- ATOM.OR.N32 (R189) -/
  | atomOrN32 (f : Fields)
  /-- ATOM.XOR.N32 (R189) -/
  | atomXorN32 (f : Fields)
  /-- ATOM.INC.N32 (R189) -/
  | atomIncN32 (f : Fields)
  /-- ATOM.DEC.N32 (R189) -/
  | atomDecN32 (f : Fields)
  /-- ATOM.CADD.F32 (R193) -/
  | atomCaddF32 (f : Fields)
  /-- ATOM.XCHG.N32 (R189) -/
  | atomXchgN32 (f : Fields)
  /-- ATOM.XCHG.N64 (R189) -/
  | atomXchgN64 (f : Fields)
  /-- ATOM.CAS.N32 (R189) -/
  | atomCasN32 (f : Fields)
  /-- ATOM.CAS.N64 (R189) -/
  | atomCasN64 (f : Fields)
  /-- RED.ADD.N32 (R189) -/
  | redAddN32 (f : Fields)
  /-- RED.ADD.N64 (R189) -/
  | redAddN64 (f : Fields)
  /-- RED.ADD.F32 (R189) -/
  | redAddF32 (f : Fields)
  /-- RED.ADD2.BF16 (R189) -/
  | redAdd2Bf16 (f : Fields)
  /-- RED.MIN.S32 (R189) -/
  | redMinS32 (f : Fields)
  /-- RED.MIN.N32 (R189) -/
  | redMinN32 (f : Fields)
  /-- RED.MIN.F32 (R189) -/
  | redMinF32 (f : Fields)
  /-- RED.MAX.S32 (R189) -/
  | redMaxS32 (f : Fields)
  /-- RED.MAX.N32 (R189) -/
  | redMaxN32 (f : Fields)
  /-- RED.MAX.F32 (R189) -/
  | redMaxF32 (f : Fields)
  /-- RED.AND.N32 (R189) -/
  | redAndN32 (f : Fields)
  /-- RED.OR.N32 (R189) -/
  | redOrN32 (f : Fields)
  /-- RED.XOR.N32 (R189) -/
  | redXorN32 (f : Fields)
  /-- RED.INC.N32 (R189) -/
  | redIncN32 (f : Fields)
  /-- RED.DEC.N32 (R189) -/
  | redDecN32 (f : Fields)
  /-- RED.CADD.F32 (R193) -/
  | redCaddF32 (f : Fields)
  /-- SFQ.EXP2 (R203) -/
  | sfqExp2 (f : Fields)
  /-- SFQ.LOG2 (R203) -/
  | sfqLog2 (f : Fields)
  /-- SFQ.RCP (R203) -/
  | sfqRcp (f : Fields)
  /-- SFQ.RSQ (R203) -/
  | sfqRsq (f : Fields)
  /-- SFQ.SQRT (R203) -/
  | sfqSqrt (f : Fields)
  /-- SFQ.SIN (R203) -/
  | sfqSin (f : Fields)
  /-- SFQ.COS (R203) -/
  | sfqCos (f : Fields)
  /-- SFQ.TANH (R203) -/
  | sfqTanh (f : Fields)
  /-- SFQ.SIGM (R203) -/
  | sfqSigm (f : Fields)
  /-- SFQ.ERF (R203) -/
  | sfqErf (f : Fields)
  /-- SFQ.RD (R204) -/
  | sfqRd (f : Fields)
  /-- WAITK (R205) -/
  | waitk (f : Fields)
  /-- CPRUN (R208) -/
  | cprun (f : Fields)
  /-- CPCMD (R209) -/
  | cpcmd (f : Fields) (pb : PB)
  /-- CPQ (R210) -/
  | cpq (f : Fields)
  /-- GCALL (R230) -/
  | gcall (f : Fields)
  /-- GRET (R232) -/
  | gret (f : Fields)
  /-- SREAD (R224) -/
  | sread (f : Fields)
  /-- TRET (R238) -/
  | tret (f : Fields)
  /-- TREC.RD (R237) -/
  | trecRd (f : Fields)
  /-- TREC.WR (R237) -/
  | trecWr (f : Fields)
  /-- SYSRD (R225) -/
  | sysrd (f : Fields)
  /-- SYSWR (R225) -/
  | syswr (f : Fields)
  /-- CINV (R226) -/
  | cinv (f : Fields)
  /-- HALT (R227) -/
  | halt (f : Fields)
  /-- RESULT_LANDS (R74) -/
  | resultLands (rope : Nat)
  /-- LOAD_COMPLETE (R184) -/
  | loadComplete (rope : Nat)
  /-- STORE_PERFORMED (R184) -/
  | storePerformed (rope : Nat)
  /-- SFU_RESULT_DELIVERY (R203) -/
  | sfuResultDelivery (entry : Nat)
  /-- SFQ_RD_WRITE (R204) -/
  | sfqRdWrite (rope : Nat)
  /-- MAPLD_COMPLETE (R134) -/
  | mapldComplete (slot : Nat) (err : Bool)
  /-- ROPE_PHASE (R165) -/
  | ropePhase (rope : Nat)
  /-- GATHER_TIMEOUT (R168) -/
  | gatherTimeout (wg quad : Nat)
  /-- TRAP_DELIVERY (R235) -/
  | trapDelivery (rope : Nat)
  /-- COPY_FAULT (R216) -/
  | copyFault (ctx : Nat) (cause reason : BitVec 8)
  /-- GATE_BUDGET_EXPIRY (R233) -/
  | gateBudgetExpiry (rope : Nat)
  /-- XFER (R215) -/
  | copyXfer (w : CopyWord) (sh : Shape)
  /-- FILL (R215) -/
  | copyFill (w : CopyWord) (sh : Shape)
  /-- SETE (R211) -/
  | copySete (w : CopyWord)
  /-- ADDE (R211) -/
  | copyAdde (w : CopyWord)
  /-- LOOP (R211) -/
  | copyLoop (w : CopyWord)
  /-- SEMS (R211) -/
  | copySems (w : CopyWord)
  /-- SEMW (R211) -/
  | copySemw (w : CopyWord)
  /-- BARR (R211) -/
  | copyBarr (w : CopyWord)
  /-- DONE (R211) -/
  | copyDone (w : CopyWord)
  /-- END (R211) -/
  | copyEnd (w : CopyWord)
  /-- KICK (R242) -/
  | kick (stream : Nat) (v : DWord)
  /-- DOORBELL_KICK (R348) -/
  | doorbellKick (vf : Doorbell) (off : BitVec 15) (size : Nat) (v : Option DWord)
  /-- FCTL (R273) -/
  | fctl (stream : Nat) (v : Word)
  /-- DECODE_RECHECK (R240) -/
  | decodeRecheck (stream : Nat)
  /-- TNOP (R265) -/
  | tnop (t : TaskWord)
  /-- TRUN (R253) -/
  | trun (t : TaskWord)
  /-- TRUNP (R256) -/
  | trunp (t : TaskWord)
  /-- TCOPY (R257) -/
  | tcopy (t : TaskWord)
  /-- TFILL (R257) -/
  | tfill (t : TaskWord)
  /-- TBIND (R258) -/
  | tbind (t : TaskWord)
  /-- TEXPORT (R259) -/
  | texport (t : TaskWord)
  /-- TFREE (R258) -/
  | tfree (t : TaskWord)
  /-- TSIG (R260) -/
  | tsig (t : TaskWord)
  /-- TWAIT (R261) -/
  | twait (t : TaskWord)
  /-- TFENCE (R263) -/
  | tfence (t : TaskWord)
  /-- TINVAL (R308) -/
  | tinval (t : TaskWord)
  /-- TGATE (R264) -/
  | tgate (t : TaskWord)
  /-- TEND (R265) -/
  | tend (t : TaskWord)
  /-- TASK_ISSUE (R267) -/
  | taskIssue (stream task : Nat)
  /-- PROLOGUE_REPEAT (R256) -/
  | prologueRepeat (stream task : Nat)
  /-- TASK_COMPLETE (R255) -/
  | taskComplete (stream task : Nat)
  /-- TASK_RETIRE (R269) -/
  | taskRetire (stream : Nat)
  /-- TASK_FAULT (R270) -/
  | taskFault (stream task : Nat) (f : TaskFault)
  /-- MAPINT_RETRY (R274) -/
  | mapintRetry (stream task : Nat)
  /-- TWAIT_SATISFIED (R261) -/
  | twaitSatisfied (stream task : Nat)
  /-- TWAIT_POLL (R262) -/
  | twaitPoll (stream task : Nat)
  /-- TWAIT_LIMIT (R261) -/
  | twaitLimit (stream task : Nat)
  /-- TASK_BUDGET_EXPIRY (R321) -/
  | taskBudgetExpiry (stream task : Nat)
  /-- STREAM_MAP (R314) -/
  | streamMap (stream : Nat)
  /-- STREAM_PRIORITY_AGING (R316) -/
  | streamPriorityAging (stream : Nat)
  /-- STREAM_STOP (R314) -/
  | streamStop (stream : Nat)
  /-- WORKGROUP_PLACE (R319) -/
  | workgroupPlace (wg : Nat)
  /-- WG_PRIORITY_AGING (R320) -/
  | wgPriorityAging (wg : Nat)
  /-- PRIORITY_BOOST (R323) -/
  | priorityBoost (rope unit : Nat)
  /-- YIELD_SKIP_END (R324) -/
  | yieldSkipEnd (rope unit : Nat)
  /-- PREEMPT_REQUEST (R331) -/
  | preemptRequest (did : BitVec 16) (cores : List Nat)
  /-- ROPE_SAVE (R332) -/
  | ropeSave (rope : Nat)
  /-- FORCED_SAVE (R33) -/
  | forcedSave (rope : Nat)
  /-- IMAGE_EVENT (R333) -/
  | imageEvent (wg : Nat) (e : ImageEv)
  /-- WORKGROUP_RESTORE (R334) -/
  | workgroupRestore (wg core : Nat)
  /-- WAITV_WAKE (R197) -/
  | waitvWake (rope : Nat)
  /-- WAITV_POLL (R197) -/
  | waitvPoll (rope : Nat)
  /-- MTLB_TRANSLATE (R302) -/
  | mtlbTranslate (log : Nat)
  /-- FAULT_RESOLVE (R306) -/
  | faultResolve (log : Nat) (d : Decision)
  /-- REPLAY (R307) -/
  | replay (log : Nat)
  /-- PLUGIN_TIMEOUT (R354) -/
  | pluginTimeout (log : Nat)
  /-- PAGE_PIN (R298) -/
  | pagePin (wg page : Nat)
  /-- L2_EVICTION (R293) -/
  | l2Eviction (asid : BitVec 16) (line : Nat)
  /-- MAP_SELF_TEST (R151) -/
  | mapSelfTest (core quad arr : Nat) (bad : BitVec 4)
  /-- SCR_CHANGE (R299) -/
  | scrChange (core scr : Nat)
  /-- HANDLE_UPDATE (R175) -/
  | handleUpdate (did : BitVec 16) (idx : BitVec 12) (e : BitVec 256)
  /-- GATE_TABLE_UPDATE (R229) -/
  | gateTableUpdate (did : BitVec 16) (g : BitVec 8) (e : BitVec 512)
  /-- STAGE2_CHANGE (R309) -/
  | stage2Change (page : Nat) (e : Option S2Entry) (move : Bool)
  /-- SCRUB_COMPLETE (R311) -/
  | scrubComplete (frame : Nat)
  /-- RETIRE_SWEEP (R312) -/
  | retireSweep (asid : BitVec 16)
  /-- CAL_CTL (R326) -/
  | calCtl (part : Nat) (v : Word)
  /-- CALENDAR_PERIOD_START (R326) -/
  | calendarPeriodStart (part : Nat)
  /-- CALENDAR_SLOT_BOUNDARY (R327) -/
  | calendarSlotBoundary (part slot : Nat)
  /-- REGISTER_WRITE (R337) -/
  | registerWrite (r : SysReg) (v : Word)
  /-- PARTITION_RESET (R339) -/
  | partitionReset (part : Nat)
  /-- COLD_RESET (R361) -/
  | coldReset
  /-- WARM_RESET (R361) -/
  | warmReset
  /-- DIE_OFFLINE (R360) -/
  | dieOffline (die : Nat)
  /-- DIE_RETURN (R361) -/
  | dieReturn (die : Nat)
  /-- GET_VERSION (R343) -/
  | getVersion (hub : Nat)
  /-- GET_CAPABILITIES (R343) -/
  | getCapabilities (hub : Nat)
  /-- NEGOTIATE_ALGORITHMS (R343) -/
  | negotiateAlgorithms (hub : Nat) (a : Algorithms)
  /-- GET_DIGESTS (R343) -/
  | getDigests (hub : Nat)
  /-- GET_CERTIFICATE (R343) -/
  | getCertificate (hub slot : Nat)
  /-- CHALLENGE (R343) -/
  | challenge (hub : Nat) (nonce : BitVec 256)
  /-- GET_MEASUREMENTS (R344) -/
  | getMeasurements (hub idx : Nat) (did : BitVec 16)
  /-- KEY_EXCHANGE (R343) -/
  | keyExchange (hub : Nat) (mutualAuth : Bool)
  /-- FINISH (R343) -/
  | finish (hub : Nat)
  /-- END_SESSION (R343) -/
  | endSession (hub : Nat)
  /-- KEYSET (R345) -/
  | keyset (hub : Nat) (r : KeySetReq)
  /-- KEYDEL (R345) -/
  | keydel (hub idx : Nat) (did : BitVec 16)
  /-- MEASUREMENT_CHANGE (R346) -/
  | measurementChange (idx : Nat) (did : BitVec 16) (digest : BitVec 256)
  /-- ETHERNET_FRAME (R350) -/
  | ethernetFrame (port : Nat) (macsecOk : Bool) (f : EthFrame)
  /-- LAUNCH_PACKET (R353) -/
  | launchPacket (port : Nat) (sci : DWord) (p : LaunchPkt)
  /-- TDI_ERROR (R347) -/
  | tdiError (did : BitVec 16)
  /-- CORRECTABLE_ERROR (R356) -/
  | correctableError (w : ErrWhere)
  /-- UNCORRECTABLE_ERROR (R356) -/
  | uncorrectableError (l : ErrLoc) (w : ErrWhere)
  /-- FATAL_ERROR (R358) -/
  | fatalError (part : Nat) (shared : Bool) (w : ErrWhere)
  /-- BLACK_BOX_READ (R359) -/
  | blackBoxRead (hub idx : Nat)
  /-- THERMAL_TRIP (R362) -/
  | thermalTrip (w : ErrWhere)
  /-- MAP_DUTY_UPDATE (R362) -/
  | mapDutyUpdate (d : DutySet)
  /-- SCHEDULER_REPLACE (R355) -/
  | schedulerReplace (digest : BitVec 256)
  /-- DZO_LOAD (R367) -/
  | dzoLoad (did : BitVec 16) (file : List Byte)
  /-- DZO_UNLOAD (R371) -/
  | dzoUnload (image : Nat)
  /-- CHOARNIF_TRANSLATION (R376) -/
  | choarnifTranslation (image : Nat) (ok : Bool)
  /-- NATIVE_SWITCH (R376) -/
  | nativeSwitch (rope : Nat)
  /-- TDISP_REQUEST (R347) -/
  | tdispRequest (did : BitVec 16) (r : TdispReq)
  /-- IDE_KM (R347) -/
  | ideKm (hub stream : Nat) (key : BitVec 256)
  /-- HOST_WRITE (R291) -/
  | hostWrite (space : HostSpace) (addr : DWord) (bytes : List Byte)
  /-- CORE_MASK_ADD (R331) -/
  | coreMaskAdd (did : BitVec 16) (cores : List Nat)
  deriving DecidableEq, Repr

end Sys2Proof
end

