-- ==== Sys2Proof/WellFormed.lean ====
section
/-! DEFINITION. The decode checks of the SK-880 (R64, R66 to R70, R72, R79 and the entries' own limits): which
instructions are well formed. What depends on the kernel's `.regs` is checked when the instruction runs. -/

namespace Sys2Proof

/-- Element and register data types (R34, R38). -/
inductive Ty where
  | n4 | s8 | n8 | s16 | n16 | s32 | n32 | s64 | n64
  | e2m1 | e3m2 | e4m3 | e5m2 | bf16 | f16 | f32 | f64
  deriving DecidableEq, Repr

/-- The width of an element in bits (R34, R38). -/
def Ty.width : Ty → Nat
  | .n4 | .e2m1 => 4
  | .e3m2 => 6
  | .s8 | .n8 | .e4m3 | .e5m2 => 8
  | .s16 | .n16 | .bf16 | .f16 => 16
  | .s32 | .n32 | .f32 => 32
  | .s64 | .n64 | .f64 => 64

/-- Whether the type is a floating-point format (R38). -/
def Ty.isFloat : Ty → Bool
  | .e2m1 | .e3m2 | .e4m3 | .e5m2 | .bf16 | .f16 | .f32 | .f64 => true
  | _ => false

/-- Whether the type is a signed integer type (R61). -/
def Ty.isSigned : Ty → Bool
  | .s8 | .s16 | .s32 | .s64 => true
  | _ => false

/-- The signatures of R67. -/
inductive Sig where
  | s1 | s2 | s3 | sp | cp | br | mem | at_ | e
  deriving DecidableEq, Repr

/-- What an entry says of SX on its operands (R64, R94, R114). -/
inductive SxRule where
  | any | fixed | none
  deriving DecidableEq, Repr

/-- What the opcode map and an instruction's entry say of its encoding: signature, base class, latency (0 where it is
not fixed), source type, widths of D, A and B, accepted select modes, SX, NEG and ABS, RM, SAT and maps. -/
structure Meta where
  sig : Sig
  cls : Nat
  lam : Nat
  ty : Ty
  dw : Nat
  aw : Nat
  bw : Nat
  sels : List Nat
  sx : SxRule
  neg : Bool
  rm : Bool
  sat : Bool
  maps : Bool
  deriving DecidableEq, Repr

/-- The entry of an integer instruction that takes every modifier its width allows (R94). -/
def Meta.int (sig : Sig) (cls lam : Nat) (ty : Ty) : Meta :=
  ⟨sig, cls, lam, ty, max 32 ty.width, max 32 ty.width, max 32 ty.width, [0, 1, 2, 3], .any, true, false, true, true⟩

/-- The entry of a logic, shift, bit-field or move instruction (R94): whole and swizzle only. -/
def Meta.bits (sig : Sig) (lam : Nat) (dw aw bw : Nat) : Meta :=
  ⟨sig, 0, lam, if dw = 64 then .n64 else .n32, dw, aw, bw, [0, 3], .none, false, false, false, true⟩

/-- The entry of a floating arithmetic instruction (R114). -/
def Meta.flt (sig : Sig) (cls lam : Nat) (ty : Ty) : Meta :=
  ⟨sig, cls, lam, ty, max 32 ty.width, max 32 ty.width, max 32 ty.width, [0, 1, 2, 3], .none, true, true, true, true⟩

/-- The entry of a conversion from `src` to `dst` (R114, R125, R126). -/
def Meta.cvt (cls lam : Nat) (dst src : Ty) (rm sat : Bool) : Meta :=
  ⟨.s1, cls, lam, src, max 32 dst.width, 32, max 32 src.width,
    if src.width < 32 then [0, 1] else if src.width = 32 then [0, 3] else [0],
    if src.isFloat then .none else .fixed, true, rm, sat, decide (32 ≤ src.width)⟩

/-- The entry of a PACK to `dst` (R114, R128). -/
def Meta.pack (dst : Ty) : Meta :=
  ⟨.s2, 1, 4, if dst.isFloat then .f32 else if dst.isSigned then .s32 else .n32, 32, 32, 32, [0, 3],
    if dst.isFloat then .none else .any, true, dst.isFloat, true, true⟩

/-- The entry of an instruction of signature E, MEM, AT or BR, whose fields `wfEntry` checks. -/
def Meta.ent (sig : Sig) (cls lam : Nat) : Meta :=
  ⟨sig, cls, lam, .n32, 32, 32, 32, [0], .none, false, false, false, false⟩

/-- The map and compare entry of R101, R122: neither RM nor SAT. -/
def Meta.noRound (m : Meta) : Meta :=
  ⟨m.sig, m.cls, m.lam, m.ty, m.dw, m.aw, m.bw, m.sels, m.sx, m.neg, false, false, m.maps⟩

/-- The type of a row of group 2 (R82). -/
def fltRowTy (op : Nat) : Ty :=
  if op < 0x088 then .f32 else if op < 0x090 then .f16 else if op < 0x098 then .bf16 else .f64

/-- The opcode map with the entries' limits (R80 to R87, R94, R95, R114, R117, R126, R133, R154, R155, R200, R207,
R223, R237); `none` for an unassigned opcode. DEDUCED: log entry 14. -/
def metaOf (op : Nat) : Option Meta :=
  if op < 0x010 then
    let ty : Ty :=
      if op < 0x004 then (if op % 2 = 0 then .s32 else .n32)
      else if op < 0x008 then (if op % 2 = 0 then .s64 else .n64)
      else if op < 0x00C then (if op % 2 = 0 then .s16 else .n16)
      else (if op % 2 = 0 then .s8 else .n8)
    some (Meta.int .s2 0 (if ty.width = 64 then 3 else 2) ty)
  else if op < 0x014 then some (Meta.int .s2 0 2 (if op % 2 = 0 then .s32 else .n32))
  else if op < 0x016 then some (Meta.int .cp 0 2 (if op % 2 = 0 then .s32 else .n32)).noRound
  else if op < 0x018 then some (Meta.int .cp 0 3 (if op % 2 = 0 then .s64 else .n64)).noRound
  else if op < 0x01C then some (Meta.bits .s2 2 32 32 32)
  else if op = 0x01C then some (Meta.bits .s1 2 32 32 32)
  else if op = 0x01D then some (Meta.bits .s3 2 32 32 32)
  else if op < 0x020 then some (Meta.ent .e 0 2)
  else if op < 0x024 then some (Meta.bits .s2 2 32 32 32)
  else if op < 0x027 then some (Meta.bits .s2 3 64 64 32)
  else if op = 0x027 then some (Meta.ent .e 0 2)
  else if op = 0x028 then some (Meta.bits .s1 2 32 32 32)
  else if op = 0x029 then some (Meta.bits .s1 3 64 64 64)
  else if op = 0x02A then some (Meta.bits .sp 2 32 32 32)
  else if op = 0x02B then some (Meta.bits .sp 3 64 64 64)
  else if op = 0x02C then some (Meta.bits .s2 2 32 32 32)
  else if op = 0x02D then some (Meta.bits .s2 3 64 32 64)
  else if op < 0x040 then none
  else if op < 0x042 then some (Meta.int .s2 1 4 (if op % 2 = 0 then .s32 else .n32))
  else if op < 0x044 then
    some ⟨.s2, 1, 5, if op % 2 = 0 then .s32 else .n32, 32, 32, 32, [0, 3], .any, true, false, false, true⟩
  else if op < 0x046 then some (Meta.int .s2 1 4 (if op % 2 = 0 then .s16 else .n16))
  else if op < 0x048 then some (Meta.int .s2 1 4 (if op % 2 = 0 then .s8 else .n8))
  else if op < 0x04A then some (Meta.int .s3 1 4 (if op % 2 = 0 then .s32 else .n32))
  else if op < 0x04C then some (Meta.int .s3 1 4 (if op % 2 = 0 then .s16 else .n16))
  else if op < 0x04F then
    some ⟨.s3, 1, 4, if op = 0x04C then .s8 else if op = 0x04D then .n8 else .n4, 32, 32, 32, [0, 2, 3], .any, true,
      false, true, true⟩
  else if op = 0x04F then none
  else if op < 0x052 then
    some ⟨.s2, 3, 8, if op % 2 = 0 then .s64 else .n64, 64, 64, 64, [0], .any, true, false, true, false⟩
  else if op < 0x054 then
    some ⟨.s2, 3, 8, if op % 2 = 0 then .s64 else .n64, 64, 64, 64, [0], .any, true, false, false, false⟩
  else if op < 0x058 then
    some ⟨.s2, 3, 12, if op % 2 = 0 then .s32 else .n32, 32, 32, 32, [0, 3], .fixed, true, false, false, false⟩
  else if op < 0x05C then
    some ⟨.s2, 3, 16, if op % 2 = 0 then .s64 else .n64, 64, 64, 64, [0], .fixed, true, false, false, false⟩
  else if op < 0x060 then none
  else if op < 0x064 then some (Meta.bits .s1 3 32 32 32)
  else if op < 0x066 then some (Meta.bits .s2 3 32 32 32)
  else if op = 0x066 then some (Meta.bits .s3 3 32 32 32)
  else if op < 0x080 then none
  else if op < 0x0A0 then
    let ty := fltRowTy op
    let cls := if ty = .f64 then 3 else 1
    let lam := if ty = .f64 then 8 else 4
    match op % 8 with
    | 3 => some (Meta.flt .s3 cls (if ty = .f64 then 10 else 5) ty)
    | 6 => some (Meta.flt .cp cls lam ty).noRound
    | 7 => some ⟨.s1, cls, lam, ty, max 32 ty.width, 32, max 32 ty.width,
        if ty.width = 32 then [0, 3] else [0, 2], .none, true, false, false, false⟩
    | _ => some (Meta.flt .s2 cls lam ty)
  else if op < 0x0A6 then
    some ⟨.e, 2, 4, [Ty.n4, .s8, .n8, .e2m1, .e4m3, .e5m2].getD (op - 0x0A0) .n4, 32, 32, 32, [0, 3],
      if op < 0x0A3 then .any else .none, true, true, true, true⟩
  else if op < 0x0C0 then none
  else if op < 0x0D6 then
    [Meta.cvt 1 4 .f32 .f16 false false, .cvt 1 4 .f32 .bf16 false false, .cvt 1 4 .f16 .f32 true true,
      .cvt 1 4 .bf16 .f32 true true, .cvt 3 6 .f64 .f32 false false, .cvt 3 6 .f32 .f64 true true,
      .cvt 1 4 .f32 .e4m3 false false, .cvt 1 4 .f32 .e5m2 false false, .cvt 1 4 .e4m3 .f32 true true,
      .cvt 1 4 .e5m2 .f32 true true, .cvt 1 4 .f32 .e2m1 false false, .cvt 1 4 .e2m1 .f32 true true,
      .cvt 1 4 .f32 .s32 true false, .cvt 1 4 .f32 .n32 true false, .cvt 1 4 .s32 .f32 true false,
      .cvt 1 4 .n32 .f32 true false, .cvt 3 6 .f64 .s64 true false, .cvt 3 6 .f64 .n64 true false,
      .cvt 3 6 .s64 .f64 true false, .cvt 3 6 .n64 .f64 true false, .cvt 3 6 .f64 .s32 false false,
      .cvt 3 6 .s32 .f64 true false][op - 0x0C0]?
  else if op = 0x0D6 then some (Meta.cvt 1 4 .f32 .f32 true false)
  else if op = 0x0D7 then some (Meta.cvt 3 6 .f64 .f64 true false)
  else if op < 0x0E2 then
    some (Meta.pack ([Ty.f16, .bf16, .e4m3, .e5m2, .e2m1, .s16, .n16, .s8, .n8, .n4].getD (op - 0x0D8) .f16))
  else if op < 0x100 then none
  else if op = 0x100 then some (Meta.ent .e 2 0)
  else if op = 0x101 then some (Meta.ent .e 2 0)
  else if op = 0x102 then some (Meta.ent .e 2 3)
  else if op < 0x108 then none
  else if op < 0x10A then some (Meta.ent .e 2 4)
  else if op < 0x10C then some (Meta.ent .e 2 3)
  else if op < 0x10E then some (Meta.ent .e 2 4)
  else if op < 0x140 then none
  else if op < 0x142 then some (Meta.ent .br 0 (if op = 0x141 then 2 else 0))
  else if op < 0x145 then some (Meta.ent .e 0 (if op = 0x143 then 2 else 0))
  else if op < 0x148 then none
  else if op < 0x14D then some (Meta.ent .e 0 0)
  else if op < 0x150 then none
  else if op < 0x154 then some (Meta.ent .e 0 0)
  else if op < 0x158 then none
  else if op < 0x15B then some (Meta.ent .e 0 2)
  else if op < 0x160 then none
  else if op < 0x165 then some (Meta.ent .e 0 0)
  else if op < 0x180 then none
  else if op < 0x187 ∨ (0x188 ≤ op ∧ op < 0x18E) ∨ op = 0x190 ∨ op = 0x191 then some (Meta.ent .mem 0 0)
  else if (0x198 ≤ op ∧ op < 0x1AC) ∨ (0x1B0 ≤ op ∧ op < 0x1C0) then some (Meta.ent .at_ 0 0)
  else if op < 0x1C0 then none
  else if op < 0x1CA then
    some ⟨.e, 0, 0, .f32, 32, 32, 32, [0], .none, true, false, false, true⟩
  else if op < 0x1CC then some (Meta.ent .e 0 0)
  else if op < 0x1D0 then none
  else if op < 0x1D3 then some (Meta.ent .e 0 (if op = 0x1D2 then 3 else 0))
  else if op < 0x1D8 then none
  else if op < 0x1DE then some (Meta.ent .e 0 (if op = 0x1DA then 3 else if op = 0x1DC then 2 else 0))
  else if op < 0x1E0 then none
  else if op < 0x1E4 then some (Meta.ent .e 0 (if op = 0x1E0 then 6 else 0))
  else none

/-- The default modifier byte of R61: SX alone, where the source type is signed. -/
def defaultMod (ty : Ty) : BitVec 8 := if ty.isSigned then 0x20 else 0

/-- The CW an instruction runs with (R61, R373): the one written, or the defaults of its source type. -/
def Fields.cw (f : Fields) (ty : Ty) : CW :=
  match f.enc with
  | .native (some c) => c
  | .native none => ⟨0, defaultMod ty, defaultMod ty, defaultMod ty, 0, false, false⟩
  | .choarnif none => ⟨0, defaultMod ty, defaultMod ty, defaultMod ty, 0, false, false⟩
  | .choarnif (some c) => ⟨0, defaultMod ty, defaultMod ty, defaultMod ty, c.rm, c.sat, c.mz⟩

/-- Whether a CW with modifier bytes and IMM32 was written (X = 1). -/
def Fields.hasCw (f : Fields) : Bool :=
  match f.enc with
  | .native (some _) => true
  | _ => false

/-- The fields of a modifier byte (R62). -/
def modIdx (m : BitVec 8) : Nat := m.toNat % 8
/-- SEL of a modifier byte (R62). -/
def modSel (m : BitVec 8) : Nat := m.toNat / 8 % 4
/-- SX of a modifier byte (R62). -/
def modSx (m : BitVec 8) : Bool := m.getLsbD 5
/-- NEG of a modifier byte (R62). -/
def modNeg (m : BitVec 8) : Bool := m.getLsbD 6
/-- ABS of a modifier byte (R62). -/
def modAbs (m : BitVec 8) : Bool := m.getLsbD 7

/-- A modifier byte an operand of width `w` may carry (R64). -/
def modOk (m : BitVec 8) (w : Nat) (sels : List Nat) (sx : SxRule) (signed neg : Bool) : Bool :=
  let sel := modSel m
  (sel != 0 || modIdx m == 0) &&
  ((sel != 1 && sel != 2) || (decide (w < 32) && decide (modIdx m < 32 / w))) &&
  (sel != 3 || decide (w ≤ 32)) &&
  sels.contains sel &&
  (match sx with | .any => true | .fixed => modSx m == signed | .none => !modSx m) &&
  (neg || (!modNeg m && !modAbs m))

/-- A register number of the right parity: even for a 64-bit operand (R17, R35). -/
def parityOk (n : BitVec 8) (w : Nat) : Bool := w != 64 || n.toNat % 2 == 0

/-- A scalar register field: at most 63, even where a pair is named (R17, R66). -/
def scalarOk (n : BitVec 8) (w : Nat) : Bool := decide (n.toNat ≤ 63) && parityOk n w

/-- The fields of a map reference and of MZ (R70); `va` and `vb` say whether A and B may be mapped here. -/
def mapOk (f : Fields) (ty : Ty) (va vb : Bool) : Bool :=
  (f.mae || f.ma == 0) && (f.mbe || f.mb == 0) && (!f.mae || va) && (!f.mbe || vb) &&
  (!(f.cw ty).mz || f.mae || f.mbe)

/-- The class TC must reach: the base class, or M where an operand is mapped (R72). -/
def classOf (f : Fields) (m : Meta) : Nat := if f.mae || f.mbe then max m.cls 2 else m.cls

/-- The guard of an instruction whose entry fixes it: PG 7, PGN 0 (R155). DEDUCED: log entry 17. -/
def guardFixed (f : Fields) : Bool := f.pg == 7 && !f.pgn

/-- No CW field is written (R133, R156, R195, R201, R223, R230, R237). -/
def noCw (f : Fields) : Bool :=
  match f.enc with
  | .native (some c) => decide (c = ⟨0, 0, 0, 0, 0, false, false⟩)
  | .native none => true
  | .choarnif none => true
  | .choarnif (some c) => decide (c = ⟨0, false, false⟩)

/-- No CW field but IMM32 is written. -/
def onlyImm (f : Fields) : Bool :=
  match f.enc with
  | .native (some c) => decide (c = ⟨c.imm, 0, 0, 0, 0, false, false⟩)
  | _ => noCw f

/-- No CW field but IMM32 and the SX bit of MODB is written (R178, R195). -/
def onlyImmSx (f : Fields) : Bool :=
  match f.enc with
  | .native (some c) => decide (c = ⟨c.imm, 0, c.modB &&& 0x20, 0, 0, false, false⟩)
  | _ => noCw f

/-- The FORM codes an opcode of signature S1, S2 or CP permits (R66, R112, R113, R128). -/
def formOk (op : Nat) (f : Fields) : Bool :=
  let form := f.c.toNat
  if 0x0D8 ≤ op ∧ op < 0x0E2 then decide (form ≤ 1)
  else if op = 0x02C ∨ op = 0x02D then decide (form ≤ 5) && form != 3
  else if op < 0x080 then decide (form ≤ 6) && ((form != 3 && form != 6) || f.hasCw)
  else decide (form ≤ 3) && form != 2 && (form != 3 || f.hasCw)

/-- The registers that D, A and B name under a FORM (R66). -/
def formRegsOk (m : Meta) (f : Fields) : Bool :=
  let form := f.c.toNat
  let sc := decide (4 ≤ form)
  let dOk := if m.sig == .cp then f.d.toNat / 64 == 0 else if sc then scalarOk f.d m.dw else parityOk f.d m.dw
  let aOk := if m.sig == .s1 then f.a == 0 else if sc then scalarOk f.a m.aw else parityOk f.a m.aw
  let bOk :=
    match form with
    | 0 => parityOk f.b m.bw
    | 1 | 4 => scalarOk f.b m.bw
    | 3 | 6 => f.b == 0
    | _ => true
  dOk && aOk && bOk

/-- The condition field of signature CP (R68). -/
def condOk (m : Meta) (f : Fields) : Bool :=
  let cc := f.d.toNat / 8 % 8
  if m.ty.isFloat then decide (cc ≤ 6) else decide (cc ≤ 5)

/-- Whether an operand is read in select-and-widen mode (R62). -/
def isWide (m : BitVec 8) : Bool := modSel m == 1

/-- The two modes of packed instructions (R92, R115), the limits of IDP (R99) and of FCMP (R122). -/
def modeOk (op : Nat) (m : Meta) (f : Fields) : Bool :=
  let c := f.cw m.ty
  let packed := m.ty.width < 32
  if !packed then true
  else if m.sig == .s1 then true
  else if m.sig == .s3 then
    (isWide c.modA == isWide c.modB) && !isWide c.modC && (!isWide c.modA || modSel c.modC == 0)
  else (isWide c.modA == isWide c.modB) && (m.sig != .cp || isWide c.modA) && decide (op < 0x0A0)

/-- The modifier bytes written for A, B and C (R64, R94, R114). -/
def modsOk (op : Nat) (m : Meta) (f : Fields) : Bool :=
  match f.enc with
  | .native (some c) =>
    let sg := m.ty.isSigned
    let okA := modOk c.modA m.ty.width m.sels m.sx sg m.neg
    let okB := modOk c.modB m.ty.width m.sels m.sx sg m.neg
    let okC := modOk c.modC m.ty.width m.sels m.sx sg m.neg
    if op = 0x02C ∨ op = 0x02D then
      -- LEA: A whole or swizzle with SX; B whole, SX as MOV64 (no FORM of LEA is 0x03 or 0x06)
      modOk c.modA 32 [0, 3] .any false false && modOk c.modB m.bw [0] .none false false && c.modC == 0
    else if op = 0x029 then
      -- MOV64: SX on B with FORM 0x03 and 0x06 only
      c.modA == 0 && c.modC == 0 &&
      modOk c.modB 64 [0] (if f.c == 3 || f.c == 6 then .any else .none) false false
    else if 0x024 ≤ op ∧ op < 0x027 then
      -- 64-bit shifts: A a pair, B a 32-bit count
      modOk c.modA 64 [0] .none false false && modOk c.modB 32 [0, 3] .none false false && c.modC == 0
    else
      match m.sig with
      | .s1 => c.modA == 0 && okB && c.modC == 0
      | .s3 =>
        let okC' := if 0x04C ≤ op ∧ op < 0x04F then modOk c.modC 32 [0, 3] .any sg true else okC
        okA && okB && okC'
      | _ => okA && okB && c.modC == 0
  | _ => true

/-- RM and SAT only where the entry takes them (R79, R94, R114). -/
def roundOk (m : Meta) (f : Fields) : Bool :=
  ((f.cw m.ty).rm == 0 || m.rm) && (!(f.cw m.ty).sat || m.sat)

/-- IMM32 where an entry fixes it: BITMIX's table (R103), LEA's shift (R112), PACK's position (R128); elsewhere any value (R61), read
or not. DEDUCED: log entry 56. -/
def immOk (op : Nat) (m : Meta) (f : Fields) : Bool :=
  let imm := (f.cw m.ty).imm.toNat
  if op = 0x01D then decide (imm < 256)
  else if op = 0x02C ∨ op = 0x02D then decide (imm < 16)
  else if 0x0D8 ≤ op ∧ op < 0x0E2 then
    let w := ([Ty.f16, .bf16, .e4m3, .e5m2, .e2m1, .s16, .n16, .s8, .n8, .n4].getD (op - 0x0D8) .f16).width
    decide (imm < 4) && decide (imm < 16 / w)
  else true

/-- A CPCMD's parameter block (R209). -/
def cpcmdPbOk (pb : PB) : Bool :=
  pb.w2.toNat != 0 && decide (pb.w2.toNat < 2 ^ 24) && (pb.w3.toNat % 4 == 0 || pb.w3 == 0xFFFFFFFF)

/-- The fields of a tile's parameter block (R187): COLS, ROWS, NREG. -/
def pbCols (pb : PB) : Nat := pb.w1.toNat % 512
/-- ROWS of a tile (R187). -/
def pbRows (pb : PB) : Nat := pb.w1.toNat / 512 % 512
/-- NREG of a tile (R187). -/
def pbNreg (pb : PB) : Nat := pb.w1.toNat / 2 ^ 18 % 16
/-- T of a tile (R187). -/
def pbT (pb : PB) : Bool := pb.w1.getLsbD 22

/-- A tile's parameter block (R187). -/
def tilePbOk (pb : PB) : Bool :=
  decide (pb.w1.toNat < 2 ^ 23) && pb.w3 == 0 && pbCols pb != 0 && decide (pbCols pb ≤ 256) && pbRows pb != 0 &&
  decide (pbRows pb ≤ 256) && pbNreg pb != 0 && decide (pbNreg pb ≤ 8) &&
  pbRows pb * pbCols pb == 32 * pbNreg pb && pb.w0.toNat % 4 == 0

/-- The lane field of BCAST, RDLANE and WRLANE (R154). -/
def laneOk (f : Fields) : Bool :=
  (f.c == 0 && decide (f.b.toNat < 32)) || (f.c == 1 && decide (f.b.toNat ≤ 63))

/-- The register size of a memory instruction, in words (R186, R187): 1, 2 for a pair, 4 for a quad. -/
def memWords (op : Nat) : Nat :=
  if op = 0x185 ∨ op = 0x18B then 2 else if op = 0x186 ∨ op = 0x18C then 4 else 1

/-- The data and offset registers of LD, LDQ, ST and STQ (R178, R186). -/
def memRegsOk (op : Nat) (f : Fields) : Bool :=
  f.d.toNat % memWords op == 0 && decide (f.c.toNat ≤ 1) &&
  (f.c == 0 || (decide (f.d.toNat + memWords op ≤ 64) && decide (f.b.toNat ≤ 63)))

/-- The result and data registers of ATOM and RED (R67, R189). -/
def atRegsOk (op : Nat) (f : Fields) : Bool :=
  let red := decide (0x1B0 ≤ op)
  let pairD := op = 0x199 ∨ op = 0x1A7 ∨ op = 0x1A9 ∨ op = 0x1AB
  let c64 := op = 0x199 ∨ op = 0x1A9 ∨ op = 0x1B1
  (if red then f.d == 0 else !decide pairD || f.d.toNat % 2 == 0) &&
  (if op = 0x1AB then f.c.toNat % 4 == 0 else if op = 0x1AA ∨ c64 then f.c.toNat % 2 == 0 else true)

/-- System-register numbers that exist (R219, R225). -/
def sysRegOk (n : Nat) : Bool := decide (0x100 ≤ n) && decide (n < 0x120) && n % 8 != 7

/-- SREAD's register and form (R25, R224). -/
def sreadOk (f : Fields) : Bool :=
  let n := f.a.toNat
  let is64 := n = 0x00 ∨ n = 0x01 ∨ n = 0x0B ∨ n = 0x0E
  let perLane := n = 0x02 ∨ n = 0x03
  decide (n ≤ 0x0E) &&
  (match f.c.toNat with
   | 0 => !decide is64 && !decide perLane && scalarOk f.d 32
   | 1 => decide is64 && scalarOk f.d 64
   | 2 => !decide is64
   | _ => false)

/-- The field limits of the instructions of signatures E, BR, MEM and AT, by their entries; a CW on PLOP, PRDS or PWRS has IMM32 0 (R67),
one on a FACC or a special-function request any IMM32, since R119 and R201 name its other fields alone. DEDUCED: log entry 56. -/
def wfEntry (op : Nat) (f : Fields) (pb : PB) : Bool :=
  let noMap := !f.mae && !f.mbe && f.ma == 0 && f.mb == 0 && !(f.cw .n32).mz
  let b0 := f.b == 0
  let c0 := f.c == 0
  let d0 := f.d == 0
  let a0 := f.a == 0
  let p (n : BitVec 8) := decide (n.toNat < 8)
  let n4 (n : BitVec 8) := decide (n.toNat < 16)
  let s (n : BitVec 8) := decide (n.toNat ≤ 63)
  let s2 (n : BitVec 8) := scalarOk n 64
  match op with
  | 0x01E => noMap && noCw f && decide (f.d.toNat < 64) && p f.a && p f.b
  | 0x01F => noMap && noCw f && s f.d && p f.a && b0 && c0
  | 0x027 => noMap && noCw f && p f.d && s f.a && b0 && c0
  | 0x100 => noMap && noCw f && n4 f.d && s f.a && s f.b && c0
  | 0x101 => noMap && noCw f && n4 f.d && a0 && b0 && c0
  | 0x102 => noMap && noCw f && s f.d && n4 f.a && b0 && decide (f.c.toNat ≤ 1)
  | 0x108 => noMap && noCw f && c0
  | 0x109 => noMap && noCw f && laneOk f
  | 0x10A => noMap && noCw f && s f.d && laneOk f
  | 0x10B => noMap && noCw f && s f.a && laneOk f
  | 0x10C => noMap && noCw f && c0
  | 0x10D => noMap && noCw f && f.a.toNat % 2 == 0 && f.b.toNat % 2 == 0 && c0
  | 0x140 => noMap && noCw f && d0
  | 0x141 => noMap && noCw f && s2 f.d
  | 0x142 => noMap && noCw f && d0 && b0 && decide (f.c.toNat ≤ 1) && (if f.c == 0 then f.a.toNat % 2 == 0 else s2 f.a)
  | 0x143 => noMap && noCw f && s2 f.d && b0 && decide (f.c.toNat ≤ 1) && (if f.c == 0 then f.a.toNat % 2 == 0 else s2 f.a)
  | 0x144 => noMap && noCw f && d0 && s2 f.a && b0 && c0
  | 0x148 | 0x149 => noMap && noCw f && d0 && a0 && b0 && c0 && guardFixed f
  | 0x14A | 0x14B | 0x14C => noMap && noCw f && d0 && a0 && b0 && c0
  | 0x150 | 0x151 | 0x152 => noMap && noCw f && d0 && a0 && n4 f.b && c0 && guardFixed f
  | 0x153 => noMap && noCw f && d0 && a0 && n4 f.b && !c0 && decide (f.c.toNat ≤ 32) && guardFixed f
  | 0x158 | 0x159 => noMap && noCw f && p f.d && p f.a && b0 && c0
  | 0x15A => noMap && noCw f && s f.d && p f.a && b0 && c0
  | 0x160 => noMap && noCw f && d0 && s f.a && s f.b && s f.c && guardFixed f
  | 0x161 => noMap && onlyImmSx f && decide (f.d.toNat % 8 ≤ 5) && decide (f.d.toNat / 32 ≤ 4) && n4 f.a && s f.b &&
      (if f.d.getLsbD 3 then s2 f.c else s f.c)
  | 0x162 | 0x163 | 0x164 => noMap && noCw f && d0 && a0 && decide (f.b.toNat ≤ 4) && c0 && guardFixed f
  | 0x18D => noMap && onlyImmSx f && decide (f.d.toNat ≤ 1) && n4 f.a && decide (f.c.toNat ≤ 1) && (c0 || s f.b)
  | 0x190 | 0x191 => noMap && onlyImm f && n4 f.a && s f.b && f.c == 1 && tilePbOk pb
  | 0x1CA => noMap && noCw f && n4 f.a && b0 && c0
  | 0x1CB => noMap && noCw f && d0 && a0 && guardFixed f
  | 0x1D0 => noMap && noCw f && f.d.toNat % 4 == 0 && decide (f.d.toNat ≤ 60)
  | 0x1D1 => noMap && onlyImm f && n4 f.d && n4 f.a && s f.b && s f.c && cpcmdPbOk pb
  | 0x1D2 => noMap && noCw f && s f.d && a0 && decide (f.b.toNat ≤ 8) && c0
  | 0x1D8 => noMap && noCw f && d0 && c0 && guardFixed f
  | 0x1D9 => noMap && noCw f && d0 && a0 && b0 && c0 && guardFixed f
  | 0x1DA => noMap && !f.hasCw && noCw f && b0 && sreadOk f
  | 0x1DB => noMap && noCw f && d0 && a0 && b0 && c0 && guardFixed f
  | 0x1DC => noMap && noCw f && s f.d && a0 && decide (f.b.toNat < 16) && c0 && guardFixed f
  | 0x1DD => noMap && noCw f && d0 && s f.a && (f.b == 0 || f.b == 4 || f.b == 5 || (decide (12 ≤ f.b.toNat) &&
      decide (f.b.toNat < 16))) && c0 && guardFixed f
  | 0x1E0 => noMap && f.hasCw && onlyImm f && s2 f.d && a0 && b0 && c0 && sysRegOk (f.cw .n32).imm.toNat
  | 0x1E1 => noMap && f.hasCw && onlyImm f && d0 && s2 f.a && b0 && c0 && sysRegOk (f.cw .n32).imm.toNat
  | 0x1E2 => noMap && !f.hasCw && noCw f && decide (f.d.toNat < 8) && f.d.toNat % 4 != 3 && s f.a && b0 && c0 && guardFixed f
  | 0x1E3 => noMap && !f.hasCw && noCw f && d0 && s f.a && b0 && c0 && guardFixed f
  | _ =>
    if 0x0A0 ≤ op ∧ op < 0x0A6 then
      let pos := if op = 0x0A0 ∨ op = 0x0A3 then 8 else 4
      let ty := [Ty.n4, .s8, .n8, .e2m1, .e4m3, .e5m2].getD (op - 0x0A0) .n4
      f.d.toNat % pos == 0 && f.mae && !f.mbe && f.mb == 0 && b0 && c0 &&
      (match f.enc with
       | .native (some c) =>
         modOk c.modA ty.width [0, 3] (if op < 0x0A3 then .any else .none) ty.isSigned true && c.modB == 0 && c.modC == 0
       | _ => true)
    else if 0x180 ≤ op ∧ op < 0x18D then noMap && onlyImmSx f && n4 f.a && memRegsOk op f
    else if 0x198 ≤ op ∧ op < 0x1C0 then noMap && onlyImmSx f && n4 f.a && atRegsOk op f
    else if 0x1C0 ≤ op ∧ op < 0x1CA then
      n4 f.d && b0 && c0 && mapOk f .f32 true false && (f.cw .f32).rm == 0 && !(f.cw .f32).sat &&
      (match f.enc with
       | .native (some c) => modOk c.modA 32 [0] .none false true && c.modB == 0 && c.modC == 0
       | _ => true)
    else false

/-- Whether an opcode's instruction carries a PB (R86, R87). -/
def hasPb (op : Nat) : Bool := op == 0x190 || op == 0x191 || op == 0x1D1

/-- Choarnif's own limits (R373): no PB, no field above 63, no form that needs IMM32, BR with C1. -/
def choarnifOk (op : Nat) (m : Meta) (f : Fields) : Bool :=
  match f.enc with
  | .native _ => true
  | .choarnif c1 =>
    !hasPb op && decide (f.d.toNat ≤ 63) && f.tc.toNat == min 3 (classOf f m) && f.stall == 0 &&
    (m.sig == .br || (decide (f.a.toNat ≤ 63) && decide (f.b.toNat ≤ 63))) &&
    (match c1 with
     | none => m.sig != .br && f.c == 0 && !f.mae && !f.mbe && f.ma == 0 && f.mb == 0 && !f.y
     | some _ => m.sig != .br || (!f.mae && !f.mbe && f.ma == 0 && f.mb == 0 && !f.y && noCw f))

/-- The decode checks of R79 that the words alone decide, on an opcode and its fields. -/
def wfFields (op : Nat) (f : Fields) (pb : PB) : Bool :=
  match metaOf op with
  | none => false
  | some m =>
    decide (classOf f m ≤ f.tc.toNat) && choarnifOk op m f &&
    (match m.sig with
     | .s1 => formOk op f && formRegsOk m f && modsOk op m f && modeOk op m f && roundOk m f && immOk op m f &&
         mapOk f m.ty false (m.maps && f.c == 0)
     | .s2 => formOk op f && formRegsOk m f && modsOk op m f && modeOk op m f && roundOk m f && immOk op m f &&
         mapOk f m.ty (m.maps && decide (f.c.toNat < 4)) (m.maps && f.c == 0)
     | .cp => formOk op f && formRegsOk m f && modsOk op m f && modeOk op m f && roundOk m f && condOk m f &&
         mapOk f m.ty (m.maps && decide (f.c.toNat < 4)) (m.maps && f.c == 0)
     | .s3 => parityOk f.d m.dw && parityOk f.a m.aw && parityOk f.b m.bw && parityOk f.c m.dw && modsOk op m f &&
         modeOk op m f && roundOk m f && immOk op m f && mapOk f m.ty m.maps m.maps
     | .sp => parityOk f.d m.dw && parityOk f.a m.aw && parityOk f.b m.bw && decide (f.c.toNat < 8) && modsOk op m f &&
         roundOk m f && mapOk f m.ty m.maps m.maps
     | _ => wfEntry op f pb)

/-- A copy word's fields that must be zero, and the multiple of 4 of DONE (R211), a breach of which halts the program with ILL as theirs
does. DESIGN CHOICE: log entry 58. -/
def wfCopy (co : Nat) (w : CopyWord) : Bool :=
  match co with
  | 0x01 => w.mid == 0 && w.hi == 0
  | 0x02 => w.mid == 0
  | 0x03 | 0x04 => decide (w.lo.toNat < 8) && w.mid == 0
  | 0x05 => w.lo.toNat / 8 % 32 == 0 && w.hi == 0
  | 0x06 | 0x07 => decide (w.lo.toNat < 8) && w.mid == 0 && w.hi == 0
  | 0x08 | 0x0A => w.lo == 0 && w.mid == 0 && w.hi == 0
  | 0x09 => decide (w.lo.toNat < 8) && w.mid == 0 && w.hi.toNat % 4 == 0
  | _ => false

/-- A task's EXT agrees with its extension words, and each X0 is zero but for the phase (R246, R247). -/
def wfTask (top : Nat) (t : TaskWord) : Bool :=
  t.ext.length == t.t0.toNat % 4 && t.ext.all (fun e => e.x0 == 0) &&
  (match top with
   | 0x01 | 0x02 => true
   | 0x03 | 0x04 => t.ext.length == 1
   | _ => t.ext.length == 0)

/-- The Dzidel opcode of a rope instruction with its fields and PB (R80 to R87); `none` for the other rows. -/
def Instr.rope? : Instr → Option (Nat × Fields × PB)
  | .iaddS32 f => some (0x000, f, ⟨0, 0, 0, 0⟩)
  | .iaddN32 f => some (0x001, f, ⟨0, 0, 0, 0⟩)
  | .isubS32 f => some (0x002, f, ⟨0, 0, 0, 0⟩)
  | .isubN32 f => some (0x003, f, ⟨0, 0, 0, 0⟩)
  | .iaddS64 f => some (0x004, f, ⟨0, 0, 0, 0⟩)
  | .iaddN64 f => some (0x005, f, ⟨0, 0, 0, 0⟩)
  | .isubS64 f => some (0x006, f, ⟨0, 0, 0, 0⟩)
  | .isubN64 f => some (0x007, f, ⟨0, 0, 0, 0⟩)
  | .iaddS16 f => some (0x008, f, ⟨0, 0, 0, 0⟩)
  | .iaddN16 f => some (0x009, f, ⟨0, 0, 0, 0⟩)
  | .isubS16 f => some (0x00A, f, ⟨0, 0, 0, 0⟩)
  | .isubN16 f => some (0x00B, f, ⟨0, 0, 0, 0⟩)
  | .iaddS8 f => some (0x00C, f, ⟨0, 0, 0, 0⟩)
  | .iaddN8 f => some (0x00D, f, ⟨0, 0, 0, 0⟩)
  | .isubS8 f => some (0x00E, f, ⟨0, 0, 0, 0⟩)
  | .isubN8 f => some (0x00F, f, ⟨0, 0, 0, 0⟩)
  | .iminS32 f => some (0x010, f, ⟨0, 0, 0, 0⟩)
  | .iminN32 f => some (0x011, f, ⟨0, 0, 0, 0⟩)
  | .imaxS32 f => some (0x012, f, ⟨0, 0, 0, 0⟩)
  | .imaxN32 f => some (0x013, f, ⟨0, 0, 0, 0⟩)
  | .icmpS32 f => some (0x014, f, ⟨0, 0, 0, 0⟩)
  | .icmpN32 f => some (0x015, f, ⟨0, 0, 0, 0⟩)
  | .icmpS64 f => some (0x016, f, ⟨0, 0, 0, 0⟩)
  | .icmpN64 f => some (0x017, f, ⟨0, 0, 0, 0⟩)
  | .andB f => some (0x018, f, ⟨0, 0, 0, 0⟩)
  | .orB f => some (0x019, f, ⟨0, 0, 0, 0⟩)
  | .xorB f => some (0x01A, f, ⟨0, 0, 0, 0⟩)
  | .andnB f => some (0x01B, f, ⟨0, 0, 0, 0⟩)
  | .notB f => some (0x01C, f, ⟨0, 0, 0, 0⟩)
  | .bitmix f => some (0x01D, f, ⟨0, 0, 0, 0⟩)
  | .plop f => some (0x01E, f, ⟨0, 0, 0, 0⟩)
  | .prds f => some (0x01F, f, ⟨0, 0, 0, 0⟩)
  | .pwrs f => some (0x027, f, ⟨0, 0, 0, 0⟩)
  | .shlN32 f => some (0x020, f, ⟨0, 0, 0, 0⟩)
  | .shrN32 f => some (0x021, f, ⟨0, 0, 0, 0⟩)
  | .shrS32 f => some (0x022, f, ⟨0, 0, 0, 0⟩)
  | .rolN32 f => some (0x023, f, ⟨0, 0, 0, 0⟩)
  | .shlN64 f => some (0x024, f, ⟨0, 0, 0, 0⟩)
  | .shrN64 f => some (0x025, f, ⟨0, 0, 0, 0⟩)
  | .shrS64 f => some (0x026, f, ⟨0, 0, 0, 0⟩)
  | .mov f => some (0x028, f, ⟨0, 0, 0, 0⟩)
  | .mov64 f => some (0x029, f, ⟨0, 0, 0, 0⟩)
  | .sel f => some (0x02A, f, ⟨0, 0, 0, 0⟩)
  | .sel64 f => some (0x02B, f, ⟨0, 0, 0, 0⟩)
  | .leaN32 f => some (0x02C, f, ⟨0, 0, 0, 0⟩)
  | .leaN64 f => some (0x02D, f, ⟨0, 0, 0, 0⟩)
  | .imulS32 f => some (0x040, f, ⟨0, 0, 0, 0⟩)
  | .imulN32 f => some (0x041, f, ⟨0, 0, 0, 0⟩)
  | .imulhS32 f => some (0x042, f, ⟨0, 0, 0, 0⟩)
  | .imulhN32 f => some (0x043, f, ⟨0, 0, 0, 0⟩)
  | .imulS16 f => some (0x044, f, ⟨0, 0, 0, 0⟩)
  | .imulN16 f => some (0x045, f, ⟨0, 0, 0, 0⟩)
  | .imulS8 f => some (0x046, f, ⟨0, 0, 0, 0⟩)
  | .imulN8 f => some (0x047, f, ⟨0, 0, 0, 0⟩)
  | .imadS32 f => some (0x048, f, ⟨0, 0, 0, 0⟩)
  | .imadN32 f => some (0x049, f, ⟨0, 0, 0, 0⟩)
  | .imadS16 f => some (0x04A, f, ⟨0, 0, 0, 0⟩)
  | .imadN16 f => some (0x04B, f, ⟨0, 0, 0, 0⟩)
  | .idpS8 f => some (0x04C, f, ⟨0, 0, 0, 0⟩)
  | .idpN8 f => some (0x04D, f, ⟨0, 0, 0, 0⟩)
  | .idpN4 f => some (0x04E, f, ⟨0, 0, 0, 0⟩)
  | .imulS64 f => some (0x050, f, ⟨0, 0, 0, 0⟩)
  | .imulN64 f => some (0x051, f, ⟨0, 0, 0, 0⟩)
  | .imulhS64 f => some (0x052, f, ⟨0, 0, 0, 0⟩)
  | .imulhN64 f => some (0x053, f, ⟨0, 0, 0, 0⟩)
  | .idivS32 f => some (0x054, f, ⟨0, 0, 0, 0⟩)
  | .idivN32 f => some (0x055, f, ⟨0, 0, 0, 0⟩)
  | .iremS32 f => some (0x056, f, ⟨0, 0, 0, 0⟩)
  | .iremN32 f => some (0x057, f, ⟨0, 0, 0, 0⟩)
  | .idivS64 f => some (0x058, f, ⟨0, 0, 0, 0⟩)
  | .idivN64 f => some (0x059, f, ⟨0, 0, 0, 0⟩)
  | .iremS64 f => some (0x05A, f, ⟨0, 0, 0, 0⟩)
  | .iremN64 f => some (0x05B, f, ⟨0, 0, 0, 0⟩)
  | .popcN32 f => some (0x060, f, ⟨0, 0, 0, 0⟩)
  | .clzN32 f => some (0x061, f, ⟨0, 0, 0, 0⟩)
  | .ctzN32 f => some (0x062, f, ⟨0, 0, 0, 0⟩)
  | .brevN32 f => some (0x063, f, ⟨0, 0, 0, 0⟩)
  | .bfeS32 f => some (0x064, f, ⟨0, 0, 0, 0⟩)
  | .bfeN32 f => some (0x065, f, ⟨0, 0, 0, 0⟩)
  | .bfiN32 f => some (0x066, f, ⟨0, 0, 0, 0⟩)
  | .faddF32 f => some (0x080, f, ⟨0, 0, 0, 0⟩)
  | .fsubF32 f => some (0x081, f, ⟨0, 0, 0, 0⟩)
  | .fmulF32 f => some (0x082, f, ⟨0, 0, 0, 0⟩)
  | .ffmaF32 f => some (0x083, f, ⟨0, 0, 0, 0⟩)
  | .fminF32 f => some (0x084, f, ⟨0, 0, 0, 0⟩)
  | .fmaxF32 f => some (0x085, f, ⟨0, 0, 0, 0⟩)
  | .fcmpF32 f => some (0x086, f, ⟨0, 0, 0, 0⟩)
  | .fclassF32 f => some (0x087, f, ⟨0, 0, 0, 0⟩)
  | .faddF16 f => some (0x088, f, ⟨0, 0, 0, 0⟩)
  | .fsubF16 f => some (0x089, f, ⟨0, 0, 0, 0⟩)
  | .fmulF16 f => some (0x08A, f, ⟨0, 0, 0, 0⟩)
  | .ffmaF16 f => some (0x08B, f, ⟨0, 0, 0, 0⟩)
  | .fminF16 f => some (0x08C, f, ⟨0, 0, 0, 0⟩)
  | .fmaxF16 f => some (0x08D, f, ⟨0, 0, 0, 0⟩)
  | .fcmpF16 f => some (0x08E, f, ⟨0, 0, 0, 0⟩)
  | .fclassF16 f => some (0x08F, f, ⟨0, 0, 0, 0⟩)
  | .faddBf16 f => some (0x090, f, ⟨0, 0, 0, 0⟩)
  | .fsubBf16 f => some (0x091, f, ⟨0, 0, 0, 0⟩)
  | .fmulBf16 f => some (0x092, f, ⟨0, 0, 0, 0⟩)
  | .ffmaBf16 f => some (0x093, f, ⟨0, 0, 0, 0⟩)
  | .fminBf16 f => some (0x094, f, ⟨0, 0, 0, 0⟩)
  | .fmaxBf16 f => some (0x095, f, ⟨0, 0, 0, 0⟩)
  | .fcmpBf16 f => some (0x096, f, ⟨0, 0, 0, 0⟩)
  | .fclassBf16 f => some (0x097, f, ⟨0, 0, 0, 0⟩)
  | .faddF64 f => some (0x098, f, ⟨0, 0, 0, 0⟩)
  | .fsubF64 f => some (0x099, f, ⟨0, 0, 0, 0⟩)
  | .fmulF64 f => some (0x09A, f, ⟨0, 0, 0, 0⟩)
  | .ffmaF64 f => some (0x09B, f, ⟨0, 0, 0, 0⟩)
  | .fminF64 f => some (0x09C, f, ⟨0, 0, 0, 0⟩)
  | .fmaxF64 f => some (0x09D, f, ⟨0, 0, 0, 0⟩)
  | .fcmpF64 f => some (0x09E, f, ⟨0, 0, 0, 0⟩)
  | .fclassF64 f => some (0x09F, f, ⟨0, 0, 0, 0⟩)
  | .faccN4 f => some (0x0A0, f, ⟨0, 0, 0, 0⟩)
  | .faccS8 f => some (0x0A1, f, ⟨0, 0, 0, 0⟩)
  | .faccN8 f => some (0x0A2, f, ⟨0, 0, 0, 0⟩)
  | .faccE2m1 f => some (0x0A3, f, ⟨0, 0, 0, 0⟩)
  | .faccE4m3 f => some (0x0A4, f, ⟨0, 0, 0, 0⟩)
  | .faccE5m2 f => some (0x0A5, f, ⟨0, 0, 0, 0⟩)
  | .cvtF32F16 f => some (0x0C0, f, ⟨0, 0, 0, 0⟩)
  | .cvtF32Bf16 f => some (0x0C1, f, ⟨0, 0, 0, 0⟩)
  | .cvtF16F32 f => some (0x0C2, f, ⟨0, 0, 0, 0⟩)
  | .cvtBf16F32 f => some (0x0C3, f, ⟨0, 0, 0, 0⟩)
  | .cvtF64F32 f => some (0x0C4, f, ⟨0, 0, 0, 0⟩)
  | .cvtF32F64 f => some (0x0C5, f, ⟨0, 0, 0, 0⟩)
  | .cvtF32E4m3 f => some (0x0C6, f, ⟨0, 0, 0, 0⟩)
  | .cvtF32E5m2 f => some (0x0C7, f, ⟨0, 0, 0, 0⟩)
  | .cvtE4m3F32 f => some (0x0C8, f, ⟨0, 0, 0, 0⟩)
  | .cvtE5m2F32 f => some (0x0C9, f, ⟨0, 0, 0, 0⟩)
  | .cvtF32E2m1 f => some (0x0CA, f, ⟨0, 0, 0, 0⟩)
  | .cvtE2m1F32 f => some (0x0CB, f, ⟨0, 0, 0, 0⟩)
  | .cvtF32S32 f => some (0x0CC, f, ⟨0, 0, 0, 0⟩)
  | .cvtF32N32 f => some (0x0CD, f, ⟨0, 0, 0, 0⟩)
  | .cvtS32F32 f => some (0x0CE, f, ⟨0, 0, 0, 0⟩)
  | .cvtN32F32 f => some (0x0CF, f, ⟨0, 0, 0, 0⟩)
  | .cvtF64S64 f => some (0x0D0, f, ⟨0, 0, 0, 0⟩)
  | .cvtF64N64 f => some (0x0D1, f, ⟨0, 0, 0, 0⟩)
  | .cvtS64F64 f => some (0x0D2, f, ⟨0, 0, 0, 0⟩)
  | .cvtN64F64 f => some (0x0D3, f, ⟨0, 0, 0, 0⟩)
  | .cvtF64S32 f => some (0x0D4, f, ⟨0, 0, 0, 0⟩)
  | .cvtS32F64 f => some (0x0D5, f, ⟨0, 0, 0, 0⟩)
  | .frndF32 f => some (0x0D6, f, ⟨0, 0, 0, 0⟩)
  | .frndF64 f => some (0x0D7, f, ⟨0, 0, 0, 0⟩)
  | .packF16 f => some (0x0D8, f, ⟨0, 0, 0, 0⟩)
  | .packBf16 f => some (0x0D9, f, ⟨0, 0, 0, 0⟩)
  | .packE4m3 f => some (0x0DA, f, ⟨0, 0, 0, 0⟩)
  | .packE5m2 f => some (0x0DB, f, ⟨0, 0, 0, 0⟩)
  | .packE2m1 f => some (0x0DC, f, ⟨0, 0, 0, 0⟩)
  | .packS16 f => some (0x0DD, f, ⟨0, 0, 0, 0⟩)
  | .packN16 f => some (0x0DE, f, ⟨0, 0, 0, 0⟩)
  | .packS8 f => some (0x0DF, f, ⟨0, 0, 0, 0⟩)
  | .packN8 f => some (0x0E0, f, ⟨0, 0, 0, 0⟩)
  | .packN4 f => some (0x0E1, f, ⟨0, 0, 0, 0⟩)
  | .mapld f => some (0x100, f, ⟨0, 0, 0, 0⟩)
  | .mapclr f => some (0x101, f, ⟨0, 0, 0, 0⟩)
  | .mapq f => some (0x102, f, ⟨0, 0, 0, 0⟩)
  | .shfl f => some (0x108, f, ⟨0, 0, 0, 0⟩)
  | .bcast f => some (0x109, f, ⟨0, 0, 0, 0⟩)
  | .rdlane f => some (0x10A, f, ⟨0, 0, 0, 0⟩)
  | .wrlane f => some (0x10B, f, ⟨0, 0, 0, 0⟩)
  | .matchN32 f => some (0x10C, f, ⟨0, 0, 0, 0⟩)
  | .matchN64 f => some (0x10D, f, ⟨0, 0, 0, 0⟩)
  | .bra f => some (0x140, f, ⟨0, 0, 0, 0⟩)
  | .call f => some (0x141, f, ⟨0, 0, 0, 0⟩)
  | .jmpi f => some (0x142, f, ⟨0, 0, 0, 0⟩)
  | .calli f => some (0x143, f, ⟨0, 0, 0, 0⟩)
  | .ret f => some (0x144, f, ⟨0, 0, 0, 0⟩)
  | .splice f => some (0x148, f, ⟨0, 0, 0, 0⟩)
  | .spliceC f => some (0x149, f, ⟨0, 0, 0, 0⟩)
  | .yield f => some (0x14A, f, ⟨0, 0, 0, 0⟩)
  | .nop f => some (0x14B, f, ⟨0, 0, 0, 0⟩)
  | .exit f => some (0x14C, f, ⟨0, 0, 0, 0⟩)
  | .barSync f => some (0x150, f, ⟨0, 0, 0, 0⟩)
  | .barArr f => some (0x151, f, ⟨0, 0, 0, 0⟩)
  | .barWait f => some (0x152, f, ⟨0, 0, 0, 0⟩)
  | .barSet f => some (0x153, f, ⟨0, 0, 0, 0⟩)
  | .voteAny f => some (0x158, f, ⟨0, 0, 0, 0⟩)
  | .voteAll f => some (0x159, f, ⟨0, 0, 0, 0⟩)
  | .voteBal f => some (0x15A, f, ⟨0, 0, 0, 0⟩)
  | .waitc f => some (0x160, f, ⟨0, 0, 0, 0⟩)
  | .waitv f => some (0x161, f, ⟨0, 0, 0, 0⟩)
  | .fenceAcq f => some (0x162, f, ⟨0, 0, 0, 0⟩)
  | .fenceRel f => some (0x163, f, ⟨0, 0, 0, 0⟩)
  | .fenceAr f => some (0x164, f, ⟨0, 0, 0, 0⟩)
  | .ldN8 f => some (0x180, f, ⟨0, 0, 0, 0⟩)
  | .ldS8 f => some (0x181, f, ⟨0, 0, 0, 0⟩)
  | .ldN16 f => some (0x182, f, ⟨0, 0, 0, 0⟩)
  | .ldS16 f => some (0x183, f, ⟨0, 0, 0, 0⟩)
  | .ldN32 f => some (0x184, f, ⟨0, 0, 0, 0⟩)
  | .ldN64 f => some (0x185, f, ⟨0, 0, 0, 0⟩)
  | .ldqN32 f => some (0x186, f, ⟨0, 0, 0, 0⟩)
  | .stN8 f => some (0x188, f, ⟨0, 0, 0, 0⟩)
  | .stN16 f => some (0x189, f, ⟨0, 0, 0, 0⟩)
  | .stN32 f => some (0x18A, f, ⟨0, 0, 0, 0⟩)
  | .stN64 f => some (0x18B, f, ⟨0, 0, 0, 0⟩)
  | .stqN32 f => some (0x18C, f, ⟨0, 0, 0, 0⟩)
  | .pref f => some (0x18D, f, ⟨0, 0, 0, 0⟩)
  | .ldt f pb => some (0x190, f, pb)
  | .stt f pb => some (0x191, f, pb)
  | .atomAddN32 f => some (0x198, f, ⟨0, 0, 0, 0⟩)
  | .atomAddN64 f => some (0x199, f, ⟨0, 0, 0, 0⟩)
  | .atomAddF32 f => some (0x19A, f, ⟨0, 0, 0, 0⟩)
  | .atomAdd2Bf16 f => some (0x19B, f, ⟨0, 0, 0, 0⟩)
  | .atomMinS32 f => some (0x19C, f, ⟨0, 0, 0, 0⟩)
  | .atomMinN32 f => some (0x19D, f, ⟨0, 0, 0, 0⟩)
  | .atomMinF32 f => some (0x19E, f, ⟨0, 0, 0, 0⟩)
  | .atomMaxS32 f => some (0x19F, f, ⟨0, 0, 0, 0⟩)
  | .atomMaxN32 f => some (0x1A0, f, ⟨0, 0, 0, 0⟩)
  | .atomMaxF32 f => some (0x1A1, f, ⟨0, 0, 0, 0⟩)
  | .atomAndN32 f => some (0x1A2, f, ⟨0, 0, 0, 0⟩)
  | .atomOrN32 f => some (0x1A3, f, ⟨0, 0, 0, 0⟩)
  | .atomXorN32 f => some (0x1A4, f, ⟨0, 0, 0, 0⟩)
  | .atomIncN32 f => some (0x1A5, f, ⟨0, 0, 0, 0⟩)
  | .atomDecN32 f => some (0x1A6, f, ⟨0, 0, 0, 0⟩)
  | .atomCaddF32 f => some (0x1A7, f, ⟨0, 0, 0, 0⟩)
  | .atomXchgN32 f => some (0x1A8, f, ⟨0, 0, 0, 0⟩)
  | .atomXchgN64 f => some (0x1A9, f, ⟨0, 0, 0, 0⟩)
  | .atomCasN32 f => some (0x1AA, f, ⟨0, 0, 0, 0⟩)
  | .atomCasN64 f => some (0x1AB, f, ⟨0, 0, 0, 0⟩)
  | .redAddN32 f => some (0x1B0, f, ⟨0, 0, 0, 0⟩)
  | .redAddN64 f => some (0x1B1, f, ⟨0, 0, 0, 0⟩)
  | .redAddF32 f => some (0x1B2, f, ⟨0, 0, 0, 0⟩)
  | .redAdd2Bf16 f => some (0x1B3, f, ⟨0, 0, 0, 0⟩)
  | .redMinS32 f => some (0x1B4, f, ⟨0, 0, 0, 0⟩)
  | .redMinN32 f => some (0x1B5, f, ⟨0, 0, 0, 0⟩)
  | .redMinF32 f => some (0x1B6, f, ⟨0, 0, 0, 0⟩)
  | .redMaxS32 f => some (0x1B7, f, ⟨0, 0, 0, 0⟩)
  | .redMaxN32 f => some (0x1B8, f, ⟨0, 0, 0, 0⟩)
  | .redMaxF32 f => some (0x1B9, f, ⟨0, 0, 0, 0⟩)
  | .redAndN32 f => some (0x1BA, f, ⟨0, 0, 0, 0⟩)
  | .redOrN32 f => some (0x1BB, f, ⟨0, 0, 0, 0⟩)
  | .redXorN32 f => some (0x1BC, f, ⟨0, 0, 0, 0⟩)
  | .redIncN32 f => some (0x1BD, f, ⟨0, 0, 0, 0⟩)
  | .redDecN32 f => some (0x1BE, f, ⟨0, 0, 0, 0⟩)
  | .redCaddF32 f => some (0x1BF, f, ⟨0, 0, 0, 0⟩)
  | .sfqExp2 f => some (0x1C0, f, ⟨0, 0, 0, 0⟩)
  | .sfqLog2 f => some (0x1C1, f, ⟨0, 0, 0, 0⟩)
  | .sfqRcp f => some (0x1C2, f, ⟨0, 0, 0, 0⟩)
  | .sfqRsq f => some (0x1C3, f, ⟨0, 0, 0, 0⟩)
  | .sfqSqrt f => some (0x1C4, f, ⟨0, 0, 0, 0⟩)
  | .sfqSin f => some (0x1C5, f, ⟨0, 0, 0, 0⟩)
  | .sfqCos f => some (0x1C6, f, ⟨0, 0, 0, 0⟩)
  | .sfqTanh f => some (0x1C7, f, ⟨0, 0, 0, 0⟩)
  | .sfqSigm f => some (0x1C8, f, ⟨0, 0, 0, 0⟩)
  | .sfqErf f => some (0x1C9, f, ⟨0, 0, 0, 0⟩)
  | .sfqRd f => some (0x1CA, f, ⟨0, 0, 0, 0⟩)
  | .waitk f => some (0x1CB, f, ⟨0, 0, 0, 0⟩)
  | .cprun f => some (0x1D0, f, ⟨0, 0, 0, 0⟩)
  | .cpcmd f pb => some (0x1D1, f, pb)
  | .cpq f => some (0x1D2, f, ⟨0, 0, 0, 0⟩)
  | .gcall f => some (0x1D8, f, ⟨0, 0, 0, 0⟩)
  | .gret f => some (0x1D9, f, ⟨0, 0, 0, 0⟩)
  | .sread f => some (0x1DA, f, ⟨0, 0, 0, 0⟩)
  | .tret f => some (0x1DB, f, ⟨0, 0, 0, 0⟩)
  | .trecRd f => some (0x1DC, f, ⟨0, 0, 0, 0⟩)
  | .trecWr f => some (0x1DD, f, ⟨0, 0, 0, 0⟩)
  | .sysrd f => some (0x1E0, f, ⟨0, 0, 0, 0⟩)
  | .syswr f => some (0x1E1, f, ⟨0, 0, 0, 0⟩)
  | .cinv f => some (0x1E2, f, ⟨0, 0, 0, 0⟩)
  | .halt f => some (0x1E3, f, ⟨0, 0, 0, 0⟩)
  | _ => none

/-- The copy opcode CO of a copy word, with its fields and shape record (R211). -/
def Instr.copy? : Instr → Option (Nat × CopyWord × Option Shape)
  | .copyXfer w sh => some (1, w, some sh)
  | .copyFill w sh => some (2, w, some sh)
  | .copySete w => some (3, w, none)
  | .copyAdde w => some (4, w, none)
  | .copyLoop w => some (5, w, none)
  | .copySems w => some (6, w, none)
  | .copySemw w => some (7, w, none)
  | .copyBarr w => some (8, w, none)
  | .copyDone w => some (9, w, none)
  | .copyEnd w => some (10, w, none)
  | _ => none

/-- The task opcode TOP of a task instruction with its words (R247). -/
def Instr.task? : Instr → Option (Nat × TaskWord)
  | .tnop t => some (0, t)
  | .trun t => some (1, t)
  | .trunp t => some (2, t)
  | .tcopy t => some (3, t)
  | .tfill t => some (4, t)
  | .tbind t => some (5, t)
  | .texport t => some (6, t)
  | .tfree t => some (7, t)
  | .tsig t => some (8, t)
  | .twait t => some (9, t)
  | .tfence t => some (10, t)
  | .tinval t => some (11, t)
  | .tgate t => some (12, t)
  | .tend t => some (15, t)
  | _ => none

/-- The decode checks on an instruction; a row that no word encodes has none. -/
def Instr.wf (i : Instr) : Bool :=
  match i.rope? with
  | some (op, f, pb) => wfFields op f pb
  | none =>
    match i.copy? with
    | some (co, w, _) => wfCopy co w
    | none =>
      match i.task? with
      | some (top, t) => wfTask top t
      | none => true

/-- A well-formed instruction passes every decode check that its words alone decide (R79). -/
abbrev Instr.WellFormed (i : Instr) : Prop := i.wf = true

end Sys2Proof
end

