-- ==== Sys2Proof/Decode.lean ====
section
/-! DEFINITION. The decoders of the SK-880's encodings, total on any bytes and rejecting by name, and the encoders:
Dzidel instructions (R59 to R61), Choarnif (R373), copy words (R211, R212), task words (R246). -/

namespace Sys2Proof

/-- Why bytes are no instruction. -/
inductive DecodeErr where
  | short        -- fewer bytes than the instruction's length
  | unassigned   -- an opcode that the map leaves unassigned
  | reserved     -- a reserved bit is 1 (R60, R61)
  | illFormed    -- another decode check of R79 fails
  deriving DecidableEq, Repr

/-- Little-endian: the value of a list of bytes, the first the lowest (R2). -/
def leNat : List Byte → Nat
  | [] => 0
  | b :: bs => b.toNat + 256 * leNat bs

/-- Little-endian: the `n` low bytes of a value, the lowest first (R2). -/
def leBytes : Nat → Nat → List Byte
  | 0, _ => []
  | n + 1, v => BitVec.ofNat 8 v :: leBytes n (v / 256)

/-- The constructors of the assigned opcodes of group 0 (R80). -/
noncomputable def opGroup0 : List (Nat × (Fields → PB → Instr)) :=
  [(0x000, fun f _ => .iaddS32 f),
    (0x001, fun f _ => .iaddN32 f),
    (0x002, fun f _ => .isubS32 f),
    (0x003, fun f _ => .isubN32 f),
    (0x004, fun f _ => .iaddS64 f),
    (0x005, fun f _ => .iaddN64 f),
    (0x006, fun f _ => .isubS64 f),
    (0x007, fun f _ => .isubN64 f),
    (0x008, fun f _ => .iaddS16 f),
    (0x009, fun f _ => .iaddN16 f),
    (0x00A, fun f _ => .isubS16 f),
    (0x00B, fun f _ => .isubN16 f),
    (0x00C, fun f _ => .iaddS8 f),
    (0x00D, fun f _ => .iaddN8 f),
    (0x00E, fun f _ => .isubS8 f),
    (0x00F, fun f _ => .isubN8 f),
    (0x010, fun f _ => .iminS32 f),
    (0x011, fun f _ => .iminN32 f),
    (0x012, fun f _ => .imaxS32 f),
    (0x013, fun f _ => .imaxN32 f),
    (0x014, fun f _ => .icmpS32 f),
    (0x015, fun f _ => .icmpN32 f),
    (0x016, fun f _ => .icmpS64 f),
    (0x017, fun f _ => .icmpN64 f),
    (0x018, fun f _ => .andB f),
    (0x019, fun f _ => .orB f),
    (0x01A, fun f _ => .xorB f),
    (0x01B, fun f _ => .andnB f),
    (0x01C, fun f _ => .notB f),
    (0x01D, fun f _ => .bitmix f),
    (0x01E, fun f _ => .plop f),
    (0x01F, fun f _ => .prds f),
    (0x027, fun f _ => .pwrs f),
    (0x020, fun f _ => .shlN32 f),
    (0x021, fun f _ => .shrN32 f),
    (0x022, fun f _ => .shrS32 f),
    (0x023, fun f _ => .rolN32 f),
    (0x024, fun f _ => .shlN64 f),
    (0x025, fun f _ => .shrN64 f),
    (0x026, fun f _ => .shrS64 f),
    (0x028, fun f _ => .mov f),
    (0x029, fun f _ => .mov64 f),
    (0x02A, fun f _ => .sel f),
    (0x02B, fun f _ => .sel64 f),
    (0x02C, fun f _ => .leaN32 f),
    (0x02D, fun f _ => .leaN64 f)]

/-- The constructors of the assigned opcodes of group 1 (R81). -/
noncomputable def opGroup1 : List (Nat × (Fields → PB → Instr)) :=
  [(0x040, fun f _ => .imulS32 f),
    (0x041, fun f _ => .imulN32 f),
    (0x042, fun f _ => .imulhS32 f),
    (0x043, fun f _ => .imulhN32 f),
    (0x044, fun f _ => .imulS16 f),
    (0x045, fun f _ => .imulN16 f),
    (0x046, fun f _ => .imulS8 f),
    (0x047, fun f _ => .imulN8 f),
    (0x048, fun f _ => .imadS32 f),
    (0x049, fun f _ => .imadN32 f),
    (0x04A, fun f _ => .imadS16 f),
    (0x04B, fun f _ => .imadN16 f),
    (0x04C, fun f _ => .idpS8 f),
    (0x04D, fun f _ => .idpN8 f),
    (0x04E, fun f _ => .idpN4 f),
    (0x050, fun f _ => .imulS64 f),
    (0x051, fun f _ => .imulN64 f),
    (0x052, fun f _ => .imulhS64 f),
    (0x053, fun f _ => .imulhN64 f),
    (0x054, fun f _ => .idivS32 f),
    (0x055, fun f _ => .idivN32 f),
    (0x056, fun f _ => .iremS32 f),
    (0x057, fun f _ => .iremN32 f),
    (0x058, fun f _ => .idivS64 f),
    (0x059, fun f _ => .idivN64 f),
    (0x05A, fun f _ => .iremS64 f),
    (0x05B, fun f _ => .iremN64 f),
    (0x060, fun f _ => .popcN32 f),
    (0x061, fun f _ => .clzN32 f),
    (0x062, fun f _ => .ctzN32 f),
    (0x063, fun f _ => .brevN32 f),
    (0x064, fun f _ => .bfeS32 f),
    (0x065, fun f _ => .bfeN32 f),
    (0x066, fun f _ => .bfiN32 f)]

/-- The constructors of the assigned opcodes of group 2 (R82). -/
noncomputable def opGroup2 : List (Nat × (Fields → PB → Instr)) :=
  [(0x080, fun f _ => .faddF32 f),
    (0x081, fun f _ => .fsubF32 f),
    (0x082, fun f _ => .fmulF32 f),
    (0x083, fun f _ => .ffmaF32 f),
    (0x084, fun f _ => .fminF32 f),
    (0x085, fun f _ => .fmaxF32 f),
    (0x086, fun f _ => .fcmpF32 f),
    (0x087, fun f _ => .fclassF32 f),
    (0x088, fun f _ => .faddF16 f),
    (0x089, fun f _ => .fsubF16 f),
    (0x08A, fun f _ => .fmulF16 f),
    (0x08B, fun f _ => .ffmaF16 f),
    (0x08C, fun f _ => .fminF16 f),
    (0x08D, fun f _ => .fmaxF16 f),
    (0x08E, fun f _ => .fcmpF16 f),
    (0x08F, fun f _ => .fclassF16 f),
    (0x090, fun f _ => .faddBf16 f),
    (0x091, fun f _ => .fsubBf16 f),
    (0x092, fun f _ => .fmulBf16 f),
    (0x093, fun f _ => .ffmaBf16 f),
    (0x094, fun f _ => .fminBf16 f),
    (0x095, fun f _ => .fmaxBf16 f),
    (0x096, fun f _ => .fcmpBf16 f),
    (0x097, fun f _ => .fclassBf16 f),
    (0x098, fun f _ => .faddF64 f),
    (0x099, fun f _ => .fsubF64 f),
    (0x09A, fun f _ => .fmulF64 f),
    (0x09B, fun f _ => .ffmaF64 f),
    (0x09C, fun f _ => .fminF64 f),
    (0x09D, fun f _ => .fmaxF64 f),
    (0x09E, fun f _ => .fcmpF64 f),
    (0x09F, fun f _ => .fclassF64 f),
    (0x0A0, fun f _ => .faccN4 f),
    (0x0A1, fun f _ => .faccS8 f),
    (0x0A2, fun f _ => .faccN8 f),
    (0x0A3, fun f _ => .faccE2m1 f),
    (0x0A4, fun f _ => .faccE4m3 f),
    (0x0A5, fun f _ => .faccE5m2 f)]

/-- The constructors of the assigned opcodes of group 3 (R83). -/
noncomputable def opGroup3 : List (Nat × (Fields → PB → Instr)) :=
  [(0x0C0, fun f _ => .cvtF32F16 f),
    (0x0C1, fun f _ => .cvtF32Bf16 f),
    (0x0C2, fun f _ => .cvtF16F32 f),
    (0x0C3, fun f _ => .cvtBf16F32 f),
    (0x0C4, fun f _ => .cvtF64F32 f),
    (0x0C5, fun f _ => .cvtF32F64 f),
    (0x0C6, fun f _ => .cvtF32E4m3 f),
    (0x0C7, fun f _ => .cvtF32E5m2 f),
    (0x0C8, fun f _ => .cvtE4m3F32 f),
    (0x0C9, fun f _ => .cvtE5m2F32 f),
    (0x0CA, fun f _ => .cvtF32E2m1 f),
    (0x0CB, fun f _ => .cvtE2m1F32 f),
    (0x0CC, fun f _ => .cvtF32S32 f),
    (0x0CD, fun f _ => .cvtF32N32 f),
    (0x0CE, fun f _ => .cvtS32F32 f),
    (0x0CF, fun f _ => .cvtN32F32 f),
    (0x0D0, fun f _ => .cvtF64S64 f),
    (0x0D1, fun f _ => .cvtF64N64 f),
    (0x0D2, fun f _ => .cvtS64F64 f),
    (0x0D3, fun f _ => .cvtN64F64 f),
    (0x0D4, fun f _ => .cvtF64S32 f),
    (0x0D5, fun f _ => .cvtS32F64 f),
    (0x0D6, fun f _ => .frndF32 f),
    (0x0D7, fun f _ => .frndF64 f),
    (0x0D8, fun f _ => .packF16 f),
    (0x0D9, fun f _ => .packBf16 f),
    (0x0DA, fun f _ => .packE4m3 f),
    (0x0DB, fun f _ => .packE5m2 f),
    (0x0DC, fun f _ => .packE2m1 f),
    (0x0DD, fun f _ => .packS16 f),
    (0x0DE, fun f _ => .packN16 f),
    (0x0DF, fun f _ => .packS8 f),
    (0x0E0, fun f _ => .packN8 f),
    (0x0E1, fun f _ => .packN4 f)]

/-- The constructors of the assigned opcodes of group 4 (R84). -/
noncomputable def opGroup4 : List (Nat × (Fields → PB → Instr)) :=
  [(0x100, fun f _ => .mapld f),
    (0x101, fun f _ => .mapclr f),
    (0x102, fun f _ => .mapq f),
    (0x108, fun f _ => .shfl f),
    (0x109, fun f _ => .bcast f),
    (0x10A, fun f _ => .rdlane f),
    (0x10B, fun f _ => .wrlane f),
    (0x10C, fun f _ => .matchN32 f),
    (0x10D, fun f _ => .matchN64 f)]

/-- The constructors of the assigned opcodes of group 5 (R85). -/
noncomputable def opGroup5 : List (Nat × (Fields → PB → Instr)) :=
  [(0x140, fun f _ => .bra f),
    (0x141, fun f _ => .call f),
    (0x142, fun f _ => .jmpi f),
    (0x143, fun f _ => .calli f),
    (0x144, fun f _ => .ret f),
    (0x148, fun f _ => .splice f),
    (0x149, fun f _ => .spliceC f),
    (0x14A, fun f _ => .yield f),
    (0x14B, fun f _ => .nop f),
    (0x14C, fun f _ => .exit f),
    (0x150, fun f _ => .barSync f),
    (0x151, fun f _ => .barArr f),
    (0x152, fun f _ => .barWait f),
    (0x153, fun f _ => .barSet f),
    (0x158, fun f _ => .voteAny f),
    (0x159, fun f _ => .voteAll f),
    (0x15A, fun f _ => .voteBal f),
    (0x160, fun f _ => .waitc f),
    (0x161, fun f _ => .waitv f),
    (0x162, fun f _ => .fenceAcq f),
    (0x163, fun f _ => .fenceRel f),
    (0x164, fun f _ => .fenceAr f)]

/-- The constructors of the assigned opcodes of group 6 (R86). -/
noncomputable def opGroup6 : List (Nat × (Fields → PB → Instr)) :=
  [(0x180, fun f _ => .ldN8 f),
    (0x181, fun f _ => .ldS8 f),
    (0x182, fun f _ => .ldN16 f),
    (0x183, fun f _ => .ldS16 f),
    (0x184, fun f _ => .ldN32 f),
    (0x185, fun f _ => .ldN64 f),
    (0x186, fun f _ => .ldqN32 f),
    (0x188, fun f _ => .stN8 f),
    (0x189, fun f _ => .stN16 f),
    (0x18A, fun f _ => .stN32 f),
    (0x18B, fun f _ => .stN64 f),
    (0x18C, fun f _ => .stqN32 f),
    (0x18D, fun f _ => .pref f),
    (0x190, fun f pb => .ldt f pb),
    (0x191, fun f pb => .stt f pb),
    (0x198, fun f _ => .atomAddN32 f),
    (0x199, fun f _ => .atomAddN64 f),
    (0x19A, fun f _ => .atomAddF32 f),
    (0x19B, fun f _ => .atomAdd2Bf16 f),
    (0x19C, fun f _ => .atomMinS32 f),
    (0x19D, fun f _ => .atomMinN32 f),
    (0x19E, fun f _ => .atomMinF32 f),
    (0x19F, fun f _ => .atomMaxS32 f),
    (0x1A0, fun f _ => .atomMaxN32 f),
    (0x1A1, fun f _ => .atomMaxF32 f),
    (0x1A2, fun f _ => .atomAndN32 f),
    (0x1A3, fun f _ => .atomOrN32 f),
    (0x1A4, fun f _ => .atomXorN32 f),
    (0x1A5, fun f _ => .atomIncN32 f),
    (0x1A6, fun f _ => .atomDecN32 f),
    (0x1A7, fun f _ => .atomCaddF32 f),
    (0x1A8, fun f _ => .atomXchgN32 f),
    (0x1A9, fun f _ => .atomXchgN64 f),
    (0x1AA, fun f _ => .atomCasN32 f),
    (0x1AB, fun f _ => .atomCasN64 f),
    (0x1B0, fun f _ => .redAddN32 f),
    (0x1B1, fun f _ => .redAddN64 f),
    (0x1B2, fun f _ => .redAddF32 f),
    (0x1B3, fun f _ => .redAdd2Bf16 f),
    (0x1B4, fun f _ => .redMinS32 f),
    (0x1B5, fun f _ => .redMinN32 f),
    (0x1B6, fun f _ => .redMinF32 f),
    (0x1B7, fun f _ => .redMaxS32 f),
    (0x1B8, fun f _ => .redMaxN32 f),
    (0x1B9, fun f _ => .redMaxF32 f),
    (0x1BA, fun f _ => .redAndN32 f),
    (0x1BB, fun f _ => .redOrN32 f),
    (0x1BC, fun f _ => .redXorN32 f),
    (0x1BD, fun f _ => .redIncN32 f),
    (0x1BE, fun f _ => .redDecN32 f),
    (0x1BF, fun f _ => .redCaddF32 f)]

/-- The constructors of the assigned opcodes of group 7 (R87). -/
noncomputable def opGroup7 : List (Nat × (Fields → PB → Instr)) :=
  [(0x1C0, fun f _ => .sfqExp2 f),
    (0x1C1, fun f _ => .sfqLog2 f),
    (0x1C2, fun f _ => .sfqRcp f),
    (0x1C3, fun f _ => .sfqRsq f),
    (0x1C4, fun f _ => .sfqSqrt f),
    (0x1C5, fun f _ => .sfqSin f),
    (0x1C6, fun f _ => .sfqCos f),
    (0x1C7, fun f _ => .sfqTanh f),
    (0x1C8, fun f _ => .sfqSigm f),
    (0x1C9, fun f _ => .sfqErf f),
    (0x1CA, fun f _ => .sfqRd f),
    (0x1CB, fun f _ => .waitk f),
    (0x1D0, fun f _ => .cprun f),
    (0x1D1, fun f pb => .cpcmd f pb),
    (0x1D2, fun f _ => .cpq f),
    (0x1D8, fun f _ => .gcall f),
    (0x1D9, fun f _ => .gret f),
    (0x1DA, fun f _ => .sread f),
    (0x1DB, fun f _ => .tret f),
    (0x1DC, fun f _ => .trecRd f),
    (0x1DD, fun f _ => .trecWr f),
    (0x1E0, fun f _ => .sysrd f),
    (0x1E1, fun f _ => .syswr f),
    (0x1E2, fun f _ => .cinv f),
    (0x1E3, fun f _ => .halt f)]

/-- First match in a table of pairs. -/
def lookupNat {α : Type} (k : Nat) : List (Nat × α) → Option α
  | [] => none
  | (a, x) :: r => if a = k then some x else lookupNat k r

/-- The instruction of an opcode with its fields (R80 to R87); `none` for an unassigned opcode. -/
noncomputable def ofOpcode (op : Nat) (f : Fields) (pb : PB) : Option Instr :=
  let group :=
    match op / 64 with
    | 0 => opGroup0
    | 1 => opGroup1
    | 2 => opGroup2
    | 3 => opGroup3
    | 4 => opGroup4
    | 5 => opGroup5
    | 6 => opGroup6
    | 7 => opGroup7
    | _ => []
  match lookupNat op group with
  | some g => some (g f pb)
  | none => none

/-- The fields of an IW, given the CW that follows it (R60). -/
def fieldsOfIw (iw : DWord) (cw : Option CW) : Fields where
  tc := iw.extractLsb' 9 2
  stall := iw.extractLsb' 11 4
  d := iw.extractLsb' 16 8
  a := iw.extractLsb' 24 8
  b := iw.extractLsb' 32 8
  c := iw.extractLsb' 40 8
  pg := iw.extractLsb' 48 3
  pgn := iw.getLsbD 51
  ma := iw.extractLsb' 52 4
  mae := iw.getLsbD 56
  mb := iw.extractLsb' 57 4
  mbe := iw.getLsbD 61
  y := iw.getLsbD 62
  enc := .native cw

/-- The CW read from its word (R61). -/
def cwOfWord (w : DWord) : CW where
  imm := w.extractLsb' 0 32
  modA := w.extractLsb' 32 8
  modB := w.extractLsb' 40 8
  modC := w.extractLsb' 48 8
  rm := w.extractLsb' 56 2
  sat := w.getLsbD 58
  mz := w.getLsbD 59

/-- The PB read from its four words (R65). -/
def pbOfWords (lo hi : DWord) : PB :=
  ⟨lo.extractLsb' 0 32, lo.extractLsb' 32 32, hi.extractLsb' 0 32, hi.extractLsb' 32 32⟩

/-- The opcode of an IW (R60). -/
def iwOp (iw : DWord) : Nat := (iw.extractLsb' 0 9).toNat

/-- The length of an instruction in bytes, from its IW alone (R59). -/
def iwLength (iw : DWord) : Nat := 8 + (if iw.getLsbD 15 then 8 else 0) + (if hasPb (iwOp iw) then 16 else 0)

/-- An instruction from its words: the IW, and those that follow it as far as its length asks (R59, R79). -/
noncomputable def decodeWords : List DWord → Except DecodeErr Instr
  | [] => .error .short
  | iw :: rest =>
    let op := iwOp iw
    match metaOf op with
    | none => .error .unassigned
    | some _ =>
      if iw.getLsbD 63 then .error .reserved
      else
        let x := iw.getLsbD 15
        let cwWord := if x then rest.head? else some 0
        let rest' := if x then rest.tail else rest
        match cwWord with
        | none => .error .short
        | some cw =>
          if cw.extractLsb' 60 4 != 0 then .error .reserved
          else
            let f := fieldsOfIw iw (if x then some (cwOfWord cw) else none)
            let pb? : Option PB :=
              if hasPb op then
                match rest' with
                | lo :: hi :: _ => some (pbOfWords lo hi)
                | _ => none
              else some ⟨0, 0, 0, 0⟩
            match pb? with
            | none => .error .short
            | some pb =>
              match ofOpcode op f pb with
              | none => .error .unassigned
              | some i => if i.wf then .ok i else .error .illFormed

/-- Groups bytes into little-endian 64-bit words; a part of a word at the end is dropped. -/
def wordsOfBytes : List Byte → List DWord
  | b0 :: b1 :: b2 :: b3 :: b4 :: b5 :: b6 :: b7 :: r =>
    BitVec.ofNat 64 (leNat [b0, b1, b2, b3, b4, b5, b6, b7]) :: wordsOfBytes r
  | _ => []

/-- The instruction at the head of a byte string (R2, R59). -/
noncomputable def decodeBytes (bs : List Byte) : Except DecodeErr Instr := decodeWords (wordsOfBytes bs)

/-- The instruction of an opcode-table word: bit 0 is the least significant bit of the IW. -/
noncomputable def decodeTableWord (nbits w : Nat) : Option Instr :=
  match decodeBytes (leBytes 32 (w % 2 ^ nbits)) with
  | .ok i => some i
  | .error _ => none

/-- The word of a CW (R61). -/
def encodeCw (c : CW) : DWord :=
  (0#4 ++ (BitVec.ofBool c.mz ++ (BitVec.ofBool c.sat ++ (c.rm ++ (c.modC ++ (c.modB ++ (c.modA ++ c.imm)))))))

/-- The IW of an opcode and fields (R60); X is 1 exactly when a CW is carried. -/
def encodeIw (op : Nat) (f : Fields) : DWord :=
  let x : Bool := f.hasCw
  (0#1 ++ (BitVec.ofBool f.y ++ (BitVec.ofBool f.mbe ++ (f.mb ++ (BitVec.ofBool f.mae ++ (f.ma ++ (BitVec.ofBool f.pgn ++
    (f.pg ++ (f.c ++ (f.b ++ (f.a ++ (f.d ++ (BitVec.ofBool x ++ (f.stall ++ (f.tc ++ BitVec.ofNat 9 op)))))))))))))))

/-- The words of a PB (R65). -/
def encodePb (pb : PB) : List DWord := [pb.w1 ++ pb.w0, pb.w3 ++ pb.w2]

/-- The words of a Dzidel instruction with native encoding, in order (R59); `none` for a row that no IW encodes. -/
def encode (i : Instr) : Option (List DWord) :=
  match i.rope? with
  | none => none
  | some (op, f, pb) =>
    match f.enc with
    | .choarnif _ => none
    | .native cw =>
      some (encodeIw op f :: ((match cw with | some c => [encodeCw c] | none => []) ++ (if hasPb op then encodePb pb else [])))

/-- The fields of a Choarnif instruction (R373). In signature BR, OFF4 takes the place of OFF24. -/
def fieldsOfChoarnif (m : Meta) (c0 : Word) (c1 : Option Word) : Fields :=
  let br := m.sig == .br
  let w := c1.getD 0
  let f : Fields :=
    { tc := 0, stall := 0
      d := (c0.extractLsb' 10 6).setWidth 8
      a := if br then w.extractLsb' 0 8 else (c0.extractLsb' 16 6).setWidth 8
      b := if br then w.extractLsb' 8 8 else (c0.extractLsb' 22 6).setWidth 8
      c := if br then w.extractLsb' 16 8 else w.extractLsb' 0 8
      pg := c0.extractLsb' 28 3
      pgn := c0.getLsbD 31
      ma := if br then 0 else w.extractLsb' 8 4
      mae := !br && w.getLsbD 12
      mb := if br then 0 else w.extractLsb' 13 4
      mbe := !br && w.getLsbD 17
      y := !br && w.getLsbD 22
      enc := .choarnif (match c1 with
        | none => none
        | some _ => some ⟨if br then 0 else w.extractLsb' 18 2, !br && w.getLsbD 20, !br && w.getLsbD 21⟩) }
  { f with tc := BitVec.ofNat 2 (min 3 (classOf f m)) }

/-- A Choarnif instruction: the Dzidel instruction it stands for (R373). In signature BR, A and B of C0 must be 0. -/
noncomputable def decodeChoarnif (c0 : Word) (next : Option Word) : Except DecodeErr Instr :=
  let op := (c0.extractLsb' 0 9).toNat
  match metaOf op with
  | none => .error .unassigned
  | some m =>
    let w2 := c0.getLsbD 9
    match w2, next with
    | true, none => .error .short
    | _, _ =>
      let c1 := if w2 then next else none
      let rsv := if m.sig == .br then (c1.getD 0).extractLsb' 24 8 != 0 || c0.extractLsb' 16 12 != 0
        else (c1.getD 0).extractLsb' 23 9 != 0
      if rsv then .error .reserved
      else
        match ofOpcode op (fieldsOfChoarnif m c0 c1) ⟨0, 0, 0, 0⟩ with
        | none => .error .unassigned
        | some i => if i.wf then .ok i else .error .illFormed

/-- The word C0 of a Choarnif instruction (R373); in signature BR its A and B are 0. -/
def encodeC0 (op : Nat) (br w2 : Bool) (f : Fields) : Word :=
  BitVec.ofBool f.pgn ++ (f.pg ++ ((if br then 0#6 else f.b.setWidth 6) ++ ((if br then 0#6 else f.a.setWidth 6) ++
    (f.d.setWidth 6 ++ (BitVec.ofBool w2 ++ BitVec.ofNat 9 op)))))

/-- The word C1 of a Choarnif instruction (R373); in signature BR it holds OFF24. -/
def encodeC1 (br : Bool) (f : Fields) (c : C1) : Word :=
  if br then 0#8 ++ (f.c ++ (f.b ++ f.a))
  else 0#9 ++ (BitVec.ofBool f.y ++ (BitVec.ofBool c.mz ++ (BitVec.ofBool c.sat ++ (c.rm ++ (BitVec.ofBool f.mbe ++ (f.mb ++
    (BitVec.ofBool f.mae ++ (f.ma ++ f.c))))))))

/-- The words of a Dzidel instruction with Choarnif encoding (R373). -/
def encodeChoarnif (i : Instr) : Option (Word × Option Word) :=
  match i.rope? with
  | none => none
  | some (op, f, _) =>
    match metaOf op, f.enc with
    | some m, .choarnif c1 => some (encodeC0 op (m.sig == .br) c1.isSome f, c1.map (encodeC1 (m.sig == .br) f))
    | _, _ => none

/-- A copy word read from its 64 bits and, for XFER and FILL, the shape record behind it (R211, R212). -/
noncomputable def decodeCopy (w : DWord) (sh : Shape) : Except DecodeErr Instr :=
  let cw : CopyWord := ⟨w.extractLsb' 8 12, w.extractLsb' 20 12, w.extractLsb' 32 32⟩
  let i? : Option Instr :=
    match (w.extractLsb' 0 8).toNat with
    | 0x01 => some (.copyXfer cw sh)
    | 0x02 => some (.copyFill cw sh)
    | 0x03 => some (.copySete cw)
    | 0x04 => some (.copyAdde cw)
    | 0x05 => some (.copyLoop cw)
    | 0x06 => some (.copySems cw)
    | 0x07 => some (.copySemw cw)
    | 0x08 => some (.copyBarr cw)
    | 0x09 => some (.copyDone cw)
    | 0x0A => some (.copyEnd cw)
    | _ => none
  match i? with
  | none => .error .unassigned
  | some i => if i.wf then .ok i else .error .illFormed

/-- The 64 bits of a copy word (R211). -/
def encodeCopy (i : Instr) : Option DWord :=
  match i.copy? with
  | some (co, w, _) => some (w.hi ++ (w.mid ++ (w.lo ++ BitVec.ofNat 8 co)))
  | none => none

/-- The eight 32-bit words of a ring entry (R246). -/
def entryWord (e : BitVec 256) (n : Nat) : Word := e.extractLsb' (32 * n) 32

/-- An extension entry (R246). -/
def extOfEntry (e : BitVec 256) : TaskExt :=
  ⟨(entryWord e 0).getLsbD 31, (entryWord e 0).extractLsb' 0 31, entryWord e 1, entryWord e 2, entryWord e 3, entryWord e 4,
    entryWord e 5, entryWord e 6, entryWord e 7⟩

/-- A task's words from its ring entries (R246). -/
def taskOfEntries (e : BitVec 256) (ext : List (BitVec 256)) : TaskWord :=
  ⟨(entryWord e 0).extractLsb' 8 23, (entryWord e 0).getLsbD 31, entryWord e 1, entryWord e 2, entryWord e 3, entryWord e 4,
    entryWord e 5, entryWord e 6, entryWord e 7, ext.map extOfEntry⟩

/-- The task instruction of a TOP (R247). -/
noncomputable def ofTop (top : Nat) (t : TaskWord) : Option Instr :=
  match top with
  | 0x00 => some (.tnop t)
  | 0x01 => some (.trun t)
  | 0x02 => some (.trunp t)
  | 0x03 => some (.tcopy t)
  | 0x04 => some (.tfill t)
  | 0x05 => some (.tbind t)
  | 0x06 => some (.texport t)
  | 0x07 => some (.tfree t)
  | 0x08 => some (.tsig t)
  | 0x09 => some (.twait t)
  | 0x0A => some (.tfence t)
  | 0x0B => some (.tinval t)
  | 0x0C => some (.tgate t)
  | 0x0F => some (.tend t)
  | _ => none

/-- A task from its ring entries, the first and its extensions (R246, R247): an unlisted TOP is `unassigned`, an EXT the
row does not accept or a nonzero X0 is `illFormed`. -/
noncomputable def decodeTask (e : BitVec 256) (ext : List (BitVec 256)) : Except DecodeErr Instr :=
  match ofTop ((entryWord e 0).extractLsb' 0 8).toNat (taskOfEntries e ext) with
  | none => .error .unassigned
  | some i => if i.wf then .ok i else .error .illFormed

/-- The ring entry of an extension (R246). -/
def encodeExt (x : TaskExt) : BitVec 256 :=
  (x.x7 ++ (x.x6 ++ (x.x5 ++ (x.x4 ++ (x.x3 ++ (x.x2 ++ (x.x1 ++ (BitVec.ofBool x.ph ++ x.x0))))))))

/-- The ring entries of a task (R246). -/
def encodeTask (i : Instr) : Option (List (BitVec 256)) :=
  match i.task? with
  | some (top, t) =>
    some ((t.t7 ++ (t.t6 ++ (t.t5 ++ (t.t4 ++ (t.t3 ++ (t.t2 ++ (t.t1 ++ (BitVec.ofBool t.ph ++ (t.t0 ++ BitVec.ofNat 8 top))))))))) ::
      t.ext.map encodeExt)
  | none => none

end Sys2Proof
end

