-- ==== Sys2Proof/Config.lean ====
section
/-! DEFINITION. What the manual leaves open, as constants without a body: no proof can see their values. -/

namespace Sys2Proof

/-- The n-th byte of undefined contents that a domain comes to, formed from data that the domain could already read (R4): of a
slot whose MAPLD raced a write (R136), of overlapped copy destinations (R215), of a new buffer version (R250). DESIGN CHOICE: log entry 5. -/
opaque Config.freeByte : Nat → List Byte → Byte

/-- The n-th choice among outcomes that the manual leaves unspecified (R4): which agent moves next, old or delivered
value per lane (R76), which candidates share a compaction (R168). DESIGN CHOICE: log entry 5. -/
opaque Config.freeChoice : Nat → Nat

/-- The n-th latency the manual only bounds from below (R185, R199, R134, R204), in cycles beyond the bound.
DESIGN CHOICE: log entry 6. -/
opaque Config.freeDelay : Nat → Nat

/-- The policies of two domains on a TGATE request (R264): owner and target, and the request: SRC, KIND, REVOKE, RIGHTS and TGT,
packed from bit 0 on. DESIGN CHOICE: log entry 7. -/
opaque Config.policyAdmits : BitVec 16 → BitVec 16 → Nat → Bool

/-- The measurement digests the responder takes at boot, by index (R344, R361). DESIGN CHOICE: log entry 7. -/
opaque Config.bootDigest : Nat → BitVec 256

/-- The keys the package generates inside itself for key slot 0, by cold reset number (R341). DESIGN CHOICE: log entry 7. -/
opaque Config.systemKey : Nat → BitVec 512

/-- The hash of R294 and the organisation of the L2 (R294, R295), by ASID and line: which of the partition's memory ports and
which slice of it is the line's home, and the set it falls into there. No program can observe either. DESIGN CHOICE: log entry 46. -/
opaque Config.homePort : BitVec 16 → Nat → Nat
/-- See `homePort`. DESIGN CHOICE: log entry 46. -/
opaque Config.homeSet : BitVec 16 → Nat → Nat

/-- The memory port that a frame lies behind, as 16·die + port (R336, R339). DESIGN CHOICE: log entry 46. -/
opaque Config.framePort : Nat → Nat

end Sys2Proof
end

