-- ==== Sys2Proof/Machine/Sha256.lean ====
section
/-! DEFINITION. SHA-256, which the manual names and does not define (R344, R345): the function of FIPS 180-4. PRESUMED: log entry 60. -/

namespace Sys2Proof.Machine

/-- A word rotated right. -/
def shaRot (n : Nat) (x : Word) : Word := (x >>> n) ||| (x <<< (32 - n))

/-- The constants of the rounds. -/
def shaK : List Word :=
  [0x428A2F98, 0x71374491, 0xB5C0FBCF, 0xE9B5DBA5, 0x3956C25B, 0x59F111F1, 0x923F82A4, 0xAB1C5ED5,
   0xD807AA98, 0x12835B01, 0x243185BE, 0x550C7DC3, 0x72BE5D74, 0x80DEB1FE, 0x9BDC06A7, 0xC19BF174] ++
  [0xE49B69C1, 0xEFBE4786, 0x0FC19DC6, 0x240CA1CC, 0x2DE92C6F, 0x4A7484AA, 0x5CB0A9DC, 0x76F988DA,
   0x983E5152, 0xA831C66D, 0xB00327C8, 0xBF597FC7, 0xC6E00BF3, 0xD5A79147, 0x06CA6351, 0x14292967] ++
  [0x27B70A85, 0x2E1B2138, 0x4D2C6DFC, 0x53380D13, 0x650A7354, 0x766A0ABB, 0x81C2C92E, 0x92722C85,
   0xA2BFE8A1, 0xA81A664B, 0xC24B8B70, 0xC76C51A3, 0xD192E819, 0xD6990624, 0xF40E3585, 0x106AA070] ++
  [0x19A4C116, 0x1E376C08, 0x2748774C, 0x34B0BCB5, 0x391C0CB3, 0x4ED8AA4A, 0x5B9CCA4F, 0x682E6FF3,
   0x748F82EE, 0x78A5636F, 0x84C87814, 0x8CC70208, 0x90BEFFFA, 0xA4506CEB, 0xBEF9A3F7, 0xC67178F2]

/-- The hash value before the first block. -/
def shaInit : List Word :=
  [0x6A09E667, 0xBB67AE85, 0x3C6EF372, 0xA54FF53A, 0x510E527F, 0x9B05688C, 0x1F83D9AB, 0x5BE0CD19]

/-- The message schedule, last word first, after `n` words more. -/
def shaExpand : Nat → List Word → List Word
  | 0, w => w
  | n + 1, w =>
    let g (i : Nat) : Word := w.getD i 0
    let lo := shaRot 7 (g 14) ^^^ shaRot 18 (g 14) ^^^ (g 14 >>> 3)
    let hi := shaRot 17 (g 1) ^^^ shaRot 19 (g 1) ^^^ (g 1 >>> 10)
    shaExpand n ((hi + g 6 + lo + g 15) :: w)

/-- The eight working variables. -/
structure ShaVars where
  a : Word
  b : Word
  c : Word
  d : Word
  e : Word
  f : Word
  g : Word
  h : Word
  deriving DecidableEq, Repr

/-- One round, of a constant and a word of the schedule. -/
def ShaVars.round (v : ShaVars) (k w : Word) : ShaVars :=
  let t := v.h + (shaRot 6 v.e ^^^ shaRot 11 v.e ^^^ shaRot 25 v.e) + ((v.e &&& v.f) ^^^ (~~~v.e &&& v.g)) + k + w
  let u := (shaRot 2 v.a ^^^ shaRot 13 v.a ^^^ shaRot 22 v.a) + ((v.a &&& v.b) ^^^ (v.a &&& v.c) ^^^ (v.b &&& v.c))
  ⟨t + u, v.a, v.b, v.c, v.d + t, v.e, v.f, v.g⟩

/-- A big-endian word of a block. -/
def shaWord (bs : List Byte) : Word := BitVec.ofNat 32 (bs.foldl (fun n b => 256 * n + b.toNat) 0)

/-- The hash value after a block of 64 bytes. -/
def shaBlock (h : List Word) (bs : List Byte) : List Word :=
  let first := (List.range 16).map (fun i => shaWord ((bs.drop (4 * i)).take 4))
  let w := (shaExpand 48 first.reverse).reverse
  let g (i : Nat) : Word := h.getD i 0
  let v := (shaK.zip w).foldl (fun v p => ShaVars.round v p.1 p.2) ⟨g 0, g 1, g 2, g 3, g 4, g 5, g 6, g 7⟩
  [g 0 + v.a, g 1 + v.b, g 2 + v.c, g 3 + v.d, g 4 + v.e, g 5 + v.f, g 6 + v.g, g 7 + v.h]

/-- The hash value after `n` blocks. -/
def shaBlocks : Nat → List Byte → List Word → List Word
  | 0, _, h => h
  | n + 1, bs, h => shaBlocks n (bs.drop 64) (shaBlock h (bs.take 64))

/-- A message padded to whole blocks: a 1 bit, zeros, and its length in bits. -/
def shaPad (m : List Byte) : List Byte :=
  m ++ 0x80 :: (List.replicate ((119 - m.length % 64) % 64) 0 ++
    ([7, 6, 5, 4, 3, 2, 1, 0] : List Nat).map (fun i => BitVec.ofNat 8 (8 * m.length / 256 ^ i)))

/-- SHA-256 of a byte string; the digest's first byte is its least significant one here. PRESUMED: log entry 60. -/
def sha256 (m : List Byte) : BitVec 256 :=
  let p := shaPad m
  let out := (shaBlocks (p.length / 64) p shaInit).flatMap (fun w => ([3, 2, 1, 0] : List Nat).map (fun i => w.toNat / 256 ^ i % 256))
  BitVec.ofNat 256 (out.foldr (fun b n => b + 256 * n) 0)

end Sys2Proof.Machine
end

