-- ==== Sys2Proof/Machine/State.lean ====
section
/-! DEFINITION. The state of the SK-880 as plain data, the reasons a step can stop, and the state after a cold reset. -/

namespace Sys2Proof.Machine

/-- Why the model stops with a fault. DESIGN CHOICE: log entry 38. -/
inductive Fault where
  /-- Raised by a meaning of a rope instruction when no rope stands at the issue position: no unit of the machine can
  issue it, so the hardware has no such step. Safe. -/
  | noIssuingUnit
  /-- Raised by a copy word's meaning when no copy context is running. Safe: the hardware has no such step. -/
  | noCopyContext
  /-- Raised by a task's meaning when no stream is at the decode position. Safe: the hardware has no such step. -/
  | noStream
  deriving DecidableEq, Repr

/-- Why the model refuses an instruction. -/
inductive Refusal where
  /-- Raised by an arm of `exec` whose instruction has no meaning in the model yet. Safe. -/
  | notModelled (mnemonic : String)
  deriving DecidableEq, Repr

/-- Privilege levels of a rope (R31). -/
inductive Priv where
  | task
  | handler
  | system
  deriving DecidableEq, Repr

/-- States of an SFU token (R21). -/
inductive TokState where
  | free
  | pending
  | ready
  deriving DecidableEq, Repr

/-- A token register with the result a READY token holds: owner DID, lanes, value and flags by lane (R21, R203). -/
structure Token where
  state : TokState
  did : BitVec 16
  lanes : Word
  result : Tbl Word
  flags : Tbl (BitVec 5)
  deriving DecidableEq, Repr

/-- A strand of a rope: its LRT entry (R14), PC and active mask (R9), and the control state of R161; `waiting` is set
while it waits at SPLICE (R164), `joinLen` and `compact` are that SPLICE's length and whether it was a SPLICE.C, `unit`
names the sub-rope it stands in (R12, R163), `stopped` while a trap of a sibling is being handled (R235), and `after` is the
first cycle in which deferred lanes that a transfer moved may issue (R160), or in which a strand that waits at SPLICE may (R73). -/
structure Strand where
  slot : BitVec 7
  present : Bool
  pc : DWord
  active : BitVec 4
  stack : List (DWord × BitVec 4)
  parked : BitVec 4
  joinPc : DWord
  joinLen : Nat
  compact : Bool
  retired : BitVec 4
  waiting : Bool
  unit : Nat
  stopped : Bool
  after : Nat
  deriving DecidableEq, Repr

/-- What the rope scheduler keeps of a unit: earliest issue cycle (R73), pass count (R323), opportunities left to skip
after a yield and one for the end (R324), opportunities lost to higher priority, the one-issue raise (R323), and the barrier phase it waits
for: barrier, phase, whether a BAR.SYNC waits (R170). DEDUCED: log entry 34. -/
structure UnitSched where
  readyAt : Nat
  pass : Nat
  skip : Nat
  starve : Nat
  boost : Bool
  blocked : Option (Nat × Bool × Bool)
  deriving DecidableEq, Repr

/-- One register write of a result that has not landed yet. `status` ORs lanes into p6 (R18). -/
inductive RegWrite where
  | vec (n lane : Nat) (v : Word)
  | scalar (n : Nat) (v : Word)
  | pred (n : Nat) (mask v : Word)
  | status (mask : Word)
  deriving DecidableEq, Repr

/-- A fixed-latency result that lands when its core's cycle count reaches `due` (R74), with the strands of the unit
that issued it, and a number by which outstanding operations come before it or after it in issue order (R13). DEDUCED: log entry 37. -/
structure Pend where
  due : Nat
  strands : BitVec 8
  writes : List RegWrite
  num : Nat
  deriving DecidableEq, Repr

/-- A variable-latency result (R76): a load or ATOM (counted in LDC), or an SFQ.RD of token `tok`; `ready` once every
lane has been performed. `waits` names the destinations of the lanes that have not been performed yet; its values stand for
nothing. -/
structure Outst where
  id : Nat
  due : Nat
  ready : Bool
  tok : Option Nat
  writes : List RegWrite
  waits : List RegWrite
  deriving DecidableEq, Repr

/-- An outstanding store or RED, counted in STC (R184). -/
structure StoreOut where
  id : Nat
  due : Nat
  ready : Bool
  deriving DecidableEq, Repr

/-- The trap record (R236). -/
structure TrapRec where
  cause : BitVec 8
  reason : BitVec 8
  async : Bool
  copy : Bool
  frame : Bool
  action : BitVec 2
  lanemask : Word
  fpc : DWord
  rpc : DWord
  info : Word
  offset : Word
  addr : DWord
  iw : DWord
  saved : List Word
  deriving DecidableEq, Repr

/-- A sleeping WAITV of a unit (R163, R197): its number in issue order, the monitored location, as a space and a place in it, whether
a write has woken it, and the compare value and handle entry that it took at its issue. -/
structure Monitor where
  id : Nat
  unit : Nat
  space : Nat
  addr : Nat
  size : Nat
  woken : Bool
  cmp : Nat
  handle : BitVec 256
  deriving DecidableEq, Repr

/-- A trap being handled: its record, the unit that entered the handler, the level to return to, the operand-log entry of
an asynchronous access trap, where SKIP continues (R238), and the barrier wait (R170), the remap (R168) or the WAITV (R197) that the
trap has interrupted. -/
structure TrapCtx where
  trap : TrapRec
  unit : Nat
  prev : Priv
  access : Option Nat
  fall : DWord
  blocked : Option (Nat × Bool × Bool)
  cand : Option (DWord × Nat)
  sleep : Option Monitor
  deriving DecidableEq, Repr

/-- A trap held for delivery at the next boundary of a unit (R234, R235). -/
structure HeldTrap where
  trap : TrapRec
  unit : Option Nat
  access : Option Nat
  deriving DecidableEq, Repr

/-- What a rope records of a barrier (R170): the strands arrived in the current phase, those that wait to arrive in the
next, whether the rope has arrived, and the phase bit of its last arrival. -/
structure BarRec where
  strands : BitVec 8
  late : BitVec 8
  arrived : Bool
  phase : Bool
  deriving DecidableEq, Repr

/-- The caller's state that a gate frame keeps (R230), with the gate entry, A of the GCALL in `base`, and the ETIME at
which the budget ends, or the time left of it while the rope is saved (R233). DEDUCED: log entry 16. -/
structure Frame where
  gate : BitVec 8
  entry : BitVec 512
  base : Nat
  pc : DWord
  iw : DWord
  ret : DWord
  did : BitVec 16
  dslot : Nat
  asid : BitVec 16
  regs : Nat
  maps : Nat
  codeh : BitVec 12
  trapH : DWord
  v : Tbl Word
  s : Tbl Word
  p : Tbl Word
  h : Tbl (BitVec 12)
  k : Tbl Token
  ldc : Nat
  stc : Nat
  cpc : Nat
  copies : List (Nat × Bool)
  port : Bool
  onNative : Bool
  budgetNs : Option Nat
  deriving DecidableEq, Repr

/-- What later memory instructions of a rope wait for behind its fences (R198): accesses numbered below `acq` that load,
and all accesses numbered below `rel`; `scopes` is the number of the last acquire fence of each scope, which earlier reads that are
still to be performed are acquired by, and `rels` that of the last release fence, which releases earlier writes that are still to be
performed (R282). -/
structure FenceHold where
  acq : Nat
  rel : Nat
  scopes : Tbl Nat
  rels : Tbl Nat
  deriving DecidableEq, Repr

/-- The trap record before any trap (R236). DESIGN CHOICE: log entry 4. -/
def TrapRec.none : TrapRec := ⟨0, 0, false, false, false, 0, 0, 0, 0, 0, 0, 0, 0, [0, 0, 0, 0]⟩

/-- A rope and everything R12 and R15 give it. Tables list nonzero registers: `v` by 32·n + lane, the others by number.
`copies` are the programs that CPC counts, oldest first, with whether they have ended (R184, R206). `suppress` are the causes
whose trap is disabled for the next execution by the strands named, for each unit that returns by RETRY (R238); `lastTrap` is the record that the last trap left;
`portWait` the issue opportunities of direct decode still to be left out (R375). -/
structure Rope where
  wg : Nat
  ropeId : Nat
  quad : Nat
  did : BitVec 16
  dslot : Nat
  asid : BitVec 16
  priv : Priv
  regs : Nat
  maps : Nat
  codeh : BitVec 12
  trapH : DWord
  strands : List Strand
  v : Tbl Word
  s : Tbl Word
  p : Tbl Word
  h : Tbl (BitVec 12)
  k : Tbl Token
  ldc : Nat
  stc : Nat
  cpc : Nat
  copies : List (Nat × Bool)
  inflight : List Pend
  outst : List Outst
  stores : List StoreOut
  trap : Option TrapCtx
  lastTrap : TrapRec
  held : List HeldTrap
  suppress : List (BitVec 8 × BitVec 8)
  frame : Option Frame
  classMix : List Nat
  sched : Tbl UnitSched
  bars : Tbl BarRec
  fence : FenceHold
  cand : Option (DWord × Nat)
  monitors : List Monitor
  prio : Nat
  port : Bool
  onNative : Bool
  portWait : Nat
  forced : Bool
  deriving DecidableEq, Repr

/-- A workgroup barrier (R23, R170). -/
structure Barrier where
  expected : Nat
  arrived : Nat
  phase : Bool
  pending : Option Nat
  deriving DecidableEq, Repr

/-- Where a workgroup stands (R317, R331 to R334). -/
inductive WgState where
  | unplaced
  | resident
  | saving
  | saved
  | ended
  deriving DecidableEq, Repr

/-- States of a map slot (R129). -/
inductive SlotState where
  | empty
  | pending
  | valid
  | failed
  deriving DecidableEq, Repr

/-- An agent of the consistency model that has a program order of its own (R277): a rope, the copy program or CPCMD with a command
number, the sequencer of a stream. -/
inductive Agent where
  | rope (k : Nat)
  | copy (id : Nat)
  | stream (key : Nat)
  deriving DecidableEq, Repr

/-- A value that a release has put into a place (R283): space, first byte, bytes, the releasing agent, the scope, the workgroup and core
that the agent acted for (R278), and whether what lies there now belongs to its release sequence. -/
structure Pub where
  space : Nat
  addr : Nat
  size : Nat
  by_ : Agent
  scope : Nat
  at_ : Option (Nat × Nat)
  live : Bool
  deriving DecidableEq, Repr

/-- What comes after an access to scratchpad bytes in happens-before (R283). `agent` made it; `known` are the agents whose later events
come after it, from an access number on; `fenced` its release fences: agent, scope and number, which later writes of that agent carry on;
`pubs` the released values that an acquire of it reads; `seen` the reads of such values that no acquire has followed yet; `starts` the
copy programs whose accesses to the same bytes come after it, whatever else does (R217). DEDUCED: log entry 55. -/
structure Mark where
  agent : Option Agent
  known : List (Agent × Nat)
  fenced : List (Agent × Nat × Nat)
  pubs : List Pub
  seen : List (Agent × Pub)
  starts : List Agent
  deriving DecidableEq, Repr

/-- A MAPLD (R134): its number, weight address, stride, row size, scale address, scale bytes a row, format
block's first word, the workgroup and rope, the cycle it is due, whether a write has touched its source (R136), the source pages that
have been pinned since its issue (R298), and its place in happens-before (R288). -/
structure MapFill where
  id : Nat
  wa : Nat
  stride : Nat
  row : Nat
  sa : Nat
  sb : Nat
  fb : Word
  wg : Nat
  rope : Nat
  due : Nat
  raced : Bool
  pages : List Nat
  mark : Mark
  deriving DecidableEq, Repr

/-- A physical map slot of a quadrant (R129): state, owner, descriptor, weight and scale stores, load in flight, and the last load
that filled it, for the writes that are not ordered behind it (R288). -/
structure MapSlot where
  state : SlotState
  owner : BitVec 16
  wfmt : Nat
  blk : Nat
  succe : Bool
  succ : Nat
  weights : Tbl Byte
  scales : Tbl Byte
  fill : Option MapFill
  loaded : Option MapFill
  deriving DecidableEq, Repr

/-- A workgroup: its grid, placement, scratchpad, barriers, semaphores, slot names (by 16·quadrant + name). `marked` are its
ropes that have been saved, `slotImg` the slots of its image (R141, R332); `pro` marks the one-lane run of a prologue with the
instructions it has executed (R256); `taskNs` is the ETIME at which its task was decoded (R319), `again` set
while it waits to be placed again after a discard (R332, R335); `saveAt` is the ETIME of the request that vacates it, and `saveFor` the
domain that it was made for (R331). `marks` names by byte of the scratchpad the order of its writes, but
for those that come before a later one (R288). -/
structure Workgroup where
  did : BitVec 16
  asid : BitVec 16
  dslot : Nat
  core : Nat
  stream : Nat
  task : Nat
  wgid : Nat
  wgcount : Nat
  strands : Nat
  regs : Nat
  maps : Nat
  scratchSize : Nat
  kdesc : BitVec 512
  idem : Bool
  port : Bool
  pin : Bool
  priv : Priv
  state : WgState
  ropes : List Nat
  scratch : Tbl Byte
  marks : Tbl (List Mark)
  pinned : List Nat
  barriers : Tbl Barrier
  sems : Tbl (BitVec 16)
  slotMap : Tbl Nat
  args : Tbl Word
  handles : Tbl (BitVec 12)
  prio : Nat
  taskNs : Nat
  again : Bool
  since : Nat
  saveAt : Nat
  saveFor : BitVec 16
  marked : List Nat
  slotImg : Tbl MapSlot
  pro : Option Nat
  deriving DecidableEq, Repr

/-- A map array of a quadrant (R150 to R153): the cycle until which it is occupied, fenced sub-arrays, lasting fences,
tests that each sub-array has passed since its fence, applications since the last test, the workgroups that applied a map
since the last passing test, the tasks, by stream and index, that its failed tests retry, and the sub-arrays that fail its next one. -/
structure MapArray where
  busy : Nat
  fenced : BitVec 4
  lasting : BitVec 4
  passes : Tbl Nat
  apps : Nat
  users : List Nat
  retries : List (Nat × Nat)
  faulty : BitVec 4
  deriving DecidableEq, Repr

/-- An instruction in flight (R325): its class, the cycle of its issue, the first cycle after its flight, its quadrant; a self-test of
an array, which no unit issues, has number 4 there (R151). -/
structure Flight where
  cls : Nat
  since : Nat
  till : Nat
  quad : Nat
  deriving DecidableEq, Repr

/-- A core: cycle count (R26), start of the current cycle in ps, quadrants that have issued in it, the instructions in flight
(R325), the cycle from which a quadrant's F64 datapath is free (R117), by quadrant the cycles that a fenced array still has to
hold and the first cycle after held ones (R152), carve-out with the completion flag of its command (R292, R299), domain partition
entries by 8·slot + offset (R219), and the cycles counted for each isolated domain by DID (R26). -/
structure Core where
  cyc : Nat
  startPs : Nat
  issued : BitVec 4
  flight : List Flight
  f64 : Tbl Nat
  holds : Tbl Nat
  held : Tbl Nat
  scr : Nat
  scrDone : Bool
  dpe : Tbl DWord
  iso : Tbl Nat
  deriving DecidableEq, Repr

/-- An entry of a quadrant's special-function queue (R199, R203). -/
structure SfuEntry where
  rope : Nat
  tok : Nat
  dslot : Nat
  quad : Nat
  due : Nat
  deriving DecidableEq, Repr

/-- A byte run in a context, of a CPCMD (R209) or a TEXPORT (R259): handle registers, offsets, taken modulo 2^32 where
`wrap`, length and completion address; the completion word is e0. -/
structure CpCmd where
  srcH : Nat
  dstH : Nat
  src : Nat
  dst : Nat
  wrap : Bool
  len : Nat
  doneAddr : Word
  deriving DecidableEq, Repr

/-- A copy-engine context (R206), with the number of the command that started it and how many of its words have run; `task`
is the stream and task of a TCOPY, TFILL or TEXPORT, whose command `own` is a CO, a fill value and a shape (R257); `pages` are the scratchpad pages pinned since its command began
(R298). -/
structure CopyCtx where
  id : Nat
  core : Nat
  wg : Nat
  rope : Nat
  did : BitVec 16
  dslot : Nat
  start : DWord
  pc : DWord
  e : Tbl Word
  h : Tbl (BitVec 12)
  codeh : BitVec 12
  inFrame : Bool
  entry : BitVec 512
  callerDid : BitVec 16
  cmd : Option CpCmd
  task : Option (Nat × Nat)
  own : Option (Nat × Word × Shape)
  pages : List Nat
  deriving DecidableEq, Repr

/-- The read-modify-write operations of R189. -/
inductive AtomOp where
  | addN32
  | addN64
  | addF32
  | add2Bf16
  | minS32
  | minN32
  | minF32
  | maxS32
  | maxN32
  | maxF32
  | andN32
  | orN32
  | xorN32
  | incN32
  | decN32
  | caddF32
  | xchgN32
  | xchgN64
  | casN32
  | casN64
  deriving DecidableEq, Repr

/-- What one lane of a memory instruction does at its address. A load names its first destination register (`sc` for
the scalar file); an atomic carries its operands and, for ATOM, its destination. -/
inductive MemAct where
  | load (size : Nat) (signed sc : Bool) (dst lane : Nat)
  | store (bytes : List Byte)
  | atom (op : AtomOp) (x y : DWord) (dst : Option Nat) (lane : Nat)
  deriving DecidableEq, Repr

/-- One lane's access: lane, address in its space, action. -/
structure LaneAcc where
  lane : Nat
  addr : Nat
  act : MemAct
  deriving DecidableEq, Repr

/-- Where a logged access with pending lanes stands (R306, R307); `deciding` has the reason of the fault and the lanes that meet it; `poisoned` where its trap has been raised because it read a
poisoned line, so that it is never replayed (R357). -/
inductive LogState where
  | deciding (reason : BitVec 8) (lanes : Word)
  | retry
  | ready
  | raised
  | poisoned
  deriving DecidableEq, Repr

/-- An operand-log entry with lanes awaiting translation or a scratchpad page, or sent over a link (R298, R307, R313), with the address and the words of
its instruction, its workgroup and task, its quadrant, and ACTIVE in a scalar form (R396); `orphan` once the rope or gate frame that issued it has ended (R233, R270). A fetch that
awaits translation stands among them as an entry of kind 3 (R306). -/
structure LogEntry where
  id : Nat
  rope : Nat
  unit : Nat
  wg : Nat
  stream : Nat
  task : Nat
  core : Nat
  quad : Nat
  pc : DWord
  iw : DWord
  more : List DWord
  handle : BitVec 256
  asid : BitVec 16
  kind : Nat
  lanes : List LaneAcc
  whole : Option Word
  state : LogState
  orphan : Bool
  deriving DecidableEq, Repr

/-- A peer-table entry (R350). DESIGN CHOICE: log entry 26. -/
structure Peer where
  port : Nat
  sci : DWord
  qp : Nat
  base : Nat
  len : Nat
  deriving DecidableEq, Repr

/-- TDI states (R347). -/
inductive TdiState where
  | unlocked
  | locked
  | run
  | error
  deriving DecidableEq, Repr

/-- A domain: DCB (R245), handle table (R174), gate table (R229), remote-stream table (R352), peer table (R350),
free lists by class: base, capacity and count (R249), core mask (R317), TDI (R347), the owners of the streams that its delegated
CTRL entries reach, and the domains that delegated its entries (R264). DESIGN CHOICE: log entry 26. -/
structure Domain where
  valid : Bool
  asid : BitVec 16
  htAddr : DWord
  gtAddr : DWord
  rstAddr : DWord
  prio : Nat
  pcap : Nat
  budget : Word
  fhrec : DWord
  fhsig : DWord
  handles : Tbl (BitVec 256)
  gates : Tbl (BitVec 512)
  rst : Tbl (BitVec 256)
  rstUsed : Tbl (Nat × Nat)
  peers : Tbl Peer
  flBase : Tbl DWord
  flCap : Tbl Nat
  flCnt : Tbl Nat
  cores : List Nat
  part : Nat
  tdi : TdiState
  ctrlOwner : Tbl (BitVec 16)
  given : Tbl (BitVec 16)
  deriving DecidableEq, Repr

/-- A version of a logical buffer (R249, R250): index, owned bit, size class, producer task, the tasks that read or update it. -/
structure Version where
  idx : BitVec 12
  owned : Bool
  cls : Nat
  producer : Nat
  readers : List Nat
  deriving DecidableEq, Repr

/-- States of a window entry (R266). -/
inductive TaskState where
  | decoded
  | issued
  | complete
  deriving DecidableEq, Repr

/-- A region extent (R248): space, first address, length, RD and WR. -/
structure Region where
  space : Nat
  base : Nat
  len : Nat
  rd : Bool
  wr : Bool
  deriving DecidableEq, Repr

/-- A window entry (R266): the task's words, what decode resolved of them, and the ETIME of its decoding. -/
structure Task where
  idx : Nat
  n : Nat
  top : Nat
  w : TaskWord
  state : TaskState
  deps : List Nat
  regions : List Region
  irrev : Bool
  allocs : List (Nat × BitVec 12)
  releases : List (Nat × BitVec 12)
  renames : List (Nat × Option Version)
  handles : Tbl (BitVec 12)
  kdesc : BitVec 512
  decodeNs : Nat
  issueNs : Nat
  pollNs : Nat
  wgcount : Nat
  run : Nat
  args : Tbl Word
  proV : Tbl Word
  verdict : Word
  mapints : Nat
  retried : Bool
  halted : Option Word
  prio : Nat
  copies : Nat
  src : BitVec 12
  dst : BitVec 12
  deriving DecidableEq, Repr

/-- States of a stream (R241). -/
inductive StreamState where
  | idle
  | running
  | faulted
  | stopped
  deriving DecidableEq, Repr

/-- A stream with its control block (R239, R244), `resvd` where a reserved field of it is set, and what the sequencer keeps of
it; `got` are the 8-byte units read so far of the entries at the decode index (R243), by 4·entry + unit. DESIGN CHOICE: log entry 26. -/
structure Stream where
  did : BitVec 16
  num : BitVec 12
  valid : Bool
  ring : DWord
  log2n : Nat
  prioOv : Bool
  prio : Nat
  pcap : Nat
  budOv : Bool
  fhOv : Bool
  hub : Nat
  slotMask : BitVec 16
  budget : Word
  fhrec : DWord
  fhsig : DWord
  lbmap : DWord
  save : DWord
  resvd : Bool
  head : Nat
  tail : Nat
  decode : Nat
  state : StreamState
  mapped : Bool
  slot : Nat
  window : List Task
  dmap : Tbl Version
  rmap : Tbl Version
  ended : Bool
  resv : DWord
  pending : Bool
  since : Nat
  mappedAt : Nat
  eff : Nat
  mprio : Nat
  mcap : Nat
  mbudget : Word
  mfhrec : DWord
  mfhsig : DWord
  faultIdx : Nat
  faultN : Nat
  faultTop : Nat
  recorded : Bool
  got : Tbl DWord
  heldCtl : Option Word
  deriving DecidableEq, Repr

/-- A core's copy of a line in state UO (R297): its way, and the partial value of each 32-bit word, or of each 64-bit word by
its first word, with the operation it carries. -/
structure UoCopy where
  core : Nat
  way : Nat
  words : Tbl (AtomOp × Nat)
  deriving DecidableEq, Repr

/-- A line held in L2 (R295): tag, its slice (the home's die and port, and the slice there) and way, backing frame, rights, the policy it was allocated
with (R174), the cores that hold it in L1 with the way there (R293), the
update-only copies, and the core whose L1 holds it dirty with the bytes that its stores replaced. -/
structure L2Line where
  asid : BitVec 16
  line : Nat
  home : (Nat × Nat) × Nat
  way : Nat
  frame : Nat
  r : Bool
  w : Bool
  x : Bool
  policy : Nat
  l1 : List (Nat × Nat)
  uo : List UoCopy
  dirty : Option Nat
  old : Tbl Byte
  deriving DecidableEq, Repr

/-- A stage-1 translation that the MTLBs hold (R302, R308): ASID, 64 KiB VA page, IPA page, and the leaf's rights. -/
structure TlbEntry where
  asid : BitVec 16
  page : Nat
  ipa : Nat
  r : Bool
  w : Bool
  x : Bool
  deriving DecidableEq, Repr

/-- A code line that a cluster's MLIC holds (R300), with its units' start bits, by offset and whether they are of Choarnif units (R77), the cores whose L1 instruction cache and the quadrants whose line
buffer hold it. -/
structure CodeLine where
  cluster : Nat
  asid : BitVec 16
  line : Nat
  bytes : List Byte
  starts : List (Nat × Bool)
  l1i : List Nat
  bufs : List Nat
  deriving DecidableEq, Repr

/-- A calendar of a partition (R326): registers in force, control, writes held for a later period start with the period in which they
were made, the slot that runs
(counted from ETIME 0), and the cores in whose slot its owner had a resident workgroup when it began there (R327). -/
structure Calendar where
  slot : Tbl Word
  share : Tbl Word
  ctl : Word
  waiting : List (SysReg × Word × Nat)
  now : Nat
  acting : List Nat
  deriving DecidableEq, Repr

/-- States of a key slot (R341). -/
inductive KeyState where
  | empty
  | valid
  | revoked
  deriving DecidableEq, Repr

/-- A key-table slot (R341). -/
structure KeySlot where
  state : KeyState
  did : BitVec 16
  mask : BitVec 6
  policy : BitVec 256
  key : BitVec 512
  deriving DecidableEq, Repr

/-- A black-box record entry (R359). -/
structure BlackBox where
  etime : Nat
  cls : BitVec 8
  at_ : ErrWhere
  deriving DecidableEq, Repr

/-- The SPDM session of a hub die (R343): steps done, and whether a session stands. -/
structure Spdm where
  version : Bool
  caps : Bool
  algs : Bool
  keyed : Bool
  session : Bool
  deriving DecidableEq, Repr

/-- A placed section of a loaded image (R365): type, address, size, and the IPA pages of its frames. -/
structure Section where
  kind : Nat
  addr : Nat
  size : Nat
  pages : List Nat
  deriving DecidableEq, Repr

/-- A loaded image (R367, R368): domain, placed sections, start units by address, whether a Choarnif kernel of it has been
launched, native translation done, and by address the STALL that the translation has (R376). -/
structure Image where
  did : BitVec 16
  sections : List Section
  starts : List Nat
  ported : Bool
  translated : Bool
  stalls : Tbl Nat
  deriving DecidableEq, Repr

/-- What the SK-880 answers to the outside: SPDM and key requests, the mailbox, the loader, HALT codes and records that
go to the S-mode scheduler (R227, R273, R343, R345, R359, R367). DESIGN CHOICE: log entry 39. -/
inductive Reply where
  | spdm (hub : Nat) (msg : String) (data : List (BitVec 256))
  | keyCode (hub code : Nat)
  | blackBox (hub : Nat) (e : Option (BitVec 256))
  | load (code : Nat)
  | halt (stream task : Nat) (code : Word)
  | record (stream : Nat) (words : List Word)
  | preempted (did : BitVec 16)
  | refusedWrite (r : SysReg)
  | buffer (did : BitVec 16) (idx : BitVec 12)
  | dump (part : Nat)
  | unmappable (stream : Nat)
  | bar (data : DWord)
  deriving DecidableEq, Repr

/-- A task fault that has been raised and not yet taken by the sequencer (R270): stream, task, fault, WGID, the trap record
it carries, and the ETIME of the fault. -/
structure FaultReq where
  stream : Nat
  task : Nat
  fault : TaskFault
  wgid : Nat
  trap : Option TrapRec
  ns : Nat
  deriving DecidableEq, Repr

/-- What a fatal dump wrote of one domain, or of the system, encrypted under a key slot (R358): partition, slot, ropes,
workgroups, map slots, streams with their windows, and the error logs: the operand log's and the sequencers' raised faults, the error
counters, and the black-box records. -/
structure DumpPart where
  part : Nat
  key : Nat
  ropes : Tbl Rope
  wgs : Tbl Workgroup
  slots : Tbl MapSlot
  streams : Tbl Stream
  errors : List LogEntry
  faults : List FaultReq
  counters : Tbl Nat
  boxes : Tbl (List BlackBox)
  deriving DecidableEq, Repr

/-- Who moves next. -/
inductive Turn where
  | choose
  | rope
  | copy
  | stream
  | event (i : Instr)
  deriving DecidableEq, Repr

/-- The state of the package. `cur`, `curUnit`, `curCtx` and `curStream` name the rope unit, copy context and stream
that `turn` lets move; `inputs` are the acts of the outside world not yet taken. `free` counts the free values drawn;
`nextId` names log entries and outstanding accesses. `undef` counts by DID the bytes of undefined contents that a domain has
come to (R4). `mem` is the bytes of the frames by physical address. `rotors` are the rotating
pointers of the distributors, by die, and of the sequencers, by 16 + hub (R319); `preempts` the requests of R331 that are not
complete; `fatals` the partitions whose structures have read a poisoned line (R357). `asids` names by ASID the cores
that have discarded its lines since its last retire sweep (R312); `dieOff` the dies that are offline (R360); `live` the partitions that have left their last reset (R339); `repairs` the
sealed store's repair maps, the lasting fences by array (R152, R360); `partDuty` the map duty fixed for a partition (R362); `stale` the
domains whose policy is to be measured again, `repaired` where the repair maps are (R344, R360). -/
structure State where
  turn : Turn
  cur : Nat
  curUnit : Nat
  curCtx : Nat
  curStream : Nat
  inputs : List Instr
  free : Nat
  undef : Tbl Nat
  nextId : Nat
  etimePs : Nat
  epochPs : Nat
  ropes : Tbl Rope
  wgs : Tbl Workgroup
  slots : Tbl MapSlot
  arrays : Tbl MapArray
  cores : Tbl Core
  sfu : List SfuEntry
  ctxs : Tbl CopyCtx
  log : List LogEntry
  faults : List FaultReq
  domains : Tbl Domain
  streams : Tbl Stream
  mem : Tbl Byte
  host : Tbl Byte
  peer : Tbl Byte
  roots : Tbl DWord
  stage2 : Tbl S2Entry
  owners : Tbl (BitVec 16 × Nat)
  scrubbed : List Nat
  l2 : List L2Line
  tlb : List TlbEntry
  code : List CodeLine
  asids : Tbl (List Nat)
  poison : List Nat
  partRegs : Tbl Word
  calendars : Tbl Calendar
  keys : Tbl KeySlot
  digests : Tbl (BitVec 256)
  spdm : Tbl Spdm
  ide : Tbl (BitVec 256)
  blackBox : Tbl (List BlackBox)
  counters : Tbl Nat
  images : Tbl Image
  duty : Nat
  partDuty : Tbl Nat
  dieOff : List Nat
  live : List Nat
  repairs : Tbl (BitVec 4)
  dump : List DumpPart
  stale : List (BitVec 16)
  repaired : Bool
  resets : Nat
  rotors : Tbl Nat
  preempts : List (BitVec 16 × List Nat)
  fatals : List Nat
  replies : List Reply
  deriving DecidableEq, Repr

/-- The package after a cold reset (R361): no stream, workgroup, line or entry; every table empty, so every register
reads its reset value; ETIME 0; key slot 0 alone VALID. DESIGN CHOICE: log entry 3. DESIGN CHOICE: log entry 4. -/
def State.reset : State where
  turn := .choose
  cur := 0
  curUnit := 0
  curCtx := 0
  curStream := 0
  inputs := []
  free := 0
  undef := []
  nextId := 0
  etimePs := 0
  epochPs := 0
  ropes := []
  wgs := []
  slots := []
  arrays := []
  cores := []
  sfu := []
  ctxs := []
  log := []
  faults := []
  domains := []
  streams := []
  mem := []
  host := []
  peer := []
  roots := []
  stage2 := []
  owners := []
  scrubbed := []
  l2 := []
  tlb := []
  code := []
  asids := []
  poison := []
  partRegs := []
  calendars := []
  keys := [(0, ⟨.valid, 0, 0, 0, Config.systemKey 0⟩)]
  digests := [(1, Config.bootDigest 1), (2, Config.bootDigest 2), (3, Config.bootDigest 3), (4, sha256 [])]
  spdm := []
  ide := []
  blackBox := []
  counters := []
  images := []
  duty := 100
  partDuty := []
  dieOff := []
  live := []
  repairs := []
  dump := []
  stale := []
  repaired := false
  resets := 0
  rotors := []
  preempts := []
  fatals := []
  replies := []

end Sys2Proof.Machine
end

