-- ==== Sys2Proof/Machine/Tables.lean ====
section
/-! DEFINITION. Reading and writing the sparse tables of State: registers by number, memory by address. -/

namespace Sys2Proof.Machine

/-- The entry of a key, if there is one. -/
def tget {α : Type} : Tbl α → Nat → Option α
  | [], _ => none
  | (a, v) :: r, k => if a = k then some v else tget r k

/-- The table without a key. -/
def terase {α : Type} : Tbl α → Nat → Tbl α
  | [], _ => []
  | (a, v) :: r, k => if a = k then terase r k else (a, v) :: terase r k

/-- Inserts a pair before the first larger key. -/
def tins {α : Type} (k : Nat) (v : α) : Tbl α → Tbl α
  | [] => [(k, v)]
  | (a, w) :: r => if k < a then (k, v) :: (a, w) :: r else (a, w) :: tins k v r

/-- The table with the entry of a key replaced. -/
def tset {α : Type} (t : Tbl α) (k : Nat) (v : α) : Tbl α := tins k v (terase t k)

/-- The value of a key in a table that lists only what differs from `d`. -/
def rget {α : Type} (d : α) (t : Tbl α) (k : Nat) : α := (tget t k).getD d

/-- Writes a value into a table that lists only what differs from `d`: the value `d` removes the entry. -/
def rset {α : Type} [DecidableEq α] (d : α) (t : Tbl α) (k : Nat) (v : α) : Tbl α :=
  if v = d then terase t k else tset t k v

/-- Keys rise strictly, all above `lo`. -/
def tsortedAbove {α : Type} (lo : Nat) : Tbl α → Bool
  | [] => true
  | (a, _) :: r => decide (lo < a) && tsortedAbove a r

/-- The keys of a table rise strictly. -/
def tsorted {α : Type} : Tbl α → Bool
  | [] => true
  | (a, _) :: r => tsortedAbove a r

/-- The canonical form of a byte memory: addresses strictly rising, no entry equal to 0, what an unlisted address reads
as (R311). -/
def Memory.wf (m : Tbl Byte) : Bool := tsorted m && m.all (fun c => c.2 != 0)

/-- The byte at an address; a byte no write has reached reads 0 (R311). DESIGN CHOICE: log entry 3. -/
def rdByte (m : Tbl Byte) (a : Nat) : Byte := rget 0 m a

/-- The memory with one byte written. -/
def wrByte (m : Tbl Byte) (a : Nat) (v : Byte) : Tbl Byte := rset 0 m a v

/-- `n` bytes from an address upward. -/
def rdBytes (m : Tbl Byte) : Nat → Nat → List Byte
  | _, 0 => []
  | a, n + 1 => rdByte m a :: rdBytes m (a + 1) n

/-- Bytes written from an address upward. -/
def wrBytes (m : Tbl Byte) : Nat → List Byte → Tbl Byte
  | _, [] => m
  | a, b :: bs => wrBytes (wrByte m a b) (a + 1) bs

/-- The memory without the bytes of a range. -/
def dropRange (m : Tbl Byte) (lo n : Nat) : Tbl Byte := m.filter (fun c => c.1 < lo || lo + n ≤ c.1)

/-- A list with the n-th element replaced. -/
def listSet {α : Type} : List α → Nat → α → List α
  | [], _, _ => []
  | _ :: r, 0, v => v :: r
  | x :: r, n + 1, v => x :: listSet r n v

/-- Bit `n` of a natural number. -/
def bitOf (v n : Nat) : Bool := v / 2 ^ n % 2 == 1

/-- Bits [hi:lo] of a value (R5). -/
def bits (v hi lo : Nat) : Nat := v / 2 ^ lo % 2 ^ (hi + 1 - lo)

/-- The value of `w` bits read as two's complement (R36). -/
def toSigned (w v : Nat) : Int := if bitOf v (w - 1) then (v : Int) - 2 ^ w else v

/-- An exact integer kept in `w` bits (R6). -/
def wrapInt (w : Nat) (x : Int) : Nat := (x % (2 ^ w : Int)).toNat

/-- Lanes 0 to 31. -/
def lanes32 : List Nat := List.range 32

/-- The set of lanes of a mask, ascending. -/
def lanesOf (m : Word) : List Nat := lanes32.filter (fun l => m.getLsbD l)

/-- The mask of the lanes for which `p` holds. -/
def maskOf (p : Nat → Bool) : Word := BitVec.ofNat 32 ((lanes32.filter p).foldl (fun a l => a + 2 ^ l) 0)

end Sys2Proof.Machine
end

