-- ==== Sys2Proof/Machine/Num.lean ====
section
/-! DEFINITION. Number formats and exact arithmetic (R34 to R52): values, rounding, special values and flags. -/

namespace Sys2Proof.Machine

/-- The five flags (R51), bit 0 IV, 1 DZ, 2 OF, 3 UF, 4 NX, in the order of FPXEN (R220). -/
abbrev Flags := BitVec 5

/-- Invalid. -/
def flagIV : Flags := 1
/-- Divide by zero. -/
def flagDZ : Flags := 2
/-- Overflow. -/
def flagOF : Flags := 4
/-- Underflow. -/
def flagUF : Flags := 8
/-- Inexact. -/
def flagNX : Flags := 16

/-- A floating value: a NaN with its sign and its fraction aligned at the top of 52 bits, an infinity, or the exact
value (−1)^s × m × 2^e. -/
inductive FVal where
  | nan (s : Bool) (frac : Nat)
  | inf (s : Bool)
  | fin (s : Bool) (m : Nat) (e : Int)
  deriving DecidableEq, Repr

/-- Exponent field width of a format (R38). -/
def expBits : Ty → Nat
  | .f64 => 11
  | .f32 | .bf16 => 8
  | .f16 | .e5m2 => 5
  | .e4m3 => 4
  | .e3m2 => 3
  | _ => 2

/-- Fraction field width of a format (R38). -/
def fracBits : Ty → Nat
  | .f64 => 52
  | .f32 => 23
  | .f16 => 10
  | .bf16 => 7
  | .e4m3 => 3
  | .e5m2 | .e3m2 => 2
  | _ => 1

/-- Bias of a format (R38). -/
def fbias : Ty → Int
  | .f64 => 1023
  | .f32 | .bf16 => 127
  | .f16 | .e5m2 => 15
  | .e4m3 => 7
  | .e3m2 => 3
  | _ => 1

/-- The largest finite value of a format as m × 2^e (R38). -/
def maxFin : Ty → Nat × Int
  | .f64 => (2 ^ 53 - 1, 971)
  | .f32 => (2 ^ 24 - 1, 104)
  | .f16 => (2 ^ 11 - 1, 5)
  | .bf16 => (2 ^ 8 - 1, 120)
  | .e5m2 => (7, 13)
  | .e4m3 => (14, 5)
  | .e3m2 => (7, 2)
  | _ => (3, 1)

/-- The exponent of the smallest normal value (R38). -/
def eMin (t : Ty) : Int := 1 - fbias t

/-- The canonical NaN as a value (R39, R50). -/
def canonNan : FVal := .nan false (2 ^ 51)

/-- The value an element's bits encode (R37, R39 to R41); a NaN is quieted as it is read (R39, R50). -/
def fdecode (t : Ty) (v : Nat) : FVal :=
  let F := fracBits t
  let E := expBits t
  let f := v % 2 ^ F
  let e := v / 2 ^ F % 2 ^ E
  let s := bitOf v (F + E)
  let fin : FVal :=
    if e = 0 then (if t = .bf16 then .fin s 0 0 else .fin s f (eMin t - F))
    else .fin s (2 ^ F + f) ((e : Int) - fbias t - F)
  match t with
  | .e3m2 | .e2m1 => fin
  | .e4m3 => if e = 15 ∧ f = 7 then .nan s (2 ^ 51) else fin
  | _ =>
    if e = 2 ^ E - 1 then
      (if f = 0 then .inf s else .nan s ((f * 2 ^ (52 - F)) ||| 2 ^ 51))
    else fin

/-- The encoding of a finite value n × 2^q that the format holds. -/
def encodeFin (t : Ty) (s : Bool) (n : Nat) (q : Int) : Nat :=
  let F := fracBits t
  let sign := if s then 2 ^ (F + expBits t) else 0
  if n = 0 then sign
  else
    let l := n.log2
    let ex : Int := l + q
    if ex < eMin t then sign + n * 2 ^ (q - (eMin t - F)).toNat
    else
      let frac := (if l ≤ F then n * 2 ^ (F - l) else n / 2 ^ (l - F)) - 2 ^ F
      sign + (ex + fbias t).toNat * 2 ^ F + frac

/-- The encoding of a NaN with its sign kept, its quiet bit set and its fraction aligned at the top (R50). -/
def encodeNan (t : Ty) (s : Bool) (frac : Nat) : Nat :=
  let F := fracBits t
  let sign := if s then 2 ^ (F + expBits t) else 0
  match t with
  | .e4m3 => sign + 0x7F
  | _ => sign + (2 ^ expBits t - 1) * 2 ^ F + ((frac / 2 ^ (52 - F)) ||| 2 ^ (F - 1))

/-- The encoding of an infinity in a format that has one. -/
def encodeInf (t : Ty) (s : Bool) : Nat :=
  (if s then 2 ^ (fracBits t + expBits t) else 0) + (2 ^ expBits t - 1) * 2 ^ fracBits t

/-- The encoding of the largest finite value of a sign. -/
def encodeMax (t : Ty) (s : Bool) : Nat := encodeFin t s (maxFin t).1 (maxFin t).2

/-- m × 2^e as a multiple of 2^q, rounded in mode `rm` (R47): the multiple, and whether it is inexact. -/
def roundAt (rm : Nat) (s : Bool) (m : Nat) (e q : Int) : Nat × Bool :=
  if q ≤ e then (m * 2 ^ (e - q).toNat, false)
  else
    let k := (q - e).toNat
    let n := m / 2 ^ k
    let r := m % 2 ^ k
    if r = 0 then (n, false)
    else
      let up :=
        match rm with
        | 0 => decide (2 ^ k < 2 * r) || (decide (2 ^ k = 2 * r) && n % 2 == 1)
        | 1 => false
        | 2 => !s
        | _ => s
      (if up then n + 1 else n, true)

/-- a × 2^p < b × 2^q. -/
def dyLt (a : Nat) (p : Int) (b : Nat) (q : Int) : Bool :=
  let m := min p q
  decide (a * 2 ^ (p - m).toNat < b * 2 ^ (q - m).toNat)

/-- The result of an overflow of a finite value (R48). -/
def overflowBits (t : Ty) (rm : Nat) (sat s : Bool) : Nat :=
  let toInf := match rm with | 0 => true | 1 => false | 2 => !s | _ => s
  if sat || t = .e2m1 || t = .e3m2 then encodeMax t s
  else if toInf then (if t = .e4m3 then encodeNan t s 0 else encodeInf t s)
  else encodeMax t s

/-- Rounds an exact value once into a format (R40, R47 to R50): the encoding and the flags it raises. -/
def fround (t : Ty) (rm : Nat) (sat : Bool) : FVal → Nat × Flags
  | .nan s frac => if t = .e2m1 || t = .e3m2 then (0, flagIV) else (encodeNan t s frac, 0)
  | .inf s =>
    if sat || t = .e2m1 || t = .e3m2 then (encodeMax t s, 0)
    else if t = .e4m3 then (encodeNan t s 0, 0)
    else (encodeInf t s, 0)
  | .fin s 0 _ => (encodeFin t s 0 0, 0)
  | .fin s m e =>
    let F := fracBits t
    let ex : Int := m.log2 + e
    let (n1, x1) := roundAt rm s m e (ex - F)
    let tiny := dyLt n1 (ex - F) 1 (eMin t)
    if t = .bf16 then
      if tiny then (encodeFin t s 0 0, flagUF ||| flagNX)
      else if dyLt (maxFin t).1 (maxFin t).2 n1 (ex - F) then (overflowBits t rm sat s, flagOF ||| flagNX)
      else (encodeFin t s n1 (ex - F), if x1 then flagNX else 0)
    else
      let q := max (ex - F) (eMin t - F)
      let (n, x) := roundAt rm s m e q
      if dyLt (maxFin t).1 (maxFin t).2 n q then (overflowBits t rm sat s, flagOF ||| flagNX)
      else (encodeFin t s n q, (if x then flagNX else 0) ||| (if x && tiny then flagUF else 0))

/-- The sign bit flipped or cleared, on every value (R52). -/
def fneg : FVal → FVal
  | .nan s f => .nan (!s) f
  | .inf s => .inf (!s)
  | .fin s m e => .fin (!s) m e

/-- The sign of a value. -/
def fsign : FVal → Bool
  | .nan s _ => s
  | .inf s => s
  | .fin s _ _ => s

/-- Whether a value is a NaN. -/
def fisNan : FVal → Bool
  | .nan _ _ => true
  | _ => false

/-- Whether a value is infinite. -/
def fisInf : FVal → Bool
  | .inf _ => true
  | _ => false

/-- Whether a value is a zero. -/
def fisZero : FVal → Bool
  | .fin _ m _ => m == 0
  | _ => false

/-- The exact signed sum of two finite values as an integer times 2^e. -/
def dySum (sa : Bool) (ma : Nat) (ea : Int) (sb : Bool) (mb : Nat) (eb : Int) : Int × Int :=
  let e := min ea eb
  let a : Int := ma * 2 ^ (ea - e).toNat
  let b : Int := mb * 2 ^ (eb - e).toNat
  ((if sa then -a else a) + (if sb then -b else b), e)

/-- The exact sum of two values without NaN, with the zero sign of the mode (R47); ∞ − ∞ is invalid (R50). -/
def faddExact (rm : Nat) (a b : FVal) : FVal × Flags :=
  match a, b with
  | .nan s f, _ => (.nan s f, 0)
  | _, .nan s f => (.nan s f, 0)
  | .inf s, .inf t => if s = t then (.inf s, 0) else (canonNan, flagIV)
  | .inf s, _ => (.inf s, 0)
  | _, .inf s => (.inf s, 0)
  | .fin sa ma ea, .fin sb mb eb =>
    let (x, e) := dySum sa ma ea sb mb eb
    if x = 0 then
      (.fin (if ma = 0 ∧ mb = 0 ∧ sa = sb then sa else rm == 3) 0 0, 0)
    else (.fin (decide (x < 0)) x.natAbs e, 0)

/-- The exact product of two values without NaN; 0 × ∞ is invalid (R50). -/
def fmulExact (a b : FVal) : FVal × Flags :=
  match a, b with
  | .nan s f, _ => (.nan s f, 0)
  | _, .nan s f => (.nan s f, 0)
  | .inf s, .inf t => (.inf (s != t), 0)
  | .inf s, .fin t m _ => if m = 0 then (canonNan, flagIV) else (.inf (s != t), 0)
  | .fin t m _, .inf s => if m = 0 then (canonNan, flagIV) else (.inf (s != t), 0)
  | .fin sa ma ea, .fin sb mb eb => (.fin (sa != sb) (ma * mb) (ea + eb), 0)

/-- The exact a × b + c, with the first NaN in the order A, B, C (R50, R118); 0 × ∞ raises IV beside a NaN C. -/
def ffmaExact (rm : Nat) (a b c : FVal) : FVal × Flags :=
  if fisNan a then (a, 0)
  else if fisNan b then (b, 0)
  else
    let (p, fl) := fmulExact a b
    if fisNan c then (c, fl)
    else if fl != 0 then (p, fl)
    else faddExact rm p c

/-- a < b for values without NaN. -/
def flt (a b : FVal) : Bool :=
  match a, b with
  | .inf s, .inf t => s && !t
  | .inf s, _ => s
  | _, .inf t => !t
  | .fin sa ma ea, .fin sb mb eb => decide ((dySum sa ma ea (!sb) mb eb).1 < 0)
  | _, _ => false

/-- a = b for values without NaN; −0 equals +0 (R122). -/
def feq (a b : FVal) : Bool :=
  match a, b with
  | .inf s, .inf t => s == t
  | .fin sa ma ea, .fin sb mb eb => decide ((dySum sa ma ea (!sb) mb eb).1 = 0)
  | _, _ => false

/-- FMIN and FMAX (R121). -/
def fminmax (isMax : Bool) (a b : FVal) : FVal :=
  if fisNan a then (if fisNan b then a else b)
  else if fisNan b then a
  else if fisZero a && fisZero b then (if fsign a == isMax then b else a)
  else if isMax then (if flt a b then b else a) else (if flt b a then b else a)

/-- The floating column of R68: the condition, and whether the compare raises IV (R122). -/
def fcond (cc : Nat) (a b : FVal) : Bool × Flags :=
  let un := fisNan a || fisNan b
  match cc with
  | 0 => (!un && feq a b, 0)
  | 1 => (un || !feq a b, 0)
  | 2 => (!un && flt a b, if un then flagIV else 0)
  | 3 => (!un && (flt a b || feq a b), if un then flagIV else 0)
  | 4 => (!un && flt b a, if un then flagIV else 0)
  | 5 => (!un && (flt b a || feq a b), if un then flagIV else 0)
  | _ => (un, 0)

/-- The integer column of R68. -/
def icond (cc : Nat) (a b : Int) : Bool :=
  match cc with
  | 0 => decide (a = b)
  | 1 => decide (a ≠ b)
  | 2 => decide (a < b)
  | 3 => decide (a ≤ b)
  | 4 => decide (a > b)
  | _ => decide (a ≥ b)

/-- FCLASS of an element's value (R123). -/
def fclass (t : Ty) : FVal → Nat
  | .nan s _ => if s then 2 ^ 9 else 2 ^ 8
  | .inf s => if s then 1 else 2 ^ 7
  | .fin s 0 _ => if s then 2 ^ 3 else 2 ^ 4
  | .fin s m e =>
    if (m.log2 : Int) + e < eMin t then (if s then 2 ^ 2 else 2 ^ 5) else (if s then 2 else 2 ^ 6)

/-- roundToIntegral in mode `rm`; no flag (R127). -/
def fintegral (rm : Nat) : FVal → FVal
  | .fin s m e =>
    if m = 0 then .fin s 0 0 else .fin s (roundAt rm s m e 0).1 0
  | x => x

/-- The range of an integer type (R34). -/
def tyMin (t : Ty) : Int := if t.isSigned then -(2 ^ (t.width - 1) : Int) else 0
/-- The largest value of an integer type (R34). -/
def tyMax (t : Ty) : Int := if t.isSigned then (2 ^ (t.width - 1) : Int) - 1 else (2 ^ t.width : Int) - 1

/-- Clamps to the range of an integer type (R5). -/
def satInt (t : Ty) (x : Int) : Int := if x < tyMin t then tyMin t else if tyMax t < x then tyMax t else x

/-- A float to an integer type (R49): always clamped. -/
def fToInt (t : Ty) (rm : Nat) : FVal → Nat × Flags
  | .nan _ _ => (0, flagIV)
  | .inf s => (wrapInt t.width (if s then tyMin t else tyMax t), flagIV)
  | .fin s m e =>
    let (n, x) := roundAt rm s m e 0
    let v : Int := if s then -(n : Int) else n
    if v < tyMin t ∨ tyMax t < v then (wrapInt t.width (satInt t v), flagIV)
    else (wrapInt t.width v, if x then flagNX else 0)

/-- An integer as a value. -/
def fOfInt (x : Int) : FVal := .fin (decide (x < 0)) x.natAbs 0

/-- ⌊log2 |v|⌋ of a nonzero finite value. -/
def flog2 : FVal → Int
  | .fin _ m e => m.log2 + e
  | _ => 0

/-- Aligned-max accumulation of exact products (R55): an F32 encoding and IV, OF, UF. -/
def mapRound (ps : List FVal) : Nat × Flags :=
  if ps.any fisNan || (ps.contains (.inf false) && ps.contains (.inf true)) then (0x7FC00000, flagIV)
  else if ps.contains (.inf false) then (0x7F800000, 0)
  else if ps.contains (.inf true) then (0xFF800000, 0)
  else
    let nz := ps.filter (fun p => !fisZero p)
    match nz with
    | [] => (0, 0)
    | p :: r =>
      let top := r.foldl (fun m x => max m (flog2 x)) (flog2 p)
      let q := top - 63
      let total : Int := nz.foldl (fun acc x =>
        match x with
        | .fin s m e => let n := (roundAt 1 s m e q).1; if s then acc - n else acc + n
        | _ => acc) 0
      if total = 0 then (0, 0)
      else
        let (v, fl) := fround .f32 0 false (.fin (decide (total < 0)) total.natAbs q)
        (v, fl &&& (flagIV ||| flagOF ||| flagUF))

/-- The largest normal exponent of an element format, or the like of MXI8 and BFPm (R46). -/
inductive BlockFmt where
  | mxf4 | mxf6 | mxf8 | mxi8 | bfp (m : Nat)
  deriving DecidableEq, Repr

/-- emax of R46. -/
def blockEmax : BlockFmt → Int
  | .mxf4 => 2
  | .mxf6 => 4
  | .mxf8 => 8
  | .mxi8 => 0
  | .bfp m => (m : Int) - 2

/-- One element of a block at scale 2^x, rounded RNE and saturated (R46): its container. -/
def blockElem (k : BlockFmt) (x : Int) (v : FVal) : Nat :=
  match v with
  | .fin s m e =>
    let scaled : FVal := .fin s m (e - x)
    let intElem (w : Nat) (lo hi : Int) (sh : Int) : Nat :=
      let n := (roundAt 0 s m (e - x + sh) 0).1
      let i : Int := if s then -(n : Int) else n
      wrapInt w (if i < lo then lo else if hi < i then hi else i)
    match k with
    | .mxf4 => (fround .e2m1 0 true scaled).1
    | .mxf6 => (fround .e3m2 0 true scaled).1
    | .mxf8 => (fround .e4m3 0 true scaled).1
    | .mxi8 => intElem 8 (-127) 127 6
    | .bfp b => intElem (if b ≤ 4 then 4 else 8) (-(2 ^ (b - 1) : Int)) ((2 ^ (b - 1) : Int) - 1) 0
  | _ => 0

/-- The scale byte and the element containers of a block (R46). Of the invalid flag that R46 raises for a NaN or an infinity nothing is
kept: only copy engines write blocks, and their conversions raise no flag (R214). DESIGN CHOICE: log entry 58. -/
def quantBlock (k : BlockFmt) (vs : List FVal) : Nat × List Nat :=
  if vs.any (fun v => fisNan v || fisInf v) then (0xFF, vs.map (fun _ => 0))
  else
    match vs.filter (fun v => !fisZero v) with
    | [] => (0, vs.map (fun _ => 0))
    | p :: r =>
      let a := r.foldl (fun m x => max m (flog2 x)) (flog2 p)
      let t := a - blockEmax k + 127
      let t' : Int := if t < 0 then 0 else if 254 < t then 254 else t
      (t'.toNat, vs.map (blockElem k (t' - 127)))

end Sys2Proof.Machine
end

