-- ==== Sys2Proof/Machine/Access.lean ====
section
/-! DEFINITION. Reading and writing the parts of State: cores, ropes, units of ropes, registers, domains, streams. -/

namespace Sys2Proof.Machine

/-- The length in ps of a cycle of a class (R325). -/
def classPs : Nat → Nat
  | 0 => 625
  | 1 => 909
  | 2 => 1429
  | _ => 1818

/-- A core that State does not list: idle since the last reset of the cores, so every cycle was of class Q (R26).
DESIGN CHOICE: log entry 44. -/
def State.freshCore (s : State) : Core :=
  ⟨(s.etimePs - s.epochPs) / 625, s.epochPs + 625 * ((s.etimePs - s.epochPs) / 625), 0, [], [], [], [], 4, false, [], []⟩

/-- A core by number. DESIGN CHOICE: log entry 44. -/
def State.core (s : State) (c : Nat) : Core := (tget s.cores c).getD s.freshCore

/-- The state with a core replaced. -/
def State.setCore (s : State) (c : Nat) (k : Core) : State := { s with cores := tset s.cores c k }

/-- The reset value of a domain partition register by offset (R219). -/
def dpeReset (off : Nat) : DWord := if off % 8 = 5 then 0x100000 else 0

/-- A domain partition register of a core by 8·slot + offset (R219). -/
def Core.dpeReg (k : Core) (n : Nat) : DWord := rget (dpeReset n) k.dpe n

/-- The core with a domain partition register written. -/
def Core.setDpe (k : Core) (n : Nat) (v : DWord) : Core := { k with dpe := rset (dpeReset n) k.dpe n v }

/-- Whether a domain slot of a core is valid (R219). -/
def Core.slotValid (k : Core) (d : Nat) : Bool := (k.dpeReg (8 * d)).getLsbD 16

/-- The DID of a domain slot (R219). -/
def Core.slotDid (k : Core) (d : Nat) : BitVec 16 := (k.dpeReg (8 * d)).extractLsb' 0 16

/-- The valid domain slot of a DID on a core, if there is one. -/
def Core.slotOf (k : Core) (did : BitVec 16) : Option Nat :=
  [0, 1, 2, 3].find? (fun d => k.slotValid d && k.slotDid d == did)

/-- The settings of a domain slot (R220). -/
def Core.set (k : Core) (d : Nat) : DWord := k.dpeReg (8 * d + 5)

/-- The package without a domain entry: no settings, no tables. -/
def Domain.none : Domain :=
  ⟨false, 0, 0, 0, 0, 0, 0, 0, 0, 0, [], [], [], [], [], [], [], [], [], 0, .unlocked, [], []⟩

/-- A domain by DID. -/
def State.domain (s : State) (did : BitVec 16) : Domain := (tget s.domains did.toNat).getD Domain.none

/-- The state with a domain replaced. -/
def State.setDomain (s : State) (did : BitVec 16) (d : Domain) : State :=
  { s with domains := tset s.domains did.toNat d }

/-- The state with a rope replaced. -/
def State.setRope (s : State) (k : Nat) (r : Rope) : State := { s with ropes := tset s.ropes k r }

/-- A rope changed in place, if it exists. -/
def State.onRope (s : State) (k : Nat) (f : Rope → Rope) : State :=
  match tget s.ropes k with
  | some r => s.setRope k (f r)
  | none => s

/-- The state with a workgroup replaced. -/
def State.setWg (s : State) (k : Nat) (w : Workgroup) : State := { s with wgs := tset s.wgs k w }

/-- A workgroup changed in place, if it exists. -/
def State.onWg (s : State) (k : Nat) (f : Workgroup → Workgroup) : State :=
  match tget s.wgs k with
  | some w => s.setWg k (f w)
  | none => s

/-- The state with a stream replaced. -/
def State.setStream (s : State) (k : Nat) (t : Stream) : State := { s with streams := tset s.streams k t }

/-- A stream changed in place, if it exists. -/
def State.onStream (s : State) (k : Nat) (f : Stream → Stream) : State :=
  match tget s.streams k with
  | some t => s.setStream k (f t)
  | none => s

/-- The key of a stream: its DID and number (R239). -/
def streamKey (did : BitVec 16) (num : Nat) : Nat := did.toNat * 4096 + num

/-- The next free value that the manual leaves open (R4), and the state with the counter advanced. -/
def State.draw (s : State) : Nat × State := (Config.freeChoice s.free, { s with free := s.free + 1 })

/-- The next open latency, and the state with the counter advanced. DESIGN CHOICE: log entry 6. -/
def State.drawDelay (s : State) : Nat × State := (Config.freeDelay s.free, { s with free := s.free + 1 })

/-- ETIME in whole nanoseconds (R27). -/
def State.etime (s : State) : Nat := s.etimePs / 1000

/-- Combines a per-strand 4-bit set into a lane mask, from strand `i` on (R10). -/
def laneNat (g : Strand → BitVec 4) : Nat → List Strand → Nat
  | _, [] => 0
  | i, t :: r => (g t).toNat * 16 ^ i + laneNat g (i + 1) r

/-- The lane mask of a per-strand set of a rope. -/
def Rope.lanes (r : Rope) (g : Strand → BitVec 4) : Word := BitVec.ofNat 32 (laneNat g 0 r.strands)

/-- The present lanes of a rope (R11). -/
def Rope.present (r : Rope) : Word := r.lanes (fun t => if t.present then 15 else 0)

/-- The retired lanes of a rope (R166). -/
def Rope.retired (r : Rope) : Word := r.lanes (fun t => if t.present then t.retired else 0)

/-- Whether a strand has lanes that have not retired. -/
def Strand.live (t : Strand) : Bool := t.present && t.retired != 15

/-- Whether a strand issues as a part of unit `u` (R162, R163). -/
def Strand.inUnit (u : Nat) (t : Strand) : Bool := t.live && t.unit == u && !t.waiting && t.active != 0

/-- The active lanes of a unit of a rope. -/
def Rope.unitLanes (r : Rope) (u : Nat) : Word := r.lanes (fun t => if t.inUnit u then t.active else 0)

/-- A strand that is absent (R11). -/
def Strand.none : Strand := ⟨0, false, 0, 0, [], 0, 0, 0, false, 0, false, 0, false, 0⟩

/-- The strands of a unit as a set of positions. -/
def Rope.unitStrands (r : Rope) (u : Nat) : BitVec 8 :=
  BitVec.ofNat 8 ((List.range r.strands.length).foldl
    (fun a i => if (r.strands.getD i Strand.none).inUnit u then a + 2 ^ i else a) 0)

/-- The PC of a unit: that of its strands (R162). -/
def Rope.unitPc (r : Rope) (u : Nat) : DWord :=
  match r.strands.find? (Strand.inUnit u) with
  | some t => t.pc
  | none => 0

/-- A vector register's lane (R15). -/
def Rope.vr (r : Rope) (n l : Nat) : Word := rget 0 r.v (32 * n + l)

/-- A scalar register (R17). -/
def Rope.sr (r : Rope) (n : Nat) : Word := rget 0 r.s n

/-- A predicate register; p7 reads as all ones (R18). -/
def Rope.pr (r : Rope) (n : Nat) : Word := if n = 7 then 0xFFFFFFFF else rget 0 r.p n

/-- A handle register (R19). -/
def Rope.hr (r : Rope) (n : Nat) : BitVec 12 := rget 0 r.h n

/-- A free token (R21). -/
def Token.none : Token := ⟨.free, 0, 0, [], []⟩

/-- A token register (R21). -/
def Rope.tok (r : Rope) (n : Nat) : Token := (tget r.k n).getD Token.none

/-- The rope with a token register written; a free token is not listed. -/
def Rope.setTok (r : Rope) (n : Nat) (t : Token) : Rope := { r with k := rset Token.none r.k n t }

/-- The rope with a vector register's lane written; absent lanes are never written (R11). -/
def Rope.setV (r : Rope) (n l : Nat) (v : Word) : Rope :=
  if r.present.getLsbD l then { r with v := rset 0 r.v (32 * n + l) v } else r

/-- The rope with a scalar register written. -/
def Rope.setS (r : Rope) (n : Nat) (v : Word) : Rope := { r with s := rset 0 r.s n v }

/-- The rope with the bits of `mask` of a predicate written; p7 and absent lanes ignore writes (R11, R18). -/
def Rope.setP (r : Rope) (n : Nat) (mask v : Word) : Rope :=
  if n = 7 then r
  else
    let m := mask &&& r.present
    { r with p := rset 0 r.p n ((r.pr n &&& ~~~m) ||| (v &&& m)) }

/-- A scalar pair s[n:n+1] (R17). -/
def Rope.spair (r : Rope) (n : Nat) : DWord := r.sr (n + 1) ++ r.sr n

/-- A vector pair's lane (R35). -/
def Rope.vpair (r : Rope) (n l : Nat) : DWord := r.vr (n + 1) l ++ r.vr n l

/-- One landed register write (R74). -/
def Rope.write (r : Rope) : RegWrite → Rope
  | .vec n l v => r.setV n l v
  | .scalar n v => r.setS n v
  | .pred n m v => r.setP n m v
  | .status m => r.setP 6 m m

/-- Landed register writes, in order. -/
def Rope.writes (r : Rope) (ws : List RegWrite) : Rope := ws.foldl Rope.write r

/-- What is left of an earlier result that has not landed once a later one lands (R74): nothing of the same
destinations; status raised later ORs into an earlier explicit write of p6 (R18). -/
def RegWrite.overtaken (w : RegWrite) (later : RegWrite) : RegWrite :=
  match w, later with
  | .vec n l v, .vec n' l' v' => if n = n' ∧ l = l' then .vec n l v' else .vec n l v
  | .scalar n v, .scalar n' v' => if n = n' then .scalar n v' else .scalar n v
  | .pred n m v, .pred n' m' v' => if n = n' then .pred n m ((v &&& ~~~m') ||| (v' &&& m')) else .pred n m v
  | .pred n m v, .status m' => if n = 6 then .pred n m (v ||| m') else .pred n m v
  | .status m, .pred n' m' v' => if n' = 6 then .status (m &&& ~~~(m' &&& ~~~v')) else .status m
  | w, _ => w

/-- An earlier result adjusted to one that lands before it. -/
def Pend.overtaken (p : Pend) (ws : List RegWrite) : Pend := { p with writes := p.writes.map (fun w => ws.foldl RegWrite.overtaken w) }

/-- Earlier results adjusted to a result that lands before them. -/
def overtake (ps : List Pend) (ws : List RegWrite) : List Pend := ps.map (fun p => p.overtaken ws)

/-- The rope with the results in flight that issued before an outstanding operation adjusted to what that operation writes (R13, R74). -/
def Rope.lateOver (r : Rope) (id : Nat) (ws : List RegWrite) : Rope :=
  { r with inflight := r.inflight.map (fun p => if p.num ≤ id then p.overtaken ws else p) }

/-- The results of a rope that are due at cycle `c` land, oldest first (R74). -/
def landDue (c : Nat) : List Pend → List Pend → Rope → Rope
  | kept, [], r => { r with inflight := kept }
  | kept, p :: ps, r =>
    if p.due ≤ c then landDue c (overtake kept p.writes) ps (r.writes p.writes)
    else landDue c (kept ++ [p]) ps r

/-- The rope with its due results landed. -/
def Rope.land (r : Rope) (c : Nat) : Rope := landDue c [] r.inflight r

/-- The rope with every result in flight landed. DEDUCED: log entry 15. -/
def Rope.landAll (r : Rope) : Rope := { r.writes (r.inflight.flatMap Pend.writes) with inflight := [] }

/-- The scheduling entry of a unit that has none. -/
def UnitSched.none : UnitSched := ⟨0, 0, 0, 0, false, Option.none⟩

/-- The scheduling entry of a unit. -/
def Rope.schedOf (r : Rope) (u : Nat) : UnitSched := (tget r.sched u).getD UnitSched.none

/-- The rope with a unit's earliest issue cycle set (R73); an issue ends its pass count (R323). -/
def Rope.setReady (r : Rope) (u c skip : Nat) : Rope := { r with sched := tset r.sched u ⟨c, 0, skip, 0, false, none⟩ }

/-- The sleeping or woken WAITV of a unit. -/
def Rope.monitorOf (r : Rope) (u : Nat) : Option Monitor := r.monitors.find? (fun m => m.unit == u)

/-- The rope without the monitor of a unit, or with it replaced. -/
def Rope.setMonitor (r : Rope) (u : Nat) (m : Option Monitor) : Rope :=
  { r with monitors := r.monitors.filter (fun x => x.unit != u) ++ m.toList }

/-- Whether every strand of the rope stands in one unit (R32). -/
def Rope.whole (r : Rope) : Bool :=
  match r.strands.filter Strand.live with
  | [] => true
  | t :: ts => ts.all (fun x => x.unit == t.unit && x.pc == t.pc) && (t :: ts).all (fun x =>
      !x.waiting && x.stack.isEmpty && x.parked == 0 && (x.active ||| x.retired) == 15)

/-- Whether a SPLICE.C remap of the rope has been started and is not yet applied (R32): it is a candidate (R168), or was when it took
the trap that it handles. -/
def Rope.remapping (r : Rope) : Bool :=
  let on (q : Option (DWord × Nat)) : Bool := match q with | some (_, c) => c != 0 | none => false
  on r.cand || (match r.trap with | some t => on t.cand | none => false)

/-- Quiescent (R32, R167): not frayed, every unretired lane active, no remap pending, and since a forced save's restore
spliced (R33). -/
def Rope.quiescent (r : Rope) : Bool := r.whole && !r.remapping && !r.forced

/-- The units of a rope that have strands to issue for. -/
def Rope.units (r : Rope) : List Nat := (List.range 8).filter (fun u => r.strands.any (Strand.inUnit u))

/-- Whether every strand of the rope is done (R166). -/
def Rope.ended (r : Rope) : Bool := r.strands.all (fun t => !t.live)

/-- The LRT (R14). -/
def Rope.lrt (r : Rope) : DWord :=
  BitVec.ofNat 64 ((List.range 8).foldl (fun a i =>
    match r.strands[i]? with
    | some t => if t.present then a + (128 + t.slot.toNat) * 256 ^ i else a
    | none => a) 0)

/-- The quadrant and core of a rope's workgroup as a key of `slots` and `arrays`. -/
def quadKey (core quad : Nat) : Nat := 4 * core + quad

/-- What an instruction finds when it is about to issue: the rope, its workgroup and core, the settings of its domain
slot, the unit with its active lanes, ACTIVE (R69), the PC, the opcode with its fields, the length in bytes (R59), and the STALL in
force (R73). -/
structure Issue where
  k : Nat
  r : Rope
  w : Workgroup
  c : Nat
  core : Core
  set : DWord
  unit : Nat
  lanes : Word
  act : Word
  pc : DWord
  op : Nat
  f : Fields
  len : Nat
  stall : Nat
  deriving DecidableEq, Repr

/-- The length of an instruction in bytes (R59, R373). -/
def instrLen (op : Nat) (f : Fields) : Nat :=
  match f.enc with
  | .native cw => 8 + (if cw.isSome then 8 else 0) + (if hasPb op then 16 else 0)
  | .choarnif c1 => 4 + (if c1.isSome then 4 else 0)

/-- The guard's bits (R69). -/
def guardBits (r : Rope) (f : Fields) : Word := if f.pgn then ~~~(r.pr f.pg.toNat) else r.pr f.pg.toNat

/-- The STALL of a Choarnif instruction in its image's translation (R376). -/
def State.portStall (s : State) (did : BitVec 16) (a : Nat) : Nat :=
  (s.images.findSome? (fun (_, i) => if i.did == did then tget i.stalls a else none)).getD 0

/-- The STALL of an instruction (R73): its own, or for a rope on a translation the translation's (R376). -/
def State.stallOf (s : State) (r : Rope) (f : Fields) (pc : DWord) : Nat :=
  if r.port && r.onNative then s.portStall r.did pc.toNat else f.stall.toNat

/-- The instruction at the issue position of the machine, if a unit of a rope stands there. -/
def State.issuing (s : State) (op : Nat) (f : Fields) : Option Issue :=
  match tget s.ropes s.cur with
  | none => none
  | some r =>
    match tget s.wgs r.wg with
    | none => none
    | some w =>
      let lanes := r.unitLanes s.curUnit
      if lanes = 0 then none
      else some
        { k := s.cur, r := r, w := w, c := w.core, core := s.core w.core, set := (s.core w.core).set r.dslot
          unit := s.curUnit, lanes := lanes, act := lanes &&& guardBits r f, pc := r.unitPc s.curUnit
          op := op, f := f, len := instrLen op f, stall := s.stallOf r f (r.unitPc s.curUnit) }

/-- The fall-through (R157). -/
def Issue.fall (x : Issue) : DWord := x.pc + BitVec.ofNat 64 x.len

/-- The lanes of ACTIVE, ascending. -/
def Issue.active (x : Issue) : List Nat := lanesOf x.act

/-- A trap that an instruction raises (R234, R236): cause, reason, LANEMASK, INFO, OFFSET, ADDR. -/
structure TrapReq where
  cause : Nat
  reason : Nat
  lanes : Word
  info : Word
  off : Word
  addr : DWord
  deriving DecidableEq, Repr

/-- A trap on a condition of the instruction as a whole (R396). -/
def Issue.trap (x : Issue) (cause reason : Nat) (info : Word := 0) (addr : DWord := 0) : TrapReq :=
  ⟨cause, reason, x.act, info, 0, addr⟩

/-- Where the lanes of the issuing unit go next (R157 to R162): on to the fall-through; the listed lanes to their targets
and the others to the fall-through; or wherever the instruction has put them. -/
inductive Next where
  | fall
  | move (dest : List (Nat × DWord))
  | done
  deriving DecidableEq, Repr

/-- What a meaning asks for: to be tried again later (not ready), that with a translation asked for meanwhile, a trap with no other
effect, or its effect: the state,
the fixed-latency results with the cycles added to their latency, and where the lanes go. -/
inductive Act where
  | wait
  | hold (s : State)
  | trap (t : TrapReq)
  | go (s : State) (ws : List RegWrite) (extra : Nat) (nx : Next)

end Sys2Proof.Machine
end

