-- ==== Sys2Proof/Machine/Order.lean ====
section
/-! DEFINITION. Happens-before as accesses to scratchpad bytes carry it (R277 to R288), by which the machine tells whether a map load
and a write of its source are ordered: agents and scopes, releases and the places they write, acquires, fences. -/

namespace Sys2Proof.Machine

/-! Undefined contents. -/

/-- `n` bytes of undefined contents of a domain, formed from data that it could already read (R4), and the state with them counted.
DESIGN CHOICE: log entry 5. -/
def State.openBytes (s : State) (did : BitVec 16) (data : List Byte) (n : Nat) : List Byte × State :=
  let k := rget 0 s.undef did.toNat
  ((List.range n).map (fun i => Config.freeByte (k + i) data), { s with undef := rset 0 s.undef did.toNat (k + n) })

/-! Agents and scopes. -/

/-- The workgroup and core that an agent acts for, while it exists (R278): a copy program has those of the rope that started it. -/
def State.agentAt (s : State) : Agent → Option (Nat × Nat)
  | .rope k => (tget s.ropes k).bind (fun r => (tget s.wgs r.wg).map (fun w => (r.wg, w.core)))
  | .copy id => (s.ctxs.find? (fun (_, c) => c.id == id)).map (fun (_, c) => (c.wg, c.core))
  | .stream _ => none

/-- Whether agents that act for the same or other workgroups and cores lie within a scope of each other (R278): 0 ROPE, 1 WG, 2 DIE, 3 DEV,
4 SYS. -/
def inScope (scope : Nat) : Option (Nat × Nat) → Option (Nat × Nat) → Bool
  | some a, some b => decide (3 ≤ scope) || (scope == 1 && a.1 == b.1) || (scope == 2 && a.2 / 384 == b.2 / 384)
  | _, _ => decide (3 ≤ scope)

/-- A place that synchronises: a space, the first byte, and the bytes. -/
structure Place where
  space : Nat
  addr : Nat
  size : Nat
  deriving DecidableEq, Repr

/-- Whether an agent lies within a scope of the agent that has released a value, or the other way round (R278): by where that one stood at
its release. -/
def Pub.within (q : Pub) (s : State) (a : Agent) (scope : Nat) : Bool := q.by_ == a || inScope scope q.at_ (s.agentAt a)

/-- Whether a read of a place reads a value of a release's sequence (R283). -/
def Pub.readAt (q : Pub) (p : Place) : Bool :=
  q.live && q.space == p.space && decide (q.addr < p.addr + p.size) && decide (p.addr < q.addr + q.size)

/-- Whether a write of a place leaves nothing of a released value. -/
def Pub.coveredBy (q : Pub) (p : Place) : Bool :=
  q.space == p.space && decide (p.addr ≤ q.addr) && decide (q.addr + q.size ≤ p.addr + p.size)

/-- A barrier as a place: `arriving` takes the releases of its current phase, the other those of the phases that have completed. -/
def barPlace (arriving : Bool) (wg b : Nat) : Place := ⟨if arriving then 17 else 16, 16 * wg + b, 1⟩

/-- A copy semaphore as a place. -/
def semPlace (wg n : Nat) : Place := ⟨18, 8 * wg + n, 1⟩

/-! Marks. -/

/-- The mark of an access that an agent makes with a number. -/
def Mark.new (a : Option Agent) (i : Nat) : Mark := ⟨a, match a with | some x => [(x, i)] | none => [], [], [], [], []⟩

/-- Whether event number `i` of an agent comes after a marked access in happens-before (R283). -/
def Mark.before (m : Mark) (a : Agent) (i : Nat) : Bool := m.agent.isNone || m.known.any (fun e => e.1 == a && decide (e.2 ≤ i))

/-- Whether an access of an agent to the same bytes comes after a marked one: in happens-before, or as a copy program's after its starting
rope's (R217, R289). -/
def Mark.precedes (m : Mark) (a : Agent) (i : Nat) : Bool := m.before a i || m.starts.contains a

/-- What an agent does from number `i` on comes after the access. -/
def Mark.learn (m : Mark) (a : Agent) (i : Nat) : Mark := if m.before a i then m else { m with known := (a, i) :: m.known }

/-- Where agent `b` goes on, from number `j`, behind what agent `a` has done before number `i`. -/
def Mark.passOn (m : Mark) (a : Agent) (i : Nat) (b : Agent) (j : Nat) : Mark := if m.before a i then m.learn b j else m

/-- A released value after a write of a place (R283): what lies there then is in its sequence where the write is a read-modify-write or
its agent's own. -/
def Pub.after (q : Pub) (p : Place) (a : Option Agent) (rmw : Bool) : Pub :=
  if q.coveredBy p then { q with live := rmw || a == some q.by_ } else q

/-- A write of a place by an agent, which stands as `at_` says (R283): releases of earlier writes stay or go, `rel` is the scope of its
own release, and its release fences take it into theirs. -/
def Mark.publish (m : Mark) (a : Agent) (at_ : Option (Nat × Nat)) (i : Nat) (p : Place) (rel : Option Nat) (rmw : Bool) : Mark :=
  let own := match rel with | some sc => if m.before a i then [sc] else [] | none => []
  let behind := (m.fenced.filter (fun e => e.1 == a && decide (e.2.2 ≤ i))).map (fun e => e.2.1)
  let new : List Pub := (own ++ behind).eraseDups.map (fun sc => ⟨p.space, p.addr, p.size, a, sc, at_, true⟩)
  { m with pubs := (m.pubs.map (fun q => q.after p (some a) rmw)).filter (fun q => !new.contains q) ++ new }

/-- What a write by nobody whose order counts leaves of the releases in a place. -/
def Mark.clobber (m : Mark) (p : Place) : Mark := { m with pubs := m.pubs.map (fun q => q.after p none false) }

/-- A read of a place by an agent (R283): `acq` is the scope of its acquire; releases that it reads are kept for a later fence. -/
def Mark.observe (m : Mark) (s : State) (a : Agent) (i : Nat) (p : Place) (acq : Option Nat) : Mark :=
  let found := m.pubs.filter (fun q => q.readAt p && q.within s a q.scope)
  let m1 := { m with seen := m.seen ++ (found.map (fun q => (a, q))).filter (fun e => !m.seen.contains e) }
  match acq with
  | some sc => if found.any (fun q => q.within s a sc) then m1.learn a i else m1
  | none => m1

/-- An acquire fence of an agent (R282, R283): for what it has read before. -/
def Mark.fenceAcq (m : Mark) (s : State) (a : Agent) (i sc : Nat) : Mark :=
  if m.seen.any (fun e => e.1 == a && e.2.within s a sc) then m.learn a i else m

/-- A release fence of an agent (R282, R283): for the writes that follow it. -/
def Mark.fenceRel (m : Mark) (a : Agent) (i sc : Nat) : Mark :=
  if m.before a i && !m.fenced.any (fun e => e.1 == a && e.2.1 == sc) then { m with fenced := (a, sc, i) :: m.fenced } else m

/-- The release of a phase of a barrier that completes (R170). -/
def Mark.complete (m : Mark) (wg b : Nat) : Mark :=
  { m with pubs := m.pubs.map (fun q => if q.coveredBy (barPlace true wg b) then { q with space := 16 } else q) }

/-- A change of every mark: of the scratchpads' bytes and of the map loads. -/
def State.onMarks (s : State) (g : Mark → Mark) : State :=
  { s with
    wgs := s.wgs.map (fun (k, w) => (k, { w with marks := w.marks.map (fun (a, l) => (a, l.map g)) }))
    slots := s.slots.map (fun (k, sl) =>
      (k, { sl with
        fill := sl.fill.map (fun f => { f with mark := g f.mark })
        loaded := sl.loaded.map (fun f => { f with mark := g f.mark }) })) }

/-- A write of a place by an agent with a number; `rel` the scope of its release, if it is one. -/
def State.publishes (s : State) (a : Agent) (i : Nat) (p : Place) (rel : Option Nat) (rmw : Bool) : State :=
  let at_ := s.agentAt a
  s.onMarks (fun m => m.publish a at_ i p rel rmw)

/-- A write of a place by the outside or a system unit. -/
def State.clobbers (s : State) (p : Place) : State := s.onMarks (fun m => m.clobber p)

/-- A read of a place by an agent; `acq` the scope of its acquire, if it is one. -/
def State.observes (s : State) (a : Agent) (i : Nat) (p : Place) (acq : Option Nat) : State :=
  s.onMarks (fun m => m.observe s a i p acq)

/-- An acquire fence for the reads of an agent before number `i`. -/
def State.fenceAcquires (s : State) (a : Agent) (i sc : Nat) : State := s.onMarks (fun m => m.fenceAcq s a i sc)

/-- A release fence of an agent. -/
def State.fenceReleases (s : State) (a : Agent) (i sc : Nat) : State := s.onMarks (fun m => m.fenceRel a i sc)

/-- What an agent does from now on comes behind what another has done so far. -/
def State.passesOn (s : State) (a b : Agent) : State := s.onMarks (fun m => m.passOn a s.nextId b s.nextId)

/-- A rope's arrival at a barrier is a release at scope WG (R170, R282). -/
def State.arrives (s : State) (wg k b : Nat) : State := s.publishes (.rope k) s.nextId (barPlace true wg b) (some 1) true

/-- A completed wait of a rope at a barrier is an acquire at scope WG (R170, R282). -/
def State.waited (s : State) (wg k b : Nat) : State := s.observes (.rope k) s.nextId (barPlace false wg b) (some 1)

/-- A WAITC that waits for the rope's own accesses acts for them as a release fence at scope DEV (R286). -/
def State.waitReleases (s : State) (k : Nat) : State :=
  { s with wgs := s.wgs.map (fun (j, w) => (j, { w with marks := w.marks.map (fun (a, l) =>
      (a, l.map (fun m => if m.agent = some (.rope k) then m.fenceRel (.rope k) s.nextId 3 else m))) })) }

/-- A copy program starts: it comes behind the starting rope's own accesses to the bytes that it touches (R217, R289), and behind what a
release fence of that rope that includes the program has released (R289). -/
def State.startsCopy (s : State) (k id : Nat) : State :=
  s.onMarks (fun m =>
    if m.fenced.any (fun e => e.1 == .rope k && decide (1 ≤ e.2.1)) then m.learn (.copy id) s.nextId
    else if m.agent = some (.rope k) then { m with starts := .copy id :: m.starts } else m)

end Sys2Proof.Machine
end

