-- ==== Sys2Proof/Machine/Mem.lean ====
section
/-! DEFINITION. Memory: handle entries (R174), spaces, translation (R302 to R305), L2 lines (R295, R296), reads and writes
of bytes, monitors (R197), atomics (R189, R193), control space (R241). -/

namespace Sys2Proof.Machine

/-- A handle entry's fields (R174). -/
structure HEnt where
  base : Nat
  len : Nat
  v : Bool
  space : Nat
  policy : Nat
  rights : BitVec 4
  order : Nat
  key : Nat
  peer : Nat
  ok : Bool
  deriving DecidableEq, Repr

/-- GLOBAL space (R174). -/
def spGlobal : Nat := 0
/-- SCRATCH space (R174). -/
def spScratch : Nat := 1
/-- HOST space (R174). -/
def spHost : Nat := 2
/-- PEER space (R174). -/
def spPeer : Nat := 3
/-- CTRL space (R174). -/
def spCtrl : Nat := 4

/-- The fields of a handle entry; `ok` where no reserved field or value is set (R174, R180). DEDUCED: log entry 20. -/
def hent (e : BitVec 256) : HEnt :=
  let w10 := e.extractLsb' 128 32
  let base := (e.extractLsb' 0 64).toNat
  let space := (w10.extractLsb' 1 3).toNat
  let peer := (e.extractLsb' 160 16).toNat
  { base := base
    len := (e.extractLsb' 64 48).toNat
    v := w10.getLsbD 0
    space := space
    policy := (w10.extractLsb' 4 2).toNat
    rights := w10.extractLsb' 6 4
    order := (w10.extractLsb' 10 2).toNat
    key := (w10.extractLsb' 16 12).toNat
    peer := peer
    ok := e.extractLsb' 112 16 == 0 && w10.extractLsb' 12 4 == 0 && w10.extractLsb' 28 4 == 0 && e.extractLsb' 176 16 == 0 &&
      e.extractLsb' 192 64 == 0 && decide (space ≤ 4) && w10.extractLsb' 10 2 != 3 && (space == 4 || base % 8 == 0) &&
      (space != 1 || decide (base < 2 ^ 32)) && (space == 3 || peer == 0) && (space != 4 || decide (base < 4096)) }

/-- A handle as an access uses it (R30, R231): the entry, the ASID and DID of its table's domain, the rights left by a
delegation, and the owner of the stream that a CTRL entry reaches (R264). -/
structure HRef where
  ent : HEnt
  raw : BitVec 256
  asid : BitVec 16
  did : BitVec 16
  rights : BitVec 4
  idx : BitVec 12
  owner : BitVec 16
  deriving DecidableEq, Repr

/-- A handle index in a domain's table. -/
def State.handle (s : State) (did asid : BitVec 16) (idx : BitVec 12) : HRef :=
  let e := rget 0 (s.domain did).handles idx.toNat
  let h := hent e
  ⟨h, e, asid, did, h.rights, idx, (tget (s.domain did).ctrlOwner idx.toNat).getD did⟩

/-- A handle register of a rope: h14 and h15 of a gate frame are the caller's, with the delegated rights (R231). -/
def State.ropeHandle (s : State) (r : Rope) (n : Nat) : HRef :=
  match r.frame with
  | some fr =>
    if n = 14 ∧ fr.entry.getLsbD 260 then
      let h := s.handle fr.did fr.asid (r.hr 14)
      { h with rights := h.rights &&& fr.entry.extractLsb' 261 4 }
    else if n = 15 ∧ fr.entry.getLsbD 276 then
      let h := s.handle fr.did fr.asid (r.hr 15)
      { h with rights := h.rights &&& fr.entry.extractLsb' 277 4 }
    else s.handle r.did r.asid (r.hr n)
  | none => s.handle r.did r.asid (r.hr n)

/-- Kinds of access in INFO of XLATE and ALIAS (R236). -/
inductive AccKind where
  | read
  | write
  | atomic
  | fetch
  deriving DecidableEq, Repr

/-- The code of an access kind (R236). -/
def AccKind.code : AccKind → Nat
  | .read => 0
  | .write => 1
  | .atomic => 2
  | .fetch => 3

/-- The access kind of a code. -/
def AccKind.ofCode : Nat → AccKind
  | 0 => .read
  | 1 => .write
  | 2 => .atomic
  | _ => .fetch

/-- Whether rights R, W, X admit an access (R303). -/
def AccKind.fits (k : AccKind) (r w x : Bool) : Bool :=
  match k with
  | .read => r
  | .write => w
  | .atomic => r && w
  | .fetch => x

/-- A translation's outcome: the frame with the rights of both stages, an XLATE reason (R306), or ALIAS (R305). -/
inductive Xlated where
  | ok (frame : Nat) (r w x : Bool)
  | fault (reason : Nat)
  | aliased
  deriving DecidableEq, Repr

/-! Read-modify-write operations. -/

/-- F32 addition as R189 gives it for atomics, and the bits of a sum. -/
def atomAddF32 (old d : Nat) : Nat :=
  let a := fdecode .f32 old
  let b := fdecode .f32 d
  (fround .f32 0 false (if fisNan a then a else (faddExact 0 a b).1)).1

/-- BF16 addition of one half (R189). -/
def atomAddBf16 (old d : Nat) : Nat :=
  let a := fdecode .bf16 old
  let b := fdecode .bf16 d
  (fround .bf16 0 false (if fisNan a then a else (faddExact 0 a b).1)).1

/-- The compensated add (R193): the new sum and error. -/
def atomCadd (sum err d : Nat) : Nat × Nat :=
  let s := fdecode .f32 sum
  let e := fdecode .f32 err
  let v := fdecode .f32 d
  let t := (faddExact 0 s e).1
  let x := if fisNan s then s else if fisNan e then e else if fisNan v then v else (faddExact 0 t v).1
  let special := fisNan s || fisNan e || fisNan v || fisInf s || fisInf e || fisInf v
  let (n, fl) := fround .f32 0 false x
  if special || fl &&& flagOF != 0 then (n, 0)
  else if fisZero x then (0, 0)
  else
    let rest := (faddExact 0 x (fneg (fdecode .f32 n))).1
    (n, if fisZero rest then 0 else (fround .f32 0 false rest).1)

/-- The new value of a read-modify-write (R189), on the values as natural numbers; CADD acts on the pair. -/
def AtomOp.new (op : AtomOp) (old x y : Nat) : Nat :=
  match op with
  | .addN32 => (old + x) % 2 ^ 32
  | .addN64 => (old + x) % 2 ^ 64
  | .addF32 => atomAddF32 old x
  | .add2Bf16 => atomAddBf16 (old % 65536) (x % 65536) + 65536 * atomAddBf16 (old / 65536) (x / 65536)
  | .minS32 => if toSigned 32 x < toSigned 32 old then x else old
  | .minN32 => min old x
  | .minF32 => (fround .f32 0 false (fminmax false (fdecode .f32 old) (fdecode .f32 x))).1
  | .maxS32 => if toSigned 32 old < toSigned 32 x then x else old
  | .maxN32 => max old x
  | .maxF32 => (fround .f32 0 false (fminmax true (fdecode .f32 old) (fdecode .f32 x))).1
  | .andN32 => old &&& x
  | .orN32 => old ||| x
  | .xorN32 => old ^^^ x
  | .incN32 => if x ≤ old then 0 else old + 1
  | .decN32 => if old = 0 ∨ x < old then x else old - 1
  | .caddF32 => let (n, e) := atomCadd (old % 2 ^ 32) (old / 2 ^ 32) x; n + 2 ^ 32 * e
  | .xchgN32 | .xchgN64 => x
  | .casN32 | .casN64 => if old = x then y else old

/-- The bytes an operation reads and writes (R189). -/
def AtomOp.size : AtomOp → Nat
  | .addN64 | .caddF32 | .xchgN64 | .casN64 => 8
  | _ => 4

/-! Update-only lines. -/

/-- The identity that a word of a UO line starts from (R297). -/
def AtomOp.identity : AtomOp → Nat
  | .andN32 => 0xFFFFFFFF
  | .minS32 => 0x7FFFFFFF
  | .minN32 => 0xFFFFFFFF
  | .maxS32 => 0x80000000
  | .minF32 => 0x7F800000
  | .maxF32 => 0xFF800000
  | _ => 0

/-- The operations that may be gathered (R191). -/
def AtomOp.gathers : AtomOp → Bool
  | .addN32 | .addN64 | .minS32 | .minN32 | .minF32 | .maxS32 | .maxN32 | .maxF32 | .andN32 | .orN32 | .xorN32 => true
  | _ => false

/-- The physical address of a line's first byte in its backing frame (R295). -/
def L2Line.base (l : L2Line) : Nat := l.frame * 65536 + 128 * l.line % 65536

/-- Memory with the partial values of one copy applied to a line's words, each as one RED would (R297). -/
def UoCopy.combine (c : UoCopy) (base : Nat) (m : Tbl Byte) : Tbl Byte :=
  c.words.foldl (fun m (i, op, v) =>
    let p := base + 4 * i
    wrBytes m p (leBytes op.size (op.new (leNat (rdBytes m p op.size)) v 0))) m

/-- Memory with every copy of a line combined at its home. -/
def L2Line.combined (l : L2Line) (m : Tbl Byte) : Tbl Byte := l.uo.foldl (fun m c => c.combine l.base m) m

/-- Whether a line has update-only copies and lies in a range of physical addresses. -/
def L2Line.pending (l : L2Line) (p n : Nat) : Bool := !l.uo.isEmpty && decide (l.base < p + n) && decide (p < l.base + 128)

/-- Bytes of the frames as their homes return them: the copies of update-only lines are combined first (R287, R297). -/
def State.physBytes (s : State) (p n : Nat) : List Byte :=
  rdBytes ((s.l2.filter (fun l => l.pending p n)).foldl (fun m x => x.combined m) s.mem) p n

/-- The state after an access that the homes of a range of physical addresses have performed: the update-only copies there have been
recalled and applied (R297). -/
def State.recallPhys (s : State) (p n : Nat) : State :=
  if s.l2.any (fun l => l.pending p n) then
    { s with
      mem := (s.l2.filter (fun l => l.pending p n)).foldl (fun m x => x.combined m) s.mem
      l2 := s.l2.map (fun l => if l.pending p n then { l with uo := [] } else l) }
  else s

/-! Translation. -/

/-- Whether the line of a physical address is poisoned (R357). -/
def State.poisoned (s : State) (phys : Nat) : Bool := s.poison.contains (phys / 128)

/-- The code of a read of a poisoned line among the reasons of a translation: S2, and 16. -/
def poisonReason : Nat := 21

/-- Eight bytes of a page table, read through stage 2 (R302); the reason where stage 2 has no entry, or where their line is poisoned
(R357). -/
def State.tableRead (s : State) (ipa : Nat) : Except Nat Nat :=
  match tget s.stage2 (ipa / 65536) with
  | some e =>
    if s.poisoned (e.frame * 65536 + ipa % 65536) then .error poisonReason
    else .ok (leNat (s.physBytes (e.frame * 65536 + ipa % 65536) 8))
  | none => .error 5

/-- The shift of a level's VA bits (R302). -/
def lvlShift : Nat → Nat
  | 0 => 39
  | 1 => 30
  | 2 => 21
  | _ => 16

/-- The size of a level's table in bytes (R302). -/
def lvlSize : Nat → Nat
  | 3 => 256
  | _ => 4096

/-- The stage-1 walk from a level, `fuel` levels left (R302, R303): the leaf's page, its rights, or the reason. -/
def State.walk (s : State) (va : Nat) : Nat → Nat → Nat → Except Nat (Nat × Bool × Bool × Bool)
  | 0, _, _ => .error 3
  | fuel + 1, lvl, table =>
    let idx := va / 2 ^ lvlShift lvl % (lvlSize lvl / 8)
    match s.tableRead (table + 8 * idx) with
    | .error r => .error r
    | .ok e =>
      let addr := e / 256 % 2 ^ 44 * 256
      if !bitOf e 0 then .error 1
      else if bits e 7 5 != 0 || bits e 63 52 != 0 then .error 3
      else if bitOf e 1 then
        if lvl = 0 ∨ addr % 2 ^ lvlShift lvl ≠ 0 then .error 3
        else .ok (addr + va % 2 ^ lvlShift lvl, bitOf e 2, bitOf e 3, bitOf e 4)
      else if lvl = 3 ∨ bits e 4 2 ≠ 0 ∨ addr % lvlSize (lvl + 1) ≠ 0 then .error 3
      else s.walk va fuel (lvl + 1) addr

/-- The physical addresses of the entries that a walk from a level reads (R302). -/
def State.walkReads (s : State) (va : Nat) : Nat → Nat → Nat → List Nat
  | 0, _, _ => []
  | fuel + 1, lvl, table =>
    let ipa := table + 8 * (va / 2 ^ lvlShift lvl % (lvlSize lvl / 8))
    match tget s.stage2 (ipa / 65536) with
    | none => []
    | some f =>
      (f.frame * 65536 + ipa % 65536) ::
        (match s.tableRead ipa with
         | .ok e => if bitOf e 0 && !bitOf e 1 then s.walkReads va fuel (lvl + 1) (e / 256 % 2 ^ 44 * 256) else []
         | .error _ => [])

/-- The state after a walk's reads at the homes of the tables (R297, R302). -/
def State.walkRecall (s : State) (asid : BitVec 16) (va : Nat) : State :=
  match tget s.roots asid.toNat with
  | none => s
  | some root => (s.walkReads va 4 0 root.toNat).foldl (fun (t : State) p => t.recallPhys p 8) s

/-- What stage 1 says of a VA: the IPA and the leaf's rights, or the reason (R302, R303). -/
abbrev Stage1 := Except Nat (Nat × Bool × Bool × Bool)

/-- The stage-1 walk of an ASID (R302). -/
def State.stage1 (s : State) (asid : BitVec 16) (va : Nat) : Stage1 :=
  match tget s.roots asid.toNat with
  | none => .error 1
  | some root => s.walk va 4 0 root.toNat

/-- The stage-1 translation that the MTLBs hold for a VA, if they hold one (R302). -/
def State.heldStage1 (s : State) (asid : BitVec 16) (va : Nat) : Option TlbEntry :=
  s.tlb.find? (fun e => e.asid == asid && e.page == va / 65536)

/-- Whether a held translation is what the tables say now. -/
def TlbEntry.agrees (e : TlbEntry) (va : Nat) : Stage1 → Bool
  | .ok (ipa, r, w, x) => ipa == 65536 * e.ipa + va % 65536 && r == e.r && w == e.w && x == e.x
  | .error _ => false

/-- Whether an access finds a held translation that the tables no longer give: it may use either (R308, R310). -/
def State.staleStage1 (s : State) (asid : BitVec 16) (va : Nat) : Bool :=
  match s.heldStage1 asid va with
  | some e => !e.agrees va (s.stage1 asid va)
  | none => false

/-- Stage 1 as an access finds it: the tables' answer, or by a free choice a stale one that is still held (R302, R308, R310).
DESIGN CHOICE: log entry 47. -/
def State.stage1Seen (s : State) (asid : BitVec 16) (va : Nat) : Stage1 :=
  match s.heldStage1 asid va with
  | some e =>
    if !e.agrees va (s.stage1 asid va) && Config.freeChoice s.free % 2 == 1 then .ok (65536 * e.ipa + va % 65536, e.r, e.w, e.x)
    else s.stage1 asid va
  | none => s.stage1 asid va

/-- The translation of a VA under an ASID at the MTLB (R302 to R306); `key` is the KEY of the access's handle (R342). -/
def State.mtlb (s : State) (asid : BitVec 16) (va : Nat) (k : AccKind) (key : Option Nat := none) : Xlated :=
  if 2 ^ 48 ≤ va then .fault 4
  else
    match s.stage1Seen asid va with
    | .error r => .fault (r % 16)
    | .ok (ipa, r, w, x) =>
      if !k.fits r w x then .fault 2
      else
        match tget s.stage2 (ipa / 65536) with
        | none => .fault 5
        | some e =>
          if !k.fits true e.w e.x || (match key with | some n => e.key.toNat != n | none => false) then .fault 5
          else if e.w && (match tget s.owners e.frame with
              | some o => o != (asid, va / 65536)
              | none => false) then .aliased
          else .ok e.frame r (w && e.w) (x && e.x)

/-- The state after a translation that succeeded: the MTLBs hold its stage-1 part (R302). -/
def State.hold (s : State) (asid : BitVec 16) (va : Nat) : State :=
  let s0 := if (s.heldStage1 asid va).isNone then s.walkRecall asid va else s
  let s1 := if s.staleStage1 asid va then { s0 with free := s.free + 1 } else s0
  match s.stage1Seen asid va with
  | .ok (ipa, r, w, x) =>
    { s1 with tlb := ⟨asid, va / 65536, ipa / 65536, r, w, x⟩ :: s1.tlb.filter (fun e => !(e.asid == asid && e.page == va / 65536)) }
  | .error _ => s1

/-- The DID of the domain with an ASID. -/
def State.didOfAsid (s : State) (asid : BitVec 16) : BitVec 16 :=
  match s.domains.find? (fun (_, d) => d.valid && d.asid == asid) with
  | some (k, _) => BitVec.ofNat 16 k
  | none => 0

/-- A poisoned line that a structure of a partition lies in is fatal for it (R356, R357). -/
def State.fatalFor (s : State) (p : Nat) : State := if s.fatals.contains p then s else { s with fatals := s.fatals ++ [p] }

/-- The walk for a VA has been made: a poisoned line of the tables is fatal for the partition of the domain (R357). DEDUCED: log entry 25. -/
def State.walked (s0 : State) (asid : BitVec 16) (va : Nat) : State :=
  let s := s0.walkRecall asid va
  match s.stage1 asid va with
  | .error r => if r = poisonReason then s.fatalFor (s.domain (s.didOfAsid asid)).part else s
  | .ok _ => s

/-! Partitions and homes. -/

/-- The number of a partition register (R337); calendar registers lie in the calendars. -/
def regKey : SysReg → Nat
  | .partReq die i => 1024 * die + i
  | .partMp die j => 1024 * die + 64 + j
  | .conn die i => 1024 * die + 128 + i
  | .partDie die p => 1024 * die + 192 + p
  | .hubSlot i => 16384 + i
  | .hubPort i => 17408 + i
  | .hubVf i => 18432 + i
  | .calSlot p k => 32768 + 256 * p + k
  | .calShare p j => 32768 + 256 * p + 128 + j

/-- A partition register's value. -/
def State.reg (s : State) (r : SysReg) : Word := rget 0 s.partRegs (regKey r)

/-- The partition that an owner register names: [3:0], where V is 1 (R337). -/
def partOf (w : Word) : Option Nat := if w.getLsbD 4 then some (w.toNat % 16) else none

/-- The partition of a core: that of its cluster's requester (R336, R337); what stands for a sequencer's prologue run has none. -/
def State.corePart (s : State) (c : Nat) : Option Nat := if c < 3072 then partOf (s.reg (.partReq (c / 384) (c / 32 % 12))) else none

/-! The calendar. -/

/-- A calendar at its reset values (R326), at a slot counted from ETIME 0. -/
def Calendar.none (now : Nat) : Calendar := ⟨[], [], 0, [], now, []⟩

/-- The calendar of a partition. -/
def State.cal (s : State) (p : Nat) : Calendar := (tget s.calendars p).getD (Calendar.none (s.etime / 32))

/-- The state with a calendar replaced. -/
def State.setCal (s : State) (p : Nat) (c : Calendar) : State := { s with calendars := tset s.calendars p c }

/-- A held write applied (R326); slot 64 stands for CAL_CTL. -/
def Calendar.apply (c : Calendar) (w : SysReg × Word × Nat) : Calendar :=
  match w.1 with
  | .calSlot _ k => if k = 64 then { c with ctl := w.2.1 } else { c with slot := rset 0 c.slot (k % 64) w.2.1 }
  | .calShare _ j => { c with share := rset 0 c.share (j % 16) w.2.1 }
  | _ => c

/-- A calendar from the start of a period on (R326): writes of CAL_CTL made before it take effect, and the others unless HOLD is then
set. -/
def Calendar.started (c : Calendar) (period : Nat) : Calendar :=
  let isCtl (w : SysReg × Word × Nat) : Bool := (match w.1 with | .calSlot _ 64 => true | _ => false)
  let before (w : SysReg × Word × Nat) : Bool := decide (w.2.2 < period)
  let due (w : SysReg × Word × Nat) : Bool := isCtl w && before w
  let c1 := { (c.waiting.filter due).foldl Calendar.apply c with waiting := c.waiting.filter (fun w => !due w) }
  if c1.ctl.getLsbD 0 then c1
  else { (c1.waiting.filter before).foldl Calendar.apply c1 with waiting := c1.waiting.filter (fun w => !before w) }

/-- The owner of a calendar's slot, counted from ETIME 0, if it is owned (R326). -/
def Calendar.owner (c : Calendar) (n : Nat) : Option (BitVec 16) :=
  let w := rget 0 c.slot (n % 64)
  if w.getLsbD 16 then some (w.extractLsb' 0 16) else Option.none

/-- Whether a domain is isolated on a core (R220, R327). -/
def Core.isolated (k : Core) (did : BitVec 16) : Bool :=
  match k.slotOf did with
  | some d => (k.set d).getLsbD 14
  | none => false

/-- The calendar slot of a core's current cycle, counted from ETIME 0 (R326): slots are 32 ns long. -/
def Core.slotNow (k : Core) : Nat := k.startPs / 32000

/-- The calendar of a partition as it stands in a slot counted from ETIME 0 (R326): in a period that the partition has not come to, the
registers are as that period's start leaves them. -/
def State.calFor (s : State) (p n : Nat) : Calendar :=
  let k := s.cal p
  if k.now / 64 < n / 64 then k.started (n / 64) else k

/-- The owner of a slot, counted from a core's current one, if it is owned (R327). -/
def State.slotOwner (s : State) (c ahead : Nat) : Option (BitVec 16) :=
  match s.corePart c with
  | none => none
  | some p => let n := (s.core c).slotNow + ahead; (s.calFor p n).owner n

/-- Whether a domain owns a slot of a core and is isolated there. -/
def State.isoSlot (s : State) (c ahead : Nat) : Bool :=
  match s.slotOwner c ahead with
  | some o => (s.core c).isolated o
  | none => false

/-- The map duty in force on a core (R362), in percent: in a slot that an isolated domain owns, what is fixed for the partition. -/
def State.dutyOf (s : State) (c : Nat) : Nat :=
  if s.isoSlot c 0 then rget 100 s.partDuty ((s.corePart c).getD 0) else s.duty

/-- Whether the map duty lets an application start in the current cycle (R362): of any 100 cycles as many as the duty says.
DESIGN CHOICE: log entry 9. -/
def State.dutyAdmits (s : State) (c : Nat) : Bool :=
  let n := (s.core c).cyc
  decide (n * s.dutyOf c / 100 < (n + 1) * s.dutyOf c / 100)

/-! Homes. -/

/-- The memory ports among which the home hash of a core's partition chooses, as die and port (R294, R336): those that the
registers give the partition, on the dies that the core's die lists for it. -/
def State.homePorts (s : State) (die p : Nat) : List (Nat × Nat) :=
  ((List.range 8).filter (fun d => (s.reg (.partDie die p)).getLsbD d)).flatMap (fun d =>
    ((List.range 16).filter (fun j => partOf (s.reg (.partMp d j)) == some p)).map (fun j => (d, j)))

/-- Whether a core's request reaches a memory port (R338). DESIGN CHOICE: log entry 48. -/
def State.connected (s : State) (c p : Nat) (port : Nat × Nat) : Bool :=
  let die := c / 384
  !s.dieOff.contains port.1 && partOf (s.reg (.partMp port.1 port.2)) == some p && (s.reg (.conn port.1 (c / 32 % 12))).getLsbD port.2 &&
    (port.1 == die || (s.reg (.partDie port.1 p)).getLsbD die)

/-- The home of a line among the slices of a list of memory ports (R294): the hash chooses the port, and one of its 4 slices. -/
def homeIn (ports : List (Nat × Nat)) (other : Nat × Nat) (asid : BitVec 16) (line : Nat) : (Nat × Nat) × Nat :=
  let h := Config.homePort asid line
  (ports.getD (h % ports.length) other, h / ports.length % 4)

/-- The home of a line for a core's request (R294). -/
def State.homeOf (s : State) (c p : Nat) (asid : BitVec 16) (line : Nat) : (Nat × Nat) × Nat :=
  homeIn (s.homePorts (c / 384) p) (c / 384, 0) asid line

/-- Whether the home's side refuses a core's request for a line (R338). -/
def State.refuses (s : State) (c : Nat) (asid : BitVec 16) (line : Nat) : Bool :=
  match s.corePart c with
  | none => true
  | some p =>
    let l := s.homePorts (c / 384) p
    l.isEmpty || (!l.all (s.connected c p) && !s.connected c p (s.homeOf c p asid line).1)

/-- What issues a request to a home (R337): the cluster of a core, or a hub die by its bridges. -/
inductive Requester where
  | core (c : Nat)
  | hub (h : Nat)
  deriving DecidableEq, Repr

/-- The memory ports of a partition as a hub die finds them (R294, R336). -/
def State.hubPorts (s : State) (p : Nat) : List (Nat × Nat) :=
  ((List.range 8).filter (fun d => (s.reg (.partDie d p)).getLsbD d)).flatMap (fun d =>
    ((List.range 16).filter (fun j => partOf (s.reg (.partMp d j)) == some p)).map (fun j => (d, j)))

/-- Whether a hub die's request reaches a memory port, through its bridge on that die: requester 12 or 13 (R337, R338). -/
def State.bridged (s : State) (h p : Nat) (port : Nat × Nat) : Bool :=
  !s.dieOff.contains port.1 && partOf (s.reg (.partMp port.1 port.2)) == some p &&
    partOf (s.reg (.partReq port.1 (12 + h))) == some p && (s.reg (.conn port.1 (12 + h))).getLsbD port.2

/-- The home of a line for a requester's request under a partition (R294). -/
def State.homeBy (s : State) (v : Requester) (p : Nat) (asid : BitVec 16) (line : Nat) : (Nat × Nat) × Nat :=
  match v with
  | .core c => s.homeOf c p asid line
  | .hub _ => homeIn (s.hubPorts p) (0, 0) asid line

/-- The partition under which a requester's request for an ASID's line goes: its cluster's, or the domain's (R336). -/
def State.partBy (s : State) (v : Requester) (asid : BitVec 16) : Nat :=
  match v with
  | .core c => (s.corePart c).getD 0
  | .hub _ => (s.domain (s.didOfAsid asid)).part

/-- Whether the home's side refuses a requester's request for a line (R338). -/
def State.refusesBy (s : State) (v : Requester) (asid : BitVec 16) (line : Nat) : Bool :=
  match v with
  | .core c => s.refuses c asid line
  | .hub h =>
    let p := s.partBy v asid
    let l := s.hubPorts p
    l.isEmpty || (!l.all (s.bridged h p) && !s.bridged h p (s.homeBy v p asid line).1)

/-- A black-box entry (R359): at most 4,096 are kept, the oldest going first. -/
def State.logBox (s : State) (hub : Nat) (cls : Nat) (w : ErrWhere) : State :=
  let l := (tget s.blackBox hub).getD []
  { s with blackBox := tset s.blackBox hub ((l ++ [(⟨s.etime, BitVec.ofNat 8 cls, w⟩ : BlackBox)]).drop (l.length + 1 - 4096)) }

/-- The event of class PARTITION that the receiving side of a refused request writes (R338, R359). -/
def State.logRefused (s : State) (v : Requester) (asid : BitVec 16) (line : Nat) : State :=
  let p := s.partBy v asid
  let h := (s.homeBy v p asid line).1
  let i := match v with | .core c => c / 32 % 12 | .hub n => 12 + n
  s.logBox 0 5 ⟨1, BitVec.ofNat 4 h.1, BitVec.ofNat 4 p, 0, BitVec.ofNat 64 h.2, BitVec.ofNat 64 i⟩

/-! L1 and L2 lines. -/

/-- The L2 line of a VA (R295). -/
def State.l2Line (s : State) (asid : BitVec 16) (va : Nat) : Option L2Line :=
  s.l2.find? (fun l => l.asid == asid && l.line == va / 128)

/-- The state with an L2 line put in place of the line with its tag. -/
def State.putLine (s : State) (l : L2Line) : State :=
  { s with l2 := l :: s.l2.filter (fun m => !(m.asid == l.asid && m.line == l.line)) }

/-- The state without an L2 line, whose L1 copies are recalled first: stores stand, partial values are combined (R293, R297). -/
def State.evictLine (s : State) (l : L2Line) : State :=
  { s with mem := l.combined s.mem, l2 := s.l2.filter (fun m => !(m.asid == l.asid && m.line == l.line)) }

/-- Whether a core holds a line in its L1 with values it can read (R293). -/
def L2Line.inL1 (l : L2Line) (c : Nat) : Bool := l.l1.any (fun e => e.1 == c)

/-- The ways of a core's L1 that hold lines of a set, with the lines' policies (R174, R292). -/
def State.l1Used (s : State) (c set : Nat) : List (Nat × Nat) :=
  s.l2.flatMap (fun l =>
    if l.line % 512 = set then
      ((l.l1.filter (fun e => e.1 == c)).map Prod.snd ++ (l.uo.filter (fun e => e.core == c)).map UoCopy.way).map (fun w => (w, l.policy))
    else [])

/-- A line without the copies that a core holds in the ways that `p` names: a dirty copy is written back (R293, R299). -/
def L2Line.leaveWays (l : L2Line) (c : Nat) (p : Nat → Bool) : L2Line :=
  let gone := l.l1.any (fun e => e.1 == c && p e.2)
  { l with
    l1 := l.l1.filter (fun e => !(e.1 == c && p e.2))
    uo := l.uo.filter (fun e => !(e.core == c && p e.way))
    dirty := if gone && l.dirty == some c then none else l.dirty
    old := if gone && l.dirty == some c then [] else l.old }

/-- The lines of some L1 sets leave the ways of a core that `p` names: partial values go to the home, dirty lines are written
back (R293, R297, R299). -/
def State.l1Leave (s : State) (c : Nat) (sets : Nat → Bool) (p : Nat → Bool) : State :=
  { s with
    mem := s.l2.foldl (fun m l =>
      if sets (l.line % 512) then (l.uo.filter (fun e => e.core == c && p e.way)).foldl (fun m e => e.combine l.base m) m else m) s.mem
    l2 := s.l2.map (fun l => if sets (l.line % 512) then l.leaveWays c p else l) }

/-- The ways of a full set that an eviction chooses among, as (way, policy of its line) (R174): those of STREAM lines, which are kept the
shortest; for a STREAM line's sake those of PERSIST lines last; else any. DESIGN CHOICE: log entry 46. -/
def victims (lines : List (Nat × Nat)) (policy : Nat) : List Nat :=
  let stream := lines.filter (fun e => e.2 == 1)
  let open_ := lines.filter (fun e => e.2 != 3)
  (if !stream.isEmpty then stream else if policy = 1 ∧ !open_.isEmpty then open_ else lines).map Prod.fst

/-- A way of a core's L1 for a line: a free one of its set, else one that a free choice empties among those that POLICY leaves (R174,
R292, R293). DESIGN CHOICE: log entry 46. -/
def State.l1Way (s : State) (c line policy : Nat) : State × Nat :=
  let n := 8 - (s.core c).scr
  let used := s.l1Used c (line % 512)
  match (List.range n).find? (fun w => !(used.map Prod.fst).contains w) with
  | some w => (s, w)
  | none =>
    let (k, s1) := s.draw
    let l := victims used policy
    let w := l.getD (k % l.length) 0
    (s1.l1Leave c (fun m => m == line % 512) (fun v => v == w), w)

/-- The ways of an L2 set that a mask lets misses allocate into; 0 stands for all (R219, R295). -/
def waysOf (mask : BitVec 16) : List Nat := (List.range 16).filter (fun w => mask == 0 || mask.getLsbD w)

/-- Whether two lines lie in one set of one slice (R295): a slice of 16 MiB in 16 ways of 128-byte lines has 8,192 sets. -/
def L2Line.sameSet (l m : L2Line) : Bool :=
  l.home == m.home && Config.homeSet l.asid l.line % 8192 == Config.homeSet m.asid m.line % 8192

/-- A line enters L2, in a free permitted way of its set, else in place of a line that a free choice evicts among those that POLICY
leaves (R174, R293, R295). DESIGN CHOICE: log entry 46. -/
def State.allocLine (s : State) (l : L2Line) (mask : BitVec 16) : State :=
  let ways := waysOf mask
  match ways.find? (fun w => s.l2.all (fun m => m.way != w)) with
  | some w => s.putLine { l with way := w }
  | none =>
    let set := s.l2.filter (fun m => m.sameSet l)
    match ways.find? (fun w => set.all (fun m => m.way != w)) with
    | some w => s.putLine { l with way := w }
    | none =>
      let (k, s1) := s.draw
      let v := victims ((set.filter (fun m => ways.contains m.way)).map (fun m => (m.way, m.policy))) l.policy
      let w := v.getD (k % v.length) 0
      ((set.filter (fun m => m.way == w)).foldl State.evictLine s1).putLine { l with way := w }

/-- What a GLOBAL access finds (R296): the line's frame where L2 holds it with the rights, else the MTLB's answer. -/
def State.lookup (s : State) (asid : BitVec 16) (va : Nat) (k : AccKind) (key : Option Nat := none) : Xlated :=
  match s.l2Line asid va with
  | some l => if k.fits l.r l.w l.x then .ok l.frame l.r l.w l.x else s.mtlb asid va k key
  | none => s.mtlb asid va k key

/-- Where a lane's access goes: its space, the DID and ASID of the table's domain, the workgroup or stream, the peer index,
the core whose L1 it goes through, the requester that it uses (R337), the handle's KEY, ordering kind and policy (R174), the
L2 ways it may allocate into (R219), the agent that makes it, and its number among the agent's accesses (R277). -/
structure Target where
  space : Nat
  did : BitVec 16
  asid : BitVec 16
  wg : Nat
  stream : Nat
  peer : Nat
  core : Option Nat
  via : Requester
  key : Nat
  order : Nat
  policy : Nat
  mask : BitVec 16
  agent : Option Agent
  num : Nat
  deriving DecidableEq, Repr

/-- Whether an access needs no request to its line's home: the core's L1 holds the line with what the access needs (R293). -/
def State.l1Hit (s : State) (t : Target) (va : Nat) (k : AccKind) : Bool :=
  match t.core, s.l2Line t.asid va with
  | some c, some l =>
    (match k with
     | .read => l.r && l.inL1 c
     | .write => l.w && l.dirty == some c
     | .atomic | .fetch => false)
  | _, _ => false

/-- Whether a GLOBAL access is refused on its way to the home (R338). -/
def State.refused (s : State) (t : Target) (va : Nat) (k : AccKind) : Bool :=
  !s.l1Hit t va k && s.refusesBy t.via t.asid (va / 128)

/-- What an access of a target finds (R296, R338, R342). -/
def State.find (s : State) (t : Target) (va : Nat) (k : AccKind) : Xlated :=
  if s.refused t va k then .fault 5 else s.lookup t.asid va k (some t.key)

/-- The slice in which a target's line lives, as die, memory port and slice (R294, R336). -/
def State.homeFor (s : State) (t : Target) (va : Nat) : (Nat × Nat) × Nat := s.homeBy t.via (s.partBy t.via t.asid) t.asid (va / 128)

/-- The first pair to reach a writable frame becomes its owner (R305). -/
def State.own (s : State) (asid : BitVec 16) (va f : Nat) : State :=
  if (s.stage2.any (fun e => e.2.frame == f && e.2.w)) && (tget s.owners f).isNone then
    { s with owners := tset s.owners f (asid, va / 65536) }
  else s

/-- What an access of a target that is not translated leaves behind: the event of its refusal (R338), or of a poisoned page table
(R357). -/
def State.failed (s : State) (t : Target) (va : Nat) (k : AccKind) : State :=
  if s.refused t va k then s.logRefused t.via t.asid (va / 128) else s.walked t.asid va

/-- A GLOBAL access' translation with its lasting effects: a miss is translated, its translation held, its frame owned, and the
line enters L2 with its backing frame and rights, unless the policy allocates nothing (R174, R295, R302, R305).
DEDUCED: log entry 12. -/
def State.xlate (s : State) (t : Target) (va : Nat) (k : AccKind) : Xlated × State :=
  match s.find t va k with
  | .ok f r w x =>
    let hit := match s.l2Line t.asid va with | some l => k.fits l.r l.w l.x | none => false
    if hit then (.ok f r w x, s)
    else
      let s1 := (s.hold t.asid va).own t.asid va f
      let s2 :=
        match s1.l2Line t.asid va with
        | some l => { s1 with mem := l.combined s1.mem }.putLine { l with frame := f, r := r, w := w, x := x, uo := [] }
        | none => if t.policy = 2 then s1 else
            s1.allocLine ⟨t.asid, va / 128, s1.homeFor t va, 0, f, r, w, x, t.policy, [], [], none, []⟩ t.mask
      (.ok f r w x, s2)
  | z => (z, s.failed t va k)

/-- The physical address of a VA in its frame. -/
def physOf (frame va : Nat) : Nat := frame * 65536 + va % 65536

/-- The update-only copies of a line are recalled and combined before the home performs any other access (R297). -/
def State.recall (s : State) (asid : BitVec 16) (va : Nat) : State :=
  match s.l2Line asid va with
  | none => s
  | some l => if l.uo.isEmpty then s else { s with mem := l.combined s.mem }.putLine { l with uo := [] }

/-- A core's access to an L2 line (R293): update-only copies and another core's dirty copy merge, a store makes the copy dirty
and keeps the bytes it replaces, and the core holds the line, unless the handle's policy allocates nothing in L1 (R174). -/
def State.l1Touch (s0 : State) (core : Nat) (alloc : Bool) (asid : BitVec 16) (va size : Nat) (phys : Nat) (wr : Bool) : State :=
  let s := s0.recall asid va
  match s.l2Line asid va with
  | none => s
  | some l0 =>
    if l0.inL1 core || alloc then
      let p := if l0.inL1 core then (s, 0) else s.l1Way core l0.line l0.policy
      let l := (p.1.l2Line asid va).getD l0
      let mine := l.dirty == some core
      let old0 : Tbl Byte := if mine then l.old else []
      let old1 := if wr then
          (List.range size).foldl (fun (t : Tbl Byte) i =>
            if (tget t (phys + i)).isSome then t else tset t (phys + i) (rdByte p.1.mem (phys + i))) old0
        else old0
      let own := match l.l1.find? (fun e => e.1 == core) with | some e => e | none => (core, p.2)
      p.1.putLine { l with
        dirty := if wr || mine then some core else none
        old := old1
        l1 := if wr then [own] else if l.inL1 core then l.l1 else own :: l.l1 }
    else s.putLine { l0 with l1 := if wr then [] else l0.l1, dirty := none, old := [] }

/-- Whether a load of a map slot reads a byte of a range (R132). -/
def MapFill.reads (m : MapFill) (lo size : Nat) : Bool :=
  (List.range 32).any (fun i =>
    decide (lo < m.wa + i * m.stride + m.row ∧ m.wa + i * m.stride < lo + size)) ||
  (m.sb != 0 && decide (lo < m.sa + 32 * m.sb ∧ m.sa < lo + size))

/-- The place a monitor names: in SCRATCH by workgroup, in CTRL by stream, in GLOBAL by ASID. -/
def place (owner addr : Nat) : Nat := owner * 2 ^ 64 + addr

/-- A write to a place wakes the monitors it overlaps (R197). DESIGN CHOICE: log entry 11. -/
def State.wake (s : State) (space addr size : Nat) : State :=
  { s with ropes := s.ropes.map (fun (k, r) =>
      (k, { r with monitors := r.monitors.map (fun m =>
        if m.space = space ∧ addr < m.addr + m.size ∧ m.addr < addr + size then { m with woken := true } else m) })) }

/-- A byte store that lists the nonzero bytes of a list. -/
def storeOf (bs : List Byte) : Tbl Byte := wrBytes [] 0 bs

/-- A loaded slot's contents become undefined (R4, R288), formed from what it held and from the scratchpad it was loaded from.
DESIGN CHOICE: log entry 5. -/
def State.spoil (s : State) (k : Nat) : State :=
  match tget s.slots k with
  | none => s
  | some sl =>
    match sl.loaded with
    | none => s
    | some f =>
      let n := 32 * f.row
      let pad := match tget s.wgs f.wg with | some w => w.scratch | none => []
      let (bs, s1) := s.openBytes sl.owner ((sl.weights ++ sl.scales ++ pad).map Prod.snd) (n + 32 * f.sb)
      { s1 with slots := tset s1.slots k { sl with weights := storeOf (bs.take n), scales := storeOf (bs.drop n), loaded := none } }

/-- A write to a workgroup's scratchpad gives a MAPLD that reads it undefined contents while it is in flight (R136), and later where
the write does not come behind it in happens-before, or as that of a copy program that its rope has started since (R217, R288). -/
def State.raceFills (s : State) (wg lo size : Nat) (a : Option Agent) (i : Nat) : State :=
  let s1 := { s with slots := s.slots.map (fun (k, sl) =>
      (k, match sl.fill with
        | some m => if m.wg = wg ∧ m.reads lo size then { sl with fill := some { m with raced := true } } else sl
        | none => sl)) }
  s.slots.foldl (fun (t : State) (k, sl) =>
    match sl.loaded, a with
    | some f, some b => if f.wg = wg ∧ f.reads lo size ∧ !f.mark.precedes b i then t.spoil k else t
    | _, _ => t) s1

/-- The marks of a byte after a write by an agent with a number: those that do not come before it stay (R283). -/
def marksAfter (l : List Mark) (a : Option Agent) (i : Nat) : List Mark :=
  match a with
  | some b => l.filter (fun m => !m.before b i) ++ [Mark.new a i]
  | none => [Mark.new a i]

/-- Writes an agent's bytes into a workgroup's scratchpad (R298); `num` is the write's number among its accesses. -/
def State.writeScratch (s : State) (wg : Nat) (a : Option Agent) (num addr : Nat) (bs : List Byte) : State :=
  ((s.onWg wg (fun w =>
      { w with
        scratch := wrBytes w.scratch addr bs
        marks := (List.range bs.length).foldl (fun t i => tset t (addr + i) (marksAfter ((tget t (addr + i)).getD []) a num)) w.marks })).raceFills
    wg addr bs.length a num).wake spScratch (place wg addr) bs.length

/-- Reads bytes of a workgroup's scratchpad. -/
def State.readScratch (s : State) (wg addr n : Nat) : List Byte :=
  match tget s.wgs wg with
  | some w => rdBytes w.scratch addr n
  | none => List.replicate n 0

/-- An access at a line's home (R293, R294, R297): the L1 copies are combined or merged, and gone. -/
def State.l1Merge (s0 : State) (asid : BitVec 16) (va : Nat) : State :=
  let s := s0.recall asid va
  match s.l2Line asid va with
  | none => s
  | some l => s.putLine { l with l1 := [], dirty := none, old := [] }

/-- Writes bytes into a translated GLOBAL place: from a core through its L1, or at the home (R293). -/
def State.writePhys (s : State) (core : Option Nat) (alloc : Bool) (asid : BitVec 16) (va frame : Nat) (bs : List Byte) : State :=
  let p := physOf frame va
  let s1 := match core with
    | some c => s.l1Touch c alloc asid va bs.length p true
    | none => s.l1Merge asid va
  ({ s1 with mem := wrBytes s1.mem p bs }).wake spGlobal (place asid.toNat va) bs.length

/-- Whether the policy of an access' handle lets its line enter L1 (R174). DESIGN CHOICE: log entry 46. -/
def Target.alloc (t : Target) : Bool := decide (t.policy < 2)

/-- PRIO of a stream: its own where PRIOOV is set, else its domain's (R245). -/
def State.prioOf (s : State) (t : Stream) : Nat := if t.prioOv then t.prio else (s.domain t.did).prio

/-- PCAP of a stream (R245). -/
def State.pcapOf (s : State) (t : Stream) : Nat := if t.prioOv then t.pcap else (s.domain t.did).pcap

/-- An unmapped stream becomes pending, at its PRIO (R242, R316). -/
def State.pend (s : State) (t : Stream) : Stream :=
  if t.mapped || t.pending then t else { t with pending := true, since := s.etime, eff := s.prioOf t }

/-- A kick of a stream with a value (R242): MAXTAIL, and decoding restarts; an unmapped stream becomes pending. A STOPPED
stream keeps MAXTAIL only (R314). -/
def State.kick (s : State) (k : Nat) (v : Nat) : State :=
  match tget s.streams k with
  | none => s
  | some t =>
    let t1 := { t with tail := max t.tail v }
    let t2 :=
      match t.state with
      | .stopped => t1
      | .faulted => s.pend { t1 with ended := false }
      | _ => s.pend { t1 with ended := false, state := if t.decode < t1.tail then .running else t.state }
    s.setStream k t2

/-- What STATUS reads as (R241). -/
def Stream.status (t : Stream) : Nat :=
  (match t.state with | .idle => 0 | .running => 1 | .faulted => 2 | .stopped => 3) +
    (if t.mapped then 4 else 0) + t.window.length * 8

/-- A CTRL access' words: which register of a stream, by offset (R241). -/
inductive CtrlReg where
  | kick
  | head
  | status
  | fctl
  | resv
  | ring (b : Nat)
  | none
  deriving DecidableEq, Repr

/-- The register at an offset of CTRL space (R241). -/
def ctrlReg (t : Stream) (off : Nat) : CtrlReg :=
  if off = 0 then .kick
  else if off = 8 then .head
  else if off = 0x10 then .status
  else if off = 0x18 then .fctl
  else if off = 0x20 then .resv
  else if 0x1000 ≤ off ∧ off < 0x1000 + 32 * 2 ^ t.log2n then .ring (off - 0x1000)
  else .none

/-- What an access does, for the Access column of R241. -/
inductive CtrlOp where
  | load
  | store
  | addCasXchg
  | redAdd
  | other
  deriving DecidableEq, Repr

/-- Whether a CTRL offset admits an access (R241). -/
def ctrlAdmits (t : Stream) (op : CtrlOp) (size off : Nat) : Bool :=
  match ctrlReg t off with
  | .kick => (op == .load || op == .store) && size == 8
  | .head => op == .load && size == 8
  | .status => op == .load && size == 4
  | .fctl => op == .store && size == 4
  | .resv => op != .other && size == 8
  | .ring b => (op == .load || op == .store) && (size == 4 || size == 8) && decide (b + size ≤ 32 * 2 ^ t.log2n)
  | .none => false

/-- The stream that a CTRL handle names, if it is valid (R241). -/
def State.ctrlStream (s : State) (h : HRef) : Option (Nat × Stream) :=
  let k := streamKey h.owner h.ent.base
  match tget s.streams k with
  | some t => if t.valid then some (k, t) else none
  | none => none

/-- The lines of a range of virtual addresses. -/
def lineRun (va n : Nat) : List Nat := if n = 0 then [] else (List.range ((va + n - 1) / 128 + 1 - va / 128)).map (fun i => va / 128 + i)

/-- The lines of a range whose requests by a hub die are refused (R338). -/
def State.hubRefused (s : State) (hub : Nat) (asid : BitVec 16) (va n : Nat) : List Nat :=
  (lineRun va n).filter (s.refusesBy (.hub hub) asid)

/-- A read by a hub die's unit of a domain's GLOBAL bytes through the tables of its ASID; bytes that are refused, or without a
translation, read 0. DEDUCED: log entry 12. -/
def State.sysRead (s : State) (hub : Nat) (asid : BitVec 16) (va n : Nat) : List Byte :=
  let bad := s.hubRefused hub asid va n
  (List.range n).map (fun i =>
    if bad.contains ((va + i) / 128) then 0
    else
      match s.lookup asid (va + i) .read with
      | .ok f _ _ _ => (s.physBytes (physOf f (va + i)) 1).getD 0 0
      | _ => 0)

/-- Whether a hub die's read of a domain's GLOBAL bytes meets a poisoned line, of the bytes or of the page tables (R357). -/
def State.sysPoison (s : State) (hub : Nat) (asid : BitVec 16) (va n : Nat) : Bool :=
  let bad := s.hubRefused hub asid va n
  (List.range n).any (fun i =>
    !bad.contains ((va + i) / 128) &&
      match s.lookup asid (va + i) .read with
      | .ok f _ _ _ => s.poisoned (physOf f (va + i))
      | _ => (match s.stage1 asid (va + i) with | .error r => r == poisonReason | .ok _ => false))

/-- The 64 KiB pages of a range of virtual addresses: of each the first byte in the range, and how many follow. -/
def pageRuns (va n : Nat) : List (Nat × Nat) :=
  if n = 0 then []
  else (List.range ((va + n - 1) / 65536 + 1 - va / 65536)).map (fun i =>
    let lo := max va (65536 * (va / 65536 + i))
    (lo, min (va + n) (65536 * (va / 65536 + i + 1)) - lo))

/-- What a hub die's request for a range leaves behind: the events of what is refused (R338), and the frames that it reaches first are
owned (R305), where the update-only copies have been recalled (R297). -/
def State.sysTouch (s : State) (hub : Nat) (asid : BitVec 16) (va n : Nat) (k : AccKind) : State :=
  let s1 := (s.hubRefused hub asid va n).foldl (fun (t : State) l => t.logRefused (.hub hub) asid l) s
  (pageRuns va n).foldl (fun (t : State) p =>
    match t.lookup asid p.1 k with
    | .ok f _ _ _ =>
      if (lineRun p.1 p.2).all (t.refusesBy (.hub hub) asid) then t else (t.own asid p.1 f).recallPhys (physOf f p.1) p.2
    | _ => t.walked asid p.1) s1

/-- A write by a hub die's unit of a domain's GLOBAL bytes through the tables of its ASID; bytes that are refused, or without a
translation that admits a write, are dropped; `note` is what the write of a place is to the consistency model.
DEDUCED: log entry 12. -/
def State.sysStore (s : State) (hub : Nat) (asid : BitVec 16) (va : Nat) (bs : List Byte) (note : State → Place → State) : State :=
  let bad := s.hubRefused hub asid va bs.length
  let s1 := (pageRuns va bs.length).foldl (fun (t : State) p =>
    match t.lookup asid p.1 .write with
    | .ok f _ _ _ => note t ⟨spGlobal, physOf f p.1, p.2⟩
    | _ => t) (s.sysTouch hub asid va bs.length .write)
  ((List.range bs.length).foldl (fun (t : State) i =>
    if bad.contains ((va + i) / 128) then t
    else
      match t.lookup asid (va + i) .write with
      | .ok f _ _ _ => t.writePhys none false asid (va + i) f [bs.getD i 0]
      | _ => t) s1)

/-- Such a write by a unit whose order counts for no acquire. -/
def State.sysWrite (s : State) (hub : Nat) (asid : BitVec 16) (va : Nat) (bs : List Byte) : State :=
  s.sysStore hub asid va bs State.clobbers

/-- The readable registers of a stream's control space have changed (R197, R241). -/
def State.wakeCtrl (s : State) (key : Nat) : State := s.wake spCtrl (place key 8) 12

/-- The stream after a FCTL action (R273). -/
def Stream.resume (t : Stream) (action : Nat) : Stream :=
  let dec := match action with | 1 => t.decode + t.faultN | 2 => max t.decode t.tail | _ => t.decode
  { t with
    decode := dec, head := if t.window.isEmpty then dec else t.head, heldCtl := none, recorded := false, ended := false, got := []
    state := if dec < t.tail ∨ !t.window.isEmpty then .running else .idle }

/-- A write to FCTL (R241, R273): ignored with action 3 and in any state but FAULTED, held until the record has been written. -/
def State.fctl (s : State) (k : Nat) (t : Stream) (v : Word) : State :=
  if t.state ≠ .faulted ∨ v.toNat % 4 = 3 then s
  else if !t.recorded then s.setStream k { t with heldCtl := some v }
  else (s.setStream k (s.pend (t.resume (v.toNat % 4)))).wakeCtrl k

/-- The value of a CTRL register read with a size. -/
def State.readCtrl (s : State) (k : Nat) (t : Stream) (off size : Nat) : List Byte :=
  match ctrlReg t off with
  | .kick => leBytes size t.tail
  | .head => leBytes size t.head
  | .status => leBytes size t.status
  | .resv => leBytes size t.resv.toNat
  | .ring b => s.sysRead t.hub (s.domain t.did).asid (t.ring.toNat + b) size
  | _ => leBytes size (0 * k)

/-- A store to a CTRL register (R241, R242, R273). -/
def State.writeCtrl (s : State) (k : Nat) (t : Stream) (off : Nat) (bs : List Byte) : State :=
  let s1 :=
    match ctrlReg t off with
    | .kick => (s.kick k (leNat bs)).wakeCtrl k
    | .fctl => s.fctl k t (BitVec.ofNat 32 (leNat bs))
    | .resv => s.setStream k { t with resv := BitVec.ofNat 64 (leNat bs) }
    | .ring b => s.sysWrite t.hub (s.domain t.did).asid (t.ring.toNat + b) bs
    | _ => s
  s1.wake spCtrl (place k off) bs.length

/-- The scratchpad bank mask of a domain slot (R219). -/
def Core.bankMask (k : Core) (slot : Nat) : Word := (k.dpeReg (8 * slot + 2)).extractLsb' 0 32

/-- The frames that a domain slot of a core can use (R222, R292, R298): those of the banks that its mask names, one at least.
DEDUCED: log entry 19. -/
def Core.frames (k : Core) (slot : Nat) : Nat :=
  max 1 (k.scr * ((List.range 32).filter (fun b => (k.bankMask slot).getLsbD b)).length / 2)

/-- Whether every page of a scratchpad range is pinned (R298); an engine reaches the backing pages of a saved image (R333). -/
def Workgroup.pinnedAt (w : Workgroup) (addr n : Nat) : Bool :=
  w.state == .saved || n == 0 || (List.range ((addr + n - 1) / 4096 + 1 - addr / 4096)).all (fun i => w.pinned.contains (addr / 4096 + i))

/-- Whether every page of a scratchpad range is pinned or among the pages of a list, which have been since an access of several pages
began (R298). -/
def Workgroup.pagedBy (w : Workgroup) (pages : List Nat) (addr n : Nat) : Bool := { w with pinned := pages ++ w.pinned }.pinnedAt addr n

/-- Whether an access may be sent over the link (R313): for HOST while the domain's TDI is in RUN (R347), for PEER inside the
window of the domain's peer entry (R350). -/
def State.linkOk (s : State) (t : Target) (addr size : Nat) : Bool :=
  if t.space = spHost then (s.domain t.did).tdi == .run
  else if t.space = spPeer then
    match tget (s.domain t.did).peers t.peer with
    | some p => decide (p.base ≤ addr) && decide (addr + size ≤ p.base + p.len)
    | none => false
  else true

/-- An access over the link: whether it is taken. The host's IOMMU or a host that does not complete it, and the peer, may refuse
one that may be sent: a free choice (R262, R313, R350). DESIGN CHOICE: log entry 48. -/
def State.linkTakes (s : State) (t : Target) (addr size : Nat) : Bool × State :=
  if (t.space = spHost ∨ t.space = spPeer) ∧ s.linkOk t addr size = true then (s.draw.1 % 2 == 0, s.draw.2)
  else (s.linkOk t addr size, s)

/-- The peer's memory that an entry of a domain's peer table reaches, by its SCI (R350). -/
def State.peerOf (s : State) (t : Target) : Nat :=
  match tget (s.domain t.did).peers t.peer with
  | some p => p.sci.toNat
  | none => 0

/-- Where bytes of a target lie, whatever the handle that names them: a space, in it the ASID of GLOBAL, the workgroup of SCRATCH, the
peer's memory or the stream, and the address (R183, R215). The ring of a CTRL space lies in GLOBAL space (R241). -/
def State.storage (s : State) (t : Target) (addr : Nat) : Nat × Nat × Nat :=
  if t.space = spGlobal then (spGlobal, t.asid.toNat, addr)
  else if t.space = spScratch then (spScratch, t.wg, addr)
  else if t.space = spPeer then (spPeer, s.peerOf t, addr)
  else if t.space = spCtrl then
    match tget s.streams t.stream with
    | some st =>
      (match ctrlReg st addr with
       | .ring b => (spGlobal, (s.domain st.did).asid.toNat, st.ring.toNat + b)
       | _ => (spCtrl, t.stream, addr))
    | none => (spCtrl, t.stream, addr)
  else (t.space, 0, addr)

/-- The 128-byte line that a place of a target lies in (R307). -/
def State.storageLine (s : State) (t : Target) (addr : Nat) : Nat × Nat × Nat :=
  let p := s.storage t addr
  (p.1, p.2.1, p.2.2 / 128)

/-- Reads bytes at a target; `frame` is the translated frame of a GLOBAL access. -/
def State.readAt (s : State) (t : Target) (frame addr n : Nat) : List Byte :=
  if t.space = spGlobal then s.physBytes (physOf frame addr) n
  else if t.space = spScratch then s.readScratch t.wg addr n
  else if t.space = spHost then rdBytes s.host addr n
  else if t.space = spPeer then rdBytes s.peer (place (s.peerOf t) addr) n
  else
    match tget s.streams t.stream with
    | some st => s.readCtrl t.stream st addr n
    | none => List.replicate n 0

/-- Writes bytes at a target. -/
def State.writeAt (s : State) (t : Target) (frame addr : Nat) (bs : List Byte) : State :=
  if t.space = spGlobal then s.writePhys t.core t.alloc t.asid addr frame bs
  else if t.space = spScratch then s.writeScratch t.wg t.agent t.num addr bs
  else if t.space = spHost then { s with host := wrBytes s.host addr bs }
  else if t.space = spPeer then { s with peer := wrBytes s.peer (place (s.peerOf t) addr) bs }
  else
    match tget s.streams t.stream with
    | some st => s.writeCtrl t.stream st addr bs
    | none => s

/-- The register writes of a loaded value: `n` words from register `dst`, extended where the load is narrow (R186). -/
def loadWrites (sc signed : Bool) (dst lane : Nat) (bs : List Byte) : List RegWrite :=
  let n := bs.length
  if n < 4 then
    let v := BitVec.ofNat 32 (wrapInt 32 (if signed then toSigned (8 * n) (leNat bs) else (leNat bs : Int)))
    [if sc then .scalar dst v else .vec dst lane v]
  else
    (List.range (n / 4)).map (fun k =>
      let v := BitVec.ofNat 32 (leNat ((bs.drop (4 * k)).take 4))
      if sc then .scalar (dst + k) v else .vec (dst + k) lane v)

/-- Where the bytes of a stream's ring lie in GLOBAL space, by physical address, if a CTRL place names them and they are translated
(R241). -/
def State.ringPhys (s : State) (t : Target) (addr : Nat) : Option Nat :=
  match t.space == spCtrl, tget s.streams t.stream with
  | true, some st =>
    match ctrlReg st addr with
    | .ring b =>
      (match s.lookup (s.domain st.did).asid (st.ring.toNat + b) .read with
       | .ok f _ _ _ => some (physOf f (st.ring.toNat + b))
       | _ => none)
    | _ => none
  | _, _ => none

/-- A place of a target that synchronises (R283): in GLOBAL space by physical address, and so the ring of a CTRL space. -/
def State.placeOf (s : State) (t : Target) (frame addr size : Nat) : Place :=
  match s.ringPhys t addr with
  | some p => ⟨spGlobal, p, size⟩
  | none =>
    ⟨t.space,
      if t.space = spGlobal then physOf frame addr
      else if t.space = spScratch then place t.wg addr
      else if t.space = spPeer then place (s.peerOf t) addr
      else if t.space = spCtrl then place t.stream addr
      else addr, size⟩

/-- The scope of an access' release or acquire by its handle's kind, if it has one (R280). -/
def Target.scope (t : Target) : Option Nat :=
  if t.order = 2 then none else some (if t.space = spScratch then 1 else if t.space = spHost ∨ t.space = spPeer then 4 else 3)

/-- What the read of a lane is to the consistency model (R280, R283). -/
def State.reads (s : State) (t : Target) (frame addr size : Nat) : State :=
  match t.agent with
  | some a => s.observes a t.num (s.placeOf t frame addr size) t.scope
  | none => s

/-- What the write of a lane is to the consistency model (R280, R283); a KICK store is a release at SYS, which the stream's sequencer
acquires, whatever its handle's kind (R242, R281, R282). -/
def State.released (s : State) (t : Target) (frame addr size : Nat) (rmw : Bool) : State :=
  match t.agent with
  | some a =>
    if t.space = spCtrl ∧ addr = 0 then
      (s.publishes a t.num (s.placeOf t frame addr size) (some 4) rmw).passesOn a (.stream t.stream)
    else s.publishes a t.num (s.placeOf t frame addr size) t.scope rmw
  | none => s.clobbers (s.placeOf t frame addr size)

/-- A load of a CTRL ring reads GLOBAL bytes of the stream's domain, whose frames it may reach first (R241, R305). -/
def State.ringOwn (s : State) (t : Target) (addr size : Nat) : State :=
  match t.space == spCtrl, tget s.streams t.stream with
  | true, some st => (match ctrlReg st addr with | .ring b => s.sysTouch st.hub (s.domain st.did).asid (st.ring.toNat + b) size .read | _ => s)
  | _, _ => s

/-- Performs one lane's access at a translated target: the state, and the register writes that land later. -/
def State.performLane (s : State) (t : Target) (frame : Nat) (a : LaneAcc) : State × List RegWrite :=
  match a.act with
  | .load size signed sc dst lane => ((s.reads t frame a.addr size).ringOwn t a.addr size, loadWrites sc signed dst lane (s.readAt t frame a.addr size))
  | .store bs => ((s.writeAt t frame a.addr bs).released t frame a.addr bs.length false, [])
  | .atom op x y dst lane =>
    let old := s.readAt t frame a.addr op.size
    let new := leBytes op.size (op.new (leNat old) x.toNat y.toNat)
    -- an ATOM reads as well; an atomic on a GLOBAL word is performed at its home
    let s0 := if dst.isSome then s.reads t frame a.addr op.size else s
    let s1 := (s0.writeAt { t with core := none } frame a.addr new).released t frame a.addr op.size true
    match dst with
    | some d => (s1, loadWrites false false d lane old)
    | none => (s1, [])

/-- The kind of a lane's access. -/
def LaneAcc.kind (a : LaneAcc) : AccKind :=
  match a.act with
  | .load .. => .read
  | .store _ => .write
  | .atom .. => .atomic

/-- The bytes of a lane's access. -/
def LaneAcc.size (a : LaneAcc) : Nat :=
  match a.act with
  | .load n .. => n
  | .store bs => bs.length
  | .atom op .. => op.size

/-- The code, among those reasons, of a scratchpad page that is not pinned: the lane waits, without fault (R298). -/
def pageReason : Nat := 15

/-- Whether a lane's access finds its scratchpad page pinned; one of a workgroup that has gone waits for none. -/
def State.paged (s : State) (t : Target) (a : LaneAcc) : Bool :=
  t.space != spScratch || (match tget s.wgs t.wg with | some w => w.pinnedAt a.addr a.size | none => true)

/-- Whether a WAITV monitor stands on a GLOBAL word (R287). -/
def State.monitored (s : State) (asid : BitVec 16) (va size : Nat) : Bool :=
  s.ropes.any (fun (_, r) => r.monitors.any (fun m =>
    m.space == spGlobal && decide (place asid.toNat va < m.addr + m.size) && decide (m.addr < place asid.toNat va + size)))

/-- The core and operation of a RED that may be gathered in an update-only line, if the access is one (R191, R287, R297): not
through a STRONG handle, not to a monitored word, not in a line held in M; and only where the handle's policy lets the line into the
core's L1, or it is there (R174). -/
def State.gatherable (s : State) (t : Target) (a : LaneAcc) : Option (Nat × AtomOp × Nat) :=
  match t.core, a.act, s.l2Line t.asid a.addr with
  | some c, .atom op x _ none _, some l =>
    if op.gathers && t.order != 0 && a.addr % op.size == 0 && l.dirty.isNone && !s.monitored t.asid a.addr op.size &&
        (t.alloc || l.inL1 c || l.uo.any (fun e => e.core == c)) then some (c, op, x.toNat) else none
  | _, _, _ => none

/-- What a RED makes of the identity that its word starts from (R297). Of a NaN RED.MIN.F32 and MAX.F32 make a NaN, since the word receives
the value that it would at the home (R191). DEDUCED: log entry 59. -/
def AtomOp.first (op : AtomOp) (x : Nat) : Nat :=
  match op with
  | .minF32 | .maxF32 => op.new x x 0
  | _ => op.new op.identity x 0

/-- A RED applied to its word of a copy's partials (R297): from the identity, or after what the copy's pending partial gives. -/
def UoCopy.add (u : UoCopy) (i : Nat) (op : AtomOp) (x : Nat) : UoCopy :=
  { u with words := tset u.words i (op, match tget u.words i with | some (_, v) => op.new v x 0 | none => op.first x) }

/-- Whether a copy's pending partials keep a RED from joining them: another operation or width on its word (R297). -/
def UoCopy.clashes (u : UoCopy) (i : Nat) (op : AtomOp) : Bool :=
  u.words.any (fun (j, o, _) => decide (j < i + op.size / 4) && decide (i < j + o.size / 4) && !(j == i && o == op))

/-- A gathered RED (R297): the core's copy of the line, in the way it has or a new one, takes it; copies with values are
invalidated, and partials that it cannot join go to the home first. DESIGN CHOICE: log entry 46. -/
def State.gather (s : State) (t : Target) (c : Nat) (op : AtomOp) (x va : Nat) : State :=
  match s.l2Line t.asid va with
  | none => s
  | some l0 =>
    let i := va % 128 / 4
    let have_ := (l0.l1.filter (fun e => e.1 == c)).map Prod.snd ++ (l0.uo.filter (fun e => e.core == c)).map UoCopy.way
    let (s1, way) := match have_ with | w :: _ => (s, w) | [] => s.l1Way c l0.line t.policy
    let l := (s1.l2Line t.asid va).getD l0
    let u := (l.uo.find? (fun e => e.core == c)).getD ⟨c, way, []⟩
    let clash := u.clashes i op
    let s2 := if clash then { s1 with mem := u.combine l.base s1.mem } else s1
    let u1 := (if clash then { u with words := [] } else u).add i op x
    s2.putLine { l with l1 := [], dirty := none, old := [], uo := l.uo.filter (fun e => e.core != c) ++ [u1] }

/-- Performs one lane's GLOBAL access at its frame: an atomic at the line's home, a RED that may be gathered there or in the
core's L1 by a free choice, a load or store through the core's L1 (R191, R293, R297). -/
def State.performGlobal (s : State) (t : Target) (frame : Nat) (a : LaneAcc) : State × List RegWrite :=
  match a.kind, t.core with
  | .read, some c => (s.l1Touch c t.alloc t.asid a.addr a.size (physOf frame a.addr) false).performLane t frame a
  | .read, none => (s.l1Merge t.asid a.addr).performLane t frame a
  | .atomic, _ =>
    match s.gatherable t a with
    | some (c, op, x) =>
      if s.draw.1 % 2 = 1 then ((s.draw.2.gather t c op x a.addr).released t frame a.addr op.size true, []) else (s.draw.2.l1Merge t.asid a.addr).performLane t frame a
    | none => (s.l1Merge t.asid a.addr).performLane t frame a
  | _, _ => s.performLane t frame a

/-- Whether a CTRL access reads a poisoned line of the ring (R241, R357). -/
def State.ringPoison (s : State) (t : Target) (a : LaneAcc) : Bool :=
  match t.space == spCtrl && a.kind != .write, tget s.streams t.stream with
  | true, some st =>
    match ctrlReg st a.addr with
    | .ring b => s.sysPoison st.hub (s.domain st.did).asid (st.ring.toNat + b) a.size
    | _ => false
  | _, _ => false

/-- Whether the word of a lane can be reached, its frame if it is in GLOBAL space, or why not: not translated, with its XLATE reason, or 0
for ALIAS; refused by the link, with reason LINK; reading a poisoned line (R357), with `poisonReason`; in a scratchpad page that is not
pinned, with `pageReason`. DESIGN CHOICE: log entry 8. -/
def State.reachLane (s : State) (t : Target) (a : LaneAcc) : State × Except Nat Nat :=
  if t.space = spGlobal then
    match s.xlate t a.addr a.kind with
    | (.ok f _ _ _, s1) => (s1, if a.kind != .write && s1.poisoned (physOf f a.addr) then .error poisonReason else .ok f)
    | (.fault r, s1) => (s1, .error r)
    | (.aliased, s1) => (s1, .error 0)
  else if s.ringPoison t a then (s, .error poisonReason)
  else if !s.paged t a then (s, .error pageReason)
  else
    match s.linkTakes t a.addr a.size with
    | (true, s1) => (s1, .ok 0)
    | (false, s1) => (s1, .error 6)

/-- Performs one lane's access at the frame of its word. -/
def State.performAt (s : State) (t : Target) (frame : Nat) (a : LaneAcc) : State × List RegWrite :=
  if t.space = spGlobal then s.performGlobal t frame a else s.performLane t 0 a

/-- Performs the lanes in order (R183, R190): the state, the register writes of those performed, and the lanes left over with their
reasons. The lanes of one word stay together: what the first of them finds holds for all; `seen` are the words decided so far. -/
def State.performFrom (s : State) (t : Target) (seen : List (Nat × Except Nat Nat)) :
    List LaneAcc → State × List RegWrite × List (LaneAcc × Nat)
  | [] => (s, [], [])
  | a :: as =>
    let (s0, res) := match seen.find? (fun e => e.1 == a.addr) with | some e => (s, e.2) | none => s.reachLane t a
    match res with
    | .ok f =>
      let (s1, w) := s0.performAt t f a
      let (s2, ws, left) := s1.performFrom t ((a.addr, res) :: seen) as
      (s2, w ++ ws, left)
    | .error r =>
      let (s2, ws, left) := s0.performFrom t ((a.addr, res) :: seen) as
      (s2, ws, (a, r) :: left)

/-- Performs the lanes of an access in order. -/
def State.performLanes (s : State) (t : Target) (lanes : List LaneAcc) : State × List RegWrite × List (LaneAcc × Nat) :=
  s.performFrom t [] lanes

end Sys2Proof.Machine
end

