-- ==== Sys2Proof/Machine/Operands.lean ====
section
/-! DEFINITION. Every operand form: FORM (R66), modifier bytes (R62, R63), packed and widened modes (R92, R115), and the
map stage (R142 to R149). -/

namespace Sys2Proof.Machine

/-- An element's value after its modifiers: an exact integer, or a floating value (R62). -/
inductive EV where
  | i (x : Int)
  | f (v : FVal)
  deriving DecidableEq, Repr

/-- The integer of an element. -/
def EV.int : EV → Int
  | .i x => x
  | .f _ => 0

/-- The floating value of an element; an integer is that number exactly. -/
def EV.flt : EV → FVal
  | .i x => fOfInt x
  | .f v => v

/-- Byte `k` of a 32-bit value. -/
def byteOf (v k : Nat) : Nat := v / 256 ^ k % 256

/-- Bytes 3, 2, 1, 0 put together. -/
def ofBytes (b3 b2 b1 b0 : Nat) : Nat := b0 + 256 * b1 + 65536 * b2 + 16777216 * b3

/-- The two nibbles of a byte exchanged. -/
def swapNib (b : Nat) : Nat := b % 16 * 16 + b / 16 % 16

/-- The swizzles of R63. -/
def swizzle (n v : Nat) : Nat :=
  let b0 := byteOf v 0
  let b1 := byteOf v 1
  let b2 := byteOf v 2
  let b3 := byteOf v 3
  match n with
  | 0 => ofBytes b1 b0 b3 b2
  | 1 => ofBytes b0 b1 b2 b3
  | 2 => ofBytes b2 b3 b0 b1
  | 3 => ofBytes b2 b1 b0 b3
  | 4 => ofBytes b0 b3 b2 b1
  | 5 => ofBytes b3 b1 b2 b0
  | 6 => ofBytes b1 b0 b1 b0
  | _ => ofBytes (swapNib b3) (swapNib b2) (swapNib b1) (swapNib b0)

/-- Element `e` of width `w` of a value (R35). -/
def elemAt (w v e : Nat) : Nat := v / 2 ^ (w * e) % 2 ^ w

/-- An element copied into every position of 32 bits (R62). -/
def broadcast (w x : Nat) : Nat := (List.range (32 / w)).foldl (fun a e => a + x * 2 ^ (w * e)) 0

/-- ABS, then NEG, on an integer read by SX or on a floating value's sign (R52, R62). -/
def readElem (ty : Ty) (m : BitVec 8) (x : Nat) : EV :=
  if ty.isFloat then
    let v := fdecode ty x
    let v1 := if modAbs m then (if fsign v then fneg v else v) else v
    .f (if modNeg m then fneg v1 else v1)
  else
    let v : Int := if modSx m then toSigned ty.width x else (x : Int)
    let v1 : Int := if modAbs m then v.natAbs else v
    .i (if modNeg m then -v1 else v1)

/-- The select step on a 32-bit value whose elements are packed (R62): broadcast or swizzle, or the value as stored. -/
def selectWhole (ty : Ty) (m : BitVec 8) (raw : Nat) : Nat :=
  match modSel m with
  | 2 => broadcast ty.width (elemAt ty.width raw (modIdx m))
  | 3 => swizzle (modIdx m) raw
  | _ => raw

/-- The elements of a source operand after its modifier byte (R62): one where it is widened or as wide as its register. -/
def readElems (ty : Ty) (m : BitVec 8) (raw : Nat) : List EV :=
  if modSel m = 1 then [readElem ty m (elemAt ty.width raw (modIdx m))]
  else if 32 ≤ ty.width then [readElem ty m (selectWhole ty m raw)]
  else (List.range (32 / ty.width)).map (fun e => readElem ty m (elemAt ty.width (selectWhole ty m raw) e))

/-- The one element of a conversion's source (R125). -/
def readCvt (ty : Ty) (m : BitVec 8) (raw : Nat) : List EV :=
  if ty.width < 32 then [readElem ty m (elemAt ty.width raw (if modSel m = 1 then modIdx m else 0))]
  else readElems ty m raw

/-- A vector operand's stored value in a lane: a register, or a pair for a 64-bit type (R35). -/
def vecRaw (r : Rope) (w n l : Nat) : Nat := if w = 64 then (r.vpair n l).toNat else (r.vr n l).toNat

/-- A scalar operand's stored value (R17). -/
def scaRaw (r : Rope) (w n : Nat) : Nat := if w = 64 then (r.spair n).toNat else (r.sr n).toNat

/-- The 8-bit immediate in the operand's width: sign-extended to the element width and copied into each element (R66,
R90). -/
def imm8Raw (ty : Ty) (w : Nat) (b : BitVec 8) : Nat :=
  let x := toSigned 8 b.toNat
  if ty.width < 32 then broadcast ty.width (wrapInt ty.width x) else wrapInt w x

/-- IMM32 in the operand's width: extended to 64 bits by SX in 64-bit integer forms (R66, R90). -/
def imm32Raw (w : Nat) (sx : Bool) (imm : Word) : Nat :=
  if w = 64 ∧ sx then wrapInt 64 (toSigned 32 imm.toNat) else imm.toNat

/-- Operand B's stored value in a lane, under its FORM (R66); `none` where it is an F32 immediate of an F64 instruction
(R113). -/
def rawB (r : Rope) (m : Meta) (f : Fields) (l : Nat) : Nat :=
  let w := m.bw
  match f.c.toNat with
  | 0 => vecRaw r w f.b.toNat l
  | 1 | 4 => scaRaw r w f.b.toNat
  | 2 | 5 => imm8Raw m.ty w f.b
  | _ => imm32Raw w (modSx (f.cw m.ty).modB) (f.cw m.ty).imm

/-- The type operand B is read in: an immediate of an F64 instruction is F32 (R113). -/
def tyB (m : Meta) (f : Fields) : Ty := if m.ty = .f64 ∧ f.c.toNat = 3 then .f32 else m.ty

/-- Whether a FORM is a scalar form (R66). -/
def scalarForm (f : Fields) : Bool := decide (4 ≤ f.c.toNat)

/-- Operand A's stored value in a lane, under the FORM of signatures S2 and CP. -/
def rawA (r : Rope) (m : Meta) (f : Fields) (l : Nat) : Nat :=
  if scalarForm f then scaRaw r m.aw f.a.toNat else vecRaw r m.aw f.a.toNat l

/-! The map stage. -/

/-- Rate groups of weight formats (R131): 0 SEL, 1 4-bit, 2 8-bit, 3 16-bit. -/
def wfmtGroup (w : Nat) : Nat :=
  if w = 0 then 0 else if w = 8 ∨ (0x12 ≤ w ∧ w ≤ 0x14) then 1 else if w = 5 ∨ w = 6 then 3 else 2

/-- Whether a WFMT is listed (R131). -/
def wfmtOk (w : Nat) : Bool := decide (w ≤ 6) || (decide (8 ≤ w) && decide (w ≤ 0xB)) || (decide (0x12 ≤ w) && decide (w ≤ 0x18))

/-- Container bits (R131). -/
def wfmtBits (w : Nat) : Nat := if w = 0 then 2 else match wfmtGroup w with | 1 => 4 | 3 => 16 | _ => 8

/-- Row size in bytes (R131). -/
def wfmtRow (w : Nat) : Nat := 4 * wfmtBits w

/-- Block length of a BLK code (R130). -/
def blkLen (b : Nat) : Nat := match b with | 0 => 32 | 1 => 16 | _ => 8

/-- Scale bytes a row (R131). -/
def wfmtScales (w b : Nat) : Nat := if w ≤ 6 then 0 else if w ≤ 0xB then 1 else 32 / blkLen b

/-- Integer weights (R131). -/
def wfmtInt (w : Nat) : Bool := decide (w ≤ 2)

/-- A slot that holds nothing. -/
def MapSlot.empty (owner : BitVec 16) : MapSlot := ⟨.empty, owner, 0, 0, false, 0, [], [], none, none⟩

/-- A physical slot. -/
def State.slot (s : State) (k : Nat) : MapSlot := (tget s.slots k).getD (MapSlot.empty 0)

/-- The state with a slot replaced. -/
def State.setSlot (s : State) (k : Nat) (m : MapSlot) : State := { s with slots := tset s.slots k m }

/-- The container of weight row i, column j (R132). -/
def MapSlot.container (m : MapSlot) (i j : Nat) : Nat :=
  let b := wfmtBits m.wfmt
  let base := i * wfmtRow m.wfmt
  if b = 16 then (rdByte m.weights (base + 2 * j)).toNat + 256 * (rdByte m.weights (base + 2 * j + 1)).toNat
  else elemAt b (rdByte m.weights (base + j * b / 8)).toNat (j % (8 / b))

/-- The scale byte of row i, column j (R132). -/
def MapSlot.scale (m : MapSlot) (i j : Nat) : Nat :=
  let n := wfmtScales m.wfmt m.blk
  (rdByte m.scales (i * n + j / (32 / n))).toNat

/-- A value times a block's power of two; the byte 0xFF is NaN (R43, R44). -/
def scaled (v : FVal) (x : Nat) : FVal :=
  if x = 255 then canonNan
  else match v with
    | .fin s m e => .fin s m (e + (x : Int) - 127)
    | w => w

/-- Weight M[i][j], exact (R132). -/
def MapSlot.weight (m : MapSlot) (i j : Nat) : FVal :=
  let c := m.container i j
  let w := m.wfmt
  if w = 0 then (match c with | 1 => .fin false 1 0 | 3 => .fin true 1 0 | _ => .fin false 0 0)
  else if w = 1 then fOfInt (toSigned 8 c)
  else if w = 2 then fOfInt c
  else if w = 3 then fdecode .e4m3 c
  else if w = 4 then fdecode .e5m2 c
  else if w = 5 then fdecode .bf16 c
  else if w = 6 then fdecode .f16 c
  else
    let v : FVal :=
      if w = 8 then fdecode .e2m1 c
      else if w = 9 then fdecode .e3m2 (c % 64)
      else if w = 0xA then fdecode .e4m3 c
      else if w = 0xB then (match fOfInt (toSigned 8 c) with | .fin s n e => .fin s n (e - 6) | v => v)
      else fOfInt (toSigned (wfmtBits w) c)
    scaled v (m.scale i j)

/-- A weight as an integer (SEL, S8, N8). -/
def MapSlot.weightInt (m : MapSlot) (i j : Nat) : Int :=
  let c := m.container i j
  if m.wfmt = 0 then (match c with | 1 => 1 | 3 => -1 | _ => 0)
  else if m.wfmt = 1 then toSigned 8 c
  else (c : Int)

/-- The exact product of a weight and a data element; a SEL zero is zero whatever the data (R53, R144). -/
def mapProd (m : MapSlot) (w : FVal) (d : EV) : FVal :=
  if m.wfmt = 0 ∧ fisZero w then .fin false 0 0 else (fmulExact w d.flt).1

/-- One stage (R144): `data` by lane, each with its elements; each output lane's elements with their flags. -/
def mapStage (m : MapSlot) (facc wide sx : Bool) (n : Nat) (data : List (List EV)) : List (List (EV × Flags)) :=
  let isInt := wfmtInt m.wfmt && !facc && data.all (fun l => l.all (fun e => match e with | .i _ => true | .f _ => false))
  (List.range 32).map (fun i =>
    (List.range n).map (fun e =>
      let col (j : Nat) : EV := ((data.getD j []).getD e (.i 0))
      if isInt then
        let sum : Int := (List.range 32).foldl (fun a j => a + m.weightInt i j * (col j).int) 0
        let w := if wide then 64 else 32
        let u := wrapInt w sum
        (.i (if sx then toSigned w u else (u : Int)), 0)
      else
        let (v, fl) := mapRound ((List.range 32).map (fun j => mapProd m (m.weight i j) (col j)))
        (.f (fdecode .f32 v), fl)))

/-- A map application on data (R144, R146): the outputs, and the flags that every lane of ACTIVE gets from the first
stage of a chain. -/
def mapApply (m : MapSlot) (succ : Option MapSlot) (facc wide sx : Bool) (n : Nat) (data : List (List EV)) :
    List (List (EV × Flags)) × Flags :=
  let out := mapStage m facc wide sx n data
  match succ with
  | none => (out, 0)
  | some m2 =>
    (mapStage m2 facc wide sx n (out.map (fun l => l.map (·.1))),
      out.foldl (fun fl l => l.foldl (fun a e => a ||| e.2) fl) 0)

/-- The data row of the occupancy table (R148): 0 four-bit, 1 eight-bit, 2 BF16 and F16, 3 S16 and N16, 4 32-bit,
5 64-bit. -/
def dataRow (ty : Ty) (widened : Bool) : Nat :=
  if widened then 4
  else match ty.width with
    | 4 => 0
    | 8 => 1
    | 16 => if ty.isFloat then 2 else 3
    | 32 => 4
    | _ => 5

/-- Occupancy in M cycles (R148). -/
def occupancy (row group : Nat) : Nat :=
  ((([[1, 1, 4, 8], [1, 2, 2, 4], [1, 2, 2, 2], [1, 4, 4, 4], [2, 4, 4, 4], [2, 4, 4, 4]] : List (List Nat)).getD row []).getD group 4)

/-- The physical slot that a name stands for (R20, R229); none where the name is at or above the count. -/
def Issue.slotKey (x : Issue) (n : Nat) : Option Nat :=
  if x.r.maps ≤ n then none
  else
    match x.r.frame with
    | some fr => some (16 * quadKey x.c x.r.quad + (fr.entry.extractLsb' 48 4).toNat + n)
    | none =>
      match tget x.w.slotMap (16 * x.r.quad + n) with
      | some p => some (16 * quadKey x.c x.r.quad + p)
      | none => none

/-- What stops an application of a slot (R139): the wait for PENDING, or a trap. DEDUCED: log entry 35. -/
inductive MapCheck where
  | wait
  | trap (t : TrapReq)
  deriving DecidableEq, Repr

/-- What an instruction answers that such a check stops. -/
def MapCheck.act : MapCheck → Act
  | .wait => .wait
  | .trap t => .trap t

/-- The steps of R139 for one operand, by number: 1 the name, 2 the owner, 3 the wait, 4 EMPTY or FAILED, 5 the
successor's, 6 TYPE. DEDUCED: log entry 35. -/
def Issue.mapStep (x : Issue) (s : State) (step name row : Nat) (intData facc : Bool) : Option MapCheck :=
  let slotTrap (reason n : Nat) : Option MapCheck := some (.trap (x.trap 7 reason (BitVec.ofNat 32 n)))
  match x.slotKey name with
  | none => if step = 1 then slotTrap 1 name else none
  | some k =>
    let m := s.slot k
    match step with
    | 1 => none
    | 2 => if m.owner != x.r.did then some (.trap (x.trap 6 3)) else none
    | 3 =>
      if m.state = .pending then some .wait
      else if m.state = .valid ∧ m.succe then
        match x.slotKey m.succ with
        | some k2 => if (s.slot k2).state = .pending ∧ (s.slot k2).owner = x.r.did then some .wait else none
        | none => none
      else none
    | 4 => match m.state with
      | .empty => slotTrap 2 name
      | .failed => slotTrap 6 name
      | _ => none
    | 5 =>
      if m.succe then
        match x.slotKey m.succ with
        | none => slotTrap 1 m.succ
        | some k2 =>
          let m2 := s.slot k2
          if m2.owner != x.r.did then some (.trap (x.trap 6 3))
          else if m2.state != .valid || m2.succe || row == 5 ||
              decide (8 < occupancy row (wfmtGroup m.wfmt) + occupancy row (wfmtGroup m2.wfmt)) then slotTrap 5 name
          else none
      else none
    | _ =>
      let succ := if m.succe then (x.slotKey m.succ).map s.slot else none
      if intData && !facc && (!wfmtInt m.wfmt || (match succ with | some m2 => !wfmtInt m2.wfmt | none => false)) then
        slotTrap 4 name
      else none

/-- The first step of R139 that stops an application on A or B, A before B within a step. -/
def Issue.mapChecks (x : Issue) (s : State) (rowA rowB : Nat) (intA intB facc : Bool) : Option MapCheck :=
  ([1, 2, 3, 4, 5, 6] : List Nat).findSome? (fun st =>
    let a := if x.f.mae then x.mapStep s st x.f.ma.toNat rowA intA facc else none
    match a with
    | some c => some c
    | none => if x.f.mbe then x.mapStep s st x.f.mb.toNat rowB intB facc else none)

/-- The slot, successor and occupancy of a name that has passed the checks. -/
def Issue.mapUse (x : Issue) (s : State) (name row : Nat) : MapSlot × Option MapSlot × Nat :=
  match x.slotKey name with
  | none => (MapSlot.empty 0, none, 0)
  | some k =>
    let m := s.slot k
    let succ := if m.succe then (x.slotKey m.succ).map s.slot else none
    (m, succ, occupancy row (wfmtGroup m.wfmt) + (match succ with | some m2 => occupancy row (wfmtGroup m2.wfmt) | none => 0))

/-- What an operand delivers in each lane: its elements, each with the flags of its map stage. -/
abbrev OpVals := List (List (EV × Flags))

/-- A source operand in every lane: `rd` gives a lane's elements after the modifiers; a mapped operand passes through its
slot (R142 to R144). -/
def Issue.operand (x : Issue) (s : State) (mapped : Bool) (name row n : Nat) (facc sx mz : Bool) (rd : Nat → List EV) :
    OpVals :=
  if mapped then
    let (m, succ, _) := x.mapUse s name row
    let zero : List EV := List.replicate n (match rd 0 with | .f _ :: _ => .f (.fin false 0 0) | _ => .i 0)
    let data := lanes32.map (fun j =>
      if x.act.getLsbD j || (mz && x.r.present.getLsbD j) then rd j else zero)
    let (out, fl) := mapApply m succ facc (row == 5) sx n data
    out.map (fun l => l.map (fun e => (e.1, e.2 ||| fl)))
  else lanes32.map (fun j => (rd j).map (fun e => (e, (0 : Flags))))

/-- The arrays of a quadrant. -/
def State.array (s : State) (core quad a : Nat) : MapArray :=
  (tget s.arrays (2 * quadKey core quad + a)).getD ⟨0, 0, 0, [], 0, [], [], 0⟩

/-- Whether an array is in service: fewer than two sub-arrays fenced (R152). -/
def MapArray.inService (a : MapArray) : Bool := decide ((a.fenced.getLsbD 0).toNat + (a.fenced.getLsbD 1).toNat +
  (a.fenced.getLsbD 2).toNat + (a.fenced.getLsbD 3).toNat < 2)

/-- Whether a self-test has to run before an array's next application (R151). -/
def MapArray.untested (a : MapArray) : Bool := decide (4096 ≤ a.apps)

/-- The arrays of the rope's quadrant in service and free now (R150, R151). -/
def Issue.freeArrays (x : Issue) (s : State) : List Nat :=
  [0, 1].filter (fun a =>
    let m := s.array x.c x.r.quad a
    m.inService && decide (m.busy ≤ x.core.cyc) && !m.untested)

/-- The arrays in service of a core's quadrant. -/
def State.servingArrays (s : State) (c quad : Nat) : List Nat := [0, 1].filter (fun a => (s.array c quad a).inService)

/-- The M cycles of R148 for which applications keep the `i`-th of `n` arrays, of the `need` that they use with all in service: each
its own count, both arrays on 64-bit data; on one that serves alone, the longest. Each application gives its count and whether its data
are of 64 bits. -/
def mapCount (apps : List (Nat × Bool)) (n need i : Nat) : Nat :=
  if n < need ∨ apps.any Prod.snd then (apps.map Prod.fst).foldl max 0 else (apps.getD i (0, false)).1

/-- The M cycles for which an array is at work on them (R152): twice as many with a fenced sub-array; where it serves alone, on one after
another, and on 64-bit data in two halves. -/
def MapArray.load (a : MapArray) (apps : List (Nat × Bool)) (n need i : Nat) : Nat :=
  let own := if n < need then (apps.map (fun e => if e.2 then 2 * e.1 else e.1)).foldl (· + ·) 0 else mapCount apps n need i
  if a.fenced = 0 then own else 2 * own

/-- The state with the arrays of applications occupied (R148, R150, R362), or none while they are not free. What an array needs beyond
its count holds the quadrant (R152). DESIGN CHOICE: log entry 9. -/
def Issue.takeArrays (x : Issue) (s : State) (apps : List (Nat × Bool)) : Option State :=
  let free := x.freeArrays s
  let serving := (s.servingArrays x.c x.r.quad).length
  let need := if apps.length = 2 ∨ apps.any Prod.snd then 2 else 1
  let n := min need serving
  if n = 0 ∨ free.length < n ∨ !s.dutyAdmits x.c then none
  else
    let use := (free.take n).zipIdx
    let extra := (use.map (fun (a, i) => (s.array x.c x.r.quad a).load apps n need i - mapCount apps n need i)).foldl max 0
    let core := s.core x.c
    let s1 := use.foldl (fun (t : State) (a, i) =>
      let m := t.array x.c x.r.quad a
      { t with arrays := tset t.arrays (2 * quadKey x.c x.r.quad + a) { m with
          busy := x.core.cyc + mapCount apps n need i
          apps := m.apps + (if n < need then apps.length else 1)
          users := if m.users.contains x.r.wg then m.users else x.r.wg :: m.users } }) s
    some (s1.setCore x.c { core with holds := rset 0 core.holds x.r.quad extra })

/-- The map-stage latency of R149: the larger occupancy plus 2, or 0 without a map. -/
def Issue.mapExtra (x : Issue) (s : State) (rowA rowB : Nat) : Nat :=
  let a := if x.f.mae then (x.mapUse s x.f.ma.toNat rowA).2.2 else 0
  let b := if x.f.mbe then (x.mapUse s x.f.mb.toNat rowB).2.2 else 0
  if x.f.mae || x.f.mbe then max a b + 2 else 0

/-- The map stage of an instruction before its operands are read: the checks, the arrays, and the added latency. -/
def Issue.mapStageIn (x : Issue) (s : State) (rowA rowB : Nat) (intA intB facc : Bool) : Except Act (State × Nat) :=
  if x.f.mae || x.f.mbe then
    match x.mapChecks s rowA rowB intA intB facc with
    | some c => .error c.act
    | none =>
      let extra := x.mapExtra s rowA rowB
      let apps := (if x.f.mae then [((x.mapUse s x.f.ma.toNat rowA).2.2, rowA == 5)] else []) ++
        (if x.f.mbe then [((x.mapUse s x.f.mb.toNat rowB).2.2, rowB == 5)] else [])
      match x.takeArrays s apps with
      | none => .error .wait
      | some s1 => .ok (s1, extra)
  else .ok (s, 0)

end Sys2Proof.Machine
end

