-- ==== Sys2Proof/Machine/Flags.lean ====
section
/-! DEFINITION. Flags, status and their traps (R18, R51, R93, R100, R124, R220). -/

namespace Sys2Proof.Machine

/-- FPXEN of the domain's settings (R220). -/
def Issue.fpxen (x : Issue) : Flags := x.set.extractLsb' 2 5

/-- CAPSEL of the domain's settings (R220). -/
def Issue.capsel (x : Issue) : Flags := x.set.extractLsb' 7 5

/-- STCAP of the domain's settings (R220). -/
def Issue.stcap (x : Issue) : Bool := x.set.getLsbD 1

/-- CHKSB of the domain's settings (R220). -/
def Issue.chksb (x : Issue) : Bool := x.set.getLsbD 0

/-- Whether a RETRY has disabled a cause's trap for this unit's execution (R238). -/
def Issue.quiet (x : Issue) (cause : Nat) : Bool :=
  x.r.trap.isNone && x.r.suppress.any (fun (c, st) => c.toNat == cause && st &&& x.r.unitStrands x.unit != 0)

/-- The lanes of ACTIVE whose flags meet an enabled trap (R51). -/
def Issue.fpxLanes (x : Issue) (fl : Nat → Flags) : Word :=
  x.act &&& maskOf (fun l => fl l &&& x.fpxen != 0)

/-- The union of the raised enabled flags over the lanes of ACTIVE, for INFO (R236). -/
def Issue.fpxUnion (x : Issue) (fl : Nat → Flags) : Flags :=
  x.active.foldl (fun a l => a ||| (fl l &&& x.fpxen)) 0

/-- The lanes of ACTIVE in which status is raised: a captured flag, or a condition that no flag selects (R18, R220). -/
def Issue.statusLanes (x : Issue) (fl : Nat → Flags) (cond : Nat → Bool) : Word :=
  if x.stcap then x.act &&& maskOf (fun l => fl l &&& x.capsel != 0 || cond l) else 0

/-- The writes of an instruction with the status bits it raises in p6 (R18, R220). -/
def Issue.results (x : Issue) (fl : Nat → Flags) (cond : Nat → Bool) (ws : List RegWrite) : List RegWrite :=
  if x.statusLanes fl cond = 0 then ws else ws ++ [.status (x.statusLanes fl cond)]

/-- The end of an instruction that raises flags and status (R124): FPX with nothing written, or its results with the
status bits in p6. -/
def Issue.finish (x : Issue) (s : State) (fl : Nat → Flags) (cond : Nat → Bool) (ws : List RegWrite) (extra : Nat) : Act :=
  let tl := x.fpxLanes fl
  if tl != 0 && !x.quiet 12 then .trap ⟨12, 0, tl, (x.fpxUnion fl).setWidth 32, 0, 0⟩
  else .go s (x.results fl cond ws) extra .fall

end Sys2Proof.Machine
end

