-- ==== Sys2Proof/Machine/Ops.lean ====
section
/-! DEFINITION. The named operations that the meanings share: barriers, the end of ropes and workgroups, taking a trap and
returning from one (R234 to R238, R396), gate frames' end (R232, R233), moving lanes (R160 to R162), and the envelope of
every rope instruction: checks, hazards (R74 to R76), effect, timing (R73). -/

namespace Sys2Proof.Machine

/-! Barriers. -/

/-- A barrier in its starting state for a workgroup of `n` ropes (R23). -/
def Barrier.start (n : Nat) : Barrier := ⟨n, 0, false, none⟩

/-- A barrier of a workgroup. -/
def Workgroup.barrier (w : Workgroup) (b : Nat) : Barrier := (tget w.barriers b).getD (Barrier.start w.ropes.length)

/-- What a rope that has not arrived records of a barrier. -/
def BarRec.none : BarRec := ⟨0, 0, false, false⟩

/-- A rope's record of a barrier (R170). -/
def Rope.bar (r : Rope) (b : Nat) : BarRec := (tget r.bars b).getD BarRec.none

/-- The strands of a rope that have unretired lanes, as positions. -/
def Rope.liveStrands (r : Rope) : BitVec 8 :=
  BitVec.ofNat 8 ((List.range r.strands.length).foldl
    (fun a i => if (r.strands.getD i Strand.none).live then a + 2 ^ i else a) 0)

/-- Whether a unit waits for a phase of a barrier. -/
def waitsFor (q : Option (Nat × Bool × Bool)) (b : Nat) (phase : Bool) : Bool :=
  match q with
  | some (b', ph, _) => b' == b && ph == phase
  | none => false

/-- What a unit that waited for a phase of a barrier waits for once it has completed (R170): a BAR.SYNC with strands that arrive
late, for the new phase. -/
def waitsNext (q : Option (Nat × Bool × Bool)) (b : Nat) (phase late : Bool) : Option (Nat × Bool × Bool) :=
  match q with
  | some (_, _, sync) => if sync && late then some (b, !phase, true) else none
  | none => none

/-- A rope after a barrier's phase has completed (R170): waiting units become ready 2 cycles later, late strands arrive in
the new phase, for which a BAR.SYNC of theirs then waits. A wait that a trap has interrupted ends in the same way. -/
def Rope.barDone (r : Rope) (b : Nat) (phase : Bool) (cyc : Nat) : Rope :=
  let rec0 := r.bar b
  let late (u : Nat) : Bool := rec0.late &&& r.unitStrands u != 0
  { r with
    bars := tset r.bars b ⟨rec0.late, 0, false, rec0.phase⟩
    sched := r.sched.map (fun (u, q) =>
      (u, if waitsFor q.blocked b phase then
          { q with readyAt := max q.readyAt (cyc + 2), blocked := waitsNext q.blocked b phase (late u) }
        else q))
    trap := r.trap.map (fun c =>
      if waitsFor c.blocked b phase then { c with blocked := waitsNext c.blocked b phase (late c.unit) } else c) }

/-- Whether a unit of a rope waits for a phase of a barrier, or would but for the trap that it handles. -/
def Rope.waitsAt (r : Rope) (b : Nat) (phase : Bool) : Bool :=
  r.sched.any (fun (_, q) => waitsFor q.blocked b phase) || (match r.trap with | some c => waitsFor c.blocked b phase | none => false)

/-- The completion test of a barrier (R170); a completed wait is an acquire (R282). -/
def State.barTest (s : State) (wg b : Nat) : State :=
  match tget s.wgs wg with
  | none => s
  | some w =>
    let q := w.barrier b
    if q.arrived = q.expected ∧ q.arrived ≠ 0 then
      let w1 := { w with barriers := tset w.barriers b ⟨q.pending.getD q.expected, 0, !q.phase, none⟩ }
      let s1 := ({ s.setWg wg w1 with
        ropes := s.ropes.map (fun (k, r) => (k, if r.wg = wg then r.barDone b q.phase (s.core w.core).cyc else r)) } : State).onMarks
          (fun m => m.complete wg b)
      s.ropes.foldl (fun (t : State) (k, r) => if r.wg = wg ∧ r.waitsAt b q.phase = true then t.waited wg k b else t) s1
    else s

/-- Whether the operand log holds accesses of a rope: until they are performed the rope arrives at no barrier, which is a release
(R282). DESIGN CHOICE: log entry 8. -/
def State.logs (s : State) (k : Nat) : Bool := s.log.any (fun e => e.rope == k && e.kind != 3)

/-- Whether a rope arrives at a barrier (R170): it has not, and every strand with unretired lanes has. -/
def Rope.comes (r : Rope) (b : Nat) : Bool :=
  !(r.bar b).arrived && r.liveStrands != 0 && (r.bar b).strands &&& r.liveStrands == r.liveStrands

/-- A rope arrives at a barrier when every strand with unretired lanes has arrived (R170), which is a release (R282): once none of its
accesses is logged. -/
def State.barRope1 (s : State) (k b : Nat) : State :=
  match tget s.ropes k with
  | none => s
  | some r =>
    match tget s.wgs r.wg with
    | none => s
    | some w =>
      let q := w.barrier b
      let rb := r.bar b
      if r.comes b && !s.logs k then
        let s1 := s.setRope k { r with bars := tset r.bars b { rb with arrived := true, phase := q.phase } }
        let s2 := s1.setWg r.wg { w with barriers := tset w.barriers b { q with arrived := q.arrived + 1 } }
        (s2.arrives r.wg k b).barTest r.wg b
      else s

/-- The ropes of a workgroup whose late strands have arrived in a new phase of a barrier (R170). -/
def State.barLate (s : State) (wg b : Nat) : State :=
  (s.ropes.filter (fun (_, r) => r.wg == wg)).foldl (fun (t : State) (k, _) => t.barRope1 k b) s

/-- A rope's arrival is tested, and after a completed phase those of the late strands of its workgroup (R170). -/
def State.barRope (s : State) (k b : Nat) : State :=
  match tget s.ropes k with
  | none => s
  | some r => (s.barRope1 k b).barLate r.wg b

/-- The strands of a set arrive at a barrier; late ones arrive in the next phase (R170). -/
def State.barArrive (s : State) (k b : Nat) (st : BitVec 8) : State :=
  match tget s.ropes k with
  | none => s
  | some r =>
    let rb := r.bar b
    let rb1 : BarRec := { rb with strands := rb.strands ||| st, late := rb.late ||| (rb.strands &&& st) }
    (s.setRope k { r with bars := tset r.bars b rb1 }).barRope k b

/-- What the end of a rope does to one barrier (R170). -/
def State.barEnd (s : State) (k b : Nat) : State :=
  match tget s.ropes k with
  | none => s
  | some r =>
    match tget s.wgs r.wg with
    | none => s
    | some w =>
      let q := w.barrier b
      let q1 : Barrier :=
        ⟨q.expected - 1, if (r.bar b).arrived then q.arrived - 1 else q.arrived, q.phase, q.pending.map (· - 1)⟩
      ((s.setWg r.wg { w with barriers := tset w.barriers b q1 }).barTest r.wg b).barLate r.wg b

/-! The end of ropes and workgroups. -/

/-- A rope ends (R166): every barrier expects one rope less. -/
def State.endRope (s : State) (k : Nat) : State := (List.range 16).foldl (fun (t : State) b => t.barEnd k b) s

/-- After a strand set of a rope has retired lanes, its arrivals are tested again (R170). -/
def State.barRetest (s : State) (k : Nat) : State := (List.range 16).foldl (fun (t : State) b => t.barRope k b) s

/-- The slots of a workgroup are cleared (R20). -/
def State.freeSlots (s : State) (w : Workgroup) : State :=
  { s with slots := w.slotMap.foldl (fun t (k, p) => terase t (16 * quadKey w.core (k / 16) + p)) s.slots }

/-- Whether the trap of a logged access has been raised. -/
def LogState.over : LogState → Bool
  | .raised | .poisoned => true
  | _ => false

/-- An operand-log entry once its rope or gate frame is gone: a store or atomic that has been issued is still performed (R233,
R270), a load, a fetch and an access whose trap has been raised are dropped. -/
def LogEntry.abandon (e : LogEntry) : Option LogEntry :=
  if (e.kind = 1 ∨ e.kind = 2) ∧ e.state.over = false then some { e with orphan := true } else none

/-- The entries of the operand log that `p` selects lose their rope. -/
def State.abandonLog (s : State) (p : LogEntry → Bool) : State :=
  { s with log := s.log.filterMap (fun e => if p e then e.abandon else some e) }

/-- A workgroup ends at once: its ropes, slots, loads and copy contexts go (R238, R270); stores and atomics that have been
issued are performed. -/
def State.killWg (s : State) (wg : Nat) : State :=
  match tget s.wgs wg with
  | none => s
  | some w =>
    let s1 := (s.freeSlots w).abandonLog (fun e => w.ropes.contains e.rope)
    { s1 with
      wgs := terase s1.wgs wg
      ropes := s1.ropes.filter (fun (_, r) => r.wg != wg)
      sfu := s1.sfu.filter (fun e => !w.ropes.contains e.rope)
      ctxs := s1.ctxs.filter (fun (_, c) => c.wg != wg || c.task.isSome) }

/-- A task fault is raised against a workgroup's task (R270). -/
def State.raiseFault (s : State) (w : Workgroup) (cls reason : Nat) (info : Word) (t : Option TrapRec) : State :=
  { s with faults := s.faults ++ [⟨w.stream, w.task, ⟨BitVec.ofNat 8 cls, BitVec.ofNat 8 reason, 0, info⟩,
    if w.pro.isSome then 0xFFFFFFFF else w.wgid, t, s.etime⟩] }

/-! Instruction fetch checks. -/

/-- Whether an address lies in the Choarnif section of an image (R365). -/
def Image.inPort (i : Image) (a : Nat) : Bool :=
  i.sections.any (fun c => c.kind == 2 && decide (c.addr ≤ a) && decide (a < c.addr + c.size))

/-- Whether an address has start bit 1 in a domain's loaded code (R77, R368): in the Choarnif section for a Choarnif rope,
outside it for others (R374). -/
def State.isStart (s : State) (did : BitVec 16) (port : Bool) (a : Nat) : Bool :=
  s.images.any (fun (_, i) => i.did == did && i.starts.contains a && i.inPort a == port)

/-- Whether a rope is the run of a prologue (R256). -/
def State.isPro (s : State) (r : Rope) : Bool :=
  match tget s.wgs r.wg with
  | some w => w.pro.isSome
  | none => false

/-- Whether an address starts an instruction in a prologue section of an image of a domain (R256). -/
def State.inPrologue (s : State) (did : BitVec 16) (a : Nat) : Bool :=
  s.images.any (fun (_, i) => i.did == did && i.starts.contains a &&
    i.sections.any (fun c => c.kind == 8 && decide (c.addr ≤ a) && decide (a < c.addr + c.size)))

/-- Bytes of a unit of a rope's code (R59, R373). -/
def Rope.codeUnit (r : Rope) : Nat := if r.port then 4 else 8

/-- A fault of fetch: cause, reason, INFO, OFFSET, ADDR. -/
abbrev FetchFault := Nat × Nat × Word × Word × DWord

/-- The checks of the code handle at an address, `n` bytes, in their order (R179, R301). -/
def State.handleFault (s : State) (r : Rope) (pc : DWord) (n : Nat) : Option FetchFault :=
  let h := s.handle r.did r.asid r.codeh
  let a := pc.toNat
  let info : Word := r.codeh.setWidth 32
  let off : Word := BitVec.ofInt 32 ((a : Int) - h.ent.base)
  if !h.ent.v then some (5, 1, info, off, 0)
  else if !h.ent.ok then some (5, 2, info, off, 0)
  else if !h.ent.rights.getLsbD 2 then some (5, 4, info, off, 0)
  else if a < h.ent.base ∨ h.ent.base + h.ent.len < a + n then some (4, 1, info, off, 0)
  else none

/-- The core that a rope runs on. -/
def State.coreOf (s : State) (r : Rope) : Nat := match tget s.wgs r.wg with | some w => w.core | none => 0

/-- The line of an ASID that a core's instruction levels hold, if they hold it (R300): the MLIC holds what the others do. -/
def State.codeLine (s : State) (core : Nat) (asid : BitVec 16) (line : Nat) : Option CodeLine :=
  s.code.find? (fun l => l.cluster == core / 32 && l.asid == asid && l.line == line)

/-- Whether an address of a rope's code has a start bit: in the prologue's pages for a prologue (R77, R256, R374). A line that the core
holds has the bits that were fetched with it (R300). -/
def State.startAt (s : State) (r : Rope) (a : Nat) : Bool :=
  if s.isPro r then s.inPrologue r.did a
  else
    match s.codeLine (s.coreOf r) r.asid (a / 128) with
    | some l => l.starts.contains (a % 128, r.port)
    | none => s.isStart r.did r.port a

/-- ENTRY at an address that instructions are to be fetched from (R78). -/
def State.startFault (s : State) (r : Rope) (pc : DWord) : Option FetchFault :=
  if pc.toNat % r.codeUnit ≠ 0 ∨ !s.startAt r pc.toNat then some (2, 0, 0, 0, pc) else none

/-- Where the fetches of a rope go: an MLIC miss reads the line through its home, as a data read of the ASID (R300). -/
def State.codeTarget (s : State) (r : Rope) : Target :=
  let c := s.coreOf r
  ⟨spGlobal, r.did, r.asid, r.wg, 0, 0, none, .core c, (s.handle r.did r.asid r.codeh).ent.key, 2, 0,
    ((s.core c).dpeReg (8 * r.dslot + 4)).extractLsb' 0 16, none, 0⟩

/-- What translating fetched bytes finds: nothing in the way, a fault, or a translation that has to wait for the Herey controller
(R306), with its reason and address; `asked` once it has been asked. -/
inductive FetchRes where
  | ok
  | fault (q : FetchFault)
  | miss (reason va : Nat)
  | asked
  deriving DecidableEq, Repr

/-- The operand-log entry of a unit's fetch at an address. -/
def State.fetchEntry (s : State) (k u va : Nat) : Option LogEntry :=
  s.log.find? (fun e => e.kind == 3 && !e.orphan && e.rope == k && e.unit == u && e.lanes.any (fun l => l.addr == va))

/-- Translates a byte that a unit fetches from memory (R300, R301, R306, R357). -/
def State.fetchByte (s : State) (k u : Nat) (r : Rope) (va : Nat) : FetchRes :=
  if (s.codeLine (s.coreOf r) r.asid (va / 128)).isSome then .ok
  else
    match s.find (s.codeTarget r) va .fetch with
    | .ok f _ _ _ => if s.poisoned (physOf f va) then .fault (9, 5, 3, 0, BitVec.ofNat 64 va) else .ok
    | .aliased => .fault (8, 0, 3, 0, BitVec.ofNat 64 va)
    | .fault rs =>
      match s.fetchEntry k u va with
      | some e => if e.state.over then .fault (9, rs, 3, 0, BitVec.ofNat 64 va) else .asked
      | none => .miss rs va

/-- Translates `n` fetched bytes: the first of them and the first of a second line (R300). -/
def State.fetchBytes (s : State) (k u : Nat) (r : Rope) (a n : Nat) : FetchRes :=
  match s.fetchByte k u r a with
  | .ok => if (a + n - 1) / 128 = a / 128 then .ok else s.fetchByte k u r (128 * (a / 128 + 1))
  | z => z

/-- The fetch of `n` bytes at an address (R79 step 1, R301). A sequencer reads a prologue's code by itself, which is fatal where a line is
poisoned (R256, R357); that is left to its turn. -/
def State.fetchAt (s : State) (k u : Nat) (r : Rope) (pc : DWord) (n : Nat) : FetchRes :=
  if s.isPro r then .ok
  else
    match s.handleFault r pc n with
    | some q => .fault q
    | none => s.fetchBytes k u r pc.toNat n

/-- The checks on a transfer's target (R78, R160, R301); a prologue's are those of R256. -/
def State.targetAt (s : State) (k u : Nat) (r : Rope) (pc : DWord) : FetchRes :=
  match s.fetchAt k u r pc r.codeUnit with
  | .ok => (match s.startFault r pc with | some q => .fault q | none => .ok)
  | z => z

/-- The state with a fetch's translation asked of the Herey controller (R306); a refused request has left its event (R338). -/
def State.askFetch (s0 : State) (k u : Nat) (r : Rope) (reason va : Nat) : State :=
  let s := s0.failed (s0.codeTarget r) va .fetch
  let w := tget s.wgs r.wg
  { s with
    nextId := s.nextId + 1
    log := s.log ++ [⟨s.nextId, k, u, r.wg, (match w with | some g => g.stream | none => 0), (match w with | some g => g.task | none => 0),
      s.coreOf r, r.quad, r.unitPc u, 0, [], (s.handle r.did r.asid r.codeh).raw, r.asid, 3,
      [⟨0, va, .load 1 false false 0 0⟩], none, .deciding (BitVec.ofNat 8 reason) 1, false⟩] }

/-- The operand log without the fetches of a unit that have been asked. -/
def State.dropFetch (s : State) (k u : Nat) : State :=
  { s with log := s.log.filter (fun e => !(e.kind == 3 && e.rope == k && e.unit == u)) }

/-! Traps. -/

/-- The default action of a cause (R234): 0 RETRY, 1 SKIP, 3 KILL. -/
def defaultAction (cause : Nat) : BitVec 2 :=
  if cause = 3 ∨ cause = 9 ∨ cause = 10 ∨ cause = 11 ∨ cause = 12 then 0 else if cause = 15 then 1 else 3

/-- s60 to s63 of a rope. -/
def Rope.saved60 (r : Rope) : List Word := [r.sr 60, r.sr 61, r.sr 62, r.sr 63]

/-- The rope with s60 to s63 written from a list (R238). -/
def Rope.restore60 (r : Rope) (l : List Word) : Rope :=
  (((r.setS 60 (l.getD 0 0)).setS 61 (l.getD 1 0)).setS 62 (l.getD 2 0)).setS 63 (l.getD 3 0)

/-- The caller's state put back at the end of a frame (R232, R233); the rope's fences go on holding (R198). -/
def Rope.leaveFrame (r : Rope) (fr : Frame) : Rope :=
  { r with
    did := fr.did, dslot := fr.dslot, asid := fr.asid, regs := fr.regs, maps := fr.maps, codeh := fr.codeh, trapH := fr.trapH
    v := fr.v, s := fr.s, p := fr.p, h := fr.h, k := fr.k, ldc := fr.ldc, stc := fr.stc, cpc := fr.cpc, copies := fr.copies, port := fr.port, onNative := fr.onNative
    inflight := [], monitors := [], outst := [], stores := [], frame := none, cand := none
    held := r.held.filter (fun h => h.trap.copy && !h.trap.frame), suppress := [], lastTrap := TrapRec.none
    strands := r.strands.map (fun t =>
      if t.live then { t with pc := fr.ret, active := ~~~t.retired, stack := [], parked := 0, waiting := false, unit := 0,
                              stopped := false }
      else t) }

/-- What a frame leaves behind when it is abandoned (R233): its SFU entries and loads go, its stores and atomics are still
performed, and its copy programs are halted without copy faults. -/
def State.dropFrame (s : State) (k : Nat) : State :=
  let s := s.abandonLog (fun e => e.rope == k)
  { s with
    sfu := s.sfu.filter (fun e => e.rope != k)
    ctxs := s.ctxs.filter (fun (_, c) => !(c.rope == k && c.inFrame)) }

/-- The rope with every live strand in one unit named by its lowest live strand. -/
def Rope.oneUnit (r : Rope) : Rope :=
  let u := ((List.range r.strands.length).find? (fun i => (r.strands.getD i Strand.none).live)).getD 0
  { r with strands := r.strands.map (fun t => if t.live then { t with unit := u } else t) }

/-- The unit of a whole rope. -/
def Rope.headUnit (r : Rope) : Nat := (r.units.head?).getD 0

/-- What W3 to W15 of a record take from the instruction and the rope at delivery (R236). -/
def Rope.record (r : Rope) (q : TrapReq) (fpc rpc iw : DWord) (async copy : Bool) : TrapRec :=
  { cause := BitVec.ofNat 8 q.cause, reason := BitVec.ofNat 8 q.reason, async := async, copy := copy, frame := r.frame.isSome
    action := defaultAction q.cause, lanemask := q.lanes, fpc := fpc, rpc := rpc, info := q.info, offset := q.off
    addr := q.addr, iw := iw, saved := r.saved60 }

/-- A trap that ends in KILL outside a frame: the workgroup ends and a task fault carries the record (R238, R270);
the reason in class ROPE is 1 KILL or 2 DOUBLE. A trap in a prologue is PROLOGUE, reason ACCESS (R256). -/
def State.killBy (s : State) (k : Nat) (reason : Nat) (t : TrapRec) : State :=
  match tget s.ropes k with
  | none => s
  | some r =>
    match tget s.wgs r.wg with
    | none => s
    | some w =>
      if w.pro.isSome then (s.raiseFault w 7 4 0 (some t)).killWg r.wg
      else (s.raiseFault w 5 reason (t.cause.setWidth 32) (some t)).killWg r.wg

/-- Taking a trap (R235): the record is saved with s60 to s63, the unit enters the handler at level HANDLER with its
active lanes, its siblings stop, and its first instruction issues 12 cycles later, or when the STALL of the unit's last has passed (R73). Without a handler the trap acts as KILL
(R235); in a frame that abandons the frame, whose caller gets GATE, reason CALLEE, at the GCALL (R233). A trap at HANDLER
level, or a handler whose entry fails its checks, is a double fault; a translation that the handler's page lacks is that of its
first fetch. `fuel` counts the frames left. DEDUCED: log entry 10. -/
def State.takeTrap (s : State) (k u : Nat) (t : TrapRec) (access : Option Nat) : Nat → State
  | 0 => s.killBy k 2 t
  | fuel + 1 =>
    match tget s.ropes k with
    | none => s
    | some r =>
      let cyc := match tget s.wgs r.wg with | some w => (s.core w.core).cyc | none => 0
      if r.trap.isSome then s.killBy k 2 t
      else if r.trapH = 0 then
        match r.frame with
        | none => s.killBy k 1 t
        | some fr =>
          let r1 := (r.leaveFrame fr).oneUnit
          let q : TrapReq := ⟨14, 9, r1.unitLanes r1.headUnit, fr.gate.setWidth 32, 0, 0⟩
          ((s.dropFrame k).setRope k r1).takeTrap k r1.headUnit (r1.record q fr.pc fr.ret fr.iw false false) none fuel
      else if (s.handleFault r r.trapH r.codeUnit).isSome || (s.startFault r r.trapH).isSome then s.killBy k 2 t
      else
        (s.dropFetch k u).setRope k
          { r with
            trap := some ⟨t, u, r.priv, access, t.rpc, (r.schedOf u).blocked, r.cand, r.monitorOf u⟩
            cand := none
            monitors := r.monitors.filter (fun m => m.unit != u)
            priv := .handler
            strands := r.strands.map (fun x =>
              if x.inUnit u then { x with pc := r.trapH } else if x.live then { x with stopped := true } else x)
            sched := tset r.sched u ⟨max (cyc + 12) (r.schedOf u).readyAt, 0, 0, 0, false, none⟩ }

/-- Frames that can nest (R230): one; and one level below it. -/
def trapFuel : Nat := 2

/-- Whether an opcode uses the quadrant's F64 datapath (R117). -/
def usesF64 (op : Nat) : Bool :=
  (decide (0x098 ≤ op) && decide (op < 0x0A0)) || op == 0x0C4 || op == 0x0C5 || (decide (0x0D0 ≤ op) && decide (op < 0x0D6)) ||
    op == 0x0D7

/-- A quadrant's issue opportunity is used by an instruction of a class that is in flight in this cycle alone (R322, R325); one of F64
keeps its datapath (R117). -/
def State.spend (s : State) (c quad cls : Nat) (f64 : Bool := false) : State :=
  let k := s.core c
  s.setCore c { k with
    issued := k.issued ||| (1#4 <<< quad), flight := k.flight ++ [⟨cls, k.cyc, k.cyc + 1, quad⟩]
    f64 := if f64 then tset k.f64 quad (k.cyc + 4) else k.f64 }

/-- The rope without the disabled traps of RETRYs (R238) that were meant for strands of a set; a handler's instructions leave it. -/
def Rope.used (r : Rope) (st : BitVec 8) : Rope :=
  if r.trap.isNone then { r with suppress := r.suppress.filter (fun e => e.2 &&& st == 0) } else r

/-- A precise trap at the instruction of an issue (R234): the instruction has no effect (R8) but that it was issued, with its STALL
(R73). -/
def Issue.raise (x : Issue) (s : State) (q : TrapReq) : State :=
  let r := (x.r.used (x.r.unitStrands x.unit)).setReady x.unit (x.core.cyc + 1 + x.stall) 0
  let iw := encodeIw x.op x.f
  (((s.spend x.c x.r.quad x.f.tc.toNat (usesF64 x.op)).setRope x.k r).takeTrap x.k x.unit (r.record q x.pc x.fall iw false false) none trapFuel)

/-- An asynchronous trap for a rope is held for the next boundary of a unit (R234, R235). -/
def State.holdTrap (s : State) (k : Nat) (h : HeldTrap) : State := s.onRope k (fun r => { r with held := r.held ++ [h] })

/-- The unit that takes a held trap (R216, R235): the one named, or that of the lowest unretired lane. A strand that waits
at SPLICE stands at that SPLICE again, with those that wait there. -/
def Rope.trapUnit (r : Rope) (u : Option Nat) : Rope × Nat :=
  let live := (List.range r.strands.length).filter (fun i => (r.strands.getD i Strand.none).live)
  let named := match u with
    | some n => if r.units.contains n then some n else none
    | none => none
  match named with
  | some n => (r, n)
  | none =>
    match live.head? with
    | none => (r, 0)
    | some i =>
      let t := r.strands.getD i Strand.none
      if t.waiting then
        ({ r with strands := r.strands.map (fun x =>
            if x.live && x.waiting && x.joinPc == t.joinPc then
              { x with waiting := false, pc := x.joinPc, unit := i }
            else x) }, i)
      else (r, t.unit)

/-- A held trap is taken at the boundary where its unit stands (R234 to R236): TRAP_DELIVERY. -/
def State.deliverHeld (s : State) (k : Nat) : State :=
  match tget s.ropes k with
  | none => s
  | some r =>
    match r.held with
    | [] => s
    | h :: rest =>
      if r.trap.isSome then s
      else
        let (r1, u) := r.trapUnit h.unit
        let r2 := { r1 with held := rest }
        let t := { h.trap with rpc := r2.unitPc u, saved := r2.saved60, frame := r2.frame.isSome }
        (s.setRope k r2).takeTrap k u t h.access trapFuel

/-- A log entry that ends: the access is dropped, its counted instruction is complete with the lanes it has (R238). -/
def State.dropAccess (s : State) (id : Nat) : State :=
  { s with
    log := s.log.filter (fun e => e.id != id)
    ropes := s.ropes.map (fun (k, r) =>
      (k, { r with
        outst := r.outst.map (fun o => if o.id = id then { o with ready := true, waits := [] } else o)
        stores := r.stores.map (fun o => if o.id = id then { o with ready := true } else o) })) }

/-- A log entry replays (R238): its lanes are tried again. A read of a poisoned line is never replayed: its trap is raised again
(R357). -/
def State.retryAccess (s : State) (k u : Nat) (t : TrapRec) (id : Nat) : State :=
  if s.log.any (fun e => e.id == id && e.state == .poisoned) then
    s.holdTrap k ⟨{ t with action := defaultAction t.cause.toNat }, some u, some id⟩
  else { s with log := s.log.map (fun e => if e.id = id then { e with state := .retry } else e) }

/-- The rope back at its level after a trap (R238): s60 to s63 from the record, the unit at `pc` with the barrier wait that the
trap interrupted, its siblings released with the traps that their own RETRYs leave out; `sup` are those that the unit's next execution
there leaves out, `ready` its earliest issue and `skip` what a yield leaves (R235, R324). Where it stands as before, a remap (R168) or a
WAITV (R197) that the trap interrupted goes on. DEDUCED: log entry 15. -/
def Rope.backTo (r : Rope) (u : Nat) (c : TrapCtx) (ready skip : Nat) (pc : DWord) (sup : List (BitVec 8 × BitVec 8)) : Rope :=
  let r1 := r.restore60 c.trap.saved
  { r1 with
    trap := none, lastTrap := c.trap, priv := c.prev
    suppress := sup ++ r.suppress.filter (fun e => e.2 &&& r.unitStrands u == 0)
    cand := if pc = c.fall then c.cand.map (fun q => (q.1, 0)) else none
    monitors := r.monitors.filter (fun m => m.unit != u) ++
      (if pc = c.fall then c.sleep.toList.map (fun m => { m with unit := u, woken := true }) else [])
    strands := r1.strands.map (fun x => if x.inUnit u then { x with pc := pc } else { x with stopped := false })
    sched := tset r1.sched u ⟨ready, 0, skip, 0, false, c.blocked⟩ }

/-- Whether a return to an address fails R78 there (R235): for RESUME also where the code handle refuses it, otherwise where it
may be fetched. -/
def State.returnFails (s : State) (k u : Nat) (r : Rope) (pc : DWord) (resume : Bool) : Bool :=
  if resume then (s.handleFault r pc r.codeUnit).isSome || (s.startFault r pc).isSome
  else s.fetchAt k u r pc r.codeUnit == .ok && (s.startFault r pc).isSome

/-- Returning from a trap context (R238), by the unit that entered the handler, 8 cycles after the TRET or when its STALL has passed
(R73, R235); a target that fails R78 is a double fault (R235). RESUME from an asynchronous trap drops the access as SKIP does. DESIGN CHOICE: log entry 57. -/
def State.returnFrom (s : State) (k u : Nat) (c : TrapCtx) (stall skip : Nat) : State :=
  match tget s.ropes k with
  | none => s
  | some r =>
    let t := c.trap
    let cyc := match tget s.wgs r.wg with | some w => (s.core w.core).cyc | none => 0
    -- the trap that a RETRY left out stays so for the boundary where an asynchronous trap came between
    let mine := r.suppress.filter (fun e => e.2 &&& r.unitStrands u != 0)
    let kept (pc : DWord) : List (BitVec 8 × BitVec 8) := if t.async ∧ pc = c.fall then mine else []
    let sup : List (BitVec 8 × BitVec 8) :=
      if t.cause = 10 ∨ t.cause = 11 ∨ t.cause = 12 then [(t.cause, r.unitStrands u)] else []
    let goTo (pc : DWord) (resume : Bool) (sup : List (BitVec 8 × BitVec 8)) (act : State → Nat → State) : State :=
      if s.returnFails k u r pc resume then s.killBy k 2 t
      else
        let s1 := s.setRope k (r.backTo u c (cyc + max 8 (1 + stall)) skip pc sup)
        match c.access with
        | some id => act s1 id
        | none => s1
    match t.action with
    | 3 =>
      match r.frame with
      | none => s.killBy k 1 t
      | some fr =>
        let r1 := ({ r with trap := none, lastTrap := t, priv := c.prev }.leaveFrame fr).oneUnit
        let q : TrapReq := ⟨14, 9, r1.unitLanes r1.headUnit, fr.gate.setWidth 32, 0, 0⟩
        ((s.dropFrame k).setRope k r1).takeTrap k r1.headUnit (r1.record q fr.pc fr.ret fr.iw false false) none trapFuel
    | 2 => goTo t.rpc true (kept t.rpc) State.dropAccess
    | 1 => let pc := if t.async then t.rpc else c.fall; goTo pc false (kept pc) State.dropAccess
    | _ => if t.async then goTo t.rpc false (kept t.rpc) (fun z id => z.retryAccess k u t id) else goTo t.fpc false sup (fun z _ => z)

/-- What TRET returns from (R237, R238): the trap being handled; at level SYSTEM without one, the record that the last trap left.
DESIGN CHOICE: log entry 49. -/
def Rope.returnCtx (r : Rope) (u : Nat) (fall : DWord) : TrapCtx :=
  match r.trap with
  | some c => c
  | none => ⟨r.lastTrap, u, r.priv, none, fall, none, none, none⟩

/-! Moving lanes. -/

/-- Adds a lane to the group of its next PC (R162). -/
def addGroup (pc : DWord) (j : Nat) : List (DWord × BitVec 4) → List (DWord × BitVec 4)
  | [] => [(pc, 1#4 <<< j)]
  | (p, m) :: r => if p = pc then (p, m ||| (1#4 <<< j)) :: r else (p, m) :: addGroup pc j r

/-- The active lanes of strand `i` grouped by next PC, in ascending order of their lowest lane (R162). -/
def laneGroups (nx : Nat → DWord) (i : Nat) (act : BitVec 4) : List (DWord × BitVec 4) :=
  [0, 1, 2, 3].foldl (fun g j => if act.getLsbD j then addGroup (nx (4 * i + j)) j g else g) []

/-- A strand after its active lanes have moved (R162). -/
def Strand.move (t : Strand) (nx : Nat → DWord) (i : Nat) : Strand :=
  match laneGroups nx i t.active with
  | [] => t
  | (pc, m) :: rest => { t with pc := pc, active := m, stack := rest ++ t.stack }

/-- Applies a function to the strands of a unit, with their positions. -/
def mapUnit (u : Nat) (g : Nat → Strand → Strand) : Nat → List Strand → List Strand
  | _, [] => []
  | i, t :: r => (if t.inUnit u then g i t else t) :: mapUnit u g (i + 1) r

/-- The strands at the positions of a set that still issue, grouped into units by PC (R162): each unit is named by its
lowest position. -/
def Rope.regroup (r : Rope) (st : BitVec 8) : Rope :=
  let inSet (i : Nat) : Bool :=
    let t := r.strands.getD i Strand.none
    st.getLsbD i && t.live && !t.waiting && t.active != 0
  let unitOf (i : Nat) : Nat :=
    ((List.range r.strands.length).find? (fun j =>
      inSet j && (r.strands.getD j Strand.none).pc == (r.strands.getD i Strand.none).pc)).getD i
  { r with strands := (List.range r.strands.length).map (fun i =>
      let t := r.strands.getD i Strand.none
      if inSet i then { t with unit := unitOf i } else t) }

/-- The rope after the active lanes of a unit have moved to their next PCs (R162). -/
def Rope.moveUnit (r : Rope) (u : Nat) (nx : Nat → DWord) : Rope :=
  let st := r.unitStrands u
  ({ r with strands := mapUnit u (fun i t => t.move nx i) 0 r.strands }).regroup st

/-- The rope with the earliest issue cycle of every unit among a set of strands (R73, R160). -/
def Rope.readyUnits (r : Rope) (st : BitVec 8) (skip : Nat) (c : DWord → Nat) : Rope :=
  (r.units.filter (fun u => r.unitStrands u &&& st != 0)).foldl (fun (t : Rope) u => t.setReady u (c (t.unitPc u)) skip) r

/-! The envelope of a rope instruction. -/

/-- A register that an instruction names. -/
inductive RegRef where
  | vec (n : Nat)
  | sca (n : Nat)
  | prd (n : Nat)
  deriving DecidableEq, Repr

/-- A register or, for a 64-bit operand, the pair (R17, R35). -/
def vecRefs (n w : Nat) : List RegRef := if w = 64 then [.vec n, .vec (n + 1)] else [.vec n]
/-- A scalar register or pair. -/
def scaRefs (n w : Nat) : List RegRef := if w = 64 then [.sca n, .sca (n + 1)] else [.sca n]

/-- `k` consecutive registers. -/
def runRefs (sc : Bool) (n k : Nat) : List RegRef := (List.range k).map (fun i => if sc then .sca (n + i) else .vec (n + i))

/-- Accumulators of a FACC (R119). -/
def faccCount (op : Nat) : Nat := if op = 0x0A0 ∨ op = 0x0A3 then 8 else 4

/-- The registers an atomic's C names (R189). -/
def atomCount (op : Nat) : Nat :=
  if op = 0x1AB then 4 else if op = 0x1AA ∨ op = 0x199 ∨ op = 0x1A9 ∨ op = 0x1B1 then 2 else 1

/-- The registers an atomic's D names (R189). -/
def atomDest (op : Nat) : Nat :=
  if 0x1B0 ≤ op then 0 else if op = 0x199 ∨ op = 0x1A7 ∨ op = 0x1A9 ∨ op = 0x1AB then 2 else 1

/-- The registers an instruction reads beside its guard, by its signature or entry (R67). -/
def regReads (op : Nat) (m : Meta) (f : Fields) (pb : PB) : List RegRef :=
  let d := f.d.toNat
  let a := f.a.toNat
  let b := f.b.toNat
  let c := f.c.toNat
  let bRefs := match c with
    | 0 => vecRefs b m.bw
    | 1 | 4 => scaRefs b m.bw
    | _ => []
  let lane := if f.c = 1 then [RegRef.sca b] else []
  match m.sig with
  | .s1 => bRefs
  | .s2 => (if scalarForm f then scaRefs a m.aw else vecRefs a m.aw) ++ bRefs ++
      (if 0x0D8 ≤ op ∧ op < 0x0E2 then [.vec d] else [])
  | .cp => (if scalarForm f then scaRefs a m.aw else vecRefs a m.aw) ++ bRefs
  | .s3 => vecRefs a m.aw ++ vecRefs b m.bw ++ vecRefs c m.dw
  | .sp => vecRefs a m.aw ++ vecRefs b m.bw ++ [.prd c]
  | _ =>
    if 0x0A0 ≤ op ∧ op < 0x0A6 then .vec a :: runRefs false d (faccCount op)
    else if 0x180 ≤ op ∧ op < 0x187 ∨ op = 0x18D then [if f.c = 1 then .sca b else .vec b]
    else if 0x188 ≤ op ∧ op < 0x18D then (if f.c = 1 then RegRef.sca b else .vec b) :: runRefs (f.c == 1) d (memWords op)
    else if 0x198 ≤ op ∧ op < 0x1C0 then .vec b :: runRefs false c (atomCount op)
    else if 0x1C0 ≤ op ∧ op < 0x1CA then [.vec a]
    else match op with
      | 0x01E => [.prd a, .prd b, .prd (d / 8)]
      | 0x01F => [.prd a]
      | 0x027 => [.sca a]
      | 0x100 => [.sca a, .sca b]
      | 0x108 => [.vec a, .vec b]
      | 0x109 | 0x10A => .vec a :: lane
      | 0x10B => .sca a :: lane
      | 0x10C => [.vec a, .vec b]
      | 0x10D => vecRefs a 64 ++ vecRefs b 64
      | 0x142 | 0x143 => if f.c = 1 then scaRefs a 64 else vecRefs a 64
      | 0x144 => scaRefs a 64
      | 0x158 | 0x159 | 0x15A => [.prd a]
      | 0x161 => .sca b :: scaRefs c (if f.d.getLsbD 3 then 64 else 32)
      | 0x190 => [.sca b]
      | 0x191 => .sca b :: runRefs false d (pbNreg pb)
      | 0x1D0 => runRefs true d 4
      | 0x1D1 => [.sca b, .sca c]
      | 0x1D8 => [.vec a]
      | 0x1DD => [.sca a]
      | 0x1E1 => scaRefs a 64
      | 0x1E2 | 0x1E3 => [.sca a]
      | _ => []

/-- The registers an instruction writes, at once or later (R67). -/
def regWrites (op : Nat) (m : Meta) (f : Fields) (pb : PB) : List RegRef :=
  let d := f.d.toNat
  match m.sig with
  | .s1 | .s2 => if scalarForm f then scaRefs d m.dw else vecRefs d m.dw
  | .cp => [.prd (d % 8)]
  | .s3 | .sp => vecRefs d m.dw
  | _ =>
    if 0x0A0 ≤ op ∧ op < 0x0A6 then runRefs false d (faccCount op)
    else if 0x180 ≤ op ∧ op < 0x187 then runRefs (f.c == 1) d (memWords op)
    else if 0x198 ≤ op ∧ op < 0x1C0 then runRefs false d (atomDest op)
    else match op with
      | 0x01E => [.prd (d % 8)]
      | 0x01F | 0x102 | 0x10A | 0x15A | 0x1D2 | 0x1DC => [.sca d]
      | 0x027 | 0x158 | 0x159 => [.prd d]
      | 0x108 | 0x109 | 0x10B | 0x10C | 0x10D | 0x1CA => [.vec d]
      | 0x141 | 0x143 | 0x1E0 => scaRefs d 64
      | 0x190 => runRefs false d (pbNreg pb)
      | 0x1DA => match f.c.toNat with
        | 0 => [.sca d]
        | 1 => scaRefs d 64
        | _ => [.vec d]
      | _ => []

/-- The predicate of the guard (R69, R74). -/
def guardRefs (f : Fields) : List RegRef := if f.pg = 7 then [] else [.prd f.pg.toNat]

/-- Whether every vector register named lies below `.regs` (R16). -/
def regsOk (op : Nat) (m : Meta) (f : Fields) (pb : PB) (n : Nat) : Bool :=
  (regReads op m f pb ++ regWrites op m f pb).all (fun x => match x with | .vec k => decide (k < n) | _ => true)

/-- Whether a pending write is to a register. -/
def RegWrite.hits (w : RegWrite) (x : RegRef) : Bool :=
  match w, x with
  | .vec n _ _, .vec k => n == k
  | .scalar n _, .sca k => n == k
  | .pred n _ _, .prd k => n == k && n != 7
  | .status _, .prd k => k == 6
  | _, _ => false

/-- The registers of a list that have a write pending in some results. -/
def pendingOn (ws : List (List RegWrite)) (refs : List RegRef) : Option RegRef :=
  refs.find? (fun x => ws.any (fun l => l.any (fun w => w.hits x)))

/-- INFO of STALLCHK (R236): the number, and its file in [9:8]. -/
def RegRef.info : RegRef → Word
  | .vec n => BitVec.ofNat 32 n
  | .sca n => BitVec.ofNat 32 (256 + n)
  | .prd n => BitVec.ofNat 32 (512 + n)

/-- What the scoreboard finds (R74 to R76). -/
inductive Hazard where
  | clear
  | wait
  | check (x : RegRef)
  deriving DecidableEq, Repr

/-- The scoreboard: STALLCHK, where checking is on, for a register that has a result in flight or an outstanding
variable-latency destination; a wait for a scalar that another sub-rope's result is due in (R75); a Choarnif instruction
waits for the fixed-latency results of its rope in every register that it names, in a translation in those that it reads (R375, R376).
DEDUCED: log entry 37. -/
def Issue.hazard (x : Issue) (reads writes : List RegRef) : Hazard :=
  let st := x.r.unitStrands x.unit
  let own := (x.r.inflight.filter (fun p => p.strands &&& st != 0)).map Pend.writes
  let other := (x.r.inflight.filter (fun p => p.strands &&& st == 0)).map Pend.writes
  let late := x.r.outst.map (fun o => o.writes ++ o.waits)
  let port := match x.f.enc with | .choarnif _ => true | .native _ => false
  let foreign := pendingOn other (reads.filter (fun y => match y with | .sca _ => true | _ => false))
  if foreign.isSome then .wait
  else if port && (pendingOn (x.r.inflight.map Pend.writes) (reads ++ if x.r.onNative then [] else writes)).isSome then .wait
  else if x.chksb then
    match pendingOn own reads with
    | some y => .check y
    | none =>
      match pendingOn late (reads ++ writes) with
      | some y => .check y
      | none => .clear
  else .clear

/-- The part of a register write that the lanes of `m` take; a scalar goes by the choice `sc`, so that a pair is taken whole
(R13). -/
def RegWrite.within (m : Word) (sc : Bool) : RegWrite → Option RegWrite
  | .vec n l v => if m.getLsbD l then some (.vec n l v) else none
  | .scalar n v => if sc then some (.scalar n v) else none
  | .pred n k v => if k &&& m = 0 then none else some (.pred n (k &&& m) v)
  | .status k => if k &&& m = 0 then none else some (.status (k &&& m))

/-- The lanes that a free choice selects, 32 draws from the n-th on (R4). -/
def choiceMask (n : Nat) : Word := maskOf (fun l => Config.freeChoice (n + l) % 2 == 1)

/-- With checking off, a read of an outstanding destination returns, lane by lane, the old or the delivered value (R76): a
free choice by lane for each operation whose destination is read, the old value where the lane has not been performed, so that nothing
is there to be delivered. The rope as it is read, and the free values drawn. DESIGN CHOICE: log entry 5. -/
def raceReads (reads : List RegRef) : List Outst → Rope × Nat → Rope × Nat
  | [], p => p
  | o :: os, (r, n) =>
    if (pendingOn [o.writes] reads).isSome then
      let got := o.writes.filterMap (RegWrite.within (choiceMask n) (Config.freeChoice (n + 32) % 2 == 1))
      raceReads reads os (r.writes got, n + 33)
    else raceReads reads os (r, n)

/-- What is left of a write of an outstanding operation once later writes have replaced it in the lanes of `m`, a scalar by the
choice `sc`. -/
def RegWrite.less (ws : List RegWrite) (m : Word) (sc : Bool) (w : RegWrite) : Option RegWrite :=
  let hit : Word := ws.foldl (fun a v =>
    match w, v with
    | .vec n l _, .vec n' l' _ => if n = n' ∧ l = l' then a ||| (1#32 <<< l) else a
    | .pred n _ _, .pred n' k _ => if n = n' then a ||| k else a
    | .pred n _ _, .status k => if n = 6 then a ||| k else a
    | .status _, .pred n k _ => if n = 6 then a ||| k else a
    | .status _, .status k => a ||| k
    | _, _ => a) 0
  let hits := match w with | .scalar n _ => ws.any (fun v => match v with | .scalar k _ => k == n | _ => false) | _ => hit != 0
  if hits then w.within (~~~(hit &&& m)) (!sc) else some w

/-- With checking off, a write to an outstanding destination leaves, lane by lane, its own value or the delivered one
(R76): a free choice by lane of the deliveries that are overtaken, in what the later instruction writes. -/
def raceWrites (ws : List RegWrite) : List Outst → Nat → List Outst × Nat
  | [], n => ([], n)
  | o :: os, n =>
    let cut := RegWrite.less ws (choiceMask n) (Config.freeChoice (n + 32) % 2 == 1)
    let hit := (o.writes ++ o.waits).any (fun w => RegWrite.less ws 0xFFFFFFFF true w != some w)
    let (l, k) := raceWrites ws os (if hit then n + 33 else n)
    ((if hit then { o with writes := o.writes.filterMap cut, waits := o.waits.filterMap cut } else o) :: l, k)

/-- Whether the privilege level may run an opcode (R87). -/
def privOk (op : Nat) (p : Priv) : Bool :=
  if 0x1E0 ≤ op ∧ op < 0x1E4 then p == .system
  else if 0x1DB ≤ op ∧ op < 0x1DE then p != .task
  else true

/-- The base fixed latency of an opcode, 0 where it has none. -/
def lamOf (op : Nat) : Nat := match metaOf op with | some m => m.lam | none => 0

/-- The opportunities for which a yielding unit may be skipped, with the one of its own issue and one for the end (R324). -/
def Issue.skip (x : Issue) : Nat := if x.f.y || x.op == 0x14A then 18 else 0

/-- The strands of a unit whose deferred lanes a transfer has moved to targets may not issue there before cycle `c` (R160). -/
def deferTo (old : List Strand) (c : Nat) : List Strand → List Strand
  | [] => []
  | t :: r =>
    (match old with
      | o :: _ => if o.stack.length < t.stack.length then { t with after := c } else t
      | [] => t) :: deferTo old.tail c r

/-- The cycles that a fenced array holds a quadrant for (R152): no instruction of it issues in them, and neither its instructions in
flight nor its applications advance. -/
def State.holdQuad (s : State) (c quad : Nat) : State :=
  let k := s.core c
  let n := rget 0 k.holds quad
  if n = 0 then s
  else
    let late (t : Nat) : Nat := if k.cyc < t then t + n else t
    let s0 : State := { s with arrays := s.arrays.map (fun ((i, a) : Nat × MapArray) =>
      (i, if i / 2 = quadKey c quad then { a with busy := late a.busy } else a)) }
    let s1 := s0.setCore c { k with
      holds := rset 0 k.holds quad 0
      held := tset k.held quad (k.cyc + 1 + n)
      flight := k.flight.map (fun e => if e.quad = quad ∧ k.cyc + 1 < e.till then { e with till := e.till + n } else e)
      f64 := match tget k.f64 quad with | some t => tset k.f64 quad (late t) | none => k.f64 }
    { s1 with ropes := s1.ropes.map (fun ((j, r) : Nat × Rope) =>
        (j, match tget s.wgs r.wg with
          | some w =>
            if w.core = c ∧ r.quad = quad then
              { r with
                inflight := r.inflight.map (fun p => { p with due := late p.due })
                sched := r.sched.map (fun (u, q) => (u, { q with readyAt := late q.readyAt }))
                strands := r.strands.map (fun t => { t with after := late t.after }) }
            else r
          | none => r)) }

/-- The issue of an instruction in its cycle (R73, R74, R117, R160, R325): its results in flight, its class on the core's
clock, its unit's lanes moved and the earliest next issue of each unit they form. -/
def Issue.commit (x : Issue) (s : State) (ws : List RegWrite) (extra : Nat) (nx : Next) : State :=
  match tget s.ropes x.k with
  | none => { s.spend x.c x.r.quad x.f.tc.toNat with turn := .choose }
  | some r =>
    let cyc := x.core.cyc
    let lam := lamOf x.op
    let st := x.r.unitStrands x.unit
    let stall := x.stall
    let r0 := if x.op = 0x1DB then r else r.used st
    let r1 := { r0 with inflight := if ws.isEmpty then r.inflight else r.inflight ++ [⟨cyc + lam + extra, st, ws, s.nextId⟩] }
    let r2 :=
      match nx with
      | .fall => (r1.moveUnit x.unit (fun _ => x.fall)).readyUnits st x.skip (fun _ => cyc + 1 + stall)
      | .move dest =>
        let target (l : Nat) : DWord := match lookupNat l dest with | some t => t | none => x.fall
        let taken := dest.map Prod.snd
        let moved := (r1.moveUnit x.unit target).readyUnits st x.skip
          (fun pc => cyc + (if taken.contains pc then 3 else 1) + stall)
        { moved with strands := deferTo r1.strands (cyc + 3 + stall) moved.strands }
      | .done => r1
    let r3 := if r.port && !r.onNative then { r2 with portWait := 4 } else r2
    let core := s.core x.c
    let dur := if lam = 0 then 1 + extra else lam + extra
    let core1 := { core with
      issued := core.issued ||| (1#4 <<< x.r.quad)
      flight := core.flight ++ [⟨x.f.tc.toNat, cyc, cyc + dur, x.r.quad⟩]
      f64 := if usesF64 x.op then tset core.f64 x.r.quad (cyc + 4) else core.f64 }
    let s1 := ((s.setRope x.k r3).setCore x.c core1).holdQuad x.c x.r.quad
    { s1.onWg x.r.wg (fun w => { w with pro := w.pro.map (· + 1) }) with turn := .choose }

/-- Whether a prologue may use an instruction (R256). -/
def proAllowed (op : Nat) (f : Fields) : Bool :=
  let sig := match metaOf op with | some m => m.sig | none => .e
  if op < 0x080 then
    if op == 0x028 || (decide (0x014 ≤ op) && decide (op < 0x018)) then true
    else if sig == .s1 || sig == .s2 || sig == .cp then scalarForm f else op == 0x01E || op == 0x01F || op == 0x027
  else if op = 0x184 ∨ op = 0x185 then f.c.getLsbD 0
  else if op = 0x1DA then f.a == 1 || f.a == 8 || f.a == 9
  else op == 0x160 || op == 0x140 || op == 0x14B || op == 0x14C

/-- The task fault that an instruction of a prologue raises instead of running (R256): ILL, or LIMIT past 65,536.
DEDUCED: log entry 43. -/
def Issue.proFault (x : Issue) : Option Nat :=
  match x.w.pro with
  | none => none
  | some n => if !proAllowed x.op x.f then some 1 else if 65536 ≤ n then some 2 else none

/-- The writes of other sub-ropes that have issued and not landed, in the registers that are not the sub-ropes' alone to wait for:
another sub-rope's lanes are read by the quadrant's issue order (R13, R143, R154). -/
def Rope.foreign (r : Rope) (st : BitVec 8) : List RegWrite :=
  (r.inflight.filter (fun p => p.strands &&& st == 0)).flatMap (fun p =>
    p.writes.filter (fun w => match w with | .scalar _ _ => false | _ => true))

/-- The rope as an instruction of a unit reads it (R76, R143), and the free values drawn. -/
def Issue.race (x : Issue) (s : State) (reads : List RegRef) : Rope × Nat :=
  raceReads reads x.r.outst (x.r.writes (x.r.foreign (x.r.unitStrands x.unit)), s.free)

/-- The instruction with its registers as it reads them (R76, R143), and ACTIVE by the guard it reads (R69). -/
def Issue.viewed (x : Issue) (s : State) (reads : List RegRef) : Issue :=
  let view := (x.race s reads).1
  { x with r := view, act := x.lanes &&& guardBits view x.f }

/-- The state with the free values drawn that those reads take (R76). -/
def Issue.drawn (x : Issue) (s : State) (reads : List RegRef) : State := { s with free := (x.race s reads).2 }

/-- The state after the instruction's effect with the outstanding deliveries that its writes have overtaken removed (R76). -/
def Issue.overtake (x : Issue) (s1 : State) (ws : List RegWrite) : State :=
  let (outst, n) := raceWrites ws x.r.outst s1.free
  if n = s1.free then s1 else
    { (s1.onRope x.k (fun r => { r with outst := outst ++ r.outst.drop x.r.outst.length })) with free := n }

/-- Whether the unit goes on with a WAITV that has issued (R197): it took its registers then. -/
def Issue.wakes (x : Issue) : Bool := x.op == 0x161 && (x.r.monitorOf x.unit).isSome

/-- The registers that an instruction reads as the envelope checks them: GCALL waits for its registers by itself (R230), and a WAITV that
goes on has read its own. -/
def Issue.readsOf (x : Issue) (op : Nat) (m : Meta) (f : Fields) (pb : PB) : List RegRef :=
  if x.wakes then [] else if op = 0x1D8 then guardRefs f else guardRefs f ++ regReads op m f pb

/-- Whether an operand-log entry is a WAITV's: no counted access of its rope has its number. -/
def LogEntry.isWaitv (e : LogEntry) (r : Rope) : Bool :=
  e.kind == 0 && r.outst.all (fun o => o.id != e.id)

/-- Whether an operand-log entry has a load or an ATOM. -/
def LogEntry.loads (e : LogEntry) : Bool := e.lanes.any (fun a => match a.act with
  | .load .. => true
  | .atom _ _ _ dst _ => dst.isSome
  | .store _ => false)

/-- Whether an operand-log entry is an acquire by its handle's kind (R280): a load or an ATOM that is not UNORDERED. -/
def LogEntry.acquires (e : LogEntry) : Bool := (hent e.handle).order != 2 && e.loads

/-- Whether a fence of the rope still holds back a unit's memory instructions (R198): until earlier accesses are complete, those that an
abandoned gate frame has left among them, and the WAITVs of its other units; for a release also MAPLDs and copy commands. -/
def State.fenced (s : State) (k : Nat) (r : Rope) (u : Nat) : Bool :=
  let top := max r.fence.acq r.fence.rel
  r.outst.any (fun o => o.tok.isNone && decide (o.id < top)) ||
  r.monitors.any (fun m => m.unit != u && decide (m.id < top)) ||
  s.log.any (fun e => e.rope == k && !e.orphan && e.unit != u && decide (e.id < top) && e.isWaitv r) ||
  s.log.any (fun e => e.rope == k && e.orphan && decide (e.id < (if e.loads then top else r.fence.rel))) ||
  r.stores.any (fun o => decide (o.id < r.fence.rel)) ||
  s.slots.any (fun (_, m) => match m.fill with
    | some l => l.rope == k && decide (l.id < r.fence.rel)
    | none => false) ||
  s.ctxs.any (fun (_, c) => c.rope == k && c.task.isNone && decide (c.id < r.fence.rel))

/-- The envelope of every rope instruction, in the order of R79: `.regs`, privilege, the F64 limit (R117), the scoreboard, and then
the meaning's own checks and effect. An instruction that is not ready leaves the state as it is, but for a translation it asks for;
a trap is taken. -/
def issue (op : Nat) (f : Fields) (pb : PB) (body : Issue → State → Act) (s : State) : Host.Outcome State Fault Refusal :=
  match s.issuing op f with
  | none => .fault .noIssuingUnit
  | some x =>
    match x.proFault with
    | some reason => .next { (s.raiseFault x.w 7 reason 0 none).killWg x.r.wg with turn := .choose }
    | none =>
    match metaOf op with
    | none => .next { x.raise s (x.trap 1 1) with turn := .choose }
    | some m =>
      if !regsOk op m f pb x.r.regs then .next { x.raise s (x.trap 1 1) with turn := .choose }
      else if !privOk op x.r.priv then .next { x.raise s (x.trap 1 2) with turn := .choose }
      else if usesF64 op && decide (x.core.cyc < (tget x.core.f64 x.r.quad).getD 0) then .next s
      else
        let reads := x.readsOf op m f pb
        let writes := regWrites op m f pb
        match x.hazard reads writes with
        | .wait => .next s
        | .check y => .next { x.raise s (x.trap 3 0 y.info) with turn := .choose }
        | .clear =>
          match body (x.viewed s reads) (x.drawn s reads) with
          | .wait => .next s
          | .hold s1 => .next { s1 with turn := .choose }
          | .trap q => .next { x.raise s q with turn := .choose }
          | .go s1 ws extra nx => .next ((x.viewed s reads).commit (x.overtake s1 ws) ws extra nx)

end Sys2Proof.Machine
end

