-- ==== Sys2Proof/Machine/Mould.lean ====
section
/-! DEFINITION. The mould of the arithmetic instructions (R66, R92, R115): sources in every lane, a result per element,
flags and status, and the writes of D. -/

namespace Sys2Proof.Machine

/-- A result element: its bits, its flags, and whether it raises status by a condition that no flag selects. -/
structure ER where
  v : Nat
  fl : Flags
  st : Bool
  deriving DecidableEq, Repr

/-- A result without flags or status. -/
def ER.of (v : Nat) : ER := ⟨v, 0, false⟩

/-- A rounded result. -/
def ER.fl2 (p : Nat × Flags) : ER := ⟨p.1, p.2, false⟩

/-- No parameter block. -/
def pb0 : PB := ⟨0, 0, 0, 0⟩

/-- The type operand A is read in: the 32-bit index of LEA.N64 (R112), else the source type. -/
def tyA (op : Nat) (m : Meta) : Ty := if op = 0x02D then .n32 else m.ty

/-- Widened mode (R92, R115): A and B use select-and-widen. -/
def isWidened (m : Meta) (f : Fields) : Bool := decide (m.ty.width < 32) && modSel (f.cw m.ty).modB == 1

/-- Element positions of a source operand. -/
def elemCount (m : Meta) (f : Fields) : Nat := if isWidened m f ∨ 32 ≤ m.ty.width then 1 else 32 / m.ty.width

/-- The 32-bit type of the same kind (R92, R99, R115). -/
def wideTy (t : Ty) : Ty := if t.isFloat then .f32 else if t.isSigned then .s32 else .n32

/-- The type operand C is read in: whole in widened mode and for IDP (R92, R99, R115). -/
def tyC (op : Nat) (m : Meta) (f : Fields) : Ty :=
  if isWidened m f ∨ (0x04C ≤ op ∧ op < 0x04F) then wideTy m.ty else m.ty

/-- The occupancy row of a source operand (R148). -/
def rowOf (m : Meta) (f : Fields) (w : Nat) : Nat :=
  if w = 64 then 5 else if m.ty.width = 64 then 4 else dataRow m.ty (isWidened m f)

/-- Operand A in every lane (R62, R66, R142). -/
def Issue.srcA (x : Issue) (s : State) (m : Meta) : OpVals :=
  let c := x.f.cw m.ty
  x.operand s x.f.mae x.f.ma.toNat (rowOf m x.f m.aw) (elemCount m x.f) false (modSx c.modA) c.mz
    (fun l => readElems (tyA x.op m) c.modA
      (if m.sig == .s3 || m.sig == .sp then vecRaw x.r m.aw x.f.a.toNat l else rawA x.r m x.f l))

/-- Operand B in every lane, its registers named directly (signatures S3 and SP). -/
def Issue.srcBvec (x : Issue) (s : State) (m : Meta) : OpVals :=
  let c := x.f.cw m.ty
  x.operand s x.f.mbe x.f.mb.toNat (rowOf m x.f m.bw) (elemCount m x.f) false (modSx c.modB) c.mz
    (fun l => readElems m.ty c.modB (vecRaw x.r m.bw x.f.b.toNat l))

/-- Operand B in every lane, by its FORM (R66). -/
def Issue.srcB (x : Issue) (s : State) (m : Meta) : OpVals :=
  let c := x.f.cw m.ty
  x.operand s x.f.mbe x.f.mb.toNat (rowOf m x.f m.bw) (elemCount m x.f) false (modSx c.modB) c.mz
    (fun l => readElems (tyB m x.f) c.modB (rawB x.r m x.f l))

/-- A conversion's source in every lane (R125). An immediate of a 64-bit source is extended by R66; R113 is of group 2. -/
def Issue.srcCvt (x : Issue) (s : State) (m : Meta) : OpVals :=
  let c := x.f.cw m.ty
  x.operand s x.f.mbe x.f.mb.toNat (rowOf m x.f m.bw) 1 false (modSx c.modB) c.mz
    (fun l => readCvt m.ty c.modB (rawB x.r m x.f l))

/-- Operand C of S3 in every lane (never mapped). -/
def Issue.srcC (x : Issue) (m : Meta) : OpVals :=
  let c := x.f.cw m.ty
  lanes32.map (fun l => (readElems (tyC x.op m x.f) c.modC (vecRaw x.r m.dw x.f.c.toNat l)).map (fun e => (e, (0 : Flags))))

/-- An element of an operand in a lane, 0 where there is none. -/
def OpVals.at_ (o : OpVals) (l e : Nat) : EV × Flags := (o.getD l []).getD e (.i 0, 0)

/-- One lane's result: `n` elements of `w` bits, each from the elements of its sources at that position. -/
def laneResult (w n : Nat) (g : EV → EV → EV → ER) (a b c : OpVals) (l : Nat) : ER :=
  (List.range n).foldl (fun acc e =>
    let x := a.at_ l e
    let y := b.at_ l e
    let z := c.at_ l e
    let r := g x.1 y.1 z.1
    ⟨acc.v + r.v % 2 ^ w * 2 ^ (w * e), acc.fl ||| x.2 ||| y.2 ||| z.2 ||| r.fl, acc.st || r.st⟩) ⟨0, 0, false⟩

/-- The writes of a vector destination, a pair for 64 bits (R35). -/
def vecWrite (dw d l v : Nat) : List RegWrite :=
  if dw = 64 then [.vec d l (BitVec.ofNat 32 v), .vec (d + 1) l (BitVec.ofNat 32 (v / 2 ^ 32))] else [.vec d l (BitVec.ofNat 32 v)]

/-- The writes of a scalar destination, a pair for 64 bits (R17). -/
def scaWrite (dw d v : Nat) : List RegWrite :=
  if dw = 64 then [.scalar d (BitVec.ofNat 32 v), .scalar (d + 1) (BitVec.ofNat 32 (v / 2 ^ 32))] else [.scalar d (BitVec.ofNat 32 v)]

/-- The width of a result element: 32 bits in widened mode (R92), else the source type's. -/
def resWidth (m : Meta) (f : Fields) : Nat := if isWidened m f then 32 else m.ty.width

/-- The end of an arithmetic instruction: D written in the lanes of ACTIVE, or once in a scalar form when ACTIVE is
non-empty (R69). -/
def Issue.writeD (x : Issue) (s : State) (m : Meta) (res : Nat → ER) (extra : Nat) : Act :=
  let d := x.f.d.toNat
  if x.act = 0 then .go s [] extra .fall
  else if scalarForm x.f && (m.sig == .s1 || m.sig == .s2) then
    let r := res 0
    x.finish s (fun _ => r.fl) (fun _ => r.st) (scaWrite m.dw d r.v) extra
  else
    x.finish s (fun l => (res l).fl) (fun l => (res l).st) (x.active.flatMap (fun l => vecWrite m.dw d l (res l).v)) extra

/-- The map stage of an arithmetic instruction (R70, R139, R150). -/
def Issue.mapIn (x : Issue) (s : State) (m : Meta) : Except Act (State × Nat) :=
  x.mapStageIn s (rowOf m x.f m.aw) (rowOf m x.f m.bw) (!m.ty.isFloat) (!m.ty.isFloat) false

/-- An instruction of signature S2 (R66): `g` forms an element of the result from those of A and B. -/
def alu2 (op : Nat) (f : Fields) (g : Meta → CW → EV → EV → ER) (s : State) : Host.Outcome State Fault Refusal :=
  issue op f pb0 (fun x s =>
    match metaOf op with
    | none => .wait
    | some m =>
      match x.mapIn s m with
      | .error a => a
      | .ok (s1, extra) =>
        let a := x.srcA s m
        let b := x.srcB s m
        x.writeD s1 m (laneResult (resWidth m f) (elemCount m f) (fun u v _ => g m (f.cw m.ty) u v) a b []) extra) s

/-- An instruction of signature S1 (R66): `g` forms an element of the result from that of B. -/
def alu1 (op : Nat) (f : Fields) (g : Meta → CW → EV → ER) (s : State) : Host.Outcome State Fault Refusal :=
  issue op f pb0 (fun x s =>
    match metaOf op with
    | none => .wait
    | some m =>
      match x.mapIn s m with
      | .error a => a
      | .ok (s1, extra) =>
        let b := x.srcB s m
        x.writeD s1 m (laneResult (resWidth m f) (elemCount m f) (fun _ v _ => g m (f.cw m.ty) v) [] b []) extra) s

/-- An instruction of signature S3 (R67): `g` forms an element of the result from those of A, B and C. -/
def alu3 (op : Nat) (f : Fields) (g : Meta → CW → EV → EV → EV → ER) (s : State) : Host.Outcome State Fault Refusal :=
  issue op f pb0 (fun x s =>
    match metaOf op with
    | none => .wait
    | some m =>
      match x.mapIn s m with
      | .error a => a
      | .ok (s1, extra) =>
        let a := x.srcA s m
        let b := x.srcBvec s m
        let c := x.srcC m
        x.writeD s1 m (laneResult (resWidth m f) (elemCount m f) (fun u v w => g m (f.cw m.ty) u v w) a b c) extra) s

/-- An instruction of signature CP (R68): `g` gives the condition on the elements of A and B with its flags; the
predicate's bit is written in the lanes of ACTIVE. -/
def aluCmp (op : Nat) (f : Fields) (g : Nat → EV → EV → Bool × Flags) (s : State) : Host.Outcome State Fault Refusal :=
  issue op f pb0 (fun x s =>
    match metaOf op with
    | none => .wait
    | some m =>
      match x.mapIn s m with
      | .error a => a
      | .ok (s1, extra) =>
        let a := x.srcA s m
        let b := x.srcB s m
        let cc := f.d.toNat / 8 % 8
        let r (l : Nat) : Bool × Flags :=
          let u := a.at_ l 0
          let v := b.at_ l 0
          let c := g cc u.1 v.1
          (c.1, c.2 ||| u.2 ||| v.2)
        if x.act = 0 then .go s1 [] extra .fall
        else
          x.finish s1 (fun l => (r l).2) (fun _ => false) [.pred (f.d.toNat % 8) x.act (maskOf (fun l => (r l).1))] extra) s

/-- An instruction of signature SP (R111): A where the predicate's bit is 1, else B. -/
def aluSel (op : Nat) (f : Fields) (s : State) : Host.Outcome State Fault Refusal :=
  issue op f pb0 (fun x s =>
    match metaOf op with
    | none => .wait
    | some m =>
      match x.mapIn s m with
      | .error a => a
      | .ok (s1, extra) =>
        let a := x.srcA s m
        let b := x.srcBvec s m
        let p := x.r.pr (f.c.toNat % 8)
        let pick (l : Nat) : ER :=
          let u := a.at_ l 0
          let v := b.at_ l 0
          ⟨wrapInt m.dw (if p.getLsbD l then u.1.int else v.1.int), u.2 ||| v.2, false⟩
        x.writeD s1 m pick extra) s

/-- A conversion (R125): `g` forms the result from the source element. -/
def aluCvt (op : Nat) (f : Fields) (g : Meta → CW → EV → ER) (s : State) : Host.Outcome State Fault Refusal :=
  issue op f pb0 (fun x s =>
    match metaOf op with
    | none => .wait
    | some m =>
      match x.mapIn s m with
      | .error a => a
      | .ok (s1, extra) =>
        let b := x.srcCvt s m
        x.writeD s1 m (laneResult 64 1 (fun _ v _ => g m (f.cw m.ty) v) [] b []) extra) s

end Sys2Proof.Machine
end

