-- ==== Sys2Proof/Machine/Cross.lean ====
section
/-! DEFINITION. The meanings of the map-slot instructions (R133 to R140), the cross-lane moves (R154) and MATCH (R172). -/

namespace Sys2Proof.Machine

/-- The lowest byte of [lo, lo + n) that lies outside a scratchpad of `size` bytes. -/
def outside (size lo n : Nat) : Option Nat := if n ≠ 0 ∧ size < lo + n then some (max lo size) else none

/-- The least of two optional addresses. -/
def optMin : Option Nat → Option Nat → Option Nat
  | some a, some b => some (min a b)
  | some a, none => some a
  | none, b => b

/-- A format block, as its eight words. -/
def blockWord (fb : List Byte) (k : Nat) : Nat := leNat ((fb.drop (4 * k)).take 4)

/-- Whether a format block keeps to R130 and R131. -/
def blockOk (fb : List Byte) : Bool :=
  let w0 := blockWord fb 0
  let wf := w0 % 32
  let blk := w0 / 32 % 4
  let stride := blockWord fb 2
  wfmtOk wf && blk != 3 && (blk == 0 || decide (0x12 ≤ wf)) && (bitOf w0 7 || bits w0 11 8 == 0) && bits w0 31 12 == 0 &&
    (blockWord fb 1 == 0 || decide (8 ≤ wf)) && (stride == 0 || (stride % 4 == 0 && decide (wfmtRow wf ≤ stride))) &&
    decide (stride < 65536) && ([3, 4, 5, 6, 7] : List Nat).all (fun k => blockWord fb k == 0)

/-- The name and owner checks of a map instruction (R134, R137, R138), with the slot's key. -/
def Issue.slotCheck (x : Issue) (s : State) (name : Nat) : Except Act Nat :=
  match x.slotKey name with
  | none => .error (.trap (x.trap 7 1 (BitVec.ofNat 32 name)))
  | some k => if (s.slot k).owner != x.r.did then .error (.trap (x.trap 6 3)) else .ok k

/-- Whether a use of a slot of the rope's domain waits until it has left PENDING (R135), whatever its ACTIVE is (R69). -/
def Issue.slotWaits (x : Issue) (s : State) (name : Nat) : Bool :=
  match x.slotCheck s name with
  | .ok k => (s.slot k).state == .pending
  | .error _ => false

/-- The load that a MAPLD with weight address `wa`, scale bytes and stride by its format block starts (R132, R134). -/
def fillOf (x : Issue) (id wa : Nat) (fb : List Byte) (due : Nat) : MapFill :=
  let w0 := blockWord fb 0
  let wf := w0 % 32
  let row := wfmtRow wf
  let stride := if blockWord fb 2 = 0 then row else blockWord fb 2
  ⟨id, wa, stride, row, blockWord fb 1, wfmtScales wf (w0 / 32 % 4), BitVec.ofNat 32 w0, x.r.wg, x.k, due, false, x.w.pinned, Mark.new (some (.rope x.k)) id⟩

/-- The lowest weight or scale byte of a load outside the scratchpad (R134). -/
def MapFill.outside (m : MapFill) (size : Nat) : Option Nat :=
  optMin ((List.range 32).foldl (fun a i => optMin a (Machine.outside size (m.wa + i * m.stride) m.row)) none)
    (Machine.outside size m.sa (32 * m.sb))

/-- Whether a load reads a byte that a write not ordered before its issue has written (R288). -/
def MapFill.unordered (m : MapFill) (w : Workgroup) : Bool :=
  w.marks.any (fun (a, l) => m.reads a 1 && l.any (fun k => !k.before (.rope m.rope) m.id))

/-- Whether accesses of a rope wait in the operand log that its MAPLDs stay behind: acquires, before which it reads nothing (R280, R284),
and those of the scratchpad, whose writes the load sees (R288). DESIGN CHOICE: log entry 8. -/
def State.mapldBehind (s : State) (k : Nat) : Bool :=
  s.log.any (fun e => e.rope == k && e.kind != 3 && (e.acquires || (hent e.handle).space == spScratch))

/-- Whether the pages of a format block are pinned (R298): both at once where it lies in two, the second one where the domain has a
single frame. -/
def Issue.blockPinned (x : Issue) (fba : Nat) : Bool :=
  x.w.pinnedAt (if x.core.frames x.r.dslot = 1 then fba + 31 else fba) (if x.core.frames x.r.dslot = 1 then 1 else 32)

/-- MAPLD (R134, R198, R280, R288). -/
def execMapld (f : Fields) (s : State) : Host.Outcome State Fault Refusal :=
  issue 0x100 f pb0 (fun x s =>
    if x.act = 0 then (if x.slotWaits s (f.d.toNat % 16) then .wait else .go s [] 0 .fall)
    else if s.fenced x.k x.r x.unit || s.mapldBehind x.k then .wait
    else
      let name := f.d.toNat % 16
      let fba := (x.r.sr f.b.toNat).toNat
      let wa := (x.r.sr f.a.toNat).toNat
      let info : Word := BitVec.ofNat 32 name
      match x.slotCheck s name with
      | .error a => a
      | .ok k =>
        if (s.slot k).state = .pending then .wait
        else if fba % 4 ≠ 0 ∨ wa % 4 ≠ 0 then .trap (x.trap 7 3 info)
        else if x.r.frame.isSome then .trap (x.trap 6 2)
        else
          match outside x.w.scratchSize fba 32 with
          | some o => .trap ⟨4, 3, x.act, 0, BitVec.ofNat 32 o, 0⟩
          | none =>
            if !x.blockPinned fba then .wait
            else
            let fb := s.readScratch x.r.wg fba 32
            if !blockOk fb then .trap (x.trap 7 3 info)
            else
              let (delay, s1) := s.drawDelay
              let m := fillOf x s1.nextId wa fb (x.core.cyc + 1 + delay)
              match m.outside x.w.scratchSize with
              | some o => .trap ⟨4, 3, x.act, 0, BitVec.ofNat 32 o, 0⟩
              | none =>
                .go ({ s1 with nextId := s1.nextId + 1 }.setSlot k { s.slot k with state := .pending, fill := some { m with raced := m.unordered x.w } })
                  [] 0 .fall) s

/-- MAPCLR (R137). -/
def execMapclr (f : Fields) (s : State) : Host.Outcome State Fault Refusal :=
  issue 0x101 f pb0 (fun x s =>
    if x.act = 0 then (if x.slotWaits s (f.d.toNat % 16) then .wait else .go s [] 0 .fall)
    else
      match x.slotCheck s (f.d.toNat % 16) with
      | .error a => a
      | .ok k =>
        if (s.slot k).state = .pending then .wait
        else .go (s.setSlot k (MapSlot.empty x.r.did)) [] 0 .fall) s

/-- What MAPQ reads of a slot (R138). -/
def mapqWord (m : MapSlot) : Nat :=
  match m.state with
  | .pending => 1
  | .valid => 2 + 8 * m.wfmt + 256 * m.blk + (if m.succe then 1024 else 0) + 2048 * m.succ
  | .failed => 4
  | .empty => 0

/-- MAPQ (R138). -/
def execMapq (f : Fields) (s : State) : Host.Outcome State Fault Refusal :=
  issue 0x102 f pb0 (fun x s =>
    if x.act = 0 then (if f.c.getLsbD 0 && x.slotWaits s (f.a.toNat % 16) then .wait else .go s [] 0 .fall)
    else
      match x.slotCheck s (f.a.toNat % 16) with
      | .error a => a
      | .ok k =>
        if f.c.getLsbD 0 && (s.slot k).state == .pending then .wait
        else .go s [.scalar f.d.toNat (BitVec.ofNat 32 (mapqWord (s.slot k)))] 0 .fall) s

/-- Src(j) of R154. -/
def Issue.srcLane (x : Issue) (n j : Nat) : Word := if x.r.present.getLsbD j then x.r.vr n j else 0

/-- The lane number k of R154. -/
def Issue.laneNum (x : Issue) : Nat := if x.f.c.getLsbD 0 then (x.r.sr x.f.b.toNat).toNat % 32 else x.f.b.toNat % 32

/-- SHFL (R154). -/
def execShfl (f : Fields) (s : State) : Host.Outcome State Fault Refusal :=
  issue 0x108 f pb0 (fun x s =>
    .go s (x.active.map (fun l =>
      .vec f.d.toNat l (x.srcLane f.a.toNat ((x.r.vr f.b.toNat l).toNat % 32)))) 0 .fall) s

/-- BCAST (R154). -/
def execBcast (f : Fields) (s : State) : Host.Outcome State Fault Refusal :=
  issue 0x109 f pb0 (fun x s =>
    .go s (x.active.map (fun l => .vec f.d.toNat l (x.srcLane f.a.toNat x.laneNum))) 0 .fall) s

/-- RDLANE (R154). -/
def execRdlane (f : Fields) (s : State) : Host.Outcome State Fault Refusal :=
  issue 0x10A f pb0 (fun x s =>
    .go s (if x.act = 0 then [] else [.scalar f.d.toNat (x.srcLane f.a.toNat x.laneNum)]) 0 .fall) s

/-- WRLANE (R154). -/
def execWrlane (f : Fields) (s : State) : Host.Outcome State Fault Refusal :=
  issue 0x10B f pb0 (fun x s =>
    .go s (if x.act.getLsbD x.laneNum then [.vec f.d.toNat x.laneNum (x.r.sr f.a.toNat)] else []) 0 .fall) s

/-- The lanes of ACTIVE whose pattern in register `a` is that of register `b` in lane `l` (R172). -/
def Issue.matchMask (x : Issue) (w l : Nat) : Word :=
  maskOf (fun j => x.act.getLsbD j && vecRaw x.r w x.f.a.toNat j == vecRaw x.r w x.f.b.toNat l)

/-- MATCH of `w`-bit patterns (R172). -/
def matchOp (op w : Nat) (f : Fields) (s : State) : Host.Outcome State Fault Refusal :=
  issue op f pb0 (fun x s => .go s (x.active.map (fun l => .vec f.d.toNat l (x.matchMask w l))) 0 .fall) s

/-- MATCH.N32 (R172). -/
def execMatchN32 (f : Fields) (s : State) : Host.Outcome State Fault Refusal := matchOp 0x10C 32 f s
/-- MATCH.N64 (R172). -/
def execMatchN64 (f : Fields) (s : State) : Host.Outcome State Fault Refusal := matchOp 0x10D 64 f s

end Sys2Proof.Machine
end

