-- ==== Sys2Proof/Machine/Control.lean ====
section
/-! DEFINITION. The meanings of the control instructions (R157 to R173), WAITC (R196) and the fences (R198). -/

namespace Sys2Proof.Machine

/-- OFF24 or OFF4 of signature BR as a signed distance in bytes (R157, R373). -/
def brOffset (f : Fields) : Int :=
  (f.c ++ (f.b ++ f.a)).toInt * (match f.enc with | .native _ => 8 | .choarnif _ => 4)

/-- An address and a signed distance, modulo 2^64. -/
def addInt (a : DWord) (d : Int) : DWord := a + BitVec.ofInt 64 d

/-- The place of a target's fault among the checks of R79 and R301: handle, range, translation, ENTRY. -/
def targetRank (c : FetchFault) : Nat :=
  match c.1 with
  | 5 => 0
  | 4 => 1
  | 2 => 3
  | _ => 2

/-- The trap of the first failing check among faulting targets of lanes (R160), with the lanes that meet its cause (R396). -/
def Issue.targetsTrap (x : Issue) (perLane : Bool) (bad : List (Nat × FetchFault)) : Option TrapReq :=
  let first := bad.foldl (fun (a : Option (Nat × FetchFault)) b =>
    match a with
    | none => some b
    | some p => if targetRank b.2 < targetRank p.2 then some b else some p) none
  match first with
  | none => none
  | some (_, c) =>
    let lanes := if perLane then maskOf (fun j => bad.any (fun b => b.1 == j && b.2.1 == c.1)) else x.act
    some ⟨c.1, c.2.1, lanes, c.2.2.1, c.2.2.2.1, c.2.2.2.2⟩

/-- An act that moves lanes, once their targets have passed the checks (R160): a translation that a target lacks waits for the Herey
controller first (R306). -/
def Issue.toTargets (x : Issue) (s : State) (perLane : Bool) (dest : List (Nat × DWord)) (act : Act) : Act :=
  let res := dest.map (fun (l, pc) => (l, s.targetAt x.k x.unit x.r pc))
  let miss := res.findSome? (fun (_, z) => match z with | .miss rs va => some (rs, va) | _ => none)
  let asked := res.any (fun (_, z) => z == .asked)
  match miss, asked, x.targetsTrap perLane (res.filterMap (fun (l, z) => match z with | .fault q => some (l, q) | _ => none)) with
  | some (rs, va), _, _ => .hold (s.askFetch x.k x.unit x.r rs va)
  | none, true, _ => .wait
  | none, false, some t => .trap t
  | none, false, none => act

/-- A transfer of the lanes of ACTIVE to their targets with its writes (R158 to R160). -/
def Issue.transfer (x : Issue) (s : State) (perLane : Bool) (target : Nat → DWord) (ws : List RegWrite) : Act :=
  let dest := x.active.map (fun l => (l, target l))
  x.toTargets s perLane dest (if x.act = 0 then .go s [] 0 .fall else .go s ws 0 (.move dest))

/-- The link pair of a call (R158). -/
def Issue.link (x : Issue) : List RegWrite := scaWrite 64 x.f.d.toNat x.fall.toNat

/-- BRA (R158). -/
def execBra (f : Fields) (s : State) : Host.Outcome State Fault Refusal :=
  issue 0x140 f pb0 (fun x s => x.transfer s false (fun _ => addInt x.pc (brOffset f)) []) s

/-- CALL (R158). -/
def execCall (f : Fields) (s : State) : Host.Outcome State Fault Refusal :=
  issue 0x141 f pb0 (fun x s => x.transfer s false (fun _ => addInt x.pc (brOffset f)) x.link) s

/-- T(L) of R159. -/
def Issue.target (x : Issue) (l : Nat) : DWord :=
  if x.f.c.getLsbD 0 then x.r.spair x.f.a.toNat else x.r.vpair x.f.a.toNat l

/-- JMPI (R159). -/
def execJmpi (f : Fields) (s : State) : Host.Outcome State Fault Refusal :=
  issue 0x142 f pb0 (fun x s => x.transfer s (!f.c.getLsbD 0) x.target []) s

/-- CALLI (R159). -/
def execCalli (f : Fields) (s : State) : Host.Outcome State Fault Refusal :=
  issue 0x143 f pb0 (fun x s => x.transfer s (!f.c.getLsbD 0) x.target x.link) s

/-- RET (R159). -/
def execRet (f : Fields) (s : State) : Host.Outcome State Fault Refusal :=
  issue 0x144 f pb0 (fun x s => x.transfer s false (fun _ => x.r.spair f.a.toNat) []) s

/-! SPLICE and EXIT. -/

/-- The strand phase of SPLICE at address `a` (R164). -/
def Strand.splice (t : Strand) (a : DWord) (len : Nat) (compact : Bool) : Strand :=
  let parked := t.parked ||| t.active
  let t1 := { t with joinPc := a, joinLen := len, compact := compact }
  match t.stack with
  | (pc, m) :: rest => { t1 with parked := parked, stack := rest, active := m, pc := pc }
  | [] => { t1 with parked := 0, active := parked, waiting := true }

/-- The first cycle in which no deferred lanes of a unit's strands are held back any more (R160). -/
def Rope.afterOf (r : Rope) (u : Nat) : Nat := (r.strands.filter (Strand.inUnit u)).foldl (fun a t => max a t.after) 0

/-- The strands of a set that wait at SPLICE may not go on before cycle `c`, when the STALL of what has made them wait has passed (R73). -/
def stallWait (st : BitVec 8) (c : Nat) : Nat → List Strand → List Strand
  | _, [] => []
  | i, t :: r => (if st.getLsbD i && t.waiting then { t with after := max c t.after } else t) :: stallWait st c (i + 1) r

/-- The rope after a change to the strands of a unit that moves them itself: units re-formed (R162), ready by R73, and not before
lanes that a transfer has deferred may issue (R160). -/
def Issue.settle (x : Issue) (r : Rope) : Rope :=
  let st := x.r.unitStrands x.unit
  let r0 := r.regroup st
  let r1 := { r0 with strands := stallWait st (x.core.cyc + 1 + x.stall) 0 r0.strands }
  (r1.units.filter (fun u => r1.unitStrands u &&& st != 0)).foldl (fun (t : Rope) u =>
    t.setReady u (max (x.core.cyc + 1 + x.stall) (t.afterOf u)) x.skip) r1

/-- Whether a rope may become a candidate: LDC, STC, CPC 0 and no token PENDING (R168). -/
def Rope.countsClear (r : Rope) : Bool :=
  r.ldc == 0 && r.stc == 0 && r.cpc == 0 && r.k.all (fun k => k.2.state != .pending)

/-- SPLICE and SPLICE.C (R164, R165, R168): a whole rope goes on at once, for SPLICE.C as one that is to be a candidate; it has
spliced since a forced save (R33). -/
def spliceOp (op : Nat) (compact : Bool) (f : Fields) (s : State) : Host.Outcome State Fault Refusal :=
  issue op f pb0 (fun x s =>
    match tget s.ropes x.k with
    | none => .wait
    | some r =>
      if r.whole then
        let cand := if compact then some (x.pc, if r.countsClear then x.core.cyc + 1 else 0) else r.cand
        .go (s.setRope x.k { r with cand := cand, forced := false }) [] 0 .fall
      else
        let r1 := { r with strands := mapUnit x.unit (fun _ t => t.splice x.pc x.len compact) 0 r.strands }
        .go (s.setRope x.k (x.settle r1)) [] 0 .done) s

/-- SPLICE (R164, R165). -/
def execSplice (f : Fields) (s : State) : Host.Outcome State Fault Refusal := spliceOp 0x148 false f s
/-- SPLICE.C (R168). -/
def execSpliceC (f : Fields) (s : State) : Host.Outcome State Fault Refusal := spliceOp 0x149 true f s

/-- A strand after the lanes of `m` retire; the others go on at `fall` (R166). -/
def Strand.exit (t : Strand) (m : BitVec 4) (fall : DWord) : Strand :=
  let gone := t.active &&& m
  let left := t.active &&& ~~~m
  let t1 := { t with retired := t.retired ||| gone, active := left }
  if left != 0 then { t1 with pc := fall }
  else
    match t.stack with
    | (pc, k) :: rest => { t1 with stack := rest, active := k, pc := pc }
    | [] => if t.parked = 0 then t1 else { t1 with active := t.parked, parked := 0, waiting := true }

/-- The four lanes of strand `i` in a lane mask. -/
def strandLanes (m : Word) (i : Nat) : BitVec 4 := (m >>> (4 * i)).setWidth 4

/-- EXIT of the lanes of a mask, by a unit of a rope: the arrivals at barriers are tested again, and a rope without
unretired lanes ends (R166, R170). -/
def State.exitLanes (s : State) (x : Issue) (m : Word) : State :=
  match tget s.ropes x.k with
  | none => s
  | some r =>
    let r1 := { r with strands := mapUnit x.unit (fun i t => t.exit (strandLanes m i) x.fall) 0 r.strands }
    let s1 := s.setRope x.k (x.settle r1)
    if r1.ended then s1.endRope x.k else s1.barRetest x.k

/-- EXIT (R166); in a gate frame GATE, reason EXIT, whatever lanes the guard leaves (R231), but for the guard that empties ACTIVE by
itself (R69). DEDUCED: log entry 56. DEDUCED: log entry 41. -/
def execExit (f : Fields) (s : State) : Host.Outcome State Fault Refusal :=
  issue 0x14C f pb0 (fun x s =>
    if f.pg = 7 ∧ f.pgn then .go s [] 0 .fall
    else if x.r.frame.isSome then .trap (x.trap 14 8 (match x.r.frame with | some fr => fr.gate.setWidth 32 | none => 0))
    else .go (s.exitLanes x x.act) [] 0 .done) s

/-- YIELD (R173). -/
def execYield (f : Fields) (s : State) : Host.Outcome State Fault Refusal := issue 0x14A f pb0 (fun _ s => .go s [] 0 .fall) s
/-- NOP (R173). -/
def execNop (f : Fields) (s : State) : Host.Outcome State Fault Refusal := issue 0x14B f pb0 (fun _ s => .go s [] 0 .fall) s

/-! Barriers. -/

/-- The unit's strands move to the fall-through and its next issue waits, if `wait` says so, for a barrier phase, `late` where some of
them arrive in the next; a phase that the arrival itself completed leaves 2 cycles (R170). -/
def Issue.afterBarrier (x : Issue) (s : State) (late : Bool) (wait : Option (Nat × Bool × Bool)) : Act :=
  match tget s.ropes x.k with
  | none => .wait
  | some r =>
    let r1 := x.settle (r.moveUnit x.unit (fun _ => x.fall))
    match wait with
    | none => .go (s.setRope x.k r1) [] 0 .done
    | some (b, phase, sync) =>
      let past := match tget s.wgs r.wg with | some w => (w.barrier b).phase != phase | none => true
      let st := x.r.unitStrands x.unit
      let sched := r1.units.foldl (fun t u =>
        if r1.unitStrands u &&& st != 0 then
          let q := r1.schedOf u
          tset t u (if past then
            { q with readyAt := max q.readyAt (x.core.cyc + 2), blocked := waitsNext (some (b, phase, sync)) b phase late }
          else { q with blocked := some (b, phase, sync) })
        else t) r1.sched
      let s1 := if past then s.waited r.wg x.k b else s
      .go (s1.setRope x.k { r1 with sched := sched }) [] 0 .done

/-- The strands of the unit that have already arrived in the current phase (R170). -/
def Issue.arrived (x : Issue) (b : Nat) : BitVec 8 := (x.r.bar b).strands &&& x.r.unitStrands x.unit

/-- A barrier instruction's body, outside a gate frame (R231). -/
def barOp (op : Nat) (f : Fields) (body : Issue → Nat → Barrier → State → Act) (s : State) : Host.Outcome State Fault Refusal :=
  issue op f pb0 (fun x s =>
    let b := f.b.toNat % 16
    if x.r.frame.isSome then .trap (x.trap 6 6) else body x b (x.w.barrier b) s) s

/-- The arrival of BAR.SYNC and BAR.ARR (R170): a unit whose strands have all arrived in the current phase waits at the instruction;
one of whose strands some have, waits behind it for the phase to change. DEDUCED: log entry 34. -/
def arriveOp (sync : Bool) (x : Issue) (b : Nat) (q : Barrier) (s : State) : Act :=
  let st := x.r.unitStrands x.unit
  let late := x.arrived b != 0
  if x.arrived b == st || s.logs x.k then .wait
  else x.afterBarrier (s.barArrive x.k b st) late (if sync || late then some (b, q.phase, sync) else none)

/-- BAR.SYNC (R170). -/
def execBarSync (f : Fields) (s : State) : Host.Outcome State Fault Refusal := barOp 0x150 f (arriveOp true) s

/-- BAR.ARR (R170). -/
def execBarArr (f : Fields) (s : State) : Host.Outcome State Fault Refusal := barOp 0x151 f (arriveOp false) s

/-- BAR.WAIT (R170). -/
def execBarWait (f : Fields) (s : State) : Host.Outcome State Fault Refusal :=
  barOp 0x152 f (fun x b q s =>
    if (x.r.bar b).arrived then x.afterBarrier s false (some (b, q.phase, false))
    else x.afterBarrier (s.waited x.r.wg x.k b) false none) s

/-- BAR.SET (R170): something has arrived in the current phase where a rope has, whatever strands of others have.
DESIGN CHOICE: log entry 57. -/
def execBarSet (f : Fields) (s : State) : Host.Outcome State Fault Refusal :=
  barOp 0x153 f (fun x b q s =>
    let n := f.c.toNat
    let q1 := if q.arrived = 0 then { q with expected := n, pending := none } else { q with pending := some n }
    x.afterBarrier (s.onWg x.r.wg (fun w => { w with barriers := tset w.barriers b q1 })) false none) s

/-! Votes. -/

/-- The bits of predicate A in the lanes of ACTIVE. -/
def Issue.votes (x : Issue) : Word := x.act &&& x.r.pr (x.f.a.toNat % 8)

/-- VOTE.ANY and VOTE.ALL, with the vote's result. -/
def voteOp (op : Nat) (res : Issue → Bool) (f : Fields) (s : State) : Host.Outcome State Fault Refusal :=
  issue op f pb0 (fun x s =>
    .go s (if x.act = 0 then [] else [.pred (f.d.toNat % 8) x.act (if res x then 0xFFFFFFFF else 0)]) 0 .fall) s

/-- VOTE.ANY (R171). -/
def execVoteAny (f : Fields) (s : State) : Host.Outcome State Fault Refusal := voteOp 0x158 (fun x => x.votes != 0) f s
/-- VOTE.ALL (R171). -/
def execVoteAll (f : Fields) (s : State) : Host.Outcome State Fault Refusal := voteOp 0x159 (fun x => x.votes == x.act) f s
/-- VOTE.BAL (R171). -/
def execVoteBal (f : Fields) (s : State) : Host.Outcome State Fault Refusal :=
  issue 0x15A f pb0 (fun x s => .go s (if x.act = 0 then [] else [.scalar f.d.toNat x.votes]) 0 .fall) s

/-! Waits and fences. -/

/-- Whether a counter meets a limit of WAITC; 63 leaves it unconstrained (R196). -/
def limitOk (n : Nat) (lim : BitVec 8) : Bool := lim.toNat == 63 || decide (n ≤ lim.toNat)

/-- WAITC (R196); with LDC and STC limits of 0 it releases what the rope's accesses have written (R286). -/
def execWaitc (f : Fields) (s : State) : Host.Outcome State Fault Refusal :=
  issue 0x160 f pb0 (fun x s =>
    if limitOk x.r.ldc f.a && limitOk x.r.stc f.b && limitOk x.r.cpc f.c then
      .go (if f.a = 0 ∧ f.b = 0 then s.waitReleases x.k else s) [] 0 .fall
    else .wait) s

/-- What a rope's fences hold after another with number `i` at a scope (R198). -/
def FenceHold.add (h : FenceHold) (acq rel : Bool) (sc i : Nat) : FenceHold :=
  ⟨if acq then i else h.acq, if rel then i else h.rel, if acq then tset h.scopes sc i else h.scopes,
    if rel then tset h.rels sc i else h.rels⟩

/-- A fence at its encoded scope (R195, R198, R282): later memory instructions wait for the accesses numbered below the thresholds. -/
def fenceOp (op : Nat) (acq rel : Bool) (f : Fields) (s : State) : Host.Outcome State Fault Refusal :=
  issue op f pb0 (fun x s =>
    let sc := f.b.toNat % 8
    let s1 := if acq then s.fenceAcquires (.rope x.k) s.nextId sc else s
    let s2 := if rel then s1.fenceReleases (.rope x.k) s.nextId sc else s1
    .go (s2.onRope x.k (fun r => { r with fence := r.fence.add acq rel sc s.nextId })) [] 0 .fall) s

/-- FENCE.ACQ (R198). -/
def execFenceAcq (f : Fields) (s : State) : Host.Outcome State Fault Refusal := fenceOp 0x162 true false f s
/-- FENCE.REL (R198). -/
def execFenceRel (f : Fields) (s : State) : Host.Outcome State Fault Refusal := fenceOp 0x163 false true f s
/-- FENCE.AR (R198). -/
def execFenceAr (f : Fields) (s : State) : Host.Outcome State Fault Refusal := fenceOp 0x164 true true f s

end Sys2Proof.Machine
end

