-- ==== Sys2Proof/Machine/Memory.lean ====
section
/-! DEFINITION. The meanings of the memory instructions (R177 to R193) and of WAITV (R197): the address procedure of R179,
the waits of R184, R198, R298 and R307, and the accesses themselves. -/

namespace Sys2Proof.Machine

/-- What an instruction needs of a handle (R181): the spaces it may name, its rights in the order R, W, X, A, and its kind
for the Access column of R241. -/
structure MemNeed where
  spaces : List Nat
  rights : BitVec 4
  ctrl : CtrlOp

/-- One element of an access: its lane, its exact offset, and what it does. -/
structure MemEl where
  lane : Nat
  off : Int
  act : MemAct

/-- The first element, in the lowest lane, that fails a check. DEDUCED: log entry 56. -/
def firstBad (els : List MemEl) (p : Int → Bool) : Option MemEl :=
  lanes32.findSome? (fun l => els.find? (fun e => e.lane == l && p e.off))

/-- The trap of a check of R179: reason, handle index and the reported lane's offset (R180, R236), LANEMASK by R396. -/
def Issue.checkTrap (x : Issue) (h : HRef) (sc : Bool) (els : List MemEl) (cause reason : Nat) (p : Int → Bool) :
    Option TrapReq :=
  match firstBad els p with
  | none => none
  | some e =>
    let lanes := if sc then x.act else maskOf (fun l => els.any (fun d => d.lane == l && p d.off))
    some ⟨cause, reason, lanes, h.idx.setWidth 32, BitVec.ofInt 32 e.off, 0⟩

/-- The address of an offset in its space (R179): an offset in CTRL space, elsewhere BASE plus the offset. -/
def HRef.addr (h : HRef) (off : Int) : Int := if h.ent.space = spCtrl then off else h.ent.base + off

/-- The checks of R179, in order, each over every element, and then the scratchpad's DOMAIN check (R222, R231).
DEDUCED: log entry 19. -/
def Issue.addrTrap (x : Issue) (s : State) (h : HRef) (need : MemNeed) (sc : Bool) (size align : Nat) (els : List MemEl) :
    Option TrapReq :=
  let e := h.ent
  let check := x.checkTrap h sc els
  let stream := s.ctrlStream h
  let first (l : List (Unit → Option TrapReq)) : Option TrapReq := l.findSome? (fun f => f ())
  first [
    fun _ => check 5 1 (fun _ => !e.v),
    fun _ => check 5 2 (fun _ => !e.ok || (e.space == spCtrl && stream.isNone)),
    fun _ => check 5 3 (fun _ => !need.spaces.contains e.space),
    fun _ => check 5 4 (fun _ => need.rights &&& h.rights != need.rights),
    fun _ => check 4 2 (fun o => h.addr o % align != 0),
    fun _ => check 4 1 (fun o => decide (o < 0) || decide ((e.len : Int) < o + size)),
    fun _ => check 4 3 (fun o => e.space == spScratch && decide ((x.w.scratchSize : Int) < e.base + o + size)),
    fun _ => check 5 3 (fun o => e.space == spCtrl &&
      (match stream with | some (_, t) => !ctrlAdmits t need.ctrl size o.toNat | none => true)),
    fun _ => (check 6 2 (fun _ => e.space == spScratch && x.r.frame.isSome)).map (fun t => { t with info := 0, off := 0 })]

/-- The L2 ways that a domain slot of a core may allocate into (R219). -/
def Core.wayMask (k : Core) (d : Nat) : BitVec 16 := (k.dpeReg (8 * d + 4)).extractLsb' 0 16

/-- Where an access through a handle goes: through the core's L1 and its cluster's requester; a prologue's loads are its
sequencer's (R256). -/
def Issue.goal (x : Issue) (s : State) (h : HRef) : Target :=
  let core := if x.w.pro.isSome then none else some x.c
  let via : Requester := if x.w.pro.isSome then .hub ((tget s.streams x.w.stream).elim 0 Stream.hub) else .core x.c
  ⟨h.ent.space, h.did, h.asid, x.r.wg, streamKey h.owner h.ent.base, h.ent.peer, core, via, h.ent.key, h.ent.order, h.ent.policy,
    x.core.wayMask x.r.dslot, some (.rope x.k), s.nextId⟩

/-- Where the lanes of an entry go (R307): through the L1 of the core that its rope is on, by that core's requester; once the rope has
ended, by the requester of the core that issued them. -/
def LogEntry.target (e : LogEntry) (s : State) : Target :=
  let h := hent e.handle
  let did := s.didOfAsid e.asid
  let at_ : Option (Rope × Nat) := if e.orphan then none else (tget s.ropes e.rope).map (fun r => (r, s.coreOf r))
  let core := match at_ with | some p => p.2 | none => e.core
  let k := s.core core
  ⟨h.space, did, e.asid, e.wg, streamKey did h.base, h.peer, at_.map Prod.snd, .core core, h.key, h.order, h.policy,
    match at_ with
    | some p => k.wayMask p.1.dslot
    | none => match k.slotOf did with | some d => k.wayMask d | none => 0
    , some (.rope e.rope), e.id⟩

/-- The owner of the place that a target's addresses lie in, for monitors (R197). -/
def Target.owner (t : Target) : Nat :=
  if t.space = spScratch then t.wg else if t.space = spCtrl then t.stream else t.asid.toNat

/-- Whether a load or ATOM is complete: every one of its register writes has landed (R184). -/
def Outst.complete (o : Outst) (cyc : Nat) : Bool := o.ready && o.writes.isEmpty && decide (o.due ≤ cyc)

/-- Whether a store or RED is performed (R184). -/
def StoreOut.complete (o : StoreOut) (cyc : Nat) : Bool := o.ready && decide (o.due ≤ cyc)

/-- Entries of the operand log that a rope holds at a cycle of its core (R307): its accesses and WAITVs that are not complete. -/
def Rope.logUsed (r : Rope) (cyc : Nat) : Nat :=
  (r.outst.filter (fun o => o.tok.isNone && !o.complete cyc)).length + (r.stores.filter (fun o => !o.complete cyc)).length + r.monitors.length

/-- Entries of the operand log in use in a quadrant (R307): accesses and WAITVs of its ropes that are not complete, and accesses
whose rope has ended. The entries of a saved workgroup are in its image. -/
def State.logUsed (s : State) (core quad : Nat) : Nat :=
  s.ropes.foldl (fun n (k, r) =>
    match tget s.wgs r.wg with
    | some w =>
      if w.core = core ∧ r.quad = quad ∧ (w.state = .resident ∨ w.state = .saving) then
        n + r.logUsed (s.core core).cyc + (s.log.filter (fun e => e.rope == k && !e.orphan && e.isWaitv r)).length
      else n
    | none => n) (s.log.filter (fun e => e.orphan && e.core == core && e.quad == quad)).length

/-- Whether an access has a release by its handle's kind, or as a KICK store (R242, R280). -/
def hasRelease (h : HRef) (els : List MemEl) : Bool :=
  els.any (fun e => match e.act with
    | .load .. => false
    | .atom .. => h.ent.order != 2
    | .store _ => h.ent.order != 2 || (h.ent.space == spCtrl && e.off == 0))

/-- The waits of R307 while accesses of the rope await translation: the same line, by whatever handle (R183), a release, STRONG behind
STRONG; and any access behind an acquire, which must not read before it (R280, R284). DESIGN CHOICE: log entry 8. -/
def State.behindLog (s : State) (k : Nat) (t : Target) (h : HRef) (els : List MemEl) : Bool :=
  let mine := s.log.filter (fun e => e.rope == k && e.kind != 3)
  mine.any (fun e =>
    let u := e.target s
    e.lanes.any (fun l => els.any (fun d => s.storageLine u l.addr == s.storageLine t (h.addr d.off).toNat)) ||
    (h.ent.order == 0 && u.order == 0) || e.acquires) ||
  (!mine.isEmpty && hasRelease h els)

/-- Whether a KICK store must wait for the rope's earlier stores, atomics and copy commands to be performed (R242, R282). -/
def State.kickWaits (s : State) (k : Nat) (r : Rope) (h : HRef) (els : List MemEl) : Bool :=
  h.ent.space == spCtrl && els.any (fun e => match e.act with | .store _ => e.off == 0 | _ => false) &&
    (!r.stores.isEmpty || s.log.any (fun e => e.rope == k && e.orphan) || s.ctxs.any (fun (_, c) => c.rope == k && c.task.isNone))

/-- The least cycles from issue to completion (R185): 8 from scratchpad, 14 from an L1 hit, 40 from L2, where the atomics of a GLOBAL
word are performed (R191). -/
def State.minLatency (s : State) (t : Target) (kind : AccKind) (addrs : List Nat) (core : Nat) : Nat :=
  if t.space = spScratch then 8
  else if t.space = spGlobal then
    if kind != .atomic && addrs.all (fun a => match s.l2Line t.asid a with | some l => l.inL1 core | none => false) then 14 else 40
  else 1

/-- A held trap for lanes that could not be translated (R306, R236): XLATE, or ALIAS where the reason is 0. -/
def lateTrap (r : Rope) (pc fall iw : DWord) (kind reason : Nat) (lanes : Word) (va : DWord) : TrapRec :=
  let q : TrapReq := ⟨if reason = 0 then 8 else 9, reason % 16, lanes, BitVec.ofNat 32 kind, 0, va⟩
  { r.record q pc fall iw true false with saved := [0, 0, 0, 0] }

/-- The registers that a lane's access will write, with no values. -/
def LaneAcc.dests (a : LaneAcc) : List RegWrite :=
  match a.act with
  | .load size signed sc dst lane => loadWrites sc signed dst lane (List.replicate size 0)
  | .atom op _ _ (some d) lane => loadWrites false false d lane (List.replicate op.size 0)
  | _ => []

/-- The words of an instruction behind its first (R59, R307). -/
def Issue.more (x : Issue) (pb : PB) : List DWord :=
  (match x.f.enc with | .native (some c) => [encodeCw c] | _ => []) ++ (if hasPb x.op then encodePb pb else [])

/-- An operand-log entry of an issuing access (R307). -/
def Issue.entry (x : Issue) (id : Nat) (pb : PB) (h : HRef) (kind : AccKind) (sc : Bool) (lanes : List LaneAcc) (st : LogState) :
    LogEntry :=
  ⟨id, x.k, x.unit, x.r.wg, x.w.stream, x.w.task, x.c, x.r.quad, x.pc, encodeIw x.op x.f, x.more pb, h.raw, h.asid, kind.code, lanes,
    if sc then some x.act else none, st, false⟩

/-- Classes of the reasons for which lanes could not be reached, in the order in which they are dealt with: a translation or a link that
fails, which goes to the Herey controller first (R306); ALIAS (R305); a poisoned line (R357); a page that is not pinned (R298).
DESIGN CHOICE: log entry 8. -/
def leftClass (reason : Nat) : Nat :=
  if reason = 0 then 1 else if reason = pageReason then 3 else if 16 ≤ reason then 2 else 0

/-- What decides about lanes that could not be reached: of those of the first class that occurs the lowest one, with its reason, and the
lanes of that class (R306, R396). -/
def leftFirst (left : List (LaneAcc × Nat)) : Option (LaneAcc × Nat × Word) :=
  ([0, 1, 2, 3] : List Nat).findSome? (fun c =>
    let those := left.filter (fun b => leftClass b.2 == c)
    (lanes32.findSome? (fun l => those.find? (fun b => b.1.lane == l))).map (fun b =>
      (b.1, b.2, maskOf (fun l => those.any (fun d => d.1.lane == l)))))

/-- Lanes that could not be reached enter the operand log (R307). A translation fault waits for the Herey controller; an
ALIAS, or a read of a poisoned line, is held for delivery at once (R305, R357); a scratchpad page that is not pinned is only waited
for (R298). -/
def Issue.logLeft (x : Issue) (s : State) (id : Nat) (pb : PB) (h : HRef) (kind : AccKind) (sc : Bool) (left : List (LaneAcc × Nat)) :
    State :=
  match leftFirst left with
  | none => s
  | some (a, reason, those) =>
    let st : LogState :=
      if reason = 0 then .raised else if reason = pageReason then .ready else if 16 ≤ reason then .poisoned
      else .deciding (BitVec.ofNat 8 reason) those
    let s1 := { s with log := s.log ++ [x.entry id pb h kind sc (left.map (·.1)) st] }
    if st.over then
      let lanes := if sc then x.act else those
      s1.holdTrap x.k ⟨lateTrap x.r x.pc x.fall (encodeIw x.op x.f) kind.code reason lanes (BitVec.ofNat 64 a.addr), some x.unit, some id⟩
    else s1

/-- Whether an access goes over a link (R313). -/
def Target.linked (t : Target) : Bool := t.space == spHost || t.space == spPeer

/-- What the issue of an access does to its lanes (R179, R313): those that go over a link are sent, to be performed by their replay;
the others are performed, but for those left over. The state, the writes, and the lanes left over, with `sent` for all of them. -/
def State.tryLanes (s : State) (t : Target) (lanes : List LaneAcc) : State × List RegWrite × List (LaneAcc × Nat) :=
  if t.linked then (s, [], lanes.map (fun a => (a, 0))) else s.performLanes t lanes

/-- A memory instruction (R179 to R185): `els` are its elements in their order, `pre` the register writes that need no
memory, `ld` whether LDC counts it. A HOST or PEER access is held in the operand log until it is performed (R313), and the lanes in
scratchpad pages that are not pinned until they are (R298).
DESIGN CHOICE: log entry 8. -/
def Issue.access (x : Issue) (s : State) (pb : PB) (need : MemNeed) (kind : AccKind) (ld sc : Bool) (size align : Nat)
    (els : List MemEl) (pre : List RegWrite) : Act :=
  let h := s.ropeHandle x.r (x.f.a.toNat % 16)
  if x.act = 0 then .go s [] 0 .fall
  else if (if ld then x.r.ldc else x.r.stc) ≥ 63 ∨ s.logUsed x.c x.r.quad ≥ 256 ∨ s.fenced x.k x.r x.unit then .wait
  else
    match x.addrTrap s h need sc size align els with
    | some t => .trap t
    | none =>
      let lanes : List LaneAcc := els.map (fun e => ⟨e.lane, (h.addr e.off).toNat, e.act⟩)
      let t := x.goal s h
      if s.behindLog x.k t h els || s.kickWaits x.k x.r h els then .wait
      else
        let min := s.minLatency t kind (lanes.map LaneAcc.addr) x.c
        let (s1, ws, left) := s.tryLanes t lanes
        let (delay, s2) := s1.drawDelay
        let id := s2.nextId
        let due := x.core.cyc + min + delay
        let waits := left.flatMap (fun a => a.1.dests)
        let s3 := ({ s2 with nextId := id + 1 } : State).onRope x.k (fun (r : Rope) =>
          if ld then
            { r with ldc := r.ldc + 1, outst := r.outst ++ [(⟨id, due, left.isEmpty, none, pre ++ ws, waits⟩ : Outst)] }
          else { r with stc := r.stc + 1, stores := r.stores ++ [(⟨id, due, left.isEmpty⟩ : StoreOut)] })
        .go (if t.linked then { s3 with log := s3.log ++ [x.entry id pb h kind sc lanes .ready] } else x.logLeft s3 id pb h kind sc left)
          [] 0 .fall

/-- The offset of R179: register B, read by MODB's SX, plus IMM32 as a signed number. -/
def Issue.offset (x : Issue) (sc : Bool) (l : Nat) : Int :=
  let b := if sc then x.r.sr x.f.b.toNat else x.r.vr x.f.b.toNat l
  let c := x.f.cw .n32
  (if modSx c.modB then b.toInt else (b.toNat : Int)) + c.imm.toInt

/-- The lanes of an access: those of ACTIVE, or one in a scalar form. -/
def Issue.elems (x : Issue) (sc : Bool) (g : Nat → MemAct) : List MemEl :=
  (if sc then [(x.active.head?).getD 0] else x.active).map (fun l => ⟨l, x.offset sc l, g l⟩)

/-- Every space but CTRL. -/
def spacesData : List Nat := [spGlobal, spScratch, spHost, spPeer]
/-- Every space. -/
def spacesAll : List Nat := [spGlobal, spScratch, spHost, spPeer, spCtrl]

/-- A load (R186). -/
def loadOp (op size : Nat) (signed : Bool) (f : Fields) (s : State) : Host.Outcome State Fault Refusal :=
  issue op f pb0 (fun x s =>
    let sc := f.c.getLsbD 0
    let need : MemNeed := ⟨if size = 4 ∨ size = 8 then spacesAll else spacesData, 1, .load⟩
    x.access s pb0 need .read true sc size size (x.elems sc (fun l => .load size signed sc f.d.toNat l)) []) s

/-- The bytes that a store of `size` bytes takes from register D (R186). -/
def Issue.storeBytes (x : Issue) (sc : Bool) (size l : Nat) : List Byte :=
  let d := x.f.d.toNat
  let word (k : Nat) : Word := if sc then x.r.sr (d + k) else x.r.vr (d + k) l
  if size < 4 then leBytes size (word 0).toNat
  else (List.range (size / 4)).flatMap (fun k => leBytes 4 (word k).toNat)

/-- A store (R186). -/
def storeOp (op size : Nat) (f : Fields) (s : State) : Host.Outcome State Fault Refusal :=
  issue op f pb0 (fun x s =>
    let sc := f.c.getLsbD 0
    let need : MemNeed := ⟨if size = 4 ∨ size = 8 then spacesAll else spacesData, 2, .store⟩
    x.access s pb0 need .write false sc size size (x.elems sc (fun l => .store (x.storeBytes sc size l))) []) s

/-- LD.N8 (R186). -/
def execLdN8 (f : Fields) (s : State) : Host.Outcome State Fault Refusal := loadOp 0x180 1 false f s
/-- LD.S8 (R186). -/
def execLdS8 (f : Fields) (s : State) : Host.Outcome State Fault Refusal := loadOp 0x181 1 true f s
/-- LD.N16 (R186). -/
def execLdN16 (f : Fields) (s : State) : Host.Outcome State Fault Refusal := loadOp 0x182 2 false f s
/-- LD.S16 (R186). -/
def execLdS16 (f : Fields) (s : State) : Host.Outcome State Fault Refusal := loadOp 0x183 2 true f s
/-- LD.N32 (R186). -/
def execLdN32 (f : Fields) (s : State) : Host.Outcome State Fault Refusal := loadOp 0x184 4 false f s
/-- LD.N64 (R186). -/
def execLdN64 (f : Fields) (s : State) : Host.Outcome State Fault Refusal := loadOp 0x185 8 false f s
/-- LDQ.N32 (R186). -/
def execLdqN32 (f : Fields) (s : State) : Host.Outcome State Fault Refusal := loadOp 0x186 16 false f s
/-- ST.N8 (R186). -/
def execStN8 (f : Fields) (s : State) : Host.Outcome State Fault Refusal := storeOp 0x188 1 f s
/-- ST.N16 (R186). -/
def execStN16 (f : Fields) (s : State) : Host.Outcome State Fault Refusal := storeOp 0x189 2 f s
/-- ST.N32 (R186). -/
def execStN32 (f : Fields) (s : State) : Host.Outcome State Fault Refusal := storeOp 0x18A 4 f s
/-- ST.N64 (R186). -/
def execStN64 (f : Fields) (s : State) : Host.Outcome State Fault Refusal := storeOp 0x18B 8 f s
/-- STQ.N32 (R186). -/
def execStqN32 (f : Fields) (s : State) : Host.Outcome State Fault Refusal := storeOp 0x18C 16 f s

/-! Prefetch. -/

/-- A line brought into L2, or into L1 and L2 (R188) as its handle's policy allows (R174); nothing where its translation faults. -/
def State.prefetch (s : State) (l1 : Bool) (t : Target) (va : Nat) : State :=
  match s.xlate t va .read, t.core with
  | (.ok f _ _ _, s1), some c => if l1 && t.alloc then s1.l1Touch c true t.asid va 1 (physOf f va) false else s1
  | (_, s1), _ => s1

/-- PREF (R188): lanes whose checks fail, that name no cached space, or whose policy allocates nothing, request nothing. -/
def execPref (f : Fields) (s : State) : Host.Outcome State Fault Refusal :=
  issue 0x18D f pb0 (fun x s =>
    let sc := f.c.getLsbD 0
    let h := s.ropeHandle x.r (f.a.toNat % 16)
    let need : MemNeed := ⟨[spGlobal], 1, .load⟩
    let els := if x.act = 0 then [] else x.elems sc (fun l => .load 1 false sc 0 l)
    if s.fenced x.k x.r x.unit then .wait
    else
      .go (els.foldl (fun (t : State) e =>
        if h.ent.policy ≠ 2 ∧ (x.addrTrap s h need sc 1 1 [e]).isNone then
          t.prefetch (f.d.getLsbD 0) (x.goal t h) (h.addr e.off).toNat
        else t) s) [] 0 .fall) s

/-! Tiles. -/

/-- The row and column of a tile's element (R187). -/
def tilePos (pb : PB) (idx : Nat) : Nat × Nat :=
  if pbT pb then (idx % pbRows pb, idx / pbRows pb) else (idx / pbCols pb, idx % pbCols pb)

/-- Whether a tile's element is accessed (R187). -/
def tileIn (pb : PB) (idx : Nat) : Bool :=
  let p := tilePos pb idx
  decide (p.1 < pb.w2.toNat % 65536) && decide (p.2 < pb.w2.toNat / 65536)

/-- The elements of a tile in ascending index, by register and lane of ACTIVE, with their offsets (R187): S[B] is read
unsigned. DEDUCED: log entry 56. -/
def Issue.tileElems (x : Issue) (pb : PB) (g : Nat → Nat → MemAct) : List MemEl :=
  let base := ((x.r.sr x.f.b.toNat).toNat : Int) + (x.f.cw .n32).imm.toInt
  (List.range (pbNreg pb)).flatMap (fun k =>
    (x.active.filter (fun l => tileIn pb (32 * k + l))).map (fun l =>
      let p := tilePos pb (32 * k + l)
      ⟨l, base + p.1 * pb.w0.toInt + 4 * p.2, g k l⟩))

/-- LDT (R187). -/
def execLdt (f : Fields) (pb : PB) (s : State) : Host.Outcome State Fault Refusal :=
  issue 0x190 f pb (fun x s =>
    let zeros := (List.range (pbNreg pb)).flatMap (fun k =>
      (x.active.filter (fun l => !tileIn pb (32 * k + l))).map (fun l => RegWrite.vec (f.d.toNat + k) l 0))
    x.access s pb ⟨[spGlobal, spScratch], 1, .other⟩ .read true false 4 4
      (x.tileElems pb (fun k l => .load 4 false false (f.d.toNat + k) l)) zeros) s

/-- STT (R187). -/
def execStt (f : Fields) (pb : PB) (s : State) : Host.Outcome State Fault Refusal :=
  issue 0x191 f pb (fun x s =>
    x.access s pb ⟨[spGlobal, spScratch], 2, .other⟩ .write false false 4 4
      (x.tileElems pb (fun k l => .store (leBytes 4 (x.r.vr (f.d.toNat + k) l).toNat))) []) s

/-! Atomics. -/

/-- Whether an operation's words are floating-point (R181). -/
def AtomOp.isFloat : AtomOp → Bool
  | .addF32 | .add2Bf16 | .minF32 | .maxF32 | .caddF32 => true
  | _ => false

/-- What an operation is in the Access column of R241. -/
def AtomOp.ctrl (op : AtomOp) (red : Bool) : CtrlOp :=
  match op with
  | .addN64 => if red then .redAdd else .addCasXchg
  | .casN64 | .xchgN64 => .addCasXchg
  | _ => .other

/-- The operands of a lane (R189): d, or the compare value and the new value. -/
def Issue.atomArgs (x : Issue) (op : AtomOp) (l : Nat) : DWord × DWord :=
  let c := x.f.c.toNat
  match op with
  | .addN64 | .xchgN64 => (x.r.vpair c l, 0)
  | .casN64 => (x.r.vpair c l, x.r.vpair (c + 2) l)
  | .casN32 => ((x.r.vr c l).setWidth 64, (x.r.vr (c + 1) l).setWidth 64)
  | _ => ((x.r.vr c l).setWidth 64, 0)

/-- An ATOM, or with `red` a RED (R189 to R193). -/
def atomOp (op : Nat) (red : Bool) (a : AtomOp) (f : Fields) (s : State) : Host.Outcome State Fault Refusal :=
  issue op f pb0 (fun x s =>
    let need : MemNeed :=
      ⟨if a.isFloat then [spGlobal, spScratch] else [spGlobal, spScratch, spCtrl], if red then 10 else 11, a.ctrl red⟩
    x.access s pb0 need .atomic (!red) false a.size a.size
      (x.elems false (fun l =>
        let p := x.atomArgs a l
        .atom a p.1 p.2 (if red then none else some f.d.toNat) l)) []) s

/-- ATOM of `addN32` (R189). -/
def execAtomAddN32 (f : Fields) (s : State) : Host.Outcome State Fault Refusal := atomOp 0x198 false .addN32 f s
/-- ATOM of `addN64` (R189). -/
def execAtomAddN64 (f : Fields) (s : State) : Host.Outcome State Fault Refusal := atomOp 0x199 false .addN64 f s
/-- ATOM of `addF32` (R189). -/
def execAtomAddF32 (f : Fields) (s : State) : Host.Outcome State Fault Refusal := atomOp 0x19A false .addF32 f s
/-- ATOM of `add2Bf16` (R189). -/
def execAtomAdd2Bf16 (f : Fields) (s : State) : Host.Outcome State Fault Refusal := atomOp 0x19B false .add2Bf16 f s
/-- ATOM of `minS32` (R189). -/
def execAtomMinS32 (f : Fields) (s : State) : Host.Outcome State Fault Refusal := atomOp 0x19C false .minS32 f s
/-- ATOM of `minN32` (R189). -/
def execAtomMinN32 (f : Fields) (s : State) : Host.Outcome State Fault Refusal := atomOp 0x19D false .minN32 f s
/-- ATOM of `minF32` (R189). -/
def execAtomMinF32 (f : Fields) (s : State) : Host.Outcome State Fault Refusal := atomOp 0x19E false .minF32 f s
/-- ATOM of `maxS32` (R189). -/
def execAtomMaxS32 (f : Fields) (s : State) : Host.Outcome State Fault Refusal := atomOp 0x19F false .maxS32 f s
/-- ATOM of `maxN32` (R189). -/
def execAtomMaxN32 (f : Fields) (s : State) : Host.Outcome State Fault Refusal := atomOp 0x1A0 false .maxN32 f s
/-- ATOM of `maxF32` (R189). -/
def execAtomMaxF32 (f : Fields) (s : State) : Host.Outcome State Fault Refusal := atomOp 0x1A1 false .maxF32 f s
/-- ATOM of `andN32` (R189). -/
def execAtomAndN32 (f : Fields) (s : State) : Host.Outcome State Fault Refusal := atomOp 0x1A2 false .andN32 f s
/-- ATOM of `orN32` (R189). -/
def execAtomOrN32 (f : Fields) (s : State) : Host.Outcome State Fault Refusal := atomOp 0x1A3 false .orN32 f s
/-- ATOM of `xorN32` (R189). -/
def execAtomXorN32 (f : Fields) (s : State) : Host.Outcome State Fault Refusal := atomOp 0x1A4 false .xorN32 f s
/-- ATOM of `incN32` (R189). -/
def execAtomIncN32 (f : Fields) (s : State) : Host.Outcome State Fault Refusal := atomOp 0x1A5 false .incN32 f s
/-- ATOM of `decN32` (R189). -/
def execAtomDecN32 (f : Fields) (s : State) : Host.Outcome State Fault Refusal := atomOp 0x1A6 false .decN32 f s
/-- ATOM of `caddF32` (R189). -/
def execAtomCaddF32 (f : Fields) (s : State) : Host.Outcome State Fault Refusal := atomOp 0x1A7 false .caddF32 f s
/-- ATOM of `xchgN32` (R189). -/
def execAtomXchgN32 (f : Fields) (s : State) : Host.Outcome State Fault Refusal := atomOp 0x1A8 false .xchgN32 f s
/-- ATOM of `xchgN64` (R189). -/
def execAtomXchgN64 (f : Fields) (s : State) : Host.Outcome State Fault Refusal := atomOp 0x1A9 false .xchgN64 f s
/-- ATOM of `casN32` (R189). -/
def execAtomCasN32 (f : Fields) (s : State) : Host.Outcome State Fault Refusal := atomOp 0x1AA false .casN32 f s
/-- ATOM of `casN64` (R189). -/
def execAtomCasN64 (f : Fields) (s : State) : Host.Outcome State Fault Refusal := atomOp 0x1AB false .casN64 f s
/-- RED of `addN32` (R189). -/
def execRedAddN32 (f : Fields) (s : State) : Host.Outcome State Fault Refusal := atomOp 0x1B0 true .addN32 f s
/-- RED of `addN64` (R189). -/
def execRedAddN64 (f : Fields) (s : State) : Host.Outcome State Fault Refusal := atomOp 0x1B1 true .addN64 f s
/-- RED of `addF32` (R189). -/
def execRedAddF32 (f : Fields) (s : State) : Host.Outcome State Fault Refusal := atomOp 0x1B2 true .addF32 f s
/-- RED of `add2Bf16` (R189). -/
def execRedAdd2Bf16 (f : Fields) (s : State) : Host.Outcome State Fault Refusal := atomOp 0x1B3 true .add2Bf16 f s
/-- RED of `minS32` (R189). -/
def execRedMinS32 (f : Fields) (s : State) : Host.Outcome State Fault Refusal := atomOp 0x1B4 true .minS32 f s
/-- RED of `minN32` (R189). -/
def execRedMinN32 (f : Fields) (s : State) : Host.Outcome State Fault Refusal := atomOp 0x1B5 true .minN32 f s
/-- RED of `minF32` (R189). -/
def execRedMinF32 (f : Fields) (s : State) : Host.Outcome State Fault Refusal := atomOp 0x1B6 true .minF32 f s
/-- RED of `maxS32` (R189). -/
def execRedMaxS32 (f : Fields) (s : State) : Host.Outcome State Fault Refusal := atomOp 0x1B7 true .maxS32 f s
/-- RED of `maxN32` (R189). -/
def execRedMaxN32 (f : Fields) (s : State) : Host.Outcome State Fault Refusal := atomOp 0x1B8 true .maxN32 f s
/-- RED of `maxF32` (R189). -/
def execRedMaxF32 (f : Fields) (s : State) : Host.Outcome State Fault Refusal := atomOp 0x1B9 true .maxF32 f s
/-- RED of `andN32` (R189). -/
def execRedAndN32 (f : Fields) (s : State) : Host.Outcome State Fault Refusal := atomOp 0x1BA true .andN32 f s
/-- RED of `orN32` (R189). -/
def execRedOrN32 (f : Fields) (s : State) : Host.Outcome State Fault Refusal := atomOp 0x1BB true .orN32 f s
/-- RED of `xorN32` (R189). -/
def execRedXorN32 (f : Fields) (s : State) : Host.Outcome State Fault Refusal := atomOp 0x1BC true .xorN32 f s
/-- RED of `incN32` (R189). -/
def execRedIncN32 (f : Fields) (s : State) : Host.Outcome State Fault Refusal := atomOp 0x1BD true .incN32 f s
/-- RED of `decN32` (R189). -/
def execRedDecN32 (f : Fields) (s : State) : Host.Outcome State Fault Refusal := atomOp 0x1BE true .decN32 f s
/-- RED of `caddF32` (R189). -/
def execRedCaddF32 (f : Fields) (s : State) : Host.Outcome State Fault Refusal := atomOp 0x1BF true .caddF32 f s

/-! WAITV. -/

/-- The operand-log lane of a WAITV (R307), which has no destination: the compare value stands in that field. -/
def Monitor.lane (m : Monitor) (l : Nat) : LaneAcc := ⟨l, m.addr % 2 ^ 64, .load m.size false true m.cmp 0⟩

/-- Where a WAITV that has issued reads (R197): through the handle entry that it took then. -/
def Issue.watched (x : Issue) (s : State) (m : Monitor) : Target :=
  let h := hent m.handle
  let asid : BitVec 16 := if m.space = spGlobal then BitVec.ofNat 16 (m.addr / 2 ^ 64) else x.r.asid
  ⟨m.space, s.didOfAsid asid, asid, x.r.wg, m.addr / 2 ^ 64, h.peer, some x.c, .core x.c, h.key, h.order, h.policy,
    x.core.wayMask x.r.dslot, some (.rope x.k), s.nextId⟩

/-- A read by WAITV that satisfies its condition or not (R197): it completes, with the effect of FENCE.ACQ at its encoded scope; else its
unit sleeps on its monitor. -/
def Issue.waitvRead (x : Issue) (s : State) (m : Monitor) (t : Target) (fr : Nat) (bs : List Byte) : Act :=
  let w := 8 * m.size
  let a := m.addr % 2 ^ 64
  let sc := x.f.d.toNat / 32
  let sx (v : Nat) : Int := if x.f.d.getLsbD 4 then toSigned w v else v
  let s1 := s.observes (.rope x.k) s.nextId (s.placeOf t fr a m.size) (some sc)
  if icond (x.f.d.toNat % 8) (sx (leNat bs)) (sx m.cmp) then
    .go ((s1.fenceAcquires (.rope x.k) s.nextId sc).onRope x.k (fun r =>
      { r.setMonitor x.unit none with fence := r.fence.add true false sc s.nextId })) [] 0 .fall
  else .go (s.onRope x.k (fun r => r.setMonitor x.unit (some { m with woken := false }))) [] 0 .done

/-- A WAITV whose word cannot be reached yet waits in the operand log, under the number that it has (R307). -/
def Issue.waitvLog (x : Issue) (s : State) (m : Monitor) (h : HRef) (reason : Nat) : Act :=
  .go (x.logLeft (s.onRope x.k (fun r => r.setMonitor x.unit none)) m.id pb0 h .read true [(m.lane ((x.active.head?).getD 0), reason)])
    [] 0 .done

/-- A read of WAITV (R197), at the word's home (R191), which combines update-only copies first (R287); one that is not translated, or that
finds a poisoned line, waits in the operand log (R307, R357), one in a scratchpad page that is not pinned until it is (R298). -/
def Issue.waitvTry (x : Issue) (s : State) (m : Monitor) (t : Target) : Act :=
  let a := m.addr % 2 ^ 64
  let l := m.lane ((x.active.head?).getD 0)
  let h : HRef := ⟨hent m.handle, m.handle, t.asid, t.did, 1, 0, t.did⟩
  if t.space = spScratch ∧ !x.w.pinnedAt a m.size then .wait
  else if t.space = spGlobal then
    match s.xlate { t with core := none } a .read with
    | (.ok fr _ _ _, s1) =>
      if s1.poisoned (physOf fr a) then x.waitvLog s1 m h poisonReason
      else let s2 := s1.recall t.asid a; x.waitvRead s2 m t fr (s2.readAt t fr a m.size)
    | (.fault r, s1) => x.waitvLog s1 m h r
    | (.aliased, s1) => x.waitvLog s1 m h 0
  else if s.ringPoison t l then x.waitvLog s m h poisonReason
  else x.waitvRead (s.ringOwn t a m.size) m t 0 (s.readAt t 0 a m.size)

/-- WAITV (R197): its address, handle entry and compare value are taken once, at its issue; woken, it reads again. CTRL space admits it
where it admits a load of its width (R181, R241). DEDUCED: log entry 56. -/
def execWaitv (f : Fields) (s : State) : Host.Outcome State Fault Refusal :=
  issue 0x161 f pb0 (fun x s =>
    match x.r.monitorOf x.unit with
    | some m => x.waitvTry s m (x.watched s m)
    | none =>
      let h := s.ropeHandle x.r (f.a.toNat % 16)
      let size := if f.d.getLsbD 3 then 8 else 4
      if x.act = 0 then .go s [] 0 .fall
      else if s.fenced x.k x.r x.unit || decide (256 ≤ s.logUsed x.c x.r.quad) ||
          s.log.any (fun e => e.rope == x.k && e.unit == x.unit && e.pc == x.pc && e.isWaitv x.r) then .wait
      else
        let els := x.elems true (fun l => .load size false true 0 l)
        match x.addrTrap s h ⟨[spGlobal, spScratch, spCtrl], 1, .load⟩ true size size els with
        | some t => .trap t
        | none =>
          let t := x.goal s h
          let a := match els.head? with | some e => (h.addr e.off).toNat | none => 0
          let m : Monitor := ⟨s.nextId, x.unit, t.space, place t.owner a, size, false, scaRaw x.r (8 * size) f.c.toNat, h.raw⟩
          if s.behindLog x.k t h els then .wait else x.waitvTry { s with nextId := s.nextId + 1 } m t) s

end Sys2Proof.Machine
end

