-- ==== Sys2Proof/Machine/Sfu.lean ====
section
/-! DEFINITION. The special functions of R202, computed in fixed point with 320 fraction bits and rounded once. -/

namespace Sys2Proof.Machine

/-- Fraction bits of the fixed-point numbers. -/
def sfP : Nat := 320

/-- One in fixed point. -/
def sfOne : Int := (2 ^ sfP : Int)

/-- Product of fixed-point numbers. -/
def sfMul (a b : Int) : Int := a * b / sfOne

/-- Quotient of fixed-point numbers. -/
def sfDiv (a b : Int) : Int := a * sfOne / b

/-- The series t + t·q/(n+1)-style sum: Σ term, where each next term is `next k term`. -/
def sfSeries (next : Nat → Int → Int) : Nat → Nat → Int → Int → Int
  | 0, _, _, acc => acc
  | fuel + 1, k, t, acc => sfSeries next fuel (k + 1) (next k t) (acc + t)

/-- e^x for a fixed-point x of magnitude at most 1. -/
def sfExp1 (x : Int) : Int := sfSeries (fun k t => sfMul t x / (k + 1)) 90 0 sfOne 0

/-- artanh z = z + z³/3 + …, with |z| ≤ 1/3: the powers of z are the terms. -/
def sfArtanh (z : Int) : Nat → Nat → Int → Int → Int
  | 0, _, _, acc => acc
  | fuel + 1, k, p, acc => sfArtanh z fuel (k + 1) (sfMul (sfMul p z) z) (acc + p / (2 * k + 1))

/-- arctan (1/n) for an integer n ≥ 2. -/
def sfAtanInv (n : Int) : Nat → Nat → Int → Int → Int
  | 0, _, _, acc => acc
  | fuel + 1, k, p, acc =>
    sfAtanInv n fuel (k + 1) (p / (n * n)) (if k % 2 = 0 then acc + p / (2 * k + 1) else acc - p / (2 * k + 1))

/-- ln 2 = 2 artanh (1/3). -/
def sfLn2 : Int := 2 * sfArtanh (sfOne / 3) 110 0 (sfOne / 3) 0

/-- π by Machin's formula. -/
def sfPi : Int := 16 * sfAtanInv 5 75 0 (sfOne / 5) 0 - 4 * sfAtanInv 239 25 0 (sfOne / 239) 0

/-- The square root of a natural number, rounded down, from bit `k` down. -/
def isqrtFrom (n : Nat) : Nat → Nat → Nat
  | 0, r => r
  | k + 1, r => isqrtFrom n k (if (r + 2 ^ k) * (r + 2 ^ k) ≤ n then r + 2 ^ k else r)

/-- The square root of a natural number, rounded down. -/
def isqrt (n : Nat) : Nat := isqrtFrom n (n.log2 / 2 + 1) 0

/-- A finite value in fixed point, rounded down. -/
def sfOfFin (s : Bool) (m : Nat) (e : Int) : Int :=
  let x : Int := if 0 ≤ e + sfP then m * 2 ^ (e + sfP).toNat else m / 2 ^ (-(e + sfP)).toNat
  if s then -x else x

/-- e^x for a fixed-point x: the mantissa in [1, 2) and the power of two. -/
def sfExp (x : Int) : Int × Int :=
  let y := sfDiv x sfLn2
  let n := y / sfOne
  (sfExp1 (sfMul (y - n * sfOne) sfLn2), n)

/-- An inexact positive fixed-point value times 2^n, rounded to F32: half a unit in the last place keeps it inexact. -/
def sfRound (s : Bool) (v : Int) (n : Int) : Nat × Flags := fround .f32 0 false (.fin s (2 * v.toNat + 1) (n - sfP - 1))

/-- 2^x. -/
def sfExp2 (s : Bool) (m : Nat) (e : Int) : Nat × Flags :=
  if 0 ≤ e ∨ m % 2 ^ (-e).toNat = 0 then
    let n : Int := if 0 ≤ e then m * 2 ^ (min e 20).toNat else m / 2 ^ (-e).toNat
    let n1 : Int := min n 400
    fround .f32 0 false (.fin false 1 (if s then -n1 else n1))
  else
    let x := sfOfFin s m e
    let n := x / sfOne
    let n1 : Int := if n < -400 then -400 else if 400 < n then 400 else n
    sfRound false (sfExp1 (sfMul (x - n * sfOne) sfLn2)) n1

/-- log2 of a positive finite value. -/
def sfLog2 (m : Nat) (e : Int) : Nat × Flags :=
  let l := m.log2
  let ex : Int := l + e
  if m = 2 ^ l then fround .f32 0 false (fOfInt ex)
  else
    let x := sfOfFin false m (-(l : Int))
    let z := sfDiv (x - sfOne) (x + sfOne)
    let v := ex * sfOne + sfDiv (2 * sfArtanh z 110 0 z 0) sfLn2
    sfRound (decide (v < 0)) (if v < 0 then -v else v) 0

/-- A rational n/d times 2^e, rounded to F32 once. -/
def sfRatio (s : Bool) (n d : Nat) (e : Int) : Nat × Flags :=
  let q := n * 2 ^ 80 / d
  let r := n * 2 ^ 80 % d
  fround .f32 0 false (.fin s (2 * q + (if r = 0 then 0 else 1)) (e - 81))

/-- √(m·2^e), rounded to F32 once; with `inv`, its reciprocal. -/
def sfSqrt (inv : Bool) (m : Nat) (e : Int) : Nat × Flags :=
  let m1 := if e % 2 = 0 then m else 2 * m
  let e1 := if e % 2 = 0 then e else e - 1
  if inv then
    -- 1/√m1 = √(2^(2k)/m1) / 2^k
    let n := 2 ^ 260 / m1
    let r := isqrt n
    let exact := n * m1 == 2 ^ 260 && r * r == n
    fround .f32 0 false (.fin false (2 * r + (if exact then 0 else 1)) (-131 - e1 / 2))
  else
    let n := m1 * 2 ^ 200
    let r := isqrt n
    fround .f32 0 false (.fin false (2 * r + (if r * r = n then 0 else 1)) (e1 / 2 - 101))

/-- sin (πt) for a fixed-point t in [0, 1/4]. -/
def sfSinPi (t : Int) : Int :=
  let a := sfMul sfPi t
  let q := sfMul a a
  sfSeries (fun k u => -(sfMul u q) / ((2 * k + 2) * (2 * k + 3))) 50 0 a 0

/-- cos (πt) for a fixed-point t in [0, 1/4]. -/
def sfCosPi (t : Int) : Int :=
  let a := sfMul sfPi t
  let q := sfMul a a
  sfSeries (fun k u => -(sfMul u q) / ((2 * k + 1) * (2 * k + 2))) 50 0 sfOne 0

/-- sin (πr) for an exact r = n/2^k in [0, 2), n and k natural, not a multiple of 1/2: sign and magnitude. -/
def sfSinTurn (n k : Nat) : Bool × Int :=
  let neg := decide (2 ^ k ≤ n)
  let r := n % 2 ^ k
  let r1 := if 2 * r ≤ 2 ^ k then r else 2 ^ k - r
  let fx (a : Nat) : Int := sfOfFin false a (-(k : Int))
  -- r1/2^k lies in (0, 1/2]
  if 4 * r1 ≤ 2 ^ k then (neg, sfSinPi (fx r1))
  else (neg, sfCosPi (sfOfFin false (2 ^ k - 2 * r1) (-(k : Int) - 1)))

/-- sin (πx), or with `cos` cos (πx) = sin (π(|x| + 1/2)). -/
def sfTrig (cos s : Bool) (m : Nat) (e : Int) : Nat × Flags :=
  if 0 ≤ e then
    if cos then fround .f32 0 false (.fin (decide (e = 0) && m % 2 == 1) 1 0)
    else fround .f32 0 false (.fin s 0 0)
  else
    let k := (-e).toNat + 1
    let n := (2 * m + (if cos then 2 ^ (k - 1) else 0)) % 2 ^ (k + 1)
    if n % 2 ^ (k - 1) = 0 then
      match n / 2 ^ (k - 1) with
      | 1 => fround .f32 0 false (.fin (!cos && s) 1 0)
      | 3 => fround .f32 0 false (.fin (if cos then true else !s) 1 0)
      | _ => fround .f32 0 false (.fin (!cos && s) 0 0)
    else
      let (neg, v) := sfSinTurn n k
      sfRound (if cos then neg else neg != s) v 0

/-- tanh of a nonzero finite value. -/
def sfTanh (s : Bool) (m : Nat) (e : Int) : Nat × Flags :=
  if (6 : Int) ≤ m.log2 + e then sfRound s (sfOne - 1) 0
  else
    let x := sfOfFin false m e
    let (v, n) := sfExp (2 * x)
    let y := v * 2 ^ n.toNat
    sfRound s (sfDiv (y - sfOne) (y + sfOne)) 0

/-- 1/(1 + e^−x) of a nonzero finite value. -/
def sfSigm (s : Bool) (m : Nat) (e : Int) : Nat × Flags :=
  if (8 : Int) ≤ m.log2 + e then (if s then fround .f32 0 false (.fin false 1 (-400)) else sfRound false (sfOne - 1) 0)
  else
    let (v, n) := sfExp (sfOfFin false m e)
    let y := v * 2 ^ n.toNat
    -- e^|x| = y: 1/(1+y) for x < 0, y/(1+y) for x > 0
    if s then sfRound false (sfDiv (sfOne * 2 ^ 200) (sfOne + y)) (-200)
    else sfRound false (sfDiv y (sfOne + y)) 0

/-- erf of a nonzero finite value. -/
def sfErf (s : Bool) (m : Nat) (e : Int) : Nat × Flags :=
  if (3 : Int) ≤ m.log2 + e then sfRound s (sfOne - 1) 0
  else
    let x := sfOfFin false m e
    let q := sfMul x x
    let rec sum : Nat → Nat → Int → Int → Int
      | 0, _, _, acc => acc
      | fuel + 1, k, t, acc => sum fuel (k + 1) (-(sfMul t q) / (k + 1)) (acc + t / (2 * k + 1))
    let rootPi : Int := isqrt ((sfPi * sfOne).toNat)
    sfRound s (sfDiv (2 * sum 420 0 x 0) rootPi) 0

/-- The functions of R202 by opcode minus 0x1C0, at the bits of an F32. -/
def sfFn (fn : Nat) (x : Nat) : Nat × Flags :=
  let canon : Nat × Flags := (0x7FC00000, flagIV)
  let posInf : Nat := 0x7F800000
  match fdecode .f32 x with
  | .nan s f => (encodeNan .f32 s f, 0)
  | .inf s =>
    match fn with
    | 0 => (if s then 0 else posInf, 0)
    | 1 => if s then canon else (posInf, 0)
    | 2 => (if s then 0x80000000 else 0, 0)
    | 3 => if s then canon else (0, 0)
    | 4 => if s then canon else (posInf, 0)
    | 5 | 6 => canon
    | 7 | 9 => (if s then 0xBF800000 else 0x3F800000, 0)
    | _ => (if s then 0 else 0x3F800000, 0)
  | .fin s m e =>
    if m = 0 then
      match fn with
      | 0 | 6 => (0x3F800000, 0)
      | 1 => (0xFF800000, flagDZ)
      | 2 | 3 => (if s then 0xFF800000 else posInf, flagDZ)
      | 8 => (0x3F000000, 0)
      | _ => (if s then 0x80000000 else 0, 0)
    else
      match fn with
      | 0 => sfExp2 s m e
      | 1 => if s then canon else sfLog2 m e
      | 2 => sfRatio s 1 m (-e)
      | 3 => if s then canon else sfSqrt true m e
      | 4 => if s then canon else sfSqrt false m e
      | 5 => sfTrig false s m e
      | 6 => sfTrig true s m e
      | 7 => sfTanh s m e
      | 8 => sfSigm s m e
      | _ => sfErf s m e

end Sys2Proof.Machine
end

