-- ==== Sys2Proof/Machine/Engines.lean ====
section
/-! DEFINITION. The meanings of the special-function queue's instructions (R199 to R205) and of those that start and read
copy programs (R206 to R210). -/

namespace Sys2Proof.Machine

/-- The SFU queue share of a domain slot (R219). -/
def Core.sfuShare (k : Core) (d : Nat) : Nat := ((k.dpeReg (8 * d + 3)).extractLsb' 16 6).toNat
/-- The copy-context share of a domain slot (R219). -/
def Core.copyShare (k : Core) (d : Nat) : Nat := ((k.dpeReg (8 * d + 3)).extractLsb' 22 5).toNat

/-- The bits of an F32 operand value. -/
def f32Bits (v : EV) : Nat := (fround .f32 0 false v.flt).1

/-- An enqueue (R199 to R203) of function `op` − 0x1C0, whatever ACTIVE is (R203): the result is formed from the source read at issue,
and delivered later. DEDUCED: log entry 41. -/
def sfqOp (op : Nat) (f : Fields) (s : State) : Host.Outcome State Fault Refusal :=
  issue op f pb0 (fun x s =>
    match metaOf op with
    | none => .wait
    | some m =>
      let share := x.core.sfuShare x.r.dslot
      let q := quadKey x.c x.r.quad
      let mine := s.sfu.filter (fun e => e.quad == q)
      let n := f.d.toNat % 16
      if share = 0 then .trap (x.trap 6 4)
      else if (x.r.tok n).state = .pending then .wait
      else if 32 ≤ mine.length ∨ share ≤ (mine.filter (fun e => e.dslot == x.r.dslot)).length then .wait
      else
        match x.mapIn s m with
        | .error a => a
        | .ok (s1, extra) =>
          let c := f.cw .f32
          let src := x.operand s f.mae f.ma.toNat (rowOf m f m.aw) 1 false (modSx c.modA) c.mz
            (fun l => readElems .f32 c.modA (x.r.vr f.a.toNat l).toNat)
          let one (l : Nat) : Nat × Flags :=
            let e := src.at_ l 0
            let r := sfFn (op - 0x1C0) (f32Bits e.1)
            (r.1, r.2 ||| e.2)
          let (delay, s2) := s1.drawDelay
          let tok : Token :=
            { state := .pending, did := x.r.did, lanes := x.act
              result := x.active.map (fun l => (l, BitVec.ofNat 32 (one l).1))
              flags := x.active.map (fun l => (l, (one l).2)) }
          let s3 := s2.onRope x.k (fun r => r.setTok n tok)
          .go { s3 with sfu := s3.sfu ++ [⟨x.k, n, x.r.dslot, q, x.core.cyc + 12 + delay⟩] } [] extra .fall) s

/-- SFQ.EXP2 (R202). -/
def execSfqExp2 (f : Fields) (s : State) : Host.Outcome State Fault Refusal := sfqOp 0x1C0 f s
/-- SFQ.LOG2 (R202). -/
def execSfqLog2 (f : Fields) (s : State) : Host.Outcome State Fault Refusal := sfqOp 0x1C1 f s
/-- SFQ.RCP (R202). -/
def execSfqRcp (f : Fields) (s : State) : Host.Outcome State Fault Refusal := sfqOp 0x1C2 f s
/-- SFQ.RSQ (R202). -/
def execSfqRsq (f : Fields) (s : State) : Host.Outcome State Fault Refusal := sfqOp 0x1C3 f s
/-- SFQ.SQRT (R202). -/
def execSfqSqrt (f : Fields) (s : State) : Host.Outcome State Fault Refusal := sfqOp 0x1C4 f s
/-- SFQ.SIN (R202). -/
def execSfqSin (f : Fields) (s : State) : Host.Outcome State Fault Refusal := sfqOp 0x1C5 f s
/-- SFQ.COS (R202). -/
def execSfqCos (f : Fields) (s : State) : Host.Outcome State Fault Refusal := sfqOp 0x1C6 f s
/-- SFQ.TANH (R202). -/
def execSfqTanh (f : Fields) (s : State) : Host.Outcome State Fault Refusal := sfqOp 0x1C7 f s
/-- SFQ.SIGM (R202). -/
def execSfqSigm (f : Fields) (s : State) : Host.Outcome State Fault Refusal := sfqOp 0x1C8 f s
/-- SFQ.ERF (R202). -/
def execSfqErf (f : Fields) (s : State) : Host.Outcome State Fault Refusal := sfqOp 0x1C9 f s

/-- SFQ.RD (R204): status at issue, the register write later. The token is freed whatever ACTIVE is. DEDUCED: log entry 41. -/
def execSfqRd (f : Fields) (s : State) : Host.Outcome State Fault Refusal :=
  issue 0x1CA f pb0 (fun x s =>
    let n := f.a.toNat % 16
    let t := x.r.tok n
    match t.state with
    | .pending => .wait
    | .free => .go s [] 0 .fall
    | .ready =>
      if t.did != x.r.did then .trap (x.trap 6 4)
      else
        let lanes := x.act &&& t.lanes
        let fl (l : Nat) : Flags := if lanes.getLsbD l then rget 0 t.flags l else 0
        let tl := x.fpxLanes fl
        if tl != 0 && !x.quiet 12 then .trap ⟨12, 0, tl, (x.fpxUnion fl).setWidth 32, 0, 0⟩
        else
          let ws := (lanesOf lanes).map (fun l => RegWrite.vec f.d.toNat l (rget 0 t.result l))
          let (delay, s1) := s.drawDelay
          let s2 := ({ s1 with nextId := s1.nextId + 1 } : State).onRope x.k (fun (r : Rope) =>
            { r.setTok n Token.none with
              outst := r.outst ++ [(⟨s1.nextId, x.core.cyc + 3 + delay, true, some n, ws, []⟩ : Outst)] })
          .go s2 (x.results fl (fun _ => false) []) 0 .fall) s

/-- The tokens of a WAITK's mask. -/
def waitMask (f : Fields) : List Nat := (List.range 16).filter (fun n => (f.c ++ f.b).getLsbD n)

/-- WAITK (R205). -/
def execWaitk (f : Fields) (s : State) : Host.Outcome State Fault Refusal :=
  issue 0x1CB f pb0 (fun x s =>
    let toks := waitMask f
    if toks.any (fun n => (x.r.tok n).state == .pending || x.r.outst.any (fun o => o.tok == some n)) then .wait
    else if toks.any (fun n => (x.r.tok n).state == .ready && (x.r.tok n).did != x.r.did) then .trap (x.trap 6 4)
    else
      .go (s.onRope x.k (fun r => toks.foldl (fun (q : Rope) n =>
        if (q.tok n).state = .ready then q.setTok n Token.none else q) r)) [] 0 .fall) s

/-! Copy programs. -/

/-- Whether an image has a section that holds an address (R365). -/
def Image.holds (i : Image) (a : Nat) : Bool := i.sections.any (fun c => decide (c.addr ≤ a) && decide (a < c.addr + c.size))

/-- Whether an address starts a copy word in a copy section of the binary of a domain that runs at `pc` (R208, R211). -/
def State.inCopy (s : State) (did : BitVec 16) (pc a : Nat) : Bool :=
  s.images.any (fun (_, i) => i.did == did && i.holds pc && i.starts.contains a &&
    i.sections.any (fun c => c.kind == 3 && decide (c.addr ≤ a) && decide (a < c.addr + c.size)))

/-- What CPRUN and CPCMD wait for (R22, R198, R206): a context of the engine and of the slot's share, CPC below 63. -/
def Issue.copyWaits (x : Issue) (s : State) : Bool :=
  let mine := s.ctxs.filter (fun (_, c) => c.core == x.c && c.task.isNone)
  decide (16 ≤ mine.length) || decide (x.core.copyShare x.r.dslot ≤ (mine.filter (fun (_, c) => c.dslot == x.r.dslot)).length) ||
    decide (63 ≤ x.r.cpc) || s.fenced x.k x.r x.unit

/-- The handle registers that a command captures. -/
def Rope.handleRegs (r : Rope) : Tbl (BitVec 12) := (List.range 16).map (fun n => (n, r.hr n))

/-- A command starts in a context of its own and counts in CPC (R206, R208, R209), behind what the rope has done (R217, R289). -/
def Issue.startCopy (x : Issue) (s : State) (start : DWord) (e : Tbl Word) (cmd : Option CpCmd) : Act :=
  let id := s.nextId
  let ctx : CopyCtx :=
    { id := id, core := x.c, wg := x.r.wg, rope := x.k, did := x.r.did, dslot := x.r.dslot, start := start, pc := start
      e := e, h := x.r.handleRegs, codeh := x.r.codeh, inFrame := x.r.frame.isSome
      entry := match x.r.frame with | some fr => fr.entry | none => 0
      callerDid := match x.r.frame with | some fr => fr.did | none => 0
      cmd := cmd, task := none, own := none, pages := x.w.pinned }
  let s0 := ({ s with nextId := id + 1, ctxs := tset s.ctxs id ctx } : State).startsCopy x.k id
  let s1 := s0.onRope x.k (fun (r : Rope) =>
    { r with cpc := r.cpc + 1, copies := r.copies ++ [(id, false)] })
  .go s1 [] 0 .fall

/-- CPRUN (R208). -/
def execCprun (f : Fields) (s : State) : Host.Outcome State Fault Refusal :=
  issue 0x1D0 f pb0 (fun x s =>
    let d := f.d.toNat
    let dest := addInt x.pc (8 * (f.c ++ (f.b ++ f.a)).toInt)
    if x.act = 0 then .go s [] 0 .fall
    else if x.core.copyShare x.r.dslot = 0 then .trap (x.trap 6 5)
    else if dest.toNat % 8 ≠ 0 ∨ !s.inCopy x.r.did x.pc.toNat dest.toNat then .trap (x.trap 2 0 0 dest)
    else if x.copyWaits s then .wait
    else x.startCopy s dest ([0, 1, 2, 3].map (fun n => (n, x.r.sr (d + n)))) none) s

/-- CPCMD (R209). -/
def execCpcmd (f : Fields) (pb : PB) (s : State) : Host.Outcome State Fault Refusal :=
  issue 0x1D1 f pb (fun x s =>
    if x.act = 0 then .go s [] 0 .fall
    else if x.core.copyShare x.r.dslot = 0 then .trap (x.trap 6 5)
    else if x.copyWaits s then .wait
    else
      x.startCopy s x.pc [(0, (f.cw .n32).imm)] (some
        { srcH := f.a.toNat % 16, dstH := f.d.toNat % 16
          src := (pb.w0 + x.r.sr f.b.toNat).toNat, dst := (pb.w1 + x.r.sr f.c.toNat).toNat, wrap := true
          len := pb.w2.toNat % 2 ^ 24, doneAddr := pb.w3 })) s

/-- A copy semaphore of a workgroup (R206). -/
def Workgroup.sem (w : Workgroup) (n : Nat) : BitVec 16 := rget 0 w.sems n

/-- CPQ (R210); a semaphore inside a gate frame raises DOMAIN, reason SYNC (R231). The programs that the rope has started are counted
whether in a gate frame or outside. -/
def execCpq (f : Fields) (s : State) : Host.Outcome State Fault Refusal :=
  issue 0x1D2 f pb0 (fun x s =>
    let n := f.b.toNat
    if x.act = 0 then .go s [] 0 .fall
    else if n < 8 then
      if x.r.frame.isSome then .trap (x.trap 6 6)
      else .go s [.scalar f.d.toNat ((x.w.sem n).setWidth 32)] 0 .fall
    else
      let running := (s.ctxs.filter (fun (_, c) => c.rope == x.k && c.task.isNone)).length
      .go s [.scalar f.d.toNat (BitVec.ofNat 32 running)] 0 .fall) s

end Sys2Proof.Machine
end

