-- ==== Sys2Proof/Machine/Copy.lean ====
section
/-! DEFINITION. The meanings of the copy words (R211 to R217), run by the copy context at the copy engine's turn, and copy
faults (R216). -/

namespace Sys2Proof.Machine

/-! The end of programs. -/

/-- A program of a list marked ended; those at the head that have ended are counted out (R184). -/
def endIn (l : List (Nat × Bool)) (id : Nat) : List (Nat × Bool) :=
  (l.map (fun p => if p.1 = id then (p.1, true) else p)).dropWhile (·.2)

/-- The rope with a program complete in CPC: the caller's own programs count down the saved CPC of a frame (R230). -/
def Rope.endCopy (r : Rope) (c : CopyCtx) : Rope :=
  match r.frame with
  | some fr =>
    if c.inFrame then let l := endIn r.copies c.id; { r with copies := l, cpc := l.length }
    else let l := endIn fr.copies c.id; { r with frame := some { fr with copies := l, cpc := l.length } }
  | none => let l := endIn r.copies c.id; { r with copies := l, cpc := l.length }

/-- A context ends: it is free, and its program is complete in CPC. That is a release (R282), which no acquire of the rope reads: CPC
orders nothing by itself (R217, R286). -/
def State.endCtx (s : State) (k : Nat) (c : CopyCtx) : State :=
  { s with ctxs := terase s.ctxs k }.onRope c.rope (fun r => r.endCopy c)

/-- The record of a copy fault (R216, R236): LANEMASK and IW 0, FPC the program's start, INFO the word's offset, ADDR the target of
an ENTRY or the virtual address of an ALIAS or XLATE. A CPCMD has no program: FPC is its own address, and INFO 0 for its move, 56 for its
completion word. DESIGN CHOICE: log entry 57. -/
def copyTrap (c : CopyCtx) (cause reason : Nat) (addr : DWord) : TrapRec :=
  { cause := BitVec.ofNat 8 cause, reason := BitVec.ofNat 8 reason, async := true, copy := true, frame := c.inFrame
    action := defaultAction cause, lanemask := 0, fpc := c.start, rpc := 0
    info := ((c.pc - c.start).setWidth 16).setWidth 32, offset := 0, addr := addr, iw := 0, saved := [0, 0, 0, 0] }

/-- A copy fault stops a program (R216): it is delivered to the starting rope, becomes a task fault where that rope has
ended, and is the task fault ENGINE of a task's own command (R257). -/
def State.copyFault (s : State) (k : Nat) (cause reason : Nat) (addr : DWord := 0) : State :=
  match tget s.ctxs k with
  | none => s
  | some c =>
    match c.task with
    | some (st, t) =>
      { s with
        ctxs := terase s.ctxs k
        faults := s.faults ++ [⟨st, t, ⟨10, BitVec.ofNat 8 cause, 0, BitVec.ofNat 32 cause⟩, 0xFFFFFFFF, none, s.etime⟩] }
    | none =>
      let t := copyTrap c cause reason addr
      let s1 := s.endCtx k c
      match tget s1.ropes c.rope with
      | some r =>
        if r.ended then
          match tget s1.wgs c.wg with
          | some w => s1.raiseFault w 5 3 (BitVec.ofNat 32 cause) (some t)
          | none => s1
        else s1.holdTrap c.rope ⟨t, none, none⟩
      | none => s1

/-! Running words. -/

/-- A copy word's meaning: `body` acts on the running context and answers its next state, or none while the word waits. -/
def copyOp (body : Nat → CopyCtx → State → Option State) (s : State) : Host.Outcome State Fault Refusal :=
  match tget s.ctxs s.curCtx with
  | none => .fault .noCopyContext
  | some c =>
    match body s.curCtx c s with
    | none => .next s
    | some s1 => .next { s1 with turn := .choose }

/-- The context goes on at a copy PC; a program that lands on no start of the copy section halts with ENTRY (R211). -/
def State.copyGo (s : State) (k : Nat) (c : CopyCtx) (dest : DWord) : State :=
  if c.cmd.isSome || c.own.isSome || s.inCopy c.did c.start.toNat dest.toNat then
    { s with ctxs := tset s.ctxs k { c with pc := dest, pages := (tget s.wgs c.wg).elim [] Workgroup.pinned } }
  else s.copyFault k 2 0 dest

/-- Copy register n of a context (R206). -/
def CopyCtx.er (c : CopyCtx) (n : Nat) : Word := rget 0 c.e n
/-- The context with a copy register written. -/
def CopyCtx.setE (c : CopyCtx) (n : Nat) (v : Word) : CopyCtx := { c with e := rset 0 c.e n v }

/-- The number n of a copy word's [10:8]. -/
def cwNum (w : CopyWord) : Nat := w.lo.toNat % 8

/-- SETE (R211). -/
def execCopySete (w : CopyWord) (s : State) : Host.Outcome State Fault Refusal :=
  copyOp (fun k c s => some (s.copyGo k (c.setE (cwNum w) w.hi) (c.pc + 8))) s

/-- ADDE (R211). -/
def execCopyAdde (w : CopyWord) (s : State) : Host.Outcome State Fault Refusal :=
  copyOp (fun k c s => some (s.copyGo k (c.setE (cwNum w) (c.er (cwNum w) + w.hi)) (c.pc + 8))) s

/-- LOOP's offset in words, 16-bit signed (R211). -/
def cwLoop (w : CopyWord) : Int := (w.mid ++ w.lo.extractLsb' 8 4).toInt

/-- LOOP (R211). -/
def execCopyLoop (w : CopyWord) (s : State) : Host.Outcome State Fault Refusal :=
  copyOp (fun k c s =>
    if c.er (cwNum w) ≠ 0 then some (s.copyGo k (c.setE (cwNum w) (c.er (cwNum w) - 1)) (addInt c.pc (8 * cwLoop w)))
    else some (s.copyGo k c (c.pc + 8))) s

/-- A semaphore word's meaning, outside a gate frame (R231), with its release or acquire at scope WG (R282). -/
def semOp (w : CopyWord) (g : BitVec 16 → Option (BitVec 16)) (sync : State → Agent → Place → State) (s : State) : Host.Outcome State Fault Refusal :=
  copyOp (fun k c s =>
    if c.inFrame then some (s.copyFault k 6 6)
    else
      match tget s.wgs c.wg with
      | none => some (s.copyFault k 6 6)
      | some wg =>
        match g (wg.sem (cwNum w)) with
        | none => none
        | some v => some ((sync (s.setWg c.wg { wg with sems := rset 0 wg.sems (cwNum w) v }) (.copy c.id) (semPlace c.wg (cwNum w))).copyGo k c (c.pc + 8))) s

/-- SEMS (R211). -/
def execCopySems (w : CopyWord) (s : State) : Host.Outcome State Fault Refusal :=
  semOp w (fun v => some (if v = 0xFFFF then v else v + 1)) (fun t a p => t.publishes a t.nextId p (some 1) true) s

/-- SEMW (R211). -/
def execCopySemw (w : CopyWord) (s : State) : Host.Outcome State Fault Refusal :=
  semOp w (fun v => if v = 0 then none else some (v - 1)) (fun t a p => t.observes a t.nextId p (some 1)) s

/-- BARR (R211): every earlier move of the program has been performed when its word has run. -/
def execCopyBarr (_ : CopyWord) (s : State) : Host.Outcome State Fault Refusal :=
  copyOp (fun k c s => some (s.copyGo k c (c.pc + 8))) s

/-- Whether an access of the starting rope, issued before the program, still waits in the log for the line of a place: the program's
accesses there come after it (R217). -/
def State.behindRope (s : State) (c : CopyCtx) (t : Target) (ad : Nat) : Bool :=
  s.log.any (fun l => l.rope == c.rope && c.task.isNone && l.kind != 3 && decide (l.id < c.id) &&
    l.lanes.any (fun x => s.storageLine (l.target s) x.addr == s.storageLine t ad))

/-- Where a context's completion word goes: its workgroup's scratchpad (R211). -/
def CopyCtx.doneGoal (c : CopyCtx) : Target :=
  ⟨spScratch, c.did, 0, c.wg, 0, 0, none, .core c.core, 0, 2, 0, 0, some (.copy c.id), 0⟩

/-- DONE (R211): the completion word goes to the workgroup's scratchpad, inside its declared size (R179), not in a gate
frame (R231); it comes after the starting rope's earlier accesses to it (R217). -/
def execCopyDone (w : CopyWord) (s : State) : Host.Outcome State Fault Refusal :=
  copyOp (fun k c s =>
    match tget s.wgs c.wg with
    | none => some (s.copyFault k 6 5)
    | some wg =>
      let a := w.hi.toNat
      if wg.scratchSize < a + 4 then some (s.copyFault k 4 3)
      else if c.inFrame then some (s.copyFault k 6 5)
      else if !wg.pinnedAt a 4 || s.behindRope c c.doneGoal a then none
      else
        some (((s.writeScratch c.wg (some (.copy c.id)) s.nextId a (leBytes 4 (c.er (cwNum w)).toNat)).publishes (.copy c.id) s.nextId
          ⟨spScratch, place c.wg a, 4⟩ (some 3) false).copyGo k c (c.pc + 8))) s

/-- END (R211): the program is complete. -/
def execCopyEnd (_ : CopyWord) (s : State) : Host.Outcome State Fault Refusal :=
  copyOp (fun k c s => some (s.endCtx k c)) s

/-! Moves. -/

/-- A shape's words, with the marked ones replaced by copy registers (R213); none where a marked word is malformed. -/
def shapeWords (sh : Shape) : List Word :=
  [sh.w0, sh.w1, sh.w2, sh.w3, sh.w4, sh.w5, sh.w6, sh.w7, sh.w8, sh.w9, sh.w10, sh.w11]

/-- The words of a shape after MARK, and whether every marked word was well formed (R213). -/
def CopyCtx.marked (c : CopyCtx) (mark : BitVec 12) (sh : Shape) : List Word × Bool :=
  let l := (shapeWords sh).zipIdx
  (l.map (fun (w, i) => if mark.getLsbD i then c.er (w.toNat % 8) else w),
    l.all (fun (w, i) => !mark.getLsbD i || decide (w.toNat < 8)))

/-- A move, read from a shape or a byte run: handle registers, offsets, counts, strides, ESIZE in bytes, CONV, SCLOFF. -/
structure Move where
  src : Int
  dst : Int
  srcH : Nat
  dstH : Nat
  n0 : Nat
  n1 : Nat
  n2 : Nat
  esize : Nat
  conv : Nat
  ss1 : Int
  ss2 : Int
  ds1 : Int
  ds2 : Int
  scl : Int
  wrap : Bool
  deriving DecidableEq, Repr

/-- The conversions that write blocks (R214). -/
def isBlockConv (c : Nat) : Bool := decide (5 ≤ c)

/-- The move of a shape (R212), or none where the command halts with ILL. -/
def moveOf (fill : Bool) (l : List Word) : Option Move :=
  let w (k : Nat) : Nat := (l.getD k 0).toNat
  let si (k : Nat) : Int := (l.getD k 0).toInt
  let es := w 5 / 65536 % 8
  let cv := w 5 / 2 ^ 19 % 16
  let n0 := w 4 % 65536
  if 16 ≤ w 2 ∨ 16 ≤ w 3 ∨ w 5 / 2 ^ 23 ≠ 0 ∨ w 11 ≠ 0 ∨ 5 ≤ es ∨ (cv ≠ 0 ∧ es ≠ 2) ∨ (fill ∧ (es ≠ 2 ∨ w 2 ≠ 0)) ∨
      (!isBlockConv cv ∧ w 10 ≠ 0) ∨ (isBlockConv cv ∧ n0 % 32 ≠ 0) then none
  else
    some ⟨w 0, w 1, w 2, w 3, n0, w 4 / 65536, w 5 % 65536, 2 ^ es, cv, si 6, si 7, si 8, si 9, w 10, false⟩

/-- Bits of a destination element (R214). -/
def Move.dbits (m : Move) : Nat :=
  match m.conv with
  | 0 => 8 * m.esize
  | 1 | 2 => 16
  | 5 | 9 | 10 | 11 => 4
  | _ => 8

/-- The block format of a CONV (R214). -/
def blockOf (c : Nat) : BlockFmt :=
  match c with
  | 5 => .mxf4
  | 6 => .mxf6
  | 7 => .mxf8
  | 8 => .mxi8
  | n => .bfp (n - 7)

/-- The outer positions of a move, in loop order (R215). -/
def Move.rows (m : Move) : List (Nat × Nat) := (List.range m.n2).flatMap (fun i2 => (List.range m.n1).map (fun i1 => (i2, i1)))

/-- An offset of a byte run, modulo 2^32 where it wraps (R209). -/
def Move.off (m : Move) (o : Int) : Int := if m.wrap then o % 2 ^ 32 else o

/-- so of R215. -/
def Move.so (m : Move) (i2 i1 i0 : Nat) : Int := m.off (m.src + i2 * m.ss2 + i1 * m.ss1 + i0 * m.esize)
/-- do of R215, of the byte that holds a 4-bit element. -/
def Move.dof (m : Move) (i2 i1 i0 : Nat) : Int := m.off (m.dst + i2 * m.ds2 + i1 * m.ds1 + (i0 * m.dbits / 8 : Nat))

/-- The offsets of the source elements, in loop order. -/
def Move.srcOffs (m : Move) : List Int := m.rows.flatMap (fun p => (List.range m.n0).map (fun i => m.so p.1 p.2 i))
/-- The offsets of the destination elements, in loop order. -/
def Move.dstOffs (m : Move) : List Int := m.rows.flatMap (fun p => (List.range m.n0).map (fun i => m.dof p.1 p.2 i))
/-- The number of blocks. -/
def Move.blocks (m : Move) : Nat := if isBlockConv m.conv then m.n2 * m.n1 * (m.n0 / 32) else 0
/-- The offsets of the scale bytes (R215). -/
def Move.sclOffs (m : Move) : List Int := (List.range m.blocks).map (fun (b : Nat) => m.scl + (b : Int))

/-- A handle of a context (R206, R231): a frame's program reaches the caller's h14 and h15. -/
def State.ctxHandle (s : State) (c : CopyCtx) (n : Nat) : HRef :=
  let own := s.handle c.did (s.domain c.did).asid (rget 0 c.h n)
  if c.inFrame then
    if n = 14 ∧ c.entry.getLsbD 260 then
      let h := s.handle c.callerDid (s.domain c.callerDid).asid (rget 0 c.h 14)
      { h with rights := h.rights &&& c.entry.extractLsb' 261 4 }
    else if n = 15 ∧ c.entry.getLsbD 276 then
      let h := s.handle c.callerDid (s.domain c.callerDid).asid (rget 0 c.h 15)
      { h with rights := h.rights &&& c.entry.extractLsb' 277 4 }
    else own
  else own

/-- One operand of a command to be checked: its handle, the right it needs, its size, the alignment its 4-bit elements ask
of the destination's offsets, and its offsets. -/
structure CopyArg where
  h : HRef
  right : BitVec 4
  size : Nat
  nibbleOk : Bool
  offs : List Int

/-- Step `n` of the checks of R179 on one operand of a copy command (R215): cause and reason. An operand of a task's command that names
SCRATCH, with no workgroup behind it, fails the range of the scratchpad. DESIGN CHOICE: log entry 58. -/
def State.copyStep (s : State) (c : CopyCtx) (n : Nat) (a : CopyArg) : Option (Nat × Nat) :=
  let e := a.h.ent
  let scratch := match tget s.wgs c.wg with | some w => (w.scratchSize : Int) | none => 0
  let bad (p : Int → Bool) (r : Nat × Nat) : Option (Nat × Nat) := if a.offs.any p then some r else none
  match n with
  | 1 => bad (fun _ => !e.v) (5, 1)
  | 2 => bad (fun _ => !e.ok || (e.space == spCtrl && (s.ctrlStream a.h).isNone)) (5, 2)
  | 3 => bad (fun _ => e.space == spCtrl) (5, 3)
  | 4 => bad (fun _ => a.right &&& a.h.rights != a.right) (5, 4)
  | 5 => bad (fun o => ((e.base : Int) + o) % a.size != 0 || !a.nibbleOk) (4, 2)
  | 6 => bad (fun o => decide (o < 0) || decide ((e.len : Int) < o + a.size)) (4, 1)
  | 7 => bad (fun o => e.space == spScratch && decide (scratch < e.base + o + a.size)) (4, 3)
  | _ => bad (fun _ => e.space == spScratch && (c.inFrame || c.task.isSome)) (6, 5)

/-- The first failing check of a command, each check over every operand before the next (R215). -/
def State.copyChecks (s : State) (c : CopyCtx) (args : List CopyArg) : Option (Nat × Nat) :=
  ([1, 2, 3, 4, 5, 6, 7, 8] : List Nat).findSome? (fun n => args.findSome? (fun a => s.copyStep c n a))

/-- The requester of a context's accesses (R337): its core's cluster; of a task's command its stream's hub die. -/
def State.ctxVia (s : State) (c : CopyCtx) : Requester :=
  match c.task with
  | some (st, _) => .hub ((tget s.streams st).elim 0 Stream.hub)
  | none => .core c.core

/-- Where an access of a context through a handle goes: at the homes, through its requester. It has no ordering kind (R280 names
instructions alone). -/
def State.ctxGoal (s : State) (c : CopyCtx) (h : HRef) : Target :=
  ⟨h.ent.space, h.did, h.asid, c.wg, 0, h.ent.peer, none, s.ctxVia c, h.ent.key, 2,
    h.ent.policy, if c.task.isSome then 0 else (s.core c.core).wayMask c.dslot, if c.task.isSome then none else some (.copy c.id), s.nextId⟩

/-- The reason why a place cannot be reached, or none (R302 to R306, R313, R338). -/
def State.reach (s : State) (t : Target) (kind : AccKind) (addr size : Nat) : Option Nat :=
  if t.space = spGlobal then
    match s.find t addr kind with
    | .ok .. => none
    | .fault r => some r
    | .aliased => some 0
  else if s.linkOk t addr size then none
  else some 6

/-- Reads bytes at a reachable place. -/
def State.peek (s : State) (t : Target) (addr n : Nat) : List Byte :=
  match s.find t addr .read with
  | .ok f _ _ _ => s.readAt t f addr n
  | _ => s.readAt t 0 addr n

/-- What a command's reads leave: translations (R295, R302, R305), and update-only copies that have been recalled (R297). -/
def State.touch (s : State) (t : Target) (addrs : List Nat) : State :=
  if t.space = spGlobal then
    (addrs.map (· / 128)).eraseDups.foldl (fun (u : State) l => (u.xlate t (128 * l) .read).2.recall t.asid (128 * l)) s
  else s

/-- Writes one byte at a reachable place. -/
def State.poke (s : State) (t : Target) (addr : Nat) (b : Byte) : State :=
  if t.space = spGlobal then
    match s.xlate t addr .write with
    | (.ok f _ _ _, s1) => s1.writeAt t f addr [b]
    | (_, s1) => s1
  else s.writeAt t 0 addr [b]

/-- A converted element (R214): RNE, saturating. -/
def convElem (conv : Nat) (v : Nat) : List Byte :=
  let t : Ty := match conv with | 1 => .bf16 | 2 => .f16 | 3 => .e4m3 | _ => .e5m2
  leBytes (t.width / 8) (fround t 0 true (fdecode .f32 v)).1

/-- Packs 4-bit elements by R35. -/
def packNibbles : List Nat → List Byte
  | a :: b :: r => BitVec.ofNat 8 (a % 16 + 16 * (b % 16)) :: packNibbles r
  | [a] => [BitVec.ofNat 8 (a % 16)]
  | [] => []

/-- What a command writes, in loop order: destination offsets (and whether of a scale byte) with their bytes; `rd` reads a
source element's bytes (R215). -/
def Move.writes (m : Move) (rd : Int → List Byte) : List (Bool × Int × List Byte) :=
  if isBlockConv m.conv then
    let runs := m.rows.flatMap (fun p => (List.range (m.n0 / 32)).map (fun b => (p.1, p.2, 32 * b)))
    runs.zipIdx.flatMap (fun ((i2, i1, i0), b) =>
      let vs := (List.range 32).map (fun j => fdecode .f32 (leNat (rd (m.so i2 i1 (i0 + j)))))
      let q := quantBlock (blockOf m.conv) vs
      let bytes := if m.dbits = 4 then packNibbles q.2 else q.2.map (fun x => BitVec.ofNat 8 x)
      [(false, m.dof i2 i1 i0, bytes), (true, m.scl + b, [BitVec.ofNat 8 q.1])])
  else
    m.rows.flatMap (fun p => (List.range m.n0).map (fun i =>
      let b := rd (m.so p.1 p.2 i)
      (false, m.dof p.1 p.2 i, if m.conv = 0 then b else convElem m.conv (leNat b))))

/-- The single bytes that a command writes: address and byte. -/
def Move.bytes (m : Move) (h : HRef) (rd : Int → List Byte) : List (Nat × Byte) :=
  (m.writes rd).flatMap (fun (_, o, bs) => bs.zipIdx.map (fun (b, i) => (((h.ent.base : Int) + o).toNat + i, b)))

/-- The operands of a command and their checks (R215). -/
def Move.args (m : Move) (fill : Bool) (hs hd : HRef) : List CopyArg :=
  let nib := m.dbits != 4 || (m.dst % 16 == 0 && m.ds1 % 16 == 0 && m.ds2 % 16 == 0)
  (if fill then [] else [⟨hs, 1, m.esize, true, m.srcOffs⟩]) ++
    [⟨hd, 2, max 1 (m.dbits / 8), nib, m.dstOffs⟩, ⟨hd, 2, 1, true, m.sclOffs⟩]

/-- The first reason why a command's operands cannot all be reached (R215), with the address. -/
def State.moveFault (s : State) (c : CopyCtx) (args : List CopyArg) : Option (Nat × Nat) :=
  args.findSome? (fun a =>
    let k : AccKind := if a.right = 1 then .read else .write
    a.offs.findSome? (fun o =>
      let ad := ((a.h.ent.base : Int) + o).toNat
      (s.reach (s.ctxGoal c a.h) k ad a.size).map (fun r => (r, ad))))

/-- Whether a link refuses a command (R313): a free choice where an operand is reached over one. DESIGN CHOICE: log entry 48. -/
def State.moveRefused (s : State) (args : List CopyArg) : Bool × State :=
  if args.any (fun a => (a.h.ent.space == spHost || a.h.ent.space == spPeer) && !a.offs.isEmpty) then (s.draw.1 % 2 == 1, s.draw.2)
  else (false, s)

/-- Whether a command must wait: a page that has not been pinned since it began (R298), or an access of the starting rope, issued before
the program, that still waits in the log for a line it touches (R217). -/
def State.moveWaits (s : State) (c : CopyCtx) (args : List CopyArg) : Bool :=
  args.any (fun a =>
    let t := s.ctxGoal c a.h
    a.offs.any (fun o =>
      let ad := ((a.h.ent.base : Int) + o).toNat
      (t.space == spScratch && (match tget s.wgs c.wg with | some w => !w.pagedBy c.pages ad a.size | none => false)) ||
      s.behindRope c t ad))

/-- The bytes of a command as they are written: those that overlap the source, wherever its handle says it is, have undefined contents
(R4, R215), formed from the command's own bytes. DESIGN CHOICE: log entry 5. -/
def State.moveBytes (s : State) (c : CopyCtx) (m : Move) (fill : Bool) (value : Word) (hs hd : HRef) : List (Nat × Byte) × State :=
  let ts := s.ctxGoal c hs
  let td := s.ctxGoal c hd
  let rd (o : Int) : List Byte := if fill then leBytes 4 value.toNat else s.peek ts ((hs.ent.base : Int) + o).toNat m.esize
  let l := m.bytes hd rd
  let srcs := if fill then []
    else m.srcOffs.flatMap (fun o => (List.range m.esize).map (fun i => s.storage ts (((hs.ent.base : Int) + o).toNat + i)))
  if l.all (fun p => !srcs.contains (s.storage td p.1)) then (l, s)
  else
    let open_ := s.openBytes c.did (l.map Prod.snd) l.length
    ((l.zip open_.1).map (fun (p, b) => if srcs.contains (s.storage td p.1) then (p.1, b) else p), open_.2)

/-- The physical line of a place in GLOBAL space. -/
def State.lineAt (s : State) (t : Target) (kind : AccKind) (addr : Nat) : Option Nat :=
  if t.space = spGlobal then
    match s.lookup t.asid addr kind (some t.key) with
    | .ok f _ _ _ => some (physOf f addr / 128)
    | _ => none
  else none

/-- Poisoned lines of which a list of written addresses covers all 128 bytes are healed (R357). DEDUCED: log entry 13. -/
def State.healLines (s : State) (t : Target) (l : List Nat) : State :=
  if s.poison.isEmpty then s
  else
    let lines := l.eraseDups.filterMap (s.lineAt t .write)
    { s with poison := s.poison.filter (fun p => decide ((lines.filter (· == p)).length < 128)) }

/-- The runs of neighbouring addresses in a list, as (first, length). -/
def addrRuns (l : List Nat) : List (Nat × Nat) :=
  l.foldl (fun acc a =>
    match acc with
    | (lo, n) :: r => if a = lo + n then (lo, n + 1) :: r else (a, 1) :: acc
    | [] => [(a, 1)]) []

/-- The places that a context or a signal has written, as a read-modify-write or not, to the consistency model (R283). -/
def State.poked (s : State) (t : Target) (l : List Nat) (rmw : Bool) : State :=
  (addrRuns l).foldl (fun (u : State) r =>
    if t.space = spGlobal then
      (pageRuns r.1 r.2).foldl (fun (v : State) p =>
        match v.lookup t.asid p.1 .write with
        | .ok f _ _ _ => v.released t f p.1 p.2 rmw
        | _ => v) u
    else u.released t 0 r.1 r.2 rmw) s

/-- A move's effect: what its reads translate, then its bytes written in order. R218 lets every 128-byte chunk land by itself; the model
writes all chunks of a command in one step. DESIGN CHOICE: log entry 57. -/
def State.doMove (s : State) (c : CopyCtx) (hs hd : HRef) (srcs : List Int) (l : List (Nat × Byte)) : State :=
  let t := s.ctxGoal c hd
  let s1 := s.touch (s.ctxGoal c hs) (srcs.map (fun o => ((hs.ent.base : Int) + o).toNat))
  ((l.foldl (fun (u : State) p => u.poke t p.1 p.2) s1).poked t (l.map Prod.fst) false).healLines t (l.map Prod.fst)

/-- The first address at which a command reads a poisoned line (R357), if it does. -/
def State.movePoisoned (s : State) (c : CopyCtx) (args : List CopyArg) : Option Nat :=
  if s.poison.isEmpty then none
  else args.findSome? (fun a => if a.right != 1 then none else a.offs.findSome? (fun o =>
    let ad := ((a.h.ent.base : Int) + o).toNat
    match s.lineAt (s.ctxGoal c a.h) .read ad with
    | some p => if s.poison.contains p then some ad else none
    | none => none))

/-- The first address of a command that goes over a link, or 0. -/
def linkAddr (args : List CopyArg) : Nat :=
  (args.findSome? (fun a =>
    if a.h.ent.space == spHost || a.h.ent.space == spPeer then a.offs.head?.map (fun o => ((a.h.ent.base : Int) + o).toNat) else none)).getD 0

/-- The move of a context's byte run (R209, R259). -/
def CpCmd.move (d : CpCmd) : Move := ⟨d.src, d.dst, d.srcH, d.dstH, d.len, 1, 1, 1, 0, 0, 0, 0, 0, 0, d.wrap⟩

/-- After an unresolved translation fault each 128-byte chunk of the failing command's destination holds its old bytes or all
its new bytes (R216): a free choice for each chunk that can be reached. -/
def State.partMove (s : State) (c : CopyCtx) (hd : HRef) (l : List (Nat × Byte)) (srcOk : Bool) : State :=
  let t := s.ctxGoal c hd
  let chunks := (l.map (fun p => p.1 / 128)).eraseDups
  chunks.foldl (fun (u : State) ch =>
    let (v, u1) := u.draw
    if v % 2 = 1 ∧ srcOk ∧ (u1.reach t .write (128 * ch) 1).isNone then
      let those := l.filter (fun p => p.1 / 128 == ch)
      ((those.foldl (fun (x : State) p => x.poke t p.1 p.2) u1).poked t (those.map Prod.fst) false).healLines t (those.map Prod.fst)
    else u1) s

/-- XFER and FILL (R212 to R216): the checks, the waits, and the move; one that a link refuses is performed in part.
DEDUCED: log entry 30. -/
def moveOp (fill : Bool) (w : CopyWord) (sh : Shape) (s : State) : Host.Outcome State Fault Refusal :=
  copyOp (fun k c s =>
    let (l, ok) := c.marked w.lo sh
    let m? := match c.cmd with
      | some d => some d.move
      | none => if ok then moveOf fill l else none
    match m? with
    | none => some (s.copyFault k 1 1)
    | some m =>
      let hs := s.ctxHandle c m.srcH
      let hd := s.ctxHandle c m.dstH
      let args := m.args fill hs hd
      match s.copyChecks c args with
      | some (cause, reason) => some (s.copyFault k cause reason)
      | none =>
        if s.moveWaits c args || (s.moveFault c args).isSome then none
        else
          match s.movePoisoned c args with
          | some va => some (s.copyFault k 9 5 (BitVec.ofNat 64 va))
          | none =>
            let (bytes, s0) := s.moveBytes c m fill w.hi hs hd
            match s0.moveRefused args with
            | (true, s1) => some ((s1.partMove c hd bytes true).copyFault k 9 6 (BitVec.ofNat 64 (linkAddr args)))
            | (false, s1) => some ((s1.doMove c hs hd (if fill then [] else m.srcOffs) bytes).copyGo k c (c.pc + 56))) s

/-- XFER (R211, R215). -/
def execCopyXfer (w : CopyWord) (sh : Shape) (s : State) : Host.Outcome State Fault Refusal := moveOp false w sh s
/-- FILL (R211, R215). -/
def execCopyFill (w : CopyWord) (sh : Shape) (s : State) : Host.Outcome State Fault Refusal := moveOp true w sh s

/-- Bytes of code read as fetches read them (R303). -/
def State.codeBytes (s : State) (asid : BitVec 16) (va n : Nat) : List Byte :=
  (List.range n).map (fun i =>
    match s.lookup asid (va + i) .fetch with
    | .ok f _ _ _ => (s.physBytes (physOf f (va + i)) 1).getD 0 0
    | _ => 0)

/-- The state after the homes have performed the reads of fetched bytes: the update-only copies there have been recalled (R297). -/
def State.codeRead (s : State) (asid : BitVec 16) (va n : Nat) : State :=
  (pageRuns va n).foldl (fun (t : State) p =>
    match t.lookup asid p.1 .fetch with
    | .ok f _ _ _ => t.recallPhys (physOf f p.1) p.2
    | _ => t) s

/-- The copy word of a program at its PC, and the shape behind an XFER or FILL (R211, R212). -/
def State.copyWordAt (s : State) (c : CopyCtx) : DWord × Shape :=
  let rd (o n : Nat) : Nat := leNat (s.codeBytes (s.domain c.did).asid (c.pc.toNat + o) n)
  let word (k : Nat) : Word := BitVec.ofNat 32 (rd (8 + 4 * k) 4)
  (BitVec.ofNat 64 (rd 0 8), ⟨word 0, word 1, word 2, word 3, word 4, word 5, word 6, word 7, word 8, word 9, word 10, word 11⟩)

/-- The bytes of a copy word with what follows it: 56 where a shape does (R211, R212). -/
def copyLen (w : DWord) : Nat := if w.extractLsb' 0 8 = 1 ∨ w.extractLsb' 0 8 = 2 then 56 else 8

/-- What stops the fetch of a program's word (R216, R338, R357): cause, reason and address. -/
def State.copyFetchFault (s : State) (c : CopyCtx) : Option (Nat × Nat × Nat) :=
  let asid := (s.domain c.did).asid
  let at_ (va : Nat) : Option (Nat × Nat × Nat) :=
    if s.refusesBy (s.ctxVia c) asid (va / 128) then some (9, 5, va)
    else
    match s.lookup asid va .fetch with
    | .ok f _ _ _ => if s.poisoned (physOf f va) then some (9, 5 + 16, va) else none
    | .fault r => some (9, r, va)
    | .aliased => some (8, 0, va)
  let va := c.pc.toNat
  match at_ va with
  | some z => some z
  | none =>
    let op := (s.codeBytes asid va 1).getD 0 0
    if (op = 1 ∨ op = 2) ∧ (va + 55) / 128 ≠ va / 128 then at_ (128 * ((va + 55) / 128)) else none

/-- The command that a context stands at, as CO, MARK, fill value and shape words; a byte run moves bytes. -/
def State.ctxMove (s : State) (c : CopyCtx) : Option (Bool × Word × Move) :=
  match c.cmd with
  | some d => if c.pc = c.start then some (false, 0, d.move) else none
  | none =>
    match c.own with
    | some (co, v, sh) => if c.pc = c.start then (moveOf (co == 2) (shapeWords sh)).map (fun m => (co == 2, v, m)) else none
    | none =>
      let (w, sh) := s.copyWordAt c
      let co := (w.extractLsb' 0 8).toNat
      if co = 1 ∨ co = 2 then
        let (l, ok) := c.marked (w.extractLsb' 8 12) sh
        if ok then (moveOf (co == 2) l).map (fun m => (co == 2, w.extractLsb' 32 32, m)) else none
      else none

/-- What holds a context's program up until the Herey controller declines (R216): the cause, reason and address of its word's
fetch, or of a command that passes its checks and cannot reach a place. -/
def State.copyStuck (s : State) (c : CopyCtx) : Option (Nat × Nat × Nat) :=
  match (if c.cmd.isSome || c.own.isSome then none else s.copyFetchFault c) with
  | some (cause, r, va) => if r < 16 then some (cause, r, va) else none
  | none =>
    match s.ctxMove c with
    | none => none
    | some (fill, _, m) =>
      let args := m.args fill (s.ctxHandle c m.srcH) (s.ctxHandle c m.dstH)
      if (s.copyChecks c args).isSome then none
      else (s.moveFault c args).map (fun (r, va) => (if r = 0 then 8 else 9, r, va))

/-- What a halted or declined command of a context has performed (R213, R216, R270): nothing where its checks fail or a source
cannot be reached, else in part. -/
def State.haltMove (s : State) (c : CopyCtx) : State :=
  match s.ctxMove c with
  | none => s
  | some (fill, v, m) =>
    let hs := s.ctxHandle c m.srcH
    let hd := s.ctxHandle c m.dstH
    let srcs := (m.args fill hs hd).filter (fun a => a.right == 1)
    if (s.copyChecks c (m.args fill hs hd)).isSome || (s.moveFault c srcs).isSome then s
    else let (bytes, s1) := s.moveBytes c m fill v hs hd; s1.partMove c hd bytes true

/-- What an access of a context that is not made leaves behind (R338, R357): at an address of its word's fetch, or of its command. -/
def State.copyFailed (s : State) (c : CopyCtx) (va : Nat) : State :=
  let asid := (s.domain c.did).asid
  if c.cmd.isNone && c.own.isNone && (s.copyFetchFault c).isSome then
    if s.refusesBy (s.ctxVia c) asid (va / 128) then s.logRefused (s.ctxVia c) asid (va / 128) else s.walked asid va
  else
    match s.ctxMove c with
    | none => s
    | some (fill, _, m) =>
      match (m.args fill (s.ctxHandle c m.srcH) (s.ctxHandle c m.dstH)).find? (fun a => (s.moveFault c [a]).isSome) with
      | some a => if a.h.ent.space = spGlobal then s.failed (s.ctxGoal c a.h) va (if a.right = 1 then .read else .write) else s
      | none => s

/-- COPY_FAULT (R216): a context's program that is held up halts; after XLATE its command may have been performed in part. -/
def execCopyFault (ctx : Nat) (cause reason : BitVec 8) (s : State) : Host.Outcome State Fault Refusal :=
  match tget s.ctxs ctx with
  | none => .next { s with turn := .choose }
  | some c =>
    match s.copyStuck c with
    | some (cs, r, va) =>
      if cs = cause.toNat ∧ r = reason.toNat then
        let s1 := s.copyFailed c va
        .next { (if cs = 9 then s1.haltMove c else s1).copyFault ctx cs r (BitVec.ofNat 64 va) with turn := .choose }
      else .next { s with turn := .choose }
    | none => .next { s with turn := .choose }

end Sys2Proof.Machine
end

