-- ==== Sys2Proof/Machine/Cvt.lean ====
section
/-! DEFINITION. The meanings of the conversion and pack instructions (R125 to R128). -/

namespace Sys2Proof.Machine

/-- A conversion to a floating format, rounded once (R48, R50, R126). -/
def toFloat (t : Ty) (_ : Meta) (c : CW) (b : EV) : ER := ER.fl2 (fround t c.rm.toNat c.sat b.flt)

/-- A conversion from a floating format to an integer type (R49). -/
def toInt (t : Ty) (_ : Meta) (c : CW) (b : EV) : ER := ER.fl2 (fToInt t c.rm.toNat b.flt)

/-- FRND (R127): no flag of its own. -/
def frndElem (t : Ty) (_ : Meta) (c : CW) (b : EV) : ER := ER.of (fround t 0 false (fintegral c.rm.toNat b.flt)).1

def execCvtF32F16 (f : Fields) (s : State) := aluCvt 0x0C0 f (toFloat .f32) s
def execCvtF32Bf16 (f : Fields) (s : State) := aluCvt 0x0C1 f (toFloat .f32) s
def execCvtF16F32 (f : Fields) (s : State) := aluCvt 0x0C2 f (toFloat .f16) s
def execCvtBf16F32 (f : Fields) (s : State) := aluCvt 0x0C3 f (toFloat .bf16) s
def execCvtF64F32 (f : Fields) (s : State) := aluCvt 0x0C4 f (toFloat .f64) s
def execCvtF32F64 (f : Fields) (s : State) := aluCvt 0x0C5 f (toFloat .f32) s
def execCvtF32E4m3 (f : Fields) (s : State) := aluCvt 0x0C6 f (toFloat .f32) s
def execCvtF32E5m2 (f : Fields) (s : State) := aluCvt 0x0C7 f (toFloat .f32) s
def execCvtE4m3F32 (f : Fields) (s : State) := aluCvt 0x0C8 f (toFloat .e4m3) s
def execCvtE5m2F32 (f : Fields) (s : State) := aluCvt 0x0C9 f (toFloat .e5m2) s
def execCvtF32E2m1 (f : Fields) (s : State) := aluCvt 0x0CA f (toFloat .f32) s
def execCvtE2m1F32 (f : Fields) (s : State) := aluCvt 0x0CB f (toFloat .e2m1) s
def execCvtF32S32 (f : Fields) (s : State) := aluCvt 0x0CC f (toFloat .f32) s
def execCvtF32N32 (f : Fields) (s : State) := aluCvt 0x0CD f (toFloat .f32) s
def execCvtS32F32 (f : Fields) (s : State) := aluCvt 0x0CE f (toInt .s32) s
def execCvtN32F32 (f : Fields) (s : State) := aluCvt 0x0CF f (toInt .n32) s
def execCvtF64S64 (f : Fields) (s : State) := aluCvt 0x0D0 f (toFloat .f64) s
def execCvtF64N64 (f : Fields) (s : State) := aluCvt 0x0D1 f (toFloat .f64) s
def execCvtS64F64 (f : Fields) (s : State) := aluCvt 0x0D2 f (toInt .s64) s
def execCvtN64F64 (f : Fields) (s : State) := aluCvt 0x0D3 f (toInt .n64) s
def execCvtF64S32 (f : Fields) (s : State) := aluCvt 0x0D4 f (toFloat .f64) s
def execCvtS32F64 (f : Fields) (s : State) := aluCvt 0x0D5 f (toInt .s32) s
def execFrndF32 (f : Fields) (s : State) := aluCvt 0x0D6 f (frndElem .f32) s
def execFrndF64 (f : Fields) (s : State) := aluCvt 0x0D7 f (frndElem .f64) s

/-- Conv of R128. -/
def packElem (t : Ty) (c : CW) (e : EV) : ER :=
  if t.isFloat then ER.fl2 (fround t c.rm.toNat c.sat e.flt)
  else if c.sat then ⟨wrapInt t.width (satInt t e.int), 0, decide (satInt t e.int ≠ e.int)⟩
  else ER.of (wrapInt t.width e.int)

/-- A value with the element at a position replaced. -/
def putElem (w p x old : Nat) : Nat := old % 2 ^ (w * p) + x % 2 ^ w * 2 ^ (w * p) + old / 2 ^ (w * (p + 1)) * 2 ^ (w * (p + 1))

/-- PACK (R128): elements 2·pos and 2·pos + 1 of D, the others kept. -/
def pack (op : Nat) (t : Ty) (f : Fields) (s : State) : Host.Outcome State Fault Refusal :=
  issue op f pb0 (fun x s =>
    match metaOf op with
    | none => .wait
    | some m =>
      match x.mapIn s m with
      | .error a => a
      | .ok (s1, extra) =>
        let c := f.cw m.ty
        let pos := c.imm.toNat % 4
        let a := x.srcA s m
        let b := x.srcB s m
        let r (l : Nat) : ER :=
          let u := a.at_ l 0
          let v := b.at_ l 0
          let p := packElem t c u.1
          let q := packElem t c v.1
          let old := (x.r.vr f.d.toNat l).toNat
          ⟨putElem t.width (2 * pos + 1) q.v (putElem t.width (2 * pos) p.v old), p.fl ||| q.fl ||| u.2 ||| v.2, p.st || q.st⟩
        x.writeD s1 m r extra) s

def execPackF16 (f : Fields) (s : State) := pack 0x0D8 .f16 f s
def execPackBf16 (f : Fields) (s : State) := pack 0x0D9 .bf16 f s
def execPackE4m3 (f : Fields) (s : State) := pack 0x0DA .e4m3 f s
def execPackE5m2 (f : Fields) (s : State) := pack 0x0DB .e5m2 f s
def execPackE2m1 (f : Fields) (s : State) := pack 0x0DC .e2m1 f s
def execPackS16 (f : Fields) (s : State) := pack 0x0DD .s16 f s
def execPackN16 (f : Fields) (s : State) := pack 0x0DE .n16 f s
def execPackS8 (f : Fields) (s : State) := pack 0x0DF .s8 f s
def execPackN8 (f : Fields) (s : State) := pack 0x0E0 .n8 f s
def execPackN4 (f : Fields) (s : State) := pack 0x0E1 .n4 f s

end Sys2Proof.Machine
end

