-- ==== Sys2Proof/Machine/Float.lean ====
section
/-! DEFINITION. The meanings of the floating-point instructions (R113 to R124). -/

namespace Sys2Proof.Machine

/-- The destination format of a floating instruction (R115): F32 in widened mode, else its own. -/
def destTy (m : Meta) (c : CW) : Ty := if m.ty.width < 32 ∧ modSel c.modB = 1 then .f32 else m.ty

/-- The first NaN in the order A, B (R50), else the operation's result. -/
def nanOr (a b : FVal) (r : FVal × Flags) : FVal × Flags :=
  if fisNan a then (a, 0) else if fisNan b then (b, 0) else r

/-- One rounding of an operation's result, with the flags it has raised (R118). -/
def roundRes (m : Meta) (c : CW) (r : FVal × Flags) : ER :=
  let q := fround (destTy m c) c.rm.toNat c.sat r.1
  ⟨q.1, q.2 ||| r.2, false⟩

/-- FADD (R118). -/
def faddElem (m : Meta) (c : CW) (a b : EV) : ER :=
  roundRes m c (nanOr a.flt b.flt (faddExact c.rm.toNat a.flt b.flt))
/-- FSUB (R118): FADD with the sign of B flipped; a NaN B keeps its sign (R50). -/
def fsubElem (m : Meta) (c : CW) (a b : EV) : ER :=
  roundRes m c (nanOr a.flt b.flt (faddExact c.rm.toNat a.flt (fneg b.flt)))
/-- FMUL (R118). -/
def fmulElem (m : Meta) (c : CW) (a b : EV) : ER :=
  roundRes m c (nanOr a.flt b.flt (fmulExact a.flt b.flt))
/-- FFMA (R118). -/
def ffmaElem (m : Meta) (c : CW) (a b d : EV) : ER :=
  roundRes m c (ffmaExact c.rm.toNat a.flt b.flt d.flt)
/-- FMIN (R121). -/
def fminElem (m : Meta) (c : CW) (a b : EV) : ER := roundRes m c (fminmax false a.flt b.flt, 0)
/-- FMAX (R121). -/
def fmaxElem (m : Meta) (c : CW) (a b : EV) : ER := roundRes m c (fminmax true a.flt b.flt, 0)
/-- FCMP (R122). -/
def fcmpElem (cc : Nat) (a b : EV) : Bool × Flags := fcond cc a.flt b.flt
/-- FCLASS (R123). -/
def fclassElem (m : Meta) (_ : CW) (b : EV) : ER := ER.of (fclass m.ty b.flt)

def execFaddF32 (f : Fields) (s : State) := alu2 0x080 f faddElem s
def execFsubF32 (f : Fields) (s : State) := alu2 0x081 f fsubElem s
def execFmulF32 (f : Fields) (s : State) := alu2 0x082 f fmulElem s
def execFfmaF32 (f : Fields) (s : State) := alu3 0x083 f ffmaElem s
def execFminF32 (f : Fields) (s : State) := alu2 0x084 f fminElem s
def execFmaxF32 (f : Fields) (s : State) := alu2 0x085 f fmaxElem s
def execFcmpF32 (f : Fields) (s : State) := aluCmp 0x086 f fcmpElem s
def execFclassF32 (f : Fields) (s : State) := alu1 0x087 f fclassElem s
def execFaddF16 (f : Fields) (s : State) := alu2 0x088 f faddElem s
def execFsubF16 (f : Fields) (s : State) := alu2 0x089 f fsubElem s
def execFmulF16 (f : Fields) (s : State) := alu2 0x08A f fmulElem s
def execFfmaF16 (f : Fields) (s : State) := alu3 0x08B f ffmaElem s
def execFminF16 (f : Fields) (s : State) := alu2 0x08C f fminElem s
def execFmaxF16 (f : Fields) (s : State) := alu2 0x08D f fmaxElem s
def execFcmpF16 (f : Fields) (s : State) := aluCmp 0x08E f fcmpElem s
def execFclassF16 (f : Fields) (s : State) := alu1 0x08F f fclassElem s
def execFaddBf16 (f : Fields) (s : State) := alu2 0x090 f faddElem s
def execFsubBf16 (f : Fields) (s : State) := alu2 0x091 f fsubElem s
def execFmulBf16 (f : Fields) (s : State) := alu2 0x092 f fmulElem s
def execFfmaBf16 (f : Fields) (s : State) := alu3 0x093 f ffmaElem s
def execFminBf16 (f : Fields) (s : State) := alu2 0x094 f fminElem s
def execFmaxBf16 (f : Fields) (s : State) := alu2 0x095 f fmaxElem s
def execFcmpBf16 (f : Fields) (s : State) := aluCmp 0x096 f fcmpElem s
def execFclassBf16 (f : Fields) (s : State) := alu1 0x097 f fclassElem s
def execFaddF64 (f : Fields) (s : State) := alu2 0x098 f faddElem s
def execFsubF64 (f : Fields) (s : State) := alu2 0x099 f fsubElem s
def execFmulF64 (f : Fields) (s : State) := alu2 0x09A f fmulElem s
def execFfmaF64 (f : Fields) (s : State) := alu3 0x09B f ffmaElem s
def execFminF64 (f : Fields) (s : State) := alu2 0x09C f fminElem s
def execFmaxF64 (f : Fields) (s : State) := alu2 0x09D f fmaxElem s
def execFcmpF64 (f : Fields) (s : State) := aluCmp 0x09E f fcmpElem s
def execFclassF64 (f : Fields) (s : State) := alu1 0x09F f fclassElem s

/-- The data type of a FACC (R119). -/
def faccTy (op : Nat) : Ty := [Ty.n4, .s8, .n8, .e2m1, .e4m3, .e5m2].getD (op - 0x0A0) .n4

/-- FACC (R120): position e of the mapped operand added into accumulator D + e. -/
def facc (op : Nat) (f : Fields) (s : State) : Host.Outcome State Fault Refusal :=
  issue op f pb0 (fun x s =>
    let t := faccTy op
    let n := faccCount op
    let row := dataRow t false
    let c := f.cw t
    match x.mapStageIn s row row (!t.isFloat) false true with
    | .error a => a
    | .ok (s1, extra) =>
      let out := x.operand s true f.ma.toNat row n true (modSx c.modA) c.mz
        (fun l => readElems t c.modA (x.r.vr f.a.toNat l).toNat)
      let r (l e : Nat) : ER :=
        let m := out.at_ l e
        let acc := fdecode .f32 (x.r.vr (f.d.toNat + e) l).toNat
        let v := nanOr m.1.flt acc (faddExact c.rm.toNat m.1.flt acc)
        let q := fround .f32 c.rm.toNat c.sat v.1
        ⟨q.1, q.2 ||| v.2 ||| m.2, false⟩
      if x.act = 0 then .go s1 [] extra .fall
      else
        x.finish s1 (fun l => (List.range n).foldl (fun fl e => fl ||| (r l e).fl) 0) (fun _ => false)
          (x.active.flatMap (fun l => (List.range n).map (fun e =>
            RegWrite.vec (f.d.toNat + e) l (BitVec.ofNat 32 (r l e).v)))) extra) s

def execFaccN4 (f : Fields) (s : State) := facc 0x0A0 f s
def execFaccS8 (f : Fields) (s : State) := facc 0x0A1 f s
def execFaccN8 (f : Fields) (s : State) := facc 0x0A2 f s
def execFaccE2m1 (f : Fields) (s : State) := facc 0x0A3 f s
def execFaccE4m3 (f : Fields) (s : State) := facc 0x0A4 f s
def execFaccE5m2 (f : Fields) (s : State) := facc 0x0A5 f s

end Sys2Proof.Machine
end

