-- ==== Sys2Proof/Machine/Place.lean ====
section
/-! DEFINITION. Kernel descriptors (R369, R370), the cores of a domain, and where a workgroup can be placed (R317,
R318). -/

namespace Sys2Proof.Machine

/-! Kernel descriptors. -/

/-- A field of a kernel descriptor (R369). -/
def kdNat (d : BitVec 512) (lo w : Nat) : Nat := (d.extractLsb' lo w).toNat
/-- `.regs` (R369). -/
def kdRegs (d : BitVec 512) : Nat := 8 * kdNat d 0 8
/-- `.strands`. -/
def kdStrands (d : BitVec 512) : Nat := kdNat d 8 9
/-- `.maps`. -/
def kdMaps (d : BitVec 512) : Nat := kdNat d 17 5
/-- `.idem`. -/
def kdIdem (d : BitVec 512) : Bool := d.getLsbD 22
/-- PORT: the code is Choarnif. -/
def kdPort (d : BitVec 512) : Bool := d.getLsbD 23
/-- `.scratch`, in bytes. -/
def kdScratch (d : BitVec 512) : Nat := kdNat d 32 32
/-- The kernel's entry. -/
def kdEntry (d : BitVec 512) : DWord := d.extractLsb' 64 64
/-- The trap handler's entry, or 0. -/
def kdTrap (d : BitVec 512) : DWord := d.extractLsb' 128 64
/-- The prologue's entry, or 0. -/
def kdPro (d : BitVec 512) : DWord := d.extractLsb' 192 64
/-- The code handle's index. -/
def kdCodeh (d : BitVec 512) : BitVec 12 := d.extractLsb' 256 12
/-- The default index of handle register n. -/
def kdHandle (d : BitVec 512) (n : Nat) : BitVec 12 := d.extractLsb' (320 + 12 * n) 12

/-- The ropes of a workgroup of n strands (R10). -/
def ropeCount (n : Nat) : Nat := (n + 7) / 8
/-- The strands of rope r (R10). -/
def strandsOf (n r : Nat) : Nat := min 8 (n - 8 * r)
/-- The strands that a workgroup of n strands has in quadrant q (R10). -/
def quadStrands (n q : Nat) : Nat :=
  (List.range (ropeCount n)).foldl (fun a r => if r % 4 = q then a + strandsOf n r else a) 0
/-- The ropes that a workgroup of n strands has in quadrant q. -/
def quadRopes (n q : Nat) : Nat := ((List.range (ropeCount n)).filter (fun r => r % 4 == q)).length

/-- Whether a descriptor passes the checks of R370 that do not see sections; `pro` for a TRUNP. -/
def kdOk (d : BitVec 512) (pro : Bool) : Bool :=
  let align := if kdPort d then 4 else 8
  decide (1 ≤ kdNat d 0 8) && decide (kdNat d 0 8 ≤ 32) && decide (1 ≤ kdStrands d) && decide (kdStrands d ≤ 256) &&
    decide (kdMaps d ≤ 16) && d.extractLsb' 24 8 == 0 && decide (kdScratch d ≤ 458752) && d.extractLsb' 268 20 == 0 &&
    d.extractLsb' 304 16 == 0 && (kdEntry d).toNat % align == 0 && (kdTrap d).toNat % align == 0 &&
    (!pro || (kdPro d != 0 && (kdPro d).toNat % 8 == 0)) &&
    [0, 1, 2, 3].all (fun q => decide (quadStrands (kdStrands d) q * 16 * kdRegs d ≤ 131072))

/-! Partitions. -/

/-- The cores of a domain: in its core mask and in its partition's, and in service (R317, R360). -/
def State.coresOf (s : State) (did : BitVec 16) : List Nat :=
  let d := s.domain did
  d.cores.filter (fun c => s.corePart c == some d.part && !s.dieOff.contains (c / 384))

/-! What a core's workgroups hold. -/

/-- The present strands of a rope. -/
def Rope.presentStrands (r : Rope) : Nat := (r.strands.filter (fun t => t.present)).length

/-- Whether a workgroup holds the resources of its core. -/
def Workgroup.onCore (w : Workgroup) (c : Nat) : Bool := w.core == c && (w.state == .resident || w.state == .saving)

/-- The ropes on a core's quadrant, with their workgroups. -/
def State.ropesAt (s : State) (core quad : Nat) : List (Rope × Workgroup) :=
  s.ropes.filterMap (fun (_, r) =>
    match tget s.wgs r.wg with
    | some w => if w.onCore core && r.quad == quad then some (r, w) else none
    | none => none)

/-- Register-file bytes of a quadrant that a domain slot's workgroups and open frames hold (R16, R230). -/
def State.rfUsed (s : State) (core quad slot : Nat) : Nat :=
  (s.ropesAt core quad).foldl (fun n (r, w) =>
    let own := if w.dslot = slot then 16 * w.regs * r.presentStrands else 0
    let frame := if r.frame.isSome ∧ r.dslot = slot then 16 * r.regs * r.presentStrands else 0
    n + own + frame) 0

/-- RFLEN of a domain slot, in bytes (R219). -/
def Core.rfBytes (k : Core) (slot : Nat) : Nat := 1024 * ((k.dpeReg (8 * slot + 1)).extractLsb' 8 8).toNat
/-- The map-slot mask of a domain slot (R219). -/
def Core.mapMask (k : Core) (slot : Nat) : BitVec 16 := (k.dpeReg (8 * slot + 3)).extractLsb' 0 16
/-- The strand slots in use in a quadrant. -/
def State.strandSlots (s : State) (core quad : Nat) : List (BitVec 7) :=
  (s.ropesAt core quad).flatMap (fun (r, _) => (r.strands.filter (fun t => t.present)).map Strand.slot)

/-- The physical map slots of a quadrant in use (R20). -/
def State.mapSlotsUsed (s : State) (core quad : Nat) : List Nat :=
  s.wgs.flatMap (fun (_, w) => if w.onCore core then (w.slotMap.filter (fun e => e.1 / 16 == quad)).map Prod.snd else [])

/-- The map slots of a quadrant that a workgroup of a domain slot may be given, of those not in `used` (R20, R317). -/
def Core.freeSlots (k : Core) (slot : Nat) (pin : Bool) (maps : Nat) (used : List Nat) : List Nat :=
  (List.range (if pin then maps else 16)).filter (fun i => (k.mapMask slot).getLsbD i && !used.contains i)

/-- Whether a quadrant has an array in service (R152). -/
def State.serves (s : State) (core quad : Nat) : Bool := (s.array core quad 0).inService || (s.array core quad 1).inService

/-- A scratchpad allocation in bytes, in whole pages (R298). -/
def scratchAlloc (n : Nat) : Nat := (n + 4095) / 4096 * 4096

/-- Whether an allocation fits a core's scratchpad: the carve-out, and at least one permitted bank (R222, R298).
DEDUCED: log entry 19. -/
def Core.scratchFits (k : Core) (slot n : Nat) : Bool := n == 0 || (decide (scratchAlloc n ≤ 65536 * k.scr) && k.bankMask slot != 0)

/-- Whether a workgroup can be placed on a core now (R317): the domain slot that takes it. -/
def State.placeOn (s : State) (w : Workgroup) (c : Nat) : Option Nat :=
  let k := s.core c
  match k.slotOf w.did with
  | none => none
  | some slot =>
    let quads := [0, 1, 2, 3].filter (fun q => quadStrands w.strands q != 0)
    if (s.coresOf w.did).contains c && k.scratchFits slot w.scratchSize && quads.all (fun q =>
        decide ((s.strandSlots c q).length + quadStrands w.strands q ≤ 128) &&
        decide ((s.ropesAt c q).length + quadRopes w.strands q ≤ 16) &&
        decide (s.rfUsed c q slot + 16 * w.regs * quadStrands w.strands q ≤ k.rfBytes slot) &&
        (w.maps == 0 || (s.serves c q && decide (w.maps ≤ (k.freeSlots slot w.pin w.maps (s.mapSlotsUsed c q)).length))))
    then some slot
    else none

/-! The placement test. -/

/-- The first limit of R318 that a workgroup breaks on a core that holds nothing else. -/
def State.coreLimit (s : State) (w : Workgroup) (c : Nat) : Option Nat :=
  let k := s.core c
  match k.slotOf w.did with
  | none => some 5
  | some slot =>
    let quads := [0, 1, 2, 3].filter (fun q => quadStrands w.strands q != 0)
    if quads.any (fun q => decide (k.rfBytes slot < 16 * w.regs * quadStrands w.strands q)) then some 1
    else if (k.freeSlots slot w.pin w.maps []).length < w.maps then some 2
    else if !k.scratchFits slot w.scratchSize then some 3
    else if w.maps != 0 && quads.any (fun q => !s.serves c q) then some 4
    else none

/-- The placement test of R318: the reason of PLACE where no core could ever hold the workgroup. -/
def State.placeTest (s : State) (w : Workgroup) : Option Nat :=
  let rs := (s.coresOf w.did).map (s.coreLimit w)
  if rs.any (fun r => r.isNone) then none
  else some ((rs.filterMap id).foldl min 5)

/-- PLACE raised against every ISSUED task of a domain that has an unplaced workgroup no core could hold (R318), or whose prologue runs
for a grid of such workgroups. -/
def State.retest (s : State) (did : BitVec 16) : State :=
  let bad := s.wgs.filterMap (fun (_, w) =>
    if w.did == did && (w.state == .unplaced || w.pro.isSome) then (s.placeTest w).map (fun r => (w, r)) else none)
  bad.foldl (fun (t : State) (w, r) =>
    if t.faults.any (fun f => f.stream == w.stream && f.task == w.task && f.fault.cls == 11) then t
    else { t with faults := t.faults ++ [⟨w.stream, w.task, ⟨11, BitVec.ofNat 8 r, 0, 0⟩, 0xFFFFFFFF, none, s.etime⟩] }) s

/-- The placement test over every domain. -/
def State.retestAll (s : State) : State := s.domains.foldl (fun (t : State) (d, _) => t.retest (BitVec.ofNat 16 d)) s

end Sys2Proof.Machine
end

