-- ==== Sys2Proof/Machine/System.lean ====
section
/-! DEFINITION. The meanings of the gate, trap and system instructions: GCALL and GRET (R230 to R232), SREAD (R224), TRET
and the trap record (R236 to R238), SYSRD and SYSWR (R219 to R221, R225), CINV (R226), HALT (R227). -/

namespace Sys2Proof.Machine

/-! Gates. -/

/-- A field of a gate entry (R229). -/
def gateNat (e : BitVec 512) (lo w : Nat) : Nat := (e.extractLsb' lo w).toNat

/-- Whether a gate entry is valid and keeps to R229. -/
def gateOk (e : BitVec 512) : Bool :=
  e.getLsbD 16 && e.extractLsb' 17 15 == 0 && e.extractLsb' 46 2 == 0 && e.extractLsb' 57 7 == 0 && e.extractLsb' 216 8 == 0 &&
    e.extractLsb' 248 8 == 0 && e.extractLsb' 265 7 == 0 && e.extractLsb' 281 7 == 0 && e.extractLsb' 332 20 == 0 &&
    e.extractLsb' 352 160 == 0 && decide (gateNat e 32 4 ≤ 8) && decide (gateNat e 36 4 ≤ 8) && decide (1 ≤ gateNat e 40 6) &&
    decide (gateNat e 40 6 ≤ 32) && decide (gateNat e 48 4 + gateNat e 52 5 ≤ 16)

/-- A rope as the checks on its callee's entry see it (R230, R301). -/
def Issue.asCallee (x : Issue) (s : State) (e : BitVec 512) : Rope :=
  let callee : BitVec 16 := e.extractLsb' 0 16
  { x.r with
    did := callee, asid := (s.domain callee).asid, dslot := (x.core.slotOf callee).getD x.r.dslot, codeh := e.extractLsb' 320 12
    port := false }

/-- Whether a fetch check has found a fault. -/
def FetchRes.faults : FetchRes → Bool
  | .fault _ => true
  | _ => false

/-- The reason why a gate call is refused (R230), in the order of its checks; the entry's fetch is checked as a transfer's (R160,
R301), each fault of it being the reason ENTRY, and one whose page has no translation yet passes until that is decided.
DESIGN CHOICE: log entry 58. -/
def Issue.gateRefusal (x : Issue) (s : State) (e : BitVec 512) : Option Nat :=
  let callee : BitVec 16 := e.extractLsb' 0 16
  let a := x.f.a.toNat
  let deleg (lo : Nat) : Bool :=
    if e.getLsbD (lo + 4) then
      let h := s.handle x.r.did x.r.asid (x.r.hr (gateNat e lo 4))
      h.ent.v && (h.ent.space == spGlobal || h.ent.space == spHost || h.ent.space == spPeer)
    else true
  if x.r.frame.isSome ∨ x.r.priv = .handler then some 1
  else if !x.r.quiescent then some 2
  else if !gateOk e || (s.targetAt x.k x.unit (x.asCallee s e) (e.extractLsb' 64 64)).faults then some 3
  else if x.r.regs < a + max (gateNat e 32 4) (gateNat e 36 4) then some 4
  else if !deleg 256 || !deleg 272 then some 5
  else
    match x.core.slotOf callee with
    | none => some 6
    | some slot =>
      if x.core.rfBytes slot < s.rfUsed x.c x.r.quad slot + 16 * 8 * gateNat e 40 6 * x.r.presentStrands then some 6 else none

/-- Whether a rope still has operations in flight that a gate call waits for (R230). -/
def State.gateBusy (s : State) (k : Nat) (r : Rope) : Bool :=
  r.ldc != 0 || r.stc != 0 || !r.outst.isEmpty || !r.inflight.isEmpty || s.sfu.any (fun e => e.rope == k) ||
    s.slots.any (fun (_, m) => match m.fill with | some l => l.rope == k | none => false)

/-- The rope inside a gate frame (R230). DEDUCED: log entry 16. DEDUCED: log entry 40. -/
def Issue.enterFrame (x : Issue) (s : State) (e : BitVec 512) (slot : Nat) : Rope :=
  let r := x.r
  let a := x.f.a.toNat
  let g : BitVec 8 := x.f.b
  let callee : BitVec 16 := e.extractLsb' 0 16
  let budget := gateNat e 288 32
  let fr : Frame :=
    { gate := g, entry := e, base := a, pc := x.pc, iw := encodeIw x.op x.f, ret := x.fall, did := r.did, dslot := r.dslot
      asid := r.asid, regs := r.regs, maps := r.maps, codeh := r.codeh, trapH := r.trapH, v := r.v, s := r.s, p := r.p, h := r.h
      k := r.k, ldc := r.ldc, stc := r.stc, cpc := r.cpc, copies := r.copies, port := r.port, onNative := r.onNative
      budgetNs := if budget = 0 then none else some (s.etime + 1000 * budget) }
  let args := (List.range (gateNat e 32 4)).flatMap (fun i => (lanesOf r.present).map (fun l => (i, l, r.vr (a + i) l)))
  let h0 : Tbl (BitVec 12) := [(0, e.extractLsb' 192 12), (1, e.extractLsb' 204 12), (2, e.extractLsb' 224 12),
    (3, e.extractLsb' 236 12), (14, if e.getLsbD 260 then r.hr (gateNat e 256 4) else 0),
    (15, if e.getLsbD 276 then r.hr (gateNat e 272 4) else 0)]
  { r with
    frame := some fr, did := callee, dslot := slot, asid := (s.domain callee).asid, regs := 8 * gateNat e 40 6
    maps := gateNat e 52 5, codeh := e.extractLsb' 320 12, trapH := e.extractLsb' 128 64
    v := args.foldl (fun t (i, l, v) => rset 0 t (32 * i + l) v) [], s := [], p := []
    h := h0.filter (fun q => q.2 != 0), k := [], ldc := 0, stc := 0, cpc := 0, copies := [], port := false, onNative := true
    strands := r.strands.map (fun t => if t.live then { t with pc := e.extractLsb' 64 64 } else t)
    sched := tset r.sched x.unit ⟨x.core.cyc + 24, 0, x.skip, 0, false, none⟩ }

/-- An act that takes a rope to an address of its code, once that has passed the checks of a transfer (R160): a translation that it
lacks waits for the Herey controller first (R306). -/
def Issue.toTarget (x : Issue) (s : State) (r : Rope) (pc : DWord) (act : Act) : Act :=
  match s.targetAt x.k x.unit r pc with
  | .miss rs va => .hold (s.askFetch x.k x.unit r rs va)
  | .asked => .wait
  | .fault q => .trap ⟨q.1, q.2.1, x.act, q.2.2.1, q.2.2.2.1, q.2.2.2.2⟩
  | .ok => act

/-- GCALL (R230). -/
def execGcall (f : Fields) (s : State) : Host.Outcome State Fault Refusal :=
  issue 0x1D8 f pb0 (fun x s =>
    let e := rget 0 (s.domain x.r.did).gates f.b.toNat
    match x.gateRefusal s e with
    | some reason => .trap (x.trap 14 reason (f.b.setWidth 32))
    | none =>
      match x.core.slotOf (e.extractLsb' 0 16) with
      | none => .trap (x.trap 14 6 (f.b.setWidth 32))
      | some slot =>
        x.toTarget s (x.asCallee s e) (e.extractLsb' 64 64)
          (if s.gateBusy x.k x.r then .wait else .go (s.setRope x.k (x.enterFrame s e slot)) [] 0 .done)) s

/-- The caller's registers after a gate call's results are copied back (R232). -/
def gateResults (r : Rope) (fr : Frame) (caller : Rope) : Rope :=
  let lanes := lanesOf (r.present &&& ~~~r.retired)
  (List.range (gateNat fr.entry 36 4)).foldl (fun (c : Rope) i =>
    lanes.foldl (fun (d : Rope) l => d.setV (fr.base + i) l (r.vr i l)) c) caller

/-- Whether what a frame has started keeps its GRET waiting (R232): its accesses, SFU operations and copy programs. -/
def State.gretWaits (s : State) (k : Nat) (r : Rope) : Bool :=
  r.ldc != 0 || r.stc != 0 || !r.outst.isEmpty || !r.copies.isEmpty || s.sfu.any (fun e => e.rope == k) ||
    r.k.any (fun t => t.2.state == .pending)

/-- GRET (R232): fixed-latency results of the frame that are still in flight land before its results are copied back.
DEDUCED: log entry 18. DESIGN CHOICE: log entry 58. -/
def execGret (f : Fields) (s : State) : Host.Outcome State Fault Refusal :=
  issue 0x1D9 f pb0 (fun x s =>
    match x.r.frame with
    | none => .trap (x.trap 14 7)
    | some fr =>
      if !x.r.quiescent then .trap (x.trap 14 2 (fr.gate.setWidth 32))
      else if s.gretWaits x.k x.r then .wait
      else
        let r := x.r.landAll
        let r1 := (gateResults r fr (r.leaveFrame fr)).oneUnit
        let r2 := match r.trap with
          | some c => { r1 with trap := none, priv := c.prev }
          | none => r1
        x.toTarget s r2 fr.ret (.go (s.setRope x.k { r2 with
          sched := tset r2.sched r2.headUnit ⟨x.core.cyc + 3 + x.stall, 0, x.skip, 0, false, none⟩ }) [] 0 .done)) s

/-- GATE_BUDGET_EXPIRY (R233): the frame is abandoned, and TIMEOUT goes to the caller's handler against the GCALL. -/
def execGateBudgetExpiry (k : Nat) (s : State) : Host.Outcome State Fault Refusal :=
  match tget s.ropes k with
  | none => .next { s with turn := .choose }
  | some r =>
    match r.frame with
    | none => .next { s with turn := .choose }
    | some fr =>
      let r0 := match r.trap with
        | some c => { r with trap := none, priv := c.prev }
        | none => r
      let r1 := (r0.leaveFrame fr).oneUnit
      let q : TrapReq := ⟨15, 0, r1.unitLanes r1.headUnit, fr.gate.setWidth 32, 0, 0⟩
      let s1 := (s.dropFrame k).setRope k r1
      .next { s1.takeTrap k r1.headUnit (r1.record q fr.pc fr.ret fr.iw false false) none trapFuel with turn := .choose }

/-! Special registers. -/

/-- CLASSMIX (R28). -/
def Rope.classMixWord (r : Rope) : Nat :=
  (List.range 4).foldl (fun a i => a + (r.classMix.getD i 0) % 65536 * 65536 ^ i) 0

/-- COREPOS (R25). -/
def corePos (core quad : Nat) : Nat := core / 384 % 8 + 8 * (core / 32 % 12) + 128 * (core % 32) + 4096 * quad

/-- Special register n, in a lane for the per-lane ones (R25). CYC is the count of the rope's domain on its core (R26): a rope that reads
it on both sides of a gate between an isolated domain and another, or before and after a restore on another core, may read less.
DESIGN CHOICE: log entry 44. -/
def Issue.special (x : Issue) (s : State) (n l : Nat) : Nat :=
  match n with
  | 0 => if x.set.getLsbD 14 then rget 0 x.core.iso x.r.did.toNat else x.core.cyc
  | 1 => s.etime
  | 2 => l
  | 3 => l / 4
  | 4 => x.r.ropeId
  | 5 => x.w.wgid
  | 6 => x.w.wgcount
  | 7 => 4 * x.w.strands
  | 8 => x.w.task % 2 ^ 32
  | 9 => x.r.did.toNat + 65536 * x.r.dslot
  | 10 => (match x.r.priv with | .task => 0 | .handler => 1 | .system => 2)
  | 11 => x.r.classMixWord
  | 12 => x.r.prio
  | 13 => corePos x.c x.r.quad
  | _ => x.r.lrt.toNat

/-- A domain's isolated cycle count set to the value that an SREAD of CYC returns while its ISO is 0, so that later counts go on from
there (R26). -/
def Issue.isoMark (x : Issue) (s : State) : State :=
  if x.f.a = 0 ∧ x.set.getLsbD 14 = false then
    let k := s.core x.c
    s.setCore x.c { k with iso := rset 0 k.iso x.r.did.toNat (max (rget 0 k.iso x.r.did.toNat) x.core.cyc) }
  else s

/-- SREAD (R224). -/
def execSread (f : Fields) (s : State) : Host.Outcome State Fault Refusal :=
  issue 0x1DA f pb0 (fun x s =>
    let n := f.a.toNat
    let d := f.d.toNat
    if x.act = 0 then .go s [] 0 .fall
    else
      match f.c.toNat with
      | 0 => .go (x.isoMark s) (scaWrite 32 d (x.special s n 0)) 0 .fall
      | 1 => .go (x.isoMark s) (scaWrite 64 d (x.special s n 0)) 0 .fall
      | _ => .go s (x.active.map (fun l => .vec d l (BitVec.ofNat 32 (x.special s n l)))) 0 .fall) s

/-! The trap record. -/

/-- Word n of a trap record (R236). -/
def TrapRec.word (t : TrapRec) (n : Nat) : Word :=
  match n with
  | 0 =>
    let lane := (lanesOf t.lanemask).headD 0
    BitVec.ofNat 32 (t.cause.toNat + 256 * t.reason.toNat + 65536 * lane + (if t.async then 2 ^ 21 else 0) +
      (if t.copy then 2 ^ 22 else 0) + (if t.frame then 2 ^ 23 else 0) + 2 ^ 24 * t.action.toNat)
  | 1 => t.lanemask
  | 2 => t.fpc.extractLsb' 0 32
  | 3 => t.fpc.extractLsb' 32 32
  | 4 => t.rpc.extractLsb' 0 32
  | 5 => t.rpc.extractLsb' 32 32
  | 6 => t.info
  | 7 => t.offset
  | 8 => t.addr.extractLsb' 0 32
  | 9 => t.addr.extractLsb' 32 32
  | 10 => t.iw.extractLsb' 0 32
  | 11 => t.iw.extractLsb' 32 32
  | _ => t.saved.getD (n - 12) 0

/-- A trap record with a writable word written (R236, R237). -/
def TrapRec.put (t : TrapRec) (n : Nat) (v : Word) : TrapRec :=
  match n with
  | 0 => { t with action := v.extractLsb' 24 2 }
  | 4 => { t with rpc := t.rpc.extractLsb' 32 32 ++ v }
  | 5 => { t with rpc := v ++ t.rpc.extractLsb' 0 32 }
  | _ => { t with saved := listSet t.saved (n - 12) v }

/-- TRET (R238). -/
def execTret (f : Fields) (s : State) : Host.Outcome State Fault Refusal :=
  issue 0x1DB f pb0 (fun x s => .go (s.returnFrom x.k x.unit (x.r.returnCtx x.unit x.fall) x.stall x.skip) [] 0 .done) s

/-- The record that TREC.RD and TREC.WR act on (R236, R237). DESIGN CHOICE: log entry 49. -/
def Rope.recordNow (r : Rope) : TrapRec := match r.trap with | some c => c.trap | none => r.lastTrap

/-- The rope with that record replaced. -/
def Rope.setRecord (r : Rope) (t : TrapRec) : Rope :=
  match r.trap with
  | some c => { r with trap := some { c with trap := t } }
  | none => { r with lastTrap := t }

/-- TREC.RD (R237). -/
def execTrecRd (f : Fields) (s : State) : Host.Outcome State Fault Refusal :=
  issue 0x1DC f pb0 (fun x s => .go s [.scalar f.d.toNat (x.r.recordNow.word (f.b.toNat % 16))] 0 .fall) s

/-- TREC.WR (R237). -/
def execTrecWr (f : Fields) (s : State) : Host.Outcome State Fault Refusal :=
  issue 0x1DD f pb0 (fun x s =>
    .go (s.onRope x.k (fun r => r.setRecord (r.recordNow.put (f.b.toNat % 16) (x.r.sr f.a.toNat)))) [] 0 .fall) s

/-! System registers. -/

/-- The number of a domain partition register that SYSRD or SYSWR names, as 8·slot + offset (R219, R225). -/
def sysNum (f : Fields) : Nat := (f.cw .n32).imm.toNat - 0x100

/-- SYSRD (R225). -/
def execSysrd (f : Fields) (s : State) : Host.Outcome State Fault Refusal :=
  issue 0x1E0 f pb0 (fun x s =>
    if x.act = 0 then .go s [] 0 .fall
    else .go s (scaWrite 64 f.d.toNat (x.core.dpeReg (sysNum f)).toNat) 0 .fall) s

/-- Whether a value keeps to the fields of the register at an offset (R219, R220, R221). -/
def dpeValueOk (off : Nat) (v : DWord) : Bool :=
  let n := v.toNat
  match off with
  | 0 => decide (n < 2 ^ 17)
  | 1 => decide (n < 2 ^ 16) && decide (n % 256 + n / 256 ≤ 128)
  | 2 => decide (n < 2 ^ 32)
  | 3 => decide (n < 2 ^ 27) && decide (bits n 21 16 ≤ 32) && decide (bits n 26 22 ≤ 16)
  | 5 => decide (n < 2 ^ 32) && !v.getLsbD 15
  | _ => decide (n < 2 ^ 16)

/-- Whether a domain slot has a resident or saved-in-place workgroup, or an open gate frame (R221): of the workgroups that are saved, one
whose save is still going on. DESIGN CHOICE: log entry 58. -/
def State.slotBusy (s : State) (core slot : Nat) : Bool :=
  s.wgs.any (fun (_, w) => w.core == core && w.dslot == slot && (w.state == .resident || w.state == .saving)) ||
  s.ropes.any (fun (_, r) => r.frame.isSome && r.dslot == slot &&
    (match tget s.wgs r.wg with | some w => w.core == core && (w.state == .resident || w.state == .saving) | none => false))

/-- Whether two valid slots of a core collide (R221): ranges, masks, DIDs or ASIDs. -/
def Core.collide (k : Core) (a b : Nat) : Bool :=
  let g (d off : Nat) : Nat := (k.dpeReg (8 * d + off)).toNat
  let base (d : Nat) : Nat := g d 1 % 256
  let len (d : Nat) : Nat := g d 1 / 256 % 256
  k.slotValid a && k.slotValid b &&
    ((decide (0 < len a) && decide (0 < len b) && decide (base a < base b + len b) && decide (base b < base a + len a)) ||
      g a 2 &&& g b 2 != 0 || (g a 3 % 65536) &&& (g b 3 % 65536) != 0 || k.slotDid a == k.slotDid b ||
      g a 6 % 65536 == g b 6 % 65536)

/-- The reason why a SYSWR is refused (R221). -/
def State.syswrRefusal (s : State) (core n : Nat) (v : DWord) : Option Nat :=
  let slot := n / 8
  let off := n % 8
  if !dpeValueOk off v then some 1
  else if off ≠ 5 ∧ s.slotBusy core slot then some 3
  else if ([0, 1, 2, 3] : List Nat).any (fun d => d != slot && ((s.core core).setDpe n v).collide slot d) then some 4
  else none

/-- SYSWR (R221, R225); unplaced workgroups are tested again (R318), and the policy of the slot's domains is to be measured again
(R344). -/
def execSyswr (f : Fields) (s : State) : Host.Outcome State Fault Refusal :=
  issue 0x1E1 f pb0 (fun x s =>
    let n := sysNum f
    let v := x.r.spair f.a.toNat
    if x.act = 0 then .go s [] 0 .fall
    else
      match s.syswrRefusal x.c n v with
      | some reason => .trap (x.trap 1 reason)
      | none =>
        let k := (s.core x.c).setDpe n v
        let did := (s.core x.c).slotDid (n / 8)
        .go { (s.setCore x.c k) with stale := s.stale ++ [did] ++ (if k.slotDid (n / 8) = did then [] else [k.slotDid (n / 8)]) }.retestAll
          [] 0 .fall) s

/-- Memory without what a core's copies of a line hold that is not at its home (R226): the bytes that its stores replaced are back. -/
def L2Line.discard (l : L2Line) (c : Nat) (m : Tbl Byte) : Tbl Byte :=
  if l.dirty = some c then l.old.foldl (fun m (a, b) => wrByte m a b) m else m

/-- Memory with what a core's copies of a line hold written back (R226, R297): its stores stand, its partial values are combined. -/
def L2Line.writeBack (l : L2Line) (c : Nat) (m : Tbl Byte) : Tbl Byte :=
  (l.uo.filter (fun e => e.core == c)).foldl (fun m e => e.combine l.base m) m

/-- A core's L1 data lines of an ASID invalidated (R226): dirty and update-only copies are dropped, or first written back. -/
def State.sweepL1 (s : State) (c : Nat) (asid : BitVec 16) (discard : Bool) : State :=
  { s with
    mem := s.l2.foldl (fun m l => if l.asid == asid then (if discard then l.discard c m else l.writeBack c m) else m) s.mem
    l2 := s.l2.map (fun l => if l.asid == asid then l.leaveWays c (fun _ => true) else l) }

/-- A core's instruction levels without the lines that `p` selects (R300): its L1 instruction cache and its line buffers. -/
def State.dropCode (s : State) (c : Nat) (p : CodeLine → Bool) : State :=
  { s with code := s.code.map (fun l =>
      if p l then { l with l1i := l.l1i.filter (fun i => i != c), bufs := l.bufs.filter (fun q => q / 4 != c) } else l) }

/-- CINV (R226). A core that has discarded its lines of an ASID is noted for the retire sweep (R312). -/
def execCinv (f : Fields) (s : State) : Host.Outcome State Fault Refusal :=
  issue 0x1E2 f pb0 (fun x s =>
    let target := f.d.toNat % 4
    let asid := (x.r.sr f.a.toNat).setWidth 16
    let discard := f.d.getLsbD 2
    let s1 := if target = 1 then s else s.sweepL1 x.c asid discard
    let s2 := if target = 0 then s1 else s1.dropCode x.c (fun l => l.asid == asid)
    .go (if target = 2 ∧ discard = true then
        { s2 with asids := tset s2.asids asid.toNat (x.c :: ((tget s2.asids asid.toNat).getD []).filter (fun c => c != x.c)) }
      else s2) [] 0 .fall) s

/-- Every lane of a rope retired (R166, R227): nothing of it is delivered any more. -/
def Rope.exitAll (r : Rope) : Rope :=
  { r with strands := r.strands.map (fun t =>
      if t.present then { t with active := 0, stack := [], parked := 0, retired := 15, waiting := false } else t)
           trap := none, held := [], cand := none, monitors := [], outst := [], stores := [], ldc := 0, stc := 0 }

/-- Every rope of a workgroup ends (R227); stores and atomics that have been issued are still performed. -/
def State.haltWg (s : State) (wg : Nat) : State :=
  match tget s.wgs wg with
  | none => s
  | some w =>
    w.ropes.foldl (fun (t : State) k =>
      match tget t.ropes k with
      | none => t
      | some r => if r.ended then t else (t.setRope k r.exitAll).endRope k) (s.abandonLog (fun e => w.ropes.contains e.rope))

/-- HALT (R227): the task's code is kept for its completion. -/
def execHalt (f : Fields) (s : State) : Host.Outcome State Fault Refusal :=
  issue 0x1E3 f pb0 (fun x s =>
    let code := x.r.sr f.a.toNat
    let s1 := (s.haltWg x.r.wg).onStream x.w.stream (fun t =>
      { t with window := t.window.map (fun k => if k.idx = x.w.task then { k with halted := some code } else k) })
    .go s1 [] 0 .done) s

end Sys2Proof.Machine
end

