-- ==== Sys2Proof/Machine/RopeEvents.lean ====
section
/-! DEFINITION. The steps of ropes that no word encodes: results that land (R74, R76, R184, R203, R204), the end of a map
load (R134), the rope phase and compaction (R165, R168, R169), trap delivery (R235), WAITV's wakes (R197), late translation
(R302, R306, R307), and the steps of a quadrant's scheduler (R323, R324). -/

namespace Sys2Proof.Machine

/-- A step that ends at the choice of the next one. -/
def done (s : State) : Host.Outcome State Fault Refusal := .next { s with turn := .choose }

/-- The cycle count of the core that a rope's workgroup is on. -/
def State.cycOf (s : State) (r : Rope) : Nat := match tget s.wgs r.wg with | some w => (s.core w.core).cyc | none => 0

/-! Results that land. -/

/-- RESULT_LANDS (R74): the results that are due at the rope's core cycle are written. -/
def execResultLands (k : Nat) (s : State) : Host.Outcome State Fault Refusal :=
  done (s.onRope k (fun r => r.land (s.cycOf r)))

/-- Whether a variable-latency result has arrived and not yet landed. -/
def Outst.arrived (o : Outst) (cyc : Nat) : Bool := o.ready && decide (o.due ≤ cyc)

/-- A list of outstanding results with the first that satisfies `p` marked landed; and that one's number and writes. -/
def landFirst (p : Outst → Bool) : List Outst → List Outst × Nat × List RegWrite
  | [] => ([], 0, [])
  | o :: os => if p o then ({ o with writes := [] } :: os, o.id, o.writes) else let (l, w) := landFirst p os; (o :: l, w)

/-- The counted results at the head that are complete are counted out; SFQ.RD results are not counted (R184). -/
def countOut (cyc : Nat) : List Outst → List Outst
  | [] => []
  | o :: os => if o.tok.isSome then o :: countOut cyc os else if o.arrived cyc && o.writes.isEmpty then countOut cyc os else o :: os

/-- The rope after its first arrived load has landed, with LDC counted down in issue order (R76, R184). Where another result is
outstanding for a register that it writes, a free choice by lane says which of the two stays (R76); results in flight that issued before
it do not land over it (R13). `n` numbers the free values. -/
def Rope.loadLands (r : Rope) (cyc n : Nat) : Rope × Nat :=
  let (l, id, ws) := landFirst (fun o => o.tok.isNone && o.arrived cyc && !o.writes.isEmpty) r.outst
  let (l0, m) := raceWrites ws l n
  let l1 := countOut cyc l0
  ({ (r.lateOver id ws).writes ws with outst := l1, ldc := (l1.filter (fun o => o.tok.isNone)).length }, m)

/-- A rope's results land, with the free values drawn. -/
def State.lands (s : State) (k : Nat) (f : Rope → Nat → Rope × Nat) : State :=
  match tget s.ropes k with
  | some r => { s.setRope k (f r s.free).1 with free := (f r s.free).2 }
  | none => s

/-- LOAD_COMPLETE (R184). -/
def execLoadComplete (k : Nat) (s : State) : Host.Outcome State Fault Refusal :=
  done (s.lands k (fun r n => r.loadLands (s.cycOf r) n))

/-- The rope after its oldest stores that are performed have been counted out (R184). -/
def Rope.storesOut (r : Rope) (cyc : Nat) : Rope :=
  let l := r.stores.dropWhile (fun o => o.ready && decide (o.due ≤ cyc))
  { r with stores := l, stc := l.length }

/-- STORE_PERFORMED (R184). -/
def execStorePerformed (k : Nat) (s : State) : Host.Outcome State Fault Refusal :=
  done (s.onRope k (fun r => r.storesOut (s.cycOf r)))

/-- SFU_RESULT_DELIVERY (R203): the entry's token becomes READY, no earlier than its cycle (R199). -/
def execSfuResultDelivery (n : Nat) (s : State) : Host.Outcome State Fault Refusal :=
  match s.sfu[n]? with
  | none => done s
  | some e =>
    if (s.core (e.quad / 4)).cyc < e.due then done s
    else
      let s1 := { s with sfu := s.sfu.eraseIdx n }
      done (s1.onRope e.rope (fun r =>
        if (r.tok e.tok).state = .pending then r.setTok e.tok { r.tok e.tok with state := .ready } else r))

/-- The rope after its first arrived SFQ.RD result has been written (R76, R204). -/
def Rope.sfqLands (r : Rope) (cyc n : Nat) : Rope × Nat :=
  match r.outst.find? (fun o => o.tok.isSome && o.arrived cyc) with
  | none => (r, n)
  | some o =>
    let (l, m) := raceWrites o.writes (r.outst.filter (fun q => q.id != o.id)) n
    ({ (r.lateOver o.id o.writes).writes o.writes with outst := l }, m)

/-- SFQ_RD_WRITE (R204): the first SFQ.RD result that has arrived is written. -/
def execSfqRdWrite (k : Nat) (s : State) : Host.Outcome State Fault Refusal :=
  done (s.lands k (fun r n => r.sfqLands (s.cycOf r) n))

/-! Map slots. -/

/-- The bytes of a map load in store order: 32 weight rows, then the scale bytes (R132). -/
def MapFill.bytes (m : MapFill) (mem : Tbl Byte) : List Byte × List Byte :=
  ((List.range 32).flatMap (fun i => rdBytes mem (m.wa + i * m.stride) m.row), rdBytes mem m.sa (32 * m.sb))

/-- Whether every page that a map load reads has been pinned since its issue (R298). -/
def Workgroup.fillPinned (w : Workgroup) (m : MapFill) : Bool :=
  (List.range 32).all (fun i => w.pagedBy m.pages (m.wa + i * m.stride) m.row) && w.pagedBy m.pages m.sa (32 * m.sb)

/-- MAPLD_COMPLETE (R134): the slot becomes VALID with its descriptor, or FAILED; contents that a write has raced are
undefined (R136). It waits for its cycle and for its pages. DESIGN CHOICE: log entry 5. -/
def execMapldComplete (k : Nat) (err : Bool) (s : State) : Host.Outcome State Fault Refusal :=
  let sl := s.slot k
  match sl.fill with
  | none => done s
  | some m =>
    match tget s.wgs m.wg with
    | none => done s
    | some w =>
      if (s.core w.core).cyc < m.due || !w.fillPinned m then done s
      else if err then done (s.setSlot k { MapSlot.empty sl.owner with state := .failed })
      else
        let (ws, ss) := m.bytes w.scratch
        let n := ws.length
        let (bs, s1) := if m.raced then s.openBytes sl.owner (w.scratch.map Prod.snd) (n + ss.length) else (ws ++ ss, s)
        let f := m.fb.toNat
        done (s1.setSlot k
          { state := .valid, owner := sl.owner, wfmt := f % 32, blk := f / 32 % 4, succe := bitOf f 7, succ := bits f 11 8
            weights := storeOf (bs.take n), scales := storeOf (bs.drop n), fill := none
            loaded := some m })

/-! The rope phase. -/

/-- Whether every strand with unretired lanes waits at a SPLICE (R165). -/
def Rope.phaseDone (r : Rope) : Bool := r.strands.any Strand.live && r.strands.all (fun t => !t.live || t.waiting)

/-- The rope after its rope phase (R165): the groups by join PC go on as units behind their SPLICE, 2 cycles later, or when the STALLs
with which their strands came to wait have passed (R73); one group of a SPLICE.C is to be a candidate (R168). R165 and R169 write that address as the join PC + 8, the length of a native SPLICE without
a CW; with the lengths of R157 and R374 it is the join PC plus that SPLICE's length. DEDUCED: log entry 50. -/
def Rope.phase (r : Rope) (cyc : Nat) : Rope :=
  let first (pc : DWord) : Nat :=
    ((List.range r.strands.length).find? (fun i =>
      let t := r.strands.getD i Strand.none
      t.live && t.joinPc == pc)).getD 0
  let strands := r.strands.map (fun t =>
    if t.live then { t with waiting := false, pc := t.joinPc + BitVec.ofNat 64 t.joinLen, unit := first t.joinPc } else t)
  let r1 := { r with strands := strands }
  let r2 := r1.units.foldl (fun (q : Rope) u => q.setReady u (max (cyc + 2) (q.afterOf u)) 0) r1
  match r.strands.filter Strand.live with
  | t :: _ =>
    if r1.whole then
      { r2 with forced := false, cand := if t.compact then some (t.joinPc, if r2.countsClear then cyc + 1 else 0) else r2.cand }
    else r2
  | [] => r2

/-- ROPE_PHASE (R165). -/
def execRopePhase (k : Nat) (s : State) : Host.Outcome State Fault Refusal :=
  done (s.onRope k (fun r => if r.phaseDone then r.phase (s.cycOf r) else r))

/-! Compaction. -/

/-- A strand that is packed: the rope and position it comes from, and the strand. -/
structure Packed where
  rope : Rope
  pos : Nat
  strand : Strand

/-- The strands of the candidates that have unretired lanes, by ROPEID and position (R169). -/
def packedStrands (cs : List Rope) : List Packed :=
  cs.flatMap (fun r => r.strands.zipIdx.filterMap (fun (t, i) => if t.live then some ⟨r, i, t⟩ else none))

/-- Inserts a rope by ROPEID. -/
def ropeIns (k : Nat) (r : Rope) : List (Nat × Rope) → List (Nat × Rope)
  | [] => [(k, r)]
  | (j, q) :: l => if r.ropeId ≤ q.ropeId then (k, r) :: (j, q) :: l else (j, q) :: ropeIns k r l

/-- Ropes in ascending ROPEID. -/
def byRopeId (l : List (Nat × Rope)) : List (Nat × Rope) := l.foldr (fun (k, r) acc => ropeIns k r acc) []

/-- The four lanes of a strand moved from position `i` of a mask to position `j`. -/
def moveBits (m : Word) (i j : Nat) : Word := ((m >>> (4 * i)) &&& 15) <<< (4 * j)

/-- A candidate about to be compacted (R169): its results in flight land first, under the lane numbers they were issued with.
DEDUCED: log entry 15. -/
def Rope.landed (r : Rope) : Rope :=
  { r.landAll.writes ((r.outst.filter (fun o => o.tok.isSome)).flatMap Outst.writes) with outst := r.outst.filter (fun o => o.tok.isNone) }

/-- The earliest issue cycle of a whole rope (R73, R165). -/
def Rope.readyAt (r : Rope) : Nat := (r.schedOf r.headUnit).readyAt

/-- Vector registers packed from strands: each strand's, by a rope's registers, at its new position (R169). -/
def packV (at_ : List (Packed × Nat)) (v : Rope → Tbl Word) : Tbl Word :=
  at_.foldl (fun t (p, j) => (v p.rope).foldl (fun t e =>
    if e.1 % 32 / 4 = p.pos then tset t (e.1 / 32 * 32 + 4 * j + e.1 % 4) e.2 else t) t) []

/-- Predicates packed from strands in the same way (R169). -/
def packP (at_ : List (Packed × Nat)) (pr : Rope → Nat → Word) : Tbl Word :=
  (List.range 7).foldl (fun t n => rset 0 t n (at_.foldl (fun m (p, j) => m ||| moveBits (pr p.rope n) p.pos j) 0)) []

/-- Bits by strand position packed from strands in the same way. -/
def packStrands (at_ : List (Packed × Nat)) (g : Rope → BitVec 8) : BitVec 8 :=
  BitVec.ofNat 8 (at_.foldl (fun n (p, j) => if (g p.rope).getLsbD p.pos then n + 2 ^ j else n) 0)

/-- What a fresh rope records of its barriers (R169): the arrivals of the rope whose context it has, and of its strands.
DEDUCED: log entry 15. -/
def packBars (at_ : List (Packed × Nat)) (r : Rope) : Tbl BarRec :=
  (List.range 16).foldl (fun t b =>
    rset BarRec.none t b { r.bar b with
      strands := if (r.bar b).arrived then 0xFF else packStrands at_ (fun q => (q.bar b).strands)
      late := packStrands at_ (fun q => (q.bar b).late) }) []

/-- A fresh rope (R169): the context of `r`, the strands `ps` at positions 0 on, with their vector registers and predicate
bits, and those that a gate frame keeps for them; it goes on where the candidates stand, and issues no earlier than any rope it comes from
would have. DEDUCED: log entry 15. -/
def freshRope (r : Rope) (ps : List Packed) (cyc : Nat) : Rope :=
  let at_ := ps.zipIdx
  let pc := r.unitPc r.headUnit
  let strands : List Strand := at_.map (fun (p, _) => { p.strand with unit := 0, stopped := false, pc := pc })
  { r with strands := strands, v := packV at_ Rope.v, p := packP at_ Rope.pr, bars := packBars at_ r, cand := none
           frame := r.frame.map (fun fr => { fr with
             v := packV at_ (fun q => q.frame.elim [] Frame.v)
             p := packP at_ (fun q n => q.frame.elim 0 (fun g => rget 0 g.p n)) })
           portWait := ps.foldl (fun n p => max n p.rope.portWait) r.portWait
           sched := [(0, ⟨ps.foldl (fun n p => max n p.rope.readyAt) (max (cyc + 1) r.readyAt), 0, (r.schedOf r.headUnit).skip, 0, false, none⟩)] }

/-- Whether a rope is a candidate of the gathering at an address of another's code (R168): both outside gate frames, or in frames of one
gate. -/
def Rope.gathersWith (q : Rope) (a : DWord) (r : Rope) : Bool :=
  (match q.cand with | some (b, c) => b == a && c != 0 | none => false) && q.asid == r.asid &&
    (q.frame.map Frame.gate) == (r.frame.map Frame.gate)

/-- The candidates of a workgroup's quadrant that gather with one of them at an address, by ROPEID. -/
def State.candidates (s : State) (wg quad : Nat) (a : DWord) (r0 : Rope) : List (Nat × Rope) :=
  byRopeId (s.ropes.filter (fun (_, r) => r.wg == wg && r.quad == quad && r.gathersWith a r0))

/-- A compaction (R169) of the candidates at an address: results in flight land first, the strands are packed eight at a
time, and candidates without a fresh rope end; a strand's accesses come before what its new rope does. -/
def State.compact (s : State) (wg quad : Nat) (a : DWord) (r0 : Rope) : State :=
  let cs := (s.candidates wg quad a r0).map (fun (k, r) => (k, r.landed))
  let cyc := s.cycOf r0
  let ps := packedStrands (cs.map Prod.snd)
  let s1 := cs.foldl (fun (t : State) (k, _) => cs.foldl (fun (u : State) (j, _) =>
    if j = k then u else u.passesOn (.rope k) (.rope j)) t) s
  cs.zipIdx.foldl (fun (t : State) (kr, i) =>
    let mine := (ps.drop (8 * i)).take 8
    if mine.isEmpty then
      (t.setRope kr.1 { kr.2 with strands := kr.2.strands.map (fun x => { x with present := false }), cand := none }).endRope kr.1
    else (t.setRope kr.1 (freshRope kr.2 mine cyc)).barRetest kr.1) s1

/-- The gathering of a quadrant whose compaction is due (R168), as its address and a candidate of it: every rope of the workgroup there
that has not ended is a candidate at it, or 64 cycles have passed since its first candidate. -/
def State.gatherDue (s : State) (wg quad : Nat) : Option (DWord × Rope) :=
  let rs := (s.ropes.filter (fun (_, r) => r.wg == wg && r.quad == quad && !r.ended)).map Prod.snd
  let cyc := match tget s.wgs wg with | some w => (s.core w.core).cyc | none => 0
  rs.findSome? (fun r =>
    match r.cand with
    | some (a, c) =>
      if c = 0 then none
      else if rs.all (fun q => q.gathersWith a r) || decide (c + 63 ≤ cyc) then some (a, r)
      else none
    | none => none)

/-- GATHER_TIMEOUT (R168): the compaction that is due takes place. -/
def execGatherTimeout (wg quad : Nat) (s : State) : Host.Outcome State Fault Refusal :=
  match s.gatherDue wg quad with
  | some (a, r) => done (s.compact wg quad a r)
  | none => done s

/-! Traps and WAITV. -/

/-- TRAP_DELIVERY (R234, R235). -/
def execTrapDelivery (k : Nat) (s : State) : Host.Outcome State Fault Refusal := done (s.deliverHeld k)

/-- The monitored WAITVs of a rope made ready to read again. DESIGN CHOICE: log entry 11. -/
def Rope.wakeUp (r : Rope) : Rope := { r with monitors := r.monitors.map (fun m => { m with woken := true }) }

/-- WAITV_WAKE (R197): a write to the monitored word has been performed, and the WAITV reads again. -/
def execWaitvWake (k : Nat) (s : State) : Host.Outcome State Fault Refusal := done (s.onRope k Rope.wakeUp)

/-- WAITV_POLL (R197): a WAITV without a free monitor reads again, within 1 µs; a saved one keeps its monitor (R334).
DESIGN CHOICE: log entry 11. -/
def execWaitvPoll (k : Nat) (s : State) : Host.Outcome State Fault Refusal :=
  done (s.onRope k (fun r => match tget s.wgs r.wg with | some w => if w.state = .saved then r else r.wakeUp | none => r))

/-! Late translation. -/

/-- The entry of the operand log with a number. -/
def State.logged (s : State) (id : Nat) : Option LogEntry := s.log.find? (fun e => e.id == id)

/-- The state with an entry of the operand log replaced. -/
def State.setLog (s : State) (e : LogEntry) : State :=
  { s with log := s.log.map (fun l => if l.id = e.id then e else l) }

/-- The state without an entry of the operand log. -/
def State.dropLog (s : State) (id : Nat) : State := { s with log := s.log.filter (fun l => l.id != id) }

/-- The reason why a pending lane of an entry cannot be reached, if it cannot (R302 to R306, R313). -/
def State.laneFault (s : State) (t : Target) (a : LaneAcc) : Option Nat :=
  if t.space = spGlobal then
    match s.find t a.addr a.kind with
    | .ok .. => none
    | .fault r => some r
    | .aliased => some 0
  else if s.linkOk t a.addr a.size then none
  else some 6

/-- What keeps an entry's pending lanes from being reached, if something does: the reason of the lowest such lane, and the lanes that it
decides about. -/
def State.logFault (s : State) (e : LogEntry) : Option (Nat × Word) :=
  (leftFirst (e.lanes.filterMap (fun a => (s.laneFault (e.target s) a).map (fun r => (a, r))))).map Prod.snd

/-- The trap of an entry, for the lanes that cannot be reached for a reason (R236, R306, R396): ADDR is the lowest one's. -/
def LogEntry.trap (e : LogEntry) (r : Rope) (reason : Nat) (lanes : Word) : TrapRec :=
  let addr := match (lanesOf lanes).findSome? (fun l => e.lanes.find? (fun a => a.lane == l)) with | some a => a.addr | none => 0
  lateTrap r e.pc 0 e.iw e.kind reason (e.whole.getD lanes) (BitVec.ofNat 64 addr)

/-- The trap of an entry is raised (R305, R306, R357): held for the unit's next boundary; the task fault ROPE where its rope has ended;
an access whose rope is gone is dropped, and a fetch takes its trap by itself. DEDUCED: log entry 45. -/
def State.raiseLog (s : State) (e : LogEntry) (reason : Nat) (lanes : Word) : State :=
  if e.kind = 3 then s.setLog { e with state := .raised }
  else
    match e.orphan, tget s.ropes e.rope with
    | false, some r =>
      if r.ended then
        match tget s.wgs r.wg with
        | some w => (s.raiseFault w 5 1 (BitVec.ofNat 32 (if reason = 0 then 8 else 9)) (some (e.trap r reason lanes))).dropAccess e.id
        | none => s.dropLog e.id
      else
        (s.setLog { e with state := if 16 ≤ reason then .poisoned else .raised }).holdTrap e.rope ⟨e.trap r reason lanes, some e.unit, some e.id⟩
    | _, _ => s.dropLog e.id

/-- What the lanes of an entry that could not be reached in GLOBAL space leave behind: an event for each that was refused (R338), or that
of a poisoned page table (R357). -/
def State.lanesFailed (s : State) (e : LogEntry) (lanes : Word) : State :=
  let t := e.target s
  if t.space = spGlobal then (e.lanes.filter (fun a => lanes.getLsbD a.lane)).foldl (fun (u : State) a => u.failed t a.addr a.kind) s else s

/-- MTLB_TRANSLATE (R302): an entry that is to be tried again is translated; a failure goes to the Herey controller, and an
ALIAS is raised (R305). -/
def execMtlbTranslate (id : Nat) (s : State) : Host.Outcome State Fault Refusal :=
  match s.logged id with
  | none => done s
  | some e =>
    if e.state ≠ .retry then done s
    else
      match s.logFault e with
      | none => done (s.setLog { e with state := .ready })
      | some (0, lanes) => done (s.raiseLog e 0 lanes)
      | some (r, lanes) => done ((s.lanesFailed e lanes).setLog { e with state := .deciding (BitVec.ofNat 8 r) lanes })

/-- FAULT_RESOLVE (R306): resolved, the entry is tried again, a fetch by its unit; declined, XLATE is raised. DEDUCED: log entry 45. -/
def execFaultResolve (id : Nat) (d : Decision) (s : State) : Host.Outcome State Fault Refusal :=
  match s.logged id with
  | none => done s
  | some e =>
    match e.state, d with
    | .deciding _ _, .resolved => done (if e.kind = 3 then s.dropLog id else s.setLog { e with state := .retry })
    | .deciding r lanes, .declined => done (s.raiseLog e r.toNat lanes)
    | _, _ => done s

/-- PLUGIN_TIMEOUT (R354): the plug-in is restarted, and the stage-1 fault it held is declined with the reason of its walk. -/
def execPluginTimeout (id : Nat) (s : State) : Host.Outcome State Fault Refusal :=
  match s.logged id with
  | none => done s
  | some e =>
    match e.state with
    | .deciding r lanes => if r.toNat ≤ 4 then done (s.raiseLog e r.toNat lanes) else done s
    | _ => done s

/-- Whether two register writes have one destination. -/
def RegWrite.sameDest : RegWrite → RegWrite → Bool
  | .vec n l _, .vec k m _ => n == k && l == m
  | .scalar n _, .scalar k _ => n == k
  | _, _ => false

/-- An outstanding load or ATOM after lanes of its entry have been performed (R307): values that no later instruction has overtaken
(R76) are to land, those of the lanes `left` are still awaited; it completes no earlier than R185 lets it. -/
def Outst.replayed (o : Outst) (ws : List RegWrite) (left : List RegWrite) (due : Nat) : Outst :=
  { o with
    ready := left.isEmpty, due := max o.due due
    writes := o.writes ++ ws.filter (fun w => o.waits.any w.sameDest)
    waits := o.waits.filter (fun w => left.any w.sameDest) }

/-- The rope after lanes of one of its logged accesses have been performed; `fin` where none is left. -/
def Rope.replayed (r : Rope) (id : Nat) (ws left : List RegWrite) (fin : Bool) (due : Nat) : Rope :=
  { r with
    outst := r.outst.map (fun o => if o.id = id then { o.replayed ws left due with ready := fin } else o)
    stores := r.stores.map (fun o => if o.id = id then { o with ready := fin, due := max o.due due } else o) }

/-- The compare value of a logged WAITV's lane. -/
def LaneAcc.compare (a : LaneAcc) : Nat := match a.act with | .load _ _ _ v _ => v | _ => 0

/-- The rope with a WAITV's monitor back: at its unit, or with the trap that has interrupted it there. -/
def Rope.watches (r : Rope) (pc : DWord) (m : Monitor) : Rope :=
  match r.trap with
  | some c => if c.unit = m.unit ∧ c.fall = pc then { r with trap := some { c with sleep := some m } } else r.setMonitor m.unit (some m)
  | none => r.setMonitor m.unit (some m)

/-- A logged WAITV goes back to its monitor, woken, under its number (R197, R307). -/
def State.rewatch (s : State) (e : LogEntry) : State :=
  let t := e.target s
  (s.dropLog e.id).onRope e.rope (fun r => e.lanes.foldl (fun (q : Rope) a =>
    q.watches e.pc ⟨e.id, e.unit, t.space, place t.owner a.addr, a.size, true, a.compare, e.handle⟩) r)

/-- Logged accesses have been performed: the fences that were issued behind them acquire for what they have read, and release what they
have written (R282). -/
def State.fencedDone (s : State) (e : LogEntry) : State :=
  match tget s.ropes e.rope with
  | some r =>
    let s1 := r.fence.scopes.foldl (fun (t : State) (sc, i) => if e.id < i then t.fenceAcquires (.rope e.rope) i sc else t) s
    r.fence.rels.foldl (fun (t : State) (sc, i) => if e.id < i then t.fenceReleases (.rope e.rope) i sc else t) s1
  | none => s

/-- Whether a replay of an entry would reach a lane: one of a scratchpad page that is pinned, or any of another space (R298). -/
def State.replays (s : State) (e : LogEntry) : Bool := e.lanes.isEmpty || e.lanes.any (s.paged (e.target s))

/-- REPLAY (R307): the pending lanes of a translated entry are performed, once; a load's values land later, a WAITV reads
again, and lanes that still fail stay logged. Stores and atomics of a rope that has ended are performed as well (R233, R270). -/
def execReplay (id : Nat) (s : State) : Host.Outcome State Fault Refusal :=
  match s.logged id with
  | none => done s
  | some e =>
    if e.state ≠ .ready ∨ !s.replays e then done s
    else if e.kind = 3 then done (s.dropLog id)
    else if !e.orphan && (match tget s.ropes e.rope with | some r => e.isWaitv r | none => true) then done (s.rewatch e)
    else
      let (s1, ws, left) := s.performLanes (e.target s) e.lanes
      let (delay, s2) := (s1.fencedDone e).drawDelay
      let s3 := if e.orphan then s2 else
        s2.onRope e.rope (fun r => r.replayed id ws (left.flatMap (fun a => a.1.dests)) left.isEmpty (s2.cycOf r + 1 + delay))
      let e1 := { e with lanes := left.map Prod.fst }
      match leftFirst left with
      | none => done (s3.dropLog id)
      | some (_, reason, those) =>
        if reason = pageReason then done (s3.setLog e1)
        else if reason = 0 ∨ 16 ≤ reason then done ((s3.setLog e1).raiseLog e1 reason those)
        else done (s3.setLog { e1 with state := .deciding (BitVec.ofNat 8 reason) those })

/-! The scheduler's steps. -/

/-- PRIORITY_BOOST (R323): a unit passed over 4,096 times by units of higher priority is raised for its next issue, and its
count restarts. -/
def execPriorityBoost (k u : Nat) (s : State) : Host.Outcome State Fault Refusal :=
  done (s.onRope k (fun r =>
    let q := r.schedOf u
    if 4096 ≤ q.starve then { r with sched := tset r.sched u { q with starve := 0, boost := true } } else r))

/-- YIELD_SKIP_END (R324): a yielding unit is skipped no longer. DEDUCED: log entry 34. -/
def execYieldSkipEnd (k u : Nat) (s : State) : Host.Outcome State Fault Refusal :=
  done (s.onRope k (fun r => { r with sched := tset r.sched u { r.schedOf u with skip := 0 } }))

end Sys2Proof.Machine
end

