-- ==== Sys2Proof/Machine/Grid.lean ====
section
/-! DEFINITION. Workgroups from launch to end: the launch state (R24), placement (R319, R320), pre-emption, saving and
restoring (R33, R331 to R335), the image's events (R333), scratchpad pages (R298), the local array's division (R299), the
self-test of the map arrays (R151 to R153), and the switch to native code (R376). -/

namespace Sys2Proof.Machine

/-! Launch. -/

/-- A strand at its start (R24). -/
def Strand.start (slot : BitVec 7) (pc : DWord) : Strand := ⟨slot, true, pc, 15, [], 0, 0, 0, false, 0, false, 0, false, 0⟩

/-- The image whose Choarnif section holds a kernel's entry is translated (R376). -/
def State.translated (s : State) (did : BitVec 16) (pc : DWord) : Bool :=
  s.images.any (fun (_, i) => i.did == did && i.translated && i.inPort pc.toNat)

/-- A rope in the state of R24, ready from a cycle of its core on (R322). DESIGN CHOICE: log entry 4. -/
def Workgroup.freshRope (w : Workgroup) (wg r : Nat) (asid : BitVec 16) (slots : List (BitVec 7)) (onNative : Bool) (cyc : Nat) : Rope :=
  { wg := wg, ropeId := r, quad := r % 4, did := w.did, dslot := w.dslot, asid := asid, priv := w.priv, regs := w.regs
    maps := w.maps, codeh := kdCodeh w.kdesc, trapH := kdTrap w.kdesc
    strands := (List.range 8).map (fun i =>
      if i < strandsOf w.strands r then Strand.start (slots.getD i 0) (kdEntry w.kdesc) else Strand.none)
    v := [], s := w.args.filter (fun e => e.2 != 0), p := [], h := w.handles.filter (fun e => e.2 != 0), k := [], ldc := 0, stc := 0
    cpc := 0, copies := [], inflight := [], outst := [], stores := [], trap := none, lastTrap := TrapRec.none, held := [], suppress := [], frame := none
    classMix := [0, 0, 0, 0], sched := [(0, { UnitSched.none with readyAt := cyc })], bars := [], fence := ⟨0, 0, [], []⟩, cand := none, monitors := [], prio := w.prio
    port := w.port, onNative := onNative, portWait := 0, forced := false }

/-- Strand slots of a quadrant that are free, ascending (R14). -/
def State.freeStrands (s : State) (core quad : Nat) : List (BitVec 7) :=
  let used := s.strandSlots core quad
  ((List.range 128).map (BitVec.ofNat 7)).filter (fun x => !used.contains x)

/-- One rope of a workgroup that is being placed is added, behind what its stream's sequencer has done (R282): R14 orders the strand slots of a rope and leaves open which free ones it
gets; the model takes the lowest. DESIGN CHOICE: log entry 51. -/
def State.addRope (s : State) (wg r : Nat) : State :=
  match tget s.wgs wg with
  | none => s
  | some w =>
    let onNative := !w.port || s.translated w.did (kdEntry w.kdesc)
    let rope := w.freshRope wg r w.asid (s.freeStrands w.core (r % 4)) onNative (s.core w.core).cyc
    let s1 := s.passesOn (.stream w.stream) (.rope s.nextId)
    { (s1.setRope s.nextId rope).setWg wg { w with ropes := w.ropes ++ [s.nextId] } with nextId := s.nextId + 1 }

/-- The slot names of a workgroup given physical slots in a quadrant, each EMPTY and owned by the DID (R20, R129): of the
free slots that the mask permits the lowest, where no pin says which. DESIGN CHOICE: log entry 51. -/
def State.giveSlots (s : State) (wg quad : Nat) : State :=
  match tget s.wgs wg with
  | none => s
  | some w =>
    let free := (s.core w.core).freeSlots w.dslot w.pin w.maps (s.mapSlotsUsed w.core quad)
    ((free.take w.maps).zipIdx).foldl (fun (t : State) (p, n) =>
      (t.onWg wg (fun q => { q with slotMap := tset q.slotMap (16 * quad + n) p })).setSlot (16 * quadKey w.core quad + p)
        (MapSlot.empty w.did)) s

/-- The quadrants that a workgroup of n strands uses. -/
def quadsOf (n : Nat) : List Nat := [0, 1, 2, 3].filter (fun q => quadStrands n q != 0)

/-- A workgroup placed on a core in a domain slot: its ropes in the state of R24, its slots EMPTY, its barriers and
semaphores at start (R20, R23, R24, R206). DESIGN CHOICE: log entry 3. DEDUCED: log entry 40. -/
def State.placeAt (s : State) (wg c slot : Nat) : State :=
  match tget s.wgs wg with
  | none => s
  | some w =>
    let w1 := { w with
      core := c, dslot := slot, asid := (s.domain w.did).asid, state := .resident, again := false, ropes := [], scratch := [], marks := [], pinned := []
      barriers := [], sems := [], slotMap := [], marked := [], slotImg := [] }
    let s1 := (quadsOf w.strands).foldl (fun (t : State) q => t.giveSlots wg q) (s.setWg wg w1)
    (List.range (ropeCount w.strands)).foldl (fun (t : State) r => t.addRope wg r) s1

/-- An ascending list from the first element at or after `p` on, then the others (R319). -/
def rotateFrom (p : Nat) (l : List Nat) : List Nat := l.filter (fun c => p ≤ c) ++ l.filter (fun c => c < p)

/-- The least of a list of numbers. -/
def leastOf : List Nat → Option Nat
  | [] => none
  | c :: l => some (l.foldl min c)

/-- The first number of a list at or after `p`, going round at the end (R319). -/
def firstFrom (p : Nat) (l : List Nat) : Option Nat :=
  match leastOf (l.filter (fun c => p ≤ c)) with
  | some c => some c
  | none => leastOf l

/-- The core that takes a workgroup (R319): the first die with room, in rotation behind the die last served; on it the first
core with room at or after the die's pointer. DESIGN CHOICE: log entry 4. -/
def State.chooseCore (s : State) (w : Workgroup) (fits : Nat → Bool) : Option Nat :=
  let hub := match tget s.streams w.stream with | some t => t.hub | none => 0
  let cores := (s.coresOf w.did).filter fits
  let last := rget 7 s.rotors (16 + hub)
  (rotateFrom ((last + 1) % 8) (List.range 8)).findSome? (fun d =>
    firstFrom (rget 0 s.rotors d) (cores.filter (fun c => c / 384 == d)))

/-- The pointers after a core has been served (R319). -/
def State.served (s : State) (w : Workgroup) (c : Nat) : State :=
  let hub := match tget s.streams w.stream with | some t => t.hub | none => 0
  { s with rotors := rset 7 (rset 0 s.rotors (c / 384) (c + 1)) (16 + hub) (c / 384) }

/-- Whether a task has recorded a MAPINT (R153, R274). -/
def State.hasMapint (s : State) (w : Workgroup) : Bool :=
  match tget s.streams w.stream with
  | some t => t.window.any (fun k => k.idx == w.task && k.mapints != 0)
  | none => false

/-- Whether a workgroup waits for placement: not one that has been discarded from a task that will be retried as a whole (R335). -/
def State.waits (s : State) (w : Workgroup) : Bool := w.state == .unplaced && w.pro.isNone && !(w.again && s.hasMapint w)

/-- Whether a lower WGID of the same task waits for placement (R319). -/
def State.lowerUnplaced (s : State) (w : Workgroup) : Bool :=
  s.wgs.any (fun (_, v) => v.stream == w.stream && v.task == w.task && s.waits v && decide (v.wgid < w.wgid))

/-- WORKGROUP_PLACE (R317, R319, R320): placed where R319 says; it waits where no core can take it. -/
def execWorkgroupPlace (wg : Nat) (s : State) : Host.Outcome State Fault Refusal :=
  match tget s.wgs wg with
  | none => done s
  | some w =>
    if !s.waits w || s.lowerUnplaced w then done s
    else
      match s.chooseCore w (fun c => (s.placeOn w c).isSome) with
      | none => done s
      | some c =>
        match s.placeOn w c with
        | none => done s
        | some slot => done ((s.placeAt wg c slot).served w c)

/-- max(PRIO, PCAP) of a stream as mapped (R316, R320). -/
def Stream.topPrio (t : Stream) : Nat := max t.mprio t.mcap

/-- WG_PRIORITY_AGING (R320): an unplaced workgroup rises by 1 for a whole millisecond of waiting, up to its stream's
max(PRIO, PCAP). -/
def execWgPriorityAging (wg : Nat) (s : State) : Host.Outcome State Fault Refusal :=
  match tget s.wgs wg with
  | none => done s
  | some w =>
    let top := match tget s.streams w.stream with | some t => t.topPrio | none => w.prio
    if w.state ≠ .unplaced ∨ s.etime < w.since + 1000000 ∨ top ≤ w.prio then done s
    else done (s.setWg wg { w with prio := w.prio + 1, since := w.since + 1000000 })

/-! Discarding and saving. -/

/-- A workgroup's ropes and everything that runs for them are gone; the stores and atomics that they have issued are performed. -/
def State.stripWg (s : State) (wg : Nat) (w : Workgroup) : State :=
  let s1 := (s.freeSlots w).abandonLog (fun e => w.ropes.contains e.rope)
  { s1 with
    ropes := s1.ropes.filter (fun (_, r) => r.wg != wg)
    sfu := s1.sfu.filter (fun e => !w.ropes.contains e.rope)
    ctxs := s1.ctxs.filter (fun (_, c) => c.wg != wg || c.task.isSome) }

/-- WORKGROUP_DISCARD (R332): an `.idem` workgroup ends and waits for placement as though it had never started; accesses of it to the
scratchpad that it leaves, which wait in the log, go with that. -/
def State.discardWg (s : State) (wg : Nat) : State :=
  match tget s.wgs wg with
  | none => s
  | some w =>
    let s1 := s.stripWg wg w
    { s1 with log := s1.log.filter (fun e => !(e.wg == wg && (hent e.handle).space == spScratch)) }.setWg wg { w with
      state := .unplaced, again := true, ropes := [], scratch := [], marks := [], pinned := [], barriers := [], sems := [], slotMap := []
      marked := [], slotImg := [], since := s.etime }

/-- Whether a rope has no operation in flight that a save waits for (R21, R33, R307, R332): what is left are accesses whose trap has
been raised. -/
def State.idle (s : State) (k : Nat) (r : Rope) : Bool :=
  let raised (id : Nat) : Bool := s.log.any (fun e => e.id == id && e.state.over)
  r.outst.all (fun o => raised o.id) && r.stores.all (fun o => raised o.id) &&
    s.log.all (fun e => e.orphan || e.rope != k || e.state.over) && s.sfu.all (fun e => e.rope != k) &&
    s.slots.all (fun (_, m) => match m.fill with | some l => l.rope != k | none => true)

/-- A rope as its image holds it: results landed, its frame's budget paused (R33, R233), its units no longer ready, so that none is passed
over (R323). -/
def Rope.saved (r : Rope) (now : Nat) (forced : Bool) : Rope :=
  { r.landAll with
    forced := forced
    sched := r.sched.map (fun (u, q) => (u, { q with pass := 0 }))
    frame := r.frame.map (fun fr => { fr with budgetNs := fr.budgetNs.map (fun d => d - now) }) }

/-- Whether every rope of a workgroup has ended. -/
def State.past (s : State) (w : Workgroup) : Bool := w.ropes.all (fun k => match tget s.ropes k with | some r => r.ended | none => true)

/-- Whether a workgroup can become its image (R141, R332): every rope is saved or has ended, some rope goes on, and neither a load of
one of its slots nor an operation of a rope that has ended is in flight. -/
def State.allSaved (s : State) (wg : Nat) (w : Workgroup) : Bool :=
  !s.past w && w.ropes.all (fun k => w.marked.contains k || (match tget s.ropes k with | some r => r.ended && s.idle k r | none => true)) &&
    s.slots.all (fun (_, m) => match m.fill with | some l => l.wg != wg | none => true)

/-- A workgroup whose ropes are saved becomes its image (R141, R298, R332): its slots join it, its pages are unpinned. -/
def State.toImage (s : State) (wg : Nat) : State :=
  match tget s.wgs wg with
  | none => s
  | some w =>
    let img : Tbl MapSlot := w.slotMap.map (fun (n, p) => (n, s.slot (16 * quadKey w.core (n / 16) + p)))
    (s.freeSlots w).setWg wg { w with state := .saved, pinned := [], slotMap := [], slotImg := img }

/-- The requests of R331 that are complete are reported. -/
def State.settlePreempts (s : State) : State :=
  let busy (q : BitVec 16 × List Nat) : Bool := s.wgs.any (fun (_, w) =>
    w.state == .saving && q.2.contains w.core && (w.did == q.1 || w.ropes.any (fun k =>
      match tget s.ropes k with | some r => r.did == q.1 | none => false)))
  { s with
    preempts := s.preempts.filter busy
    replies := s.replies ++ (s.preempts.filter (fun q => !busy q)).map (fun q => .preempted q.1) }

/-- A rope is saved; with the last one the workgroup becomes its image. -/
def State.saveRope (s : State) (k : Nat) (r : Rope) (w : Workgroup) (forced : Bool) : State :=
  let s1 := (s.setRope k (r.saved s.etime forced)).setWg r.wg { w with marked := w.marked ++ [k] }
  let s2 := match tget s1.wgs r.wg with
    | some w1 => if s1.allSaved r.wg w1 then s1.toImage r.wg else s1
    | none => s1
  s2.settlePreempts

/-- ROPE_SAVE (R33, R332): at a quiescent point, once its operations are complete. -/
def execRopeSave (k : Nat) (s : State) : Host.Outcome State Fault Refusal :=
  match tget s.ropes k with
  | none => done s
  | some r =>
    match tget s.wgs r.wg with
    | none => done s
    | some w =>
      if w.state == .saving && !w.marked.contains k && r.quiescent && s.idle k r then done (s.saveRope k r w false) else done s

/-- The pre-emption timeout of a domain slot in ns; 0 acts as 1 µs (R220). -/
def Core.ptoNs (k : Core) (slot : Nat) : Nat := 1000 * max 1 ((k.set slot).extractLsb' 16 16).toNat

/-- Whether the timeout of the domain whose pre-emption vacates a workgroup has passed since the request (R33, R332): as its DPE_SET has it
now (R220). -/
def State.saveDue (s : State) (w : Workgroup) : Bool :=
  let k := s.core w.core
  decide (w.saveAt + k.ptoNs ((k.slotOf w.saveFor).getD w.dslot) ≤ s.etime)

/-- FORCED_SAVE (R33, R332): once the timeout has passed, a rope is saved in whatever shape it has. -/
def execForcedSave (k : Nat) (s : State) : Host.Outcome State Fault Refusal :=
  match tget s.ropes k with
  | none => done s
  | some r =>
    match tget s.wgs r.wg with
    | none => done s
    | some w =>
      if w.state == .saving && !w.marked.contains k && s.saveDue w && s.idle k r then done (s.saveRope k r w true)
      else done s

/-- A workgroup is vacated for a domain's pre-emption (R332): discarded where its kernel is `.idem`, else to be saved, or awaited where only copy programs and
outstanding accesses of it go on. A save in progress goes on (R335). Where its own domain is pre-empted an `.idem` workgroup is discarded
with its gate frames (R332), though R233 saves a rope that is in one. DESIGN CHOICE: log entry 57. -/
def State.vacate (s : State) (wg : Nat) (did : BitVec 16) (force : Bool) : State :=
  match tget s.wgs wg with
  | none => s
  | some w =>
    if w.state ≠ .resident ∨ w.pro.isSome then s
    else if w.idem && !force then s.discardWg wg
    else s.setWg wg { w with state := .saving, saveAt := s.etime, saveFor := did }

/-- PREEMPT_REQUEST (R331): cores leave the domain's mask, its workgroups on them are vacated, with those that have an open
frame of the domain (R233), and unplaced workgroups are tested again (R318). -/
def execPreemptRequest (did : BitVec 16) (cores : List Nat) (s : State) : Host.Outcome State Fault Refusal :=
  let d := s.domain did
  let s1 := s.setDomain did { d with cores := d.cores.filter (fun c => !cores.contains c) }
  let s2 := s1.wgs.foldl (fun (t : State) (k, w) =>
    if !cores.contains w.core then t
    else if w.did == did then t.vacate k did false
    else if w.ropes.any (fun q => match tget s1.ropes q with | some r => r.frame.isSome && r.did == did | none => false)
    then t.vacate k did true
    else t) s1
  done (({ s2 with preempts := s2.preempts ++ [(did, cores)] } : State).settlePreempts.retest did)

/-- CORE_MASK_ADD (R331): cores join the domain's mask, and unplaced workgroups are tested again (R318). -/
def execCoreMaskAdd (did : BitVec 16) (cores : List Nat) (s : State) : Host.Outcome State Fault Refusal :=
  let d := s.domain did
  done ((s.setDomain did { d with cores := d.cores ++ cores.filter (fun c => !d.cores.contains c) }).retest did)

/-! Restoring. -/

/-- Whether a rope stands at a WAITC whose limits its counters do not meet (R196, R334). -/
def State.waitcBlocks (s : State) (r : Rope) (u : Nat) : Bool :=
  let w := BitVec.ofNat 64 (leNat (s.codeBytes r.asid (r.unitPc u).toNat 8))
  let lims : BitVec 8 × BitVec 8 × BitVec 8 :=
    if r.port then ((w.extractLsb' 16 6).setWidth 8, (w.extractLsb' 22 6).setWidth 8, if w.getLsbD 9 then w.extractLsb' 32 8 else 0)
    else (w.extractLsb' 24 8, w.extractLsb' 32 8, w.extractLsb' 40 8)
  w.extractLsb' 0 9 == 0x160 && !(limitOk r.ldc lims.1 && limitOk r.stc lims.2.1 && limitOk r.cpc lims.2.2)

/-- Whether an opcode is of an instruction that a fence of its rope holds back (R198), PREF among them. -/
def isMemOp (op : Nat) : Bool :=
  (decide (0x180 ≤ op) && decide (op < 0x1C0)) || op == 0x161 || op == 0x100 || op == 0x1D0 || op == 0x1D1

/-- Whether a unit stands at an instruction that waits for what has not happened in its rope's image (R334): WAITC, a memory instruction
behind a fence (R198), a copy command that CPC has no room for (R206), GRET (R232). -/
def State.waitsInImage (s : State) (k : Nat) (r : Rope) (u : Nat) : Bool :=
  let op := leNat (s.codeBytes r.asid (r.unitPc u).toNat 8) % 512
  s.waitcBlocks r u || (isMemOp op && s.fenced k r u) || ((op == 0x1D0 || op == 0x1D1) && decide (63 ≤ r.cpc)) ||
    (op == 0x1D9 && s.gretWaits k r)

/-- Whether a rope of an image would be ready once restored (R334). -/
def State.readyInImage (s : State) (k : Nat) (r : Rope) : Bool :=
  (!r.held.isEmpty && r.trap.isNone) ||
  match r.cand with
  | some _ => r.countsClear
  | none => r.units.any (fun u =>
    (r.schedOf u).blocked.isNone && r.strands.all (fun t => !(t.inUnit u && t.stopped)) &&
    (match r.monitorOf u with | some m => m.woken || r.trap.isSome | none => true) && !s.waitsInImage k r u)

/-- Whether a saved workgroup is eligible (R334). -/
def State.eligible (s : State) (w : Workgroup) : Bool :=
  w.state == .saved && w.ropes.any (fun k =>
    match tget s.ropes k with | some r => !r.ended && s.readyInImage k r | none => false)

/-- Whether the slots that a gate frame of a rope names are still its callee's on a core (R229, R233). -/
def State.frameSlots (s : State) (r : Rope) (c : Nat) : Bool :=
  match r.frame with
  | none => true
  | some fr => (List.range (gateNat fr.entry 52 5)).all (fun i =>
      (s.slot (16 * quadKey c r.quad + gateNat fr.entry 48 4 + i)).owner == r.did)

/-- Whether a saved workgroup can be restored on a core (R317, R233): the domain slot, where the domains of its frames have
valid slots and still own the map slots that the frames name. -/
def State.restoreOn (s : State) (w : Workgroup) (c : Nat) : Option Nat :=
  if w.ropes.all (fun k => match tget s.ropes k with
      | some r => r.frame.isNone || (((s.core c).slotOf r.did).isSome && s.frameSlots r c)
      | none => true) then s.placeOn w c
  else none

/-- A rope on its new core, with the workgroup's ropes before it: strand slots, domain slots, budget running again, latencies
passed, on the translation where it is complete (R14, R233, R376). -/
def State.reseat (s : State) (k : Nat) (c slot : Nat) (before : List Nat) : State :=
  match tget s.ropes k with
  | none => s
  | some r =>
    let skip := before.foldl (fun n j =>
      match tget s.ropes j with | some q => if q.quad = r.quad then n + q.presentStrands else n | none => n) 0
    let used := (s.freeStrands c r.quad).drop skip
    let n (i : Nat) : Nat := ((r.strands.take i).filter (fun t => t.present)).length
    let callee := ((s.core c).slotOf r.did).getD slot
    s.setRope k { r with
      strands := r.strands.zipIdx.map (fun (t, i) => if t.present then { t with slot := used.getD (n i) 0, after := 0 } else t)
      cand := r.cand.map (fun q => (q.1, if q.2 = 0 then 0 else (s.core c).cyc + 1))
      dslot := if r.frame.isSome then callee else slot
      frame := r.frame.map (fun fr => { fr with dslot := slot, budgetNs := fr.budgetNs.map (fun d => s.etime + d) })
      sched := r.sched.map (fun (u, q) => (u, { q with readyAt := (s.core c).cyc }))
      outst := r.outst.map (fun o => { o with due := 0 })
      stores := r.stores.map (fun o => { o with due := 0 })
      onNative := r.onNative || (!r.forced && s.translated r.did (r.unitPc r.headUnit)) }

/-- The state with an image back on a core (R141, R334). -/
def State.restoreAt (s : State) (wg c slot : Nat) : State :=
  match tget s.wgs wg with
  | none => s
  | some w =>
    let away : State := s.setWg wg { w with core := c, dslot := slot }
    let s1 := w.ropes.zipIdx.foldl (fun (t : State) (k, i) => t.reseat k c slot (w.ropes.take i)) away
    let s1 := { s1 with log := s1.log.map (fun (e : LogEntry) => if w.ropes.contains e.rope then { e with core := c } else e) }
    let s2 := s1.onWg wg (fun q => { q with state := .resident, marked := [], slotMap := [], slotImg := [] })
    let s3 := (quadsOf w.strands).foldl (fun (t : State) q => t.giveSlots wg q) s2
    match tget s3.wgs wg with
    | none => s3
    | some w3 => w.slotImg.foldl (fun (t : State) (n, m) =>
        match tget w3.slotMap n with
        | some p => t.setSlot (16 * quadKey c (n / 16) + p) m
        | none => t) s3

/-- WORKGROUP_RESTORE (R334). -/
def execWorkgroupRestore (wg core : Nat) (s : State) : Host.Outcome State Fault Refusal :=
  match tget s.wgs wg with
  | none => done s
  | some w =>
    if !s.eligible w then done s
    else
      match s.restoreOn w core with
      | none => done s
      | some slot => done ((s.restoreAt wg core slot).served w core)

/-- IMAGE_EVENT (R333): an engine event applied once to the image of a saved workgroup. -/
def execImageEvent (wg : Nat) (e : ImageEv) (s : State) : Host.Outcome State Fault Refusal :=
  match tget s.wgs wg with
  | none => done s
  | some w =>
    if w.state ≠ .saved then done s
    else
      match e with
      | .copyEnd rope =>
        match s.ctxs.find? (fun (_, c) => c.wg == wg && c.rope == rope && c.task.isNone) with
        | some (k, c) => done (s.endCtx k c)
        | none => done s
      | .sems n => done (s.setWg wg { w with sems := rset 0 w.sems (n % 8) (if w.sem (n % 8) = 0xFFFF then 0xFFFF else w.sem (n % 8) + 1) })
      | .semw n => if w.sem (n % 8) = 0 then done s else done (s.setWg wg { w with sems := rset 0 w.sems (n % 8) (w.sem (n % 8) - 1) })
      | .scratchWrite addr bytes => if addr + bytes.length ≤ w.scratchSize then
          done ((s.writeScratch wg none s.nextId addr bytes).clobbers ⟨spScratch, place wg addr, bytes.length⟩) else done s
      | .copyFault rope cause reason start off addr =>
        let t : TrapRec :=
          { cause := cause, reason := reason, async := true, copy := true, frame := false, action := defaultAction cause.toNat
            lanemask := 0, fpc := start, rpc := 0, info := off.setWidth 32, offset := 0, addr := addr, iw := 0, saved := [0, 0, 0, 0] }
        if w.ropes.contains rope then done (s.holdTrap rope ⟨t, none, none⟩) else done s
      | .monitorWrite rope => if w.ropes.contains rope then done (s.onRope rope Rope.wakeUp) else done s

/-! Pages and the local array. -/

/-- The pages pinned for a domain slot of a core. -/
def State.pagesPinned (s : State) (c slot : Nat) : Nat :=
  s.wgs.foldl (fun n (_, w) => if w.onCore c && w.dslot == slot then n + w.pinned.length else n) 0

/-- A page of a workgroup is pinned (R298): the map loads and commands of copy programs that wait for it read and write it then. -/
def State.pin (s : State) (wg page : Nat) : State :=
  let s1 := s.onWg wg (fun q => { q with pinned := q.pinned ++ [page] })
  { s1 with
    slots := s1.slots.map (fun (k, m) =>
      (k, { m with fill := m.fill.map (fun f => if f.wg = wg then { f with pages := page :: f.pages.filter (· != page) } else f) }))
    ctxs := s1.ctxs.map (fun (k, c) => (k, if c.wg = wg ∧ c.task.isNone then { c with pages := page :: c.pages.filter (· != page) } else c)) }

/-- PAGE_PIN (R298): the page is pinned; where every frame that the domain may use is taken, a page of the same domain on the core is
unpinned first. -/
def execPagePin (wg page : Nat) (s : State) : Host.Outcome State Fault Refusal :=
  match tget s.wgs wg with
  | none => done s
  | some w =>
    if w.pinned.contains page ∨ !(w.onCore w.core) ∨ scratchAlloc w.scratchSize ≤ 4096 * page then done s
    else
      if s.pagesPinned w.core w.dslot < (s.core w.core).frames w.dslot then done (s.pin wg page)
      else
        match s.wgs.find? (fun (_, v) => v.onCore w.core && v.dslot == w.dslot && !v.pinned.isEmpty) with
        | some (k, v) => done ((s.setWg k { v with pinned := v.pinned.drop 1 }).pin wg page)
        | none => done s

/-- L2_EVICTION (R293, R295, R297): the line's L1 copies are recalled, its stores merged and its partial values combined, and it leaves
the L2. -/
def execL2Eviction (asid : BitVec 16) (line : Nat) (s : State) : Host.Outcome State Fault Refusal :=
  done ((s.l2.filter (fun l => l.asid == asid && l.line == line)).foldl State.evictLine s)

/-- Pages unpinned until at most `n` are pinned for a domain slot of a core, those of the workgroups listed first. -/
def unpinTo (c slot : Nat) : Nat → Tbl Workgroup → Tbl Workgroup
  | _, [] => []
  | n, (k, w) :: r =>
    if w.onCore c && w.dslot == slot then (k, { w with pinned := w.pinned.take n }) :: unpinTo c slot (n - w.pinned.length) r
    else (k, w) :: unpinTo c slot n r

/-- SCR_CHANGE (R292, R299): 1 to 7 steps, else refused. Pages of leaving frames are unpinned, lines of leaving ways merge, the
command's completion flag is set, and unplaced workgroups are tested again (R318). -/
def execScrChange (core scr : Nat) (s : State) : Host.Outcome State Fault Refusal :=
  if scr = 0 ∨ 8 ≤ scr then done s
  else
    let k := { s.core core with scr := scr, scrDone := true }
    let s1 := (s.l1Leave core (fun _ => true) (fun w => decide (8 - scr ≤ w))).setCore core k
    done { s1 with wgs := ([0, 1, 2, 3] : List Nat).foldl (fun t d => unpinTo core d (k.frames d) t) s1.wgs }.retestAll

/-! Self-test. -/

/-- The hub die that records an event of a die: HD1 for itself, else HD0. -/
def hubOf (die : BitVec 4) : Nat := if die = 9 then 1 else 0

/-- MAPINT recorded against the task of a workgroup (R153, R356). -/
def State.mapint (s : State) (wg : Nat) : State :=
  match tget s.wgs wg with
  | none => s
  | some w => s.onStream w.stream (fun t =>
      { t with window := t.window.map (fun k => if k.idx = w.task then { k with mapints := k.mapints + 1 } else k) })

/-- Whether a task that a MAPINT has retried is over (R153): complete, or gone from the window. -/
def State.retryOver (s : State) (q : Nat × Nat) : Bool :=
  match (tget s.streams q.1).bind (fun t => t.window.find? (fun k => k.idx == q.2)) with
  | some k => k.mapints == 0 && k.state == .complete
  | none => true

/-- The tasks whose ropes have applied a map on an array since its last passing test (R153). -/
def State.mapTasks (s : State) (a : MapArray) : List (Nat × Nat) :=
  a.users.filterMap (fun k => (tget s.wgs k).map (fun w => (w.stream, w.task)))

/-- An array after a self-test in which the sub-arrays `bad` fail (R151 to R153): they are fenced, for good where they were fenced
already; a fence that is not lasting is lifted once its sub-array has passed 16 tests since it was fenced and the retried tasks are
complete. The tasks that applied a map since the last passing test stay those. -/
def MapArray.tested (a : MapArray) (bad : BitVec 4) (past : Bool) : MapArray :=
  let lasting := a.lasting ||| (a.fenced &&& bad)
  let count (i : Nat) : Nat := if bad.getLsbD i || !a.fenced.getLsbD i then 0 else rget 0 a.passes i + 1
  let stays (i : Nat) : Bool := bad.getLsbD i || (a.fenced.getLsbD i && (lasting.getLsbD i || decide (count i < 16) || !past))
  let fenced : BitVec 4 := BitVec.ofNat 4 ((List.range 4).foldl (fun n i => if stays i then n + 2 ^ i else n) 0)
  { a with
    faulty := 0, fenced := fenced, lasting := lasting, apps := 0, users := if bad = 0 then [] else a.users
    passes := (List.range 4).foldl (fun t i => rset 0 t i (if fenced.getLsbD i then count i else 0)) [] }

/-- A self-test of an array in which the sub-arrays `bad` fail (R151 to R153): the tasks that it retries are kept until they are over. -/
def State.testArray (s : State) (k : Nat) (bad : BitVec 4) : State :=
  let a := s.array (k / 8) (k / 2 % 4) (k % 2)
  let b := a.tested bad (a.retries.all s.retryOver)
  let open_ := a.retries.filter (fun q => !s.retryOver q)
  let new := if bad = 0 then [] else (s.mapTasks a).filter (fun q => !open_.contains q)
  { s with arrays := tset s.arrays k { b with retries := open_ ++ new } }

/-- The arrays of a core that are idle in its current cycle, by key. -/
def State.idleArrays (s : State) (c : Nat) : List Nat :=
  (s.arrays.filter (fun (k, a) => k / 8 == c && decide (a.busy ≤ (s.core c).cyc))).map Prod.fst

/-- Where a sub-array stands in the black-box record (R359), with a code. DESIGN CHOICE: log entry 39. -/
def State.arrayAt (s : State) (core quad arr sub : Nat) (code : BitVec 8) : ErrWhere :=
  ⟨code, BitVec.ofNat 4 (core / 384), BitVec.ofNat 4 ((s.corePart core).getD 0), 0, BitVec.ofNat 64 (4 * (2 * quadKey core quad + arr % 2) + sub), 0⟩

/-- Whether a quadrant is held by a fenced array in the core's current cycle (R152): not in the one in which its application issues. -/
def Core.heldNow (k : Core) (quad : Nat) : Bool := decide (k.cyc < rget 0 k.held quad) && !k.issued.getLsbD quad

/-- The class of a core's current cycle (R325): the highest in flight in it; a held cycle is at least class M. -/
def Core.cycleClass (k : Core) : Nat :=
  (k.flight.filter (fun e => decide (k.cyc < e.till))).foldl (fun a e => max a e.cls)
    (if ([0, 1, 2, 3] : List Nat).any k.heldNow then 2 else 0)

/-- Whether the tests of a workgroup's arrays, which its task's completion waits for (R151), are still to be made. -/
def State.untestedFor (s : State) (wg : Nat) (w : Workgroup) : Bool :=
  s.arrays.any (fun (k, a) => k / 8 == w.core && a.users.contains wg)

/-- Whether nothing of a workgroup is outstanding (R255): stores, loads, tokens, logged accesses, those of its ended ropes and frames
among them, copy programs, map loads. -/
def State.settled (s : State) (wg : Nat) (w : Workgroup) : Bool :=
  w.ropes.all (fun k =>
    match tget s.ropes k with
    | some r => r.ended && r.outst.isEmpty && r.stores.isEmpty
    | none => true) &&
  s.ctxs.all (fun (_, c) => c.wg != wg || c.task.isSome) && s.log.all (fun e => e.wg != wg || e.kind == 3) &&
  s.sfu.all (fun e => !w.ropes.contains e.rope) && s.slots.all (fun (_, m) => match m.fill with | some f => f.wg != wg | none => true)

/-- Whether an array is to be tested now, if idle, whatever the cycle is (R151): it has made 4,096 applications since its last test, or
a workgroup that has used it is about to be reported. -/
def State.testForced (s : State) (a : MapArray) : Bool :=
  a.untested || a.users.any (fun k => match tget s.wgs k with | some w => s.past w && s.settled k w | none => false)

/-- The self-test of an array (R151 to R153), in which the sub-arrays fail that have been named: the failure is recorded, and the lasting
fences enter the sealed store's repair maps (R360). -/
def State.selfTest (s : State) (k : Nat) : State :=
  let (core, quad, arr) := (k / 8, k / 2 % 4, k % 2)
  let a := s.array core quad arr
  let failed := (List.range 4).filter (fun i => a.faulty.getLsbD i)
  let s1 := if a.faulty = 0 then s else a.users.foldl (fun (t : State) w => t.mapint w) s
  let s2 := failed.foldl (fun (t : State) i => t.logBox 0 3 (t.arrayAt core quad arr i (if a.fenced.getLsbD i then 2 else 1))) s1
  let s3 := if a.users.isEmpty then s2 else failed.foldl (fun (t : State) i => t.logBox 0 4 (t.arrayAt core quad arr i 0)) s2
  let s4 := s3.testArray k a.faulty
  let b := s4.array core quad arr
  let s5 := { s4 with
    repairs := if b.lasting = 0 then s4.repairs else rset 0 s4.repairs k b.lasting
    repaired := s4.repaired || b.lasting != a.lasting }
  if a.faulty = 0 then s5 else s5.retestAll

/-- MAP_SELF_TEST (R151): the sub-arrays `bad` fail the array's next test, which is made at once where an idle array has to be tested, and
makes the cycle one of class M; else it is that of the end of an M cycle in which the array is idle. -/
def execMapSelfTest (core quad arr : Nat) (bad : BitVec 4) (s : State) : Host.Outcome State Fault Refusal :=
  let k := 2 * quadKey core quad + arr % 2
  let a0 := s.array core quad (arr % 2)
  let a := { a0 with faulty := a0.faulty ||| bad }
  let c := s.core core
  if a.busy ≤ c.cyc ∧ s.testForced a = true then
    let s1 := { s with arrays := tset s.arrays k { a with busy := max a.busy (c.cyc + 1) } }.setCore core
      { c with flight := c.flight ++ [(⟨2, c.cyc, c.cyc + 1, 4⟩ : Flight)] }
    done (s1.selfTest k)
  else done { s with arrays := tset s.arrays k a }

/-! Native code. -/

/-- NATIVE_SWITCH (R376): a Choarnif rope goes over to its image's translation when it is complete, the rope is quiescent, and
no fixed-latency result is in flight. -/
def execNativeSwitch (k : Nat) (s : State) : Host.Outcome State Fault Refusal :=
  done (s.onRope k (fun r =>
    if r.port && !r.onNative && r.quiescent && r.inflight.isEmpty && s.translated r.did (r.unitPc r.headUnit) then
      { r with onNative := true }
    else r))

end Sys2Proof.Machine
end

