-- ==== Sys2Proof/Machine/Int.lean ====
section
/-! DEFINITION. The meanings of the integer, logic and address instructions (R96 to R112). -/

namespace Sys2Proof.Machine

/-- The type a result is kept in (R93): the suffix at its width, or at 32 bits in widened mode. -/
def keepTy (m : Meta) (c : CW) : Ty := if m.ty.width < 32 ∧ modSel c.modB = 1 then wideTy m.ty else m.ty

/-- R93: wrap, or with SAT clamp and raise status where that changed the value. -/
def keepAs (t : Ty) (sat : Bool) (v : Int) : ER :=
  if sat then ⟨wrapInt t.width (satInt t v), 0, decide (satInt t v ≠ v)⟩ else ER.of (wrapInt t.width v)

/-- A result kept by R93. -/
def keep (m : Meta) (c : CW) (v : Int) : ER := keepAs (keepTy m c) c.sat v

/-- IADD (R96). -/
def addElem (m : Meta) (c : CW) (a b : EV) : ER := keep m c (a.int + b.int)
/-- ISUB (R96). -/
def subElem (m : Meta) (c : CW) (a b : EV) : ER := keep m c (a.int - b.int)
/-- IMIN (R96). -/
def minElem (m : Meta) (c : CW) (a b : EV) : ER := keep m c (min a.int b.int)
/-- IMAX (R96). -/
def maxElem (m : Meta) (c : CW) (a b : EV) : ER := keep m c (max a.int b.int)
/-- IMUL (R97). -/
def mulElem (m : Meta) (c : CW) (a b : EV) : ER := keep m c (a.int * b.int)
/-- IMULH (R97): bits [2w−1:w] of the product modulo 2^(2w). -/
def mulhElem (m : Meta) (_ : CW) (a b : EV) : ER :=
  ER.of (wrapInt (2 * m.ty.width) (a.int * b.int) / 2 ^ m.ty.width)
/-- IMAD (R98). -/
def madElem (m : Meta) (c : CW) (a b d : EV) : ER := keep m c (a.int * b.int + d.int)

/-- ICMP (R101). -/
def cmpElem (cc : Nat) (a b : EV) : Bool × Flags := (icond cc a.int b.int, 0)

def execIaddS32 (f : Fields) (s : State) := alu2 0x000 f addElem s
def execIaddN32 (f : Fields) (s : State) := alu2 0x001 f addElem s
def execIsubS32 (f : Fields) (s : State) := alu2 0x002 f subElem s
def execIsubN32 (f : Fields) (s : State) := alu2 0x003 f subElem s
def execIaddS64 (f : Fields) (s : State) := alu2 0x004 f addElem s
def execIaddN64 (f : Fields) (s : State) := alu2 0x005 f addElem s
def execIsubS64 (f : Fields) (s : State) := alu2 0x006 f subElem s
def execIsubN64 (f : Fields) (s : State) := alu2 0x007 f subElem s
def execIaddS16 (f : Fields) (s : State) := alu2 0x008 f addElem s
def execIaddN16 (f : Fields) (s : State) := alu2 0x009 f addElem s
def execIsubS16 (f : Fields) (s : State) := alu2 0x00A f subElem s
def execIsubN16 (f : Fields) (s : State) := alu2 0x00B f subElem s
def execIaddS8 (f : Fields) (s : State) := alu2 0x00C f addElem s
def execIaddN8 (f : Fields) (s : State) := alu2 0x00D f addElem s
def execIsubS8 (f : Fields) (s : State) := alu2 0x00E f subElem s
def execIsubN8 (f : Fields) (s : State) := alu2 0x00F f subElem s
def execIminS32 (f : Fields) (s : State) := alu2 0x010 f minElem s
def execIminN32 (f : Fields) (s : State) := alu2 0x011 f minElem s
def execImaxS32 (f : Fields) (s : State) := alu2 0x012 f maxElem s
def execImaxN32 (f : Fields) (s : State) := alu2 0x013 f maxElem s
def execIcmpS32 (f : Fields) (s : State) := aluCmp 0x014 f cmpElem s
def execIcmpN32 (f : Fields) (s : State) := aluCmp 0x015 f cmpElem s
def execIcmpS64 (f : Fields) (s : State) := aluCmp 0x016 f cmpElem s
def execIcmpN64 (f : Fields) (s : State) := aluCmp 0x017 f cmpElem s

/-- An untyped element as a natural number of its width. -/
def EV.nat (w : Nat) (e : EV) : Nat := wrapInt w e.int

/-- AND (R102). -/
def andElem (_ : Meta) (_ : CW) (a b : EV) : ER := ER.of (a.nat 32 &&& b.nat 32)
/-- OR (R102). -/
def orElem (_ : Meta) (_ : CW) (a b : EV) : ER := ER.of (a.nat 32 ||| b.nat 32)
/-- XOR (R102). -/
def xorElem (_ : Meta) (_ : CW) (a b : EV) : ER := ER.of (a.nat 32 ^^^ b.nat 32)
/-- ANDN (R102). -/
def andnElem (_ : Meta) (_ : CW) (a b : EV) : ER := ER.of (a.nat 32 &&& (2 ^ 32 - 1 - b.nat 32))
/-- NOT (R102). -/
def notElem (_ : Meta) (_ : CW) (b : EV) : ER := ER.of (2 ^ 32 - 1 - b.nat 32)

/-- BITMIX (R103): bit k is bit (A[k] + 2·B[k] + 4·C[k]) of the table. -/
def bitmixElem (_ : Meta) (c : CW) (a b d : EV) : ER :=
  ER.of ((List.range 32).foldl (fun acc k =>
    let i := bits (a.nat 32) k k + 2 * bits (b.nat 32) k k + 4 * bits (d.nat 32) k k
    if bitOf c.imm.toNat i then acc + 2 ^ k else acc) 0)

def execAndB (f : Fields) (s : State) := alu2 0x018 f andElem s
def execOrB (f : Fields) (s : State) := alu2 0x019 f orElem s
def execXorB (f : Fields) (s : State) := alu2 0x01A f xorElem s
def execAndnB (f : Fields) (s : State) := alu2 0x01B f andnElem s
def execNotB (f : Fields) (s : State) := alu1 0x01C f notElem s
def execBitmix (f : Fields) (s : State) := alu3 0x01D f bitmixElem s

/-- PLOP (R104). -/
def execPlop (f : Fields) (s : State) : Host.Outcome State Fault Refusal :=
  issue 0x01E f pb0 (fun x s =>
    let pa := x.r.pr f.a.toNat
    let pb := x.r.pr f.b.toNat
    let pc := x.r.pr (f.d.toNat / 8)
    let bit (l : Nat) : Bool :=
      f.c.getLsbD (4 * (pa.getLsbD l).toNat + 2 * (pb.getLsbD l).toNat + (pc.getLsbD l).toNat)
    .go s (if x.act = 0 then [] else [.pred (f.d.toNat % 8) x.act (maskOf bit)]) 0 .fall) s

/-- PRDS (R105): all 32 bits, absent lanes reading 0. -/
def execPrds (f : Fields) (s : State) : Host.Outcome State Fault Refusal :=
  issue 0x01F f pb0 (fun x s =>
    .go s (if x.act = 0 then [] else [.scalar f.d.toNat (x.r.pr f.a.toNat &&& x.r.present)]) 0 .fall) s

/-- PWRS (R105). -/
def execPwrs (f : Fields) (s : State) : Host.Outcome State Fault Refusal :=
  issue 0x027 f pb0 (fun x s =>
    .go s (if x.act = 0 then [] else [.pred f.d.toNat x.act (x.r.sr f.a.toNat)]) 0 .fall) s

/-- The count of a shift (R106). -/
def shiftCount (b : EV) : Nat := b.nat 32 % 256

/-- SHL (R106). -/
def shlElem (m : Meta) (_ : CW) (a b : EV) : ER :=
  ER.of (if m.ty.width ≤ shiftCount b then 0 else a.nat m.ty.width * 2 ^ shiftCount b % 2 ^ m.ty.width)
/-- SHR.N (R106). -/
def shrElem (m : Meta) (_ : CW) (a b : EV) : ER :=
  ER.of (if m.ty.width ≤ shiftCount b then 0 else a.nat m.ty.width / 2 ^ shiftCount b)
/-- SHR.S (R106): copies of bit w−1 in; a count of w or more leaves them everywhere. -/
def sarElem (m : Meta) (_ : CW) (a b : EV) : ER :=
  let v := toSigned m.ty.width (a.nat m.ty.width)
  ER.of (wrapInt m.ty.width (v / (2 ^ min (shiftCount b) (m.ty.width - 1) : Int)))
/-- ROL.N32 (R106). -/
def rolElem (_ : Meta) (_ : CW) (a b : EV) : ER :=
  let n := shiftCount b % 32
  ER.of ((a.nat 32 * 2 ^ n % 2 ^ 32) + a.nat 32 / 2 ^ (32 - n))

def execShlN32 (f : Fields) (s : State) := alu2 0x020 f shlElem s
def execShrN32 (f : Fields) (s : State) := alu2 0x021 f shrElem s
def execShrS32 (f : Fields) (s : State) := alu2 0x022 f sarElem s
def execRolN32 (f : Fields) (s : State) := alu2 0x023 f rolElem s
def execShlN64 (f : Fields) (s : State) := alu2 0x024 f shlElem s
def execShrN64 (f : Fields) (s : State) := alu2 0x025 f shrElem s
def execShrS64 (f : Fields) (s : State) := alu2 0x026 f sarElem s

/-- MOV and MOV64 (R110). -/
def movElem (m : Meta) (_ : CW) (b : EV) : ER := ER.of (b.nat m.dw)

def execMov (f : Fields) (s : State) := alu1 0x028 f movElem s
def execMov64 (f : Fields) (s : State) := alu1 0x029 f movElem s
def execSel (f : Fields) (s : State) := aluSel 0x02A f s
def execSel64 (f : Fields) (s : State) := aluSel 0x02B f s

/-- LEA (R112). -/
def leaElem (m : Meta) (c : CW) (a b : EV) : ER :=
  ER.of (wrapInt m.dw (a.int * (2 ^ (c.imm.toNat % 16) : Int) + b.int))

def execLeaN32 (f : Fields) (s : State) := alu2 0x02C f leaElem s
def execLeaN64 (f : Fields) (s : State) := alu2 0x02D f leaElem s

def execImulS32 (f : Fields) (s : State) := alu2 0x040 f mulElem s
def execImulN32 (f : Fields) (s : State) := alu2 0x041 f mulElem s
def execImulhS32 (f : Fields) (s : State) := alu2 0x042 f mulhElem s
def execImulhN32 (f : Fields) (s : State) := alu2 0x043 f mulhElem s
def execImulS16 (f : Fields) (s : State) := alu2 0x044 f mulElem s
def execImulN16 (f : Fields) (s : State) := alu2 0x045 f mulElem s
def execImulS8 (f : Fields) (s : State) := alu2 0x046 f mulElem s
def execImulN8 (f : Fields) (s : State) := alu2 0x047 f mulElem s
def execImadS32 (f : Fields) (s : State) := alu3 0x048 f madElem s
def execImadN32 (f : Fields) (s : State) := alu3 0x049 f madElem s
def execImadS16 (f : Fields) (s : State) := alu3 0x04A f madElem s
def execImadN16 (f : Fields) (s : State) := alu3 0x04B f madElem s

/-- IDP (R99): the accumulator C and the products of every element position. -/
def idp (op : Nat) (f : Fields) (s : State) : Host.Outcome State Fault Refusal :=
  issue op f pb0 (fun x s =>
    match metaOf op with
    | none => .wait
    | some m =>
      match x.mapIn s m with
      | .error a => a
      | .ok (s1, extra) =>
        let a := x.srcA s m
        let b := x.srcBvec s m
        let c := x.srcC m
        let dot (l : Nat) : ER :=
          keepAs (wideTy m.ty) (f.cw m.ty).sat
            ((List.range (elemCount m f)).foldl (fun t e => t + (a.at_ l e).1.int * (b.at_ l e).1.int) (c.at_ l 0).1.int)
        x.writeD s1 m dot extra) s

def execIdpS8 (f : Fields) (s : State) := idp 0x04C f s
def execIdpN8 (f : Fields) (s : State) := idp 0x04D f s
def execIdpN4 (f : Fields) (s : State) := idp 0x04E f s
def execImulS64 (f : Fields) (s : State) := alu2 0x050 f mulElem s
def execImulN64 (f : Fields) (s : State) := alu2 0x051 f mulElem s
def execImulhS64 (f : Fields) (s : State) := alu2 0x052 f mulhElem s
def execImulhN64 (f : Fields) (s : State) := alu2 0x053 f mulhElem s

/-- The conditions of a division (R100). -/
inductive DivCond where
  | none
  | divz
  | divovf
  deriving DecidableEq, Repr

/-- Quotient, remainder and condition (R100). -/
def divRem (t : Ty) (a b : Int) : Int × Int × DivCond :=
  if b = 0 then ((2 ^ t.width : Int) - 1, a, .divz)
  else
    let q := Int.tdiv a b
    (q, a - q * b, if q < tyMin t ∨ tyMax t < q then .divovf else .none)

/-- IDIV and IREM (R100). The lowest lane of ACTIVE with an enabled condition decides the trap's cause. -/
def divide (op : Nat) (rem : Bool) (f : Fields) (s : State) : Host.Outcome State Fault Refusal :=
  issue op f pb0 (fun x s =>
    match metaOf op with
    | none => .wait
    | some m =>
      let a := x.srcA s m
      let b := x.srcB s m
      let r (l : Nat) : Int × Int × DivCond := divRem m.ty (a.at_ l 0).1.int (b.at_ l 0).1.int
      let cond (l : Nat) : DivCond := (r l).2.2
      let traps (c : DivCond) : Bool :=
        match c with
        | .none => false
        | .divz => x.set.getLsbD 12 && !x.quiet 10
        | .divovf => x.set.getLsbD 13 && !x.quiet 11
      match x.active.find? (fun l => traps (cond l)) with
      | some l =>
        let c := cond l
        let lanes := if scalarForm f then x.act else x.act &&& maskOf (fun j => cond j == c)
        .trap ⟨if c = .divz then 10 else 11, 0, lanes, 0, 0, 0⟩
      | none =>
        x.writeD s m (fun l => ⟨wrapInt m.ty.width (if rem then (r l).2.1 else (r l).1), 0, cond l != .none⟩) 0) s

def execIdivS32 (f : Fields) (s : State) := divide 0x054 false f s
def execIdivN32 (f : Fields) (s : State) := divide 0x055 false f s
def execIremS32 (f : Fields) (s : State) := divide 0x056 true f s
def execIremN32 (f : Fields) (s : State) := divide 0x057 true f s
def execIdivS64 (f : Fields) (s : State) := divide 0x058 false f s
def execIdivN64 (f : Fields) (s : State) := divide 0x059 false f s
def execIremS64 (f : Fields) (s : State) := divide 0x05A true f s
def execIremN64 (f : Fields) (s : State) := divide 0x05B true f s

/-- The number of 1 bits among the low `n` bits. -/
def popCount : Nat → Nat → Nat
  | 0, _ => 0
  | n + 1, v => v % 2 + popCount n (v / 2)

/-- POPC.N32 (R107). -/
def popcElem (_ : Meta) (_ : CW) (b : EV) : ER := ER.of (popCount 32 (b.nat 32))
/-- CLZ.N32 (R107). -/
def clzElem (_ : Meta) (_ : CW) (b : EV) : ER := ER.of (if b.nat 32 = 0 then 32 else 31 - (b.nat 32).log2)
/-- CTZ.N32 (R107). -/
def ctzElem (_ : Meta) (_ : CW) (b : EV) : ER :=
  ER.of (((List.range 32).find? (fun k => bitOf (b.nat 32) k)).getD 32)
/-- BREV.N32 (R107). -/
def brevElem (_ : Meta) (_ : CW) (b : EV) : ER :=
  ER.of ((List.range 32).foldl (fun a k => if bitOf (b.nat 32) (31 - k) then a + 2 ^ k else a) 0)

/-- The position and width of a field control value; width 0 where the field is empty (R108). -/
def fieldOf (f : Nat) : Nat × Nat :=
  let pos := f % 256
  let wid := f / 256 % 256
  (pos, if 32 ≤ pos ∨ wid = 0 then 0 else min wid (32 - pos))

/-- BFE (R108). -/
def bfeElem (m : Meta) (signed : Bool) (a b : EV) : ER :=
  let (pos, w) := fieldOf (b.nat 32)
  if w = 0 then ER.of 0
  else
    let x := a.nat 32 / 2 ^ pos % 2 ^ w
    ER.of (if signed then wrapInt m.dw (toSigned w x) else x)

/-- BFI.N32 (R109). -/
def bfiElem (_ : Meta) (_ : CW) (a b c : EV) : ER :=
  let (pos, w) := fieldOf (b.nat 32)
  let old := c.nat 32
  if w = 0 then ER.of old
  else
    ER.of (old % 2 ^ pos + a.nat 32 % 2 ^ w * 2 ^ pos + old / 2 ^ (pos + w) * 2 ^ (pos + w))

def execPopcN32 (f : Fields) (s : State) := alu1 0x060 f popcElem s
def execClzN32 (f : Fields) (s : State) := alu1 0x061 f clzElem s
def execCtzN32 (f : Fields) (s : State) := alu1 0x062 f ctzElem s
def execBrevN32 (f : Fields) (s : State) := alu1 0x063 f brevElem s
def execBfeS32 (f : Fields) (s : State) := alu2 0x064 f (fun m _ => bfeElem m true) s
def execBfeN32 (f : Fields) (s : State) := alu2 0x065 f (fun m _ => bfeElem m false) s
def execBfiN32 (f : Fields) (s : State) := alu3 0x066 f bfiElem s

end Sys2Proof.Machine
end

