-- ==== Sys2Proof/Machine/TaskDecode.lean ====
section
/-! DEFINITION. Decoding a task into the window (R246 to R264, R266): the task's words, regions (R248), logical buffers and
free lists (R249 to R252), and the meaning of each task opcode at decode. A decode happens whole, or leaves no trace. -/

namespace Sys2Proof.Machine

/-- Why a task does not decode: it waits for a free list (R252), its sequencer has read a poisoned line (R357), it raises a task
fault: class, reason, WHERE, or its kernel descriptor cannot be read, which is the fault TILL, reason KDESC (R370). -/
inductive DErr where
  | wait
  | fatal
  | fault (cls reason loc : Nat)
  | unread (va : Nat)
  deriving DecidableEq, Repr

/-- A result of decoding. -/
abbrev DRes (α : Type) := Except DErr α

/-- A decode in progress: the state, the stream with its decode map, and the window entry. -/
structure Dc where
  s : State
  t : Stream
  k : Task

/-- TILL, reason RESERVED, where a reserved bit is 1 (R246). -/
def resv (bad : Bool) (loc : Nat := 0) : DRes Unit := if bad then .error (.fault 1 2 loc) else .ok ()

/-- T0 bits from `lo` on, `w` of them, for `lo` of 8 or more (R246). -/
def t0Bits (t : TaskWord) (lo w : Nat) : Nat := (t.t0.extractLsb' (lo - 8) w).toNat

/-- The words T1 to T7 of a task. -/
def tWord (t : TaskWord) (n : Nat) : Word := [0, t.t1, t.t2, t.t3, t.t4, t.t5, t.t6, t.t7].getD n 0

/-- Word Xj of extension e, from 1; an absent extension reads 0 (R253). -/
def xWord (t : TaskWord) (e j : Nat) : Word :=
  match t.ext[e - 1]? with
  | some x => [0, x.x1, x.x2, x.x3, x.x4, x.x5, x.x6, x.x7].getD j 0
  | none => 0

/-- Whether some of the words T`lo` to T7 is nonzero. -/
def tailUsed (t : TaskWord) (lo : Nat) : Bool := (List.range (8 - lo)).any (fun i => tWord t (lo + i) != 0)

/-- A bit field of a word as a number. -/
def fld (w : Word) (lo n : Nat) : Nat := (w.extractLsb' lo n).toNat

/-- The handle of the stream's own domain. -/
def Dc.handle (d : Dc) (idx : BitVec 12) : HRef := d.s.handle d.t.did (d.s.domain d.t.did).asid idx

/-! Regions. -/

/-- The checks of R248 on an extent of a handle: TREGION where one fails; `need` are the rights asked for. -/
def Dc.region (d : Dc) (idx : BitVec 12) (off len : Nat) (rd wr : Bool) (need : BitVec 4) (loc : Nat) : DRes Region :=
  let h := (d.handle idx).ent
  if !h.v then .error (.fault 2 1 loc)
  else if !h.ok then .error (.fault 2 6 loc)
  else if h.space ≠ spGlobal ∧ h.space ≠ spHost ∧ h.space ≠ spPeer then .error (.fault 2 2 loc)
  else if need &&& h.rights != need then .error (.fault 2 3 loc)
  else if len = 0 ∨ h.len < off + len then .error (.fault 2 4 loc)
  else .ok ⟨h.space, h.base + off, len, rd, wr⟩

/-- A region descriptor: its handle index. -/
def rdIdx (d0 : Word) : BitVec 12 := d0.extractLsb' 0 12
/-- A region descriptor: its offset (R248). -/
def rdOff (d0 d1 : Word) : Nat := fld d0 14 18 * 2 ^ 32 + d1.toNat
/-- The rights that RD and WR need. -/
def rdNeed (rd wr : Bool) : BitVec 4 := (if rd then 1 else 0) ||| (if wr then 2 else 0)

/-- A region descriptor (R248): none where it is unused. -/
def Dc.descriptor (d : Dc) (d0 d1 d2 : Word) (loc : Nat) : DRes (Option Region) :=
  let rd := d0.getLsbD 12
  let wr := d0.getLsbD 13
  if !rd && !wr then (resv (d0 != 0 || d1 != 0 || d2 != 0) loc).map (fun _ => none)
  else (d.region (rdIdx d0) (rdOff d0 d1) d2.toNat rd wr (rdNeed rd wr) loc).map some

/-! Logical buffers. -/

/-- The length of a size class's buffers (R249). -/
def classSize (c : Nat) : Nat := 65536 * 16 ^ c

/-- Whether an allocated index names a buffer of its class (R249). -/
def Dc.poolOk (d : Dc) (idx : BitVec 12) (c : Nat) : Bool :=
  let h := (d.handle idx).ent
  h.v && h.ok && h.space == spGlobal && h.len == classSize c && h.rights &&& 11 == 11 && h.base % classSize c == 0

/-- The tasks of a list that are in the stream's window. -/
def Stream.inWindow (t : Stream) (l : List Nat) : List Nat := l.filter (fun i => t.window.any (fun k => k.idx == i))

/-- What the version that a task replaces gives back when the task retires (R251). -/
def releaseOf (v : Option Version) : List (Nat × BitVec 12) :=
  match v with
  | some w => if w.owned then [(w.cls, w.idx)] else []
  | none => []

/-- A version put into the decode map for the task, the old one released with it (R250, R251). -/
def Dc.bindLb (d : Dc) (lb : Nat) (v : Option Version) : Dc :=
  { d with
    t := { d.t with dmap := match v with | some w => tset d.t.dmap lb w | none => terase d.t.dmap lb }
    k := { d.k with renames := d.k.renames ++ [(lb, v)], releases := d.k.releases ++ releaseOf (tget d.t.dmap lb) } }

/-- The address of an entry of a domain's free list, a stack of 16-bit handle indices (R249). -/
def Domain.freeVa (d : Domain) (c n : Nat) : Nat := (rget 0 d.flBase c).toNat + 2 * n

/-- A buffer of a class popped from its free list (R249, R252); an index that breaks R249 stays there. DEDUCED: log entry 42. -/
def Dc.alloc (d : Dc) (c : Nat) : DRes (Dc × BitVec 12) :=
  let dom := d.s.domain d.t.did
  let n := rget 0 dom.flCnt c
  if n = 0 then
    if d.t.window.any (fun k => k.releases.any (fun r => r.1 == c)) then .error .wait else .error (.fault 4 (c + 1) c)
  else if d.s.sysPoison d.t.hub dom.asid (dom.freeVa c (n - 1)) 2 then .error .fatal
  else
    let i := leNat (d.s.sysRead d.t.hub dom.asid (dom.freeVa c (n - 1)) 2)
    let idx := BitVec.ofNat 12 i
    if 4096 ≤ i ∨ !d.poolOk idx c then .error (.fault 3 2 c)
    else
      let dom1 := { dom with flCnt := rset 0 dom.flCnt c (n - 1) }
      .ok ({ d with s := (d.s.sysTouch d.t.hub dom.asid (dom.freeVa c (n - 1)) 2 .read).setDomain d.t.did dom1, k := { d.k with allocs := d.k.allocs ++ [(c, idx)] } }, idx)

/-- Bytes of a domain's GLOBAL memory whose contents become undefined (R4): what is there now is what they are formed from. No agent
writes them. -/
def State.openRange (s : State) (did asid : BitVec 16) (va n : Nat) : State :=
  let byte (i : Nat) : Byte := match s.lookup asid (va + i) .read with
    | .ok f _ _ _ => (s.physBytes (physOf f (va + i)) 1).getD 0 0
    | _ => 0
  let (bs, s1) := s.openBytes did ((List.range n).map byte) n
  bs.zipIdx.foldl (fun (t : State) p =>
    match t.lookup asid (va + p.2) .write with
    | .ok f _ _ _ => t.writePhys none false asid (va + p.2) f [p.1]
    | _ => t) s1

/-- The modes of a logical-buffer use (R250). -/
inductive LbMode where
  | r
  | w (cls : Nat)
  | u
  deriving DecidableEq, Repr

/-- A use of a logical buffer (R250) and the handle index of the version it resolves to. A borrowed version counts as the
region of its whole entry (R268). The contents of a new version are undefined until they are written (R250, R4).
DEDUCED: log entry 42. DESIGN CHOICE: log entry 52. -/
def Dc.useLb (d : Dc) (lb : Nat) (m : LbMode) (loc : Nat) : DRes (Dc × BitVec 12) :=
  match m with
  | .w c => do
    let (d1, idx) ← d.alloc c
    let h := (d1.handle idx).ent
    let d2 := { d1 with s := d1.s.openRange d1.t.did (d1.handle idx).asid h.base h.len }
    pure (d2.bindLb lb (some ⟨idx, true, c, d.k.idx, []⟩), idx)
  | _ =>
    match tget d.t.dmap lb with
    | none => .error (.fault 3 1 loc)
    | some v =>
      let upd := m == .u
      let deps := d.t.inWindow (v.producer :: (if upd then v.readers else []))
      let v1 := { v with readers := v.readers ++ [d.k.idx], producer := if upd then d.k.idx else v.producer }
      let h := (d.handle v.idx).ent
      let region : List Region := if v.owned then [] else [⟨h.space, h.base, h.len, true, upd⟩]
      .ok ({ d with
        t := { d.t with dmap := tset d.t.dmap lb v1 }
        k := { d.k with
          deps := d.k.deps ++ deps
          regions := d.k.regions ++ region
          renames := d.k.renames ++ [(lb, some v1)] } }, v.idx)

/-! Bind slots. -/

/-- KIND of a bind slot (R253). -/
def bsKind (b : Word) : Nat := fld b 4 3
/-- HREG of a bind slot. -/
def bsHreg (b : Word) : Nat := fld b 0 4
/-- LB of a bind slot. -/
def bsLb (b : Word) : Nat := fld b 8 8
/-- REG of a bind slot. -/
def bsReg (b : Word) : Nat := fld b 16 2
/-- CLASS of a bind slot. -/
def bsClass (b : Word) : Nat := fld b 18 2

/-- The bind slots of a task, with their numbers. -/
def bindSlots (t : TaskWord) : List (Word × Nat) := [t.t4, t.t5, t.t6, t.t7].zipIdx

/-- The reserved bits of a bind slot (R253). -/
def bsReserved (b : Word) : Bool :=
  let k := bsKind b
  if k = 0 then b != 0
  else b.getLsbD 7 || fld b 20 12 != 0 || (k < 5 && ((k < 2 && bsLb b != 0) || (k != 1 && bsReg b != 0) || (k != 3 && bsClass b != 0)))

/-- The reserved bits of the bind slots. -/
def checkSlots (l : List (Word × Nat)) : DRes Unit :=
  match l.find? (fun b => bsReserved b.1) with
  | some b => .error (.fault 1 2 b.2)
  | none => .ok ()

/-- The errors of class TILL, reason BIND (R253). -/
def checkBinds (l : List (Word × Nat)) (regs : List (Option Region)) : DRes Unit :=
  match l.find? (fun b => bsKind b.1 != 0 && (decide (5 ≤ bsKind b.1) ||
      (bsKind b.1 == 1 && (regs.getD (bsReg b.1) none).isNone) ||
      l.any (fun c => c.2 < b.2 && bsKind c.1 != 0 && bsHreg c.1 == bsHreg b.1))) with
  | some b => .error (.fault 1 5 b.2)
  | none => .ok ()

/-- The uses of the bind slots in slot order (R250), each with the handle index its register receives. -/
def Dc.bind (t : TaskWord) : List (Word × Nat) → Dc → DRes Dc
  | [], d => .ok d
  | (b, i) :: rest, d =>
    let put (e : Dc) (idx : BitVec 12) : Dc := { e with k := { e.k with handles := tset e.k.handles (bsHreg b) idx } }
    match bsKind b with
    | 1 =>
      let r := bsReg b
      let d0 := xWord t (2 + r / 2) (1 + 3 * (r % 2))
      Dc.bind t rest (put d (rdIdx d0))
    | 2 => do let (e, idx) ← d.useLb (bsLb b) .r i; Dc.bind t rest (put e idx)
    | 3 => do let (e, idx) ← d.useLb (bsLb b) (.w (bsClass b)) i; Dc.bind t rest (put e idx)
    | 4 => do let (e, idx) ← d.useLb (bsLb b) .u i; Dc.bind t rest (put e idx)
    | _ => Dc.bind t rest d

/-! Launches. -/

/-- Whether a hub die can read `n` bytes of GLOBAL memory under an ASID (R338). -/
def State.sysOk (s : State) (hub : Nat) (asid : BitVec 16) (va n : Nat) : Bool :=
  (s.hubRefused hub asid va n).isEmpty && (List.range n).all (fun i => match s.lookup asid (va + i) .read with | .ok .. => true | _ => false)

/-- Whether a hub die can write `n` bytes of GLOBAL memory under an ASID (R338). -/
def State.sysWritable (s : State) (hub : Nat) (asid : BitVec 16) (va n : Nat) : Bool :=
  (s.hubRefused hub asid va n).isEmpty && (List.range n).all (fun i => match s.lookup asid (va + i) .write with | .ok .. => true | _ => false)

/-- The kernel descriptor at a VA (R254, R370). The fault of a VA that is no multiple of 64 is open: TILL, reason KDESC, or RESERVED as
for low bits that are reserved (R260). DESIGN CHOICE: log entry 29. -/
def State.kernel (s : State) (hub : Nat) (asid : BitVec 16) (va : Nat) (pro : Bool) : DRes (BitVec 512) :=
  if va % 64 ≠ 0 then .error (.fault 1 (if Config.freeChoice s.free % 2 = 0 then 2 else 4) 0)
  else if s.sysPoison hub asid va 64 then .error .fatal
  else if !s.sysOk hub asid va 64 then .error (.unread va)
  else
    let d := BitVec.ofNat 512 (leNat (s.sysRead hub asid va 64))
    if kdOk d pro then .ok d else .error (.fault 1 4 0)

/-- The irrevocability of a launch (R254). DEDUCED: log entry 42. -/
def Dc.launchIrrev (d : Dc) (regs : List (Option Region)) (binds : List (Word × Nat)) : Bool :=
  regs.any (fun r => match r with | some x => x.wr | none => false) || binds.any (fun b => bsKind b.1 == 4) ||
    (List.range 16).any (fun n =>
      let idx := rget 0 d.k.handles n
      let h := (d.handle idx).ent
      h.v && (h.space == spCtrl || (h.rights &&& 10 != 0 && h.space != spScratch && !d.k.allocs.any (fun a => a.2 == idx))))

/-- The region of a descriptor among extensions 2 and 3 (R253). -/
def Dc.launchRegion (d : Dc) (t : TaskWord) (r : Nat) : DRes (Option Region) :=
  let x (j : Nat) : Word := xWord t (2 + r / 2) (3 * (r % 2) + j)
  d.descriptor (x 1) (x 2) (x 3) r

/-- TRUN and TRUNP at decode (R253, R254): the fault is that of the first check that fails, of reserved bits, slots, regions, bindings,
buffer uses and the kernel descriptor. DESIGN CHOICE: log entry 58. -/
def Dc.launch (pro : Bool) (t : TaskWord) (d : Dc) : DRes Dc := do
  resv (t0Bits t 11 20 != 0 || xWord t 2 7 != 0 || xWord t 3 7 != 0)
  checkSlots (bindSlots t)
  let r0 ← d.launchRegion t 0
  let r1 ← d.launchRegion t 1
  let r2 ← d.launchRegion t 2
  let r3 ← d.launchRegion t 3
  let regs := [r0, r1, r2, r3]
  checkBinds (bindSlots t) regs
  let d1 ← Dc.bind t (bindSlots t) { d with k := { d.k with regions := d.k.regions ++ regs.filterMap id } }
  let asid := (d.s.domain d.t.did).asid
  match d1.s.kernel d.t.hub asid (t.t2 ++ t.t1).toNat pro with
  | .error e => .error e
  | .ok kd =>
    let handles : Tbl (BitVec 12) := (List.range 16).map (fun n => (n, (tget d1.k.handles n).getD (kdHandle kd n)))
    let args : Tbl Word := (List.range 7).map (fun n => (n, xWord t 1 (n + 1)))
    let d2 := { d1 with
      s := d1.s.sysTouch d.t.hub asid (t.t2 ++ t.t1).toNat 64 .read
      k := { d1.k with kdesc := kd, handles := handles, args := args, wgcount := t.t3.toNat } }
    pure { d2 with k := { d2.k with irrev := d2.launchIrrev regs (bindSlots t) } }

/-! Copies. -/

/-- The shape record of a TCOPY or TFILL (R257). -/
def taskShape (t : TaskWord) : Shape :=
  ⟨t.t1, t.t2, t.t3, t.t4, t.t5, t.t6, t.t7, xWord t 1 1, xWord t 1 2, xWord t 1 3, xWord t 1 4, xWord t 1 5⟩

/-- The shape as a copy engine runs it: W2 names handle register 0, W3 handle register 1. -/
def engineShape (t : TaskWord) : Shape := { taskShape t with w2 := 0, w3 := 1 }

/-- The smallest extent that holds every byte of a list of accesses of one size (R257). -/
def extent (base size : Nat) (offs : List Int) : Option (Nat × Nat) :=
  match offs with
  | [] => none
  | o :: r =>
    let lo := (r.foldl min o + base).toNat
    let hi := (r.foldl max o + base).toNat + size
    some (lo, hi - lo)

/-- The region of a raw operand of a copy, where its shape is well formed and touches a byte. DEDUCED: log entry 30. -/
def Dc.rawRegion (d : Dc) (t : TaskWord) (fill src : Bool) (idx : BitVec 12) : List Region :=
  match moveOf fill (shapeWords (engineShape t)) with
  | none => []
  | some m =>
    let h := (d.handle idx).ent
    let acc : List (Nat × Nat) := if src then (extent h.base m.esize m.srcOffs).toList
      else (extent h.base (max 1 (m.dbits / 8)) m.dstOffs).toList ++ (extent h.base 1 m.sclOffs).toList
    match acc with
    | [] => []
    | a :: r =>
      let lo := r.foldl (fun x e => min x e.1) a.1
      let hi := r.foldl (fun x e => max x (e.1 + e.2)) (a.1 + a.2)
      [⟨h.space, lo, hi - lo, src, !src⟩]

/-- Whether an operand word of a TCOPY or TFILL keeps to R257. -/
def operandReserved (w : Word) (src : Bool) : Bool :=
  fld w 16 16 != 0 || (w.getLsbD 13 && (src || !w.getLsbD 12)) || (!w.getLsbD 13 && fld w 14 2 != 0) ||
    (w.getLsbD 12 && fld w 8 4 != 0)

/-- An operand of a TCOPY or TFILL (R257): a use of a logical buffer, or a raw handle with its region. DEDUCED: log entry 30. -/
def Dc.operand (t : TaskWord) (fill src : Bool) (w : Word) (d : Dc) : DRes (Dc × BitVec 12) :=
  if w.getLsbD 12 then
    d.useLb (fld w 0 8) (if src then .r else if w.getLsbD 13 then .w (fld w 14 2) else .u) 0
  else
    let idx : BitVec 12 := w.extractLsb' 0 12
    .ok ({ d with k := { d.k with
      regions := d.k.regions ++ d.rawRegion t fill src idx, irrev := d.k.irrev || !src } }, idx)

/-- TCOPY and TFILL at decode (R257): W2 of a TFILL, which R212 has zero, is reserved. DESIGN CHOICE: log entry 58. -/
def Dc.copyTask (fill : Bool) (t : TaskWord) (d : Dc) : DRes Dc := do
  resv (t0Bits t 10 21 != 0 || xWord t 1 7 != 0 || (!fill && xWord t 1 6 != 0) || (fill && t.t3 != 0) ||
    operandReserved t.t3 true || operandReserved t.t4 false)
  let (d1, src) ← if fill then .ok (d, 0) else Dc.operand t fill true t.t3 d
  let (d2, dst) ← Dc.operand t fill false t.t4 d1
  pure { d2 with k := { d2.k with src := src, dst := dst } }

/-! The meaning of a task word: what its decode puts into the window. -/

/-- A window entry as it enters the window. -/
def Task.fresh (idx n top : Nat) (w : TaskWord) : Task :=
  { idx := idx, n := n, top := top, w := w, state := .decoded, deps := [], regions := [], irrev := false, allocs := []
    releases := [], renames := [], handles := [], kdesc := 0, decodeNs := 0, issueNs := 0, pollNs := 0, wgcount := 0, run := 0, args := [], proV := []
    verdict := 0, mapints := 0, retried := false, halted := none, prio := 0, copies := 0, src := 0, dst := 0 }

/-- Whether every window entry older than an index is complete. -/
def Stream.olderDone (t : Stream) (idx : Nat) : Bool := t.window.all (fun k => decide (idx ≤ k.idx) || k.state == .complete)

/-- A TSIG whose older tasks are all complete notes the moment, ETIME + 1 in `pollNs` (R260). -/
def Stream.stamp (t : Stream) (now : Nat) : Stream :=
  { t with window := t.window.map (fun k =>
      if k.top = 8 ∧ k.pollNs = 0 ∧ t.olderDone k.idx then { k with pollNs := now + 1 } else k) }

/-- A task fault raised by a decode (R270): the stream keeps the number of its words and its TOP, for F need not be in the
window. -/
def State.decodeFault (s : State) (key idx n top : Nat) (cls reason loc : Nat) : State :=
  let s1 := s.onStream key (fun t => { t with faultN := n, faultTop := top, got := [] })
  { s1 with
    faults := s1.faults ++ [⟨key, idx, ⟨BitVec.ofNat 8 cls, BitVec.ofNat 8 reason, BitVec.ofNat 8 loc, 0⟩, 0xFFFFFFFF, none, s.etime⟩]
    turn := .choose }

/-- A fatal error of a stream's partition, for its sequencer has read a poisoned line (R357). DEDUCED: log entry 25. -/
def State.fatal (s : State) (t : Stream) : State := s.fatalFor (s.domain t.did).part

/-- A task's meaning at the decode index of the current stream (R266): the entry joins the window whole, decoding waits, or a
task fault is raised. -/
def taskOp (top : Nat) (body : TaskWord → Dc → DRes Dc) (w : TaskWord) (s : State) : Host.Outcome State Fault Refusal :=
  match tget s.streams s.curStream with
  | none => .fault .noStream
  | some t =>
    let n := 1 + w.ext.length
    match body w ⟨s, t, { Task.fresh t.decode n top w with decodeNs := s.etime }⟩ with
    | .ok d =>
      let t1 := { d.t with
        window := d.t.window ++ [d.k], decode := t.decode + n, state := .running, got := [], ended := d.t.ended || top == 15 }
      .next { d.s.setStream s.curStream (t1.stamp s.etime) with turn := .choose }
    | .error .wait => .next s
    | .error .fatal => .next { s.fatal t with turn := .choose }
    | .error (.unread va) =>
      .next { (s.sysTouch t.hub (s.domain t.did).asid va 64 .read).decodeFault s.curStream t.decode n top 1 4 0 with free := s.free + 1 }
    | .error (.fault c r l) => .next { s.decodeFault s.curStream t.decode n top c r l with free := s.free + 1 }

/-- TNOP (R265): the words that no table lists are reserved. DESIGN CHOICE: log entry 58. -/
def execTnop (w : TaskWord) (s : State) : Host.Outcome State Fault Refusal :=
  taskOp 0x00 (fun t d => do resv (t0Bits t 10 21 != 0 || tailUsed t 1); pure d) w s

/-- TRUN (R253, R254). -/
def execTrun (w : TaskWord) (s : State) : Host.Outcome State Fault Refusal := taskOp 0x01 (Dc.launch false) w s

/-- TRUNP (R253, R254, R256). -/
def execTrunp (w : TaskWord) (s : State) : Host.Outcome State Fault Refusal := taskOp 0x02 (Dc.launch true) w s

/-- TCOPY (R257). -/
def execTcopy (w : TaskWord) (s : State) : Host.Outcome State Fault Refusal := taskOp 0x03 (Dc.copyTask false) w s

/-- TFILL (R257). -/
def execTfill (w : TaskWord) (s : State) : Host.Outcome State Fault Refusal := taskOp 0x04 (Dc.copyTask true) w s

/-- TBIND (R258): a borrowed version of a whole handle entry. -/
def execTbind (w : TaskWord) (s : State) : Host.Outcome State Fault Refusal :=
  taskOp 0x05 (fun t d => do
    let rd := t.t1.getLsbD 12
    let wr := t.t1.getLsbD 13
    resv (t0Bits t 18 13 != 0 || tailUsed t 2 || (!rd && !wr) || fld t.t1 14 18 != 0)
    let idx := rdIdx t.t1
    let r ← d.region idx 0 (d.handle idx).ent.len rd wr (rdNeed rd wr) 0
    pure ({ d with k := { d.k with regions := [r] } }.bindLb (t0Bits t 10 8) (some ⟨idx, false, 0, d.k.idx, []⟩))) w s

/-- TEXPORT (R259): a read of a version and a raw region that it writes. -/
def execTexport (w : TaskWord) (s : State) : Host.Outcome State Fault Refusal :=
  taskOp 0x06 (fun t d => do
    resv (t0Bits t 18 13 != 0 || tailUsed t 5 || t.t2.getLsbD 12 || !t.t2.getLsbD 13)
    let r ← d.region (rdIdx t.t2) (rdOff t.t2 t.t3) t.t4.toNat false true 2 0
    let (d1, src) ← d.useLb (t0Bits t 10 8) .r 0
    if (d1.handle src).ent.len < t.t1.toNat + t.t4.toNat then .error (.fault 2 4 0)
    else pure { d1 with k := { d1.k with regions := d1.k.regions ++ [r], irrev := true, src := src, dst := rdIdx t.t2 } }) w s

/-- TFREE (R258): the logical buffer becomes UNBOUND. -/
def execTfree (w : TaskWord) (s : State) : Host.Outcome State Fault Refusal :=
  taskOp 0x07 (fun t d => do
    resv (t0Bits t 18 13 != 0 || tailUsed t 1)
    pure (d.bindLb (t0Bits t 10 8) none)) w s

/-- OFF of a signal word (R260, R261). -/
def sigOff (t : TaskWord) : Nat := fld t.t3 0 18 * 2 ^ 32 + t.t2.toNat

/-- TSIG (R260): the word, and with REC the record, are regions that the task writes; right A is asked of the word alone.
DESIGN CHOICE: log entry 58. -/
def execTsig (w : TaskWord) (s : State) : Host.Outcome State Fault Refusal :=
  taskOp 0x08 (fun t d => do
    let rec_ := t0Bits t 12 1 == 1
    resv (decide (2 ≤ t0Bits t 10 2) || t0Bits t 13 18 != 0 || fld t.t1 12 20 != 0 || fld t.t3 18 14 != 0 || sigOff t % 8 != 0 ||
      fld t.t6 12 20 != 0 || (rec_ && t.t7.toNat % 32 != 0) || (!rec_ && (t.t6 != 0 || t.t7 != 0)))
    let r ← d.region (rdIdx t.t1) (sigOff t) 8 false true 10 0
    let rs ← if rec_ then (d.region (rdIdx t.t6) t.t7.toNat 32 false true 2 1).map (fun x => [x]) else .ok []
    pure { d with k := { d.k with regions := r :: rs, irrev := true } }) w s

/-- TWAIT (R261): the word is a region that the task reads. -/
def execTwait (w : TaskWord) (s : State) : Host.Outcome State Fault Refusal :=
  taskOp 0x09 (fun t d => do
    resv (decide (6 ≤ t0Bits t 10 3) || t0Bits t 14 17 != 0 || fld t.t1 12 20 != 0 || fld t.t3 18 14 != 0 || sigOff t % 8 != 0 ||
      t.t7 != 0)
    let r ← d.region (rdIdx t.t1) (sigOff t) 8 true false 1 0
    pure { d with k := { d.k with regions := [r] } }) w s

/-- TFENCE (R263): the words that no table lists are reserved. DESIGN CHOICE: log entry 58. -/
def execTfence (w : TaskWord) (s : State) : Host.Outcome State Fault Refusal :=
  taskOp 0x0A (fun t d => do
    resv (t0Bits t 13 18 != 0 || tailUsed t 1)
    if t0Bits t 10 3 < 2 ∨ 4 < t0Bits t 10 3 then .error (.fault 1 6 0) else pure d) w s

/-- TINVAL (R263, R308): the words that no table lists are reserved. DESIGN CHOICE: log entry 58. -/
def execTinval (w : TaskWord) (s : State) : Host.Outcome State Fault Refusal :=
  taskOp 0x0B (fun t d => do
    resv (t0Bits t 11 20 != 0 || tailUsed t 4 || (t0Bits t 10 1 == 1 && (t.t1 != 0 || t.t2 != 0 || t.t3 != 0)))
    pure { d with k := { d.k with irrev := true } }) w s

/-- TGATE (R264). DEDUCED: log entry 22. -/
def execTgate (w : TaskWord) (s : State) : Host.Outcome State Fault Refusal :=
  taskOp 0x0C (fun t d => do
    resv (t0Bits t 12 19 != 0 || fld t.t1 16 16 != 0 || fld t.t2 12 20 != 0 || fld t.t3 12 20 != 0 || fld t.t4 4 28 != 0 ||
      (t0Bits t 10 1 == 0 && t.t4 != 0) || tailUsed t 5)
    pure { d with k := { d.k with irrev := true } }) w s

/-- TEND (R265): decoding stops behind it; the words that no table lists are reserved. DESIGN CHOICE: log entry 58. -/
def execTend (w : TaskWord) (s : State) : Host.Outcome State Fault Refusal :=
  taskOp 0x0F (fun t d => do resv (t0Bits t 10 21 != 0 || tailUsed t 1); pure d) w s

end Sys2Proof.Machine
end

