-- ==== Sys2Proof/Machine/Streams.lean ====
section
/-! DEFINITION. The steps of the task sequencers and of the stream scheduler: kicks (R242), decoding (R240, R266), issue (R267),
prologues (R256), signals and waits (R260 to R262), completion and retirement (R255, R269), task faults and recovery (R270 to
R274), mapping (R314 to R316). -/

namespace Sys2Proof.Machine

/-! Streams and their window. -/

/-- A window entry by its task index. -/
def Stream.task (t : Stream) (idx : Nat) : Option Task := t.window.find? (fun k => k.idx == idx)

/-- A stream with a window entry changed. -/
def Stream.onTask (t : Stream) (idx : Nat) (f : Task → Task) : Stream :=
  { t with window := t.window.map (fun k => if k.idx = idx then f k else k) }

/-- The state with a window entry changed. -/
def State.onTask (s : State) (key idx : Nat) (f : Task → Task) : State := s.onStream key (fun t => t.onTask idx f)

/-- A task becomes COMPLETE. -/
def State.complete (s : State) (key idx : Nat) : State :=
  s.onStream key (fun t => (t.onTask idx (fun k => { k with state := .complete })).stamp s.etime)

/-- A task fault raised against a task (R270). -/
def State.taskFault (s : State) (key idx cls reason loc : Nat) : State :=
  { s with faults := s.faults ++
      [⟨key, idx, ⟨BitVec.ofNat 8 cls, BitVec.ofNat 8 reason, BitVec.ofNat 8 loc, 0⟩, 0xFFFFFFFF, none, s.etime⟩] }

/-- Whether a fault of a task has been raised and not yet taken. -/
def State.faulting (s : State) (key idx : Nat) : Bool := s.faults.any (fun q => q.stream == key && q.task == idx)

/-- The workgroups of a task. -/
def State.taskWgs (s : State) (key idx : Nat) : Tbl Workgroup := s.wgs.filter (fun (_, w) => w.stream == key && w.task == idx)

/-- The copy contexts of a task's own command (R257, R259). -/
def State.taskCtxs (s : State) (key idx : Nat) : Tbl CopyCtx := s.ctxs.filter (fun (_, c) => c.task == some (key, idx))

/-! Kicks. -/

/-- A kick at the sequencer (R242): the stream's MAXTAIL, and the WAITVs on it. -/
def State.kicked (s : State) (key v : Nat) : State := (s.kick key v).wake spCtrl (place key 0) 20

/-- KICK (R242). -/
def execKick (key : Nat) (v : DWord) (s : State) : Host.Outcome State Fault Refusal := done (s.kicked key v.toNat)

/-! Decoding. -/

/-- N of a stream (R239). -/
def Stream.ringN (t : Stream) : Nat := 2 ^ t.log2n

/-- The address of ring entry k (R239). -/
def Stream.entryVa (t : Stream) (k : Nat) : Nat := t.ring.toNat + 32 * (k % t.ringN)

/-- Ring entry k as memory holds it (R239). -/
def State.entry (s : State) (t : Stream) (k : Nat) : BitVec 256 :=
  BitVec.ofNat 256 (leNat (s.sysRead t.hub (s.domain t.did).asid (t.entryVa k) 32))

/-- PH of entry k where it has been written (R240). -/
def Stream.phase (t : Stream) (k : Nat) : Bool := k / t.ringN % 2 == 0

/-- Unit i of the entries at the decode index, in aligned 8-byte units, in memory (R243). -/
def State.memUnit (s : State) (t : Stream) (i : Nat) : DWord :=
  BitVec.ofNat 64 (leNat (s.sysRead t.hub (s.domain t.did).asid (t.entryVa (t.decode + i / 4) + 8 * (i % 4)) 8))

/-- Unit i of the entries at the decode index as it is decoded: as it was read, if it has been (R243). -/
def State.unitAt (s : State) (t : Stream) (i : Nat) : DWord := (tget t.got i).getD (s.memUnit t i)

/-- Entry i behind the decode index as it is decoded (R243). -/
def State.entryAt (s : State) (t : Stream) (i : Nat) : BitVec 256 :=
  BitVec.ofNat 256 ((s.unitAt t (4 * i)).toNat + 2 ^ 64 * (s.unitAt t (4 * i + 1)).toNat + 2 ^ 128 * (s.unitAt t (4 * i + 2)).toNat +
    2 ^ 192 * (s.unitAt t (4 * i + 3)).toNat)

/-- EXT of the task at the decode index (R246). -/
def State.extAt (s : State) (t : Stream) : Nat := ((entryWord (s.entryAt t 0) 0).extractLsb' 8 2).toNat

/-- Whether an entry is covered and lies in the ring (R242, R266). -/
def Stream.covers (t : Stream) (k : Nat) : Bool := decide (k < t.tail) && decide (k < t.head + t.ringN)

/-- Whether entry i behind the decode index can be decoded: covered, translated, its phase matching, in the unit that has been read if it
has (R240, R242, R243, R266). -/
def State.entryReady (s : State) (t : Stream) (i : Nat) : Bool :=
  t.covers (t.decode + i) && s.sysOk t.hub (s.domain t.did).asid (t.entryVa (t.decode + i)) 32 &&
    (s.unitAt t (4 * i)).getLsbD 31 == t.phase (t.decode + i)

/-- Whether a stream's sequencer looks at the entry at its decode index (R266). -/
def State.looks (s : State) (t : Stream) (key : Nat) : Bool :=
  t.valid && t.mapped && (t.state == .idle || t.state == .running) && !t.ended && decide (t.window.length < 64) &&
    s.faults.all (fun q => q.stream != key) && t.covers t.decode

/-- Whether the task at the decode index can be decoded (R266). -/
def State.decodable (s : State) (t : Stream) (key : Nat) : Bool :=
  s.looks t key && (List.range (1 + s.extAt t)).all (s.entryReady t)

/-- The stream after a read of some of the units of its next task that have not been read, which a free choice names; each is read
once (R243). -/
def State.readUnits (s : State) (t : Stream) : Stream :=
  { t with got := (List.range (4 * (1 + s.extAt t))).foldl (fun m i =>
      if (tget m i).isSome || Config.freeChoice (s.free + i) % 2 == 1 then m else tset m i (s.memUnit t i)) t.got }

/-- DECODE_RECHECK (R240, R243): the sequencer looks at the entry at the decode index; units of its task are read, where it can be
decoded; once all have been, it is decoded next. DESIGN CHOICE: log entry 53. -/
def execDecodeRecheck (key : Nat) (s : State) : Host.Outcome State Fault Refusal :=
  match tget s.streams key with
  | none => done s
  | some t =>
    let asid := (s.domain t.did).asid
    if !s.looks t key then done s
    else if (List.range (1 + s.extAt t)).any (fun i => s.sysPoison t.hub asid (t.entryVa (t.decode + i)) 32) then done (s.fatal t)
    else
      let s0 := (List.range (1 + s.extAt t)).foldl (fun (u : State) i => u.sysTouch t.hub asid (t.entryVa (t.decode + i)) 32 .read) s
      if !s.decodable t key then done s0
      else
        let t1 := s.readUnits t
        let s1 := { s0.setStream key t1 with free := s.free + 16 }
        if (List.range (4 * (1 + s.extAt t1))).all (fun i => (tget t1.got i).isSome) then .next { s1 with turn := .stream, curStream := key }
        else done s1

/-! Issue. -/

/-- Whether two regions overlap with one of them written (R268). -/
def Region.clash (a b : Region) : Bool :=
  a.space == b.space && decide (a.base < b.base + b.len) && decide (b.base < a.base + a.len) && (a.wr || b.wr)

/-- Whether an older task holds a task back that does not depend on it (R267). -/
def Task.blocks (o k : Task) : Bool :=
  o.state != .complete &&
    (k.irrev || k.top == 8 || o.top == 9 || o.top == 10 || o.top == 11 || o.regions.any (fun a => k.regions.any (fun b => a.clash b)))

/-- The issue conditions of R267. -/
def Stream.canIssue (t : Stream) (k : Task) : Bool :=
  t.mapped && k.state == .decoded && !(t.state == .faulted && decide (t.faultIdx ≤ k.idx)) &&
    k.deps.all (fun i => match t.task i with | some d => d.state == .complete | none => true) &&
    t.window.all (fun o => decide (k.idx ≤ o.idx) || !o.blocks k)

/-- A workgroup of a task, unplaced (R24, R254, R319, R320). -/
def State.newWg (s : State) (key : Nat) (t : Stream) (k : Task) (wgid : Nat) : Workgroup :=
  { did := t.did, asid := (s.domain t.did).asid, dslot := 0, core := 0, stream := key, task := k.idx, wgid := wgid
    wgcount := k.wgcount, strands := kdStrands k.kdesc, regs := kdRegs k.kdesc, maps := kdMaps k.kdesc
    scratchSize := kdScratch k.kdesc, kdesc := k.kdesc, idem := kdIdem k.kdesc, port := kdPort k.kdesc
    pin := t0Bits k.w 10 1 == 1, priv := if t.did = 0 then .system else .task, state := .unplaced, ropes := [], scratch := []
    marks := [], pinned := [], barriers := [], sems := [], slotMap := [], args := k.args.filter (fun e => e.1 < 7), handles := k.handles
    prio := if k.state = .decoded then t.eff else k.prio, taskNs := k.decodeNs, again := false
    since := s.etime, saveAt := 0, saveFor := 0, marked := [], slotImg := [], pro := none }

/-- A kernel of a Choarnif section has been launched: the section's translation begins (R376). -/
def Image.launched (i : Image) (did : BitVec 16) (kdesc : BitVec 512) : Image :=
  if kdPort kdesc && i.did == did && i.inPort (kdEntry kdesc).toNat then { i with ported := true } else i

/-- A grid's workgroups wait for placement (R255, R319). -/
def State.addGrid (s : State) (key : Nat) (t : Stream) (k : Task) : State :=
  let s1 := { s with images := s.images.map (fun (n, i) => (n, i.launched t.did k.kdesc)) }
  (List.range k.wgcount).foldl (fun (u : State) i =>
    { u.setWg u.nextId (u.newWg key t k i) with nextId := u.nextId + 1 }) s1

/-- The key of the core that stands for a sequencer's prologue run (R256). -/
def proCore (key : Nat) : Nat := 4096 + key

/-- The registers of a prologue at the start of a run (R256): scalars by number, predicates from 64 on. -/
def Task.proArgs (k : Task) : Tbl Word :=
  let t0 := if k.run = 0 then rset 0 (rset 0 k.args 8 (BitVec.ofNat 32 k.wgcount)) 9 0 else k.args
  rset 0 t0 10 (BitVec.ofNat 32 k.run)

/-- A prologue run begins (R256): a one-lane rope at level TASK. DEDUCED: log entry 43. -/
def State.startPro (s : State) (key : Nat) (t : Stream) (k : Task) : State :=
  let id := s.nextId
  let w0 := s.newWg key t k 0
  let args := k.proArgs
  let rope : Rope :=
    { wg := id, ropeId := 0, quad := 0, did := t.did, dslot := 0, asid := w0.asid, priv := .task, regs := w0.regs, maps := 0
      codeh := 0, trapH := 0
      strands := [⟨0, true, kdPro k.kdesc, 1, [], 0, 0, 0, false, 14, false, 0, false, 0⟩]
      v := k.proV, s := args.filter (fun e => e.1 < 64 && e.2 != 0)
      p := (args.filter (fun e => 64 ≤ e.1 && e.2 != 0)).map (fun e => (e.1 - 64, e.2)), h := k.handles.filter (fun e => e.2 != 0)
      k := [], ldc := 0, stc := 0, cpc := 0, copies := [], inflight := [], outst := [], stores := [], trap := none, lastTrap := TrapRec.none, held := []
      suppress := [], frame := none, classMix := [0, 0, 0, 0], sched := [], bars := [], fence := ⟨0, 0, [], []⟩, cand := none
      monitors := [], prio := w0.prio, port := false, onNative := true, portWait := 0, forced := false }
  let w := { w0 with core := proCore key, state := .resident, ropes := [id + 1], pro := some 0, priv := .task }
  let s1 := s.passesOn (.stream key) (.rope (id + 1))
  { ((s1.setWg id w).setRope (id + 1) rope).setCore (proCore key) s.freshCore with nextId := id + 2 }

/-- A copy context of a task's own command (R257, R259). -/
def State.startCopy (s : State) (key : Nat) (t : Stream) (k : Task) (cmd : Option CpCmd) (own : Option (Nat × Word × Shape)) : State :=
  let id := s.nextId
  let c : CopyCtx :=
    { id := id, core := 0, wg := id, rope := id, did := t.did, dslot := 0, start := 0, pc := 0, e := []
      h := [(0, k.src), (1, k.dst)], codeh := 0, inFrame := false, entry := 0, callerDid := t.did, cmd := cmd
      task := some (key, k.idx), own := own, pages := [] }
  { s with ctxs := tset s.ctxs id c, nextId := id + 1 }

/-- Where a signal task's access through a handle goes: at the homes, through its hub die's requester, by its stream's sequencer; the
word is a release or an acquire, the record no more than a write (R260, R261). -/
def HRef.taskTarget (h : HRef) (t : Stream) (key num : Nat) (word : Bool) : Target :=
  ⟨h.ent.space, h.did, h.asid, 0, 0, h.ent.peer, none, .hub t.hub, h.ent.key, if word then 0 else 2, h.ent.policy, 0, some (.stream key), num⟩

/-- Bytes written at a reachable place, in ascending order; `rmw` where they are what a read-modify-write makes of the old ones. -/
def State.putBytes (s : State) (t : Target) (addr : Nat) (bs : List Byte) (rmw : Bool) : State :=
  (bs.zipIdx.foldl (fun (u : State) p => u.poke t (addr + p.2) p.1) s).poked t ((List.range bs.length).map (fun i => addr + i)) rmw

/-- Whether a signal task's place in GLOBAL space is not to be reached yet (R260, R338): it waits. -/
def State.sigWaits (s : State) (t : Target) (kind : AccKind) (addr n : Nat) : Bool :=
  t.space == spGlobal && (List.range n).any (fun i => (s.reach t kind (addr + i) 1).isSome)

/-- What an access that waits so leaves behind (R338, R357). -/
def State.sigFails (s : State) (t : Target) (kind : AccKind) (addr n : Nat) : State :=
  if s.sigWaits t kind addr n then s.failed t addr kind else s

/-- An access of a signal task: whether the link takes it (R262, R313); a place in GLOBAL space needs no link. -/
def State.sigTakes (s : State) (t : Target) (addr n : Nat) : Bool × State :=
  if t.space = spGlobal then (true, s) else s.linkTakes t addr n

/-- The completion record of a TSIG (R260). -/
def sigRecord (t : Stream) (k : Task) (now value : Nat) : List Byte :=
  leBytes 8 k.idx ++ leBytes 8 (if k.pollNs = 0 then now else k.pollNs - 1) ++ leBytes 8 value ++ leBytes 4 t.num.toNat ++ leBytes 4 0

/-- The record of a TSIG, if it has one (R260, R262): whether it could be written, and the state after it. -/
def State.sigRecorded (s : State) (key : Nat) (t : Stream) (k : Task) (tr : Target) (value : Nat) (rec_ : List Region) : Bool × State :=
  match rec_ with
  | [] => (true, s)
  | q :: _ =>
    match s.sigTakes tr q.base 32 with
    | (true, s1) => (true, s1.putBytes tr q.base (sigRecord t k s.etime value) false)
    | (false, s1) => (false, s1.taskFault key k.idx 2 5 1)

/-- The word of a TSIG written, a release at scope SYS (R260), unless the link refuses it (R262). -/
def State.sigWord (s : State) (key : Nat) (k : Task) (tw : Target) (base new : Nat) (add : Bool) : State :=
  match s.sigTakes tw base 8 with
  | (true, s1) => (s1.putBytes tw base (leBytes 8 new) add).complete key k.idx
  | (false, s1) => s1.taskFault key k.idx 2 5 0

/-- Whether a TSIG waits for a place in GLOBAL space (R260). DEDUCED: log entry 24. -/
def State.signalWaits (s : State) (key : Nat) (t : Stream) (k : Task) : Bool :=
  let asid := (s.domain t.did).asid
  let tw := (s.handle t.did asid (rdIdx k.w.t1)).taskTarget t key s.nextId true
  let tr := (s.handle t.did asid (rdIdx k.w.t6)).taskTarget t key s.nextId false
  match k.regions with
  | [] => false
  | r :: rest => s.sigWaits tw .write r.base 8 || (match rest with | q :: _ => s.sigWaits tr .write q.base 32 | [] => false)

/-- TSIG once it has issued (R260, R262): the record, then the word; it goes on waiting while a GLOBAL place is not translated. -/
def State.signal (s : State) (key : Nat) (t : Stream) (k : Task) : State :=
  let asid := (s.domain t.did).asid
  let tw := (s.handle t.did asid (rdIdx k.w.t1)).taskTarget t key s.nextId true
  let tr := (s.handle t.did asid (rdIdx k.w.t6)).taskTarget t key s.nextId false
  let add := t0Bits k.w 10 2 == 1
  match k.regions with
  | [] => s
  | r :: rest =>
    if s.signalWaits key t k then
      let s1 := s.sigFails tw .write r.base 8
      match rest with | q :: _ => s1.sigFails tr .write q.base 32 | [] => s1
    else if add && tw.space == spGlobal && s.sysPoison t.hub tw.asid r.base 8 then s.fatal t
    else
      let v := (k.w.t5 ++ k.w.t4).toNat
      let new := if add then (leNat (s.peek tw r.base 8) + v) % 2 ^ 64 else v
      match s.sigRecorded key t k tr new rest with
      | (true, s1) => s1.sigWord key k tw r.base new add
      | (false, s1) => s1

/-- A handle entry of CTRL space that reaches a stream whole, with rights R, W and A (R241, R264). -/
def ctrlEntry (t : Stream) : BitVec 256 :=
  BitVec.ofNat 256 (t.num.toNat + (4096 + 32 * t.ringN) * 2 ^ 64 + (1 + 2 * spCtrl + 64 * 11) * 2 ^ 128)

/-- A TGATE request as the policies see it (R264): SRC, KIND, REVOKE, RIGHTS and TGT, packed from bit 0 on. -/
def gateRequest (w : TaskWord) : Nat := fld w.t2 0 12 + 2 ^ 12 * t0Bits w 10 2 + 2 ^ 14 * fld w.t4 0 4 + 2 ^ 18 * fld w.t3 0 12

/-- TGATE (R264): the target's handle entry delegated, or withdrawn where this domain has delegated it; none where the request is
refused. DEDUCED: log entry 22. -/
def State.delegate (s : State) (t : Stream) (w : TaskWord) : Option State :=
  let tdid : BitVec 16 := w.t1.extractLsb' 0 16
  let src : BitVec 12 := w.t2.extractLsb' 0 12
  let tgt : Nat := fld w.t3 0 12
  let d := s.domain tdid
  let put (e : BitVec 256) (own : Option (BitVec 16)) : State :=
    s.setDomain tdid { d with
      handles := rset 0 d.handles tgt e, given := tset d.given tgt t.did
      ctrlOwner := match own with | some o => tset d.ctrlOwner tgt o | none => terase d.ctrlOwner tgt }
  if !d.valid || !Config.policyAdmits t.did tdid (gateRequest w) then none
  else if t0Bits w 11 1 = 1 then
    some (if tget d.given tgt = some t.did then
      s.setDomain tdid { d with
        handles := rset 0 d.handles tgt 0, given := terase d.given tgt, ctrlOwner := terase d.ctrlOwner tgt }
    else s)
  else if t0Bits w 10 1 = 0 then
    match tget s.streams (streamKey t.did src.toNat) with
    | some st => if st.valid then some (put (ctrlEntry st) (some t.did)) else none
    | none => none
  else
    let h := s.handle t.did (s.domain t.did).asid src
    if !h.ent.v then none
    else
      let e := h.raw &&& ~~~(((~~~(w.t4.extractLsb' 0 4)).setWidth 256) <<< 134)
      some (put e (tget (s.domain t.did).ctrlOwner src.toNat |>.orElse fun _ => if h.ent.space = spCtrl then some t.did else none))

/-- TINVAL (R263, R308): the translations that the MTLBs hold of a range, or of the whole ASID, its lines at every level and the owners
of its frames are gone; dirty and update-only copies are written back. -/
def State.inval (s : State) (asid : BitVec 16) (w : TaskWord) : State :=
  let all := t0Bits w 10 1 == 1
  let va := (w.t2 ++ w.t1).toNat
  let len := w.t3.toNat
  let hits (lo n : Nat) : Bool := all || (decide (0 < len) && decide (lo < va + len) && decide (va < lo + n))
  let s1 := (s.l2.filter (fun l => l.asid == asid && hits (128 * l.line) 128)).foldl State.evictLine s
  { s1 with
    tlb := s1.tlb.filter (fun e => !(e.asid == asid && hits (65536 * e.page) 65536))
    code := s1.code.filter (fun l => !(l.asid == asid && hits (128 * l.line) 128))
    owners := s1.owners.filter (fun (_, o) => !(o.1 == asid && hits (65536 * o.2) 65536)) }

/-- The state with a task ISSUED (R266, R320). -/
def State.markIssued (s : State) (key idx : Nat) (prio : Nat) : State :=
  s.onTask key idx (fun k => { k with state := .issued, issueNs := s.etime, prio := prio })

/-- What a task does when it issues (R253 to R265). DEDUCED: log entry 24. -/
def State.issueTask (s : State) (key : Nat) (t : Stream) (k : Task) : State :=
  let s1 := s.markIssued key k.idx t.eff
  match k.top with
  | 0x01 | 0x02 =>
    if k.top = 1 ∧ k.wgcount = 0 then s1.complete key k.idx
    else
      match s1.placeTest (s1.newWg key t k 0) with
      | some r => s1.taskFault key k.idx 11 r 0
      | none => if k.top = 1 then s1.addGrid key t k else s1.startPro key t k
  | 0x03 => s1.startCopy key t k none (some (1, 0, engineShape k.w))
  | 0x04 => s1.startCopy key t k none (some (2, xWord k.w 1 6, engineShape k.w))
  | 0x06 => s1.startCopy key t k (some ⟨0, 1, k.w.t1.toNat, rdOff k.w.t2 k.w.t3, false, k.w.t4.toNat, 0xFFFFFFFF⟩) none
  | 0x08 => s1.signal key t k
  | 0x09 | 0x0A => s1
  | 0x0B => (s1.inval (s.domain t.did).asid k.w).complete key k.idx
  | 0x0C =>
    match s1.delegate t k.w with
    | some s2 => s2.complete key k.idx
    | none => s1.taskFault key k.idx 9 1 0
  | _ => s1.complete key k.idx

/-- Whether a task is an ISSUED TSIG that waits for a place of its (R260). -/
def State.signals (s : State) (key : Nat) (k : Task) : Bool := k.top == 8 && k.state == .issued && !s.faulting key k.idx

/-- TASK_ISSUE (R267); an ISSUED TSIG that waits for a translation tries again (R260). DEDUCED: log entry 24. -/
def execTaskIssue (key idx : Nat) (s : State) : Host.Outcome State Fault Refusal :=
  match tget s.streams key with
  | none => done s
  | some t =>
    match t.task idx with
    | none => done s
    | some k => if t.canIssue k then done (s.issueTask key t k) else if s.signals key k then done (s.signal key t k) else done s

/-! Prologues. -/

/-- The workgroup of a prologue run is gone, with the core that stood for it. -/
def State.dropPro (s : State) (wg : Nat) (w : Workgroup) : State :=
  let s1 := s.killWg wg
  { s1 with cores := terase s1.cores w.core }

/-- The verdict of a prologue run that has ended (R256): its registers are kept for a further run. DEDUCED: log entry 43. -/
def State.verdict (s : State) (wg : Nat) : State :=
  match tget s.wgs wg with
  | none => s
  | some w =>
    match w.ropes.head?.bind (tget s.ropes), tget s.streams w.stream with
    | some r0, some t =>
      let r := r0.landAll
      let args : Tbl Word := r.s ++ r.p.map (fun e => (64 + e.1, e.2))
      let v := r.sr 9
      let s1 := (s.dropPro wg w).onTask w.stream w.task (fun k =>
        { k with args := args, proV := r.v, verdict := v, wgcount := (r.sr 8).toNat })
      if 3 ≤ v.toNat then s1.taskFault w.stream w.task 7 3 0
      else if v = 1 then s1
      else
        match t.task w.task with
        | none => s1
        | some k =>
          -- the cores, masks or arrays may have changed since the task issued (R318)
          let k1 := { k with args := args, wgcount := (r.sr 8).toNat }
          match s1.placeTest (s1.newWg w.stream t k1 0) with
          | some x => s1.taskFault w.stream w.task 11 x 0
          | none => s1.addGrid w.stream t k1
    | _, _ => s

/-- Whether every workgroup of a task has ended, or will be retried with the task as a whole (R335), with the self-tests of its arrays
passed (R255). -/
def State.gridDone (s : State) (key idx : Nat) : Bool :=
  (s.taskWgs key idx).all (fun (k, w) =>
    (w.state == .ended || (w.state == .unplaced && w.again && s.hasMapint w)) && s.arrays.all (fun (_, a) => !a.users.contains k))

/-- Whether stores or atomics of workgroups or frames that have ended are still to be performed for tasks that `p` selects (R227,
R255, R270, R332). -/
def State.owes (s : State) (key : Nat) (p : Nat → Bool) : Bool := s.log.any (fun e => e.orphan && e.stream == key && p e.task)

/-- The ended workgroups of a task leave the state. -/
def State.clearGrid (s : State) (key idx : Nat) : State := (s.taskWgs key idx).foldl (fun (u : State) (k, _) => u.killWg k) s

/-- PROLOGUE_REPEAT (R256): the grid of a run with verdict REPEAT is complete, and the prologue runs again; a MAPINT recorded
against the task waits for its end (R274). -/
def execPrologueRepeat (key idx : Nat) (s : State) : Host.Outcome State Fault Refusal :=
  match tget s.streams key with
  | none => done s
  | some t =>
    match t.task idx with
    | none => done s
    | some k =>
      if k.top ≠ 2 ∨ k.state ≠ .issued ∨ k.verdict ≠ 2 ∨ s.faulting key idx ∨ !s.gridDone key idx then done s
      else if 65535 ≤ k.run then done ((s.clearGrid key idx).taskFault key idx 7 2 0)
      else
        let k1 := { k with run := k.run + 1, verdict := 0 }
        done (((s.clearGrid key idx).onTask key idx (fun _ => k1)).startPro key t k1)

/-! Completion and retirement. -/

/-- Whether an ISSUED task has done everything that its completion asks for (R255, R257, R263), but for MAPINTs. -/
def State.finished (s : State) (key : Nat) (t : Stream) (k : Task) : Bool :=
  k.state == .issued && !s.faulting key k.idx && !s.owes key (fun i => i == k.idx) &&
    (match k.top with
     | 0x01 => s.gridDone key k.idx
     | 0x02 => s.gridDone key k.idx && k.verdict != 2
     | 0x03 | 0x04 | 0x06 => (s.taskCtxs key k.idx).isEmpty
     | 0x0A => t.olderDone k.idx
     | _ => false)

/-- TASK_COMPLETE (R255, R257, R263): a HALT's code goes to the Herey controller (R227). -/
def execTaskComplete (key idx : Nat) (s : State) : Host.Outcome State Fault Refusal :=
  match tget s.streams key with
  | none => done s
  | some t =>
    match t.task idx with
    | none => done s
    | some k =>
      if !s.finished key t k ∨ k.mapints ≠ 0 then done s
      else
        let s1 := (s.clearGrid key idx).complete key idx
        match k.halted with
        | some code => done { s1 with replies := s1.replies ++ [.halt key idx code] }
        | none => done s1

/-- A buffer given back to its free list (R249): a full list hands it to the Herey controller. -/
def State.pushFree (s : State) (hub : Nat) (did : BitVec 16) (r : Nat × BitVec 12) : State :=
  let d := s.domain did
  let n := rget 0 d.flCnt r.1
  if rget 0 d.flCap r.1 ≤ n then { s with replies := s.replies ++ [.buffer did r.2] }
  else (s.setDomain did { d with flCnt := rset 0 d.flCnt r.1 (n + 1) }).sysWrite hub d.asid (d.freeVa r.1 n) (leBytes 2 r.2.toNat)

/-- Buffers given back in order. -/
def State.pushAll (s : State) (hub : Nat) (did : BitVec 16) (l : List (Nat × BitVec 12)) : State :=
  l.foldl (fun (u : State) r => u.pushFree hub did r) s

/-- A version map with renames applied (R251). -/
def applyRenames (m : Tbl Version) (l : List (Nat × Option Version)) : Tbl Version :=
  l.foldl (fun m r => match r.2 with | some v => tset m r.1 v | none => terase m r.1) m

/-- TASK_RETIRE (R269): HEAD, the retired map, the releases; a TEND that is the last decoded makes the stream IDLE (R265). -/
def execTaskRetire (key : Nat) (s : State) : Host.Outcome State Fault Refusal :=
  match tget s.streams key with
  | none => done s
  | some t =>
    match t.window with
    | [] => done s
    | k :: rest =>
      if k.state ≠ .complete ∨ !t.mapped then done s
      else
        let t1 := { t with
          window := rest
          head := match rest with | j :: _ => j.idx | [] => t.decode
          rmap := applyRenames t.rmap k.renames
          state := if k.top = 15 ∧ rest.isEmpty ∧ t.decode = k.idx + k.n ∧ t.state = .running then .idle else t.state }
        done (((s.setStream key t1).pushAll t.hub t.did k.releases).wakeCtrl key)

/-! Waits. -/

/-- The comparison of a TWAIT (R261). DEDUCED: log entry 24. -/
def twaitHolds (w : TaskWord) (v : Nat) : Bool :=
  let c := (w.t5 ++ w.t4).toNat
  let sgn := t0Bits w 13 1 == 1
  let lt := if sgn then decide (toSigned 64 v < toSigned 64 c) else decide (v < c)
  match t0Bits w 10 3 with
  | 0 => v == c
  | 1 => v != c
  | 2 => lt
  | 3 => lt || v == c
  | 4 => !(lt || v == c)
  | _ => !lt

/-- The read of a TWAIT that completes it is an acquire at scope SYS (R261). -/
def State.acquired (s : State) (t : Target) (addr : Nat) : State :=
  match s.find t addr .read with
  | .ok f _ _ _ => s.reads t f addr 8
  | _ => s.reads t 0 addr 8

/-- One read of a TWAIT's word (R261, R262): it completes where the condition holds, and raises LINK where the link refuses. -/
def State.twaitRead (s : State) (key : Nat) (t : Stream) (k : Task) : State :=
  match k.regions with
  | [] => s
  | r :: _ =>
    let tw := (s.handle t.did (s.domain t.did).asid (rdIdx k.w.t1)).taskTarget t key s.nextId true
    let s1 := s.onTask key k.idx (fun q => { q with pollNs := s.etime })
    if s1.sigWaits tw .read r.base 8 then s1.failed tw r.base .read
    else
      match s1.sigTakes tw r.base 8 with
      | (false, s2) => s2.taskFault key k.idx 2 5 0
      | (true, s2) =>
        if tw.space = spGlobal ∧ s2.sysPoison t.hub tw.asid r.base 8 then s2.fatal t
        else
          let s3 := s2.touch tw [r.base]
          if twaitHolds k.w (leNat (s2.peek tw r.base 8)) then (s3.acquired tw r.base).complete key k.idx else s3

/-- A step of an ISSUED TWAIT. -/
def twaitStep (key idx : Nat) (f : Stream → Task → State) (s : State) : Host.Outcome State Fault Refusal :=
  match tget s.streams key with
  | none => done s
  | some t =>
    match t.task idx with
    | none => done s
    | some k => if k.top = 9 ∧ k.state = .issued ∧ !s.faulting key idx then done (f t k) else done s

/-- TWAIT_SATISFIED (R261): a write to the word has woken the sequencer, which reads it. -/
def execTwaitSatisfied (key idx : Nat) (s : State) : Host.Outcome State Fault Refusal := twaitStep key idx (s.twaitRead key) s

/-- TWAIT_POLL (R261, R262): the sequencer reads the word again, within 1 µs. -/
def execTwaitPoll (key idx : Nat) (s : State) : Host.Outcome State Fault Refusal := twaitStep key idx (s.twaitRead key) s

/-- TWAIT_LIMIT (R261). -/
def execTwaitLimit (key idx : Nat) (s : State) : Host.Outcome State Fault Refusal :=
  twaitStep key idx (fun _ k =>
    if k.w.t6 ≠ 0 ∧ k.issueNs + 1000 * k.w.t6.toNat ≤ s.etime then s.taskFault key idx 8 1 0 else s) s

/-- TASK_BUDGET_EXPIRY (R321): an ISSUED task has taken longer than the stream's budget. -/
def execTaskBudgetExpiry (key idx : Nat) (s : State) : Host.Outcome State Fault Refusal :=
  match tget s.streams key with
  | none => done s
  | some t =>
    match t.task idx with
    | none => done s
    | some k =>
      if k.state = .issued ∧ t.mbudget ≠ 0 ∧ k.issueNs + 1000 * t.mbudget.toNat < s.etime ∧ !s.faulting key idx then
        done (s.taskFault key idx 8 2 0)
      else done s

/-! Task faults. -/

/-- A copy context of a discarded task halts (R270): the chunks of a command that has not run hold their old bytes or all their
new ones. -/
def State.haltCtx (s : State) (id : Nat) (c : CopyCtx) : State := let u := s.haltMove c; { u with ctxs := terase u.ctxs id }

/-- Whatever runs for the tasks of a stream from an index on ends (R270). -/
def State.haltFrom (s : State) (key idx : Nat) (hi : Option Nat) : State :=
  let sel (i : Nat) : Bool := decide (idx ≤ i) && (match hi with | some h => decide (i ≤ h) | none => true)
  let s1 := (s.wgs.filter (fun (_, w) => w.stream == key && sel w.task)).foldl (fun (u : State) (k, w) =>
    if w.pro.isSome then u.dropPro k w else u.killWg k) s
  (s1.ctxs.filter (fun (_, c) => match c.task with | some (k, i) => k == key && sel i | none => false)).foldl
    (fun (u : State) (id, c) => u.haltCtx id c) s1

/-- The task fault record F0 to F31 (R271). -/
def faultRecord (q : FaultReq) (top : Nat) (part retried : Bool) : List Word :=
  let w64 (n : Nat) : List Word := [BitVec.ofNat 32 n, BitVec.ofNat 32 (n / 2 ^ 32)]
  [BitVec.ofNat 32 (q.fault.cls.toNat + 256 * q.fault.reason.toNat + (if part then 2 ^ 16 else 0) +
      (if q.trap.isSome then 2 ^ 17 else 0) + (if retried then 2 ^ 18 else 0)),
    BitVec.ofNat 32 (top + 256 * q.fault.loc.toNat)] ++ w64 q.task ++ w64 q.ns ++ [BitVec.ofNat 32 q.wgid, q.fault.info] ++
    (match q.trap with | some t => (List.range 16).map t.word | none => List.replicate 16 0) ++ List.replicate 8 0

/-- The record goes to the stream's fault record address, or to the Herey controller; then the signal word rises by 1, a
read-modify-write that is a release at scope SYS (R273); reading it poisoned is fatal (R357). -/
def State.recordFault (s : State) (t : Stream) (ws : List Word) (key : Nat) : State :=
  let asid := (s.domain t.did).asid
  let s1 := if t.mfhrec = 0 then { s with replies := s.replies ++ [.record key ws] }
    else s.sysStore t.hub asid t.mfhrec.toNat (ws.flatMap (fun w => leBytes 4 w.toNat))
      (fun u p => u.publishes (.stream key) u.nextId p none false)
  if t.mfhsig = 0 then s1
  else if s1.sysPoison t.hub asid t.mfhsig.toNat 8 then s1.fatal t
  else s1.sysStore t.hub asid t.mfhsig.toNat (leBytes 8 (leNat (s1.sysRead t.hub asid t.mfhsig.toNat 8) + 1))
    (fun u p => u.publishes (.stream key) u.nextId p (some 4) true)

/-- The faults of a stream at or behind an index are no longer awaited. -/
def State.dropFaults (s : State) (key idx : Nat) : State :=
  { s with faults := s.faults.filter (fun q => !(q.stream == key && decide (idx ≤ q.task))) }

/-- Discarding F and every younger task (R270), once what ran for them has ended: their buffers return, the decode map is the retired
map with the renames of the older tasks, and the record is written; a FCTL action that was held takes effect (R273). The buffers of the
oldest task return first, in the order in which it took them. DESIGN CHOICE: log entry 58. -/
def State.discard (s : State) (key : Nat) (t : Stream) (q : FaultReq) : State :=
  let f := t.task q.task
  let young := t.window.filter (fun k => decide (q.task ≤ k.idx))
  let old := t.window.filter (fun k => decide (k.idx < q.task))
  let top := match f with | some k => k.top | none => t.faultTop
  let part := match f with | some k => k.irrev && k.state != .decoded | none => false
  let retried := match f with | some k => k.retried | none => false
  let t1 := { t with
    got := [], window := old, decode := q.task, head := if old.isEmpty then q.task else t.head, recorded := true
    dmap := old.foldl (fun m k => applyRenames m k.renames) t.rmap
    faultN := match f with | some k => k.n | none => t.faultN }
  let s2 := (s.setStream key t1).pushAll t.hub t.did (young.flatMap Task.allocs)
  let s3 := ((s2.dropFaults key q.task).recordFault t (faultRecord q top part retried) key).wakeCtrl key
  match t1.heldCtl, tget s3.streams key with
  | some v, some t3 => s3.fctl key { t3 with heldCtl := none } v
  | _, _ => s3

/-- Whether a fault names a task of a stream: in the window, or the one at the decode index. -/
def Stream.names (t : Stream) (idx : Nat) : Bool := (t.task idx).isSome || t.decode == idx

/-- TASK_FAULT (R270): the stream becomes FAULTED at the oldest task that faults; once every older task has retired, or while
the stream is not mapped (R315), what runs for F and the younger tasks ends; once the stores and atomics that they have issued are
performed, F and the younger tasks are discarded and the record is written. -/
def execTaskFault (key idx : Nat) (f : TaskFault) (s : State) : Host.Outcome State Fault Refusal :=
  match tget s.streams key with
  | none => done { s with faults := s.faults.filter (fun q => q.stream != key) }
  | some t =>
    if !t.names idx || (t.state == .faulted && decide (t.faultIdx < idx)) || (t.state == .faulted && t.recorded && t.faultIdx == idx)
    then done { s with faults := s.faults.filter (fun q => !(q.stream == key && q.task == idx)) }
    else
      let q := (s.faults.find? (fun q => q.stream == key && q.task == idx)).getD ⟨key, idx, f, 0xFFFFFFFF, none, s.etime⟩
      let t1 := { t with state := .faulted, faultIdx := idx, recorded := if t.state = .faulted ∧ t.faultIdx = idx then t.recorded else false }
      let s1 := { (s.setStream key t1) with
        faults := q :: s.faults.filter (fun p => !(p.stream == key && decide (idx ≤ p.task))) }
      if t.mapped && t.window.any (fun k => decide (k.idx < idx)) then done (s1.wakeCtrl key)
      else
        let s2 := s1.haltFrom key idx none
        if s2.owes key (fun i => decide (idx ≤ i)) then done (s2.wakeCtrl key)
        else done (s2.discard key ((tget s2.streams key).getD t1) q)

/-- FCTL (R273), by system software. -/
def execFctl (key : Nat) (v : Word) (s : State) : Host.Outcome State Fault Refusal :=
  match tget s.streams key with
  | none => done s
  | some t => done (s.fctl key t v)

/-- MAPINT_RETRY (R274): a task with a MAPINT that would become COMPLETE is issued once more, tested for placement again (R318), or
raises MAPINT. -/
def execMapintRetry (key idx : Nat) (s : State) : Host.Outcome State Fault Refusal :=
  match tget s.streams key with
  | none => done s
  | some t =>
    match t.task idx with
    | none => done s
    | some k =>
      if k.mapints = 0 ∨ !s.finished key t k then done s
      else if k.retried then done (s.taskFault key idx 6 1 0)
      else if k.irrev ∧ !kdIdem k.kdesc then done (s.taskFault key idx 6 2 0)
      else
        let s1 := s.haltFrom key idx (some idx)
        let wg0 := k.w.t3.toNat
        let args : Tbl Word := (List.range 7).map (fun n => (n, xWord k.w 1 (n + 1)))
        let k1 := { k with
          mapints := 0, retried := true, halted := none, run := 0, verdict := 0, wgcount := wg0, args := args, proV := [] }
        let s2 := s1.onTask key idx (fun _ => k1)
        match s2.placeTest (s2.newWg key t k1 0) with
        | some r => done (s2.taskFault key idx 11 r 0)
        | none => done (if k.top = 2 then s2.startPro key t k1 else s2.addGrid key t k1)

/-! Mapping. -/

/-- The partition register of a stream slot (R337). -/
def State.slotPart (s : State) (hub slot : Nat) : Option Nat := partOf (s.reg (.hubSlot (16 * hub + slot)))

/-- Whether a stream can be mapped at all (R244): no reserved field of its SCB is set, and its fields are in range. -/
def State.mappable (s : State) (t : Stream) : Bool :=
  t.valid && !t.resvd && decide (6 ≤ t.log2n) && decide (t.log2n ≤ 16) && decide (t.prio ≤ 11) && decide (t.pcap ≤ 11) && t.slotMask != 0 &&
    (List.range 16).all (fun j => !t.slotMask.getLsbD j || s.slotPart t.hub j == some (s.domain t.did).part)

/-- The stream on a slot of a hub die. -/
def State.onSlot (s : State) (hub slot : Nat) : Option (Nat × Stream) :=
  s.streams.find? (fun (_, t) => t.mapped && t.hub == hub && t.slot == slot)

/-- The slots that a stream may take: free ones, then those whose stream does not run (R314). -/
def State.easySlot (s : State) (t : Stream) : Option Nat :=
  let l := (List.range 16).filter (fun j => t.slotMask.getLsbD j)
  match l.find? (fun j => (s.onSlot t.hub j).isNone) with
  | some j => some j
  | none => l.find? (fun j => match s.onSlot t.hub j with | some (_, m) => m.state != .running | none => false)

/-- The better victim of two RUNNING streams (R314): lower effective priority, mapped earlier, lower slot. -/
def victimLe (a b : Stream) : Bool :=
  decide (a.eff < b.eff) || (a.eff == b.eff && (decide (a.mappedAt < b.mappedAt) || (a.mappedAt == b.mappedAt && decide (a.slot ≤ b.slot))))

/-- The slot whose stream a pending stream displaces (R314). -/
def State.victimSlot (s : State) (t : Stream) : Option Nat :=
  let l := (s.streams.filter (fun (_, m) => m.mapped && m.hub == t.hub && t.slotMask.getLsbD m.slot && m.state == .running)).map Prod.snd
  match l with
  | [] => none
  | m :: ms =>
    let v := ms.foldl (fun a b => if victimLe a b then a else b) m
    if v.eff < t.eff ∧ v.mappedAt + 1000000 ≤ s.etime then some v.slot else none

/-- Whether a pending stream comes before another (R314). -/
def pendingLe (a b : Stream) : Bool := decide (b.eff < a.eff) || (a.eff == b.eff && decide (a.since ≤ b.since))

/-- Whether a stream is the first of its hub die's pending streams that can be mapped (R314). -/
def State.firstPending (s : State) (key : Nat) (t : Stream) : Bool :=
  t.pending && s.mappable t && s.streams.all (fun (k, o) =>
    k == key || !o.pending || o.hub != t.hub || !s.mappable o || (pendingLe t o && (!pendingLe o t || decide (key < k))))

/-- Bytes whose contents the manual leaves open, written for a stream's domain by its hub die. -/
def State.writeOpen (s : State) (t : Stream) (va : DWord) (n : Nat) : State :=
  let asid := (s.domain t.did).asid
  let (bs, s1) := s.openBytes t.did (s.sysRead t.hub asid va.toNat n) n
  s1.sysWrite t.hub asid va.toNat bs

/-- A stream unmapped (R315): its window and maps stand as the saved ones, and the save area and the logical-buffer map, whose layout
is the sequencers' own, are written; a displaced stream is pending from PRIO (R316). DESIGN CHOICE: log entry 53. -/
def State.unmap (s : State) (key : Nat) (displaced : Bool) : State :=
  match tget s.streams key with
  | none => s
  | some t =>
    let t1 := { t with mapped := false, slot := 0 }
    let t2 := if displaced then { t1 with pending := true, since := s.etime, eff := s.prioOf t } else t1
    ((s.setStream key t2).writeOpen t t.save 8192).writeOpen t t.lbmap 2048

/-- A stream mapped into a slot (R245, R315): what the DCB gives is read now. -/
def State.mapTo (s : State) (key slot : Nat) : State :=
  s.onStream key (fun t =>
    let d := s.domain t.did
    { t with
      mapped := true, slot := slot, pending := false, mappedAt := s.etime, mprio := s.prioOf t, mcap := s.pcapOf t
      mbudget := if t.budOv then t.budget else d.budget
      mfhrec := if t.fhOv then t.fhrec else d.fhrec
      mfhsig := if t.fhOv then t.fhsig else d.fhsig
      state := if t.state = .idle ∧ t.decode < t.tail ∧ !t.ended then .running else t.state })

/-- A partition in which something has been started since its last reset (R339). -/
def State.enliven (s : State) (p : Nat) : State := if s.live.contains p then s else { s with live := p :: s.live }

/-- A pending stream takes a slot from the stream on it, if there is one (R314, R315). -/
def State.takeSlot (s : State) (key : Nat) (t : Stream) (j : Nat) (displaced : Bool) : State :=
  let s1 := match s.onSlot t.hub j with | some (k, _) => s.unmap k displaced | none => s
  ((s1.mapTo key j).wakeCtrl key).enliven (s.domain t.did).part

/-- STREAM_MAP (R314); a stream that cannot be mapped is reported (R244). -/
def execStreamMap (key : Nat) (s : State) : Host.Outcome State Fault Refusal :=
  match tget s.streams key with
  | none => done s
  | some t =>
    if t.pending && !s.mappable t then
      done { s.setStream key { t with pending := false } with replies := s.replies ++ [.unmappable key] }
    else if !s.firstPending key t then done s
    else
      match s.easySlot t, s.victimSlot t with
      | some j, _ => done (s.takeSlot key t j false)
      | none, some j => done (s.takeSlot key t j true)
      | none, none => done s

/-- STREAM_PRIORITY_AGING (R316). -/
def execStreamPriorityAging (key : Nat) (s : State) : Host.Outcome State Fault Refusal :=
  match tget s.streams key with
  | none => done s
  | some t =>
    let top := max (s.prioOf t) (s.pcapOf t)
    if t.pending ∧ t.eff < top ∧ t.eff < s.prioOf t + (s.etime - t.since) / 1000000 then
      done (s.setStream key { t with eff := t.eff + 1 })
    else done s

/-- STREAM_STOP (R314): system software halts the stream's decoding. DEDUCED: log entry 31. -/
def execStreamStop (key : Nat) (s : State) : Host.Outcome State Fault Refusal :=
  done ((s.onStream key (fun t => if t.state = .faulted then t else { t with state := .stopped })).wakeCtrl key)

end Sys2Proof.Machine
end

