-- ==== Sys2Proof/Machine/Package.lean ====
section
/-! DEFINITION. The steps of the package outside streams and cores: tables (R175, R229), stage 2 and frames (R309 to R312),
calendars (R326, R327), partitions and resets (R337 to R339, R360, R361), attestation and keys (R341 to R346), the host
(R291, R347, R348), the Ethernet ports (R350 to R353), errors and power (R356 to R362). -/

namespace Sys2Proof.Machine

/-! Handle and gate tables. -/

/-- HANDLE_UPDATE (R175): an entry replaced whole; what a delegation put there is gone (R264). -/
def execHandleUpdate (did : BitVec 16) (idx : BitVec 12) (e : BitVec 256) (s : State) : Host.Outcome State Fault Refusal :=
  let d := s.domain did
  done (s.setDomain did { d with handles := rset 0 d.handles idx.toNat e, ctrlOwner := terase d.ctrlOwner idx.toNat, given := terase d.given idx.toNat })

/-- GATE_TABLE_UPDATE (R229): the domain's policy is to be measured again (R344). -/
def execGateTableUpdate (did : BitVec 16) (g : BitVec 8) (e : BitVec 512) (s : State) : Host.Outcome State Fault Refusal :=
  let d := s.domain did
  let s1 := s.setDomain did { d with gates := rset 0 d.gates g.toNat e }
  done { s1 with stale := s1.stale ++ [did] }

/-! Frames and stage 2. -/

/-- A frame marked unscrubbed (R311): what it held reads as zeros from now on. -/
def State.unscrub (s : State) (frame : Nat) : State :=
  { s with mem := dropRange s.mem (65536 * frame) 65536, scrubbed := s.scrubbed.filter (fun f => f != frame) }

/-- A frame leaves the pages that reached it (R309 steps 2 to 4): its lines, owner and poison are gone. -/
def State.freeFrame (s : State) (frame : Nat) : State :=
  { s with
    l2 := s.l2.filter (fun l => l.frame != frame)
    owners := terase s.owners frame
    poison := s.poison.filter (fun p => p / 512 != frame) }

/-- A stage-2 entry removed with the translations through it, and its frame released (R309). -/
def State.release (s : State) (page : Nat) : State :=
  match tget s.stage2 page with
  | none => s
  | some e =>
    let s1 := { s with stage2 := terase s.stage2 page, tlb := s.tlb.filter (fun t => t.ipa != page) }
    (s1.freeFrame e.frame).unscrub e.frame

/-- A key slot that is EMPTY (R341). -/
def KeySlot.empty : KeySlot := ⟨.empty, 0, 0, 0, 0⟩

/-- A key-table slot. -/
def State.keySlot (s : State) (k : Nat) : KeySlot := (tget s.keys k).getD KeySlot.empty

/-- Whether a key index may stand in a stage-2 entry (R341): VALID, and its owner the frame's domain: that of the pair that owns the
frame, and of the entry whose contents move there. DEDUCED: log entry 32. -/
def State.keyUsable (s : State) (k frame : Nat) (moved : Option S2Entry) : Bool :=
  let q := s.keySlot k
  q.state == .valid &&
    (match tget s.owners frame with | some o => s.didOfAsid o.1 == q.did | none => true) &&
    (match moved with | some o => (s.keySlot o.key.toNat).did == q.did | none => true)

/-- The bytes of a frame copied to another. -/
def copyFrame (m : Tbl Byte) (src dst : Nat) : Tbl Byte :=
  (m.filter (fun c => c.1 / 65536 == src)).foldl (fun t c => wrByte t (65536 * dst + c.1 % 65536) c.2) (dropRange m (65536 * dst) 65536)

/-- The lines backed by a frame are written back: their partial values are combined (R297, R309). -/
def State.flushFrame (s : State) (frame : Nat) : State := (s.l2.filter (fun l => l.frame == frame)).foldl State.evictLine s

/-- STAGE2_CHANGE (R309): the old entry goes with the translations through it; its frame's lines are written back where its contents
move, else discarded, and the frame is unscrubbed; the new entry is written. An entry with W and X at once, or with a key that may not
stand there, is not written (R304, R341). DEDUCED: log entry 32. -/
def execStage2Change (page : Nat) (e : Option S2Entry) (move : Bool) (s : State) : Host.Outcome State Fault Refusal :=
  let old := tget s.stage2 page
  let bad := match e with | some n => (n.w && n.x) || !s.keyUsable n.key.toNat n.frame (if move then old else none) | none => false
  if bad then done s
  else
    let s1 :=
      match old, e, move with
      | some o, some n, true =>
        let u := { s.flushFrame o.frame with stage2 := terase s.stage2 page, tlb := s.tlb.filter (fun t => t.ipa != page) }.freeFrame o.frame
        if n.frame = o.frame then u else ({ u with mem := copyFrame u.mem o.frame n.frame } : State).unscrub o.frame
      | _, _, _ => s.release page
    match e with
    | some n => done { s1 with stage2 := tset s1.stage2 page n }
    | none => done s1

/-- SCRUB_COMPLETE (R311): the frame's unscrubbed bit clears. -/
def execScrubComplete (frame : Nat) (s : State) : Host.Outcome State Fault Refusal :=
  done (if s.scrubbed.contains frame then s else { s with scrubbed := s.scrubbed ++ [frame] })

/-- The lines, code, translations, owners and root of an ASID are gone (R312). -/
def State.sweep (s : State) (asid : BitVec 16) : State :=
  { s with
    l2 := s.l2.filter (fun l => l.asid != asid)
    code := s.code.filter (fun l => l.asid != asid)
    tlb := s.tlb.filter (fun t => t.asid != asid)
    owners := s.owners.filter (fun (_, o) => o.1 != asid)
    asids := terase s.asids asid.toNat
    roots := terase s.roots asid.toNat }

/-- The cores of a partition (R336). -/
def State.partCores (s : State) (p : Nat) : List Nat := (List.range 3072).filter (fun c => s.corePart c == some p)

/-- Whether a stage-2 entry's frame is one of the domains that `p` selects: by its key slot (R341), or by its owner pair.
DEDUCED: log entry 32. -/
def State.frameOf (s : State) (p : BitVec 16 → Bool) (e : S2Entry) : Bool :=
  let byKey := match tget s.keys e.key.toNat with | some q => e.key != 0 && p q.did | none => false
  let byOwner := match tget s.owners e.frame with
    | some o => s.domains.any (fun (k, d) => d.asid == o.1 && p (BitVec.ofNat 16 k))
    | none => false
  byKey || byOwner

/-- Whether the steps before an ASID's sweep are done (R312): no rope of it is left, in a gate of another domain either, the frames of its
domain and those that its pairs own are released, and every core of its domain's partition has discarded its lines. -/
def State.sweepReady (s : State) (asid : BitVec 16) : Bool :=
  let by_ := (tget s.asids asid.toNat).getD []
  s.ropes.all (fun (_, r) => r.ended || (r.asid != asid && r.frame.all (fun fr => fr.asid != asid))) &&
    s.stage2.all (fun (_, e) =>
      !s.frameOf (fun d => (tget s.domains d.toNat).any (fun q => q.asid == asid)) e &&
        (match tget s.owners e.frame with | some o => o.1 != asid | none => true)) &&
    s.domains.all (fun (_, d) => d.asid != asid || (s.partCores d.part).all (fun c => by_.contains c))

/-- RETIRE_SWEEP (R312): once the steps before it are done. -/
def execRetireSweep (asid : BitVec 16) (s : State) : Host.Outcome State Fault Refusal :=
  done (if s.sweepReady asid then s.sweep asid else s)

/-! Calendars. -/

/-- A slot of a calendar begins (R326); in which cores its owner acts is settled by each core as it comes to the slot (R327).
DEDUCED: log entry 23. -/
def State.beginSlot (s : State) (p n : Nat) (c : Calendar) : State := s.setCal p { c with now := n }

/-- SHA-256 over the measured partition configuration, index 4 (R344): registers and calendar slots. -/
def State.configDigest (s : State) : BitVec 256 :=
  sha256 (s.partRegs.flatMap (fun e => leBytes 4 e.1 ++ leBytes 4 e.2.toNat) ++
    s.calendars.flatMap (fun c => c.2.slot.flatMap (fun e => leBytes 4 (256 * c.1 + e.1) ++ leBytes 4 e.2.toNat)))

/-- The number of a measurement: 1 to 4 for the package, 5 and 6 for a domain (R344). -/
def measKey (idx : Nat) (did : BitVec 16) : Nat := if idx < 5 then idx else idx + 8 * did.toNat

/-- SHA-256 over the policy of a domain, index 5 (R344): its gates, and its domain partition registers core by core, ISO among
them. -/
def State.policyDigest (s : State) (did : BitVec 16) : BitVec 256 :=
  sha256 (((s.domain did).gates.flatMap (fun e => leBytes 4 e.1 ++ leBytes 64 e.2.toNat)) ++
    s.cores.flatMap (fun (c, k) => match k.slotOf did with
      | some d => leBytes 4 c ++ (List.range 8).flatMap (fun i => leBytes 8 (k.dpeReg (8 * d + i)).toNat)
      | none => []))

/-- The digest of the boot ROM with the sealed store, index 1 (R344, R360): the repair maps are a part of it. -/
def repairDigest (repairs : Tbl (BitVec 4)) : BitVec 256 :=
  if repairs.isEmpty then Config.bootDigest 1
  else sha256 (leBytes 32 (Config.bootDigest 1).toNat ++ repairs.flatMap (fun e => leBytes 4 e.1 ++ leBytes 1 e.2.toNat))

/-- The measurements that a boot takes (R344, R361). -/
def bootDigests (repairs : Tbl (BitVec 4)) : Tbl (BitVec 256) :=
  [(1, repairDigest repairs), (2, Config.bootDigest 2), (3, Config.bootDigest 3), (4, sha256 [])]

/-- A measurement's digest: the one last taken; a domain's that none has been taken of is what it is now, of its plug-in a free value
(R344). DESIGN CHOICE: log entry 7. -/
def State.digest (s : State) (idx : Nat) (did : BitVec 16) : BitVec 256 :=
  match tget s.digests (measKey idx did) with
  | some d => d
  | none => if idx = 5 then s.policyDigest did else Config.bootDigest (measKey idx did)

/-- A workgroup that ends without save, in a task that does not complete (R339, R346): what is left of it is never placed
again. -/
def State.dropWg (s : State) (k : Nat) (w : Workgroup) : State :=
  if w.pro.isSome then s.dropPro k w
  else (s.stripWg k w).setWg k { w with state := .saved, ropes := [], scratch := [], marks := [], pinned := [], slotMap := [], marked := [], slotImg := [] }

/-- Revocation of the key slots of a domain (R346): its streams stop, its workgroups are discarded, the stage-2 entries of its
slots go with their frames, the slots become REVOKED. DEDUCED: log entry 32. -/
def State.revoke (s : State) (did : BitVec 16) : State :=
  let ks := (s.keys.filter (fun (_, q) => q.state == .valid && q.did == did)).map Prod.fst
  let s1 : State := { s with
    streams := s.streams.map (fun ((k, t) : Nat × Stream) => (k, if t.did = did then { t with state := .stopped } else t)) }
  let s2 := (s1.wgs.filter (fun (_, w) => w.did == did && w.state != .ended)).foldl (fun (u : State) (k, w) =>
    if w.idem && w.pro.isNone then u.discardWg k else u.dropWg k w) s1
  let s3 := (s2.stage2.filter (fun (_, e) => ks.contains e.key.toNat)).foldl (fun (u : State) (p, _) => u.release p) s2
  let s4 : State := { s3 with
    keys := s3.keys.map (fun ((k, q) : Nat × KeySlot) => (k, if ks.contains k then { q with state := .revoked, key := 0 } else q)) }
  s4.logBox 0 6 ⟨1, 8, BitVec.ofNat 4 (s.domain did).part, did, 0, 0⟩

/-- Whether a VALID slot's binding mask holds an index (R345): indices 5 and 6 are those of its owner. -/
def KeySlot.binds (q : KeySlot) (idx : Nat) (did : BitVec 16) : Bool :=
  q.state == .valid && decide (1 ≤ idx) && q.mask.getLsbD (idx - 1) && (decide (idx < 5) || q.did == did)

/-- A measurement takes a value; where it changes, the slots bound to it are revoked with their owners' others (R346). -/
def State.measure (s : State) (idx : Nat) (did : BitVec 16) (v : BitVec 256) : State :=
  if s.digest idx did = v then s
  else
    let owners := ((s.keys.filter (fun (_, q) => q.binds idx did)).map (fun e => e.2.did)).eraseDups
    owners.foldl (fun (u : State) d => u.revoke d) { s with digests := tset s.digests (measKey idx did) v }

/-- The measured configuration taken again (R344). -/
def State.remeasure (s : State) : State := s.measure 4 0 s.configDigest

/-- A write of a calendar register waits for the first period that starts after it (R326). -/
def State.calWrite (s : State) (p : Nat) (r : SysReg) (v : Word) : State :=
  s.setCal p { s.cal p with waiting := (s.cal p).waiting ++ [(r, v, s.etime / 2048)] }

/-- CAL_CTL (R326): HOLD, from the next period start on; a write with a reserved bit fails. DEDUCED: log entry 23. -/
def execCalCtl (p : Nat) (v : Word) (s : State) : Host.Outcome State Fault Refusal :=
  if v.toNat < 2 then done (s.calWrite p (.calSlot p 64) v)
  else done { s with replies := s.replies ++ [.refusedWrite (.calSlot p 64)] }

/-- CALENDAR_PERIOD_START (R326): the writes that wait take effect, those of other registers unless HOLD is set; a slot of the period
begins. DEDUCED: log entry 23. -/
def execCalendarPeriodStart (p : Nat) (s : State) : Host.Outcome State Fault Refusal :=
  let c := s.cal p
  if s.etime / 2048 ≤ c.now / 64 then done s
  else done (s.beginSlot p (64 * (s.etime / 2048)) (c.started (s.etime / 2048))).remeasure

/-- CALENDAR_SLOT_BOUNDARY (R326, R327): a later slot of the period begins, once its time has come. -/
def execCalendarSlotBoundary (p slot : Nat) (s : State) : Host.Outcome State Fault Refusal :=
  let c := s.cal p
  let n := 64 * (c.now / 64) + slot % 64
  if c.now < n ∧ n ≤ s.etime / 32 then done (s.beginSlot p n c) else done s

/-! Partitions and resets. -/

/-- Whether a partition is in reset (R339): nothing of it runs, and no stream of it has been mapped since its last reset.
DEDUCED: log entry 32. -/
def State.inReset (s : State) (p : Nat) : Bool :=
  !s.live.contains p && s.wgs.all (fun (_, w) => (s.domain w.did).part != p) &&
    s.streams.all (fun (_, t) => (s.domain t.did).part != p || t.state == .stopped || !t.valid)

/-- Whether a value keeps to the fields of a register (R326, R337). DESIGN CHOICE: log entry 33. -/
def regValueOk : SysReg → Word → Bool
  | .conn _ _, v => decide (v.toNat < 65536)
  | .partDie _ _, v => decide (v.toNat < 256)
  | .calSlot _ k, v => decide (k < 64) && decide (v.toNat < 2 ^ 17)
  | .calShare _ j, v => decide (j < 16) && decide (v.toNat < 2 ^ 21) && fld v 17 4 != 0
  | _, v => decide (v.toNat < 32)

/-- The partitions that a write to a partition register concerns (R339). -/
def State.regParts (s : State) (r : SysReg) (v : Word) : List Nat :=
  match r with
  | .conn die i => (partOf (s.reg (.partReq die i))).toList
  | .partDie _ p => [p]
  | _ => (partOf (s.reg r)).toList ++ (partOf v).toList

/-- REGISTER_WRITE (R326, R337, R339): a calendar register waits for the next period; a partition register is written while the
partitions concerned are in reset. A write that is refused is reported. DESIGN CHOICE: log entry 33. -/
def execRegisterWrite (r : SysReg) (v : Word) (s : State) : Host.Outcome State Fault Refusal :=
  if !regValueOk r v then done { s with replies := s.replies ++ [.refusedWrite r] }
  else
    match r with
    | .calSlot p _ | .calShare p _ => done (s.calWrite p r v)
    | _ =>
      if (s.regParts r v).all s.inReset then
        done ({ s with partRegs := rset 0 s.partRegs (regKey r) v }.remeasure).retestAll
      else done { s with replies := s.replies ++ [.refusedWrite r] }

/-- A core reset (R361): the core as it is after it; domain entries stay. -/
def State.resetCore (s : State) (c : Nat) : State :=
  s.setCore c ⟨0, s.etimePs, 0, [], [], [], [], 4, false, (s.core c).dpe, []⟩

/-- Memory without the stores that dirty lines of the cores that `p` names hold (R293): what they replaced stands again. -/
def State.undirty (s : State) (p : L2Line → Nat → Bool) : Tbl Byte :=
  s.l2.foldl (fun m l => match l.dirty with | some c => if p l c then l.discard c m else m | none => m) s.mem

/-- The L2 lines that `p` selects are discarded without write-back, with their L1 copies (R339). -/
def State.dropLines (s : State) (p : L2Line → Bool) : State :=
  { s with mem := s.undirty (fun l _ => p l), l2 := s.l2.filter (fun l => !p l) }

/-- An L2 line without the copies of some cores, whatever they hold (R361). -/
def L2Line.without (l : L2Line) (cs : List Nat) : L2Line :=
  let gone := match l.dirty with | some c => cs.contains c | none => false
  { l with
    l1 := l.l1.filter (fun e => !cs.contains e.1)
    uo := l.uo.filter (fun e => !cs.contains e.core)
    dirty := if gone then none else l.dirty
    old := if gone then [] else l.old }

/-- Cores reset (R361): their L1 caches, line buffers, slots, arrays' applications and special-function queues are clear. -/
def State.resetCores (s : State) (cs : List Nat) : State :=
  let s1 := { s with
    mem := s.undirty (fun _ c => cs.contains c)
    l2 := s.l2.map (fun l => l.without cs)
    code := s.code.map (fun l =>
      { l with l1i := l.l1i.filter (fun c => !cs.contains c), bufs := l.bufs.filter (fun q => !cs.contains (q / 4)) })
    slots := s.slots.filter (fun (k, _) => !cs.contains (k / 64))
    sfu := s.sfu.filter (fun e => !cs.contains (e.quad / 4))
    arrays := s.arrays.map (fun (k, a) => (k, if cs.contains (k / 8) then { a with busy := 0, users := [], retries := [], faulty := 0 } else a)) }
  cs.foldl (fun (u : State) c => u.resetCore c) s1

/-- A stream after a partition reset (R339): STOPPED, its window discarded without retirement. -/
def Stream.cleared (t : Stream) : Stream :=
  { t with state := .stopped, window := [], decode := t.head, dmap := t.rmap, ended := false, pending := false, recorded := false
           heldCtl := none, got := [] }

/-- Streams, workgroups, outstanding accesses and lines of the domains that `p` selects are discarded (R339 steps 1 to 3). -/
def State.clearDomains (s : State) (p : BitVec 16 → Bool) : State :=
  let wgs := s.wgs.filter (fun (_, w) => p w.did)
  let s1 := wgs.foldl (fun (u : State) (k, w) => if w.pro.isSome then u.dropPro k w else u.killWg k) s
  let asids := (s.domains.filter (fun (k, _) => p (BitVec.ofNat 16 k))).map (fun e => e.2.asid)
  ({ s1 with
    streams := s1.streams.map (fun (k, t) => (k, if p t.did then t.cleared else t))
    faults := s1.faults.filter (fun q => match tget s1.streams q.stream with | some t => !p t.did | none => false)
    ctxs := s1.ctxs.filter (fun (_, c) => !p c.did)
    log := s1.log.filter (fun e => !asids.contains e.asid)
  } : State).dropLines (fun l => asids.contains l.asid)

/-- Whether a frame lies behind a memory port of a partition (R336). DESIGN CHOICE: log entry 46. -/
def State.behindPorts (s : State) (p frame : Nat) : Bool :=
  let n := Config.framePort frame % 128
  partOf (s.reg (.partMp (n / 16) (n % 16))) == some p

/-- The frames that `keep` does not name are unscrubbed and without poison (R311, R361). -/
def State.keepFrames (s : State) (keep : Nat → Bool) : State :=
  { s with
    mem := s.mem.filter (fun c => keep (c.1 / 65536))
    scrubbed := s.scrubbed.filter keep
    poison := s.poison.filter (fun l => keep (l / 512)) }

/-- A partition reset (R339, R361). DEDUCED: log entry 32. -/
def State.resetPart (s : State) (p : Nat) : State :=
  let mine (d : BitVec 16) : Bool := tget s.domains d.toNat |>.any (fun q => q.part == p)
  let gone := (s.stage2.filter (fun (_, e) => s.behindPorts p e.frame || s.frameOf mine e)).map Prod.fst
  let asids := (s.domains.filter (fun (_, d) => d.part == p)).map (fun e => e.2.asid)
  let s1 := (s.clearDomains mine).resetCores (s.partCores p)
  let s2 := (gone.foldl (fun (u : State) k => u.release k) s1).keepFrames (fun f => !s.behindPorts p f)
  let s3 := asids.foldl (fun (u : State) a => u.sweep a) s2
  { s3 with
    live := s3.live.filter (fun q => q != p)
    domains := s3.domains.map (fun (k, d) => (k, if d.part = p then { d with tdi := .unlocked } else d)) }

/-- PARTITION_RESET (R339). -/
def execPartitionReset (p : Nat) (s : State) : Host.Outcome State Fault Refusal := done (s.resetPart p)

/-- COLD_RESET (R361): the state after power-on, with the sealed store's repair maps in force (R360); the host's and the peers'
memory, requests and answers are outside. -/
def execColdReset (s : State) : Host.Outcome State Fault Refusal :=
  done { State.reset with
    host := s.host, peer := s.peer, inputs := s.inputs, replies := s.replies, free := s.free, nextId := s.nextId
    resets := s.resets + 1, keys := [(0, ⟨.valid, 0, 0, 0, Config.systemKey (s.resets + 1)⟩)]
    repairs := s.repairs, digests := bootDigests s.repairs
    arrays := s.repairs.map (fun (k, b) => (k, ⟨0, b, b, [], 0, [], [], 0⟩)) }

/-- A warm reset (R361): every partition's streams, workgroups and lines are discarded, every core reset; system frames, the
system key, ETIME, the black-box record and the dump stay. -/
def State.warm (s : State) : State :=
  let s1 := (s.clearDomains (fun _ => true)).dropLines (fun _ => true)
  let system := (s1.stage2.filter (fun (_, e) => e.key == 0)).map (fun e => e.2.frame)
  let gone := (s1.stage2.filter (fun (_, e) => e.key != 0)).map Prod.fst
  let s2 := (gone.foldl (fun (u : State) k => u.release k) s1).keepFrames (fun f => system.contains f)
  let s3 := s2.domains.foldl (fun (u : State) (_, d) => u.sweep d.asid) s2
  { s3 with
    epochPs := s3.etimePs
    ropes := [], wgs := [], slots := [], arrays := s3.arrays.map (fun (k, a) => (k, { a with busy := 0, users := [], retries := [], faulty := 0 }))
    cores := [], sfu := [], ctxs := [], log := [], faults := [], tlb := [], code := [], asids := [], partRegs := [], calendars := []
    images := [], preempts := [], rotors := [], fatals := [], stale := [], repaired := false, live := []
    keys := s3.keys.filter (fun (k, _) => k == 0)
    digests := bootDigests s3.repairs
    spdm := [], ide := []
    domains := s3.domains.map (fun (k, d) => (k, { d with tdi := .unlocked })) }

/-- WARM_RESET (R361). -/
def execWarmReset (s : State) : Host.Outcome State Fault Refusal := done s.warm

/-- Whether a partition spans a compute die (R336, R337). -/
def State.spans (s : State) (p die : Nat) : Bool :=
  (List.range 14).any (fun i => partOf (s.reg (.partReq die i)) == some p) ||
    (List.range 16).any (fun j => partOf (s.reg (.partMp die j)) == some p) ||
    (List.range 8).any (fun d => (s.reg (.partDie d p)).getLsbD die)

/-- The cores of a compute die. -/
def dieCores (die : Nat) : List Nat := (List.range 384).map (fun i => 384 * die + i)

/-- DIE_OFFLINE (R360): partitions that span the die are reset, and its clusters and memory ports are out of service. -/
def execDieOffline (die : Nat) (s : State) : Host.Outcome State Fault Refusal :=
  let ps := (List.range 16).filter (fun p => s.spans p die)
  let s1 := ps.foldl (fun (u : State) p => u.resetPart p) s
  done ({ s1 with dieOff := die :: s1.dieOff.filter (fun d => d != die) } : State).retestAll

/-- DIE_RETURN (R361): the die's cores are reset and in service again. -/
def execDieReturn (die : Nat) (s : State) : Host.Outcome State Fault Refusal :=
  let s1 := s.resetCores (dieCores die)
  done ({ s1 with dieOff := s1.dieOff.filter (fun d => d != die) } : State).retestAll

/-! Attestation. -/

/-- An SPDM responder at its start (R343). -/
def Spdm.none : Spdm := ⟨false, false, false, false, false⟩

/-- The SPDM responder of a hub die. -/
def State.responder (s : State) (hub : Nat) : Spdm := (tget s.spdm hub).getD Spdm.none

/-- An SPDM answer, with the responder's next state. -/
def State.spdmReply (s : State) (hub : Nat) (p : Spdm) (msg : String) (data : List (BitVec 256)) : State :=
  { s with spdm := tset s.spdm hub p, replies := s.replies ++ [.spdm hub msg data] }

/-- An answer where the responder may give it, else an error that changes nothing (R343). -/
def State.spdmStep (s : State) (hub : Nat) (ok : Bool) (p : Spdm) (msg : String) (data : List (BitVec 256)) : State :=
  if ok then s.spdmReply hub p msg data else s.spdmReply hub (s.responder hub) "ERROR" []

/-- GET_VERSION (R343): the connection begins anew. -/
def execGetVersion (hub : Nat) (s : State) : Host.Outcome State Fault Refusal :=
  done (s.spdmStep hub true ⟨true, false, false, false, false⟩ "VERSION" [])

/-- GET_CAPABILITIES (R343). -/
def execGetCapabilities (hub : Nat) (s : State) : Host.Outcome State Fault Refusal :=
  let p := s.responder hub
  done (s.spdmStep hub p.version { p with caps := true } "CAPABILITIES" [])

/-- NEGOTIATE_ALGORITHMS (R343): only the algorithms of R343. -/
def execNegotiateAlgorithms (hub : Nat) (a : Algorithms) (s : State) : Host.Outcome State Fault Refusal :=
  let p := s.responder hub
  done (s.spdmStep hub (p.caps && a.rsa3072sha256 && a.p384 && a.aes256gcm && a.sha256) { p with algs := true } "ALGORITHMS" [])

/-- GET_DIGESTS (R343): of the one certificate chain. -/
def execGetDigests (hub : Nat) (s : State) : Host.Outcome State Fault Refusal :=
  let p := s.responder hub
  done (s.spdmStep hub p.algs p "DIGESTS" [Config.bootDigest 0])

/-- GET_CERTIFICATE (R343): slot 0 alone exists. -/
def execGetCertificate (hub slot : Nat) (s : State) : Host.Outcome State Fault Refusal :=
  let p := s.responder hub
  done (s.spdmStep hub (p.algs && slot == 0) p "CERTIFICATE" [Config.bootDigest 0])

/-- CHALLENGE (R343). -/
def execChallenge (hub : Nat) (nonce : BitVec 256) (s : State) : Host.Outcome State Fault Refusal :=
  let p := s.responder hub
  done (s.spdmStep hub p.algs p "CHALLENGE_AUTH" [nonce])

/-- GET_MEASUREMENTS (R344): indices 5 and 6 of the domain that the request names. -/
def execGetMeasurements (hub idx : Nat) (did : BitVec 16) (s : State) : Host.Outcome State Fault Refusal :=
  let p := s.responder hub
  let ok := p.algs && decide (1 ≤ idx) && decide (idx ≤ 6) && (decide (idx < 5) || (s.domain did).valid)
  done (s.spdmStep hub ok p "MEASUREMENTS" [s.digest idx did])

/-- KEY_EXCHANGE (R343): without mutual authentication. -/
def execKeyExchange (hub : Nat) (mutualAuth : Bool) (s : State) : Host.Outcome State Fault Refusal :=
  let p := s.responder hub
  done (s.spdmStep hub (p.algs && !mutualAuth) { p with keyed := true } "KEY_EXCHANGE_RSP" [])

/-- FINISH (R343): the session stands. -/
def execFinish (hub : Nat) (s : State) : Host.Outcome State Fault Refusal :=
  let p := s.responder hub
  done (s.spdmStep hub p.keyed { p with session := true } "FINISH_RSP" [])

/-- END_SESSION (R343). -/
def execEndSession (hub : Nat) (s : State) : Host.Outcome State Fault Refusal :=
  let p := s.responder hub
  done (s.spdmStep hub p.session { p with keyed := false, session := false } "END_SESSION_ACK" [])

/-! Keys. -/

/-- SHA-256 over the current digests of a binding mask, in ascending order (R345). -/
def State.bindingDigest (s : State) (mask : BitVec 6) (did : BitVec 16) : BitVec 256 :=
  sha256 ((([1, 2, 3, 4, 5, 6] : List Nat).filter (fun i => mask.getLsbD (i - 1))).flatMap (fun i => leBytes 32 (s.digest i did).toNat))

/-- Whether a stage-2 entry names a key slot. -/
def State.keyNamed (s : State) (k : Nat) : Bool := s.stage2.any (fun (_, e) => e.key.toNat == k)

/-- The refusal code of KEYSET, 0 where it is accepted (R345). DESIGN CHOICE: log entry 33. -/
def State.keysetCode (s : State) (r : KeySetReq) : Nat :=
  if r.idx = 0 ∨ 4095 < r.idx then 4
  else if (s.keySlot r.idx).state = .valid ∨ s.keyNamed r.idx then 1
  else if !(s.domain r.did).valid then 2
  else if s.bindingDigest r.mask r.did ≠ r.policy then 3
  else 0

/-- The current digests of a domain's own indices become those last taken (R344): later ones are compared with them. -/
def State.takeDigests (s : State) (did : BitVec 16) : State :=
  { s with digests := tset (tset s.digests (measKey 5 did) (s.digest 5 did)) (measKey 6 did) (s.digest 6 did) }

/-- KEYSET (R345): inside an established session. -/
def execKeyset (hub : Nat) (r : KeySetReq) (s : State) : Host.Outcome State Fault Refusal :=
  let p := s.responder hub
  if !p.session then done (s.spdmReply hub p "ERROR" [])
  else
    let c := s.keysetCode r
    let s1 := { s with replies := s.replies ++ [.keyCode hub c] }
    done (if c = 0 then { s1.takeDigests r.did with keys := tset s1.keys r.idx ⟨.valid, r.did, r.mask, r.policy, r.key⟩ } else s1)

/-- The refusal code of KEYDEL, 0 where it is accepted (R345). DESIGN CHOICE: log entry 33. -/
def State.keydelCode (s : State) (idx : Nat) (did : BitVec 16) : Nat :=
  if idx = 0 ∨ 4095 < idx then 4
  else if (s.keySlot idx).state ≠ .valid ∨ (s.keySlot idx).did ≠ did then 2
  else if s.keyNamed idx then 1
  else 0

/-- KEYDEL (R345): inside an established session. -/
def execKeydel (hub idx : Nat) (did : BitVec 16) (s : State) : Host.Outcome State Fault Refusal :=
  let p := s.responder hub
  if !p.session then done (s.spdmReply hub p "ERROR" [])
  else
    let c := s.keydelCode idx did
    let s1 := { s with replies := s.replies ++ [.keyCode hub c] }
    done (if c = 0 then { s1 with keys := terase s1.keys idx } else s1)

/-- MEASUREMENT_CHANGE (R346): with index 5 the policy has been measured again, with index 1 the repair maps. -/
def execMeasurementChange (idx : Nat) (did : BitVec 16) (digest : BitVec 256) (s : State) : Host.Outcome State Fault Refusal :=
  let s1 := s.measure idx did digest
  done { s1 with
    stale := if idx = 5 then s1.stale.filter (fun d => d != did) else s1.stale
    repaired := s1.repaired && idx != 1 }

/-- SCHEDULER_REPLACE (R355): the new image is index 3, and R346 runs. -/
def execSchedulerReplace (digest : BitVec 256) (s : State) : Host.Outcome State Fault Refusal := done (s.measure 3 0 digest)

/-! The host. -/

/-- DOORBELL_KICK (R348): an 8-byte write in RUN is a kick; one for a stream that is not valid is counted by the hub die that took
it. A read, without a value, returns 0. -/
def execDoorbellKick (vf : Doorbell) (off : BitVec 15) (size : Nat) (v : Option DWord) (s : State) : Host.Outcome State Fault Refusal :=
  match v with
  | none => done { s with replies := s.replies ++ [.bar 0] }
  | some v =>
    if size ≠ 8 ∨ off.toNat % 8 ≠ 0 ∨ (s.domain vf.did).tdi ≠ .run then done s
    else
      let key := streamKey vf.did (off.toNat / 8)
      if (tget s.streams key).any (fun t => t.valid) then done (s.kicked key v.toNat)
      else done (s.logBox (vf.hub % 2) 8
        ⟨1, BitVec.ofNat 4 (8 + vf.hub % 2), BitVec.ofNat 4 (s.domain vf.did).part, vf.did, BitVec.ofNat 64 (off.toNat / 8), 1⟩)

/-- The poisoned lines that one write of a domain's GLOBAL bytes covers whole are healed (R357). -/
def State.healRange (s : State) (asid : BitVec 16) (va n : Nat) : State :=
  let first := (va + 127) / 128
  let lines := (List.range ((va + n) / 128 - first)).filterMap (fun i =>
    match s.lookup asid (128 * (first + i)) .write with
    | .ok f _ _ _ => some (physOf f (128 * (first + i)) / 128)
    | _ => none)
  { s with poison := s.poison.filter (fun p => !lines.contains p) }

/-- The hub die through which the host reaches device bytes of an ASID: one whose requester reaches them, if there is one (R338).
DESIGN CHOICE: log entry 48. -/
def State.hostHub (s : State) (asid : BitVec 16) (va n : Nat) : Nat :=
  if (s.hubRefused 0 asid va n).isEmpty then 0 else if (s.hubRefused 1 asid va n).isEmpty then 1 else 0

/-- HOST_WRITE (R291): the host writes its own memory, or device memory that a domain has mapped. -/
def execHostWrite (sp : HostSpace) (addr : DWord) (bytes : List Byte) (s : State) : Host.Outcome State Fault Refusal :=
  match sp with
  | .host => done { s with host := wrBytes s.host addr.toNat bytes }
  | .device asid => done ((s.sysWrite (s.hostHub asid addr.toNat bytes.length) asid addr.toNat bytes).healRange asid addr.toNat bytes.length)

/-- TDISP_REQUEST (R347): lock, start and stop move a TDI among its states. PRESUMED: log entry 21. -/
def execTdispRequest (did : BitVec 16) (r : TdispReq) (s : State) : Host.Outcome State Fault Refusal :=
  let d := s.domain did
  match r, d.tdi with
  | .lock, .unlocked => done (s.setDomain did { d with tdi := .locked })
  | .start, .locked => done (s.setDomain did { d with tdi := .run })
  | .stop, _ => done (s.setDomain did { d with tdi := .unlocked })
  | _, _ => done s

/-- TDI_ERROR (R347): outstanding HOST accesses of the domain are discarded, each with XLATE, reason LINK.
PRESUMED: log entry 21. -/
def execTdiError (did : BitVec 16) (s : State) : Host.Outcome State Fault Refusal :=
  let d := s.domain did
  let s1 := s.setDomain did { d with tdi := .error }
  done ((s1.log.filter (fun e => e.asid == d.asid && (hent e.handle).space == spHost && !e.state.over)).foldl
    (fun (u : State) e => u.raiseLog e 6 (maskOf (fun l => e.lanes.any (fun a => a.lane == l)))) s1)

/-- IDE_KM (R347): a key for one of the eight selective IDE streams, or for Link IDE, within an SPDM session. -/
def execIdeKm (hub stream : Nat) (key : BitVec 256) (s : State) : Host.Outcome State Fault Refusal :=
  let p := s.responder hub
  if p.session && decide (stream < 9) then done { s with ide := tset s.ide (9 * hub + stream) key }
  else done (s.spdmReply hub p "ERROR" [])

/-! Scale-out. -/

/-- A field of a remote-stream table entry (R352). -/
def rstNat (e : BitVec 256) (lo w : Nat) : Nat := (e.extractLsb' lo w).toNat

/-- A remote-stream table entry with LASTSEQ or DROPS written (R352). -/
def rstPut (e : BitVec 256) (lo w v : Nat) : BitVec 256 :=
  (e &&& ~~~(((BitVec.allOnes 256) >>> (256 - w)) <<< lo)) ||| (BitVec.ofNat 256 (v % 2 ^ w) <<< lo)

/-- A packet refused under an entry (R353). -/
def State.rstDrop (s : State) (did : BitVec 16) (i : Nat) : State :=
  let d := s.domain did
  let e := rget 0 d.rst i
  s.setDomain did { d with rst := rset 0 d.rst i (rstPut e 224 32 (rstNat e 224 32 + 1)) }

/-- A ring entry with its phase bit set for index k (R240). -/
def phased (t : Stream) (k : Nat) (e : BitVec 256) : BitVec 256 :=
  let b : BitVec 256 := BitVec.ofNat 256 (2 ^ 31)
  if t.phase k then e ||| b else e &&& ~~~b

/-- The entries of a packet that a hub die has accepted are written and kicked (R353). -/
def State.launch (s : State) (hub key : Nat) (t : Stream) (v n : Nat) (es : List (BitVec 256)) : State :=
  let asid := (s.domain t.did).asid
  let s0 := (s.setStream key { t with resv := BitVec.ofNat 64 (v + n) }).wake spCtrl (place key 0x20) 8
  ((List.range n).foldl (fun (u : State) i =>
    u.sysWrite hub asid (t.entryVa (v + i)) (leBytes 32 (phased t (v + i) (es.getD i 0)).toNat)) s0).kicked key (v + n)

/-- A launch packet's checks in order, and its effect (R353). -/
def State.packet (s : State) (port : Nat) (sci : DWord) (p : LaunchPkt) : State :=
  let d := s.domain p.did
  let i := p.idx.toNat
  let e := rget 0 d.rst i
  let box (code : BitVec 8) : State := s.logBox (port / 6) 8 ⟨code, BitVec.ofNat 4 (8 + port / 6), BitVec.ofNat 4 d.part, p.did, BitVec.ofNat 64 port, 1⟩
  if p.ver ≠ 1 ∨ !d.valid ∨ partOf (s.reg (.hubPort port)) ≠ some d.part then box 2
  else if 256 ≤ i ∨ !e.getLsbD 12 ∨ rstNat e 13 3 ≠ 0 ∨ rstNat e 19 45 ≠ 0 ∨ p.zero ≠ 0 then box 3
  else if e.extractLsb' 64 64 ≠ sci ∨ p.count = 0 ∨ rstNat e 16 3 < p.count.toNat ∨ p.seq.toNat ≤ rstNat e 128 64 then s.rstDrop p.did i
  else
    let ms := s.etime / 1000000
    let used := match tget d.rstUsed i with | some u => if u.1 = ms then u.2 else 0 | none => 0
    let rate := rstNat e 192 32
    if rate ≠ 0 ∧ rate ≤ used then s.rstDrop p.did i
    else
      let key := streamKey p.did (rstNat e 0 12)
      match tget s.streams key with
      | none => s.rstDrop p.did i
      | some t =>
        let v := t.resv.toNat
        let n := p.count.toNat
        if !t.valid ∨ t.head + t.ringN < v + n then s.rstDrop p.did i
        else
          let s1 := s.setDomain p.did { d with
            rst := rset 0 d.rst i (rstPut e 128 64 p.seq.toNat), rstUsed := tset d.rstUsed i (ms, used + 1) }
          s1.launch (port / 6) key t v n p.entries

/-- LAUNCH_PACKET (R351 to R353). -/
def execLaunchPacket (port : Nat) (sci : DWord) (p : LaunchPkt) (s : State) : Host.Outcome State Fault Refusal :=
  done (s.packet port sci p)

/-- ETHERNET_FRAME (R350, R351): a frame that fails MACsec is dropped; one of EtherType 0x88B5 is a launch packet. -/
def execEthernetFrame (port : Nat) (macsecOk : Bool) (f : EthFrame) (s : State) : Host.Outcome State Fault Refusal :=
  match f.pkt with
  | some p => done (if macsecOk && f.etherType == 0x88B5 then s.packet port f.sci p else s)
  | none => done s

/-! Errors and power. -/

/-- CORRECTABLE_ERROR (R356): corrected, counted, recorded. -/
def execCorrectableError (w : ErrWhere) (s : State) : Host.Outcome State Fault Refusal :=
  let hub := hubOf w.die
  done ({ s with counters := tset s.counters hub (rget 0 s.counters hub + 1) }.logBox hub 1 w)

/-- What a rope holds of a domain (R230): all of it, or in a gate frame the callee's part or the caller's. -/
def Rope.partOfDid (r : Rope) (did : BitVec 16) : Option Rope :=
  match r.frame with
  | none => if r.did = did then some r else none
  | some fr =>
    if r.did = did then some (if fr.did = did then r else { r with frame := none })
    else if fr.did = did then some (r.leaveFrame fr) else none

/-- A domain's state in a dump, under a key slot (R358): with it the records of its accesses that have raised a trap and of its task
faults; the counts of errors and the black-box records are the system's. DESIGN CHOICE: log entry 39. -/
def State.dumpDomain (s : State) (p key : Nat) (did : BitVec 16) : DumpPart where
  part := p
  key := key
  ropes := s.ropes.filterMap (fun (k, r) => (r.partOfDid did).map (fun q => (k, q)))
  wgs := s.wgs.filter (fun (_, w) => w.did == did)
  slots := s.slots.filter (fun (k, m) => m.owner == did && s.corePart (k / 64) == some p)
  streams := s.streams.filter (fun (_, t) => t.did == did)
  errors := s.log.filter (fun e => s.didOfAsid e.asid == did && e.state.over)
  faults := s.faults.filter (fun q => (tget s.streams q.stream).any (fun t => t.did == did))
  counters := if key = 0 then s.counters else []
  boxes := if key = 0 then s.blackBox else []

/-- The dump of a partition (R358): the system's part under slot 0, each domain's under its key slot. DESIGN CHOICE: log entry 39. -/
def State.dumpPart (s : State) (p : Nat) : List DumpPart :=
  s.dumpDomain p 0 0 :: s.domains.filterMap (fun (k, d) =>
    if k = 0 ∨ d.part ≠ p then none
    else match s.keys.find? (fun (_, q) => q.state == .valid && q.did.toNat == k) with
      | some (i, q) => some (s.dumpDomain p i q.did)
      | none => none)

/-- A fatal error (R358): recorded, and the partition dumped; a partition reset follows, or a warm reset where a hub die's shared
logic is struck. DESIGN CHOICE: log entry 39. -/
def State.fatalAt (s : State) (p : Nat) (shared : Bool) (cls : Nat) (w : ErrWhere) : State :=
  let s1 := s.logBox (hubOf w.die) cls w
  let s2 := { s1 with
    replies := s1.replies ++ [Reply.dump p], fatals := s1.fatals.filter (fun q => q != p)
    dump := s1.dump.filter (fun (d : DumpPart) => d.part != p) ++ s1.dumpPart p }
  if shared then s2.warm else s2.resetPart p

/-- FATAL_ERROR (R358). -/
def execFatalError (p : Nat) (shared : Bool) (w : ErrWhere) (s : State) : Host.Outcome State Fault Refusal :=
  done (s.fatalAt p shared 7 w)

/-- UNCORRECTABLE_ERROR (R356), by where it lies. -/
def execUncorrectableError (l : ErrLoc) (w : ErrWhere) (s : State) : Host.Outcome State Fault Refusal :=
  let s1 := s.logBox (hubOf w.die) 2 w
  match l with
  | .workgroup k =>
    match tget s1.wgs k with
    | none => done s1
    | some g => done (if g.pro.isSome then (s1.mapint k).dropPro k g else (s1.mapint k).killWg k)
  | .mapldSource k => done (if (s1.slot k).fill.isSome then s1.setSlot k { MapSlot.empty (s1.slot k).owner with state := .failed } else s1)
  | .dataLine asid line =>
    match s1.lookup asid (128 * line) .read with
    | .ok f _ _ _ => done { s1 with poison := (physOf f (128 * line) / 128) :: s1.poison.filter (fun p => p != physOf f (128 * line) / 128) }
    | _ => done s1
  | .structural p => done (s1.fatalAt p false 7 w)

/-- The 32 bytes of a black-box entry (R359). -/
def BlackBox.word (b : BlackBox) : BitVec 256 :=
  b.at_.detail ++ b.at_.unit ++ (0 : BitVec 16) ++ b.at_.did ++ (0 : BitVec 8) ++ b.at_.part ++ b.at_.die ++ b.at_.code ++ b.cls ++
    BitVec.ofNat 64 b.etime

/-- BLACK_BOX_READ (R359): the host driver reads an entry through the mailbox. -/
def execBlackBoxRead (hub idx : Nat) (s : State) : Host.Outcome State Fault Refusal :=
  done { s with replies := s.replies ++ [.blackBox hub ((((tget s.blackBox hub).getD [])[idx]?).map BlackBox.word)] }

/-- THERMAL_TRIP (R362): a fatal event with class 9, the dump and a warm reset. -/
def execThermalTrip (w : ErrWhere) (s : State) : Host.Outcome State Fault Refusal := done (s.fatalAt w.part.toNat true 9 w)

/-- MAP_DUTY_UPDATE (R362): the map duty, in percent, or what system software fixes for the slots of isolated domains in a partition.
DESIGN CHOICE: log entry 9. -/
def execMapDutyUpdate (d : DutySet) (s : State) : Host.Outcome State Fault Refusal :=
  match d.part with
  | none => done { s with duty := min d.duty 100 }
  | some p => done { s with partDuty := rset 100 s.partDuty p (min d.duty 100) }

end Sys2Proof.Machine
end

