-- ==== Sys2Proof/Machine/Loader.lean ====
section
/-! DEFINITION. DZO files (R363 to R366), the loader's checks (R367, R368, R370) and its effect, unloading (R371), and the
translation of Choarnif images (R376). -/

namespace Sys2Proof.Machine

/-- `n` bytes of a file at an offset, as a number. -/
def fNat (f : List Byte) (off n : Nat) : Nat := leNat ((f.drop off).take n)

/-- An entry of the section table (R364). -/
structure Dzo where
  kind : Nat
  required : Bool
  clean : Bool
  off : Nat
  size : Nat
  addr : Nat
  deriving DecidableEq, Repr

/-- The entry at an offset of the file. -/
def dzoAt (f : List Byte) (o : Nat) : Dzo :=
  let w := fNat f o 4
  ⟨w % 65536, bitOf w 16, w / 2 ^ 17 == 0 && fNat f (o + 4) 4 == 0, fNat f (o + 8) 8, fNat f (o + 16) 8, fNat f (o + 24) 8⟩

/-- The section table. -/
def dzoTable (f : List Byte) : List Dzo := (List.range (fNat f 12 2)).map (fun i => dzoAt f (fNat f 16 8 + 32 * i))

/-- Whether a type is known (R365). -/
def Dzo.known (d : Dzo) : Bool := decide (1 ≤ d.kind) && decide (d.kind ≤ 9)
/-- Whether a section is placed (R365). -/
def Dzo.placed (d : Dzo) : Bool := d.known && d.kind != 4 && d.kind != 9
/-- Whether a section holds code (R368). -/
def Dzo.code (d : Dzo) : Bool := d.kind == 1 || d.kind == 2 || d.kind == 3 || d.kind == 8
/-- The unit of a code section in bytes (R368). -/
def Dzo.unit (d : Dzo) : Nat := if d.kind = 2 then 4 else 8
/-- The contents of a section. -/
def Dzo.bytes (d : Dzo) (f : List Byte) : List Byte := (f.drop d.off).take d.size
/-- 64 KiB pages of a placed section. -/
def Dzo.pages (d : Dzo) : Nat := (d.size + 65535) / 65536

/-- The size limits of R365. -/
def Dzo.sizeOk (d : Dzo) : Bool :=
  match d.kind with
  | 1 | 3 | 8 => d.size % 8 == 0
  | 2 => d.size % 4 == 0
  | 5 => d.size % 64 == 0
  | _ => true

/-- Format, extents and placement (R363 to R365). -/
def dzoFormat (f : List Byte) : Bool :=
  let l := dzoTable f
  let ks := l.filter Dzo.known
  let ps := ks.filter Dzo.placed
  let flags := fNat f 8 4
  decide (64 ≤ f.length) && decide (flags < 4) && decide (1 ≤ fNat f 12 2) && decide (fNat f 12 4 ≤ 256) && fNat f 16 8 % 8 == 0 &&
    fNat f 0x18 40 == 0 && decide (fNat f 16 8 + 32 * fNat f 12 2 ≤ f.length) && l.all (fun d => d.clean && d.addr % 65536 == 0) &&
    ks.all (fun d => decide (d.off + d.size ≤ f.length) && d.sizeOk && (d.placed || d.addr == 0) &&
      decide (d.addr + d.size ≤ 2 ^ 48) && (ks.filter (fun e => e.kind == d.kind)).length == 1) &&
    ps.all (fun d => ps.all (fun e => d.kind == e.kind || decide (d.addr + 65536 * d.pages ≤ e.addr) ||
      decide (e.addr + 65536 * e.pages ≤ d.addr))) &&
    bitOf flags 0 == ks.any (fun d => d.kind == 1) && bitOf flags 1 == ks.any (fun d => d.kind == 2)

/-- The note records of a `.note` section (R366), `fuel` bytes of them at most. -/
def notesOk (b : List Byte) : Nat → Bool
  | 0 => b.isEmpty
  | fuel + 1 =>
    if b.isEmpty then true
    else
      let w := fNat b 0 4
      let n := fNat b 4 4
      let all := 8 + (n + 7) / 8 * 8
      decide (all ≤ b.length) && w / 2 ^ 17 == 0 && ((b.drop (8 + n)).take (all - 8 - n)).all (· == 0) &&
        (match w % 65536 with
         | 1 => decide (n ≤ 64)
         | 2 => n == 4 && fNat b 8 4 == 0x880
         | _ => !bitOf w 16) && notesOk (b.drop all) fuel

/-- The start addresses of a code section, by walking it from unit 0 (R368): offsets, `fuel` instructions at most. -/
def walkCode (kind : Nat) (b : List Byte) (at_ : Nat) : Nat → List Nat
  | 0 => []
  | fuel + 1 =>
    if b.isEmpty then []
    else
      let n :=
        if kind = 2 then 4 + (if bitOf (fNat b 0 4) 9 then 4 else 0)
        else if kind = 3 then (if fNat b 0 1 = 1 ∨ fNat b 0 1 = 2 then 56 else 8)
        else iwLength (BitVec.ofNat 64 (fNat b 0 8))
      at_ :: walkCode kind (b.drop n) (at_ + n) fuel

/-- The start offsets of a code section. -/
def Dzo.starts (d : Dzo) (f : List Byte) : List Nat := walkCode d.kind (d.bytes f) 0 d.size

/-- A record of `.starts` (R368): section index, COUNT, and the offset of its words. -/
structure StartRec where
  index : Nat
  count : Nat
  words : List Byte

/-- The records of `.starts`, or none where the section does not end with one. -/
def startRecs (b : List Byte) : Nat → Option (List StartRec)
  | 0 => if b.isEmpty then some [] else none
  | fuel + 1 =>
    if b.isEmpty then some []
    else
      let n := fNat b 4 4
      let all := 8 + 8 * ((n + 63) / 64)
      if b.length < all then none
      else (startRecs (b.drop all) fuel).map (fun r => ⟨fNat b 0 4, n, (b.drop 8).take (all - 8)⟩ :: r)

/-- Whether a record gives a section's start bits (R368). -/
def StartRec.fits (r : StartRec) (d : Dzo) (f : List Byte) : Bool :=
  r.count == d.size / d.unit &&
    leNat r.words == (d.starts f).foldl (fun a o => a + 2 ^ (o / d.unit)) 0

/-- The start maps against the sections (R368). -/
def startsOk (f : List Byte) : Bool :=
  let l := dzoTable f
  let b := match l.find? (fun d => d.kind == 4) with | some d => d.bytes f | none => []
  match startRecs b b.length with
  | none => false
  | some rs =>
    rs.all (fun r => match l[r.index]? with | some d => d.code && r.fits d f | none => false) &&
      l.zipIdx.all (fun (d, i) => !d.code || (rs.filter (fun r => r.index == i)).length == 1)

/-- The handle registers that a unit of code names (R176, R370): a memory instruction's, CPCMD's two, and those of a shape record's
words that are not marked (R213). -/
def namesHandle (kind : Nat) (b : List Byte) : List Nat :=
  if kind = 3 then
    let co := fNat b 0 1
    let marked (k : Nat) : Bool := bitOf (fNat b 0 4) (8 + k)
    (if co = 1 ∧ marked 2 = false then [fNat b 16 4 % 16] else []) ++
      (if (co = 1 ∨ co = 2) ∧ marked 3 = false then [fNat b 20 4 % 16] else [])
  else
    let w := fNat b 0 (if kind = 2 then 4 else 8)
    let op := w % 512
    let a := if kind = 2 then bits w 21 16 else bits w 31 24
    let d := if kind = 2 then bits w 15 10 else bits w 23 16
    if (metaOf op).isNone || (kind == 2 && hasPb op) then []
    else if (0x180 ≤ op ∧ op < 0x1C0) ∨ op = 0x161 then [a % 16] else if op = 0x1D1 then [a % 16, d % 16] else []

/-- The kernel descriptors of a file. -/
def dzoKernels (f : List Byte) : List (BitVec 512) :=
  match (dzoTable f).find? (fun d => d.kind == 5) with
  | some d => (List.range (d.size / 64)).map (fun i => BitVec.ofNat 512 (fNat f (d.off + 64 * i) 64))
  | none => []

/-- Whether an address belongs to the code that begins at `entry`, where all of a section's begin at `entries` (R391, R392): from there up
to the next; the first has what lies before it as well. -/
def ownCode (entries : List Nat) (entry a : Nat) : Bool :=
  (decide (entry ≤ a) || !entries.any (fun e => decide (e < entry))) && !entries.any (fun e => decide (entry < e) && decide (e ≤ a))

/-- Whether the code of a kernel names a handle register (R370): its own rope code, its own prologue, if it has one, and the copy programs
of its file, which belong to no kernel (R391). DESIGN CHOICE: log entry 28. -/
def codeNames (f : List Byte) (k : BitVec 512) (n : Nat) : Bool :=
  let kernels := (dzoKernels f).filter (fun q => kdPort q == kdPort k)
  let pros := ((dzoKernels f).filter (fun q => kdPro q != 0)).map (fun q => (kdPro q).toNat)
  let own (d : Dzo) (a : Nat) : Bool :=
    if d.kind = 3 then true
    else if d.kind = 8 then kdPro k != 0 && ownCode pros (kdPro k).toNat a
    else ownCode (kernels.map (fun q => (kdEntry q).toNat)) (kdEntry k).toNat a
  ((dzoTable f).filter (fun d => d.kind == (if kdPort k then 2 else 1) || d.kind == 3 || d.kind == 8)).any (fun d =>
    (d.starts f).any (fun o => own d (d.addr + o) && (namesHandle d.kind ((d.bytes f).drop o)).contains n))

/-- Whether an address lies in the placed section of a kind. -/
def inSection (f : List Byte) (kind a : Nat) : Bool :=
  (dzoTable f).any (fun d => d.kind == kind && decide (d.addr ≤ a) && decide (a < d.addr + d.size))

/-- The checks of R370 on a descriptor at load. -/
def kernelLoads (f : List Byte) (k : BitVec 512) : Bool :=
  let code := if kdPort k then 2 else 1
  kdOk k false && inSection f code (kdEntry k).toNat && (kdTrap k == 0 || inSection f code (kdTrap k).toNat) &&
    (kdPro k == 0 || inSection f 8 (kdPro k).toNat) &&
    (List.range 16).all (fun n => !k.getLsbD (288 + n) || codeNames f k n)

/-- The loader's checks in order (R367): the code of the first that fails, or 0. DESIGN CHOICE: log entry 27. -/
def loadCode (f : List Byte) : Nat :=
  let note := match (dzoTable f).find? (fun d => d.kind == 9) with | some d => d.bytes f | none => []
  if f.length < 4 ∨ fNat f 0 4 ≠ 0x014F5A44 then 1
  else if !dzoFormat f then 2
  else if fNat f 6 2 ≠ 1 ∨ fNat f 4 2 ≠ 0 then 3
  else if (dzoTable f).any (fun d => !d.known && d.required) then 4
  else if !notesOk note note.length then 5
  else if !startsOk f then 6
  else if !(dzoKernels f).all (kernelLoads f) then 7
  else 0

/-! Placing. -/

/-- The first IPA page above those that stage 2 maps. DESIGN CHOICE: log entry 28. -/
def State.newPage (s : State) : Nat := s.stage2.foldl (fun a e => max a (e.1 + 1)) 1
/-- The first frame above those that stage 2 names. DESIGN CHOICE: log entry 28. -/
def State.newFrame (s : State) : Nat := s.stage2.foldl (fun a e => max a (e.2.frame + 1)) 1

/-- A fresh IPA page backed by a fresh frame of zeros, with stage-2 rights (R304, R311). -/
def State.addPage (s : State) (x : Bool) (key : BitVec 12) : Nat × State :=
  let f := s.newFrame
  (s.newPage, { s.unscrub f with stage2 := tset s.stage2 s.newPage ⟨f, false, x, key⟩ })

/-- Bytes put into an IPA page. -/
def State.putIpa (s : State) (ipa : Nat) (bs : List Byte) : State :=
  match tget s.stage2 (ipa / 65536) with
  | some e =>
    let p := 65536 * e.frame + ipa % 65536
    let s1 := s.recallPhys p bs.length
    { s1 with mem := wrBytes s1.mem p bs }
  | none => s

/-- A stage-1 leaf put at level 3 below a table (R302, R303); missing tables are made, `fuel` levels left. -/
def State.mapFrom (s : State) (va leaf : Nat) (key : BitVec 12) : Nat → Nat → Nat → State
  | 0, _, _ => s
  | fuel + 1, lvl, table =>
    let at_ := table + 8 * (va / 2 ^ lvlShift lvl % (lvlSize lvl / 8))
    if lvl = 3 then s.putIpa at_ (leBytes 8 leaf)
    else
      match s.tableRead at_ with
      | .ok e =>
        if bitOf e 0 && !bitOf e 1 then s.mapFrom va leaf key fuel (lvl + 1) (e / 256 % 2 ^ 44 * 256)
        else
          let (p, s1) := s.addPage false key
          (s1.putIpa at_ (leBytes 8 (65536 * p + 1))).mapFrom va leaf key fuel (lvl + 1) (65536 * p)
      | .error _ => s

/-- A page of bytes placed read-only at a VA of an ASID (R365): the page, its frame, the tables that map it. The number is the IPA
page's. DESIGN CHOICE: log entry 28. -/
def State.placePage (s : State) (asid : BitVec 16) (va : Nat) (x : Bool) (key : BitVec 12) (bs : List Byte) : Nat × State :=
  let (p, s1) := s.addPage x key
  let s2 := s1.putIpa (65536 * p) bs
  let leaf := 65536 * p + 7 + (if x then 16 else 0)
  (p, match tget s2.roots asid.toNat with
    | some root => s2.mapFrom va leaf key 4 0 root.toNat
    | none =>
      let (q, s3) := s2.addPage false key
      { s3 with roots := tset s3.roots asid.toNat (BitVec.ofNat 64 (65536 * q)) }.mapFrom va leaf key 4 0 (65536 * q))

/-- A placed section's pages; without a key none is placed (R341). -/
def State.placeSection (s : State) (asid : BitVec 16) (key : Option (BitVec 12)) (f : List Byte) (d : Dzo) : Section × State :=
  match key with
  | none => (⟨d.kind, d.addr, d.size, []⟩, s)
  | some k =>
    let (ps, s1) := (List.range d.pages).foldl (fun (a : List Nat × State) i =>
      let (p, u) := a.2.placePage asid (d.addr + 65536 * i) d.code k (((d.bytes f).drop (65536 * i)).take 65536)
      (a.1 ++ [p], u)) ([], s)
    (⟨d.kind, d.addr, d.size, ps⟩, s1)

/-- The placed sections of a file, placed one after another. -/
def State.placeAll (s : State) (asid : BitVec 16) (key : Option (BitVec 12)) (f : List Byte) : List Section × State :=
  ((dzoTable f).filter Dzo.placed).foldl (fun (a : List Section × State) d =>
    let (c, u) := a.2.placeSection asid key f d
    (a.1 ++ [c], u)) ([], s)

/-- The key slot that a domain's frames use: its lowest VALID slot, slot 0 for the system domain (R341). DESIGN CHOICE: log
entry 28. -/
def State.keyOf (s : State) (did : BitVec 16) : Option (BitVec 12) :=
  (s.keys.find? (fun (_, q) => q.state == .valid && q.did == did)).map (fun e => BitVec.ofNat 12 e.1)

/-- The code handle that the kernels name (R301, R367): right X over the file's placed code sections. -/
def codeEntry (f : List Byte) (key : BitVec 12) : BitVec 256 :=
  let cs := (dzoTable f).filter Dzo.code
  let lo := cs.foldl (fun a d => min a d.addr) (2 ^ 48)
  let hi := cs.foldl (fun a d => max a (d.addr + d.size)) 0
  BitVec.ofNat 256 (lo + (hi - lo) * 2 ^ 64 + (1 + 256 + 65536 * key.toNat) * 2 ^ 128)

/-- The image of a file whose sections have been placed (R367, R368). -/
def dzoImage (did : BitVec 16) (f : List Byte) (cs : List Section) : Image :=
  { did := did
    sections := cs
    starts := ((dzoTable f).filter Dzo.code).flatMap (fun d => (d.starts f).map (fun o => d.addr + o))
    ported := false
    translated := false
    stalls := [] }

/-- DZO_LOAD (R367): a refused file installs nothing; else its sections are placed, its start maps kept, its code handles
made. DESIGN CHOICE: log entry 27. -/
def execDzoLoad (did : BitVec 16) (f : List Byte) (s : State) : Host.Outcome State Fault Refusal :=
  let code := loadCode f
  let s0 := { s with replies := s.replies ++ [.load code] }
  if code ≠ 0 then done s0
  else
    let key := s0.keyOf did
    let (cs, s1) := s0.placeAll (s0.domain did).asid key f
    let d := s1.domain did
    let s2 := s1.setDomain did { d with
      handles := (dzoKernels f).foldl (fun t k => rset 0 t (kdCodeh k).toNat (codeEntry f (key.getD 0))) d.handles }
    done { s2 with images := tset s2.images s2.nextId (dzoImage did f cs), nextId := s2.nextId + 1 }

/-! Unloading and translating. -/

/-- Whether a window entry, a workgroup or a copy program names an image (R371); a workgroup by its kernel, or by what a rope of it runs
in a gate frame. -/
def State.imageBusy (s : State) (i : Image) : Bool :=
  s.streams.any (fun (_, t) => t.did == i.did && t.window.any (fun k =>
    (k.top == 1 || k.top == 2) && (i.holds (k.w.t2 ++ k.w.t1).toNat || i.holds (kdEntry k.kdesc).toNat))) ||
  s.wgs.any (fun (_, w) => w.did == i.did && w.state != .ended && !(w.state == .saved && w.ropes.isEmpty) &&
    i.holds (kdEntry w.kdesc).toNat) ||
  s.ropes.any (fun (_, r) => r.did == i.did && r.strands.any (fun t => t.live && i.holds t.pc.toNat)) ||
  s.ctxs.any (fun (_, c) => c.did == i.did && c.cmd.isNone && c.own.isNone && i.holds c.start.toNat)

/-- The stage-1 leaf of a VA at level 3 cleared, `fuel` levels left (R302). -/
def State.unmapFrom (s : State) (va : Nat) : Nat → Nat → Nat → State
  | 0, _, _ => s
  | fuel + 1, lvl, table =>
    let at_ := table + 8 * (va / 2 ^ lvlShift lvl % (lvlSize lvl / 8))
    if lvl = 3 then s.putIpa at_ (leBytes 8 0)
    else
      match s.tableRead at_ with
      | .ok e => if bitOf e 0 && !bitOf e 1 then s.unmapFrom va fuel (lvl + 1) (e / 256 % 2 ^ 44 * 256) else s
      | .error _ => s

/-- A placed page taken back (R309, R371): its leaf, where that still names it, and its frame. -/
def State.unplace (s : State) (asid : BitVec 16) (va page : Nat) : State :=
  let s1 :=
    match tget s.roots asid.toNat with
    | none => s
    | some root =>
      match s.walk va 4 0 root.toNat with
      | .ok (ipa, _) => if ipa / 65536 = page then s.unmapFrom va 4 0 root.toNat else s
      | .error _ => s
  s1.release page

/-- DZO_UNLOAD (R371). DESIGN CHOICE: log entry 27. -/
def execDzoUnload (image : Nat) (s : State) : Host.Outcome State Fault Refusal :=
  match tget s.images image with
  | none => done s
  | some i =>
    if s.imageBusy i then done { s with replies := s.replies ++ [.load 8] }
    else
      let asid := (s.domain i.did).asid
      let pages := i.sections.flatMap (fun c => c.pages.zipIdx.map (fun (p, n) => (c.addr + 65536 * n, p)))
      let s1 := pages.foldl (fun (u : State) e => u.unplace asid e.1 e.2) s
      done { s1 with images := terase s1.images image, replies := s1.replies ++ [.load 0] }

/-- `n` bytes of an image at an address, as a number, from the pages that hold it. -/
def State.imageNat (s : State) (i : Image) (a n : Nat) : Nat :=
  match i.sections.find? (fun c => decide (c.addr ≤ a) && decide (a < c.addr + c.size)) with
  | some c =>
    leNat ((List.range n).map (fun b =>
      match (c.pages[(a + b - c.addr) / 65536]?).bind (tget s.stage2) with
      | some e => (s.physBytes (physOf e.frame (a + b)) 1).getD 0 0
      | none => 0))
  | none => 0

/-- What the choice of STALL sees of an instruction (R89): its address, the registers it reads and writes, the latency of what it writes,
0 where that is not fixed, whether it transfers control, and where a direct transfer goes. -/
structure PortLine where
  addr : Nat
  reads : List RegRef
  writes : List RegRef
  lam : Nat
  transfer : Bool
  target : Option Nat
  deriving DecidableEq, Repr

/-- Whether an opcode transfers control (R158, R159, R164 to R166, R230, R232, R238). -/
def transfers (op : Nat) : Bool :=
  (decide (0x140 ≤ op) && decide (op < 0x14A)) || op == 0x14C || op == 0x1D8 || op == 0x1D9 || op == 0x1DB

/-- The largest latency that a map of an operand of a width can add (R89, R149). -/
def mapLatency (mapped : Bool) (width : Nat) : Nat := if mapped then (if width = 64 then 6 else 10) else 0

/-- The Choarnif instruction at an address of an image as the choice of STALL sees it (R89, R373): a mapped operand counts with the
largest latency that a map of it can add. -/
def State.portLine (s : State) (i : Image) (a : Nat) : PortLine :=
  let c0 : Word := BitVec.ofNat 32 (s.imageNat i a 4)
  let op := (c0.extractLsb' 0 9).toNat
  match metaOf op with
  | none => ⟨a, [], [], 0, false, none⟩
  | some m =>
    let f := fieldsOfChoarnif m c0 (if c0.getLsbD 9 then some (BitVec.ofNat 32 (s.imageNat i (a + 4) 4)) else none)
    let extra := max (mapLatency f.mae m.aw) (mapLatency f.mbe m.bw)
    ⟨a, (guardRefs f ++ regReads op m f pb0).filter (· != .prd 7), (regWrites op m f pb0).filter (· != .prd 7),
      if m.lam = 0 then 0 else m.lam + extra, transfers op, if m.sig == .br then some ((a : Int) + brOffset f).toNat else none⟩

/-- The cycle by which results have landed: all of them, or those in some registers. -/
def landedBy (due : List (RegRef × Nat)) (only : Option (List RegRef)) : Nat :=
  (due.filter (fun e => match only with | some l => l.contains e.1 | none => true)).foldl (fun n e => max n e.2) 0

/-- The STALLs of instructions in address order, the first of which issues in cycle `t` with results due (R89): the least by which the next
reads no result early; before a label and behind a transfer the least by which all have landed. -/
def stallsFrom (labels : List Nat) : List PortLine → Nat → List (RegRef × Nat) → Tbl Nat
  | [], _, _ => []
  | l :: rest, t, due =>
    let due1 := due ++ (if l.lam = 0 then [] else l.writes.map (fun x => (x, t + l.lam)))
    let by_ := match rest with
      | n :: _ => if l.transfer || labels.contains n.addr then landedBy due1 none else landedBy due1 (some n.reads)
      | [] => landedBy due1 none
    let st := min 15 (by_ - (t + 1))
    (l.addr, st) :: stallsFrom labels rest (t + 1 + st) due1

/-- The code addresses that the kernel descriptors of an image name (R369). -/
def State.imageEntries (s : State) (i : Image) : List Nat :=
  (i.sections.filter (fun c => c.kind == 5)).flatMap (fun c =>
    (List.range (c.size / 64)).flatMap (fun k => [s.imageNat i (c.addr + 64 * k + 8) 8, s.imageNat i (c.addr + 64 * k + 16) 8]))

/-- The STALLs of an image's translation (R89, R376); its labels are the targets of its direct transfers and what its descriptors name.
DESIGN CHOICE: log entry 9. -/
def State.portStalls (s : State) (i : Image) : Tbl Nat :=
  let lines := (i.starts.filter i.inPort).map (s.portLine i)
  stallsFrom (lines.filterMap PortLine.target ++ s.imageEntries i) lines 0 []

/-- CHOARNIF_TRANSLATION (R376): the translation of an image's Choarnif section, begun by the first launch of a kernel of it, is
complete; one that fails changes nothing. -/
def execChoarnifTranslation (image : Nat) (ok : Bool) (s : State) : Host.Outcome State Fault Refusal :=
  match tget s.images image with
  | none => done s
  | some i => done (if ok && i.ported then { s with images := tset s.images image { i with translated := true, stalls := s.portStalls i } } else s)

end Sys2Proof.Machine
end

