-- ==== Sys2Proof/Machine/Dispatch.lean ====
section
/-! DEFINITION. The dispatch of every instruction to its meaning. -/

namespace Sys2Proof.Machine

/-- The step that an instruction or an event takes. -/
def exec (i : Instr) (s : State) : Host.Outcome State Fault Refusal :=
  match i with
  | .iaddS32 f => Sys2Proof.Machine.execIaddS32 f s
  | .iaddN32 f => Sys2Proof.Machine.execIaddN32 f s
  | .isubS32 f => Sys2Proof.Machine.execIsubS32 f s
  | .isubN32 f => Sys2Proof.Machine.execIsubN32 f s
  | .iaddS64 f => Sys2Proof.Machine.execIaddS64 f s
  | .iaddN64 f => Sys2Proof.Machine.execIaddN64 f s
  | .isubS64 f => Sys2Proof.Machine.execIsubS64 f s
  | .isubN64 f => Sys2Proof.Machine.execIsubN64 f s
  | .iaddS16 f => Sys2Proof.Machine.execIaddS16 f s
  | .iaddN16 f => Sys2Proof.Machine.execIaddN16 f s
  | .isubS16 f => Sys2Proof.Machine.execIsubS16 f s
  | .isubN16 f => Sys2Proof.Machine.execIsubN16 f s
  | .iaddS8 f => Sys2Proof.Machine.execIaddS8 f s
  | .iaddN8 f => Sys2Proof.Machine.execIaddN8 f s
  | .isubS8 f => Sys2Proof.Machine.execIsubS8 f s
  | .isubN8 f => Sys2Proof.Machine.execIsubN8 f s
  | .iminS32 f => Sys2Proof.Machine.execIminS32 f s
  | .iminN32 f => Sys2Proof.Machine.execIminN32 f s
  | .imaxS32 f => Sys2Proof.Machine.execImaxS32 f s
  | .imaxN32 f => Sys2Proof.Machine.execImaxN32 f s
  | .icmpS32 f => Sys2Proof.Machine.execIcmpS32 f s
  | .icmpN32 f => Sys2Proof.Machine.execIcmpN32 f s
  | .icmpS64 f => Sys2Proof.Machine.execIcmpS64 f s
  | .icmpN64 f => Sys2Proof.Machine.execIcmpN64 f s
  | .andB f => Sys2Proof.Machine.execAndB f s
  | .orB f => Sys2Proof.Machine.execOrB f s
  | .xorB f => Sys2Proof.Machine.execXorB f s
  | .andnB f => Sys2Proof.Machine.execAndnB f s
  | .notB f => Sys2Proof.Machine.execNotB f s
  | .bitmix f => Sys2Proof.Machine.execBitmix f s
  | .plop f => Sys2Proof.Machine.execPlop f s
  | .prds f => Sys2Proof.Machine.execPrds f s
  | .pwrs f => Sys2Proof.Machine.execPwrs f s
  | .shlN32 f => Sys2Proof.Machine.execShlN32 f s
  | .shrN32 f => Sys2Proof.Machine.execShrN32 f s
  | .shrS32 f => Sys2Proof.Machine.execShrS32 f s
  | .rolN32 f => Sys2Proof.Machine.execRolN32 f s
  | .shlN64 f => Sys2Proof.Machine.execShlN64 f s
  | .shrN64 f => Sys2Proof.Machine.execShrN64 f s
  | .shrS64 f => Sys2Proof.Machine.execShrS64 f s
  | .mov f => Sys2Proof.Machine.execMov f s
  | .mov64 f => Sys2Proof.Machine.execMov64 f s
  | .sel f => Sys2Proof.Machine.execSel f s
  | .sel64 f => Sys2Proof.Machine.execSel64 f s
  | .leaN32 f => Sys2Proof.Machine.execLeaN32 f s
  | .leaN64 f => Sys2Proof.Machine.execLeaN64 f s
  | .imulS32 f => Sys2Proof.Machine.execImulS32 f s
  | .imulN32 f => Sys2Proof.Machine.execImulN32 f s
  | .imulhS32 f => Sys2Proof.Machine.execImulhS32 f s
  | .imulhN32 f => Sys2Proof.Machine.execImulhN32 f s
  | .imulS16 f => Sys2Proof.Machine.execImulS16 f s
  | .imulN16 f => Sys2Proof.Machine.execImulN16 f s
  | .imulS8 f => Sys2Proof.Machine.execImulS8 f s
  | .imulN8 f => Sys2Proof.Machine.execImulN8 f s
  | .imadS32 f => Sys2Proof.Machine.execImadS32 f s
  | .imadN32 f => Sys2Proof.Machine.execImadN32 f s
  | .imadS16 f => Sys2Proof.Machine.execImadS16 f s
  | .imadN16 f => Sys2Proof.Machine.execImadN16 f s
  | .idpS8 f => Sys2Proof.Machine.execIdpS8 f s
  | .idpN8 f => Sys2Proof.Machine.execIdpN8 f s
  | .idpN4 f => Sys2Proof.Machine.execIdpN4 f s
  | .imulS64 f => Sys2Proof.Machine.execImulS64 f s
  | .imulN64 f => Sys2Proof.Machine.execImulN64 f s
  | .imulhS64 f => Sys2Proof.Machine.execImulhS64 f s
  | .imulhN64 f => Sys2Proof.Machine.execImulhN64 f s
  | .idivS32 f => Sys2Proof.Machine.execIdivS32 f s
  | .idivN32 f => Sys2Proof.Machine.execIdivN32 f s
  | .iremS32 f => Sys2Proof.Machine.execIremS32 f s
  | .iremN32 f => Sys2Proof.Machine.execIremN32 f s
  | .idivS64 f => Sys2Proof.Machine.execIdivS64 f s
  | .idivN64 f => Sys2Proof.Machine.execIdivN64 f s
  | .iremS64 f => Sys2Proof.Machine.execIremS64 f s
  | .iremN64 f => Sys2Proof.Machine.execIremN64 f s
  | .popcN32 f => Sys2Proof.Machine.execPopcN32 f s
  | .clzN32 f => Sys2Proof.Machine.execClzN32 f s
  | .ctzN32 f => Sys2Proof.Machine.execCtzN32 f s
  | .brevN32 f => Sys2Proof.Machine.execBrevN32 f s
  | .bfeS32 f => Sys2Proof.Machine.execBfeS32 f s
  | .bfeN32 f => Sys2Proof.Machine.execBfeN32 f s
  | .bfiN32 f => Sys2Proof.Machine.execBfiN32 f s
  | .faddF32 f => Sys2Proof.Machine.execFaddF32 f s
  | .fsubF32 f => Sys2Proof.Machine.execFsubF32 f s
  | .fmulF32 f => Sys2Proof.Machine.execFmulF32 f s
  | .ffmaF32 f => Sys2Proof.Machine.execFfmaF32 f s
  | .fminF32 f => Sys2Proof.Machine.execFminF32 f s
  | .fmaxF32 f => Sys2Proof.Machine.execFmaxF32 f s
  | .fcmpF32 f => Sys2Proof.Machine.execFcmpF32 f s
  | .fclassF32 f => Sys2Proof.Machine.execFclassF32 f s
  | .faddF16 f => Sys2Proof.Machine.execFaddF16 f s
  | .fsubF16 f => Sys2Proof.Machine.execFsubF16 f s
  | .fmulF16 f => Sys2Proof.Machine.execFmulF16 f s
  | .ffmaF16 f => Sys2Proof.Machine.execFfmaF16 f s
  | .fminF16 f => Sys2Proof.Machine.execFminF16 f s
  | .fmaxF16 f => Sys2Proof.Machine.execFmaxF16 f s
  | .fcmpF16 f => Sys2Proof.Machine.execFcmpF16 f s
  | .fclassF16 f => Sys2Proof.Machine.execFclassF16 f s
  | .faddBf16 f => Sys2Proof.Machine.execFaddBf16 f s
  | .fsubBf16 f => Sys2Proof.Machine.execFsubBf16 f s
  | .fmulBf16 f => Sys2Proof.Machine.execFmulBf16 f s
  | .ffmaBf16 f => Sys2Proof.Machine.execFfmaBf16 f s
  | .fminBf16 f => Sys2Proof.Machine.execFminBf16 f s
  | .fmaxBf16 f => Sys2Proof.Machine.execFmaxBf16 f s
  | .fcmpBf16 f => Sys2Proof.Machine.execFcmpBf16 f s
  | .fclassBf16 f => Sys2Proof.Machine.execFclassBf16 f s
  | .faddF64 f => Sys2Proof.Machine.execFaddF64 f s
  | .fsubF64 f => Sys2Proof.Machine.execFsubF64 f s
  | .fmulF64 f => Sys2Proof.Machine.execFmulF64 f s
  | .ffmaF64 f => Sys2Proof.Machine.execFfmaF64 f s
  | .fminF64 f => Sys2Proof.Machine.execFminF64 f s
  | .fmaxF64 f => Sys2Proof.Machine.execFmaxF64 f s
  | .fcmpF64 f => Sys2Proof.Machine.execFcmpF64 f s
  | .fclassF64 f => Sys2Proof.Machine.execFclassF64 f s
  | .faccN4 f => Sys2Proof.Machine.execFaccN4 f s
  | .faccS8 f => Sys2Proof.Machine.execFaccS8 f s
  | .faccN8 f => Sys2Proof.Machine.execFaccN8 f s
  | .faccE2m1 f => Sys2Proof.Machine.execFaccE2m1 f s
  | .faccE4m3 f => Sys2Proof.Machine.execFaccE4m3 f s
  | .faccE5m2 f => Sys2Proof.Machine.execFaccE5m2 f s
  | .cvtF32F16 f => Sys2Proof.Machine.execCvtF32F16 f s
  | .cvtF32Bf16 f => Sys2Proof.Machine.execCvtF32Bf16 f s
  | .cvtF16F32 f => Sys2Proof.Machine.execCvtF16F32 f s
  | .cvtBf16F32 f => Sys2Proof.Machine.execCvtBf16F32 f s
  | .cvtF64F32 f => Sys2Proof.Machine.execCvtF64F32 f s
  | .cvtF32F64 f => Sys2Proof.Machine.execCvtF32F64 f s
  | .cvtF32E4m3 f => Sys2Proof.Machine.execCvtF32E4m3 f s
  | .cvtF32E5m2 f => Sys2Proof.Machine.execCvtF32E5m2 f s
  | .cvtE4m3F32 f => Sys2Proof.Machine.execCvtE4m3F32 f s
  | .cvtE5m2F32 f => Sys2Proof.Machine.execCvtE5m2F32 f s
  | .cvtF32E2m1 f => Sys2Proof.Machine.execCvtF32E2m1 f s
  | .cvtE2m1F32 f => Sys2Proof.Machine.execCvtE2m1F32 f s
  | .cvtF32S32 f => Sys2Proof.Machine.execCvtF32S32 f s
  | .cvtF32N32 f => Sys2Proof.Machine.execCvtF32N32 f s
  | .cvtS32F32 f => Sys2Proof.Machine.execCvtS32F32 f s
  | .cvtN32F32 f => Sys2Proof.Machine.execCvtN32F32 f s
  | .cvtF64S64 f => Sys2Proof.Machine.execCvtF64S64 f s
  | .cvtF64N64 f => Sys2Proof.Machine.execCvtF64N64 f s
  | .cvtS64F64 f => Sys2Proof.Machine.execCvtS64F64 f s
  | .cvtN64F64 f => Sys2Proof.Machine.execCvtN64F64 f s
  | .cvtF64S32 f => Sys2Proof.Machine.execCvtF64S32 f s
  | .cvtS32F64 f => Sys2Proof.Machine.execCvtS32F64 f s
  | .frndF32 f => Sys2Proof.Machine.execFrndF32 f s
  | .frndF64 f => Sys2Proof.Machine.execFrndF64 f s
  | .packF16 f => Sys2Proof.Machine.execPackF16 f s
  | .packBf16 f => Sys2Proof.Machine.execPackBf16 f s
  | .packE4m3 f => Sys2Proof.Machine.execPackE4m3 f s
  | .packE5m2 f => Sys2Proof.Machine.execPackE5m2 f s
  | .packE2m1 f => Sys2Proof.Machine.execPackE2m1 f s
  | .packS16 f => Sys2Proof.Machine.execPackS16 f s
  | .packN16 f => Sys2Proof.Machine.execPackN16 f s
  | .packS8 f => Sys2Proof.Machine.execPackS8 f s
  | .packN8 f => Sys2Proof.Machine.execPackN8 f s
  | .packN4 f => Sys2Proof.Machine.execPackN4 f s
  | .mapld f => Sys2Proof.Machine.execMapld f s
  | .mapclr f => Sys2Proof.Machine.execMapclr f s
  | .mapq f => Sys2Proof.Machine.execMapq f s
  | .shfl f => Sys2Proof.Machine.execShfl f s
  | .bcast f => Sys2Proof.Machine.execBcast f s
  | .rdlane f => Sys2Proof.Machine.execRdlane f s
  | .wrlane f => Sys2Proof.Machine.execWrlane f s
  | .matchN32 f => Sys2Proof.Machine.execMatchN32 f s
  | .matchN64 f => Sys2Proof.Machine.execMatchN64 f s
  | .bra f => Sys2Proof.Machine.execBra f s
  | .call f => Sys2Proof.Machine.execCall f s
  | .jmpi f => Sys2Proof.Machine.execJmpi f s
  | .calli f => Sys2Proof.Machine.execCalli f s
  | .ret f => Sys2Proof.Machine.execRet f s
  | .splice f => Sys2Proof.Machine.execSplice f s
  | .spliceC f => Sys2Proof.Machine.execSpliceC f s
  | .yield f => Sys2Proof.Machine.execYield f s
  | .nop f => Sys2Proof.Machine.execNop f s
  | .exit f => Sys2Proof.Machine.execExit f s
  | .barSync f => Sys2Proof.Machine.execBarSync f s
  | .barArr f => Sys2Proof.Machine.execBarArr f s
  | .barWait f => Sys2Proof.Machine.execBarWait f s
  | .barSet f => Sys2Proof.Machine.execBarSet f s
  | .voteAny f => Sys2Proof.Machine.execVoteAny f s
  | .voteAll f => Sys2Proof.Machine.execVoteAll f s
  | .voteBal f => Sys2Proof.Machine.execVoteBal f s
  | .waitc f => Sys2Proof.Machine.execWaitc f s
  | .waitv f => Sys2Proof.Machine.execWaitv f s
  | .fenceAcq f => Sys2Proof.Machine.execFenceAcq f s
  | .fenceRel f => Sys2Proof.Machine.execFenceRel f s
  | .fenceAr f => Sys2Proof.Machine.execFenceAr f s
  | .ldN8 f => Sys2Proof.Machine.execLdN8 f s
  | .ldS8 f => Sys2Proof.Machine.execLdS8 f s
  | .ldN16 f => Sys2Proof.Machine.execLdN16 f s
  | .ldS16 f => Sys2Proof.Machine.execLdS16 f s
  | .ldN32 f => Sys2Proof.Machine.execLdN32 f s
  | .ldN64 f => Sys2Proof.Machine.execLdN64 f s
  | .ldqN32 f => Sys2Proof.Machine.execLdqN32 f s
  | .stN8 f => Sys2Proof.Machine.execStN8 f s
  | .stN16 f => Sys2Proof.Machine.execStN16 f s
  | .stN32 f => Sys2Proof.Machine.execStN32 f s
  | .stN64 f => Sys2Proof.Machine.execStN64 f s
  | .stqN32 f => Sys2Proof.Machine.execStqN32 f s
  | .pref f => Sys2Proof.Machine.execPref f s
  | .ldt f pb => Sys2Proof.Machine.execLdt f pb s
  | .stt f pb => Sys2Proof.Machine.execStt f pb s
  | .atomAddN32 f => Sys2Proof.Machine.execAtomAddN32 f s
  | .atomAddN64 f => Sys2Proof.Machine.execAtomAddN64 f s
  | .atomAddF32 f => Sys2Proof.Machine.execAtomAddF32 f s
  | .atomAdd2Bf16 f => Sys2Proof.Machine.execAtomAdd2Bf16 f s
  | .atomMinS32 f => Sys2Proof.Machine.execAtomMinS32 f s
  | .atomMinN32 f => Sys2Proof.Machine.execAtomMinN32 f s
  | .atomMinF32 f => Sys2Proof.Machine.execAtomMinF32 f s
  | .atomMaxS32 f => Sys2Proof.Machine.execAtomMaxS32 f s
  | .atomMaxN32 f => Sys2Proof.Machine.execAtomMaxN32 f s
  | .atomMaxF32 f => Sys2Proof.Machine.execAtomMaxF32 f s
  | .atomAndN32 f => Sys2Proof.Machine.execAtomAndN32 f s
  | .atomOrN32 f => Sys2Proof.Machine.execAtomOrN32 f s
  | .atomXorN32 f => Sys2Proof.Machine.execAtomXorN32 f s
  | .atomIncN32 f => Sys2Proof.Machine.execAtomIncN32 f s
  | .atomDecN32 f => Sys2Proof.Machine.execAtomDecN32 f s
  | .atomCaddF32 f => Sys2Proof.Machine.execAtomCaddF32 f s
  | .atomXchgN32 f => Sys2Proof.Machine.execAtomXchgN32 f s
  | .atomXchgN64 f => Sys2Proof.Machine.execAtomXchgN64 f s
  | .atomCasN32 f => Sys2Proof.Machine.execAtomCasN32 f s
  | .atomCasN64 f => Sys2Proof.Machine.execAtomCasN64 f s
  | .redAddN32 f => Sys2Proof.Machine.execRedAddN32 f s
  | .redAddN64 f => Sys2Proof.Machine.execRedAddN64 f s
  | .redAddF32 f => Sys2Proof.Machine.execRedAddF32 f s
  | .redAdd2Bf16 f => Sys2Proof.Machine.execRedAdd2Bf16 f s
  | .redMinS32 f => Sys2Proof.Machine.execRedMinS32 f s
  | .redMinN32 f => Sys2Proof.Machine.execRedMinN32 f s
  | .redMinF32 f => Sys2Proof.Machine.execRedMinF32 f s
  | .redMaxS32 f => Sys2Proof.Machine.execRedMaxS32 f s
  | .redMaxN32 f => Sys2Proof.Machine.execRedMaxN32 f s
  | .redMaxF32 f => Sys2Proof.Machine.execRedMaxF32 f s
  | .redAndN32 f => Sys2Proof.Machine.execRedAndN32 f s
  | .redOrN32 f => Sys2Proof.Machine.execRedOrN32 f s
  | .redXorN32 f => Sys2Proof.Machine.execRedXorN32 f s
  | .redIncN32 f => Sys2Proof.Machine.execRedIncN32 f s
  | .redDecN32 f => Sys2Proof.Machine.execRedDecN32 f s
  | .redCaddF32 f => Sys2Proof.Machine.execRedCaddF32 f s
  | .sfqExp2 f => Sys2Proof.Machine.execSfqExp2 f s
  | .sfqLog2 f => Sys2Proof.Machine.execSfqLog2 f s
  | .sfqRcp f => Sys2Proof.Machine.execSfqRcp f s
  | .sfqRsq f => Sys2Proof.Machine.execSfqRsq f s
  | .sfqSqrt f => Sys2Proof.Machine.execSfqSqrt f s
  | .sfqSin f => Sys2Proof.Machine.execSfqSin f s
  | .sfqCos f => Sys2Proof.Machine.execSfqCos f s
  | .sfqTanh f => Sys2Proof.Machine.execSfqTanh f s
  | .sfqSigm f => Sys2Proof.Machine.execSfqSigm f s
  | .sfqErf f => Sys2Proof.Machine.execSfqErf f s
  | .sfqRd f => Sys2Proof.Machine.execSfqRd f s
  | .waitk f => Sys2Proof.Machine.execWaitk f s
  | .cprun f => Sys2Proof.Machine.execCprun f s
  | .cpcmd f pb => Sys2Proof.Machine.execCpcmd f pb s
  | .cpq f => Sys2Proof.Machine.execCpq f s
  | .gcall f => Sys2Proof.Machine.execGcall f s
  | .gret f => Sys2Proof.Machine.execGret f s
  | .sread f => Sys2Proof.Machine.execSread f s
  | .tret f => Sys2Proof.Machine.execTret f s
  | .trecRd f => Sys2Proof.Machine.execTrecRd f s
  | .trecWr f => Sys2Proof.Machine.execTrecWr f s
  | .sysrd f => Sys2Proof.Machine.execSysrd f s
  | .syswr f => Sys2Proof.Machine.execSyswr f s
  | .cinv f => Sys2Proof.Machine.execCinv f s
  | .halt f => Sys2Proof.Machine.execHalt f s
  | .resultLands rope => Sys2Proof.Machine.execResultLands rope s
  | .loadComplete rope => Sys2Proof.Machine.execLoadComplete rope s
  | .storePerformed rope => Sys2Proof.Machine.execStorePerformed rope s
  | .sfuResultDelivery entry => Sys2Proof.Machine.execSfuResultDelivery entry s
  | .sfqRdWrite rope => Sys2Proof.Machine.execSfqRdWrite rope s
  | .mapldComplete slot err => Sys2Proof.Machine.execMapldComplete slot err s
  | .ropePhase rope => Sys2Proof.Machine.execRopePhase rope s
  | .gatherTimeout wg quad => Sys2Proof.Machine.execGatherTimeout wg quad s
  | .trapDelivery rope => Sys2Proof.Machine.execTrapDelivery rope s
  | .copyFault ctx cause reason => Sys2Proof.Machine.execCopyFault ctx cause reason s
  | .gateBudgetExpiry rope => Sys2Proof.Machine.execGateBudgetExpiry rope s
  | .copyXfer w sh => Sys2Proof.Machine.execCopyXfer w sh s
  | .copyFill w sh => Sys2Proof.Machine.execCopyFill w sh s
  | .copySete w => Sys2Proof.Machine.execCopySete w s
  | .copyAdde w => Sys2Proof.Machine.execCopyAdde w s
  | .copyLoop w => Sys2Proof.Machine.execCopyLoop w s
  | .copySems w => Sys2Proof.Machine.execCopySems w s
  | .copySemw w => Sys2Proof.Machine.execCopySemw w s
  | .copyBarr w => Sys2Proof.Machine.execCopyBarr w s
  | .copyDone w => Sys2Proof.Machine.execCopyDone w s
  | .copyEnd w => Sys2Proof.Machine.execCopyEnd w s
  | .kick stream v => Sys2Proof.Machine.execKick stream v s
  | .doorbellKick vf off size v => Sys2Proof.Machine.execDoorbellKick vf off size v s
  | .fctl stream v => Sys2Proof.Machine.execFctl stream v s
  | .decodeRecheck stream => Sys2Proof.Machine.execDecodeRecheck stream s
  | .tnop t => Sys2Proof.Machine.execTnop t s
  | .trun t => Sys2Proof.Machine.execTrun t s
  | .trunp t => Sys2Proof.Machine.execTrunp t s
  | .tcopy t => Sys2Proof.Machine.execTcopy t s
  | .tfill t => Sys2Proof.Machine.execTfill t s
  | .tbind t => Sys2Proof.Machine.execTbind t s
  | .texport t => Sys2Proof.Machine.execTexport t s
  | .tfree t => Sys2Proof.Machine.execTfree t s
  | .tsig t => Sys2Proof.Machine.execTsig t s
  | .twait t => Sys2Proof.Machine.execTwait t s
  | .tfence t => Sys2Proof.Machine.execTfence t s
  | .tinval t => Sys2Proof.Machine.execTinval t s
  | .tgate t => Sys2Proof.Machine.execTgate t s
  | .tend t => Sys2Proof.Machine.execTend t s
  | .taskIssue stream task => Sys2Proof.Machine.execTaskIssue stream task s
  | .prologueRepeat stream task => Sys2Proof.Machine.execPrologueRepeat stream task s
  | .taskComplete stream task => Sys2Proof.Machine.execTaskComplete stream task s
  | .taskRetire stream => Sys2Proof.Machine.execTaskRetire stream s
  | .taskFault stream task f => Sys2Proof.Machine.execTaskFault stream task f s
  | .mapintRetry stream task => Sys2Proof.Machine.execMapintRetry stream task s
  | .twaitSatisfied stream task => Sys2Proof.Machine.execTwaitSatisfied stream task s
  | .twaitPoll stream task => Sys2Proof.Machine.execTwaitPoll stream task s
  | .twaitLimit stream task => Sys2Proof.Machine.execTwaitLimit stream task s
  | .taskBudgetExpiry stream task => Sys2Proof.Machine.execTaskBudgetExpiry stream task s
  | .streamMap stream => Sys2Proof.Machine.execStreamMap stream s
  | .streamPriorityAging stream => Sys2Proof.Machine.execStreamPriorityAging stream s
  | .streamStop stream => Sys2Proof.Machine.execStreamStop stream s
  | .workgroupPlace wg => Sys2Proof.Machine.execWorkgroupPlace wg s
  | .wgPriorityAging wg => Sys2Proof.Machine.execWgPriorityAging wg s
  | .priorityBoost rope unit => Sys2Proof.Machine.execPriorityBoost rope unit s
  | .yieldSkipEnd rope unit => Sys2Proof.Machine.execYieldSkipEnd rope unit s
  | .preemptRequest did cores => Sys2Proof.Machine.execPreemptRequest did cores s
  | .ropeSave rope => Sys2Proof.Machine.execRopeSave rope s
  | .forcedSave rope => Sys2Proof.Machine.execForcedSave rope s
  | .imageEvent wg e => Sys2Proof.Machine.execImageEvent wg e s
  | .workgroupRestore wg core => Sys2Proof.Machine.execWorkgroupRestore wg core s
  | .waitvWake rope => Sys2Proof.Machine.execWaitvWake rope s
  | .waitvPoll rope => Sys2Proof.Machine.execWaitvPoll rope s
  | .mtlbTranslate log => Sys2Proof.Machine.execMtlbTranslate log s
  | .faultResolve log d => Sys2Proof.Machine.execFaultResolve log d s
  | .replay log => Sys2Proof.Machine.execReplay log s
  | .pluginTimeout log => Sys2Proof.Machine.execPluginTimeout log s
  | .pagePin wg page => Sys2Proof.Machine.execPagePin wg page s
  | .l2Eviction asid line => Sys2Proof.Machine.execL2Eviction asid line s
  | .mapSelfTest core quad arr bad => Sys2Proof.Machine.execMapSelfTest core quad arr bad s
  | .scrChange core scr => Sys2Proof.Machine.execScrChange core scr s
  | .handleUpdate did idx e => Sys2Proof.Machine.execHandleUpdate did idx e s
  | .gateTableUpdate did g e => Sys2Proof.Machine.execGateTableUpdate did g e s
  | .stage2Change page e move => Sys2Proof.Machine.execStage2Change page e move s
  | .scrubComplete frame => Sys2Proof.Machine.execScrubComplete frame s
  | .retireSweep asid => Sys2Proof.Machine.execRetireSweep asid s
  | .calCtl part v => Sys2Proof.Machine.execCalCtl part v s
  | .calendarPeriodStart part => Sys2Proof.Machine.execCalendarPeriodStart part s
  | .calendarSlotBoundary part slot => Sys2Proof.Machine.execCalendarSlotBoundary part slot s
  | .registerWrite r v => Sys2Proof.Machine.execRegisterWrite r v s
  | .partitionReset part => Sys2Proof.Machine.execPartitionReset part s
  | .coldReset => Sys2Proof.Machine.execColdReset s
  | .warmReset => Sys2Proof.Machine.execWarmReset s
  | .dieOffline die => Sys2Proof.Machine.execDieOffline die s
  | .dieReturn die => Sys2Proof.Machine.execDieReturn die s
  | .getVersion hub => Sys2Proof.Machine.execGetVersion hub s
  | .getCapabilities hub => Sys2Proof.Machine.execGetCapabilities hub s
  | .negotiateAlgorithms hub a => Sys2Proof.Machine.execNegotiateAlgorithms hub a s
  | .getDigests hub => Sys2Proof.Machine.execGetDigests hub s
  | .getCertificate hub slot => Sys2Proof.Machine.execGetCertificate hub slot s
  | .challenge hub nonce => Sys2Proof.Machine.execChallenge hub nonce s
  | .getMeasurements hub idx did => Sys2Proof.Machine.execGetMeasurements hub idx did s
  | .keyExchange hub mutualAuth => Sys2Proof.Machine.execKeyExchange hub mutualAuth s
  | .finish hub => Sys2Proof.Machine.execFinish hub s
  | .endSession hub => Sys2Proof.Machine.execEndSession hub s
  | .keyset hub r => Sys2Proof.Machine.execKeyset hub r s
  | .keydel hub idx did => Sys2Proof.Machine.execKeydel hub idx did s
  | .measurementChange idx did digest => Sys2Proof.Machine.execMeasurementChange idx did digest s
  | .ethernetFrame port macsecOk f => Sys2Proof.Machine.execEthernetFrame port macsecOk f s
  | .launchPacket port sci p => Sys2Proof.Machine.execLaunchPacket port sci p s
  | .tdiError did => Sys2Proof.Machine.execTdiError did s
  | .correctableError w => Sys2Proof.Machine.execCorrectableError w s
  | .uncorrectableError l w => Sys2Proof.Machine.execUncorrectableError l w s
  | .fatalError part shared w => Sys2Proof.Machine.execFatalError part shared w s
  | .blackBoxRead hub idx => Sys2Proof.Machine.execBlackBoxRead hub idx s
  | .thermalTrip w => Sys2Proof.Machine.execThermalTrip w s
  | .mapDutyUpdate d => Sys2Proof.Machine.execMapDutyUpdate d s
  | .schedulerReplace digest => Sys2Proof.Machine.execSchedulerReplace digest s
  | .dzoLoad did file => Sys2Proof.Machine.execDzoLoad did file s
  | .dzoUnload image => Sys2Proof.Machine.execDzoUnload image s
  | .choarnifTranslation image ok => Sys2Proof.Machine.execChoarnifTranslation image ok s
  | .nativeSwitch rope => Sys2Proof.Machine.execNativeSwitch rope s
  | .tdispRequest did r => Sys2Proof.Machine.execTdispRequest did r s
  | .ideKm hub stream key => Sys2Proof.Machine.execIdeKm hub stream key s
  | .hostWrite space addr bytes => Sys2Proof.Machine.execHostWrite space addr bytes s
  | .coreMaskAdd did cores => Sys2Proof.Machine.execCoreMaskAdd did cores s

end Sys2Proof.Machine
end

