-- ==== Sys2Proof/Machine/Choose.lean ====
section
/-! DEFINITION. How the machine moves: fetching the next word of a rope (R301), a copy program (R211) or a stream (R240), the
choice of the next agent (R322 to R324, and free choice where the manual gives no order), and the passing of a core cycle (R325
to R328). -/

namespace Sys2Proof.Machine

/-! Fetch. -/

/-- Bytes of one line of code as a rope's fetch finds them: in its core's instruction levels, else through the line's home (R300). -/
def State.lineBytes (s : State) (r : Rope) (va n : Nat) : List Byte :=
  match s.codeLine (s.coreOf r) r.asid (va / 128) with
  | some l => (l.bytes.drop (va % 128)).take n
  | none =>
    match s.lookup r.asid va .fetch with
    | .ok f _ _ _ => s.physBytes (physOf f va) n
    | _ => List.replicate n 0

/-- Bytes of code at an address, at most a line of them. -/
def State.instrBytes (s : State) (r : Rope) (va n : Nat) : List Byte :=
  let m := 128 - va % 128
  if n ≤ m then s.lineBytes r va n else s.lineBytes r va m ++ s.lineBytes r (va + m) (n - m)

/-- The raw first word of the instruction at an address, for IW of a trap record (R236). -/
def State.rawIw (s : State) (r : Rope) (pc : Nat) : DWord := BitVec.ofNat 64 (leNat (s.instrBytes r pc r.codeUnit))

/-- The length in bytes of the instruction at an address, from its first word (R59, R374). -/
def State.lengthAt (s : State) (r : Rope) (pc : Nat) : Nat :=
  let w := s.rawIw r pc
  if r.port then 4 + (if w.getLsbD 9 then 4 else 0) else iwLength w

/-- The instruction at an address (R59, R373). -/
noncomputable def State.decodeAt (s : State) (r : Rope) (pc : Nat) : Except DecodeErr Instr :=
  let bs := s.instrBytes r pc (s.lengthAt r pc)
  if r.port then
    let half (o : Nat) : Word := BitVec.ofNat 32 (leNat ((bs.drop o).take 4))
    decodeChoarnif (half 0) (if (half 0).getLsbD 9 then some (half 4) else none)
  else decodeWords (wordsOfBytes bs)

/-- What is in the way of fetching a unit's next instruction (R78, R79, R301; R256 for a prologue): the faults of its first word, its
start bit, the faults of its further words, and a start bit of one of those. DEDUCED: log entry 10. -/
def State.fetchCheck (s : State) (k u : Nat) (r : Rope) : FetchRes :=
  let pc := r.unitPc u
  match s.targetAt k u r pc with
  | .ok =>
    let n := s.lengthAt r pc.toNat
    match s.fetchAt k u r pc n with
    | .ok =>
      match (List.range (n / r.codeUnit)).find? (fun i => i != 0 && s.startAt r (pc.toNat + r.codeUnit * i)) with
      | some i => .fault (2, 0, 0, 0, pc + BitVec.ofNat 64 (r.codeUnit * i))
      | none => .ok
    | z => z
  | z => z

/-- What a unit's fetch comes to. -/
inductive Fetched where
  | instr (i : Instr)
  | trap (q : TrapReq)
  | ask (reason va : Nat)
  | wait

/-- ACTIVE of an instruction that does not decode: its guard stands in its first word (R69, R396). -/
def State.rawActive (s : State) (r : Rope) (u : Nat) : Word :=
  let w := s.rawIw r (r.unitPc u).toNat
  let pg := if r.port then (w.extractLsb' 28 3).toNat else (w.extractLsb' 48 3).toNat
  r.unitLanes u &&& (if w.getLsbD (if r.port then 31 else 51) then ~~~(r.pr pg) else r.pr pg)

/-- The unit's next instruction, or what it meets instead (R79); a fault of the fetch is against the unit's ACTIVE set where the guard can be
read in the first word (R69, R396), else against its active lanes. DEDUCED: log entry 10. -/
noncomputable def State.fetch (s : State) (k u : Nat) (r : Rope) : Fetched :=
  match s.fetchCheck k u r with
  | .fault q =>
    let lanes := if s.fetchAt k u r (r.unitPc u) r.codeUnit == .ok then s.rawActive r u else r.unitLanes u
    .trap ⟨q.1, q.2.1, lanes, q.2.2.1, q.2.2.2.1, q.2.2.2.2⟩
  | .miss reason va => .ask reason va
  | .asked => .wait
  | .ok =>
    match s.decodeAt r (r.unitPc u).toNat with
    | .ok i => .instr i
    | .error _ => .trap ⟨1, 1, s.rawActive r u, 0, 0, 0⟩

/-- A trap of fetch or decode taken (R235): it uses the quadrant's opportunity; RPC of ENTRY is FPC (R78). DEDUCED: log entry 10. -/
def State.fetchRaise (s : State) (k u : Nat) (r : Rope) (q : TrapReq) : State :=
  let pc := r.unitPc u
  let next := if q.cause = 2 then pc else pc + BitVec.ofNat 64 (s.lengthAt r pc.toNat)
  let s1 := (s.spend (s.coreOf r) r.quad 0).setRope k (r.used (r.unitStrands u))
  { s1.takeTrap k u (r.record q pc next (s.rawIw r pc.toNat) false false) none trapFuel with turn := .choose }

/-! The instruction levels. -/

/-- Room among the code lines that `sel` selects, at most `cap` of them: one that a free choice names becomes what `f` leaves of it.
DESIGN CHOICE: log entry 46. -/
def State.codeRoom (s : State) (sel : CodeLine → Bool) (cap : Nat) (f : CodeLine → Option CodeLine) : State :=
  let held := s.code.filter sel
  if held.length < cap then s
  else
    let (n, s1) := s.draw
    match held[n % held.length]? with
    | some v => { s1 with code := s1.code.filterMap (fun l => if l = v then f l else some l) }
    | none => s1

/-- The state with a code line put in place of the line with its tag. -/
def State.putCode (s : State) (l : CodeLine) : State :=
  { s with code := l :: s.code.filter (fun m => !(m.cluster == l.cluster && m.asid == l.asid && m.line == l.line)) }

/-- The start bits of a line of an ASID's code as its images have them now (R300, R368): offsets, and whether in a Choarnif section. -/
def State.lineStarts (s : State) (did : BitVec 16) (line : Nat) : List (Nat × Bool) :=
  s.images.flatMap (fun (_, i) =>
    if i.did == did then (i.starts.filter (fun a => a / 128 == line)).map (fun a => (a % 128, i.inPort a)) else [])

/-- A line of code enters a quadrant's line buffer of 4 lines, its core's L1 instruction cache of 512 and its cluster's MLIC of 8,192
(R300): an MLIC miss reads it through its home, where update-only copies are recalled (R297), with its start bits; what leaves a level
leaves the levels above. -/
def State.takeCode (s : State) (r : Rope) (line : Nat) : State :=
  let c := s.coreOf r
  let q := quadKey c r.quad
  let enter (u : State) (l : CodeLine) : State :=
    let u1 := if l.l1i.contains c then u
      else u.codeRoom (fun m => m.l1i.contains c) 512 (fun m =>
        some { m with l1i := m.l1i.filter (fun i => i != c), bufs := m.bufs.filter (fun i => i / 4 != c) })
    let u2 := u1.codeRoom (fun m => m.bufs.contains q) 4 (fun m => some { m with bufs := m.bufs.filter (fun i => i != q) })
    u2.putCode { l with l1i := if l.l1i.contains c then l.l1i else c :: l.l1i, bufs := q :: l.bufs }
  match s.codeLine c r.asid line with
  | some l => if l.bufs.contains q then s else enter s l
  | none =>
    match s.xlate (s.codeTarget r) (128 * line) .fetch with
    | (.ok f _ _ _, s1) =>
      enter ((s1.recallPhys (physOf f (128 * line)) 128).codeRoom (fun m => m.cluster == c / 32) 8192 (fun _ => none))
        ⟨c / 32, r.asid, line, s1.physBytes (physOf f (128 * line)) 128, s1.lineStarts r.did line, [], []⟩
    | (_, _) => s

/-- Whether a prologue's next instruction, which its sequencer reads (R256), lies in a poisoned line, or its translation does (R357). -/
def State.proPoisoned (s : State) (u : Nat) (r : Rope) : Bool :=
  let a := (r.unitPc u).toNat
  s.isPro r && s.startAt r a && [a, a + s.lengthAt r a - 1].any (fun va =>
    match s.lookup r.asid va .fetch with
    | .ok f _ _ _ => s.poisoned (physOf f va)
    | _ => (match s.stage1 r.asid va with | .error e => e == poisonReason | .ok _ => false))

/-- The lines of the instruction that a unit is about to run are in the instruction levels (R300); a prologue is fetched by its
sequencer, at the homes (R256). -/
def State.fetchFill (s : State) (u : Nat) (r : Rope) : State :=
  let a := (r.unitPc u).toNat
  if s.isPro r then s.codeRead r.asid a (s.lengthAt r a)
  else
    let b := a + s.lengthAt r a - 1
    let s1 := s.takeCode r (a / 128)
    if b / 128 = a / 128 then s1 else s1.takeCode r (b / 128)

/-! The turns of ropes, copy contexts and streams. -/

/-- An agent that had the turn and has not moved gives it back. DESIGN CHOICE: log entry 1. -/
def yieldTurn (t : Turn) : Host.Outcome State Fault Refusal → Host.Outcome State Fault Refusal
  | .next s => .next (if s.turn = t then { s with turn := .choose } else s)
  | o => o

/-- A rope unit's turn: the instruction at its PC, the trap of its fetch, or the request for a translation (R306); a poisoned line that a
sequencer reads so is fatal for the partition (R357). -/
noncomputable def State.runRope (s : State) : Host.Outcome State Fault Refusal :=
  match tget s.ropes s.cur with
  | none => done s
  | some r =>
    if r.unitLanes s.curUnit = 0 then done s
    else if s.proPoisoned s.curUnit r then done (s.fatalFor (s.domain r.did).part)
    else
      match s.fetch s.cur s.curUnit r with
      | .instr i => exec i (s.fetchFill s.curUnit r)
      | .trap q => .next (s.fetchRaise s.cur s.curUnit r q)
      | .ask reason va => done (s.askFetch s.cur s.curUnit r reason va)
      | .wait => .next s

/-- The words of a context that runs a byte run or a task's command: the move, the completion word, END (R209, R257). -/
noncomputable def CopyCtx.next (c : CopyCtx) : Option Instr :=
  let zero : Shape := ⟨0, 0, 0, 0, 0, 0, 0, 0, 0, 0, 0, 0⟩
  match c.own, c.cmd with
  | some (co, v, sh), _ =>
    if c.pc = c.start then some (if co = 2 then .copyFill ⟨0, 0, v⟩ sh else .copyXfer ⟨0, 0, 0⟩ sh) else some (.copyEnd ⟨0, 0, 0⟩)
  | none, some d =>
    if c.pc = c.start then some (.copyXfer ⟨0, 0, 0⟩ zero)
    else if c.pc = c.start + 56 ∧ d.doneAddr ≠ 0xFFFFFFFF then some (.copyDone ⟨0, 0, d.doneAddr⟩)
    else some (.copyEnd ⟨0, 0, 0⟩)
  | none, none => none

/-- A copy context's turn: its next word; one that is not a copy word is a copy fault ILL (R211). A word that cannot be fetched waits
for the Herey controller; one in a poisoned line is a copy fault (R216, R357). Update-only copies of what is read are recalled (R297). -/
noncomputable def State.runCopy (s : State) : Host.Outcome State Fault Refusal :=
  match tget s.ctxs s.curCtx with
  | none => done s
  | some c =>
    match c.next with
    | some i => exec i s
    | none =>
      match s.copyFetchFault c with
      | some (cause, r, va) => if 16 ≤ r then done (s.copyFault s.curCtx cause (r - 16) (BitVec.ofNat 64 va)) else .next s
      | none =>
        match decodeCopy (s.copyWordAt c).1 (s.copyWordAt c).2 with
        | .ok i => exec i (s.codeRead (s.domain c.did).asid c.pc.toNat (copyLen (s.copyWordAt c).1))
        | .error _ => done (s.copyFault s.curCtx 1 1)

/-- The task at a stream's decode index, of the units that have been read (R243, R246, R247). -/
noncomputable def State.taskAt (s : State) (t : Stream) : Except DecodeErr Instr :=
  decodeTask (s.entryAt t 0) ((List.range (s.extAt t)).map (fun i => s.entryAt t (1 + i)))

/-- The TILL reason of a task that does not decode (R246, R247): TOP, EXT, or RESERVED for a nonzero X0. -/
def tillReason (top ext : Nat) : Nat :=
  if !([0, 1, 2, 3, 4, 5, 6, 7, 8, 9, 10, 11, 12, 15] : List Nat).contains top then 1
  else if (if top = 1 ∨ top = 2 then false else if top = 3 ∨ top = 4 then ext != 1 else ext != 0) then 3
  else 2

/-- A stream's turn: the task at its decode index, or the task fault TILL. -/
noncomputable def State.runStream (s : State) : Host.Outcome State Fault Refusal :=
  match tget s.streams s.curStream with
  | none => done s
  | some t =>
    match s.taskAt t with
    | .ok i => exec i s
    | .error _ =>
      let top := ((entryWord (s.entryAt t 0) 0).extractLsb' 0 8).toNat
      .next (s.decodeFault s.curStream t.decode (1 + s.extAt t) top 1 (tillReason top (s.extAt t)) 0)

/-! What is due before anything else. -/

/-- The state with an event to take next. -/
def State.take (s : State) (i : Instr) : State := { s with turn := .event i }

/-- A workgroup that has ended leaves its core (R166, R255); what its stream's sequencer does from now on comes behind what its ropes
have done (R282). -/
def State.endWg (s : State) (k : Nat) (w : Workgroup) : State :=
  let s1 := w.ropes.foldl (fun (u : State) j => u.passesOn (.rope j) (.stream w.stream)) (s.freeSlots w)
  match tget s1.wgs k with
  | none => { s1 with turn := .choose }
  | some v =>
    { s1.setWg k { v with state := .ended, slotMap := [], pinned := [] } with
      log := s1.log.filter (fun e => !(e.wg == k && e.kind == 3)), turn := .choose }

/-- What a workgroup's state is due: a prologue's verdict (R256), its end (R166, R255) once its arrays have been tested (R151), its image
(R332). -/
def State.wgDuty (s : State) : Option State :=
  s.wgs.findSome? (fun (k, w) =>
    if w.state ≠ .resident ∧ w.state ≠ .saving then none
    else if s.past w then
      if !s.settled k w || s.untestedFor k w then none
      else if w.pro.isSome then some (s.verdict k)
      else some (s.endWg k w)
    else if w.state = .saving && s.allSaved k w then some (s.toImage k)
    else none)

/-- Whether a rope is on a core and runs: not saved, its workgroup resident or saving. -/
def State.onDuty (s : State) (k : Nat) (r : Rope) : Bool :=
  match tget s.wgs r.wg with
  | some w => (w.state == .resident || w.state == .saving) && !w.marked.contains k && !r.ended
  | none => false

/-- A candidate whose counts have become clear joins the gathering (R168). -/
def State.candDuty (s : State) : Option State :=
  s.ropes.findSome? (fun (k, r) =>
    match r.cand with
    | some (a, 0) => if s.onDuty k r && r.countsClear then some (s.setRope k { r with cand := some (a, s.cycOf r + 1) }) else none
    | _ => none)

/-- A rope whose strands have all arrived at a barrier arrives there, once none of its accesses is logged (R170, R282). -/
def State.barDuty (s : State) : Option State :=
  s.ropes.findSome? (fun (k, r) =>
    if s.logs k then none else ((List.range 16).find? r.comes).map (fun b => s.barRope k b))

/-- Whether a rope has come to the point at which it is to be saved (R33, R332): quiescent, or past the timeout. It issues no
further. -/
def State.stops (s : State) (k : Nat) (r : Rope) : Bool :=
  match tget s.wgs r.wg with
  | some w => w.state == .saving && !w.marked.contains k && (r.quiescent || s.saveDue w)
  | none => false

/-- The event that a rope is due: results that land, a budget that ends, a trap at a boundary, unless the rope is to be saved there first
(R307), a rope phase, a gathering, its saving, the switch to native code, the steps of its quadrant's scheduler. -/
noncomputable def State.ropeDuty (s : State) : Option Instr :=
  s.ropes.findSome? (fun (k, r) =>
    if !s.onDuty k r then none
    else if r.inflight.any (fun p => decide (p.due ≤ s.cycOf r)) then some (.resultLands k)
    else if (match r.frame with | some fr => (match fr.budgetNs with | some d => decide (d ≤ s.etime) | none => false) | none => false)
    then some (.gateBudgetExpiry k)
    else if !r.held.isEmpty && r.trap.isNone && !s.stops k r then some (.trapDelivery k)
    else if r.phaseDone then some (.ropePhase k)
    else if (s.gatherDue r.wg r.quad).isSome then some (.gatherTimeout r.wg r.quad)
    else if s.stops k r && s.idle k r then some (if r.quiescent then .ropeSave k else .forcedSave k)
    else if r.port && !r.onNative && r.quiescent && r.inflight.isEmpty && s.translated r.did (r.unitPc r.headUnit) then
      some (.nativeSwitch k)
    else
      match r.units.find? (fun u => decide (4096 ≤ (r.schedOf u).starve)) with
      | some u => some (.priorityBoost k u)
      | none => (r.units.find? (fun u => (r.schedOf u).skip == 1)).map (fun u => .yieldSkipEnd k u))

/-- Whether something runs for the tasks of a stream from an index on. -/
def State.running (s : State) (key idx : Nat) : Bool :=
  s.wgs.any (fun (_, w) => w.stream == key && decide (idx ≤ w.task)) ||
    s.ctxs.any (fun (_, c) => match c.task with | some (k, i) => k == key && decide (idx ≤ i) | none => false)

/-- Whether the sequencer can go on with a fault that has been raised (R270): it awaits the older tasks, then the stores and atomics
that the tasks to be discarded have issued. -/
def State.faultReady (s : State) (q : FaultReq) : Bool :=
  match tget s.streams q.stream with
  | none => true
  | some t => t.state != .faulted || t.faultIdx != q.task || t.recorded || !t.names q.task ||
      (!(t.mapped && t.window.any (fun k => decide (k.idx < q.task))) &&
        (s.running q.stream q.task || !s.owes q.stream (fun i => decide (q.task ≤ i))))

/-- The event that a stream is due: it cannot be mapped (R244), its priority rises (R316), a limit or budget has elapsed (R261,
R321). -/
noncomputable def State.streamDuty (s : State) : Option Instr :=
  s.streams.findSome? (fun (key, t) =>
    if t.pending && !s.mappable t then some (.streamMap key)
    else if t.pending && decide (t.eff < max (s.prioOf t) (s.pcapOf t)) && decide (t.eff < s.prioOf t + (s.etime - t.since) / 1000000) then
      some (.streamPriorityAging key)
    else
      match t.window.find? (fun k => k.state == .issued && !s.faulting key k.idx && k.top == 9 && k.w.t6 != 0 &&
          decide (k.issueNs + 1000 * k.w.t6.toNat ≤ s.etime)) with
      | some k => some (.twaitLimit key k.idx)
      | none =>
        (t.window.find? (fun k => k.state == .issued && !s.faulting key k.idx && t.mbudget != 0 &&
          decide (k.issueNs + 1000 * t.mbudget.toNat < s.etime))).map (fun k => .taskBudgetExpiry key k.idx))

/-- The workgroup whose priority is due to rise (R320). -/
noncomputable def State.agingDuty (s : State) : Option Instr :=
  s.wgs.findSome? (fun (k, w) =>
    if w.state == .unplaced && decide (w.since + 1000000 ≤ s.etime) &&
        (match tget s.streams w.stream with | some t => decide (w.prio < t.topPrio) | none => false) then some (.wgPriorityAging k)
    else none)

/-- The first slot, counted from ETIME 0, that some core of a partition is still in (R326). -/
def State.firstSlot (s : State) (p : Nat) : Nat :=
  match leastOf ((s.cores.filter (fun (c, _) => s.corePart c == some p)).map (fun e => e.2.slotNow)) with
  | some n => n
  | none => s.etime / 32

/-- The calendar step that is due (R326), once every core of the partition has come to it. -/
noncomputable def State.calDuty (s : State) : Option Instr :=
  s.calendars.findSome? (fun (p, c) =>
    if c.now / 64 < s.firstSlot p / 64 then some (.calendarPeriodStart p)
    else if c.now < s.firstSlot p then some (.calendarSlotBoundary p (s.firstSlot p % 64))
    else none)

/-- The self-test that an idle array is due (R151), whatever the cycle. -/
noncomputable def State.testDuty (s : State) : Option Instr :=
  s.arrays.findSome? (fun (k, a) =>
    if s.testForced a && decide (a.busy ≤ (s.core (k / 8)).cyc) then some (.mapSelfTest (k / 8) (k / 2 % 4) (k % 2) 0) else none)

/-- The measurement that is to be taken again (R344, R346): of a domain's policy, or of the repair maps. -/
noncomputable def State.measureDuty (s : State) : Option Instr :=
  match s.stale with
  | d :: _ => some (.measurementChange 5 d (s.policyDigest d))
  | [] => if s.repaired then some (.measurementChange 1 0 (repairDigest s.repairs)) else none

/-- The requests of R331 that have become complete are reported. -/
def State.preemptDuty (s : State) : Option State :=
  let t := s.settlePreempts
  if t.preempts.length < s.preempts.length then some t else none

/-- The first answer of a list of questions asked in order. -/
def firstOf {α : Type} : List (Option α) → Option α
  | [] => none
  | some x :: _ => some x
  | none :: l => firstOf l

/-- A fatal error (R357), or a fault that its sequencer can go on with (R270). -/
noncomputable def State.faultDuty (s : State) : Option Instr :=
  firstOf [
    s.fatals.head?.map (fun p => .fatalError p false ⟨2, 8, BitVec.ofNat 4 p, 0, 0, 0⟩),
    (s.faults.find? s.faultReady).map (fun q => .taskFault q.stream q.task q.fault)]

/-- Any other event that is due. -/
noncomputable def State.eventDuty (s : State) : Option Instr :=
  firstOf [s.calDuty, s.measureDuty, s.testDuty, s.ropeDuty, s.streamDuty, s.agingDuty]

/-- The step that is due before any agent may move, if there is one. -/
noncomputable def State.duty? (s : State) : Option State :=
  firstOf [s.faultDuty.map s.take, s.wgDuty, s.candDuty, s.barDuty, s.preemptDuty, s.eventDuty.map s.take]

/-! Which domains may issue. -/

/-- Whether a domain may issue on a core in its current cycle (R327). -/
def State.mayIssue (s : State) (c : Nat) (did : BitVec 16) : Bool :=
  let k := s.core c
  match s.slotOwner c 0 with
  | none => !k.isolated did || (s.corePart c).isNone
  | some o =>
    if k.isolated o then
      (if (s.cal ((s.corePart c).getD 0)).acting.contains c then did == o else !k.isolated did)
    else did == o || !k.isolated did

/-- Whether the drain guard applies to the slot that runs, on a core (R328). -/
def State.guarded (s : State) (c : Nat) : Bool := s.isoSlot c 0 || s.isoSlot c 1

/-- The end of the slot that runs on a core, in ps (R326). -/
def State.slotEndPs (s : State) (c : Nat) : Nat := 32000 * ((s.core c).slotNow + 1)

/-- Whether an instruction that would be in flight as said has drained by the end of a guarded slot (R328); its λ is that of R325, with
the cycles that a fenced array adds. -/
def State.drains (s : State) (c : Nat) (e : Flight) : Bool :=
  !s.guarded c || decide ((s.core c).startPs + 1818 * (e.till - e.since) ≤ s.slotEndPs c)

/-! The rope scheduler. -/

/-- A unit that could issue: rope key, rope, unit, and the class of its instruction. -/
structure Ready where
  k : Nat
  r : Rope
  u : Nat
  tc : Nat

/-- What a unit's turn would do. -/
noncomputable def State.tryUnit (s : State) (k u : Nat) : Option State :=
  match ({ s with turn := .rope, cur := k, curUnit := u } : State).runRope with
  | .next t => if t.turn = .rope then none else some t
  | _ => none

/-- The instruction that a quadrant has issued in a core's current cycle, if it has. -/
def State.issuedNow (s : State) (c quad : Nat) : Option Flight :=
  let k := s.core c
  k.flight.find? (fun e => e.quad == quad && e.since == k.cyc)

/-- Whether nothing but its instruction and the calendar keeps a unit from its turn (R73, R163, R170, R197, R332, R375). -/
def State.upright (s : State) (k : Nat) (r : Rope) (u : Nat) : Bool :=
  let c := s.coreOf r
  let q := r.schedOf u
  s.onDuty k r && !s.stops k r && !s.dieOff.contains (c / 384) && r.cand.isNone && decide (q.readyAt ≤ (s.core c).cyc) && q.blocked.isNone &&
    decide (r.portWait = 0) && r.strands.all (fun t => !(t.inUnit u && t.stopped)) &&
    (match r.monitorOf u with | some m => m.woken || r.trap.isSome | none => true)

/-- Whether nothing but its instruction keeps a unit from its turn (R327). -/
def State.awake (s : State) (k : Nat) (r : Rope) (u : Nat) : Bool := s.upright k r u && s.mayIssue (s.coreOf r) r.did

/-- What a unit would issue now, but for the calendar, the drain guard and held cycles: as it would be in flight (R322). -/
noncomputable def State.offers (s : State) (k : Nat) (r : Rope) (u : Nat) : Option Flight :=
  if s.upright k r u then (s.tryUnit k u).bind (fun t => t.issuedNow (s.coreOf r) r.quad) else none

/-- Whether the calendar and the drain guard let a domain issue what would be in flight so (R327, R328). -/
def State.admits (s : State) (c : Nat) (did : BitVec 16) (e : Flight) : Bool := s.mayIssue c did && s.drains c e

/-- Whether a unit is ready (R322), and the class of its next instruction: one that the drain guard holds is not. -/
noncomputable def State.ready (s : State) (k : Nat) (r : Rope) (u : Nat) : Option Nat :=
  match s.offers k r u with
  | some e => if s.admits (s.coreOf r) r.did e then some e.cls else none
  | none => none

/-- A unit whose turn issues nothing and yet has an effect: a translation is asked for (R306), or a prologue is stopped (R256). -/
noncomputable def State.askMoves (s : State) : List State :=
  s.ropes.flatMap (fun (k, r) => r.units.filterMap (fun u =>
    if !s.awake k r u || (s.core (s.coreOf r)).issued.getLsbD r.quad then none
    else (s.tryUnit k u).bind (fun t => if (t.issuedNow (s.coreOf r) r.quad).isNone then some t else none)))

/-- The ready units of a core's quadrant. -/
noncomputable def State.readyUnits (s : State) (c quad : Nat) : List Ready :=
  s.ropes.flatMap (fun (k, r) =>
    if s.coreOf r == c && r.quad == quad then r.units.filterMap (fun u => (s.ready k r u).map (fun tc => ⟨k, r, u, tc⟩)) else [])

/-- A unit's priority with the one-issue raise (R323). -/
def Ready.prio (x : Ready) : Nat := x.r.prio + (if (x.r.schedOf x.u).boost then 1 else 0)

/-- The order of age (R322 step 3): ready longest, then lower ROPEID, then lower lowest lane. -/
def Ready.before (x y : Ready) : Bool :=
  let a := (x.r.schedOf x.u).readyAt
  let b := (y.r.schedOf y.u).readyAt
  decide (a < b) || (a == b && (decide (x.r.ropeId < y.r.ropeId) || (x.r.ropeId == y.r.ropeId && decide (x.u ≤ y.u))))

/-- The first of a list by an order. -/
def bestOf {α : Type} (le : α → α → Bool) : List α → Option α
  | [] => none
  | x :: l => some (l.foldl (fun a b => if le a b then a else b) x)

/-- The class in flight on a core from earlier cycles (R322, R325). -/
def Core.flightClass (k : Core) : Nat :=
  (k.flight.filter (fun e => decide (e.since < k.cyc) && decide (k.cyc < e.till))).foldl (fun a e => max a e.cls) 0

/-- The unit that issues at a quadrant's opportunity (R322 to R324). -/
noncomputable def State.pick (s : State) (c quad : Nat) : Option Ready :=
  let all := s.readyUnits c quad
  let top := all.foldl (fun a x => max a x.prio) 0
  let l0 := all.filter (fun x => x.prio == top)
  let l1 := l0.filter (fun x => (x.r.schedOf x.u).skip == 0)
  let l := if l1.isEmpty then l0 else l1
  let pass (x : Ready) : Nat := (x.r.schedOf x.u).pass
  let past := l.filter (fun x => decide (48 ≤ pass x))
  match bestOf (fun x y => decide (pass y < pass x) || (pass x == pass y && x.before y)) past with
  | some x => some x
  | none =>
    let k := s.core c
    let bunch := l.filter (fun x => decide (x.tc ≤ k.flightClass))
    bestOf Ready.before (if bunch.isEmpty then l else bunch)

/-- The schedule of a unit that is not ready at an opportunity (R322, R323): it is ready from the next cycle on at the earliest. -/
def UnitSched.lapse (q : UnitSched) (cyc : Nat) : UnitSched := { q with pass := 0, readyAt := max q.readyAt (cyc + 1) }

/-- A unit's schedule after another unit of its quadrant has been chosen (R323, R324). One that the calendar or the drain guard alone holds
back stays as it is: the opportunity is not counted for it. DEDUCED: log entry 34. -/
noncomputable def State.passOver (s : State) (c : Nat) (x : Ready) (k : Nat) (r : Rope) (u : Nat) : UnitSched :=
  let q := r.schedOf u
  let mine := r.prio + (if q.boost then 1 else 0)
  let skip := if 1 < q.skip ∧ mine ≤ x.prio then 1 else q.skip
  match s.offers k r u with
  | none => { q.lapse (s.core c).cyc with skip := skip }
  | some e =>
    if s.admits c r.did e then
      { q with
        pass := if mine = x.prio ∧ q.skip = 0 then q.pass + 1 else q.pass
        starve := if mine < x.prio then q.starve + 1 else q.starve
        skip := skip }
    else { q with skip := skip }

/-- The schedules of a rope's units after a cycle in which its quadrant has chosen none: those that had nothing to issue in it have not
been ready up to now (R322, R323). -/
noncomputable def State.lapsed (s : State) (c k : Nat) (r : Rope) : Tbl UnitSched :=
  r.units.foldl (fun t u => if (s.offers k r u).isSome then t else tset t u ((r.schedOf u).lapse (s.core c).cyc)) r.sched

/-- The schedules of a quadrant after a choice: the chosen unit is about to issue. -/
noncomputable def State.account (s : State) (c quad : Nat) (x : Ready) : Tbl Rope :=
  s.ropes.map (fun (k, r) =>
    if s.coreOf r == c && r.quad == quad then
      (k, { r with sched := r.units.foldl (fun t u => if k = x.k ∧ u = x.u then t else tset t u (s.passOver c x k r u)) r.sched })
    else (k, r))

/-- The turn of the unit that a core's quadrant chooses, if it has an opportunity (R152, R322) and a ready unit. -/
noncomputable def State.ropeMove (s : State) (c quad : Nat) : Option State :=
  if (s.core c).issued.getLsbD quad || (s.core c).heldNow quad then none
  else (s.pick c quad).map (fun x => { s with turn := .rope, cur := x.k, curUnit := x.u, ropes := s.account c quad x })

/-! What else may move. -/

/-- Events of ropes on their cores: complete loads and stores, SFQ.RD results, wakes and polls (R184, R197, R204). Results of variable
latency are written where the domain may issue (R327). -/
noncomputable def State.ropeEvents (s : State) : List Instr :=
  s.ropes.flatMap (fun (k, r) =>
    match tget s.wgs r.wg with
    | none => []
    | some w =>
      let cyc := s.cycOf r
      let may := s.mayIssue w.core r.did
      if w.state ≠ .resident ∧ w.state ≠ .saving then []
      else
        (if may && r.outst.any (fun o => o.tok.isNone && o.arrived cyc) then [.loadComplete k] else []) ++
        (match r.stores with | o :: _ => if o.ready && decide (o.due ≤ cyc) then [.storePerformed k] else [] | [] => []) ++
        (if may && r.outst.any (fun o => o.tok.isSome && o.arrived cyc) then [.sfqRdWrite k] else []) ++
        (if r.monitors.isEmpty then [] else if r.monitors.any (fun m => m.woken) then [.waitvWake k] else [.waitvPoll k]))

/-- Events of the engines, the operand log and the caches. DEDUCED: log entry 45. -/
noncomputable def State.engineEvents (s : State) : List Instr :=
  (s.sfu.zipIdx.filter (fun (e, _) => decide (e.due ≤ (s.core (e.quad / 4)).cyc))).map (fun (_, n) => .sfuResultDelivery n) ++
  (s.slots.filter (fun (_, m) => match m.fill with
    | some f => (match tget s.wgs f.wg with | some w => decide (f.due ≤ (s.core w.core).cyc) && w.fillPinned f | none => false)
    | none => false)).map (fun (k, _) => .mapldComplete k false) ++
  s.log.flatMap (fun e =>
    match e.state with
    | .retry => [.mtlbTranslate e.id]
    | .deciding r _ =>
      (if r.toNat = 6 then [] else [.faultResolve e.id .resolved]) ++ [.faultResolve e.id .declined] ++
        (if r.toNat ≤ 4 then [.pluginTimeout e.id] else [])
    | .ready => if s.replays e then [.replay e.id] else []
    | .raised | .poisoned => []) ++
  s.l2.map (fun l => .l2Eviction l.asid l.line) ++
  (s.images.filter (fun (_, i) => i.ported && !i.translated)).map (fun (k, _) => .choarnifTranslation k true)

/-- Programs whose word or command cannot be reached: the Herey controller declines (R216). -/
noncomputable def State.copyEvents (s : State) : List Instr :=
  s.ctxs.filterMap (fun (k, c) => (s.copyStuck c).map (fun (cause, r, _) => .copyFault k (BitVec.ofNat 8 cause) (BitVec.ofNat 8 r)))

/-- Events of the task sequencers. -/
noncomputable def State.streamEvents (s : State) : List Instr :=
  s.streams.flatMap (fun (key, t) =>
    (if s.looks t key then [.decodeRecheck key] else []) ++
    (match t.window.find? (fun k => t.canIssue k || (s.signals key k && !s.signalWaits key t k)) with
     | some k => [.taskIssue key k.idx]
     | none => []) ++
    t.window.flatMap (fun k =>
      (if s.finished key t k then (if k.mapints = 0 then [.taskComplete key k.idx] else [.mapintRetry key k.idx]) else []) ++
      (if k.top == 2 && k.state == .issued && k.verdict == 2 && !s.faulting key k.idx && s.gridDone key k.idx then
         [.prologueRepeat key k.idx] else []) ++
      (if k.top == 9 && k.state == .issued then [.twaitSatisfied key k.idx, .twaitPoll key k.idx] else [])) ++
    (match t.window with
     | k :: _ => if k.state == .complete && t.mapped then [.taskRetire key] else []
     | [] => []) ++
    (if s.firstPending key t && ((s.easySlot t).isSome || (s.victimSlot t).isSome) then [.streamMap key] else []))

/-- The order in which waiting workgroups are served (R319): priority, older task, lower WGID. -/
def servedBefore (a b : Nat × Workgroup) : Bool :=
  decide (b.2.prio < a.2.prio) ||
    (a.2.prio == b.2.prio && (decide (a.2.taskNs < b.2.taskNs) || (a.2.taskNs == b.2.taskNs &&
      (decide (a.2.task < b.2.task) || (a.2.task == b.2.task && decide (a.2.wgid ≤ b.2.wgid))))))

/-- Events of the distributors (R319, R334) and of scratchpad paging (R298). -/
noncomputable def State.gridEvents (s : State) : List Instr :=
  let place := bestOf servedBefore (s.wgs.filter (fun (_, w) =>
    s.waits w && !s.lowerUnplaced w && (s.chooseCore w (fun c => (s.placeOn w c).isSome)).isSome))
  let back := bestOf servedBefore (s.wgs.filter (fun (_, w) =>
    s.eligible w && (s.chooseCore w (fun c => (s.restoreOn w c).isSome)).isSome))
  let restore : List Instr := match back with
    | some (k, w) => (match s.chooseCore w (fun c => (s.restoreOn w c).isSome) with | some c => [.workgroupRestore k c] | none => [])
    | none => []
  (match place, back with
   | some (k, w), some (_, v) => if v.prio < w.prio then [.workgroupPlace k] else restore
   | some (k, _), none => [.workgroupPlace k]
   | none, _ => restore) ++
  s.wgs.flatMap (fun (k, w) =>
    if w.state == .resident || w.state == .saving then
      ((List.range (scratchAlloc w.scratchSize / 4096)).filter (fun p => !w.pinned.contains p)).map (fun p => .pagePin k p)
    else [])

/-- The copy contexts whose next word can run (R206). -/
noncomputable def State.copyMoves (s : State) : List State :=
  s.ctxs.filterMap (fun (k, _) =>
    let u : State := { s with turn := .copy, curCtx := k }
    match u.runCopy with
    | .next t => if t.turn = .copy then none else some u
    | _ => none)

/-- An act of the outside world: a row that no word encodes (R291, R343 to R361). -/
def Instr.outside (i : Instr) : Bool := i.rope?.isNone && i.copy?.isNone && i.task?.isNone

/-- The oldest act of the outside world that has not been taken. DEDUCED: log entry 45. -/
def State.inputMove (s : State) : List State :=
  match s.inputs with
  | [] => []
  | i :: rest => [if Instr.outside i then { s with inputs := rest, turn := .event i } else { s with inputs := rest }]

/-! The passing of time. -/

/-- The cores that ropes run on, with the quadrants. -/
def State.coreList (s : State) : List Nat := s.cores.map Prod.fst

/-- The length of a core's current cycle in ps, and its class (R325); the last cycle of a guarded slot ends with it (R328). -/
def State.cycleOf (s : State) (c : Nat) : Nat × Nat :=
  let k := s.core c
  let len := classPs k.cycleClass
  if s.guarded c && decide (s.slotEndPs c < k.startPs + len) then (s.slotEndPs c - k.startPs, 0) else (len, k.cycleClass)

/-- Whether the cycle that runs is counted for a domain in isolated mode on a core (R26, R28). -/
def State.counts (s : State) (c : Nat) (did : BitVec 16) : Bool :=
  !(s.core c).isolated did || s.slotOwner c 0 == some did

/-- A list of counts with one raised. -/
def bump (l : List Nat) (n : Nat) : List Nat := listSet l n (l.getD n 0 + 1)

/-- Whether a quadrant of a core had an issue opportunity in the cycle that ends (R322). -/
def State.opportunity (s : State) (c quad : Nat) : Bool :=
  !(s.core c).heldNow quad &&
    s.ropes.any (fun (k, r) => s.coreOf r == c && r.quad == quad && s.onDuty k r && s.mayIssue c r.did)

/-- A rope of a core at the end of a cycle: its opportunities to skip or to leave out, the readiness of its units (R322, R323), and the
cycle it has been resident in (R28, R324, R375). A rope that has been saved counts as resident until its whole workgroup has left the core.
DESIGN CHOICE: log entry 57. -/
noncomputable def State.ropeTick (s : State) (c cls k : Nat) (r : Rope) : Rope :=
  let had := s.opportunity c r.quad
  let q := if (s.core c).issued.getLsbD r.quad then r.sched else s.lapsed c k r
  { r with
    classMix := if s.counts c r.did then bump r.classMix cls else r.classMix
    portWait := if had then r.portWait - 1 else r.portWait
    sched := if had then q.map (fun (u, q) => (u, if 1 < q.skip then { q with skip := q.skip - 1 } else q)) else q }

/-- A core comes to a calendar slot: its owner acts there where it has a workgroup on the core (R327). -/
def State.enterSlot (s : State) (c : Nat) : State :=
  match s.corePart c with
  | none => s
  | some p =>
    let acts := match s.slotOwner c 0 with
      | some o => s.wgs.any (fun (_, w) => w.onCore c && w.did == o && w.pro.isNone)
      | none => false
    let k := s.cal p
    if acts = k.acting.contains c then s
    else s.setCal p { k with acting := if acts then c :: k.acting else k.acting.filter (fun i => i != c) }

/-- The self-tests of a cycle of class M: those of the arrays that are idle in it, which pass unless the outside makes one fail (R151).
DEDUCED: log entry 45. -/
def State.selfTests (s : State) (c cls : Nat) : State := if cls = 2 then (s.idleArrays c).foldl State.selfTest s else s

/-- The end of a core's current cycle (R26, R28, R325), with its self-tests (R151). DESIGN CHOICE: log entry 1. -/
noncomputable def State.tick (s0 : State) (c : Nat) : State :=
  let s := s0.selfTests c (s0.cycleOf c).2
  let k := s.core c
  let (len, cls) := s.cycleOf c
  let ending := k.startPs + len
  let doms := ((List.range 4).filter k.slotValid).map k.slotDid
  let iso := (doms.filter (fun d => k.isolated d && s.counts c d)).foldl (fun t d => rset 0 t d.toNat (rget 0 t d.toNat + 1)) k.iso
  let s1 := s.setCore c { k with
    cyc := k.cyc + 1, startPs := ending, issued := 0, flight := k.flight.filter (fun e => decide (k.cyc + 1 < e.till)), iso := iso }
  let s2 := { s1 with
    etimePs := max s1.etimePs ending
    ropes := s1.ropes.map (fun ((j, r) : Nat × Rope) =>
      (j, match tget s.wgs r.wg with
        | some w => if w.onCore c then s.ropeTick c cls j r else r
        | none => r)) }
  if ending / 32000 = k.slotNow then s2 else s2.enterSlot c

/-- The core whose current cycle ends first. -/
def State.nextCore (s : State) : Option Nat :=
  (bestOf (fun (a b : Nat × Nat) => decide (a.2 ≤ b.2)) (s.coreList.map (fun c => (c, (s.core c).startPs + (s.cycleOf c).1)))).map Prod.fst

/-- Time passes: the cycle that ends first ends, once no quadrant of its core has a unit left to issue; without a core in use a
class Q cycle passes. DESIGN CHOICE: log entry 1. -/
noncomputable def State.timeMove (s : State) : List State :=
  match s.nextCore with
  | none => [{ s with etimePs := s.etimePs + 625 }]
  | some c => if ([0, 1, 2, 3] : List Nat).any (fun q => (s.ropeMove c q).isSome) then [] else [s.tick c]

/-- Everything that may happen next. DESIGN CHOICE: log entry 1. -/
noncomputable def State.moves (s : State) : List State :=
  s.coreList.flatMap (fun c => ([0, 1, 2, 3] : List Nat).filterMap (fun q => s.ropeMove c q)) ++ s.timeMove ++ s.askMoves ++ s.copyMoves ++
    s.inputMove ++ (s.ropeEvents ++ s.engineEvents ++ s.copyEvents ++ s.streamEvents ++ s.gridEvents).map s.take

/-- The choice of what happens next: what is due; else one of what may happen, by a free choice (R4).
DESIGN CHOICE: log entry 1. -/
noncomputable def State.choose (s : State) : State :=
  match s.duty? with
  | some t => t
  | none =>
    let l := s.moves
    { l.getD (Config.freeChoice s.free % l.length) s with free := s.free + 1 }

end Sys2Proof.Machine
end

