-- ==== Sys2Proof/Machine/Boot.lean ====
section
/-! DEFINITION. A rope set up to issue one instruction next: what stands for the launch of a program from outside. -/

namespace Sys2Proof.Machine

/-- The address at which the instruction is placed. -/
def bootPc : DWord := 0x10000

/-- A kernel descriptor with 256 registers, one strand, 64 KiB of scratchpad and the entry `bootPc` (R369).
DESIGN CHOICE: log entry 2. -/
def bootKernel : BitVec 512 := BitVec.ofNat 512 (32 + 256 + 65536 * 2 ^ 32 + 0x10000 * 2 ^ 64)

/-- A code handle: GLOBAL, right X, 64 KiB from `bootPc` (R174, R301). DESIGN CHOICE: log entry 2. -/
def bootHandle : BitVec 256 := BitVec.ofNat 256 (0x10000 + 65536 * 2 ^ 64 + (1 + 256) * 2 ^ 128)

/-- The workgroup of the rope: of the system domain, at level SYSTEM, on core 0. DESIGN CHOICE: log entry 2. -/
def bootWg (rope : Nat) : Workgroup :=
  { did := 0, asid := 0, dslot := 0, core := 0, stream := 0, task := 0, wgid := 0, wgcount := 1, strands := 1, regs := 256, maps := 0
    scratchSize := 65536, kdesc := bootKernel, idem := false, port := false, pin := false, priv := .system, state := .resident
    ropes := [rope], scratch := [], marks := [], pinned := List.range 16, barriers := [], sems := [], slotMap := [], args := [], handles := []
    prio := 0, taskNs := 0, again := false, since := 0, saveAt := 0, saveFor := 0, marked := [], slotImg := [], pro := none }

/-- The registers that give die 0's first cluster and first memory port to partition 0 and connect them (R337).
DESIGN CHOICE: log entry 2. -/
def bootRegs (t : Tbl Word) : Tbl Word :=
  tset (tset (tset (tset t (regKey (.partReq 0 0)) 16) (regKey (.partMp 0 0)) 16) (regKey (.conn 0 0)) 1) (regKey (.partDie 0 0)) 1

/-- The state with the bytes of an instruction placed at `bootPc` under ASID 0, a code handle and a start map for them, and a
rope whose next issue is there. DESIGN CHOICE: log entry 2. -/
def State.boot (s : State) (bs : List Byte) : State :=
  let s0 : State := { s with
    l2 := s.l2.filter (fun (l : L2Line) => l.asid != 0), code := s.code.filter (fun (l : CodeLine) => l.asid != 0)
    tlb := s.tlb.filter (fun (e : TlbEntry) => e.asid != 0), partRegs := bootRegs s.partRegs }
  let (p, s1) := s0.placePage 0 bootPc.toNat true 0 bs
  let d := s1.domain 0
  let s2 := s1.setDomain 0 { d with valid := true, asid := 0, handles := rset 0 d.handles 0 bootHandle }
  let s3 := s2.setCore 0 ((s2.core 0).setDpe 0 0x10000)
  let id := s3.nextId
  let w := bootWg (id + 1)
  let s4 := (s3.setWg id w).setRope (id + 1) (w.freshRope id 0 0 [0] true (s3.core 0).cyc)
  { s4 with
    images := tset s4.images id ⟨0, [⟨1, bootPc.toNat, 65536, [p]⟩], [bootPc.toNat], false, false, []⟩
    nextId := id + 2, turn := .rope, cur := id + 1, curUnit := 0 }

end Sys2Proof.Machine
end

