-- ==== Sys2Proof/Machine/Step.lean ====
section
/-! DEFINITION. The step of the machine: the agent that has the turn moves, or the next turn is chosen. -/

namespace Sys2Proof.Machine

/-- One step: the choice of the next turn, or the move of the agent that has it. -/
noncomputable def step (s : State) : Host.Outcome State Fault Refusal :=
  match s.turn with
  | .choose => .next s.choose
  | .rope => yieldTurn .rope s.runRope
  | .copy => yieldTurn .copy s.runCopy
  | .stream => yieldTurn .stream s.runStream
  | .event i => yieldTurn (.event i) (exec i s)

/-- The state with an instruction stored where the next step fetches: a launch from outside that puts its bits at the address of
a rope that is about to issue. DESIGN CHOICE: log entry 2. -/
def State.withFetchWord (s : State) (nbits w : Nat) : State := s.boot (leBytes 32 (w % 2 ^ nbits))

end Sys2Proof.Machine
end

