-- ==== Sys2Proof/Safety.lean ====
section
/-! DEFINITION. The terms the claims use: the canonical memories, what it takes for an instruction to start, what an issued
instruction leaves, the values that the manual's rules give, and what a step leaves unchanged. -/

namespace Sys2Proof.Machine

/-! Runs and memories. -/

/-- The memories of the package are in canonical form: addresses strictly rising, no entry equal to 0 (R311). -/
def State.MemWf (s : State) : Prop := Memory.wf s.mem = true ∧ Memory.wf s.host = true ∧ Memory.wf s.peer = true

/-- A run of `n` steps that does not stop and ends in a state. -/
def Runs : Nat → State → State → Prop
  | 0, s, t => s = t
  | n + 1, s, t => ∃ u, step s = .next u ∧ Runs n u t

/-! An instruction that starts. -/

/-- What an instruction that starts has at hand: its entry, the issue, the issue with its registers as it reads them (R76),
the state with the free values drawn that those reads take, and the registers it writes. -/
structure Begun where
  m : Meta
  x : Issue
  y : Issue
  t : State
  w : List RegRef
  deriving DecidableEq, Repr

/-- The conditions, on the state and operands alone, under which an instruction starts: a unit stands at the issue position,
no prologue limit is met (R256), every vector register lies below `.regs` (R16), the level may run it (R87), the quadrant's F64
datapath is free where it is needed (R117), and the scoreboard is clear (R74 to R76). -/
def State.begun (s : State) (op : Nat) (f : Fields) (pb : PB) : Option Begun :=
  match s.issuing op f, metaOf op with
  | some x, some m =>
    let rd := x.readsOf op m f pb
    let wr := regWrites op m f pb
    if x.proFault.isNone && regsOk op m f pb x.r.regs && privOk op x.r.priv &&
        !(usesF64 op && decide (x.core.cyc < (tget x.core.f64 x.r.quad).getD 0)) && decide (x.hazard rd wr = .clear) then
      some ⟨m, x, x.viewed s rd, x.drawn s rd, wr⟩
    else none
  | _, _ => none

/-- What an instruction that has started leaves: its effect `s1`, its results in flight, its lanes moved (R73, R74, R76, R160). -/
def Begun.after (b : Begun) (s1 : State) (ws : List RegWrite) (extra : Nat) (nx : Next) : State :=
  b.y.commit (b.x.overtake s1 ws) ws extra nx

/-- The precise trap of an instruction (R234): nothing but the entry into the handler. -/
def Begun.trapped (b : Begun) (s : State) (q : TrapReq) : State := { b.x.raise s q with turn := .choose }

/-- The state and the added latency once the map stage lets an instruction go on (R139, R149, R150); as it is, without maps. -/
def Begun.mapped (b : Begun) : Option (State × Nat) :=
  match b.y.mapIn b.t b.m with
  | .ok p => some p
  | .error _ => none

/-- Whether the flags of the lanes of ACTIVE raise no FPX (R51, R238). -/
def Begun.untrapped (b : Begun) (fl : Nat → Flags) : Bool := b.y.fpxLanes fl == 0 || b.y.quiet 12

/-- What D receives of a result in every lane (R35, R66, R69): nothing when ACTIVE is empty, one scalar in a scalar form, else
a vector register or pair in the lanes of ACTIVE, with the status bits in p6 (R18); none where a flag traps. -/
def Begun.dest (b : Begun) (res : Nat → ER) : Option (List RegWrite) :=
  let d := b.x.f.d.toNat
  if b.y.act = 0 then some []
  else if scalarForm b.x.f && (b.m.sig == .s1 || b.m.sig == .s2) then
    if b.untrapped (fun _ => (res 0).fl) then
      some (b.y.results (fun _ => (res 0).fl) (fun _ => (res 0).st) (scaWrite b.m.dw d (res 0).v))
    else none
  else if b.untrapped (fun l => (res l).fl) then
    some (b.y.results (fun l => (res l).fl) (fun l => (res l).st) (b.y.active.flatMap (fun l => vecWrite b.m.dw d l (res l).v)))
  else none

/-- An instruction completes with the result that `res` gives each lane: for every state and operands for which it starts,
its maps apply and no flag traps, `exec` answers the next state with that result in flight. -/
def CompletesWith (i : Fields → Instr) (op : Nat) (res : Begun → Nat → ER) : Prop :=
  ∀ f s b s1 extra ws, s.begun op f pb0 = some b → b.mapped = some (s1, extra) → b.dest (res b) = some ws →
    exec (i f) s = .next (b.after s1 ws extra .fall)

/-- Element by element, the result of a function of A and B (R66, R92). -/
def resAB (g : Meta → CW → EV → EV → ER) (b : Begun) (l : Nat) : ER :=
  laneResult (resWidth b.m b.x.f) (elemCount b.m b.x.f) (fun u v _ => g b.m (b.x.f.cw b.m.ty) u v) (b.y.srcA b.t b.m)
    (b.y.srcB b.t b.m) [] l

/-- Element by element, the result of a function of B (R66). -/
def resB (g : Meta → CW → EV → ER) (b : Begun) (l : Nat) : ER :=
  laneResult (resWidth b.m b.x.f) (elemCount b.m b.x.f) (fun _ v _ => g b.m (b.x.f.cw b.m.ty) v) [] (b.y.srcB b.t b.m) [] l

/-- Element by element, the result of a function of A, B and C (R67). -/
def resABC (g : Meta → CW → EV → EV → EV → ER) (b : Begun) (l : Nat) : ER :=
  laneResult (resWidth b.m b.x.f) (elemCount b.m b.x.f) (g b.m (b.x.f.cw b.m.ty)) (b.y.srcA b.t b.m) (b.y.srcBvec b.t b.m)
    (b.y.srcC b.m) l

/-- The result of a conversion: a function of the one element of B (R125). -/
def resCvt (g : Meta → CW → EV → ER) (b : Begun) (l : Nat) : ER :=
  laneResult 64 1 (fun _ v _ => g b.m (b.x.f.cw b.m.ty) v) [] (b.y.srcCvt b.t b.m) [] l

/-! The values that the rules give. -/

/-- The least number of an integer type (R36). -/
def lowest (t : Ty) : Int := if t.isSigned then -(2 ^ (t.width - 1)) else 0
/-- The greatest number of an integer type (R36). -/
def highest (t : Ty) : Int := if t.isSigned then 2 ^ (t.width - 1) - 1 else 2 ^ t.width - 1

/-- R93: the low bits of the exact value; with SAT the value clamped to the type, status where that changed it. -/
def keptAs (t : Ty) (sat : Bool) (v : Int) : ER :=
  if sat then
    if v < lowest t then ⟨(BitVec.ofInt t.width (lowest t)).toNat, 0, true⟩
    else if highest t < v then ⟨(BitVec.ofInt t.width (highest t)).toNat, 0, true⟩
    else ⟨(BitVec.ofInt t.width v).toNat, 0, false⟩
  else ⟨(BitVec.ofInt t.width v).toNat, 0, false⟩

/-- The type a result is kept in: the suffix at its width, or at 32 bits in widened mode (R92, R93, R115). -/
def keptTy (m : Meta) (c : CW) : Ty :=
  if m.ty.width < 32 ∧ c.modB.toNat / 8 % 4 = 1 then (if m.ty.isFloat then .f32 else if m.ty.isSigned then .s32 else .n32) else m.ty

/-- A result kept by R93. -/
def kept (m : Meta) (c : CW) (v : Int) : ER := keptAs (keptTy m c) c.sat v

/-- The bits of an integer element. -/
def EV.word (w : Nat) (e : EV) : BitVec w := BitVec.ofInt w e.int

/-- A result that is a word, without flags or status. -/
def erOf {w : Nat} (v : BitVec w) : ER := ⟨v.toNat, 0, false⟩

/-- The count of a shift: the low 8 bits of B (R106). -/
def countOf (b : EV) : Nat := (b.word 8).toNat

/-- One rounding of a result in the destination's format, with the flags it has raised (R45 to R47, R118). -/
def roundedIn (t : Ty) (c : CW) (r : FVal × Flags) : ER :=
  ⟨(fround t c.rm.toNat c.sat r.1).1, (fround t c.rm.toNat c.sat r.1).2 ||| r.2, false⟩

/-- The destination format of a floating-point instruction: F32 in widened mode (R115). -/
def floatTy (m : Meta) (c : CW) : Ty := if m.ty.width < 32 ∧ c.modB.toNat / 8 % 4 = 1 then .f32 else m.ty

/-- The first NaN among A and B, or an operation's result (R50). -/
def firstNan (a b : FVal) (r : FVal × Flags) : FVal × Flags :=
  match a, b with
  | .nan s g, _ => (.nan s g, 0)
  | _, .nan s g => (.nan s g, 0)
  | _, _ => r

/-- The word whose bits a predicate gives. -/
def bitsOf (p : Nat → Bool) : Word := BitVec.ofFnLE (fun i : Fin 32 => p i)

/-- The conditions 0 to 5 on exact integers (R68, R101). -/
def intCond (cc : Nat) (a b : Int) : Bool :=
  match cc with
  | 0 => a == b
  | 1 => a != b
  | 2 => decide (a < b)
  | 3 => decide (a ≤ b)
  | 4 => decide (b < a)
  | _ => decide (b ≤ a)

/-- The position of a field control value, its low byte (R108). -/
def fieldPos (b : EV) : Nat := (b.word 8).toNat
/-- The width of a field control value, cut at bit 31; 0 where the field is empty (R108). -/
def fieldWid (b : EV) : Nat := min ((b.word 16).extractLsb' 8 8).toNat (32 - fieldPos b)
/-- The bits of a field (R109). -/
def fieldMask (b : EV) : Word := bitsOf (fun k => decide (fieldPos b ≤ k) && decide (k < fieldPos b + fieldWid b))

/-- SEL (R111): A where the predicate's bit is 1, else B; the flags of both. -/
def selected (w : Nat) (b : Begun) (l : Nat) : ER :=
  let u := (b.y.srcA b.t b.m).at_ l 0
  let v := (b.y.srcBvec b.t b.m).at_ l 0
  ⟨((if (b.y.r.pr (b.x.f.c.toNat % 8)).getLsbD l then u.1 else v.1).word w).toNat, u.2 ||| v.2, false⟩

/-- A compare completes (R68): the predicate's bits in the lanes of ACTIVE are the condition, with the flags it raises. -/
def ComparesWith (i : Fields → Instr) (op : Nat) (g : Nat → EV → EV → Bool × Flags) : Prop :=
  ∀ f s b s1 extra, s.begun op f pb0 = some b → b.mapped = some (s1, extra) →
    let u (l : Nat) := (b.y.srcA b.t b.m).at_ l 0
    let v (l : Nat) := (b.y.srcB b.t b.m).at_ l 0
    let r (l : Nat) := g (f.d.toNat / 8 % 8) (u l).1 (v l).1
    let fl (l : Nat) : Flags := (r l).2 ||| (u l).2 ||| (v l).2
    (b.y.act = 0 → exec (i f) s = .next (b.after s1 [] extra .fall)) ∧
    (b.y.act ≠ 0 → b.untrapped fl = true →
      exec (i f) s = .next (b.after s1
        (b.y.results fl (fun _ => false) [.pred (f.d.toNat % 8) b.y.act (bitsOf (fun l => (r l).1))]) extra .fall))

/-! Division (R100). -/

/-- The dividend and divisor of a lane. -/
def Begun.dividend (b : Begun) (l : Nat) : Int := ((b.y.srcA b.t b.m).at_ l 0).1.int
/-- The divisor of a lane. -/
def Begun.divisor (b : Begun) (l : Nat) : Int := ((b.y.srcB b.t b.m).at_ l 0).1.int

/-- Whether a lane's division has an enabled trap: 10 DIVZ, 11 DIVOVF; 0 none (R100, R220, R238). -/
def Begun.divTrap (b : Begun) (t : Ty) (l : Nat) : Nat :=
  if b.divisor l = 0 then (if b.x.set.getLsbD 12 && !b.y.quiet 10 then 10 else 0)
  else
    let q := Int.tdiv (b.dividend l) (b.divisor l)
    if (q < lowest t ∨ highest t < q) ∧ b.x.set.getLsbD 13 = true ∧ b.y.quiet 11 = false then 11 else 0

/-- The result of a division: quotient truncated toward zero or remainder, all ones and the dividend for a zero divisor; status
where the divisor is zero or the quotient out of range. -/
def divided (t : Ty) (rem : Bool) (b : Begun) (l : Nat) : ER :=
  let x := b.dividend l
  let y := b.divisor l
  let q := Int.tdiv x y
  if y = 0 then ⟨(if rem then BitVec.ofInt t.width x else BitVec.allOnes t.width).toNat, 0, true⟩
  else ⟨(BitVec.ofInt t.width (if rem then x - q * y else q)).toNat, 0, decide (q < lowest t ∨ highest t < q)⟩

/-- A division completes where no lane of ACTIVE has an enabled trap. -/
def DividesWith (i : Fields → Instr) (op : Nat) (t : Ty) (rem : Bool) : Prop :=
  ∀ f s b ws, s.begun op f pb0 = some b → (∀ l ∈ b.y.active, b.divTrap t l = 0) → b.dest (divided t rem b) = some ws →
    exec (i f) s = .next (b.after b.t ws 0 .fall)

/-- A division traps: the lowest lane of ACTIVE with an enabled condition gives the cause; LANEMASK holds the lanes of ACTIVE
with that condition, all of ACTIVE in a scalar form (R100, R396). -/
def DivisionTraps (i : Fields → Instr) (op : Nat) (t : Ty) : Prop :=
  ∀ f s b l, s.begun op f pb0 = some b → b.y.active.find? (fun j => b.divTrap t j != 0) = some l →
    exec (i f) s = .next (b.trapped s ⟨b.divTrap t l, 0,
      if scalarForm f then b.y.act else b.y.act &&& bitsOf (fun j => b.divTrap t j == b.divTrap t l), 0, 0, 0⟩)

/-! Floating point. -/

/-- The rational number that a finite value stands for; 0 for the others. -/
def ratOf : FVal → ℚ
  | .fin s m e => (if s then -(m : ℚ) else m) * (2 : ℚ) ^ e
  | _ => 0

/-- Whether a value that is no NaN is less than another: infinities outside, finite values by the numbers they stand for. -/
def belowVal (a b : FVal) : Bool :=
  match a, b with
  | .inf s, .inf t => s && !t
  | .inf s, _ => s
  | _, .inf t => !t
  | _, _ => decide (ratOf a < ratOf b)

/-- The table of R121: the source that is no NaN, the first of two NaNs (R50), −0 or +0 of two zeros, the smaller or larger value. -/
def extremeOf (mx : Bool) (a b : FVal) : FVal :=
  match a, b with
  | .nan _ _, .nan _ _ => a
  | .nan _ _, _ => b
  | _, .nan _ _ => a
  | .fin s 0 _, .fin _ 0 _ => if s = mx then b else a
  | _, _ => if mx then (if belowVal a b then b else a) else (if belowVal b a then b else a)

/-- The exponent of a type's least normal number (R38). -/
def leastNormal : Ty → Int
  | .f16 | .e5m2 => -14
  | .f64 => -1022
  | .e4m3 => -6
  | .e2m1 => 0
  | _ => -126

/-! Rounding. -/

/-- The fraction bits of a format (R38). -/
def fractionOf : Ty → Nat
  | .f64 => 52
  | .f32 => 23
  | .f16 => 10
  | .e5m2 => 2
  | .e4m3 => 3
  | .e2m1 => 1
  | _ => 7

/-- The largest finite number of a format (R38). -/
def greatest : Ty → ℚ
  | .f64 => (2 - 2 ^ (-52 : Int)) * 2 ^ (1023 : Int)
  | .f32 => (2 - 2 ^ (-23 : Int)) * 2 ^ (127 : Int)
  | .f16 => 65504
  | .e5m2 => 57344
  | .e4m3 => 448
  | .e2m1 => 6
  | _ => (2 - 2 ^ (-7 : Int)) * 2 ^ (127 : Int)

/-- `n` is the multiple of `q` that a magnitude `x` of a sign is rounded to (R47): 0 the nearest, the even one of two; 1 toward zero; 2
toward +∞; 3 toward −∞. -/
def RoundsTo (rm : Nat) (s : Bool) (x q : ℝ) (n : Nat) : Prop :=
  if rm = 0 then |x - n * q| ≤ q / 2 ∧ (|x - n * q| = q / 2 → n % 2 = 0)
  else if rm = 1 ∨ rm = 2 ∧ s = true ∨ rm = 3 ∧ s = false then n * q ≤ x ∧ x < n * q + q
  else n * q < x + q ∧ x ≤ n * q

/-- Bits of a format encode a sign and the magnitude `x`. -/
def Encodes (t : Ty) (bits : Nat) (s : Bool) (x : ℝ) : Prop :=
  bits < 2 ^ t.width ∧ ∃ (m : Nat) (e : Int), fdecode t bits = .fin s m e ∧ (m : ℝ) * 2 ^ e = x

/-- What a finite overflow gives (R48): the largest finite number, or an infinity, in E4M3 its NaN. -/
def Overflows (t : Ty) (rm : Nat) (sat s : Bool) (bits : Nat) : Prop :=
  if sat = true ∨ t = .e2m1 ∨ rm = 1 ∨ rm = 2 ∧ s = true ∨ rm = 3 ∧ s = false then Encodes t bits s (greatest t)
  else if t = .e4m3 then bits = if s then 0xFF else 0x7F
  else bits < 2 ^ t.width ∧ fdecode t bits = .inf s

/-- The result of rounding a magnitude `x` of a sign, 2^k ≤ x < 2^(k+1), once into a format, with its flags (R40, R47, R48, R51): to the
format's precision, in the subnormal range to the subnormal quantum, of BF16 to zero; beyond the range what R48 gives. -/
def Rounded (t : Ty) (rm : Nat) (sat s : Bool) (x : ℝ) (k : Int) (r : Nat × Flags) : Prop :=
  let ulp : ℝ := 2 ^ (k - fractionOf t)
  let q : ℝ := if t = .bf16 then ulp else 2 ^ (max k (leastNormal t) - fractionOf t)
  ∃ n1 n : Nat, RoundsTo rm s x ulp n1 ∧ RoundsTo rm s x q n ∧
    let tiny : Prop := n1 * ulp < 2 ^ leastNormal t
    (t = .bf16 → tiny → Encodes t r.1 s 0 ∧ r.2 = flagUF ||| flagNX) ∧
    (¬(t = .bf16 ∧ tiny) → (greatest t : ℝ) < n * q → Overflows t rm sat s r.1 ∧ r.2 = flagOF ||| flagNX) ∧
    (¬(t = .bf16 ∧ tiny) → n * q ≤ (greatest t : ℝ) → Encodes t r.1 s (n * q) ∧
      (n * q = x → r.2 = 0) ∧ (n * q ≠ x → tiny → r.2 = flagNX ||| flagUF) ∧ (n * q ≠ x → ¬tiny → r.2 = flagNX))

/-! Maps. -/

/-- What lane `j` contributes to a map at a position (R143). -/
def contribution (x : Issue) (mz : Bool) (rd : Nat → List EV) (j e : Nat) : EV :=
  if x.act.getLsbD j = true ∨ mz = true ∧ x.r.present.getLsbD j = true then (rd j).getD e (.i 0) else .i 0

/-- The exact product of a weight and a data element; zero for a zero of a SEL map (R53, R144). -/
def productOf (m : MapSlot) (i j : Nat) (d : EV) : FVal :=
  if m.wfmt = 0 ∧ m.weightInt i j = 0 then .fin false 0 0 else (fmulExact (m.weight i j) d.flt).1

/-- One stage of a map on data by lane and position (R54, R144): integers summed in `w` bits, else products by MapRound. -/
def stageOf (m : MapSlot) (int : Bool) (w : Nat) (sx : Bool) (d : Nat → Nat → EV) (i e : Nat) : EV × Flags :=
  if int then
    let v := BitVec.ofInt w ((List.range 32).map (fun j => m.weightInt i j * (d j e).int)).sum
    (.i (if sx then v.toInt else v.toNat), 0)
  else
    let r := mapRound ((List.range 32).map (fun j => productOf m i j (d j e)))
    (.f (fdecode .f32 r.1), r.2)

/-- A map with its successor (R146): the second stage on the first one's output, with every flag of the first stage. -/
def chainOf (m : MapSlot) (succ : Option MapSlot) (int : Bool) (w : Nat) (sx : Bool) (n : Nat) (d : Nat → Nat → EV) (i e : Nat) :
    EV × Flags :=
  let one := stageOf m int w sx d
  match succ with
  | none => one i e
  | some m2 =>
    let two := stageOf m2 (int && wfmtInt m2.wfmt) w sx (fun j e => (one j e).1) i e
    (two.1, two.2 ||| ((List.range 32).flatMap (fun j => (List.range n).map (fun e => (one j e).2))).foldl (fun a b => a ||| b) 0)

/-- A number in units of `q`, cut toward zero (R55). -/
def cutTo (q x : ℚ) : Int := if x < 0 then -⌊-x / q⌋ else ⌊x / q⌋

/-- MapRound of products (R55): the canonical NaN, an infinity, zero, or the sum of the products cut below the largest, rounded to F32
once. -/
def MapRounds (ps : List FVal) (r : Nat × Flags) : Prop :=
  let nan := ps.any fisNan = true ∨ .inf false ∈ ps ∧ .inf true ∈ ps
  (nan → r = (0x7FC00000, flagIV)) ∧ (¬nan → .inf false ∈ ps → r = (0x7F800000, 0)) ∧ (¬nan → .inf true ∈ ps → r = (0xFF800000, 0)) ∧
  ((∀ p ∈ ps, fisNan p = false ∧ fisInf p = false) →
    ((∀ p ∈ ps, ratOf p = 0) → r = (0, 0)) ∧
    ∀ k : Int, (∃ p ∈ ps, 2 ^ k ≤ |ratOf p|) → (∀ p ∈ ps, |ratOf p| < 2 ^ (k + 1)) →
      let q : ℚ := 2 ^ (k - 63)
      let total := (ps.map (fun p => cutTo q (ratOf p))).sum
      (total = 0 → r = (0, 0)) ∧
      (total ≠ 0 → ∃ m e, m ≠ 0 ∧ ratOf (.fin (decide (total < 0)) m e) = total * q ∧
        let v := fround .f32 0 false (.fin (decide (total < 0)) m e)
        r = (v.1, v.2 &&& (flagIV ||| flagOF ||| flagUF))))

/-- The bit of the class mask (R123). -/
def classBit (t : Ty) : FVal → Nat
  | .inf s => if s then 0 else 7
  | .nan s _ => if s then 9 else 8
  | .fin s m e =>
    if m = 0 then (if s then 3 else 4)
    else if (m : ℚ) * 2 ^ e < 2 ^ leastNormal t then (if s then 2 else 5)
    else (if s then 1 else 6)

/-- The floating conditions (R68, R122): with a NaN only NE and UN hold, and the ordering conditions raise IV. -/
def floatCond (cc : Nat) (a b : FVal) : Bool × Flags :=
  if fisNan a || fisNan b then (cc == 1 || decide (6 ≤ cc), if 2 ≤ cc ∧ cc ≤ 5 then flagIV else 0)
  else
    (match cc with
      | 0 => feq a b
      | 1 => !feq a b
      | 2 => flt a b
      | 3 => flt a b || feq a b
      | 4 => flt b a
      | 5 => flt b a || feq a b
      | _ => false, 0)

/-- An instruction raises FPX (R51, R124, R236): where lanes of ACTIVE raise enabled flags, it takes the trap and writes
nothing. -/
def RaisesFpx (i : Fields → Instr) (op : Nat) (res : Begun → Nat → ER) : Prop :=
  ∀ f s b s1 extra, s.begun op f pb0 = some b → b.mapped = some (s1, extra) → b.y.act ≠ 0 →
    let fl (l : Nat) : Flags := if scalarForm f && (b.m.sig == .s1 || b.m.sig == .s2) then (res b 0).fl else (res b l).fl
    b.y.fpxLanes fl ≠ 0 → b.y.quiet 12 = false →
    exec (i f) s = .next (b.trapped s ⟨12, 0, b.y.fpxLanes fl, (b.y.fpxUnion fl).setWidth 32, 0, 0⟩)

/-- A float to an integer type (R49): NaN gives 0, infinities the ends of the range, both with IV; else the rounded value,
clamped with IV, or with NX where the rounding changed it. -/
def intOfFloat (t : Ty) (rm : Nat) (v : FVal) : ER :=
  match v with
  | .nan _ _ => ⟨0, flagIV, false⟩
  | .inf s => ⟨(BitVec.ofInt t.width (if s then lowest t else highest t)).toNat, flagIV, false⟩
  | .fin s m e =>
    let (n, ne) := roundAt rm s m e 0
    let x : Int := if s then -(n : Int) else n
    if x < lowest t then ⟨(BitVec.ofInt t.width (lowest t)).toNat, flagIV, false⟩
    else if highest t < x then ⟨(BitVec.ofInt t.width (highest t)).toNat, flagIV, false⟩
    else ⟨(BitVec.ofInt t.width x).toNat, if ne then flagNX else 0, false⟩

/-- A source of PACK converted into an element (R128). -/
def convInto (t : Ty) (c : CW) (e : EV) : ER :=
  if t.isFloat then ⟨(fround t c.rm.toNat c.sat e.flt).1, (fround t c.rm.toNat c.sat e.flt).2, false⟩ else keptAs t c.sat e.int

/-- PACK (R128): two adjacent elements of D replaced. -/
def packedInto (t : Ty) (b : Begun) (l : Nat) : ER :=
  let c := b.x.f.cw b.m.ty
  let u := (b.y.srcA b.t b.m).at_ l 0
  let v := (b.y.srcB b.t b.m).at_ l 0
  let p := convInto t c u.1
  let q := convInto t c v.1
  let old := b.y.r.vr b.x.f.d.toNat l
  let at_ := 2 * t.width * (c.imm.toNat % 4)
  let mask : Word := ((BitVec.allOnes 32) >>> (32 - 2 * t.width)) <<< at_
  let new : Word := (BitVec.ofNat 32 (p.v % 2 ^ t.width + q.v % 2 ^ t.width * 2 ^ t.width)) <<< at_
  ⟨((old &&& ~~~mask) ||| new).toNat, p.fl ||| q.fl ||| u.2 ||| v.2, p.st || q.st⟩

/-- One position of FACC (R120): the mapped value plus the accumulator, rounded to F32. -/
def Begun.accumulated (b : Begun) (out : OpVals) (c : CW) (l e : Nat) : ER :=
  let m := out.at_ l e
  let acc := fdecode .f32 (b.y.r.vr (b.x.f.d.toNat + e) l).toNat
  let v := firstNan m.1.flt acc (faddExact c.rm.toNat m.1.flt acc)
  ⟨(fround .f32 c.rm.toNat c.sat v.1).1, (fround .f32 c.rm.toNat c.sat v.1).2 ||| v.2 ||| m.2, false⟩

/-- FACC completes: its map applies, no flag traps, and `n` accumulators from D on receive their positions. -/
def AccumulatesWith (i : Fields → Instr) (op : Nat) (t : Ty) (n : Nat) : Prop :=
  ∀ f s b s1 extra, s.begun op f pb0 = some b →
    b.y.mapStageIn b.t (dataRow t false) (dataRow t false) (!t.isFloat) false true = .ok (s1, extra) →
    let c := f.cw t
    let out := b.y.operand b.t true f.ma.toNat (dataRow t false) n true (modSx c.modA) c.mz
      (fun l => readElems t c.modA (b.y.r.vr f.a.toNat l).toNat)
    let fl (l : Nat) : Flags := ((List.range n).map (fun e => (b.accumulated out c l e).fl)).foldl (fun x y => x ||| y) 0
    (b.y.act = 0 → exec (i f) s = .next (b.after s1 [] extra .fall)) ∧
    (b.y.act ≠ 0 → b.untrapped fl = true →
      exec (i f) s = .next (b.after s1 (b.y.results fl (fun _ => false) (b.y.active.flatMap (fun l =>
        (List.range n).map (fun e => .vec (f.d.toNat + e) l (BitVec.ofNat 32 (b.accumulated out c l e).v))))) extra .fall))

/-- A unit that has gone on: its strands stand at the fall-through with the lanes they had, and the memories are as before. -/
def Begun.GoesOn (b : Begun) (s t : State) : Prop :=
  t.mem = s.mem ∧ t.host = s.host ∧ t.peer = s.peer ∧ ∃ r : Rope, tget t.ropes s.cur = some r ∧
    ∀ (i : Nat) (x : Strand), b.x.r.strands[i]? = some x → x.inUnit b.x.unit = true →
      ∃ x' : Strand, r.strands[i]? = some x' ∧ x'.pc = b.x.fall ∧ x'.active = x.active

/-- An instruction completes, whatever its result, where its maps apply and the domain enables no trap of a flag (R51, R220). -/
def CompletesQuietly (i : Fields → Instr) (op : Nat) : Prop :=
  ∀ (f : Fields) (s : State) (b : Begun), s.begun op f pb0 = some b → b.mapped.isSome = true → b.y.fpxen = 0 →
    ∃ t, exec (i f) s = .next t ∧ b.GoesOn s t

/-! Lanes and control. -/

/-- A lane of a vector register, 0 where the lane is absent (R154). -/
def laneOrZero (y : Issue) (n j : Nat) : Word := if y.r.present.getLsbD j then y.r.vr n j else 0

/-- The lane number of BCAST, RDLANE and WRLANE: B modulo 32, or the scalar it names (R154). -/
def laneArg (y : Issue) : Nat := (if y.f.c.getLsbD 0 then (y.r.sr y.f.b.toNat).toNat else y.f.b.toNat) % 32

/-- PC plus the signed offset times the unit of 8 bytes, 4 in Choarnif code (R157, R158, R373). -/
def branchTo (y : Issue) : DWord :=
  y.pc + BitVec.ofInt 64 ((y.f.c ++ (y.f.b ++ y.f.a)).toInt * (match y.f.enc with | .native _ => 8 | .choarnif _ => 4))

/-- The target of JMPI and CALLI in a lane: the scalar pair, or the lane's vector pair (R159). -/
def jumpTo (y : Issue) (l : Nat) : DWord := if y.f.c.getLsbD 0 then y.r.spair y.f.a.toNat else y.r.vpair y.f.a.toNat l

/-- The link pair of a call: the fall-through in s[D] and s[D+1] (R158). -/
def linkOf (y : Issue) : List RegWrite :=
  [.scalar y.f.d.toNat (y.fall.extractLsb' 0 32), .scalar (y.f.d.toNat + 1) (y.fall.extractLsb' 32 32)]

/-- Whether a workgroup's barrier has left a phase. -/
def State.phasePast (s : State) (wg n : Nat) (phase : Bool) : Bool :=
  match tget s.wgs wg with | some w => (w.barrier n).phase != phase | none => true

/-- A unit past its barrier instruction (R170): nothing but the rope has changed since the arrival `s1`, beside the acquire of a phase
that the arrival has ended (R282); the strands of the unit stand at the fall-through, and where the instruction waits each unit they form is held
for the phase, or, if it is past, ready 2 cycles later and held for the next where late strands of a BAR.SYNC arrive there. -/
def Begun.PassesBarrier (b : Begun) (s1 t : State) (late : Bool) (wait : Option (Nat × Bool × Bool)) : Prop :=
  let past : Bool := match wait with | some (n, phase, _) => s1.phasePast b.y.r.wg n phase | none => false
  t.wgs = (match wait with | some (n, _, _) => if past then s1.waited b.y.r.wg b.y.k n else s1 | none => s1).wgs ∧ t.mem = s1.mem ∧ t.cores = s1.cores ∧
  (∀ j, j ≠ b.y.k → tget t.ropes j = tget s1.ropes j) ∧
  ∃ r r' : Rope, tget s1.ropes b.y.k = some r ∧ tget t.ropes b.y.k = some r' ∧ r'.v = r.v ∧ r'.s = r.s ∧ r'.p = r.p ∧ r'.bars = r.bars ∧
    (∀ (i : Nat) (x : Strand), r.strands[i]? = some x → x.inUnit b.y.unit = true → x.active ≠ 0 →
      ∃ x' : Strand, r'.strands[i]? = some x' ∧ x'.pc = b.y.fall ∧ x'.active = x.active) ∧
    match wait with
    | none => True
    | some (n, phase, sync) => ∀ u ∈ r'.units, r'.unitStrands u &&& b.y.r.unitStrands b.y.unit ≠ 0 →
        if past then b.y.core.cyc + 2 ≤ (r'.schedOf u).readyAt ∧
          (r'.schedOf u).blocked = (if sync && late then some (n, !phase, true) else none)
        else (r'.schedOf u).blocked = some (n, phase, sync)

/-! Memory. -/

/-- A memory access: its need, kind, whether LDC counts it, whether it is a scalar form, size and alignment, elements in their
order, the register writes that need no memory, and its parameter block. -/
structure Access where
  need : MemNeed
  kind : AccKind
  ld : Bool
  sc : Bool
  size : Nat
  align : Nat
  els : List MemEl
  pre : List RegWrite
  pb : PB

/-- The handle of an access (R176). -/
def Begun.memHandle (b : Begun) : HRef := b.t.ropeHandle b.y.r (b.y.f.a.toNat % 16)

/-- The lanes of an access at their addresses (R179). -/
def Begun.memLanes (b : Begun) (a : Access) : List LaneAcc :=
  a.els.map (fun e => ⟨e.lane, (b.memHandle.addr e.off).toNat, e.act⟩)

/-- The conditions under which an access is performed: lanes in ACTIVE, its counter below 63, room in the operand log, no
fence before it (R184, R198, R307), every check of R179 passed, no wait of R242 or R307. -/
def Begun.MayAccess (b : Begun) (a : Access) : Prop :=
  b.y.act ≠ 0 ∧ (if a.ld then b.y.r.ldc else b.y.r.stc) < 63 ∧ b.t.logUsed b.y.c b.y.r.quad < 256 ∧
  b.t.fenced b.y.k b.y.r b.y.unit = false ∧ b.y.addrTrap b.t b.memHandle a.need a.sc a.size a.align a.els = none ∧
  b.t.behindLog b.y.k (b.y.goal b.t b.memHandle) b.memHandle a.els = false ∧ b.t.kickWaits b.y.k b.y.r b.memHandle a.els = false

/-- The state after the issue of an access: its counter has risen by one, its results are outstanding until the least latency and a
free delay have passed (R184, R185), `ws` as they have been read, others as the lanes `left` will give them.
DESIGN CHOICE: log entry 8. -/
def Begun.counted (b : Begun) (a : Access) (s1 : State) (ws : List RegWrite) (left : List LaneAcc) : State :=
  let due := b.y.core.cyc + b.t.minLatency (b.y.goal b.t b.memHandle) a.kind ((b.memLanes a).map LaneAcc.addr) b.y.c + s1.drawDelay.1
  ({ s1.drawDelay.2 with nextId := s1.nextId + 1 } : State).onRope b.y.k (fun r =>
    if a.ld then
      { r with ldc := r.ldc + 1, outst := r.outst ++ [⟨s1.nextId, due, left.isEmpty, none, a.pre ++ ws, left.flatMap LaneAcc.dests⟩] }
    else { r with stc := r.stc + 1, stores := r.stores ++ [⟨s1.nextId, due, left.isEmpty⟩] })

/-- The state after an access whose lanes have been performed but for those `left`, which are in the operand log (R307). -/
def Begun.accessed (b : Begun) (a : Access) (s1 : State) (ws : List RegWrite) (left : List (LaneAcc × Nat)) : State :=
  b.y.logLeft (b.counted a s1 ws (left.map Prod.fst)) s1.nextId a.pb b.memHandle a.kind a.sc left

/-- The state after an access that has been sent over a link (R313): the operand log holds all its lanes. -/
def Begun.sent (b : Begun) (a : Access) : State :=
  let s1 := b.counted a b.t [] (b.memLanes a)
  { s1 with log := s1.log ++ [b.y.entry b.t.nextId a.pb b.memHandle a.kind a.sc (b.memLanes a) .ready] }

/-- An access that may be performed completes (R183, R190): with its lanes performed in order; or sent, in HOST and PEER space. -/
def Begun.AccessDone (b : Begun) (o : Host.Outcome State Fault Refusal) (a : Access) : Prop :=
  b.MayAccess a →
  ((b.y.goal b.t b.memHandle).linked = false → ∀ s1 ws left, b.t.performLanes (b.y.goal b.t b.memHandle) (b.memLanes a) = (s1, ws, left) →
    o = .next (b.after (b.accessed a s1 ws left) [] 0 .fall)) ∧
  ((b.y.goal b.t b.memHandle).linked = true → o = .next (b.after (b.sent a) [] 0 .fall))

/-- A load, store or atomic completes as its access says. -/
def AccessCompletes (i : Fields → Instr) (op : Nat) (a : Begun → Access) : Prop :=
  ∀ (f : Fields) (s : State) (b : Begun), s.begun op f pb0 = some b → b.AccessDone (exec (i f) s) (a b)

/-- The addresses of the bytes that the storing lanes of an access write, in order: each lane's place is found in the state that
the lanes before it have left; none in a scratchpad page that is not pinned (R183, R190, R298). -/
def State.storedAt (s : State) (t : Target) : List LaneAcc → List Nat
  | [] => []
  | a :: l =>
    let base : Option Nat :=
      if a.kind = .read then none
      else if t.space = 0 then
        match s.xlate t a.addr a.kind with
        | (.ok f _ _ _, _) => some (physOf f a.addr)
        | _ => none
      else if t.space = 1 ∧ s.paged t a = false then none
      else if t.space = 3 then some (place (s.peerOf t) a.addr)
      else some a.addr
    (match base with | some p => (List.range a.size).map (p + ·) | none => []) ++ (s.performLanes t [a]).1.storedAt t l

/-- Whether a byte of the frames lies in a word of which an update-only copy holds a partial value (R297). -/
def State.pendingAt (s : State) (p : Nat) : Bool :=
  s.l2.any (fun l => l.uo.any (fun c => c.words.any (fun (i, op, _) =>
    decide (l.base + 4 * i ≤ p) && decide (p < l.base + 4 * i + op.size))))

/-- A workgroup but for the marks of its scratchpad's bytes, which hold no value (R288). -/
def Workgroup.unmarked (w : Workgroup) : Workgroup := { w with marks := [] }

/-- Two states whose workgroups differ in marks alone. -/
def State.SameWgs (s t : State) : Prop := ∀ k, (tget t.wgs k).map Workgroup.unmarked = (tget s.wgs k).map Workgroup.unmarked

/-- The bytes a store of `n` bytes takes from D: the low bytes of one register, or whole registers from D on (R186). -/
def storedBytes (y : Issue) (sc : Bool) (n l : Nat) : List Byte :=
  let d := y.f.d.toNat
  let word (k : Nat) : Nat := (if sc then y.r.sr (d + k) else y.r.vr (d + k) l).toNat
  if n < 4 then leBytes n (word 0) else (List.range (n / 4)).flatMap (fun k => leBytes 4 (word k))

/-- The registers that the load of a lane delivers, with the value of its `n` bytes (R186): one, extended to 32 bits, or the words in
order. -/
def delivered (n : Nat) (signed sc : Bool) (d l v : Nat) : List RegWrite :=
  let reg (k : Nat) (w : Word) : RegWrite := if sc then .scalar k w else .vec k l w
  if n < 4 then [reg d (if signed then (BitVec.ofNat (8 * n) v).signExtend 32 else (BitVec.ofNat (8 * n) v).setWidth 32)]
  else (List.range (n / 4)).map (fun k => reg (d + k) (BitVec.ofNat 32 (v / 2 ^ (32 * k))))

/-- What the access of a lane does to the bytes of its place (R186, R189): from what they read before and read after, and the register
writes. -/
def LaneDone (a : LaneAcc) (before after : Nat → List Byte) (ws : List RegWrite) : Prop :=
  match a.act with
  | .load n signed sc d l => n ∈ [1, 2, 4, 8, 16] → ws = delivered n signed sc d l (leNat (before n)) ∧ after n = before n
  | .store bs => ws = [] ∧ after bs.length = bs
  | .atom op x y d l => after op.size = leBytes op.size (op.new (leNat (before op.size)) x.toNat y.toNat) ∧
      ws = (match d with | some d => delivered op.size false false d l (leNat (before op.size)) | none => [])

/-- The target of a WAITV at its issue (R197). -/
def Begun.waitvTarget (b : Begun) : Target := b.y.goal b.t (b.t.ropeHandle b.y.r (b.y.f.a.toNat % 16))

/-- What a WAITV takes once, at its issue (R197): a number of its own, its location, size, compare value and handle entry. -/
def Begun.waitvTaken (b : Begun) : Monitor :=
  let h := b.t.ropeHandle b.y.r (b.y.f.a.toNat % 16)
  let size := if b.y.f.d.getLsbD 3 then 8 else 4
  ⟨b.t.nextId, b.y.unit, b.waitvTarget.space, place b.waitvTarget.owner
    (h.addr (b.y.offset true ((b.y.active.head?).getD 0))).toNat, size, false, scaRaw b.y.r (8 * size) b.y.f.c.toNat, h.raw⟩

/-- A WAITV issues: lanes in ACTIVE, no fence and room in the log, no logged read of its own, the checks passed and nothing it must
wait for (R179, R197, R198, R307). -/
def Begun.WaitvIssues (b : Begun) : Prop :=
  let h := b.t.ropeHandle b.y.r (b.y.f.a.toNat % 16)
  let size := if b.y.f.d.getLsbD 3 then 8 else 4
  let els := b.y.elems true (fun l => .load size false true 0 l)
  b.y.r.monitorOf b.y.unit = none ∧ b.y.act ≠ 0 ∧ b.t.fenced b.y.k b.y.r b.y.unit = false ∧ b.t.logUsed b.y.c b.y.r.quad < 256 ∧
  b.t.log.any (fun e => e.rope == b.y.k && e.unit == b.y.unit && e.pc == b.y.pc && e.isWaitv b.y.r) = false ∧
  b.y.addrTrap b.t h ⟨[0, 1, 4], 1, .load⟩ true size size els = none ∧ b.t.behindLog b.y.k b.waitvTarget h els = false

/-- What a WAITV reads in a state, by its monitor: the state after the translation of its read, which is made at the word's home, the
frame and the bytes; none where the page is not pinned, a GLOBAL word is not translated or its line, or the ring's, is poisoned
(R191, R197, R287, R298, R302, R357). -/
def State.waitvReads (s : State) (t : Target) (m : Monitor) : Option (State × Nat × List Byte) :=
  let a := m.addr % 2 ^ 64
  if t.space = 1 then
    match tget s.wgs t.wg with
    | some w => if w.pinnedAt a m.size then some (s, 0, s.readAt t 0 a m.size) else none
    | none => none
  else if t.space = 0 then
    match s.xlate { t with core := none } a .read with
    | (.ok fr _ _ _, s1) =>
      if s1.poisoned (physOf fr a) then none else some (s1.recall t.asid a, fr, (s1.recall t.asid a).readAt t fr a m.size)
    | _ => none
  else if s.ringPoison t (m.lane 0) then none
  else some (s.ringOwn t a m.size, 0, s.readAt t 0 a m.size)

/-- A WAITV has read its word by a monitor (R197): where the comparison, signed where D[4] is set, holds, it completes with the effect
of FENCE.ACQ at its scope after its read and its monitor freed, else its unit sleeps on the monitor. -/
def Begun.WaitvDone (b : Begun) (o : Host.Outcome State Fault Refusal) (s1 : State) (t : Target) (m : Monitor) : Prop :=
  let f := b.y.f
  let a := m.addr % 2 ^ 64
  let val (v : Nat) : Int := if f.d.getLsbD 4 then toSigned (8 * m.size) v else v
  let sc := f.d.toNat / 32
  ∀ s2 fr bs, s1.waitvReads t m = some (s2, fr, bs) → f.d.toNat % 8 < 6 →
    if intCond (f.d.toNat % 8) (val (leNat bs)) (val m.cmp) = true then
      let s3 := s2.observes (.rope b.y.k) s2.nextId (s2.placeOf t fr a m.size) (some sc)
      o = .next (b.after ((s3.fenceAcquires (.rope b.y.k) s2.nextId sc).onRope b.y.k (fun r => { r with
        fence := ⟨s2.nextId, r.fence.rel, tset r.fence.scopes sc s2.nextId, r.fence.rels⟩
        monitors := r.monitors.filter (fun n => n.unit != b.y.unit) })) [] 0 .fall)
    else
      o = .next (b.after (s2.onRope b.y.k (fun r =>
        { r with monitors := r.monitors.filter (fun n => n.unit != b.y.unit) ++ [{ m with woken := false }] })) [] 0 .done)

/-! Moving lanes. -/

/-- The order in which the checks on targets fail (R79, R301), by cause: the code handle's RIGHTS, its BOUND, the translation, ENTRY. -/
def targetOrder (cause : BitVec 8) : Nat := if cause = 5 then 0 else if cause = 4 then 1 else if cause = 2 then 3 else 2

/-- Lane `l` has the fault of a transfer's targets that is recorded (R160, R396): no lane's check fails before its own, and of those
whose own fails too it is the lowest. -/
def Begun.FaultsFirst (b : Begun) (target : Nat → DWord) (l : Nat) (q : FetchFault) : Prop :=
  let res (j : Nat) := b.t.targetAt b.y.k b.y.unit b.y.r (target j)
  l ∈ b.y.active ∧ res l = .fault q ∧ ∀ j ∈ b.y.active, res j = .ok ∨
    ∃ p, res j = .fault p ∧ (if j < l then targetOrder q.1 < targetOrder p.1 else targetOrder q.1 ≤ targetOrder p.1)

/-- The active lanes of strand `x`, at position `i`, have gone to their next PCs (R162): those that go where the lowest goes stand there,
the others are on the stack in groups of one PC, in ascending order of their lowest lane from the top on. -/
def Strand.MovesTo (x y : Strand) (i : Nat) (next : Nat → DWord) : Prop :=
  y = { x with pc := y.pc, active := y.active, stack := y.stack, unit := y.unit, after := y.after } ∧
  (∀ j < 4, x.active.getLsbD j = true → (∀ k < j, x.active.getLsbD k = false) → y.pc = next (4 * i + j)) ∧
  (∀ k < 4, y.active.getLsbD k = (x.active.getLsbD k && next (4 * i + k) == y.pc)) ∧
  ∃ gs, y.stack = gs ++ x.stack ∧
    (∀ k < 4, x.active.getLsbD k = true → next (4 * i + k) = y.pc ∨ ∃ g ∈ gs, g.1 = next (4 * i + k)) ∧
    (∀ g ∈ gs, g.1 ≠ y.pc ∧ g.2 ≠ 0 ∧ ∀ k < 4, g.2.getLsbD k = (x.active.getLsbD k && next (4 * i + k) == g.1)) ∧
    gs.Pairwise (fun g h => ∃ k < 4, g.2.getLsbD k = true ∧ ∀ j ≤ k, h.2.getLsbD j = false)

/-- The strands of a rope after the lanes of a unit have moved (R162): the unit's strands have gone to their next PCs and stand in one
unit where they stand at one PC; the other strands are as before. -/
def Rope.Moved (r q : Rope) (u : Nat) (next : Nat → DWord) : Prop :=
  q.strands.length = r.strands.length ∧
  (∀ (i : Nat) (x : Strand), r.strands[i]? = some x → ∃ y : Strand, q.strands[i]? = some y ∧
    if x.inUnit u then x.MovesTo y i next else y = x) ∧
  ∀ (i j : Nat) (x y : Strand), (r.strands.getD i Strand.none).inUnit u = true → (r.strands.getD j Strand.none).inUnit u = true →
    q.strands[i]? = some x → q.strands[j]? = some y → (x.unit = y.unit ↔ x.pc = y.pc)

/-- Check `n` of R179, and after those the scratchpad's of R222, fails at an exact offset: in their order V; reserved fields and the
stream of CTRL; the space; the rights; the alignment; the range; the declared scratchpad; what R241 admits; a scratchpad access in a
gate frame (R231). -/
def Issue.checkFails (x : Issue) (s : State) (h : HRef) (need : MemNeed) (size align n : Nat) (off : Int) : Prop :=
  let e := h.ent
  match n with
  | 0 => e.v = false
  | 1 => e.ok = false ∨ e.space = 4 ∧ s.ctrlStream h = none
  | 2 => e.space ∉ need.spaces
  | 3 => ∃ i < 4, need.rights.getLsbD i = true ∧ h.rights.getLsbD i = false
  | 4 => (if e.space = 4 then off else e.base + off) % align ≠ 0
  | 5 => off < 0 ∨ e.len < off + size
  | 6 => e.space = 1 ∧ (x.w.scratchSize : Int) < e.base + off + size
  | 7 => e.space = 4 ∧ ∀ q t, s.ctrlStream h = some (q, t) → ctrlAdmits t need.ctrl size off.toNat = false
  | _ => e.space = 1 ∧ x.r.frame ≠ none

/-- The cause and the reason of those checks (R180, R222). -/
def checkCause (n : Nat) : Nat × Nat :=
  ([(5, 1), (5, 2), (5, 3), (5, 4), (4, 2), (4, 1), (4, 3), (5, 3), (6, 2)] : List (Nat × Nat)).getD n (0, 0)

/-- An access that need not wait traps where a check fails (R8, R179). -/
def Begun.AccessTraps (b : Begun) (o : Host.Outcome State Fault Refusal) (s : State) (a : Access) : Prop :=
  ∀ q, b.y.act ≠ 0 → (if a.ld then b.y.r.ldc else b.y.r.stc) < 63 → b.t.logUsed b.y.c b.y.r.quad < 256 →
    b.t.fenced b.y.k b.y.r b.y.unit = false → b.y.addrTrap b.t b.memHandle a.need a.sc a.size a.align a.els = some q → o = .next (b.trapped s q)

/-- Check `n` of R230, by its reason: NEST, FRAY, ENTRY, ARGS, HANDLE, RESOURCE. -/
def Issue.gateFails (x : Issue) (s : State) (e : BitVec 512) (n : Nat) : Prop :=
  let field (lo w : Nat) : Nat := (e.extractLsb' lo w).toNat
  let barred (lo : Nat) : Prop := e.getLsbD (lo + 4) = true ∧
    let h := s.handle x.r.did x.r.asid (x.r.hr (field lo 4))
    (h.ent.v = false ∨ h.ent.space ∉ [0, 2, 3])
  match n with
  | 1 => x.r.frame ≠ none ∨ x.r.priv = .handler
  | 2 => x.r.quiescent = false
  | 3 => e.getLsbD 16 = false ∨ (∃ r ∈ [(17, 15), (46, 2), (57, 7), (216, 8), (248, 8), (265, 7), (281, 7), (332, 180)], field r.1 r.2 ≠ 0) ∨
      8 < field 32 4 ∨ 8 < field 36 4 ∨ field 40 6 = 0 ∨ 32 < field 40 6 ∨ 16 < field 48 4 + field 52 5 ∨
      ∃ q, s.targetAt x.k x.unit (x.asCallee s e) (e.extractLsb' 64 64) = .fault q
  | 4 => x.r.regs < x.f.a.toNat + max (field 32 4) (field 36 4)
  | 5 => barred 256 ∨ barred 272
  | _ => ∀ slot, x.core.slotOf (e.extractLsb' 0 16) = some slot →
      x.core.rfBytes slot < s.rfUsed x.c x.r.quad slot + 16 * 8 * field 40 6 * x.r.presentStrands

/-- An instruction that starts and that a step of R139 stops: it traps with that step's record, or waits for a slot to leave
PENDING with nothing done. -/
def StopsAtItsMaps (i : Fields → Instr) (op : Nat) : Prop :=
  ∀ f s b, s.begun op f pb0 = some b →
    let chk := b.y.mapChecks b.t (rowOf b.m f b.m.aw) (rowOf b.m f b.m.bw) (!b.m.ty.isFloat) (!b.m.ty.isFloat) false
    (∀ q, chk = some (.trap q) → exec (i f) s = .next (b.trapped s q)) ∧ (chk = some .wait → exec (i f) s = .next s)

/-! Engines and traps. -/

/-- An SFU enqueue completes (R199 to R203), whatever its ACTIVE. -/
def EnqueuesWith (i : Fields → Instr) (op fn : Nat) : Prop :=
  ∀ (f : Fields) (s : State) (b : Begun) (s1 : State) (extra : Nat), s.begun op f pb0 = some b → b.mapped = some (s1, extra) →
    let share := b.y.core.sfuShare b.y.r.dslot
    let q := quadKey b.y.c b.y.r.quad
    let n := f.d.toNat % 16
    share ≠ 0 → (b.y.r.tok n).state ≠ .pending → (b.t.sfu.filter (fun e => e.quad == q)).length < 32 →
    ((b.t.sfu.filter (fun e => e.quad == q)).filter (fun e => e.dslot == b.y.r.dslot)).length < share →
    let c := f.cw .f32
    let src := b.y.operand b.t f.mae f.ma.toNat (rowOf b.m f b.m.aw) 1 false (modSx c.modA) c.mz
      (fun l => readElems .f32 c.modA (b.y.r.vr f.a.toNat l).toNat)
    let one (l : Nat) := sfFn fn (f32Bits (src.at_ l 0).1)
    let tok : Token := ⟨.pending, b.y.r.did, b.y.act, b.y.active.map (fun l => (l, BitVec.ofNat 32 (one l).1)),
      b.y.active.map (fun l => (l, (one l).2 ||| (src.at_ l 0).2))⟩
    let s2 := s1.drawDelay.2.onRope b.y.k (fun r => r.setTok n tok)
    exec (i f) s = .next (b.after
      { s2 with sfu := s2.sfu ++ [⟨b.y.k, n, b.y.r.dslot, q, b.y.core.cyc + 12 + s1.drawDelay.1⟩] } [] extra .fall)

/-- An SFU enqueue completes, whatever the result, where the domain slot has a share and the token and the queues have room: the
token is PENDING with the lanes of ACTIVE, and the quadrant's queue holds one entry more, due 12 cycles later or later (R199). -/
def EnqueuesQuietly (i : Fields → Instr) (op : Nat) : Prop :=
  ∀ (f : Fields) (s : State) (b : Begun), s.begun op f pb0 = some b → b.mapped.isSome = true →
    let mine := b.t.sfu.filter (fun e => e.quad == quadKey b.y.c b.y.r.quad)
    (b.y.r.tok (f.d.toNat % 16)).state ≠ .pending → mine.length < 32 →
    (mine.filter (fun e => e.dslot == b.y.r.dslot)).length < b.y.core.sfuShare b.y.r.dslot →
    ∃ t, exec (i f) s = .next t ∧ b.GoesOn s t ∧
      (∃ e : SfuEntry, t.sfu = s.sfu ++ [e] ∧ e.rope = s.cur ∧ e.tok = f.d.toNat % 16 ∧ b.x.core.cyc + 12 ≤ e.due) ∧
      ∃ r : Rope, tget t.ropes s.cur = some r ∧ (r.tok (f.d.toNat % 16)).state = .pending ∧
        (r.tok (f.d.toNat % 16)).did = b.x.r.did ∧ (r.tok (f.d.toNat % 16)).lanes = b.y.act

/-- A copy program has been started (R206, R208): one more context, which stands at `pc` with registers `e` and the rope's
handles, and is counted in CPC; registers and memories are as before. -/
def Begun.StartsCopy (b : Begun) (t : State) (pc : DWord) (cmd : Option CpCmd) (e : Tbl Word) : Prop :=
  t.mem = b.t.mem ∧ b.t.SameWgs t ∧ t.nextId = b.t.nextId + 1 ∧
  (∃ c : CopyCtx, tget t.ctxs b.t.nextId = some c ∧ c.pc = pc ∧ c.start = pc ∧ c.e = e ∧ c.cmd = cmd ∧ c.rope = b.y.k ∧ c.did = b.y.r.did ∧
    c.task = none ∧ ∀ n < 16, rget 0 c.h n = b.y.r.hr n) ∧
  ∀ r : Rope, tget b.t.ropes b.y.k = some r → tget t.ropes b.y.k =
    some { r with cpc := r.cpc + 1, copies := r.copies ++ [(b.t.nextId, false)] }

/-- A task whose decode is complete (R266): its entry is the youngest of the window of the current stream, `t` as its decode
has left it, and the decode index stands behind its words. -/
def State.joins (s : State) (t : Stream) (k : Task) : State :=
  { s.setStream s.curStream ({ t with
      window := t.window ++ [k], decode := t.decode + k.n, state := .running, got := [], ended := t.ended || k.top == 15 }.stamp s.etime) with
    turn := .choose }

/-- A rope back from a trap at an address (R238), to issue from a cycle on (R73, R235), with the skips of its TRET left (R324): the
record stays readable (R236), a barrier wait goes on (R170). -/
def Rope.ReturnsTo (q r : Rope) (c : TrapCtx) (u : Nat) (pc : DWord) (ready skip : Nat) : Prop :=
  q.trap = none ∧ q.lastTrap = c.trap ∧ q.priv = c.prev ∧ q.schedOf u = ⟨ready, 0, skip, 0, false, c.blocked⟩ ∧ q.v = r.v ∧ q.p = r.p ∧ q.sr 60 = c.trap.saved.getD 0 0 ∧ q.sr 61 = c.trap.saved.getD 1 0 ∧
  q.sr 62 = c.trap.saved.getD 2 0 ∧ q.sr 63 = c.trap.saved.getD 3 0 ∧ (∀ n, n < 60 → q.sr n = r.sr n) ∧
  ∀ (i : Nat) (x : Strand), r.strands[i]? = some x → ∃ y : Strand, q.strands[i]? = some y ∧
    if x.inUnit u then y = { x with pc := pc } else y = { x with stopped := false }

/-- An outstanding result no destination of which is one that writes go to. -/
def Outst.Apart (o : Outst) (ws : List RegWrite) : Prop := ∀ w ∈ o.writes ++ o.waits, RegWrite.less ws 0xFFFFFFFF true w = some w

/-! Frames. -/

/-- The register a write goes to; none for the status bits of p6 (R18). -/
def RegWrite.target : RegWrite → Option RegRef
  | .vec n _ _ => some (.vec n)
  | .scalar n _ => some (.sca n)
  | .pred n _ _ => some (.prd n)
  | .status _ => none

/-- Whether a write leaves the lanes outside a mask alone (R69). -/
def RegWrite.confinedTo (act : Word) : RegWrite → Bool
  | .vec _ l _ => act.getLsbD l
  | .scalar _ _ => true
  | .pred _ m _ => m &&& ~~~act == 0
  | .status m => m &&& ~~~act == 0

/-- The strands and writes of a rope's results in flight. -/
def Rope.landing (r : Rope) : List (BitVec 8 × List RegWrite) := r.inflight.map (fun p => (p.strands, p.writes))

/-- The strands of a rope but for the cycles in which lanes that a transfer has deferred may issue (R160). -/
def Rope.standing (r : Rope) : List Strand := r.strands.map (fun t => { t with after := 0 })

/-- A rope of which nothing has changed but when its results land and its lanes issue (R152). -/
def Rope.OnlyLater (r q : Rope) : Prop :=
  q = { r with inflight := q.inflight, sched := q.sched, strands := q.strands } ∧ q.landing = r.landing ∧ q.standing = r.standing

/-- What an instruction that only writes registers leaves: nothing has changed but its rope's lanes and scheduling, the results
in flight, the core's clock and issue record, the map arrays, a prologue's count, and where a fenced array holds the quadrant the
time of what runs in it (R152), by a read of CYC the count that isolation goes on from (R26), and by a WAITC with limits of 0 the marks of the
rope's accesses (R286). The results go to the destination and p6, in lanes of ACTIVE. -/
def Begun.OnlyRegisters (b : Begun) (s t : State) : Prop :=
  t = { s with turn := .choose, free := t.free, ropes := t.ropes, wgs := t.wgs, cores := t.cores, arrays := t.arrays } ∧
  (∀ j, j ≠ s.cur → tget t.ropes j = none ∧ tget s.ropes j = none ∨
    ∃ r q, tget s.ropes j = some r ∧ tget t.ropes j = some q ∧ r.OnlyLater q) ∧
  (let u := if b.x.op = 0x160 ∧ b.x.f.a = 0 ∧ b.x.f.b = 0 then b.t.waitReleases s.cur else s
   ∀ j, tget t.wgs j = (tget u.wgs j).map (fun w => if j = b.x.r.wg then { w with pro := w.pro.map (· + 1) } else w)) ∧
  (∀ c, c ≠ b.x.c → t.core c = s.core c) ∧
  (let q := t.core b.x.c
   q = { s.core b.x.c with issued := q.issued, flight := q.flight, f64 := q.f64, holds := q.holds, held := q.held, iso := q.iso } ∧
   (q.iso = (s.core b.x.c).iso ∨ b.x.op = 0x1DA ∧ b.x.f.a = 0 ∧ q.iso = rset 0 (s.core b.x.c).iso b.y.r.did.toNat
     (max (rget 0 (s.core b.x.c).iso b.y.r.did.toNat) b.y.core.cyc))) ∧
  ∃ r : Rope, tget t.ropes s.cur = some r ∧
    r = { b.x.r with suppress := r.suppress, portWait := r.portWait, inflight := r.inflight, outst := r.outst, strands := r.strands, sched := r.sched } ∧
    (∀ e ∈ r.suppress, e ∈ b.x.r.suppress) ∧
    (r.landing = b.x.r.landing ∨ ∃ ws, r.landing = b.x.r.landing ++ [(b.x.r.unitStrands b.x.unit, ws)] ∧
      ∀ w ∈ ws, w.confinedTo b.y.act = true ∧ (w.target = none ∨ ∃ d ∈ b.w, w.target = some d))

/-- All that an instruction of registers may do, in every form: not be ready, end a prologue that may not hold it, trap, ask for the
translation that a target lacks (R306), or only write registers. -/
def ChangesOnlyRegisters (i : Fields → Instr) (op : Nat) : Prop :=
  ∀ (f : Fields) (s t : State), (i f).WellFormed → exec (i f) s = .next t →
    t = s ∨
    (∃ x reason, s.issuing op f = some x ∧ x.proFault = some reason ∧
      t = { (s.raiseFault x.w 7 reason 0 none).killWg x.r.wg with turn := .choose }) ∨
    (∃ x q, s.issuing op f = some x ∧ t = { x.raise s q with turn := .choose }) ∨
    (∃ b reason va, s.begun op f pb0 = some b ∧ t = { b.t.askFetch b.y.k b.y.unit b.y.r reason va with turn := .choose }) ∨
    ∃ b, s.begun op f pb0 = some b ∧ b.OnlyRegisters s t

end Sys2Proof.Machine
end

