-- ==== Sys2Proof/Certificates/Slice0/Obligations.lean ====
section
/-! DEFINITION. The statements for the provers. Each docstring says which rules of the manual it formalises. -/

open Sys2Proof Sys2Proof.Machine

/-- Every IADD, ISUB, IMIN and IMAX that starts completes, and D receives, element by element, the exact sum, difference, minimum or maximum of A and B as read, kept by R93: low bits, or clamped with status under SAT. Every IMUL, IMULH and IMAD that starts completes: IMUL keeps the exact product and IMAD the product plus C, by R93; IMULH writes bits [2w-1:w] of the product modulo 2^(2w). -/
def Obligations.IntegerSumsKeepTheExactResult : Prop :=
  ((CompletesWith .iaddS32 0x000 (resAB (fun m c a b => kept m c (a.int + b.int))) ∧
  CompletesWith .iaddN32 0x001 (resAB (fun m c a b => kept m c (a.int + b.int))) ∧
  CompletesWith .iaddS64 0x004 (resAB (fun m c a b => kept m c (a.int + b.int))) ∧
  CompletesWith .iaddN64 0x005 (resAB (fun m c a b => kept m c (a.int + b.int))) ∧
  CompletesWith .iaddS16 0x008 (resAB (fun m c a b => kept m c (a.int + b.int))) ∧
  CompletesWith .iaddN16 0x009 (resAB (fun m c a b => kept m c (a.int + b.int))) ∧
  CompletesWith .iaddS8 0x00C (resAB (fun m c a b => kept m c (a.int + b.int))) ∧
  CompletesWith .iaddN8 0x00D (resAB (fun m c a b => kept m c (a.int + b.int)))) ∧
  (CompletesWith .isubS32 0x002 (resAB (fun m c a b => kept m c (a.int - b.int))) ∧
  CompletesWith .isubN32 0x003 (resAB (fun m c a b => kept m c (a.int - b.int))) ∧
  CompletesWith .isubS64 0x006 (resAB (fun m c a b => kept m c (a.int - b.int))) ∧
  CompletesWith .isubN64 0x007 (resAB (fun m c a b => kept m c (a.int - b.int))) ∧
  CompletesWith .isubS16 0x00A (resAB (fun m c a b => kept m c (a.int - b.int))) ∧
  CompletesWith .isubN16 0x00B (resAB (fun m c a b => kept m c (a.int - b.int))) ∧
  CompletesWith .isubS8 0x00E (resAB (fun m c a b => kept m c (a.int - b.int))) ∧
  CompletesWith .isubN8 0x00F (resAB (fun m c a b => kept m c (a.int - b.int)))) ∧
  (CompletesWith .iminS32 0x010 (resAB (fun m c a b => kept m c (if a.int ≤ b.int then a.int else b.int))) ∧
  CompletesWith .iminN32 0x011 (resAB (fun m c a b => kept m c (if a.int ≤ b.int then a.int else b.int)))) ∧
  (CompletesWith .imaxS32 0x012 (resAB (fun m c a b => kept m c (if a.int ≤ b.int then b.int else a.int))) ∧
  CompletesWith .imaxN32 0x013 (resAB (fun m c a b => kept m c (if a.int ≤ b.int then b.int else a.int))))) ∧
  ((CompletesWith .imulS32 0x040 (resAB (fun m c a b => kept m c (a.int * b.int))) ∧
  CompletesWith .imulN32 0x041 (resAB (fun m c a b => kept m c (a.int * b.int))) ∧
  CompletesWith .imulS16 0x044 (resAB (fun m c a b => kept m c (a.int * b.int))) ∧
  CompletesWith .imulN16 0x045 (resAB (fun m c a b => kept m c (a.int * b.int))) ∧
  CompletesWith .imulS8 0x046 (resAB (fun m c a b => kept m c (a.int * b.int))) ∧
  CompletesWith .imulN8 0x047 (resAB (fun m c a b => kept m c (a.int * b.int))) ∧
  CompletesWith .imulS64 0x050 (resAB (fun m c a b => kept m c (a.int * b.int))) ∧
  CompletesWith .imulN64 0x051 (resAB (fun m c a b => kept m c (a.int * b.int)))) ∧
  (CompletesWith .imadS32 0x048 (resABC (fun m c a b d => kept m c (a.int * b.int + d.int))) ∧
  CompletesWith .imadN32 0x049 (resABC (fun m c a b d => kept m c (a.int * b.int + d.int))) ∧
  CompletesWith .imadS16 0x04A (resABC (fun m c a b d => kept m c (a.int * b.int + d.int))) ∧
  CompletesWith .imadN16 0x04B (resABC (fun m c a b d => kept m c (a.int * b.int + d.int)))) ∧
  (CompletesWith .imulhS32 0x042 (resAB (fun m _ a b => erOf ((BitVec.ofInt (2 * m.ty.width) (a.int * b.int)).extractLsb' m.ty.width m.ty.width))) ∧
  CompletesWith .imulhN32 0x043 (resAB (fun m _ a b => erOf ((BitVec.ofInt (2 * m.ty.width) (a.int * b.int)).extractLsb' m.ty.width m.ty.width))) ∧
  CompletesWith .imulhS64 0x052 (resAB (fun m _ a b => erOf ((BitVec.ofInt (2 * m.ty.width) (a.int * b.int)).extractLsb' m.ty.width m.ty.width))) ∧
  CompletesWith .imulhN64 0x053 (resAB (fun m _ a b => erOf ((BitVec.ofInt (2 * m.ty.width) (a.int * b.int)).extractLsb' m.ty.width m.ty.width)))))

/-- Every IDP.S8, IDP.N8 and IDP.N4 that starts completes: D receives in each lane of ACTIVE the accumulator C plus the products of the elements of A and B at every position, kept by R93 as S32 or N32. -/
def Obligations.DotProductsAccumulateInThirtyTwoBits : Prop :=
  CompletesWith .idpS8 0x04C (fun b l => keptAs .s32 (b.x.f.cw b.m.ty).sat
    (((b.y.srcC b.m).at_ l 0).1.int + ((List.range (elemCount b.m b.x.f)).map (fun e =>
      ((b.y.srcA b.t b.m).at_ l e).1.int * ((b.y.srcBvec b.t b.m).at_ l e).1.int)).sum)) ∧
  CompletesWith .idpN8 0x04D (fun b l => keptAs .n32 (b.x.f.cw b.m.ty).sat
    (((b.y.srcC b.m).at_ l 0).1.int + ((List.range (elemCount b.m b.x.f)).map (fun e =>
      ((b.y.srcA b.t b.m).at_ l e).1.int * ((b.y.srcBvec b.t b.m).at_ l e).1.int)).sum)) ∧
  CompletesWith .idpN4 0x04E (fun b l => keptAs .n32 (b.x.f.cw b.m.ty).sat
    (((b.y.srcC b.m).at_ l 0).1.int + ((List.range (elemCount b.m b.x.f)).map (fun e =>
      ((b.y.srcA b.t b.m).at_ l e).1.int * ((b.y.srcBvec b.t b.m).at_ l e).1.int)).sum))

/-- Every IDIV and IREM that starts and whose conditions are not enabled as traps completes: the quotient truncated toward zero or the remainder a - q*b, all ones and a for a zero divisor, in the low bits, with status in each lane that has DIVZ or DIVOVF. Where the lowest lane of ACTIVE with an enabled condition has DIVZ or DIVOVF, every IDIV and IREM takes that precise trap and writes nothing. -/
def Obligations.DivisionTruncatesOrTraps : Prop :=
  (DividesWith .idivS32 0x054 .s32 false ∧
  DividesWith .idivN32 0x055 .n32 false ∧
  DividesWith .iremS32 0x056 .s32 true ∧
  DividesWith .iremN32 0x057 .n32 true ∧
  DividesWith .idivS64 0x058 .s64 false ∧
  DividesWith .idivN64 0x059 .n64 false ∧
  DividesWith .iremS64 0x05A .s64 true ∧
  DividesWith .iremN64 0x05B .n64 true) ∧
  (DivisionTraps .idivS32 0x054 .s32 ∧
  DivisionTraps .idivN32 0x055 .n32 ∧
  DivisionTraps .iremS32 0x056 .s32 ∧
  DivisionTraps .iremN32 0x057 .n32 ∧
  DivisionTraps .idivS64 0x058 .s64 ∧
  DivisionTraps .idivN64 0x059 .n64 ∧
  DivisionTraps .iremS64 0x05A .s64 ∧
  DivisionTraps .iremN64 0x05B .n64)

/-- AND, OR, XOR and ANDN that start complete with a & b, a | b, a ^ b and a & ~b on the 32-bit values in D, and NOT with ~b, in vector and scalar forms. -/
def Obligations.LogicIsBitwise : Prop :=
  CompletesWith .andB 0x018 (resAB (fun _ _ a b => erOf (a.word 32 &&& b.word 32))) ∧
  CompletesWith .orB 0x019 (resAB (fun _ _ a b => erOf (a.word 32 ||| b.word 32))) ∧
  CompletesWith .xorB 0x01A (resAB (fun _ _ a b => erOf (a.word 32 ^^^ b.word 32))) ∧
  CompletesWith .andnB 0x01B (resAB (fun _ _ a b => erOf (a.word 32 &&& ~~~(b.word 32)))) ∧
  CompletesWith .notB 0x01C (resB (fun _ _ b => erOf (~~~(b.word 32))))

/-- Every shift that starts completes: the count is the low 8 bits of B; SHL and SHR.N give 0 from the width on, SHR.S copies of the top bit, ROL rotates by the count modulo 32. BFE completes with the field of A that B names, zero- or sign-extended; BFI with C whose field is replaced by the low bits of A. MOV and MOV64 that start complete with B in D; SEL and SEL64 with A where the bit of the predicate is 1 and B where it is 0; LEA with A times 2^sh plus B modulo the width of D; BITMIX with the bits its table gives the bits of A, B and C. PLOP that starts completes with bit 4*P[pa]+2*P[pb]+P[pc] of its table in the lanes of ACTIVE; PRDS with all 32 bits of the predicate, absent lanes 0, in the scalar; PWRS with the bits of the scalar in the lanes of ACTIVE; none writes anything when ACTIVE is empty. -/
def Obligations.ShiftsFieldsAndMoves : Prop :=
  (CompletesWith .shlN32 0x020 (resAB (fun _ _ a b => if 32 ≤ countOf b then erOf (0#32) else erOf (a.word 32 <<< countOf b))) ∧
  CompletesWith .shrN32 0x021 (resAB (fun _ _ a b => if 32 ≤ countOf b then erOf (0#32) else erOf (a.word 32 >>> countOf b))) ∧
  CompletesWith .shrS32 0x022 (resAB (fun _ _ a b => erOf ((a.word 32).sshiftRight (countOf b)))) ∧
  CompletesWith .rolN32 0x023 (resAB (fun _ _ a b => erOf ((a.word 32).rotateLeft (countOf b % 32)))) ∧
  CompletesWith .shlN64 0x024 (resAB (fun _ _ a b => if 64 ≤ countOf b then erOf (0#64) else erOf (a.word 64 <<< countOf b))) ∧
  CompletesWith .shrN64 0x025 (resAB (fun _ _ a b => if 64 ≤ countOf b then erOf (0#64) else erOf (a.word 64 >>> countOf b))) ∧
  CompletesWith .shrS64 0x026 (resAB (fun _ _ a b => erOf ((a.word 64).sshiftRight (countOf b)))) ∧
  CompletesWith .bfeS32 0x064 (resAB (fun _ _ a b => erOf (((a.word 32).extractLsb' (fieldPos b) (fieldWid b)).signExtend 32))) ∧
  CompletesWith .bfeN32 0x065 (resAB (fun _ _ a b => erOf (((a.word 32).extractLsb' (fieldPos b) (fieldWid b)).setWidth 32))) ∧
  CompletesWith .bfiN32 0x066 (resABC (fun _ _ a b c => erOf
    ((c.word 32 &&& ~~~(fieldMask b)) ||| ((a.word 32 <<< fieldPos b) &&& fieldMask b))))) ∧
  (CompletesWith .mov 0x028 (resB (fun _ _ b => erOf (b.word 32))) ∧
  CompletesWith .mov64 0x029 (resB (fun _ _ b => erOf (b.word 64))) ∧
  CompletesWith .leaN32 0x02C (resAB (fun _ c a b => erOf (BitVec.ofInt 32 (a.int * 2 ^ (c.imm.toNat % 16) + b.int)))) ∧
  CompletesWith .leaN64 0x02D (resAB (fun _ c a b => erOf (BitVec.ofInt 64 (a.int * 2 ^ (c.imm.toNat % 16) + b.int)))) ∧
  CompletesWith .bitmix 0x01D (resABC (fun _ c a b d => erOf (bitsOf (fun k =>
    c.imm.getLsbD (((a.word 32).getLsbD k).toNat + 2 * ((b.word 32).getLsbD k).toNat + 4 * ((d.word 32).getLsbD k).toNat))))) ∧
  CompletesWith .sel 0x02A (selected 32) ∧
  CompletesWith .sel64 0x02B (selected 64)) ∧
  ((∀ f s b, s.begun 0x01E f pb0 = some b →
    exec (.plop f) s = .next (b.after b.t (if b.y.act = 0 then [] else [.pred (f.d.toNat % 8) b.y.act (bitsOf (fun l =>
      f.c.getLsbD (4 * ((b.y.r.pr f.a.toNat).getLsbD l).toNat + 2 * ((b.y.r.pr f.b.toNat).getLsbD l).toNat +
        ((b.y.r.pr (f.d.toNat / 8)).getLsbD l).toNat)))]) 0 .fall)) ∧
  (∀ f s b, s.begun 0x01F f pb0 = some b →
    exec (.prds f) s = .next (b.after b.t (if b.y.act = 0 then [] else [.scalar f.d.toNat (b.y.r.pr f.a.toNat &&& b.y.r.present)]) 0 .fall)) ∧
  (∀ f s b, s.begun 0x027 f pb0 = some b →
    exec (.pwrs f) s = .next (b.after b.t (if b.y.act = 0 then [] else [.pred f.d.toNat b.y.act (b.y.r.sr f.a.toNat)]) 0 .fall)))

/-- POPC, CLZ, CTZ and BREV that start complete, in vector and scalar forms, with the number of 1 bits of the 32-bit operand B, of 0 bits above its highest 1 bit or below its lowest one, 32 for zero, and its reversed bits. -/
def Obligations.BitCounts : Prop :=
  CompletesWith .popcN32 0x060 (resB (fun _ _ b => erOf (BitVec.ofNat 32 ((List.range 32).filter (fun k => (b.word 32).getLsbD k)).length))) ∧
  CompletesWith .clzN32 0x061 (resB (fun _ _ b => erOf (b.word 32).clz)) ∧
  CompletesWith .ctzN32 0x062 (resB (fun _ _ b => erOf (b.word 32).reverse.clz)) ∧
  CompletesWith .brevN32 0x063 (resB (fun _ _ b => erOf (b.word 32).reverse))

/-- Every ICMP that starts completes: the bit of the destination predicate in each lane of ACTIVE becomes the condition on the exact values of A and B; no status is raised. Every FCMP that starts and whose flags do not trap completes: the bit of the destination predicate in each lane of ACTIVE becomes the floating condition on A and B, with IV where an ordering condition meets a NaN. -/
def Obligations.ComparesWriteThePredicate : Prop :=
  (ComparesWith .icmpS32 0x014 (fun cc a b => (intCond cc a.int b.int, 0)) ∧
  ComparesWith .icmpN32 0x015 (fun cc a b => (intCond cc a.int b.int, 0)) ∧
  ComparesWith .icmpS64 0x016 (fun cc a b => (intCond cc a.int b.int, 0)) ∧
  ComparesWith .icmpN64 0x017 (fun cc a b => (intCond cc a.int b.int, 0))) ∧
  (ComparesWith .fcmpF32 0x086 (fun cc a b => floatCond cc a.flt b.flt) ∧
  ComparesWith .fcmpF16 0x08E (fun cc a b => floatCond cc a.flt b.flt) ∧
  ComparesWith .fcmpBf16 0x096 (fun cc a b => floatCond cc a.flt b.flt) ∧
  ComparesWith .fcmpF64 0x09E (fun cc a b => floatCond cc a.flt b.flt))

/-- Every FADD, FSUB, FMUL and FFMA that starts and whose flags do not trap completes: D receives, element by element, the first NaN source, or the exact result rounded once by RM and SAT into the type of the mode, F32 when widened. -/
def Obligations.FloatingSumsAndProductsRoundOnce : Prop :=
  (CompletesWith .faddF32 0x080 (resAB (fun m c a b => roundedIn (floatTy m c) c (firstNan a.flt b.flt (faddExact c.rm.toNat a.flt b.flt)))) ∧
   CompletesWith .faddF16 0x088 (resAB (fun m c a b => roundedIn (floatTy m c) c (firstNan a.flt b.flt (faddExact c.rm.toNat a.flt b.flt)))) ∧
   CompletesWith .faddBf16 0x090 (resAB (fun m c a b => roundedIn (floatTy m c) c (firstNan a.flt b.flt (faddExact c.rm.toNat a.flt b.flt)))) ∧
   CompletesWith .faddF64 0x098 (resAB (fun m c a b => roundedIn (floatTy m c) c (firstNan a.flt b.flt (faddExact c.rm.toNat a.flt b.flt))))) ∧
  (CompletesWith .fsubF32 0x081 (resAB (fun m c a b => roundedIn (floatTy m c) c (firstNan a.flt b.flt (faddExact c.rm.toNat a.flt (fneg b.flt))))) ∧
   CompletesWith .fsubF16 0x089 (resAB (fun m c a b => roundedIn (floatTy m c) c (firstNan a.flt b.flt (faddExact c.rm.toNat a.flt (fneg b.flt))))) ∧
   CompletesWith .fsubBf16 0x091 (resAB (fun m c a b => roundedIn (floatTy m c) c (firstNan a.flt b.flt (faddExact c.rm.toNat a.flt (fneg b.flt))))) ∧
   CompletesWith .fsubF64 0x099 (resAB (fun m c a b => roundedIn (floatTy m c) c (firstNan a.flt b.flt (faddExact c.rm.toNat a.flt (fneg b.flt)))))) ∧
  (CompletesWith .fmulF32 0x082 (resAB (fun m c a b => roundedIn (floatTy m c) c (firstNan a.flt b.flt (fmulExact a.flt b.flt)))) ∧
   CompletesWith .fmulF16 0x08A (resAB (fun m c a b => roundedIn (floatTy m c) c (firstNan a.flt b.flt (fmulExact a.flt b.flt)))) ∧
   CompletesWith .fmulBf16 0x092 (resAB (fun m c a b => roundedIn (floatTy m c) c (firstNan a.flt b.flt (fmulExact a.flt b.flt)))) ∧
   CompletesWith .fmulF64 0x09A (resAB (fun m c a b => roundedIn (floatTy m c) c (firstNan a.flt b.flt (fmulExact a.flt b.flt))))) ∧
  (CompletesWith .ffmaF32 0x083 (resABC (fun m c a b d => roundedIn (floatTy m c) c (ffmaExact c.rm.toNat a.flt b.flt d.flt))) ∧
   CompletesWith .ffmaF16 0x08B (resABC (fun m c a b d => roundedIn (floatTy m c) c (ffmaExact c.rm.toNat a.flt b.flt d.flt))) ∧
   CompletesWith .ffmaBf16 0x093 (resABC (fun m c a b d => roundedIn (floatTy m c) c (ffmaExact c.rm.toNat a.flt b.flt d.flt))) ∧
   CompletesWith .ffmaF64 0x09B (resABC (fun m c a b d => roundedIn (floatTy m c) c (ffmaExact c.rm.toNat a.flt b.flt d.flt))))

/-- Every FMIN, FMAX and FCLASS that starts and whose flags do not trap completes: with the source that the table of R121 chooses by the numbers the sources stand for, rounded into the type of the mode; or with the mask whose one bit is the class of B by the table of R123. -/
def Obligations.FloatingMinimumMaximumAndClass : Prop :=
  (CompletesWith .fminF32 0x084 (resAB (fun m c a b => roundedIn (floatTy m c) c (extremeOf false a.flt b.flt, 0))) ∧
   CompletesWith .fminF16 0x08C (resAB (fun m c a b => roundedIn (floatTy m c) c (extremeOf false a.flt b.flt, 0))) ∧
   CompletesWith .fminBf16 0x094 (resAB (fun m c a b => roundedIn (floatTy m c) c (extremeOf false a.flt b.flt, 0))) ∧
   CompletesWith .fminF64 0x09C (resAB (fun m c a b => roundedIn (floatTy m c) c (extremeOf false a.flt b.flt, 0)))) ∧
  (CompletesWith .fmaxF32 0x085 (resAB (fun m c a b => roundedIn (floatTy m c) c (extremeOf true a.flt b.flt, 0))) ∧
   CompletesWith .fmaxF16 0x08D (resAB (fun m c a b => roundedIn (floatTy m c) c (extremeOf true a.flt b.flt, 0))) ∧
   CompletesWith .fmaxBf16 0x095 (resAB (fun m c a b => roundedIn (floatTy m c) c (extremeOf true a.flt b.flt, 0))) ∧
   CompletesWith .fmaxF64 0x09D (resAB (fun m c a b => roundedIn (floatTy m c) c (extremeOf true a.flt b.flt, 0)))) ∧
  (CompletesWith .fclassF32 0x087 (resB (fun m _ b => erOf (BitVec.ofNat 64 (2 ^ classBit m.ty b.flt)))) ∧
   CompletesWith .fclassF16 0x08F (resB (fun m _ b => erOf (BitVec.ofNat 64 (2 ^ classBit m.ty b.flt)))) ∧
   CompletesWith .fclassBf16 0x097 (resB (fun m _ b => erOf (BitVec.ofNat 64 (2 ^ classBit m.ty b.flt)))) ∧
   CompletesWith .fclassF64 0x09F (resB (fun m _ b => erOf (BitVec.ofNat 64 (2 ^ classBit m.ty b.flt)))))

/-- Where a lane of ACTIVE raises a flag that the domain enables for trapping, every FADD, FSUB, FMUL, FFMA, FMIN and FMAX raises FPX and writes nothing: LANEMASK holds the lanes, INFO the union of the enabled flags raised. -/
def Obligations.EnabledFlagsTrapBeforeAnythingIsWritten : Prop :=
  (RaisesFpx .faddF32 0x080 (resAB (fun m c a b => roundedIn (floatTy m c) c (firstNan a.flt b.flt (faddExact c.rm.toNat a.flt b.flt)))) ∧
   RaisesFpx .faddF16 0x088 (resAB (fun m c a b => roundedIn (floatTy m c) c (firstNan a.flt b.flt (faddExact c.rm.toNat a.flt b.flt)))) ∧
   RaisesFpx .faddBf16 0x090 (resAB (fun m c a b => roundedIn (floatTy m c) c (firstNan a.flt b.flt (faddExact c.rm.toNat a.flt b.flt)))) ∧
   RaisesFpx .faddF64 0x098 (resAB (fun m c a b => roundedIn (floatTy m c) c (firstNan a.flt b.flt (faddExact c.rm.toNat a.flt b.flt))))) ∧
  (RaisesFpx .fsubF32 0x081 (resAB (fun m c a b => roundedIn (floatTy m c) c (firstNan a.flt b.flt (faddExact c.rm.toNat a.flt (fneg b.flt))))) ∧
   RaisesFpx .fsubF16 0x089 (resAB (fun m c a b => roundedIn (floatTy m c) c (firstNan a.flt b.flt (faddExact c.rm.toNat a.flt (fneg b.flt))))) ∧
   RaisesFpx .fsubBf16 0x091 (resAB (fun m c a b => roundedIn (floatTy m c) c (firstNan a.flt b.flt (faddExact c.rm.toNat a.flt (fneg b.flt))))) ∧
   RaisesFpx .fsubF64 0x099 (resAB (fun m c a b => roundedIn (floatTy m c) c (firstNan a.flt b.flt (faddExact c.rm.toNat a.flt (fneg b.flt)))))) ∧
  (RaisesFpx .fmulF32 0x082 (resAB (fun m c a b => roundedIn (floatTy m c) c (firstNan a.flt b.flt (fmulExact a.flt b.flt)))) ∧
   RaisesFpx .fmulF16 0x08A (resAB (fun m c a b => roundedIn (floatTy m c) c (firstNan a.flt b.flt (fmulExact a.flt b.flt)))) ∧
   RaisesFpx .fmulBf16 0x092 (resAB (fun m c a b => roundedIn (floatTy m c) c (firstNan a.flt b.flt (fmulExact a.flt b.flt)))) ∧
   RaisesFpx .fmulF64 0x09A (resAB (fun m c a b => roundedIn (floatTy m c) c (firstNan a.flt b.flt (fmulExact a.flt b.flt))))) ∧
  (RaisesFpx .ffmaF32 0x083 (resABC (fun m c a b d => roundedIn (floatTy m c) c (ffmaExact c.rm.toNat a.flt b.flt d.flt))) ∧
   RaisesFpx .ffmaF16 0x08B (resABC (fun m c a b d => roundedIn (floatTy m c) c (ffmaExact c.rm.toNat a.flt b.flt d.flt))) ∧
   RaisesFpx .ffmaBf16 0x093 (resABC (fun m c a b d => roundedIn (floatTy m c) c (ffmaExact c.rm.toNat a.flt b.flt d.flt))) ∧
   RaisesFpx .ffmaF64 0x09B (resABC (fun m c a b d => roundedIn (floatTy m c) c (ffmaExact c.rm.toNat a.flt b.flt d.flt)))) ∧
  (RaisesFpx .fminF32 0x084 (resAB (fun m c a b => roundedIn (floatTy m c) c (extremeOf false a.flt b.flt, 0))) ∧
   RaisesFpx .fminF16 0x08C (resAB (fun m c a b => roundedIn (floatTy m c) c (extremeOf false a.flt b.flt, 0))) ∧
   RaisesFpx .fminBf16 0x094 (resAB (fun m c a b => roundedIn (floatTy m c) c (extremeOf false a.flt b.flt, 0))) ∧
   RaisesFpx .fminF64 0x09C (resAB (fun m c a b => roundedIn (floatTy m c) c (extremeOf false a.flt b.flt, 0)))) ∧
  (RaisesFpx .fmaxF32 0x085 (resAB (fun m c a b => roundedIn (floatTy m c) c (extremeOf true a.flt b.flt, 0))) ∧
   RaisesFpx .fmaxF16 0x08D (resAB (fun m c a b => roundedIn (floatTy m c) c (extremeOf true a.flt b.flt, 0))) ∧
   RaisesFpx .fmaxBf16 0x095 (resAB (fun m c a b => roundedIn (floatTy m c) c (extremeOf true a.flt b.flt, 0))) ∧
   RaisesFpx .fmaxF64 0x09D (resAB (fun m c a b => roundedIn (floatTy m c) c (extremeOf true a.flt b.flt, 0))))

/-- For finite values the exact product, sum and comparisons that the floating instructions use are those of the numbers the values stand for: the product and a nonzero sum have the product and sum of the values, less-than and equal decide < and = of the values. The exact a*b + c of FFMA is that of the values, an exact zero having the sign that R47 gives. Its result is the first NaN in the order A, B, C, with IV beside a NaN C where the product is that of zero and an infinity. Zero times an infinity, and the sum of opposite infinities, are invalid and give the canonical NaN; other sums and products with an infinity are infinities, with the sign of the product; comparisons order them beyond all numbers. A magnitude is rounded to the multiple of a quantum that the mode chooses, as FRND and the conversions to integers do. Every number of E2M1, E3M2, E4M3 and E5M2 that is not a NaN, rounded into its own format in any mode, gives its own bits and raises no flag. -/
def Obligations.ExactArithmeticAndRounding : Prop :=
  (∀ s m e t n d, let a := FVal.fin s m e; let b := FVal.fin t n d
    (∃ u k x, fmulExact a b = (.fin u k x, 0) ∧ ratOf (.fin u k x) = ratOf a * ratOf b) ∧
    (∀ rm, ∃ u k x, faddExact rm a b = (.fin u k x, 0) ∧ ratOf (.fin u k x) = ratOf a + ratOf b) ∧
    (flt a b = true ↔ ratOf a < ratOf b) ∧ (feq a b = true ↔ ratOf a = ratOf b)) ∧
  ((∀ rm s m e t n d u k x, ∃ v l y, ffmaExact rm (.fin s m e) (.fin t n d) (.fin u k x) = (.fin v l y, 0) ∧
      ratOf (.fin v l y) = ratOf (.fin s m e) * ratOf (.fin t n d) + ratOf (.fin u k x) ∧
      (l = 0 → v = if (m = 0 ∨ n = 0) ∧ k = 0 ∧ u = (s != t) then u else decide (rm = 3))) ∧
    (∀ rm s m e t n d v l y, faddExact rm (.fin s m e) (.fin t n d) = (.fin v l y, 0) → l = 0 → v = if m = 0 ∧ n = 0 ∧ s = t then s else decide (rm = 3)) ∧
    (∀ rm s g b c, ffmaExact rm (.nan s g) b c = (.nan s g, 0)) ∧
    (∀ rm a s g c, fisNan a = false → ffmaExact rm a (.nan s g) c = (.nan s g, 0)) ∧
    (∀ rm a b s g, fisNan a = false → fisNan b = false → ffmaExact rm a b (.nan s g) =
      (.nan s g, if fisInf a ∧ fisZero b ∨ fisZero a ∧ fisInf b then flagIV else 0)) ∧
    canonNan = .nan false (2 ^ 51) ∧
    (∀ rm s t m e c, m ≠ 0 →
      fmulExact (.inf s) (.inf t) = (.inf (s != t), 0) ∧ fmulExact (.inf s) (.fin t m e) = (.inf (s != t), 0) ∧
      fmulExact (.fin s m e) (.inf t) = (.inf (s != t), 0) ∧ fmulExact (.inf s) (.fin t 0 e) = (canonNan, flagIV) ∧
      fmulExact (.fin s 0 e) (.inf t) = (canonNan, flagIV) ∧
      (fisNan c = false → ffmaExact rm (.inf s) (.fin t 0 e) c = (canonNan, flagIV) ∧ ffmaExact rm (.fin s 0 e) (.inf t) c = (canonNan, flagIV))) ∧
    (∀ rm s t m e n d, m ≠ 0 →
      faddExact rm (.inf s) (.inf t) = (if s = t then (.inf s, 0) else (canonNan, flagIV)) ∧
      faddExact rm (.inf s) (.fin t n d) = (.inf s, 0) ∧ faddExact rm (.fin t n d) (.inf s) = (.inf s, 0) ∧
      (∀ u, ffmaExact rm (.inf s) (.fin t m e) (.inf u) = (if u = (s != t) then (.inf u, 0) else (canonNan, flagIV)) ∧
        ffmaExact rm (.inf s) (.fin t m e) (.fin u n d) = (.inf (s != t), 0) ∧ ffmaExact rm (.fin s n d) (.fin t m e) (.inf u) = (.inf u, 0))) ∧
    (∀ s t m e, flt (.inf s) (.inf t) = (s && !t) ∧ flt (.inf s) (.fin t m e) = s ∧ flt (.fin t m e) (.inf s) = !s ∧
      feq (.inf s) (.inf t) = (s == t) ∧ feq (.inf s) (.fin t m e) = false ∧ feq (.fin t m e) (.inf s) = false) ∧
    (∀ rm < 4, ∀ s m e q,
      let r := roundAt rm s m e q
      RoundsTo rm s ((m : ℝ) * 2 ^ e) (2 ^ q) r.1 ∧ (r.2 = true ↔ (r.1 : ℝ) * 2 ^ q ≠ (m : ℝ) * 2 ^ e) ∧
      ∃ n, fintegral rm (.fin s m e) = .fin s n 0 ∧ RoundsTo rm s ((m : ℝ) * 2 ^ e) 1 n) ∧
    (∀ rm s g, fintegral rm (.inf s) = .inf s ∧ fintegral rm (.nan s g) = .nan s g)) ∧
  (∀ t ∈ [Ty.e2m1, .e3m2, .e4m3, .e5m2], ∀ x < 2 ^ t.width, ∀ rm < 4, fisNan (fdecode t x) = false → fround t rm false (fdecode t x) = (x, 0))

/-- Every CVT that starts and whose flags do not trap completes: to a floating format with the source rounded once by RM and SAT; to an integer type with the rounded value clamped, IV where it lies outside and for NaN, NX where it is inexact. FRND completes with the source rounded to an integral value, without a flag of its own. Every PACK that starts and whose flags do not trap completes: elements 2*pos and 2*pos + 1 of D become A and B converted into the type, the other elements keep their values. -/
def Obligations.ConversionsRoundOnce : Prop :=
  (CompletesWith .cvtF32F16 0x0C0 (resCvt (fun _ c b => ⟨(fround .f32 c.rm.toNat c.sat b.flt).1, (fround .f32 c.rm.toNat c.sat b.flt).2, false⟩)) ∧
  CompletesWith .cvtF32Bf16 0x0C1 (resCvt (fun _ c b => ⟨(fround .f32 c.rm.toNat c.sat b.flt).1, (fround .f32 c.rm.toNat c.sat b.flt).2, false⟩)) ∧
  CompletesWith .cvtF16F32 0x0C2 (resCvt (fun _ c b => ⟨(fround .f16 c.rm.toNat c.sat b.flt).1, (fround .f16 c.rm.toNat c.sat b.flt).2, false⟩)) ∧
  CompletesWith .cvtBf16F32 0x0C3 (resCvt (fun _ c b => ⟨(fround .bf16 c.rm.toNat c.sat b.flt).1, (fround .bf16 c.rm.toNat c.sat b.flt).2, false⟩)) ∧
  CompletesWith .cvtF64F32 0x0C4 (resCvt (fun _ c b => ⟨(fround .f64 c.rm.toNat c.sat b.flt).1, (fround .f64 c.rm.toNat c.sat b.flt).2, false⟩)) ∧
  CompletesWith .cvtF32F64 0x0C5 (resCvt (fun _ c b => ⟨(fround .f32 c.rm.toNat c.sat b.flt).1, (fround .f32 c.rm.toNat c.sat b.flt).2, false⟩)) ∧
  CompletesWith .cvtF32E4m3 0x0C6 (resCvt (fun _ c b => ⟨(fround .f32 c.rm.toNat c.sat b.flt).1, (fround .f32 c.rm.toNat c.sat b.flt).2, false⟩)) ∧
  CompletesWith .cvtF32E5m2 0x0C7 (resCvt (fun _ c b => ⟨(fround .f32 c.rm.toNat c.sat b.flt).1, (fround .f32 c.rm.toNat c.sat b.flt).2, false⟩)) ∧
  CompletesWith .cvtE4m3F32 0x0C8 (resCvt (fun _ c b => ⟨(fround .e4m3 c.rm.toNat c.sat b.flt).1, (fround .e4m3 c.rm.toNat c.sat b.flt).2, false⟩)) ∧
  CompletesWith .cvtE5m2F32 0x0C9 (resCvt (fun _ c b => ⟨(fround .e5m2 c.rm.toNat c.sat b.flt).1, (fround .e5m2 c.rm.toNat c.sat b.flt).2, false⟩)) ∧
  CompletesWith .cvtF32E2m1 0x0CA (resCvt (fun _ c b => ⟨(fround .f32 c.rm.toNat c.sat b.flt).1, (fround .f32 c.rm.toNat c.sat b.flt).2, false⟩)) ∧
  CompletesWith .cvtE2m1F32 0x0CB (resCvt (fun _ c b => ⟨(fround .e2m1 c.rm.toNat c.sat b.flt).1, (fround .e2m1 c.rm.toNat c.sat b.flt).2, false⟩)) ∧
  CompletesWith .cvtF32S32 0x0CC (resCvt (fun _ c b => ⟨(fround .f32 c.rm.toNat c.sat b.flt).1, (fround .f32 c.rm.toNat c.sat b.flt).2, false⟩)) ∧
  CompletesWith .cvtF32N32 0x0CD (resCvt (fun _ c b => ⟨(fround .f32 c.rm.toNat c.sat b.flt).1, (fround .f32 c.rm.toNat c.sat b.flt).2, false⟩)) ∧
  CompletesWith .cvtS32F32 0x0CE (resCvt (fun _ c b => intOfFloat .s32 c.rm.toNat b.flt)) ∧
  CompletesWith .cvtN32F32 0x0CF (resCvt (fun _ c b => intOfFloat .n32 c.rm.toNat b.flt)) ∧
  CompletesWith .cvtF64S64 0x0D0 (resCvt (fun _ c b => ⟨(fround .f64 c.rm.toNat c.sat b.flt).1, (fround .f64 c.rm.toNat c.sat b.flt).2, false⟩)) ∧
  CompletesWith .cvtF64N64 0x0D1 (resCvt (fun _ c b => ⟨(fround .f64 c.rm.toNat c.sat b.flt).1, (fround .f64 c.rm.toNat c.sat b.flt).2, false⟩)) ∧
  CompletesWith .cvtS64F64 0x0D2 (resCvt (fun _ c b => intOfFloat .s64 c.rm.toNat b.flt)) ∧
  CompletesWith .cvtN64F64 0x0D3 (resCvt (fun _ c b => intOfFloat .n64 c.rm.toNat b.flt)) ∧
  CompletesWith .cvtF64S32 0x0D4 (resCvt (fun _ c b => ⟨(fround .f64 c.rm.toNat c.sat b.flt).1, (fround .f64 c.rm.toNat c.sat b.flt).2, false⟩)) ∧
  CompletesWith .cvtS32F64 0x0D5 (resCvt (fun _ c b => intOfFloat .s32 c.rm.toNat b.flt)) ∧
  CompletesWith .frndF32 0x0D6 (resCvt (fun _ c b => ⟨(fround .f32 0 false (fintegral c.rm.toNat b.flt)).1, 0, false⟩)) ∧
  CompletesWith .frndF64 0x0D7 (resCvt (fun _ c b => ⟨(fround .f64 0 false (fintegral c.rm.toNat b.flt)).1, 0, false⟩))) ∧
  (CompletesWith .packF16 0x0D8 (packedInto .f16) ∧
  CompletesWith .packBf16 0x0D9 (packedInto .bf16) ∧
  CompletesWith .packE4m3 0x0DA (packedInto .e4m3) ∧
  CompletesWith .packE5m2 0x0DB (packedInto .e5m2) ∧
  CompletesWith .packE2m1 0x0DC (packedInto .e2m1) ∧
  CompletesWith .packS16 0x0DD (packedInto .s16) ∧
  CompletesWith .packN16 0x0DE (packedInto .n16) ∧
  CompletesWith .packS8 0x0DF (packedInto .s8) ∧
  CompletesWith .packN8 0x0E0 (packedInto .n8) ∧
  CompletesWith .packN4 0x0E1 (packedInto .n4))

/-- Every FACC that starts, whose map applies and whose flags do not trap completes: accumulator D + e receives, in each lane of ACTIVE, the rounded sum of position e of the mapped operand and its own F32 value, for all 8 or 4 positions. -/
def Obligations.AccumulatorsReceiveTheMappedPositions : Prop :=
  AccumulatesWith .faccN4 0x0A0 .n4 8 ∧
  AccumulatesWith .faccS8 0x0A1 .s8 4 ∧
  AccumulatesWith .faccN8 0x0A2 .n8 4 ∧
  AccumulatesWith .faccE2m1 0x0A3 .e2m1 8 ∧
  AccumulatesWith .faccE4m3 0x0A4 .e4m3 4 ∧
  AccumulatesWith .faccE5m2 0x0A5 .e5m2 4

/-- Every FMIN, FMAX, FCLASS and PACK of a domain that enables no trap of a flag, whose maps apply, and every SFQ enqueue whose domain slot has a share, token and queues room, answers a next state: the strands of its unit stand at the fall-through and the memories are as before; an enqueue leaves its token PENDING with the lanes of ACTIVE, which may be none (that R203 wins there over R69 is log entry 41), and one more entry in the queue, due 12 cycles later or later. -/
def Obligations.MinimaMaximaClassesPacksAndEnqueuesComplete : Prop :=
  CompletesQuietly .fminF32 0x084 ∧
  CompletesQuietly .fminF16 0x08C ∧
  CompletesQuietly .fminBf16 0x094 ∧
  CompletesQuietly .fminF64 0x09C ∧
  CompletesQuietly .fmaxF32 0x085 ∧
  CompletesQuietly .fmaxF16 0x08D ∧
  CompletesQuietly .fmaxBf16 0x095 ∧
  CompletesQuietly .fmaxF64 0x09D ∧
  CompletesQuietly .fclassF32 0x087 ∧
  CompletesQuietly .fclassF16 0x08F ∧
  CompletesQuietly .fclassBf16 0x097 ∧
  CompletesQuietly .fclassF64 0x09F ∧
  CompletesQuietly .packF16 0x0D8 ∧
  CompletesQuietly .packBf16 0x0D9 ∧
  CompletesQuietly .packE4m3 0x0DA ∧
  CompletesQuietly .packE5m2 0x0DB ∧
  CompletesQuietly .packE2m1 0x0DC ∧
  CompletesQuietly .packS16 0x0DD ∧
  CompletesQuietly .packN16 0x0DE ∧
  CompletesQuietly .packS8 0x0DF ∧
  CompletesQuietly .packN8 0x0E0 ∧
  CompletesQuietly .packN4 0x0E1 ∧
  EnqueuesQuietly .sfqExp2 0x1C0 ∧
  EnqueuesQuietly .sfqLog2 0x1C1 ∧
  EnqueuesQuietly .sfqRcp 0x1C2 ∧
  EnqueuesQuietly .sfqRsq 0x1C3 ∧
  EnqueuesQuietly .sfqSqrt 0x1C4 ∧
  EnqueuesQuietly .sfqSin 0x1C5 ∧
  EnqueuesQuietly .sfqCos 0x1C6 ∧
  EnqueuesQuietly .sfqTanh 0x1C7 ∧
  EnqueuesQuietly .sfqSigm 0x1C8 ∧
  EnqueuesQuietly .sfqErf 0x1C9

/-- A nonzero finite value rounded into F64, F32, F16, BF16 or E5M2 in a mode gives the multiple of the quantum of its precision, or of the subnormal quantum, that the mode chooses, with NX where that differs and UF where it is tiny too; in BF16 a rounded magnitude below the least normal one becomes zero with UF and NX; beyond the largest number it gives that number or an infinity, by mode and SAT, with OF and NX. Zeros keep their sign, infinities stay or saturate, and NaNs keep their sign and the top of their payload. So it is in E4M3 and E2M1, but that E4M3 gives the NaN of the sign where another format gives an infinity and keeps of a NaN the sign alone, and E2M1 gives 6 of that sign, in every mode, and zero with IV for a NaN. -/
def Obligations.ResultsAreCorrectlyRounded : Prop :=
  (∀ t ∈ [Ty.f64, .f32, .f16, .bf16, .e5m2], ∀ rm < 4, ∀ sat s,
    (∀ (m : ℕ) (e k : ℤ), m ≠ 0 → (2 : ℝ) ^ k ≤ (m : ℝ) * 2 ^ e → (m : ℝ) * 2 ^ e < (2 : ℝ) ^ (k + 1) →
      Rounded t rm sat s ((m : ℝ) * 2 ^ e) k (fround t rm sat (.fin s m e))) ∧
    (∀ e, Encodes t (fround t rm sat (.fin s 0 e)).1 s 0 ∧ (fround t rm sat (.fin s 0 e)).2 = 0) ∧
    (fround t rm sat (.inf s)).2 = 0 ∧ (sat = true → Encodes t (fround t rm sat (.inf s)).1 s (greatest t)) ∧
    (sat = false → fdecode t (fround t rm sat (.inf s)).1 = .inf s) ∧
    (∀ g, 2 ^ 51 ≤ g → g < 2 ^ 52 → (fround t rm sat (.nan s g)).2 = 0 ∧
      fdecode t (fround t rm sat (.nan s g)).1 = .nan s (g / 2 ^ (52 - fractionOf t) * 2 ^ (52 - fractionOf t)))) ∧
  ∀ t ∈ [Ty.e4m3, .e2m1], ∀ rm < 4, ∀ sat s,
    (∀ (m : ℕ) (e k : ℤ), m ≠ 0 → (2 : ℝ) ^ k ≤ (m : ℝ) * 2 ^ e → (m : ℝ) * 2 ^ e < (2 : ℝ) ^ (k + 1) →
      Rounded t rm sat s ((m : ℝ) * 2 ^ e) k (fround t rm sat (.fin s m e))) ∧
    (∀ e, Encodes t (fround t rm sat (.fin s 0 e)).1 s 0 ∧ (fround t rm sat (.fin s 0 e)).2 = 0) ∧
    fround .e4m3 rm sat (.inf s) = ((if sat then 0x7E else 0x7F) + (if s then 0x80 else 0), 0) ∧
    fround .e2m1 rm sat (.inf s) = (if s then 0xF else 0x7, 0) ∧
    (∀ g, fround .e4m3 rm sat (.nan s g) = (if s then 0xFF else 0x7F, 0) ∧ fround .e2m1 rm sat (.nan s g) = (0, flagIV))

/-- A mapped operand has in each lane and position, of the contributions of the lanes of ACTIVE, with MZ of every present lane, and zeros of the others: on integer data with integer weights or SEL, outside FACC, their weighted sum modulo 2^32, or 2^64 on 64-bit data, read by SX, without a flag; else what MapRound makes of their exact products, a zero of SEL being zero whatever the data, with its flags; through a successor the second stage on every output of the first, with all flags of the first. MapRound gives the canonical NaN, an infinity, zero, or the sum of the products cut 63 bits below the largest, rounded to F32 once with IV, OF and UF alone. -/
def Obligations.MapApplicationsSumTheirProducts : Prop :=
  (∀ (x : Issue) (s : State) name row n facc sx mz rd m succ o i e, x.mapUse s name row = (m, succ, o) → i < 32 → e < n →
    let w := if row = 5 then 64 else 32
    let d := contribution x mz rd
    ((∀ j, ∀ v ∈ rd j, ∃ z, v = .i z) →
      (x.operand s true name row n facc sx mz rd).at_ i e = chainOf m succ (wfmtInt m.wfmt && !facc) w sx n d i e) ∧
    ((∀ j, rd j ≠ [] ∧ ∀ v ∈ rd j, ∃ z, v = .f z) →
      (x.operand s true name row n facc sx mz rd).at_ i e = chainOf m succ false w sx n d i e)) ∧
  (∀ ps : List FVal, MapRounds ps (mapRound ps))

/-- MAPLD that starts, with lanes in ACTIVE, no fence before it and no logged acquire or scratchpad access of the rope (log entry 8), for a slot of its domain that is not PENDING, with aligned addresses outside a gate frame, a well-formed format block in pinned scratchpad and all its rows inside, completes with the slot PENDING and the load under way, raced already where a write not ordered before it lies in its bytes; MAPCLR with the slot EMPTY; MAPQ with state, format, block, successor in the scalar. -/
def Obligations.MapSlotsAreLoadedClearedAndRead : Prop :=
  (∀ f s b k m, s.begun 0x100 f pb0 = some b → b.y.act ≠ 0 → b.y.slotCheck b.t (f.d.toNat % 16) = .ok k →
    b.t.fenced b.y.k b.y.r b.y.unit = false → b.t.mapldBehind b.y.k = false → (b.t.slot k).state ≠ .pending → (b.y.r.sr f.b.toNat).toNat % 4 = 0 → (b.y.r.sr f.a.toNat).toNat % 4 = 0 →
    b.y.r.frame = none → Machine.outside b.y.w.scratchSize (b.y.r.sr f.b.toNat).toNat 32 = none →
    (b.y.w.pinnedAt (b.y.r.sr f.b.toNat).toNat 32 = true ∨
      b.y.core.frames b.y.r.dslot = 1 ∧ b.y.w.pinnedAt ((b.y.r.sr f.b.toNat).toNat + 31) 1 = true) →
    let fb := b.t.readScratch b.y.r.wg (b.y.r.sr f.b.toNat).toNat 32
    let s1 := b.t.drawDelay.2
    blockOk fb = true → m = fillOf b.y s1.nextId (b.y.r.sr f.a.toNat).toNat fb (b.y.core.cyc + 1 + b.t.drawDelay.1) →
    m.outside b.y.w.scratchSize = none →
    exec (.mapld f) s = .next (b.after ({ s1 with nextId := s1.nextId + 1 }.setSlot k
      { b.t.slot k with state := .pending, fill := some { m with raced := m.unordered b.y.w } }) [] 0 .fall)) ∧
  (∀ f s b k, s.begun 0x101 f pb0 = some b → b.y.act ≠ 0 → b.y.slotCheck b.t (f.d.toNat % 16) = .ok k →
    (b.t.slot k).state ≠ .pending →
    exec (.mapclr f) s = .next (b.after (b.t.setSlot k ⟨.empty, b.y.r.did, 0, 0, false, 0, [], [], none, none⟩) [] 0 .fall)) ∧
  (∀ f s b k, s.begun 0x102 f pb0 = some b → b.y.act ≠ 0 → b.y.slotCheck b.t (f.a.toNat % 16) = .ok k →
    (f.c.getLsbD 0 = false ∨ (b.t.slot k).state ≠ .pending) →
    let m := b.t.slot k
    let v := match m.state with
      | .empty => 0
      | .pending => 1
      | .valid => 2 + m.wfmt * 2 ^ 3 + m.blk * 2 ^ 8 + m.succe.toNat * 2 ^ 10 + m.succ * 2 ^ 11
      | .failed => 4
    exec (.mapq f) s = .next (b.after b.t [.scalar f.d.toNat (BitVec.ofNat 32 v)] 0 .fall))

/-- SHFL, BCAST, RDLANE and WRLANE that start complete: a lane of the source reads 0 where it is absent; WRLANE writes its one lane where that lane is in ACTIVE. MATCH completes with the lanes of ACTIVE whose pattern in A is that of B in the lane. A vote that starts with lanes in ACTIVE completes: ANY and ALL write all ones or all zeros into the lanes of ACTIVE of the destination predicate, by whether some or every lane of ACTIVE has the bit; BAL writes the bits of the lanes of ACTIVE into the scalar. -/
def Obligations.CrossLaneMovesMatchesAndVotes : Prop :=
  ((∀ f s b, s.begun 0x108 f pb0 = some b → exec (.shfl f) s = .next (b.after b.t (b.y.active.map (fun l =>
    .vec f.d.toNat l (laneOrZero b.y f.a.toNat ((b.y.r.vr f.b.toNat l).toNat % 32)))) 0 .fall)) ∧
  (∀ f s b, s.begun 0x109 f pb0 = some b → exec (.bcast f) s = .next (b.after b.t (b.y.active.map (fun l =>
    .vec f.d.toNat l (laneOrZero b.y f.a.toNat (laneArg b.y)))) 0 .fall)) ∧
  (∀ f s b, s.begun 0x10A f pb0 = some b → exec (.rdlane f) s = .next (b.after b.t
    (if b.y.act = 0 then [] else [.scalar f.d.toNat (laneOrZero b.y f.a.toNat (laneArg b.y))]) 0 .fall)) ∧
  (∀ f s b, s.begun 0x10B f pb0 = some b → exec (.wrlane f) s = .next (b.after b.t
    (if b.y.act.getLsbD (laneArg b.y) then [.vec f.d.toNat (laneArg b.y) (b.y.r.sr f.a.toNat)] else []) 0 .fall)) ∧
  (∀ f s b, s.begun 0x10C f pb0 = some b → exec (.matchN32 f) s = .next (b.after b.t (b.y.active.map (fun l =>
    .vec f.d.toNat l (bitsOf (fun j => b.y.act.getLsbD j && b.y.r.vr f.a.toNat j == b.y.r.vr f.b.toNat l)))) 0 .fall)) ∧
  (∀ f s b, s.begun 0x10D f pb0 = some b → exec (.matchN64 f) s = .next (b.after b.t (b.y.active.map (fun l =>
    .vec f.d.toNat l (bitsOf (fun j => b.y.act.getLsbD j && b.y.r.vpair f.a.toNat j == b.y.r.vpair f.b.toNat l)))) 0 .fall))) ∧
  ((∀ f s b, s.begun 0x158 f pb0 = some b → b.y.act ≠ 0 → exec (.voteAny f) s = .next (b.after b.t
    [.pred (f.d.toNat % 8) b.y.act (if (List.range 32).any (fun l => b.y.act.getLsbD l && (b.y.r.pr (f.a.toNat % 8)).getLsbD l) then 0xFFFFFFFF else 0)] 0 .fall)) ∧
  (∀ f s b, s.begun 0x159 f pb0 = some b → b.y.act ≠ 0 → exec (.voteAll f) s = .next (b.after b.t
    [.pred (f.d.toNat % 8) b.y.act (if (List.range 32).all (fun l => !b.y.act.getLsbD l || (b.y.r.pr (f.a.toNat % 8)).getLsbD l) then 0xFFFFFFFF else 0)] 0 .fall)) ∧
  (∀ f s b, s.begun 0x15A f pb0 = some b → b.y.act ≠ 0 → exec (.voteBal f) s = .next (b.after b.t
    [.scalar f.d.toNat (bitsOf (fun l => b.y.act.getLsbD l && (b.y.r.pr (f.a.toNat % 8)).getLsbD l))] 0 .fall)))

/-- BRA, CALL, JMPI, CALLI and RET that start, with lanes in ACTIVE and with targets that pass the checks of R160, complete: the lanes of ACTIVE go to PC plus the signed offset times the unit, to the pair of A in the lane or the scalar pair, the others to the fall-through; calls write the fall-through into the link pair. BRA, CALL and RET that start, with lanes in ACTIVE and with a target that fails a check of R78 or R301, take that trap against the instruction: the lanes of ACTIVE, nothing written; a translation that the target lacks is asked of the Herey controller first, and nothing else happens. JMPI and CALLI, lane by lane or through the scalar pair, take the trap of the check that fails first, with the lanes whose target fails it, or for a scalar pair those of ACTIVE; while a target lacks its translation they ask for it or wait. When a transfer moves lanes, each strand of the unit goes on with the lanes that go where its lowest active lane goes, and the others wait on its stack in groups of one PC, that of the lowest lane on top; strands at one PC form one unit; the other strands stay as they are. A unit at a target issues no earlier than 3 cycles and STALL after the transfer, one at the fall-through only than 1 cycle and STALL, lanes that go onto a stack not before the 3 cycles and STALL. An instruction that falls through moves the unit to its fall-through alike. -/
def Obligations.TransfersMoveTheLanesOrTrap : Prop :=
  ((∀ f s b, s.begun 0x140 f pb0 = some b → b.y.act ≠ 0 → (∀ l ∈ b.y.active, b.t.targetAt b.y.k b.y.unit b.y.r ((fun _ => branchTo b.y) l) = .ok) →
    exec (.bra f) s = .next (b.after b.t [] 0 (.move (b.y.active.map (fun l => (l, (fun _ => branchTo b.y) l)))))) ∧
  (∀ f s b, s.begun 0x141 f pb0 = some b → b.y.act ≠ 0 → (∀ l ∈ b.y.active, b.t.targetAt b.y.k b.y.unit b.y.r ((fun _ => branchTo b.y) l) = .ok) →
    exec (.call f) s = .next (b.after b.t (linkOf b.y) 0 (.move (b.y.active.map (fun l => (l, (fun _ => branchTo b.y) l)))))) ∧
  (∀ f s b, s.begun 0x142 f pb0 = some b → b.y.act ≠ 0 → (∀ l ∈ b.y.active, b.t.targetAt b.y.k b.y.unit b.y.r ((jumpTo b.y) l) = .ok) →
    exec (.jmpi f) s = .next (b.after b.t [] 0 (.move (b.y.active.map (fun l => (l, (jumpTo b.y) l)))))) ∧
  (∀ f s b, s.begun 0x143 f pb0 = some b → b.y.act ≠ 0 → (∀ l ∈ b.y.active, b.t.targetAt b.y.k b.y.unit b.y.r ((jumpTo b.y) l) = .ok) →
    exec (.calli f) s = .next (b.after b.t (linkOf b.y) 0 (.move (b.y.active.map (fun l => (l, (jumpTo b.y) l)))))) ∧
  (∀ f s b, s.begun 0x144 f pb0 = some b → b.y.act ≠ 0 → (∀ l ∈ b.y.active, b.t.targetAt b.y.k b.y.unit b.y.r ((fun _ => b.y.r.spair f.a.toNat) l) = .ok) →
    exec (.ret f) s = .next (b.after b.t [] 0 (.move (b.y.active.map (fun l => (l, (fun _ => b.y.r.spair f.a.toNat) l))))))) ∧
  ((∀ f s b q, s.begun 0x140 f pb0 = some b → b.y.act ≠ 0 → b.t.targetAt b.y.k b.y.unit b.y.r ((fun _ => branchTo b.y) 0) = .fault q →
    exec (.bra f) s = .next (b.trapped s ⟨q.1, q.2.1, b.y.act, q.2.2.1, q.2.2.2.1, q.2.2.2.2⟩)) ∧
  (∀ f s b q, s.begun 0x141 f pb0 = some b → b.y.act ≠ 0 → b.t.targetAt b.y.k b.y.unit b.y.r ((fun _ => branchTo b.y) 0) = .fault q →
    exec (.call f) s = .next (b.trapped s ⟨q.1, q.2.1, b.y.act, q.2.2.1, q.2.2.2.1, q.2.2.2.2⟩)) ∧
  (∀ f s b q, s.begun 0x144 f pb0 = some b → b.y.act ≠ 0 → b.t.targetAt b.y.k b.y.unit b.y.r ((fun _ => b.y.r.spair f.a.toNat) 0) = .fault q →
    exec (.ret f) s = .next (b.trapped s ⟨q.1, q.2.1, b.y.act, q.2.2.1, q.2.2.2.1, q.2.2.2.2⟩)) ∧
  (∀ f s b rs va, s.begun 0x140 f pb0 = some b → b.y.act ≠ 0 → b.t.targetAt b.y.k b.y.unit b.y.r ((fun _ => branchTo b.y) 0) = .miss rs va →
    exec (.bra f) s = .next { b.t.askFetch b.y.k b.y.unit b.y.r rs va with turn := .choose }) ∧
  (∀ f s b rs va, s.begun 0x141 f pb0 = some b → b.y.act ≠ 0 → b.t.targetAt b.y.k b.y.unit b.y.r ((fun _ => branchTo b.y) 0) = .miss rs va →
    exec (.call f) s = .next { b.t.askFetch b.y.k b.y.unit b.y.r rs va with turn := .choose }) ∧
  (∀ f s b rs va, s.begun 0x144 f pb0 = some b → b.y.act ≠ 0 → b.t.targetAt b.y.k b.y.unit b.y.r ((fun _ => b.y.r.spair f.a.toNat) 0) = .miss rs va →
    exec (.ret f) s = .next { b.t.askFetch b.y.k b.y.unit b.y.r rs va with turn := .choose }) ∧
  (∀ f s b l q, s.begun 0x142 f pb0 = some b → b.FaultsFirst (jumpTo b.y) l q →
    let fails (j : Nat) : Bool := match b.t.targetAt b.y.k b.y.unit b.y.r (jumpTo b.y j) with | .fault p => p.1 == q.1 | _ => false
    exec (.jmpi f) s = .next (b.trapped s ⟨q.1, q.2.1, if f.c.getLsbD 0 then b.y.act else bitsOf (fun j => b.y.act.getLsbD j && fails j),
      q.2.2.1, q.2.2.2.1, q.2.2.2.2⟩)) ∧
  (∀ f s b l rs va, s.begun 0x142 f pb0 = some b → l ∈ b.y.active → b.t.targetAt b.y.k b.y.unit b.y.r (jumpTo b.y l) = .miss rs va →
    (∀ j ∈ b.y.active, j < l → ∀ rs va, b.t.targetAt b.y.k b.y.unit b.y.r (jumpTo b.y j) ≠ .miss rs va) →
    exec (.jmpi f) s = .next { b.t.askFetch b.y.k b.y.unit b.y.r rs va with turn := .choose }) ∧
  (∀ f s b l, s.begun 0x142 f pb0 = some b → l ∈ b.y.active → b.t.targetAt b.y.k b.y.unit b.y.r (jumpTo b.y l) = .asked →
    (∀ j ∈ b.y.active, ∀ rs va, b.t.targetAt b.y.k b.y.unit b.y.r (jumpTo b.y j) ≠ .miss rs va) → exec (.jmpi f) s = .next s) ∧
  (∀ f s b l q, s.begun 0x143 f pb0 = some b → b.FaultsFirst (jumpTo b.y) l q →
    let fails (j : Nat) : Bool := match b.t.targetAt b.y.k b.y.unit b.y.r (jumpTo b.y j) with | .fault p => p.1 == q.1 | _ => false
    exec (.calli f) s = .next (b.trapped s ⟨q.1, q.2.1, if f.c.getLsbD 0 then b.y.act else bitsOf (fun j => b.y.act.getLsbD j && fails j),
      q.2.2.1, q.2.2.2.1, q.2.2.2.2⟩)) ∧
  (∀ f s b l rs va, s.begun 0x143 f pb0 = some b → l ∈ b.y.active → b.t.targetAt b.y.k b.y.unit b.y.r (jumpTo b.y l) = .miss rs va →
    (∀ j ∈ b.y.active, j < l → ∀ rs va, b.t.targetAt b.y.k b.y.unit b.y.r (jumpTo b.y j) ≠ .miss rs va) →
    exec (.calli f) s = .next { b.t.askFetch b.y.k b.y.unit b.y.r rs va with turn := .choose }) ∧
  (∀ f s b l, s.begun 0x143 f pb0 = some b → l ∈ b.y.active → b.t.targetAt b.y.k b.y.unit b.y.r (jumpTo b.y l) = .asked →
    (∀ j ∈ b.y.active, ∀ rs va, b.t.targetAt b.y.k b.y.unit b.y.r (jumpTo b.y j) ≠ .miss rs va) → exec (.calli f) s = .next s)) ∧
  ((∀ (b : Begun) (s1 : State) ws extra dest (r : Rope), tget (b.x.overtake s1 ws).ropes b.y.k = some r → r.strands.length ≤ 8 →
    rget 0 ((b.x.overtake s1 ws).core b.y.c).holds b.y.r.quad = 0 →
    let at_ := b.y.core.cyc + 3 + b.y.stall
    let next (l : Nat) : DWord := match dest.find? (fun d => d.1 == l) with | some d => d.2 | none => b.y.fall
    ∃ q m : Rope, tget (b.after s1 ws extra (.move dest)).ropes b.y.k = some q ∧ r.Moved m b.y.unit next ∧ q.standing = m.standing ∧
      (∀ (i : Nat) (x : Strand), r.strands[i]? = some x → ∃ y : Strand, q.strands[i]? = some y ∧
        y.after = if x.stack.length < y.stack.length then at_ else x.after) ∧
      ∀ u ∈ q.units, q.unitStrands u &&& b.y.r.unitStrands b.y.unit ≠ 0 →
        q.schedOf u = ⟨if dest.any (fun d => d.2 == q.unitPc u) then at_ else b.y.core.cyc + 1 + b.y.stall, 0, b.y.skip, 0, false, none⟩) ∧
  (∀ (b : Begun) (s1 : State) ws extra (r : Rope), tget (b.x.overtake s1 ws).ropes b.y.k = some r → r.strands.length ≤ 8 →
    rget 0 ((b.x.overtake s1 ws).core b.y.c).holds b.y.r.quad = 0 →
    ∃ q : Rope, tget (b.after s1 ws extra .fall).ropes b.y.k = some q ∧ r.Moved q b.y.unit (fun _ => b.y.fall) ∧
      ∀ u ∈ q.units, q.unitStrands u &&& b.y.r.unitStrands b.y.unit ≠ 0 →
        q.schedOf u = ⟨b.y.core.cyc + 1 + b.y.stall, 0, b.y.skip, 0, false, none⟩))

/-- YIELD and NOP that start complete with the pc alone. SPLICE in a whole rope falls through and ends what a forced save asks for, SPLICE.C there also makes the rope a candidate; in a frayed rope the strands of the unit park, switch to their next group or wait at the join. EXIT outside a gate frame retires the lanes of ACTIVE; under the guard that empties ACTIVE by itself it does nothing (log entry 41). A strand at SPLICE parks its active lanes and takes the top group of its stack, or, with no group left, waits with every parked lane active. A strand whose lanes retire goes on with the lanes left; with none left it takes the top group, or wakes its parked lanes to wait at their join, or has none. -/
def Obligations.SplicesExitsAndHints : Prop :=
  ((∀ f s b, s.begun 0x14A f pb0 = some b → exec (.yield f) s = .next (b.after b.t [] 0 .fall)) ∧
  (∀ f s b, s.begun 0x14B f pb0 = some b → exec (.nop f) s = .next (b.after b.t [] 0 .fall)) ∧
  (∀ f s b r, s.begun 0x148 f pb0 = some b → tget b.t.ropes b.y.k = some r → r.whole = true →
    exec (.splice f) s = .next (b.after (b.t.setRope b.y.k { r with forced := false }) [] 0 .fall)) ∧
  (∀ f s b r, s.begun 0x149 f pb0 = some b → tget b.t.ropes b.y.k = some r → r.whole = true →
    exec (.spliceC f) s = .next (b.after (b.t.setRope b.y.k
      { r with cand := some (b.y.pc, if r.countsClear then b.y.core.cyc + 1 else 0), forced := false }) [] 0 .fall)) ∧
  (∀ f s b r, s.begun 0x148 f pb0 = some b → tget b.t.ropes b.y.k = some r → r.whole = false →
    exec (.splice f) s = .next (b.after (b.t.setRope b.y.k (b.y.settle
      { r with strands := mapUnit b.y.unit (fun _ t => t.splice b.y.pc b.y.len false) 0 r.strands })) [] 0 .done)) ∧
  (∀ f s b r, s.begun 0x149 f pb0 = some b → tget b.t.ropes b.y.k = some r → r.whole = false →
    exec (.spliceC f) s = .next (b.after (b.t.setRope b.y.k (b.y.settle
      { r with strands := mapUnit b.y.unit (fun _ t => t.splice b.y.pc b.y.len true) 0 r.strands })) [] 0 .done)) ∧
  (∀ f s b, s.begun 0x14C f pb0 = some b → f.pg = 7 → f.pgn = true → exec (.exit f) s = .next (b.after b.t [] 0 .fall)) ∧
  (∀ f s b, s.begun 0x14C f pb0 = some b → ¬(f.pg = 7 ∧ f.pgn = true) → b.y.r.frame = none →
    exec (.exit f) s = .next (b.after (b.t.exitLanes b.y b.y.act) [] 0 .done))) ∧
  ((∀ (t : Strand) a n c p m r, t.stack = (p, m) :: r →
    let u := t.splice a n c
    u.parked = t.parked ||| t.active ∧ u.active = m ∧ u.pc = p ∧ u.stack = r ∧ u.waiting = t.waiting ∧ u.retired = t.retired) ∧
  (∀ (t : Strand) a n c, t.stack = [] →
    let u := t.splice a n c
    u.parked = 0 ∧ u.active = t.parked ||| t.active ∧ u.waiting = true ∧ u.joinPc = a ∧ u.joinLen = n ∧ u.compact = c) ∧
  (∀ (t : Strand) m fall, t.active &&& ~~~m ≠ 0 →
    let u := t.exit m fall
    u.active = t.active &&& ~~~m ∧ u.pc = fall ∧ u.stack = t.stack ∧ u.retired = t.retired ||| (t.active &&& m)) ∧
  (∀ (t : Strand) m fall p k r, t.active &&& ~~~m = 0 → t.stack = (p, k) :: r →
    let u := t.exit m fall
    u.active = k ∧ u.pc = p ∧ u.stack = r ∧ u.retired = t.retired ||| t.active) ∧
  (∀ (t : Strand) m fall, t.active &&& ~~~m = 0 → t.stack = [] →
    let u := t.exit m fall
    u.retired = t.retired ||| t.active ∧
      (if t.parked = 0 then u.active = 0 else u.active = t.parked ∧ u.parked = 0 ∧ u.waiting = true)))

/-- Outside a gate frame, BAR.SYNC and BAR.ARR of a unit of whose strands some have not arrived, with no access of the rope in the operand log, complete with its strands arrived at the barrier, BAR.WAIT without an arrival, BAR.SET with the new expected count, at once where no rope has arrived and else at the next completion, whatever strands have arrived (log entry 57); the strands of the unit go on at the fall-through, held until the phase ends where the instruction waits or strands of the unit had arrived already (log entry 34). When the arrivals at a barrier equal the expected count, its test flips the phase, clears the arrivals and takes over a pending count; otherwise it changes nothing. The end of a rope lowers the expected count, and the arrivals if the rope had arrived, where no rope of the workgroup has an arrival left to count. -/
def Obligations.BarriersCountArrivals : Prop :=
  ((∀ f s b s1 n, s.begun 0x150 f pb0 = some b → b.y.r.frame = none → n = f.b.toNat % 16 →
    (b.y.r.bar n).strands &&& b.y.r.unitStrands b.y.unit ≠ b.y.r.unitStrands b.y.unit → b.t.logs b.y.k = false →
    s1 = b.t.barArrive b.y.k n (b.y.r.unitStrands b.y.unit) → (tget s1.ropes b.y.k).isSome = true →
    ∃ t, exec (.barSync f) s = .next (b.after t [] 0 .done) ∧
      b.PassesBarrier s1 t (b.y.arrived n != 0) (some (n, (b.y.w.barrier n).phase, true))) ∧
  (∀ f s b s1 n, s.begun 0x151 f pb0 = some b → b.y.r.frame = none → n = f.b.toNat % 16 →
    (b.y.r.bar n).strands &&& b.y.r.unitStrands b.y.unit ≠ b.y.r.unitStrands b.y.unit → b.t.logs b.y.k = false →
    s1 = b.t.barArrive b.y.k n (b.y.r.unitStrands b.y.unit) → (tget s1.ropes b.y.k).isSome = true →
    ∃ t, exec (.barArr f) s = .next (b.after t [] 0 .done) ∧
      b.PassesBarrier s1 t (b.y.arrived n != 0) (if b.y.arrived n = 0 then none else some (n, (b.y.w.barrier n).phase, false))) ∧
  (∀ f s b n, s.begun 0x152 f pb0 = some b → b.y.r.frame = none → n = f.b.toNat % 16 → (tget b.t.ropes b.y.k).isSome = true →
    ∃ t, exec (.barWait f) s = .next (b.after t [] 0 .done) ∧
      if (b.y.r.bar n).arrived then b.PassesBarrier b.t t false (some (n, (b.y.w.barrier n).phase, false))
      else b.PassesBarrier (b.t.waited b.y.r.wg b.y.k n) t false none) ∧
  (∀ f s b q n, s.begun 0x153 f pb0 = some b → b.y.r.frame = none → n = f.b.toNat % 16 → (tget b.t.ropes b.y.k).isSome = true →
    q = b.y.w.barrier n →
    let q1 : Barrier := if q.arrived = 0 then ⟨f.c.toNat, 0, q.phase, none⟩ else ⟨q.expected, q.arrived, q.phase, some f.c.toNat⟩
    ∃ t, exec (.barSet f) s = .next (b.after t [] 0 .done) ∧
      b.PassesBarrier (b.t.onWg b.y.r.wg (fun w => { w with barriers := tset w.barriers n q1 })) t false none)) ∧
  ((∀ (s : State) wg b w, tget s.wgs wg = some w → (w.barrier b).arrived = (w.barrier b).expected → (w.barrier b).arrived ≠ 0 →
    ∃ u, tget (s.barTest wg b).wgs wg = some u ∧
      u.barrier b = ⟨(w.barrier b).pending.getD (w.barrier b).expected, 0, !(w.barrier b).phase, none⟩) ∧
  (∀ (s : State) wg b w, tget s.wgs wg = some w → (w.barrier b).arrived ≠ (w.barrier b).expected → s.barTest wg b = s) ∧
  (∀ (s : State) k b r w, tget s.ropes k = some r → tget s.wgs r.wg = some w →
    let n := if (r.bar b).arrived then (w.barrier b).arrived - 1 else (w.barrier b).arrived
    n ≠ (w.barrier b).expected - 1 →
    (∀ j q, tget s.ropes j = some q → q.wg = r.wg →
      (q.bar b).arrived = true ∨ q.liveStrands = 0 ∨ (q.bar b).strands &&& q.liveStrands ≠ q.liveStrands) →
    ∃ u, tget (s.barEnd k b).wgs r.wg = some u ∧
      u.barrier b = ⟨(w.barrier b).expected - 1, n, (w.barrier b).phase, (w.barrier b).pending.map (· - 1)⟩))

/-- WAITC that starts and whose limits the counters meet, a limit of 63 always, completes with the pc alone; with LDC and STC limits of 0 the marks of the rope's accesses are released (R286). FENCE.ACQ, FENCE.REL and FENCE.AR complete: the number up to which a fence holds is that of the next access, for an acquire, a release or both, and the marks of the scratchpad's bytes note the fence at its scope. A rope's fence holds a unit back while a load, ATOM or WAITV from before it is not complete, or behind a release a store, map load or copy program, the accesses that an abandoned gate frame left in the operand log among them; held back, a load, store, atomic, MAPLD or CPRUN with lanes in ACTIVE leaves the state as it is, whatever its operands. -/
def Obligations.WaitsAndFencesComplete : Prop :=
  (∀ f s b, s.begun 0x160 f pb0 = some b → (f.a.toNat = 63 ∨ b.y.r.ldc ≤ f.a.toNat) → (f.b.toNat = 63 ∨ b.y.r.stc ≤ f.b.toNat) →
    (f.c.toNat = 63 ∨ b.y.r.cpc ≤ f.c.toNat) →
    exec (.waitc f) s = .next (b.after (if f.a = 0 ∧ f.b = 0 then b.t.waitReleases b.y.k else b.t) [] 0 .fall)) ∧
  (∀ f s b, s.begun 0x162 f pb0 = some b →
    let sc := f.b.toNat % 8
    exec (.fenceAcq f) s = .next (b.after ((b.t.fenceAcquires (.rope b.y.k) b.t.nextId sc).onRope b.y.k (fun r =>
      { r with fence := ⟨b.t.nextId, r.fence.rel, tset r.fence.scopes sc b.t.nextId, r.fence.rels⟩ })) [] 0 .fall)) ∧
  (∀ f s b, s.begun 0x163 f pb0 = some b →
    let sc := f.b.toNat % 8
    exec (.fenceRel f) s = .next (b.after ((b.t.fenceReleases (.rope b.y.k) b.t.nextId sc).onRope b.y.k (fun r =>
      { r with fence := ⟨r.fence.acq, b.t.nextId, r.fence.scopes, tset r.fence.rels sc b.t.nextId⟩ })) [] 0 .fall)) ∧
  (∀ f s b, s.begun 0x164 f pb0 = some b →
    let sc := f.b.toNat % 8
    exec (.fenceAr f) s = .next (b.after (((b.t.fenceAcquires (.rope b.y.k) b.t.nextId sc).fenceReleases (.rope b.y.k) b.t.nextId sc).onRope b.y.k
      (fun r => { r with fence := ⟨b.t.nextId, b.t.nextId, tset r.fence.scopes sc b.t.nextId, tset r.fence.rels sc b.t.nextId⟩ })) [] 0 .fall)) ∧
  (∀ (s : State) k (r : Rope) u, s.fenced k r u = true ↔
    (∃ o ∈ r.outst, o.tok = none ∧ (o.id < r.fence.acq ∨ o.id < r.fence.rel)) ∨
    (∃ m ∈ r.monitors, m.unit ≠ u ∧ (m.id < r.fence.acq ∨ m.id < r.fence.rel)) ∨
    (∃ e ∈ s.log, e.rope = k ∧ e.orphan = false ∧ e.unit ≠ u ∧ e.isWaitv r = true ∧ (e.id < r.fence.acq ∨ e.id < r.fence.rel)) ∨
    (∃ e ∈ s.log, e.rope = k ∧ e.orphan = true ∧ (e.id < r.fence.rel ∨ e.loads = true ∧ e.id < r.fence.acq)) ∨
    (∃ o ∈ r.stores, o.id < r.fence.rel) ∨ (∃ q ∈ s.slots, ∃ l, q.2.fill = some l ∧ l.rope = k ∧ l.id < r.fence.rel) ∨
    (∃ q ∈ s.ctxs, q.2.rope = k ∧ q.2.task = none ∧ q.2.id < r.fence.rel)) ∧
  (∀ f s b, s.begun 0x184 f pb0 = some b → b.y.act ≠ 0 → b.t.fenced b.y.k b.y.r b.y.unit = true →
    exec (.ldN32 f) s = .next s) ∧
  (∀ f s b, s.begun 0x185 f pb0 = some b → b.y.act ≠ 0 → b.t.fenced b.y.k b.y.r b.y.unit = true →
    exec (.ldN64 f) s = .next s) ∧
  (∀ f s b, s.begun 0x18A f pb0 = some b → b.y.act ≠ 0 → b.t.fenced b.y.k b.y.r b.y.unit = true →
    exec (.stN32 f) s = .next s) ∧
  (∀ f s b, s.begun 0x18B f pb0 = some b → b.y.act ≠ 0 → b.t.fenced b.y.k b.y.r b.y.unit = true →
    exec (.stN64 f) s = .next s) ∧
  (∀ f s b, s.begun 0x198 f pb0 = some b → b.y.act ≠ 0 → b.t.fenced b.y.k b.y.r b.y.unit = true →
    exec (.atomAddN32 f) s = .next s) ∧
  (∀ f s b, s.begun 0x1B0 f pb0 = some b → b.y.act ≠ 0 → b.t.fenced b.y.k b.y.r b.y.unit = true →
    exec (.redAddN32 f) s = .next s) ∧
  (∀ f s b, s.begun 0x100 f pb0 = some b → b.y.act ≠ 0 → b.t.fenced b.y.k b.y.r b.y.unit = true →
    exec (.mapld f) s = .next s) ∧
  (∀ f s b, s.begun 0x1D0 f pb0 = some b → b.y.act ≠ 0 → b.t.fenced b.y.k b.y.r b.y.unit = true → b.y.core.copyShare b.y.r.dslot ≠ 0 → (let dest := b.y.pc + BitVec.ofInt 64 (8 * (f.c ++ (f.b ++ f.a)).toInt); dest.toNat % 8 = 0 ∧ b.t.inCopy b.y.r.did b.y.pc.toNat dest.toNat = true) →
    exec (.cprun f) s = .next s)

/-- Every load that starts, with lanes in ACTIVE and whose waits of R184, R198 and R307 and checks of R179 are met, completes: LDC counts it, and its destinations are outstanding with the bytes that the lanes read in this step (log entry 8), zeros for the elements of a tile outside its bounds; through a HOST or PEER handle it is in the operand log, to be performed when the link takes it. Every store that starts, with lanes in ACTIVE and whose waits and checks are met, completes: STC counts it, and the lanes have written, in this step (log entry 8), the low bytes of D, or of 2 or 4 registers from D on, in order; through a HOST or PEER handle it is in the operand log. -/
def Obligations.LoadsAndStoresMoveTheirLanes : Prop :=
  (AccessCompletes .ldN8 0x180 (fun b => ⟨⟨[0, 1, 2, 3], 1, .load⟩, .read, true, b.y.f.c.getLsbD 0, 1, 1,
    b.y.elems (b.y.f.c.getLsbD 0) (fun l => .load 1 false (b.y.f.c.getLsbD 0) b.y.f.d.toNat l), [], pb0⟩) ∧
  AccessCompletes .ldS8 0x181 (fun b => ⟨⟨[0, 1, 2, 3], 1, .load⟩, .read, true, b.y.f.c.getLsbD 0, 1, 1,
    b.y.elems (b.y.f.c.getLsbD 0) (fun l => .load 1 true (b.y.f.c.getLsbD 0) b.y.f.d.toNat l), [], pb0⟩) ∧
  AccessCompletes .ldN16 0x182 (fun b => ⟨⟨[0, 1, 2, 3], 1, .load⟩, .read, true, b.y.f.c.getLsbD 0, 2, 2,
    b.y.elems (b.y.f.c.getLsbD 0) (fun l => .load 2 false (b.y.f.c.getLsbD 0) b.y.f.d.toNat l), [], pb0⟩) ∧
  AccessCompletes .ldS16 0x183 (fun b => ⟨⟨[0, 1, 2, 3], 1, .load⟩, .read, true, b.y.f.c.getLsbD 0, 2, 2,
    b.y.elems (b.y.f.c.getLsbD 0) (fun l => .load 2 true (b.y.f.c.getLsbD 0) b.y.f.d.toNat l), [], pb0⟩) ∧
  AccessCompletes .ldN32 0x184 (fun b => ⟨⟨[0, 1, 2, 3, 4], 1, .load⟩, .read, true, b.y.f.c.getLsbD 0, 4, 4,
    b.y.elems (b.y.f.c.getLsbD 0) (fun l => .load 4 false (b.y.f.c.getLsbD 0) b.y.f.d.toNat l), [], pb0⟩) ∧
  AccessCompletes .ldN64 0x185 (fun b => ⟨⟨[0, 1, 2, 3, 4], 1, .load⟩, .read, true, b.y.f.c.getLsbD 0, 8, 8,
    b.y.elems (b.y.f.c.getLsbD 0) (fun l => .load 8 false (b.y.f.c.getLsbD 0) b.y.f.d.toNat l), [], pb0⟩) ∧
  AccessCompletes .ldqN32 0x186 (fun b => ⟨⟨[0, 1, 2, 3], 1, .load⟩, .read, true, b.y.f.c.getLsbD 0, 16, 16,
    b.y.elems (b.y.f.c.getLsbD 0) (fun l => .load 16 false (b.y.f.c.getLsbD 0) b.y.f.d.toNat l), [], pb0⟩) ∧
  (∀ (f : Fields) (pb : PB) (s : State) (b : Begun), s.begun 0x190 f pb = some b → b.AccessDone (exec (.ldt f pb) s) ⟨⟨[0, 1], 1, .other⟩, .read, true, false, 4, 4,
    b.y.tileElems pb (fun k l => .load 4 false false (f.d.toNat + k) l),
    (List.range (pbNreg pb)).flatMap (fun k => (b.y.active.filter (fun l => !tileIn pb (32 * k + l))).map (fun l =>
      .vec (f.d.toNat + k) l 0)), pb⟩)) ∧
  (AccessCompletes .stN8 0x188 (fun b => ⟨⟨[0, 1, 2, 3], 2, .store⟩, .write, false, b.y.f.c.getLsbD 0, 1, 1,
    b.y.elems (b.y.f.c.getLsbD 0) (fun l => .store (storedBytes b.y (b.y.f.c.getLsbD 0) 1 l)), [], pb0⟩) ∧
  AccessCompletes .stN16 0x189 (fun b => ⟨⟨[0, 1, 2, 3], 2, .store⟩, .write, false, b.y.f.c.getLsbD 0, 2, 2,
    b.y.elems (b.y.f.c.getLsbD 0) (fun l => .store (storedBytes b.y (b.y.f.c.getLsbD 0) 2 l)), [], pb0⟩) ∧
  AccessCompletes .stN32 0x18A (fun b => ⟨⟨[0, 1, 2, 3, 4], 2, .store⟩, .write, false, b.y.f.c.getLsbD 0, 4, 4,
    b.y.elems (b.y.f.c.getLsbD 0) (fun l => .store (storedBytes b.y (b.y.f.c.getLsbD 0) 4 l)), [], pb0⟩) ∧
  AccessCompletes .stN64 0x18B (fun b => ⟨⟨[0, 1, 2, 3, 4], 2, .store⟩, .write, false, b.y.f.c.getLsbD 0, 8, 8,
    b.y.elems (b.y.f.c.getLsbD 0) (fun l => .store (storedBytes b.y (b.y.f.c.getLsbD 0) 8 l)), [], pb0⟩) ∧
  AccessCompletes .stqN32 0x18C (fun b => ⟨⟨[0, 1, 2, 3], 2, .store⟩, .write, false, b.y.f.c.getLsbD 0, 16, 16,
    b.y.elems (b.y.f.c.getLsbD 0) (fun l => .store (storedBytes b.y (b.y.f.c.getLsbD 0) 16 l)), [], pb0⟩) ∧
  (∀ (f : Fields) (pb : PB) (s : State) (b : Begun), s.begun 0x191 f pb = some b → b.AccessDone (exec (.stt f pb) s) ⟨⟨[0, 1], 2, .other⟩, .write, false, false, 4, 4,
    b.y.tileElems pb (fun k l => .store (leBytes 4 (b.y.r.vr (f.d.toNat + k) l).toNat)), [], pb⟩))

/-- Every ATOM and RED that starts, with lanes in ACTIVE and whose waits and checks are met, completes: its lanes have read, modified and written their words in order, in this step (log entry 8), a RED that may be gathered at its home or in its core by a free choice (log entry 46); an ATOM is counted in LDC with the old values outstanding for D, a RED in STC. -/
def Obligations.AtomicsReadModifyWriteTheirLanes : Prop :=
  AccessCompletes .atomAddN32 0x198 (fun b => ⟨⟨[0, 1, 4], 11, .other⟩, .atomic, true, false, 4, 4,
    b.y.elems false (fun l => .atom .addN32 (b.y.atomArgs .addN32 l).1 (b.y.atomArgs .addN32 l).2 (some b.y.f.d.toNat) l), [], pb0⟩) ∧
  AccessCompletes .atomAddN64 0x199 (fun b => ⟨⟨[0, 1, 4], 11, .addCasXchg⟩, .atomic, true, false, 8, 8,
    b.y.elems false (fun l => .atom .addN64 (b.y.atomArgs .addN64 l).1 (b.y.atomArgs .addN64 l).2 (some b.y.f.d.toNat) l), [], pb0⟩) ∧
  AccessCompletes .atomAddF32 0x19A (fun b => ⟨⟨[0, 1], 11, .other⟩, .atomic, true, false, 4, 4,
    b.y.elems false (fun l => .atom .addF32 (b.y.atomArgs .addF32 l).1 (b.y.atomArgs .addF32 l).2 (some b.y.f.d.toNat) l), [], pb0⟩) ∧
  AccessCompletes .atomAdd2Bf16 0x19B (fun b => ⟨⟨[0, 1], 11, .other⟩, .atomic, true, false, 4, 4,
    b.y.elems false (fun l => .atom .add2Bf16 (b.y.atomArgs .add2Bf16 l).1 (b.y.atomArgs .add2Bf16 l).2 (some b.y.f.d.toNat) l), [], pb0⟩) ∧
  AccessCompletes .atomMinS32 0x19C (fun b => ⟨⟨[0, 1, 4], 11, .other⟩, .atomic, true, false, 4, 4,
    b.y.elems false (fun l => .atom .minS32 (b.y.atomArgs .minS32 l).1 (b.y.atomArgs .minS32 l).2 (some b.y.f.d.toNat) l), [], pb0⟩) ∧
  AccessCompletes .atomMinN32 0x19D (fun b => ⟨⟨[0, 1, 4], 11, .other⟩, .atomic, true, false, 4, 4,
    b.y.elems false (fun l => .atom .minN32 (b.y.atomArgs .minN32 l).1 (b.y.atomArgs .minN32 l).2 (some b.y.f.d.toNat) l), [], pb0⟩) ∧
  AccessCompletes .atomMinF32 0x19E (fun b => ⟨⟨[0, 1], 11, .other⟩, .atomic, true, false, 4, 4,
    b.y.elems false (fun l => .atom .minF32 (b.y.atomArgs .minF32 l).1 (b.y.atomArgs .minF32 l).2 (some b.y.f.d.toNat) l), [], pb0⟩) ∧
  AccessCompletes .atomMaxS32 0x19F (fun b => ⟨⟨[0, 1, 4], 11, .other⟩, .atomic, true, false, 4, 4,
    b.y.elems false (fun l => .atom .maxS32 (b.y.atomArgs .maxS32 l).1 (b.y.atomArgs .maxS32 l).2 (some b.y.f.d.toNat) l), [], pb0⟩) ∧
  AccessCompletes .atomMaxN32 0x1A0 (fun b => ⟨⟨[0, 1, 4], 11, .other⟩, .atomic, true, false, 4, 4,
    b.y.elems false (fun l => .atom .maxN32 (b.y.atomArgs .maxN32 l).1 (b.y.atomArgs .maxN32 l).2 (some b.y.f.d.toNat) l), [], pb0⟩) ∧
  AccessCompletes .atomMaxF32 0x1A1 (fun b => ⟨⟨[0, 1], 11, .other⟩, .atomic, true, false, 4, 4,
    b.y.elems false (fun l => .atom .maxF32 (b.y.atomArgs .maxF32 l).1 (b.y.atomArgs .maxF32 l).2 (some b.y.f.d.toNat) l), [], pb0⟩) ∧
  AccessCompletes .atomAndN32 0x1A2 (fun b => ⟨⟨[0, 1, 4], 11, .other⟩, .atomic, true, false, 4, 4,
    b.y.elems false (fun l => .atom .andN32 (b.y.atomArgs .andN32 l).1 (b.y.atomArgs .andN32 l).2 (some b.y.f.d.toNat) l), [], pb0⟩) ∧
  AccessCompletes .atomOrN32 0x1A3 (fun b => ⟨⟨[0, 1, 4], 11, .other⟩, .atomic, true, false, 4, 4,
    b.y.elems false (fun l => .atom .orN32 (b.y.atomArgs .orN32 l).1 (b.y.atomArgs .orN32 l).2 (some b.y.f.d.toNat) l), [], pb0⟩) ∧
  AccessCompletes .atomXorN32 0x1A4 (fun b => ⟨⟨[0, 1, 4], 11, .other⟩, .atomic, true, false, 4, 4,
    b.y.elems false (fun l => .atom .xorN32 (b.y.atomArgs .xorN32 l).1 (b.y.atomArgs .xorN32 l).2 (some b.y.f.d.toNat) l), [], pb0⟩) ∧
  AccessCompletes .atomIncN32 0x1A5 (fun b => ⟨⟨[0, 1, 4], 11, .other⟩, .atomic, true, false, 4, 4,
    b.y.elems false (fun l => .atom .incN32 (b.y.atomArgs .incN32 l).1 (b.y.atomArgs .incN32 l).2 (some b.y.f.d.toNat) l), [], pb0⟩) ∧
  AccessCompletes .atomDecN32 0x1A6 (fun b => ⟨⟨[0, 1, 4], 11, .other⟩, .atomic, true, false, 4, 4,
    b.y.elems false (fun l => .atom .decN32 (b.y.atomArgs .decN32 l).1 (b.y.atomArgs .decN32 l).2 (some b.y.f.d.toNat) l), [], pb0⟩) ∧
  AccessCompletes .atomCaddF32 0x1A7 (fun b => ⟨⟨[0, 1], 11, .other⟩, .atomic, true, false, 8, 8,
    b.y.elems false (fun l => .atom .caddF32 (b.y.atomArgs .caddF32 l).1 (b.y.atomArgs .caddF32 l).2 (some b.y.f.d.toNat) l), [], pb0⟩) ∧
  AccessCompletes .atomXchgN32 0x1A8 (fun b => ⟨⟨[0, 1, 4], 11, .other⟩, .atomic, true, false, 4, 4,
    b.y.elems false (fun l => .atom .xchgN32 (b.y.atomArgs .xchgN32 l).1 (b.y.atomArgs .xchgN32 l).2 (some b.y.f.d.toNat) l), [], pb0⟩) ∧
  AccessCompletes .atomXchgN64 0x1A9 (fun b => ⟨⟨[0, 1, 4], 11, .addCasXchg⟩, .atomic, true, false, 8, 8,
    b.y.elems false (fun l => .atom .xchgN64 (b.y.atomArgs .xchgN64 l).1 (b.y.atomArgs .xchgN64 l).2 (some b.y.f.d.toNat) l), [], pb0⟩) ∧
  AccessCompletes .atomCasN32 0x1AA (fun b => ⟨⟨[0, 1, 4], 11, .other⟩, .atomic, true, false, 4, 4,
    b.y.elems false (fun l => .atom .casN32 (b.y.atomArgs .casN32 l).1 (b.y.atomArgs .casN32 l).2 (some b.y.f.d.toNat) l), [], pb0⟩) ∧
  AccessCompletes .atomCasN64 0x1AB (fun b => ⟨⟨[0, 1, 4], 11, .addCasXchg⟩, .atomic, true, false, 8, 8,
    b.y.elems false (fun l => .atom .casN64 (b.y.atomArgs .casN64 l).1 (b.y.atomArgs .casN64 l).2 (some b.y.f.d.toNat) l), [], pb0⟩) ∧
  AccessCompletes .redAddN32 0x1B0 (fun b => ⟨⟨[0, 1, 4], 10, .other⟩, .atomic, false, false, 4, 4,
    b.y.elems false (fun l => .atom .addN32 (b.y.atomArgs .addN32 l).1 (b.y.atomArgs .addN32 l).2 none l), [], pb0⟩) ∧
  AccessCompletes .redAddN64 0x1B1 (fun b => ⟨⟨[0, 1, 4], 10, .redAdd⟩, .atomic, false, false, 8, 8,
    b.y.elems false (fun l => .atom .addN64 (b.y.atomArgs .addN64 l).1 (b.y.atomArgs .addN64 l).2 none l), [], pb0⟩) ∧
  AccessCompletes .redAddF32 0x1B2 (fun b => ⟨⟨[0, 1], 10, .other⟩, .atomic, false, false, 4, 4,
    b.y.elems false (fun l => .atom .addF32 (b.y.atomArgs .addF32 l).1 (b.y.atomArgs .addF32 l).2 none l), [], pb0⟩) ∧
  AccessCompletes .redAdd2Bf16 0x1B3 (fun b => ⟨⟨[0, 1], 10, .other⟩, .atomic, false, false, 4, 4,
    b.y.elems false (fun l => .atom .add2Bf16 (b.y.atomArgs .add2Bf16 l).1 (b.y.atomArgs .add2Bf16 l).2 none l), [], pb0⟩) ∧
  AccessCompletes .redMinS32 0x1B4 (fun b => ⟨⟨[0, 1, 4], 10, .other⟩, .atomic, false, false, 4, 4,
    b.y.elems false (fun l => .atom .minS32 (b.y.atomArgs .minS32 l).1 (b.y.atomArgs .minS32 l).2 none l), [], pb0⟩) ∧
  AccessCompletes .redMinN32 0x1B5 (fun b => ⟨⟨[0, 1, 4], 10, .other⟩, .atomic, false, false, 4, 4,
    b.y.elems false (fun l => .atom .minN32 (b.y.atomArgs .minN32 l).1 (b.y.atomArgs .minN32 l).2 none l), [], pb0⟩) ∧
  AccessCompletes .redMinF32 0x1B6 (fun b => ⟨⟨[0, 1], 10, .other⟩, .atomic, false, false, 4, 4,
    b.y.elems false (fun l => .atom .minF32 (b.y.atomArgs .minF32 l).1 (b.y.atomArgs .minF32 l).2 none l), [], pb0⟩) ∧
  AccessCompletes .redMaxS32 0x1B7 (fun b => ⟨⟨[0, 1, 4], 10, .other⟩, .atomic, false, false, 4, 4,
    b.y.elems false (fun l => .atom .maxS32 (b.y.atomArgs .maxS32 l).1 (b.y.atomArgs .maxS32 l).2 none l), [], pb0⟩) ∧
  AccessCompletes .redMaxN32 0x1B8 (fun b => ⟨⟨[0, 1, 4], 10, .other⟩, .atomic, false, false, 4, 4,
    b.y.elems false (fun l => .atom .maxN32 (b.y.atomArgs .maxN32 l).1 (b.y.atomArgs .maxN32 l).2 none l), [], pb0⟩) ∧
  AccessCompletes .redMaxF32 0x1B9 (fun b => ⟨⟨[0, 1], 10, .other⟩, .atomic, false, false, 4, 4,
    b.y.elems false (fun l => .atom .maxF32 (b.y.atomArgs .maxF32 l).1 (b.y.atomArgs .maxF32 l).2 none l), [], pb0⟩) ∧
  AccessCompletes .redAndN32 0x1BA (fun b => ⟨⟨[0, 1, 4], 10, .other⟩, .atomic, false, false, 4, 4,
    b.y.elems false (fun l => .atom .andN32 (b.y.atomArgs .andN32 l).1 (b.y.atomArgs .andN32 l).2 none l), [], pb0⟩) ∧
  AccessCompletes .redOrN32 0x1BB (fun b => ⟨⟨[0, 1, 4], 10, .other⟩, .atomic, false, false, 4, 4,
    b.y.elems false (fun l => .atom .orN32 (b.y.atomArgs .orN32 l).1 (b.y.atomArgs .orN32 l).2 none l), [], pb0⟩) ∧
  AccessCompletes .redXorN32 0x1BC (fun b => ⟨⟨[0, 1, 4], 10, .other⟩, .atomic, false, false, 4, 4,
    b.y.elems false (fun l => .atom .xorN32 (b.y.atomArgs .xorN32 l).1 (b.y.atomArgs .xorN32 l).2 none l), [], pb0⟩) ∧
  AccessCompletes .redIncN32 0x1BD (fun b => ⟨⟨[0, 1, 4], 10, .other⟩, .atomic, false, false, 4, 4,
    b.y.elems false (fun l => .atom .incN32 (b.y.atomArgs .incN32 l).1 (b.y.atomArgs .incN32 l).2 none l), [], pb0⟩) ∧
  AccessCompletes .redDecN32 0x1BE (fun b => ⟨⟨[0, 1, 4], 10, .other⟩, .atomic, false, false, 4, 4,
    b.y.elems false (fun l => .atom .decN32 (b.y.atomArgs .decN32 l).1 (b.y.atomArgs .decN32 l).2 none l), [], pb0⟩) ∧
  AccessCompletes .redCaddF32 0x1BF (fun b => ⟨⟨[0, 1], 10, .other⟩, .atomic, false, false, 8, 8,
    b.y.elems false (fun l => .atom .caddF32 (b.y.atomArgs .caddF32 l).1 (b.y.atomArgs .caddF32 l).2 none l), [], pb0⟩)

/-- The new value of each integer operation of R189, on a word old of its size with operands x and y of its size, is that of word arithmetic: sum, signed and unsigned minimum and maximum, and, or, xor, wrapping increment and decrement, exchange, compare and swap. ADD.F32 is the sum rounded to nearest, the first NaN before it; ADD2.BF16 that of each half in BF16; MIN.F32 and MAX.F32 what the table of R121 chooses. CADD.F32 writes the rounded sum of the three values and the rounded rest, zeros for an exact sum of zero, and the error +0 where a value is NaN or infinite or the sum overflows. -/
def Obligations.AtomicOperationsAreThoseOfTheTable : Prop :=
  ∀ o d c : Word, ∀ p q z : DWord,
    AtomOp.new .addN32 o.toNat d.toNat 0 = (o + d).toNat ∧ AtomOp.new .addN64 p.toNat q.toNat 0 = (p + q).toNat ∧
    AtomOp.new .minS32 o.toNat d.toNat 0 = (if d.slt o then d else o).toNat ∧
    AtomOp.new .maxS32 o.toNat d.toNat 0 = (if o.slt d then d else o).toNat ∧
    AtomOp.new .minN32 o.toNat d.toNat 0 = (if d.ult o then d else o).toNat ∧
    AtomOp.new .maxN32 o.toNat d.toNat 0 = (if o.ult d then d else o).toNat ∧
    AtomOp.new .andN32 o.toNat d.toNat 0 = (o &&& d).toNat ∧ AtomOp.new .orN32 o.toNat d.toNat 0 = (o ||| d).toNat ∧
    AtomOp.new .xorN32 o.toNat d.toNat 0 = (o ^^^ d).toNat ∧
    AtomOp.new .incN32 o.toNat d.toNat 0 = (if o.ult d then o + 1 else 0).toNat ∧
    AtomOp.new .decN32 o.toNat d.toNat 0 = (if o = 0 ∨ d.ult o then d else o - 1).toNat ∧
    AtomOp.new .xchgN32 o.toNat d.toNat 0 = d.toNat ∧ AtomOp.new .xchgN64 p.toNat q.toNat 0 = q.toNat ∧
    AtomOp.new .casN32 o.toNat d.toNat c.toNat = (if o = d then c else o).toNat ∧
    AtomOp.new .casN64 p.toNat q.toNat z.toNat = (if p = q then z else p).toNat ∧
    (let u := fdecode .f32 o.toNat
     let v := fdecode .f32 d.toNat
     AtomOp.new .addF32 o.toNat d.toNat 0 = (fround .f32 0 false (firstNan u v (faddExact 0 u v)).1).1 ∧
     AtomOp.new .minF32 o.toNat d.toNat 0 = (fround .f32 0 false (extremeOf false u v)).1 ∧
     AtomOp.new .maxF32 o.toNat d.toNat 0 = (fround .f32 0 false (extremeOf true u v)).1) ∧
    (let sum (a b : BitVec 16) : Nat := (fround .bf16 0 false
        (firstNan (fdecode .bf16 a.toNat) (fdecode .bf16 b.toNat) (faddExact 0 (fdecode .bf16 a.toNat) (fdecode .bf16 b.toNat))).1).1
     AtomOp.new .add2Bf16 o.toNat d.toNat 0 =
       sum (o.extractLsb' 0 16) (d.extractLsb' 0 16) + 2 ^ 16 * sum (o.extractLsb' 16 16) (d.extractLsb' 16 16)) ∧
    (∀ a b g m n k i j l, fdecode .f32 (p.extractLsb' 0 32).toNat = .fin a m i → fdecode .f32 (p.extractLsb' 32 32).toNat = .fin b n j →
      fdecode .f32 d.toNat = .fin g k l →
      let total := ratOf (.fin a m i) + ratOf (.fin b n j) + ratOf (.fin g k l)
      let r := AtomOp.new .caddF32 p.toNat d.toNat 0
      (total = 0 → r = 0) ∧
      (total ≠ 0 → ∃ t y x, ratOf (.fin t y x) = total ∧
        let s := fround .f32 0 false (.fin t y x)
        r % 2 ^ 32 = s.1 ∧ (s.2 &&& flagOF ≠ 0 → r / 2 ^ 32 = 0) ∧
        (s.2 &&& flagOF = 0 → ∃ z w v, ratOf (.fin z w v) = total - ratOf (fdecode .f32 s.1) ∧
          r / 2 ^ 32 = if w = 0 then 0 else (fround .f32 0 false (.fin z w v)).1))) ∧
    (let u := [fdecode .f32 (p.extractLsb' 0 32).toNat, fdecode .f32 (p.extractLsb' 32 32).toNat, fdecode .f32 d.toNat]
     (u.any fisNan = true ∨ u.any fisInf = true) → AtomOp.new .caddF32 p.toNat d.toNat 0 =
       (fround .f32 0 false (match u.find? fisNan with
         | some v => v
         | none => (faddExact 0 (faddExact 0 (u.getD 0 canonNan) (u.getD 1 canonNan)).1 (u.getD 2 canonNan)).1)).1)

/-- An access traps on the first of the checks of R179, and then of that of R222, that fails for a lane of it, and is let through where none fails: RIGHTS with INVALID, ENTRY, SPACE or RIGHT, BOUND with ALIGN, RANGE or SCRATCH, RIGHTS with SPACE by R241, or DOMAIN with SCRATCH in a gate frame. The record carries the lanes that fail it, or in a scalar form those of ACTIVE, and, but for DOMAIN, the handle index and the offset of the lowest of them. LD, LDQ, LDT, ST, STQ, STT, ATOM, RED and WAITV that need not wait take that trap. That the DOMAIN record holds neither is R222; that a tile reports its first failing element of the lane is log entry 56. -/
def Obligations.AccessesTrapOnTheFirstFailingCheck : Prop :=
  (∀ (x : Issue) (s : State) h need sc size align (l : List MemEl) (e : MemEl) (r : List MemEl) n, n < 9 → e.lane < 32 →
    (∀ k < n, ∀ d ∈ l ++ e :: r, ¬ x.checkFails s h need size align k d.off) → x.checkFails s h need size align n e.off →
    (∀ d ∈ l, x.checkFails s h need size align n d.off → e.lane < d.lane) → (∀ d ∈ r, x.checkFails s h need size align n d.off → e.lane ≤ d.lane) →
    ∃ m, x.addrTrap s h need sc size align (l ++ e :: r) = some ⟨(checkCause n).1, (checkCause n).2, m,
        if n = 8 then 0 else h.idx.setWidth 32, if n = 8 then 0 else BitVec.ofInt 32 e.off, 0⟩ ∧
      (sc = true → m = x.act) ∧
      (sc = false → ∀ j < 32, (m.getLsbD j = true ↔ ∃ d ∈ l ++ e :: r, d.lane = j ∧ x.checkFails s h need size align n d.off))) ∧
  (∀ (x : Issue) (s : State) h need sc size align (l : List MemEl), (∀ n < 9, ∀ d ∈ l, ¬ x.checkFails s h need size align n d.off) →
    x.addrTrap s h need sc size align l = none) ∧
  (∀ (f : Fields) (s : State) (b : Begun), s.begun 0x180 f pb0 = some b → b.AccessTraps (exec (.ldN8 f)  s) s
    ((fun b => ⟨⟨[0, 1, 2, 3], 1, .load⟩, .read, true, b.y.f.c.getLsbD 0, 1, 1, b.y.elems (b.y.f.c.getLsbD 0) (fun l => .load 1 false (b.y.f.c.getLsbD 0) b.y.f.d.toNat l), [], pb0⟩) b)) ∧
  (∀ (f : Fields) (s : State) (b : Begun), s.begun 0x181 f pb0 = some b → b.AccessTraps (exec (.ldS8 f)  s) s
    ((fun b => ⟨⟨[0, 1, 2, 3], 1, .load⟩, .read, true, b.y.f.c.getLsbD 0, 1, 1, b.y.elems (b.y.f.c.getLsbD 0) (fun l => .load 1 true (b.y.f.c.getLsbD 0) b.y.f.d.toNat l), [], pb0⟩) b)) ∧
  (∀ (f : Fields) (s : State) (b : Begun), s.begun 0x182 f pb0 = some b → b.AccessTraps (exec (.ldN16 f)  s) s
    ((fun b => ⟨⟨[0, 1, 2, 3], 1, .load⟩, .read, true, b.y.f.c.getLsbD 0, 2, 2, b.y.elems (b.y.f.c.getLsbD 0) (fun l => .load 2 false (b.y.f.c.getLsbD 0) b.y.f.d.toNat l), [], pb0⟩) b)) ∧
  (∀ (f : Fields) (s : State) (b : Begun), s.begun 0x183 f pb0 = some b → b.AccessTraps (exec (.ldS16 f)  s) s
    ((fun b => ⟨⟨[0, 1, 2, 3], 1, .load⟩, .read, true, b.y.f.c.getLsbD 0, 2, 2, b.y.elems (b.y.f.c.getLsbD 0) (fun l => .load 2 true (b.y.f.c.getLsbD 0) b.y.f.d.toNat l), [], pb0⟩) b)) ∧
  (∀ (f : Fields) (s : State) (b : Begun), s.begun 0x184 f pb0 = some b → b.AccessTraps (exec (.ldN32 f)  s) s
    ((fun b => ⟨⟨[0, 1, 2, 3, 4], 1, .load⟩, .read, true, b.y.f.c.getLsbD 0, 4, 4, b.y.elems (b.y.f.c.getLsbD 0) (fun l => .load 4 false (b.y.f.c.getLsbD 0) b.y.f.d.toNat l), [], pb0⟩) b)) ∧
  (∀ (f : Fields) (s : State) (b : Begun), s.begun 0x185 f pb0 = some b → b.AccessTraps (exec (.ldN64 f)  s) s
    ((fun b => ⟨⟨[0, 1, 2, 3, 4], 1, .load⟩, .read, true, b.y.f.c.getLsbD 0, 8, 8, b.y.elems (b.y.f.c.getLsbD 0) (fun l => .load 8 false (b.y.f.c.getLsbD 0) b.y.f.d.toNat l), [], pb0⟩) b)) ∧
  (∀ (f : Fields) (s : State) (b : Begun), s.begun 0x186 f pb0 = some b → b.AccessTraps (exec (.ldqN32 f)  s) s
    ((fun b => ⟨⟨[0, 1, 2, 3], 1, .load⟩, .read, true, b.y.f.c.getLsbD 0, 16, 16, b.y.elems (b.y.f.c.getLsbD 0) (fun l => .load 16 false (b.y.f.c.getLsbD 0) b.y.f.d.toNat l), [], pb0⟩) b)) ∧
  (∀ (f : Fields) (s : State) (b : Begun), s.begun 0x188 f pb0 = some b → b.AccessTraps (exec (.stN8 f)  s) s
    ((fun b => ⟨⟨[0, 1, 2, 3], 2, .store⟩, .write, false, b.y.f.c.getLsbD 0, 1, 1, b.y.elems (b.y.f.c.getLsbD 0) (fun l => .store (storedBytes b.y (b.y.f.c.getLsbD 0) 1 l)), [], pb0⟩) b)) ∧
  (∀ (f : Fields) (s : State) (b : Begun), s.begun 0x189 f pb0 = some b → b.AccessTraps (exec (.stN16 f)  s) s
    ((fun b => ⟨⟨[0, 1, 2, 3], 2, .store⟩, .write, false, b.y.f.c.getLsbD 0, 2, 2, b.y.elems (b.y.f.c.getLsbD 0) (fun l => .store (storedBytes b.y (b.y.f.c.getLsbD 0) 2 l)), [], pb0⟩) b)) ∧
  (∀ (f : Fields) (s : State) (b : Begun), s.begun 0x18A f pb0 = some b → b.AccessTraps (exec (.stN32 f)  s) s
    ((fun b => ⟨⟨[0, 1, 2, 3, 4], 2, .store⟩, .write, false, b.y.f.c.getLsbD 0, 4, 4, b.y.elems (b.y.f.c.getLsbD 0) (fun l => .store (storedBytes b.y (b.y.f.c.getLsbD 0) 4 l)), [], pb0⟩) b)) ∧
  (∀ (f : Fields) (s : State) (b : Begun), s.begun 0x18B f pb0 = some b → b.AccessTraps (exec (.stN64 f)  s) s
    ((fun b => ⟨⟨[0, 1, 2, 3, 4], 2, .store⟩, .write, false, b.y.f.c.getLsbD 0, 8, 8, b.y.elems (b.y.f.c.getLsbD 0) (fun l => .store (storedBytes b.y (b.y.f.c.getLsbD 0) 8 l)), [], pb0⟩) b)) ∧
  (∀ (f : Fields) (s : State) (b : Begun), s.begun 0x18C f pb0 = some b → b.AccessTraps (exec (.stqN32 f)  s) s
    ((fun b => ⟨⟨[0, 1, 2, 3], 2, .store⟩, .write, false, b.y.f.c.getLsbD 0, 16, 16, b.y.elems (b.y.f.c.getLsbD 0) (fun l => .store (storedBytes b.y (b.y.f.c.getLsbD 0) 16 l)), [], pb0⟩) b)) ∧
  (∀ (f : Fields) (pb : PB) (s : State) (b : Begun), s.begun 0x190 f pb = some b → b.AccessTraps (exec (.ldt f pb)  s) s
    ((fun b => ⟨⟨[0, 1], 1, .other⟩, .read, true, false, 4, 4, b.y.tileElems pb (fun k l => .load 4 false false (f.d.toNat + k) l), [], pb⟩) b)) ∧
  (∀ (f : Fields) (pb : PB) (s : State) (b : Begun), s.begun 0x191 f pb = some b → b.AccessTraps (exec (.stt f pb)  s) s
    ((fun b => ⟨⟨[0, 1], 2, .other⟩, .write, false, false, 4, 4, b.y.tileElems pb (fun k l => .store (leBytes 4 (b.y.r.vr (f.d.toNat + k) l).toNat)), [], pb⟩) b)) ∧
  (∀ (f : Fields) (s : State) (b : Begun), s.begun 0x198 f pb0 = some b → b.AccessTraps (exec (.atomAddN32 f)  s) s
    ((fun b => ⟨⟨[0, 1, 4], 11, .other⟩, .atomic, true, false, 4, 4, b.y.elems false (fun l => .atom .addN32 (b.y.atomArgs .addN32 l).1 (b.y.atomArgs .addN32 l).2 (some b.y.f.d.toNat) l), [], pb0⟩) b)) ∧
  (∀ (f : Fields) (s : State) (b : Begun), s.begun 0x199 f pb0 = some b → b.AccessTraps (exec (.atomAddN64 f)  s) s
    ((fun b => ⟨⟨[0, 1, 4], 11, .addCasXchg⟩, .atomic, true, false, 8, 8, b.y.elems false (fun l => .atom .addN64 (b.y.atomArgs .addN64 l).1 (b.y.atomArgs .addN64 l).2 (some b.y.f.d.toNat) l), [], pb0⟩) b)) ∧
  (∀ (f : Fields) (s : State) (b : Begun), s.begun 0x19A f pb0 = some b → b.AccessTraps (exec (.atomAddF32 f)  s) s
    ((fun b => ⟨⟨[0, 1], 11, .other⟩, .atomic, true, false, 4, 4, b.y.elems false (fun l => .atom .addF32 (b.y.atomArgs .addF32 l).1 (b.y.atomArgs .addF32 l).2 (some b.y.f.d.toNat) l), [], pb0⟩) b)) ∧
  (∀ (f : Fields) (s : State) (b : Begun), s.begun 0x19B f pb0 = some b → b.AccessTraps (exec (.atomAdd2Bf16 f)  s) s
    ((fun b => ⟨⟨[0, 1], 11, .other⟩, .atomic, true, false, 4, 4, b.y.elems false (fun l => .atom .add2Bf16 (b.y.atomArgs .add2Bf16 l).1 (b.y.atomArgs .add2Bf16 l).2 (some b.y.f.d.toNat) l), [], pb0⟩) b)) ∧
  (∀ (f : Fields) (s : State) (b : Begun), s.begun 0x19C f pb0 = some b → b.AccessTraps (exec (.atomMinS32 f)  s) s
    ((fun b => ⟨⟨[0, 1, 4], 11, .other⟩, .atomic, true, false, 4, 4, b.y.elems false (fun l => .atom .minS32 (b.y.atomArgs .minS32 l).1 (b.y.atomArgs .minS32 l).2 (some b.y.f.d.toNat) l), [], pb0⟩) b)) ∧
  (∀ (f : Fields) (s : State) (b : Begun), s.begun 0x19D f pb0 = some b → b.AccessTraps (exec (.atomMinN32 f)  s) s
    ((fun b => ⟨⟨[0, 1, 4], 11, .other⟩, .atomic, true, false, 4, 4, b.y.elems false (fun l => .atom .minN32 (b.y.atomArgs .minN32 l).1 (b.y.atomArgs .minN32 l).2 (some b.y.f.d.toNat) l), [], pb0⟩) b)) ∧
  (∀ (f : Fields) (s : State) (b : Begun), s.begun 0x19E f pb0 = some b → b.AccessTraps (exec (.atomMinF32 f)  s) s
    ((fun b => ⟨⟨[0, 1], 11, .other⟩, .atomic, true, false, 4, 4, b.y.elems false (fun l => .atom .minF32 (b.y.atomArgs .minF32 l).1 (b.y.atomArgs .minF32 l).2 (some b.y.f.d.toNat) l), [], pb0⟩) b)) ∧
  (∀ (f : Fields) (s : State) (b : Begun), s.begun 0x19F f pb0 = some b → b.AccessTraps (exec (.atomMaxS32 f)  s) s
    ((fun b => ⟨⟨[0, 1, 4], 11, .other⟩, .atomic, true, false, 4, 4, b.y.elems false (fun l => .atom .maxS32 (b.y.atomArgs .maxS32 l).1 (b.y.atomArgs .maxS32 l).2 (some b.y.f.d.toNat) l), [], pb0⟩) b)) ∧
  (∀ (f : Fields) (s : State) (b : Begun), s.begun 0x1A0 f pb0 = some b → b.AccessTraps (exec (.atomMaxN32 f)  s) s
    ((fun b => ⟨⟨[0, 1, 4], 11, .other⟩, .atomic, true, false, 4, 4, b.y.elems false (fun l => .atom .maxN32 (b.y.atomArgs .maxN32 l).1 (b.y.atomArgs .maxN32 l).2 (some b.y.f.d.toNat) l), [], pb0⟩) b)) ∧
  (∀ (f : Fields) (s : State) (b : Begun), s.begun 0x1A1 f pb0 = some b → b.AccessTraps (exec (.atomMaxF32 f)  s) s
    ((fun b => ⟨⟨[0, 1], 11, .other⟩, .atomic, true, false, 4, 4, b.y.elems false (fun l => .atom .maxF32 (b.y.atomArgs .maxF32 l).1 (b.y.atomArgs .maxF32 l).2 (some b.y.f.d.toNat) l), [], pb0⟩) b)) ∧
  (∀ (f : Fields) (s : State) (b : Begun), s.begun 0x1A2 f pb0 = some b → b.AccessTraps (exec (.atomAndN32 f)  s) s
    ((fun b => ⟨⟨[0, 1, 4], 11, .other⟩, .atomic, true, false, 4, 4, b.y.elems false (fun l => .atom .andN32 (b.y.atomArgs .andN32 l).1 (b.y.atomArgs .andN32 l).2 (some b.y.f.d.toNat) l), [], pb0⟩) b)) ∧
  (∀ (f : Fields) (s : State) (b : Begun), s.begun 0x1A3 f pb0 = some b → b.AccessTraps (exec (.atomOrN32 f)  s) s
    ((fun b => ⟨⟨[0, 1, 4], 11, .other⟩, .atomic, true, false, 4, 4, b.y.elems false (fun l => .atom .orN32 (b.y.atomArgs .orN32 l).1 (b.y.atomArgs .orN32 l).2 (some b.y.f.d.toNat) l), [], pb0⟩) b)) ∧
  (∀ (f : Fields) (s : State) (b : Begun), s.begun 0x1A4 f pb0 = some b → b.AccessTraps (exec (.atomXorN32 f)  s) s
    ((fun b => ⟨⟨[0, 1, 4], 11, .other⟩, .atomic, true, false, 4, 4, b.y.elems false (fun l => .atom .xorN32 (b.y.atomArgs .xorN32 l).1 (b.y.atomArgs .xorN32 l).2 (some b.y.f.d.toNat) l), [], pb0⟩) b)) ∧
  (∀ (f : Fields) (s : State) (b : Begun), s.begun 0x1A5 f pb0 = some b → b.AccessTraps (exec (.atomIncN32 f)  s) s
    ((fun b => ⟨⟨[0, 1, 4], 11, .other⟩, .atomic, true, false, 4, 4, b.y.elems false (fun l => .atom .incN32 (b.y.atomArgs .incN32 l).1 (b.y.atomArgs .incN32 l).2 (some b.y.f.d.toNat) l), [], pb0⟩) b)) ∧
  (∀ (f : Fields) (s : State) (b : Begun), s.begun 0x1A6 f pb0 = some b → b.AccessTraps (exec (.atomDecN32 f)  s) s
    ((fun b => ⟨⟨[0, 1, 4], 11, .other⟩, .atomic, true, false, 4, 4, b.y.elems false (fun l => .atom .decN32 (b.y.atomArgs .decN32 l).1 (b.y.atomArgs .decN32 l).2 (some b.y.f.d.toNat) l), [], pb0⟩) b)) ∧
  (∀ (f : Fields) (s : State) (b : Begun), s.begun 0x1A7 f pb0 = some b → b.AccessTraps (exec (.atomCaddF32 f)  s) s
    ((fun b => ⟨⟨[0, 1], 11, .other⟩, .atomic, true, false, 8, 8, b.y.elems false (fun l => .atom .caddF32 (b.y.atomArgs .caddF32 l).1 (b.y.atomArgs .caddF32 l).2 (some b.y.f.d.toNat) l), [], pb0⟩) b)) ∧
  (∀ (f : Fields) (s : State) (b : Begun), s.begun 0x1A8 f pb0 = some b → b.AccessTraps (exec (.atomXchgN32 f)  s) s
    ((fun b => ⟨⟨[0, 1, 4], 11, .other⟩, .atomic, true, false, 4, 4, b.y.elems false (fun l => .atom .xchgN32 (b.y.atomArgs .xchgN32 l).1 (b.y.atomArgs .xchgN32 l).2 (some b.y.f.d.toNat) l), [], pb0⟩) b)) ∧
  (∀ (f : Fields) (s : State) (b : Begun), s.begun 0x1A9 f pb0 = some b → b.AccessTraps (exec (.atomXchgN64 f)  s) s
    ((fun b => ⟨⟨[0, 1, 4], 11, .addCasXchg⟩, .atomic, true, false, 8, 8, b.y.elems false (fun l => .atom .xchgN64 (b.y.atomArgs .xchgN64 l).1 (b.y.atomArgs .xchgN64 l).2 (some b.y.f.d.toNat) l), [], pb0⟩) b)) ∧
  (∀ (f : Fields) (s : State) (b : Begun), s.begun 0x1AA f pb0 = some b → b.AccessTraps (exec (.atomCasN32 f)  s) s
    ((fun b => ⟨⟨[0, 1, 4], 11, .other⟩, .atomic, true, false, 4, 4, b.y.elems false (fun l => .atom .casN32 (b.y.atomArgs .casN32 l).1 (b.y.atomArgs .casN32 l).2 (some b.y.f.d.toNat) l), [], pb0⟩) b)) ∧
  (∀ (f : Fields) (s : State) (b : Begun), s.begun 0x1AB f pb0 = some b → b.AccessTraps (exec (.atomCasN64 f)  s) s
    ((fun b => ⟨⟨[0, 1, 4], 11, .addCasXchg⟩, .atomic, true, false, 8, 8, b.y.elems false (fun l => .atom .casN64 (b.y.atomArgs .casN64 l).1 (b.y.atomArgs .casN64 l).2 (some b.y.f.d.toNat) l), [], pb0⟩) b)) ∧
  (∀ (f : Fields) (s : State) (b : Begun), s.begun 0x1B0 f pb0 = some b → b.AccessTraps (exec (.redAddN32 f)  s) s
    ((fun b => ⟨⟨[0, 1, 4], 10, .other⟩, .atomic, false, false, 4, 4, b.y.elems false (fun l => .atom .addN32 (b.y.atomArgs .addN32 l).1 (b.y.atomArgs .addN32 l).2 none l), [], pb0⟩) b)) ∧
  (∀ (f : Fields) (s : State) (b : Begun), s.begun 0x1B1 f pb0 = some b → b.AccessTraps (exec (.redAddN64 f)  s) s
    ((fun b => ⟨⟨[0, 1, 4], 10, .redAdd⟩, .atomic, false, false, 8, 8, b.y.elems false (fun l => .atom .addN64 (b.y.atomArgs .addN64 l).1 (b.y.atomArgs .addN64 l).2 none l), [], pb0⟩) b)) ∧
  (∀ (f : Fields) (s : State) (b : Begun), s.begun 0x1B2 f pb0 = some b → b.AccessTraps (exec (.redAddF32 f)  s) s
    ((fun b => ⟨⟨[0, 1], 10, .other⟩, .atomic, false, false, 4, 4, b.y.elems false (fun l => .atom .addF32 (b.y.atomArgs .addF32 l).1 (b.y.atomArgs .addF32 l).2 none l), [], pb0⟩) b)) ∧
  (∀ (f : Fields) (s : State) (b : Begun), s.begun 0x1B3 f pb0 = some b → b.AccessTraps (exec (.redAdd2Bf16 f)  s) s
    ((fun b => ⟨⟨[0, 1], 10, .other⟩, .atomic, false, false, 4, 4, b.y.elems false (fun l => .atom .add2Bf16 (b.y.atomArgs .add2Bf16 l).1 (b.y.atomArgs .add2Bf16 l).2 none l), [], pb0⟩) b)) ∧
  (∀ (f : Fields) (s : State) (b : Begun), s.begun 0x1B4 f pb0 = some b → b.AccessTraps (exec (.redMinS32 f)  s) s
    ((fun b => ⟨⟨[0, 1, 4], 10, .other⟩, .atomic, false, false, 4, 4, b.y.elems false (fun l => .atom .minS32 (b.y.atomArgs .minS32 l).1 (b.y.atomArgs .minS32 l).2 none l), [], pb0⟩) b)) ∧
  (∀ (f : Fields) (s : State) (b : Begun), s.begun 0x1B5 f pb0 = some b → b.AccessTraps (exec (.redMinN32 f)  s) s
    ((fun b => ⟨⟨[0, 1, 4], 10, .other⟩, .atomic, false, false, 4, 4, b.y.elems false (fun l => .atom .minN32 (b.y.atomArgs .minN32 l).1 (b.y.atomArgs .minN32 l).2 none l), [], pb0⟩) b)) ∧
  (∀ (f : Fields) (s : State) (b : Begun), s.begun 0x1B6 f pb0 = some b → b.AccessTraps (exec (.redMinF32 f)  s) s
    ((fun b => ⟨⟨[0, 1], 10, .other⟩, .atomic, false, false, 4, 4, b.y.elems false (fun l => .atom .minF32 (b.y.atomArgs .minF32 l).1 (b.y.atomArgs .minF32 l).2 none l), [], pb0⟩) b)) ∧
  (∀ (f : Fields) (s : State) (b : Begun), s.begun 0x1B7 f pb0 = some b → b.AccessTraps (exec (.redMaxS32 f)  s) s
    ((fun b => ⟨⟨[0, 1, 4], 10, .other⟩, .atomic, false, false, 4, 4, b.y.elems false (fun l => .atom .maxS32 (b.y.atomArgs .maxS32 l).1 (b.y.atomArgs .maxS32 l).2 none l), [], pb0⟩) b)) ∧
  (∀ (f : Fields) (s : State) (b : Begun), s.begun 0x1B8 f pb0 = some b → b.AccessTraps (exec (.redMaxN32 f)  s) s
    ((fun b => ⟨⟨[0, 1, 4], 10, .other⟩, .atomic, false, false, 4, 4, b.y.elems false (fun l => .atom .maxN32 (b.y.atomArgs .maxN32 l).1 (b.y.atomArgs .maxN32 l).2 none l), [], pb0⟩) b)) ∧
  (∀ (f : Fields) (s : State) (b : Begun), s.begun 0x1B9 f pb0 = some b → b.AccessTraps (exec (.redMaxF32 f)  s) s
    ((fun b => ⟨⟨[0, 1], 10, .other⟩, .atomic, false, false, 4, 4, b.y.elems false (fun l => .atom .maxF32 (b.y.atomArgs .maxF32 l).1 (b.y.atomArgs .maxF32 l).2 none l), [], pb0⟩) b)) ∧
  (∀ (f : Fields) (s : State) (b : Begun), s.begun 0x1BA f pb0 = some b → b.AccessTraps (exec (.redAndN32 f)  s) s
    ((fun b => ⟨⟨[0, 1, 4], 10, .other⟩, .atomic, false, false, 4, 4, b.y.elems false (fun l => .atom .andN32 (b.y.atomArgs .andN32 l).1 (b.y.atomArgs .andN32 l).2 none l), [], pb0⟩) b)) ∧
  (∀ (f : Fields) (s : State) (b : Begun), s.begun 0x1BB f pb0 = some b → b.AccessTraps (exec (.redOrN32 f)  s) s
    ((fun b => ⟨⟨[0, 1, 4], 10, .other⟩, .atomic, false, false, 4, 4, b.y.elems false (fun l => .atom .orN32 (b.y.atomArgs .orN32 l).1 (b.y.atomArgs .orN32 l).2 none l), [], pb0⟩) b)) ∧
  (∀ (f : Fields) (s : State) (b : Begun), s.begun 0x1BC f pb0 = some b → b.AccessTraps (exec (.redXorN32 f)  s) s
    ((fun b => ⟨⟨[0, 1, 4], 10, .other⟩, .atomic, false, false, 4, 4, b.y.elems false (fun l => .atom .xorN32 (b.y.atomArgs .xorN32 l).1 (b.y.atomArgs .xorN32 l).2 none l), [], pb0⟩) b)) ∧
  (∀ (f : Fields) (s : State) (b : Begun), s.begun 0x1BD f pb0 = some b → b.AccessTraps (exec (.redIncN32 f)  s) s
    ((fun b => ⟨⟨[0, 1, 4], 10, .other⟩, .atomic, false, false, 4, 4, b.y.elems false (fun l => .atom .incN32 (b.y.atomArgs .incN32 l).1 (b.y.atomArgs .incN32 l).2 none l), [], pb0⟩) b)) ∧
  (∀ (f : Fields) (s : State) (b : Begun), s.begun 0x1BE f pb0 = some b → b.AccessTraps (exec (.redDecN32 f)  s) s
    ((fun b => ⟨⟨[0, 1, 4], 10, .other⟩, .atomic, false, false, 4, 4, b.y.elems false (fun l => .atom .decN32 (b.y.atomArgs .decN32 l).1 (b.y.atomArgs .decN32 l).2 none l), [], pb0⟩) b)) ∧
  (∀ (f : Fields) (s : State) (b : Begun), s.begun 0x1BF f pb0 = some b → b.AccessTraps (exec (.redCaddF32 f)  s) s
    ((fun b => ⟨⟨[0, 1], 10, .other⟩, .atomic, false, false, 8, 8, b.y.elems false (fun l => .atom .caddF32 (b.y.atomArgs .caddF32 l).1 (b.y.atomArgs .caddF32 l).2 none l), [], pb0⟩) b)) ∧
  (∀ f s b q, s.begun 0x161 f pb0 = some b → b.y.r.monitorOf b.y.unit = none → b.y.act ≠ 0 → b.t.fenced b.y.k b.y.r b.y.unit = false →
    b.t.logUsed b.y.c b.y.r.quad < 256 → b.t.log.any (fun e => e.rope == b.y.k && e.unit == b.y.unit && e.pc == b.y.pc && e.isWaitv b.y.r) = false →
    let size := if f.d.getLsbD 3 then 8 else 4
    b.y.addrTrap b.t (b.t.ropeHandle b.y.r (f.a.toNat % 16)) ⟨[0, 1, 4], 1, .load⟩ true size size (b.y.elems true (fun l => .load size false true 0 l)) = some q →
    exec (.waitv f) s = .next (b.trapped s q))

/-- After the lanes of a load, store or atomic, every byte of the frames that no update-only copy holds a partial value for, and every byte of the host, of the peers and of the scratchpads, reads as before, except the bytes that the storing lanes write, each at the address that its translation gives, and none in a scratchpad page that is not pinned; a CTRL access changes memory only through the bytes of a ring. Of the workgroups nothing else changes but the marks of what is ordered (log entry 55). -/
def Obligations.MemoryChangesOnlyWhereLanesStore : Prop :=
  (∀ (s : State) (t : Target) (l : List LaneAcc) (p : Nat), t.space = 0 → p ∉ s.storedAt t l → s.pendingAt p = false →
    let u := (s.performLanes t l).1
    rdByte u.mem p = rdByte s.mem p ∧ u.host = s.host ∧ u.peer = s.peer ∧ s.SameWgs u) ∧
  (∀ (s : State) (t : Target) (l : List LaneAcc) (p : Nat), t.space = 1 → p ∉ s.storedAt t l →
    let u := (s.performLanes t l).1
    u.mem = s.mem ∧ u.host = s.host ∧ u.peer = s.peer ∧
      (∀ k, k ≠ t.wg → (tget u.wgs k).map Workgroup.unmarked = (tget s.wgs k).map Workgroup.unmarked) ∧
      ∀ w, tget s.wgs t.wg = some w → ∃ v, tget u.wgs t.wg = some v ∧ rdByte v.scratch p = rdByte w.scratch p ∧
        { v with scratch := w.scratch, marks := w.marks } = w) ∧
  (∀ (s : State) (t : Target) (l : List LaneAcc) (p : Nat), t.space = 2 → p ∉ s.storedAt t l →
    let u := (s.performLanes t l).1
    rdByte u.host p = rdByte s.host p ∧ u.mem = s.mem ∧ u.peer = s.peer ∧ s.SameWgs u) ∧
  (∀ (s : State) (t : Target) (l : List LaneAcc) (p : Nat), t.space = 3 → p ∉ s.storedAt t l →
    let u := (s.performLanes t l).1
    rdByte u.peer p = rdByte s.peer p ∧ u.mem = s.mem ∧ u.host = s.host ∧ s.SameWgs u) ∧
  (∀ (s : State) (t : Target) (l : List LaneAcc) (x : Stream), t.space = 4 → tget s.streams t.stream = some x →
    (∀ a ∈ l, a.kind = .read ∨ ∀ b, ctrlReg x a.addr ≠ .ring b) →
    let u := (s.performLanes t l).1
    u.mem = s.mem ∧ u.host = s.host ∧ u.peer = s.peer ∧ s.SameWgs u)

/-- A walk reads the entry of each level through stage 2, by the bits of the VA that R302 gives the level: an invalid entry, reserved bits, a leaf at level 0, a table below level 3 or with rights, or an address that its size does not divide, ends it with the reason of R306; a leaf gives its page and its rights. Where no translation is held, a VA above 48 bits, a right that the leaf lacks, a stage-2 entry that is missing, lacks the right or has another key, fault with their reasons; a frame that stage 2 lets be written, owned by another pair of ASID and page, raises ALIAS; else the access has the frame, with the rights of both stages. A GLOBAL access that misses finds this, and the first pair to reach a writable frame becomes its owner; one that hits a line with the rights it needs finds the line's frame. That a key mismatch is reason S2 is R342. -/
def Obligations.TranslationTakesTwoStages : Prop :=
  (∀ (s : State) ipa,
    (tget s.stage2 (ipa / 65536) = none → s.tableRead ipa = .error 5) ∧
    ∀ e, tget s.stage2 (ipa / 65536) = some e → s.poisoned (e.frame * 65536 + ipa % 65536) = false →
      s.tableRead ipa = .ok (leNat (s.physBytes (e.frame * 65536 + ipa % 65536) 8))) ∧
  (∀ (s : State) va fuel lvl table e, lvl < 4 →
    let shift : Nat := [39, 30, 21, 16].getD lvl 0
    let index : Nat := va / 2 ^ shift % ([512, 512, 512, 32].getD lvl 0)
    let E : DWord := BitVec.ofNat 64 e
    let addr : Nat := (E.extractLsb' 8 44).toNat * 256
    s.tableRead (table + 8 * index) = .ok e → e < 2 ^ 64 →
    let out := s.walk va (fuel + 1) lvl table
    (E.getLsbD 0 = false → out = .error 1) ∧
    (E.getLsbD 0 = true → (E.extractLsb' 5 3 ≠ 0 ∨ E.extractLsb' 52 12 ≠ 0) → out = .error 3) ∧
    (E.getLsbD 0 = true → E.extractLsb' 5 3 = 0 → E.extractLsb' 52 12 = 0 →
      if E.getLsbD 1 then
        (if lvl = 0 ∨ addr % 2 ^ shift ≠ 0 then out = .error 3
          else out = .ok (addr + va % 2 ^ shift, E.getLsbD 2, E.getLsbD 3, E.getLsbD 4))
      else if lvl = 3 ∨ E.extractLsb' 2 3 ≠ 0 ∨ addr % ([4096, 4096, 256].getD lvl 1) ≠ 0 then out = .error 3
      else out = s.walk va fuel (lvl + 1) addr)) ∧
  (∀ (s : State) (asid : BitVec 16) va, (tget s.roots asid.toNat = none → s.stage1 asid va = .error 1) ∧
    ∀ root, tget s.roots asid.toNat = some root → s.stage1 asid va = s.walk va 4 0 root.toNat) ∧
  (∀ (s : State) (asid : BitVec 16) va k key, s.heldStage1 asid va = none →
    let fits (r w x : Bool) : Bool := match k with | .read => r | .write => w | .atomic => r && w | .fetch => x
    let out := s.mtlb asid va k (some key)
    (2 ^ 48 ≤ va → out = .fault 4) ∧
    (va < 2 ^ 48 →
      (∀ r, s.stage1 asid va = .error r → out = .fault (r % 16)) ∧
      ∀ ipa r w x, s.stage1 asid va = .ok (ipa, r, w, x) →
        (fits r w x = false → out = .fault 2) ∧
        (fits r w x = true → (tget s.stage2 (ipa / 65536) = none → out = .fault 5) ∧
          ∀ e, tget s.stage2 (ipa / 65536) = some e →
            (fits true e.w e.x = false ∨ e.key.toNat ≠ key → out = .fault 5) ∧
            (fits true e.w e.x = true → e.key.toNat = key →
              if e.w = true ∧ ∃ o, tget s.owners e.frame = some o ∧ o ≠ (asid, va / 65536) then out = .aliased
              else out = .ok e.frame r (w && e.w) (x && e.x))))) ∧
  (∀ (s : State) (t : Target) va k, s.refused t va k = false → s.l2Line t.asid va = none →
    let r := s.xlate t va k
    r.1 = s.mtlb t.asid va k (some t.key) ∧
    (∀ f x y z, r.1 = .ok f x y z → r.2.owners =
      if s.stage2.any (fun e => e.2.frame == f && e.2.w) = true ∧ tget s.owners f = none then tset s.owners f (t.asid, va / 65536) else s.owners)) ∧
  (∀ (s : State) (t : Target) va k l, s.refused t va k = false → s.l2Line t.asid va = some l →
    (match k with | .read => l.r | .write => l.w | .atomic => l.r && l.w | .fetch => l.x) = true →
    s.xlate t va k = (.ok l.frame l.r l.w l.x, s))

/-- In GLOBAL space at a translated place, in the scratchpad of a workgroup, and in HOST space, the bytes a lane stores are the bytes read there next; in GLOBAL space where no update-only copy of another line of the same bytes has a partial value pending. The lane of an access that is performed in a pinned scratchpad page, at a translated GLOBAL place that is not poisoned, has no partial value pending and gathers no RED, or in HOST space where the link takes it, is not left over (one that the link refuses is, with reason LINK and no effect): a load delivers the bytes of its place, zero- or sign-extended, to the registers of its destination; a store leaves its bytes there; an atomic leaves what its operation makes of the old value and of its operands, and an ATOM delivers the old value. -/
def Obligations.AStoreIsReadBack : Prop :=
  (∀ (s : State) (t : Target) fr a bs, t.space = 0 →
    (∀ i < bs.length, (s.recall t.asid a).pendingAt (physOf fr a + i) = false) → (s.writeAt t fr a bs).readAt t fr a bs.length = bs) ∧
  (∀ (s : State) (t : Target) fr a bs, t.space = 1 → (tget s.wgs t.wg).isSome = true → (s.writeAt t fr a bs).readAt t fr a bs.length = bs) ∧
  (∀ (s : State) (t : Target) fr a bs, t.space = 2 → (s.writeAt t fr a bs).readAt t fr a bs.length = bs) ∧
  (∀ (s : State) (t : Target) (a : LaneAcc) w, t.space = 1 → tget s.wgs t.wg = some w → w.pinnedAt a.addr a.size = true →
    let r := s.performLanes t [a]
    r.2.2 = [] ∧ LaneDone a (s.readScratch t.wg a.addr) (r.1.readScratch t.wg a.addr) r.2.1) ∧
  (∀ (s : State) (t : Target) (a : LaneAcc) fr x y z s1, t.space = 0 → s.xlate t a.addr a.kind = (.ok fr x y z, s1) →
    (a.kind ≠ .write → s1.poisoned (physOf fr a.addr) = false) → s1.gatherable t a = none →
    (∀ i < a.size, s1.pendingAt (physOf fr a.addr + i) = false) →
    let r := s.performLanes t [a]
    r.2.2 = [] ∧ LaneDone a (rdBytes s1.mem (physOf fr a.addr)) (rdBytes r.1.mem (physOf fr a.addr)) r.2.1) ∧
  (∀ (s : State) (t : Target) (a : LaneAcc), t.space = 2 → s.linkOk t a.addr a.size = true →
    let r := s.performLanes t [a]
    ((s.linkTakes t a.addr a.size).1 = true → r.2.2 = [] ∧ LaneDone a (rdBytes s.host a.addr) (rdBytes r.1.host a.addr) r.2.1) ∧
    ((s.linkTakes t a.addr a.size).1 = false → r = (s.draw.2, [], [(a, 6)])))

/-- WAITV that issues, with lanes in ACTIVE and whose waits and checks are met, takes its address, handle entry and compare value once, under a number of its own; on a word that is translated it completes with the effect of FENCE.ACQ at its scope after its read where the comparison holds, else its unit sleeps on the monitor. Woken, it reads again by its monitor, whatever its registers hold then. With ACTIVE empty it completes with the pc alone. -/
def Obligations.WaitvCompletesOrSleeps : Prop :=
  (∀ f s b, s.begun 0x161 f pb0 = some b → b.y.r.monitorOf b.y.unit = none → b.y.act = 0 → exec (.waitv f) s = .next (b.after b.t [] 0 .fall)) ∧
  (∀ (f : Fields) (s : State) (b : Begun), s.begun 0x161 f pb0 = some b → b.WaitvIssues → b.WaitvDone (exec (.waitv f) s) { b.t with nextId := b.t.nextId + 1 } b.waitvTarget b.waitvTaken) ∧
  (∀ (f : Fields) (s : State) (b : Begun) m, s.begun 0x161 f pb0 = some b → b.y.r.monitorOf b.y.unit = some m → b.WaitvDone (exec (.waitv f) s) b.t (b.y.watched b.t m) m) ∧
  (∀ (x : Issue) (s : State) m, (x.watched s m).space = m.space ∧ (x.watched s m).core = some x.c ∧ (x.watched s m).wg = x.r.wg ∧
    (m.space = 0 → (x.watched s m).asid.toNat = m.addr / 2 ^ 64 % 2 ^ 16))

/-- PREF that starts completes once no fence holds it back: every byte of memory that no update-only copy holds a partial value for, every rope, workgroup, stream and core is as before. Where every lane fails a check, or the policy allocates nothing, nothing else changes at all. In the scalar form, through a handle whose checks its lane passes and whose line is translated, the line is in L2 afterwards, and in L1 too where .L1 asks for it and the policy lets it in. -/
def Obligations.PrefetchesOnlyTouchCaches : Prop :=
  ∀ f s b, s.begun 0x18D f pb0 = some b → b.t.fenced b.y.k b.y.r b.y.unit = false →
    let h := b.t.ropeHandle b.y.r (f.a.toNat % 16)
    let sc := f.c.getLsbD 0
    let els := b.y.elems sc (fun l => .load 1 false sc 0 l)
    let fails (e : MemEl) : Bool := (b.y.addrTrap b.t h ⟨[0], 1, .load⟩ sc 1 1 [e]).isSome
    (∃ t, exec (.pref f) s = .next (b.after t [] 0 .fall) ∧
      (∀ p, b.t.pendingAt p = false → rdByte t.mem p = rdByte b.t.mem p ∧ t.pendingAt p = false) ∧ t.host = b.t.host ∧ t.peer = b.t.peer ∧
      t.ropes = b.t.ropes ∧ t.wgs = b.t.wgs ∧ t.streams = b.t.streams ∧ t.cores = b.t.cores) ∧
    ((b.y.act = 0 ∨ h.ent.policy = 2 ∨ ∀ e ∈ els, fails e = true) → exec (.pref f) s = .next (b.after b.t [] 0 .fall)) ∧
    (∀ e c fr x y z s1, sc = true → b.y.act ≠ 0 → els = [e] → fails e = false → h.ent.policy ≠ 2 → (b.y.goal b.t h).core = some c →
      b.t.xlate (b.y.goal b.t h) (h.addr e.off).toNat .read = (.ok fr x y z, s1) →
      ∃ t l, exec (.pref f) s = .next (b.after t [] 0 .fall) ∧ t.l2Line (b.y.goal b.t h).asid (h.addr e.off).toNat = some l ∧
        (f.d.getLsbD 0 = true → h.ent.policy < 2 → l.inL1 c = true))

/-- Every SFQ enqueue that starts, in a slot with a share of the queue, for a token that is not PENDING, with room in the queue and the share, and whose map applies, completes: the token is PENDING with the result of its function in the lanes of ACTIVE, and an entry is queued that is due 12 cycles and a free delay later. Whatever the guard leaves in ACTIVE, it does so: that R203 wins over R69 there is log entry 41. -/
def Obligations.SfuEnqueuesStartATokenPending : Prop :=
  EnqueuesWith .sfqExp2 0x1C0 0 ∧
  EnqueuesWith .sfqLog2 0x1C1 1 ∧
  EnqueuesWith .sfqRcp 0x1C2 2 ∧
  EnqueuesWith .sfqRsq 0x1C3 3 ∧
  EnqueuesWith .sfqSqrt 0x1C4 4 ∧
  EnqueuesWith .sfqSin 0x1C5 5 ∧
  EnqueuesWith .sfqCos 0x1C6 6 ∧
  EnqueuesWith .sfqTanh 0x1C7 7 ∧
  EnqueuesWith .sfqSigm 0x1C8 8 ∧
  EnqueuesWith .sfqErf 0x1C9 9

/-- RCP, SQRT and RSQ of a positive F32 number, RCP of a negative one too, give the exact reciprocal, root and reciprocal root rounded to F32 once, with their flags. EXP2 of an integer, LOG2 of a power of two, SIN and COS of integers and of halves of odd integers are exact, without a flag, and EXP2 from 128 on overflows. Zeros, infinities, NaNs and negative arguments give what the table of R202 says; at sample points EXP2, LOG2, SIN, COS, TANH, SIGM and ERF give the correctly rounded values that mathematics gives, with NX. -/
def Obligations.SpecialFunctionsHaveTheirValues : Prop :=
  (∀ x s m e k, x < 2 ^ 32 → fdecode .f32 x = .fin s m e → m ≠ 0 → (2 : ℝ) ^ k ≤ 1 / ((m : ℝ) * 2 ^ e) → 1 / ((m : ℝ) * 2 ^ e) < (2 : ℝ) ^ (k + 1) →
    Rounded .f32 0 false s (1 / ((m : ℝ) * 2 ^ e)) k (sfFn 2 x)) ∧
  (∀ x m e k, x < 2 ^ 32 → fdecode .f32 x = .fin false m e → m ≠ 0 → (2 : ℝ) ^ k ≤ Real.sqrt ((m : ℝ) * 2 ^ e) → Real.sqrt ((m : ℝ) * 2 ^ e) < (2 : ℝ) ^ (k + 1) →
    Rounded .f32 0 false false (Real.sqrt ((m : ℝ) * 2 ^ e)) k (sfFn 4 x)) ∧
  (∀ x m e k, x < 2 ^ 32 → fdecode .f32 x = .fin false m e → m ≠ 0 → (2 : ℝ) ^ k ≤ 1 / Real.sqrt ((m : ℝ) * 2 ^ e) → 1 / Real.sqrt ((m : ℝ) * 2 ^ e) < (2 : ℝ) ^ (k + 1) →
    Rounded .f32 0 false false (1 / Real.sqrt ((m : ℝ) * 2 ^ e)) k (sfFn 3 x)) ∧
  (∀ x s m e, x < 2 ^ 32 → fdecode .f32 x = .fin s m e → ∀ n : Nat,
    let y : ℚ := (m : ℚ) * 2 ^ e
    let i : Int := if s then -n else n
    (y = n → -149 ≤ i → i ≤ 127 → Encodes .f32 (sfFn 0 x).1 false ((2 : ℝ) ^ i) ∧ (sfFn 0 x).2 = 0) ∧
    (s = false → 128 ≤ y → sfFn 0 x = (0x7F800000, flagOF ||| flagNX)) ∧
    (∀ j : Int, s = false → y = (2 : ℚ) ^ j → Encodes .f32 (sfFn 1 x).1 (decide (j < 0)) j.natAbs ∧ (sfFn 1 x).2 = 0) ∧
    (m ≠ 0 → y = n → sfFn 5 x = (if s then 0x80000000 else 0, 0) ∧ sfFn 6 x = (if n % 2 = 1 then 0xBF800000 else 0x3F800000, 0)) ∧
    (y = n + 1 / 2 → sfFn 5 x = (if s = decide (n % 2 = 1) then 0x3F800000 else 0xBF800000, 0) ∧ sfFn 6 x = (0, 0)) ∧
    (s = true → m ≠ 0 → ∀ fn ∈ [1, 3, 4], sfFn fn x = (0x7FC00000, flagIV))) ∧
  (∀ fn < 10, ∀ x < 2 ^ 32, ∀ s g, fdecode .f32 x = .nan s g → fdecode .f32 (sfFn fn x).1 = .nan s g ∧ (sfFn fn x).2 = 0) ∧
  (∀ q ∈ ([(0, 0x00000000, 0x3F800000, 0), (0, 0x80000000, 0x3F800000, 0), (1, 0x00000000, 0xFF800000, flagDZ), (1, 0x80000000, 0xFF800000, flagDZ),
      (2, 0x00000000, 0x7F800000, flagDZ), (2, 0x80000000, 0xFF800000, flagDZ), (3, 0x00000000, 0x7F800000, flagDZ), (3, 0x80000000, 0xFF800000, flagDZ),
      (4, 0x00000000, 0x00000000, 0), (4, 0x80000000, 0x80000000, 0), (5, 0x00000000, 0x00000000, 0), (5, 0x80000000, 0x80000000, 0),
      (6, 0x00000000, 0x3F800000, 0), (6, 0x80000000, 0x3F800000, 0), (7, 0x00000000, 0x00000000, 0), (7, 0x80000000, 0x80000000, 0),
      (8, 0x00000000, 0x3F000000, 0), (8, 0x80000000, 0x3F000000, 0), (9, 0x00000000, 0x00000000, 0), (9, 0x80000000, 0x80000000, 0)] : List (Nat × Nat × Nat × Flags)), sfFn q.1 q.2.1 = (q.2.2.1, q.2.2.2)) ∧
  (∀ q ∈ ([(0, 0x7F800000, 0x7F800000, 0), (0, 0xFF800000, 0x00000000, 0), (1, 0x7F800000, 0x7F800000, 0), (1, 0xFF800000, 0x7FC00000, flagIV),
      (2, 0x7F800000, 0x00000000, 0), (2, 0xFF800000, 0x80000000, 0), (3, 0x7F800000, 0x00000000, 0), (3, 0xFF800000, 0x7FC00000, flagIV),
      (4, 0x7F800000, 0x7F800000, 0), (4, 0xFF800000, 0x7FC00000, flagIV), (5, 0x7F800000, 0x7FC00000, flagIV), (5, 0xFF800000, 0x7FC00000, flagIV),
      (6, 0x7F800000, 0x7FC00000, flagIV), (6, 0xFF800000, 0x7FC00000, flagIV), (7, 0x7F800000, 0x3F800000, 0), (7, 0xFF800000, 0xBF800000, 0),
      (8, 0x7F800000, 0x3F800000, 0), (8, 0xFF800000, 0x00000000, 0), (9, 0x7F800000, 0x3F800000, 0), (9, 0xFF800000, 0xBF800000, 0)] : List (Nat × Nat × Nat × Flags)), sfFn q.1 q.2.1 = (q.2.2.1, q.2.2.2)) ∧
  (∀ q ∈ ([(0, 0x3F000000, 0x3FB504F3, flagNX), (0, 0xBFC00000, 0x3EB504F3, flagNX), (1, 0x40400000, 0x3FCAE00D, flagNX), (1, 0x3DCCCCCD, 0xC0549A78, flagNX),
      (5, 0x3E800000, 0x3F3504F3, flagNX), (5, 0xBE000000, 0xBEC3EF15, flagNX), (5, 0x3FA00000, 0xBF3504F3, flagNX), (6, 0x3E800000, 0x3F3504F3, flagNX),
      (6, 0x3F600000, 0xBF6C835E, flagNX), (7, 0x3F000000, 0x3EEC9A9F, flagNX), (7, 0xC0000000, 0xBF76CA83, flagNX), (8, 0x3F800000, 0x3F3B26A8, flagNX),
      (8, 0xC0400000, 0x3D4241A2, flagNX), (9, 0x3F000000, 0x3F053F7B, flagNX), (9, 0xBF800000, 0xBF57BB3D, flagNX)] : List (Nat × Nat × Nat × Flags)), sfFn q.1 q.2.1 = (q.2.2.1, q.2.2.2))

/-- SFQ.RD of a READY token of the domain whose flags do not trap completes: the token is FREE, whatever ACTIVE is (R204 before R69: log entry 41), the lanes of ACTIVE that it holds are outstanding for D, its captured flags raise status; of a FREE token it changes nothing but the pc. WAITK completes once no token of its mask is PENDING or read, and frees the READY ones. -/
def Obligations.SfuResultsAreReadAndAwaited : Prop :=
  (∀ f s b, s.begun 0x1CA f pb0 = some b → (b.y.r.tok (f.a.toNat % 16)).state = .free →
    exec (.sfqRd f) s = .next (b.after b.t [] 0 .fall)) ∧
  (∀ f s b, s.begun 0x1CA f pb0 = some b →
    let n := f.a.toNat % 16
    let k := b.y.r.tok n
    let fl (l : Nat) : Flags := if (b.y.act &&& k.lanes).getLsbD l then rget 0 k.flags l else 0
    k.state = .ready → k.did = b.y.r.did → b.untrapped fl = true →
    let ws := (lanesOf (b.y.act &&& k.lanes)).map (fun l => RegWrite.vec f.d.toNat l (rget 0 k.result l))
    let s1 := b.t.drawDelay.2
    let o : Outst := ⟨s1.nextId, b.y.core.cyc + 3 + b.t.drawDelay.1, true, some n, ws, []⟩
    exec (.sfqRd f) s = .next (b.after (({ s1 with nextId := s1.nextId + 1 } : State).onRope b.y.k (fun r =>
      { r.setTok n ⟨.free, 0, 0, [], []⟩ with outst := r.outst ++ [o] })) (b.y.results fl (fun _ => false) []) 0 .fall)) ∧
  (∀ f s b, s.begun 0x1CB f pb0 = some b →
    (∀ n < 16, (f.c ++ f.b).getLsbD n = true → (b.y.r.tok n).state ≠ .pending ∧ b.y.r.outst.all (fun o => o.tok != some n) = true ∧
      ((b.y.r.tok n).state = .ready → (b.y.r.tok n).did = b.y.r.did)) →
    exec (.waitk f) s = .next (b.after (b.t.onRope b.y.k (fun r =>
      ((List.range 16).filter (fun n => (f.c ++ f.b).getLsbD n)).foldl (fun (q : Rope) n =>
        if (q.tok n).state = .ready then q.setTok n ⟨.free, 0, 0, [], []⟩ else q) r)) [] 0 .fall))

/-- CPRUN and CPCMD that start, with lanes in ACTIVE, a share of the contexts, a program at a start of a copy section, and nothing to wait for, complete: a context with the captured registers and handles runs the program, or the one byte run, and CPC counts it. CPQ completes with a copy semaphore, or with the number of programs of the rope that run. -/
def Obligations.CopyCommandsStartAContext : Prop :=
  (∀ f s b, s.begun 0x1D0 f pb0 = some b → b.y.act ≠ 0 → b.y.core.copyShare b.y.r.dslot ≠ 0 →
    let dest := b.y.pc + BitVec.ofInt 64 (8 * (f.c ++ (f.b ++ f.a)).toInt)
    dest.toNat % 8 = 0 → b.t.inCopy b.y.r.did b.y.pc.toNat dest.toNat = true → b.y.copyWaits b.t = false →
    ∃ t, exec (.cprun f) s = .next (b.after t [] 0 .fall) ∧ b.StartsCopy t dest none
      [(0, b.y.r.sr f.d.toNat), (1, b.y.r.sr (f.d.toNat + 1)), (2, b.y.r.sr (f.d.toNat + 2)), (3, b.y.r.sr (f.d.toNat + 3))]) ∧
  (∀ f pb s b, s.begun 0x1D1 f pb = some b → b.y.act ≠ 0 → b.y.core.copyShare b.y.r.dslot ≠ 0 → b.y.copyWaits b.t = false →
    let cmd : CpCmd := ⟨f.a.toNat % 16, f.d.toNat % 16, (pb.w0 + b.y.r.sr f.b.toNat).toNat, (pb.w1 + b.y.r.sr f.c.toNat).toNat, true,
      pb.w2.toNat % 2 ^ 24, pb.w3⟩
    ∃ t, exec (.cpcmd f pb) s = .next (b.after t [] 0 .fall) ∧ b.StartsCopy t b.y.pc (some cmd) [(0, (f.cw .n32).imm)]) ∧
  (∀ f s b, s.begun 0x1D2 f pb0 = some b → b.y.act ≠ 0 → f.b.toNat < 8 → b.y.r.frame = none →
    exec (.cpq f) s = .next (b.after b.t [.scalar f.d.toNat ((rget 0 b.y.w.sems f.b.toNat).setWidth 32)] 0 .fall)) ∧
  (∀ f s b, s.begun 0x1D2 f pb0 = some b → b.y.act ≠ 0 → 8 ≤ f.b.toNat →
    exec (.cpq f) s = .next (b.after b.t [.scalar f.d.toNat (BitVec.ofNat 32 (b.t.ctxs.filter (fun (_, c) =>
      c.rope == b.y.k && c.task.isNone)).length)] 0 .fall))

/-- GCALL that starts and passes the checks of R230 with nothing in flight completes: the rope is in a frame of the callee, with its registers, handles and maps, in each present lane of its vector registers the arguments V[A] on, every other register 0, the handles of the entry in h0 to h3, those that it delegates of the caller in h14 and h15, its strands at the gate entry PC; its addresses are translated by the ASID of the callee (log entry 40). GRET of a quiescent rope whose operations are complete and whose return address passes its checks completes: the caller is back with its registers, the results copied, those still in flight landed first (log entry 58), behind the GCALL. -/
def Obligations.GateCallsEnterAndLeaveTheCallee : Prop :=
  (∀ f s b slot, s.begun 0x1D8 f pb0 = some b →
    let e := rget 0 (b.t.domain b.y.r.did).gates f.b.toNat
    b.y.gateRefusal b.t e = none → b.y.core.slotOf (e.extractLsb' 0 16) = some slot → b.t.gateBusy b.y.k b.y.r = false →
    b.t.targetAt b.y.k b.y.unit (b.y.asCallee b.t e) (e.extractLsb' 64 64) = .ok →
    ∃ q, exec (.gcall f) s = .next (b.after (b.t.setRope b.y.k q) [] 0 .done) ∧
      q.did = e.extractLsb' 0 16 ∧ q.dslot = slot ∧ q.asid = (b.t.domain (e.extractLsb' 0 16)).asid ∧
      q.regs = 8 * (e.extractLsb' 40 6).toNat ∧ q.maps = (e.extractLsb' 52 5).toNat ∧ q.codeh = e.extractLsb' 320 12 ∧
      q.trapH = e.extractLsb' 128 64 ∧ q.s = [] ∧ q.p = [] ∧ q.k = [] ∧ q.ldc = 0 ∧ q.stc = 0 ∧ q.cpc = 0 ∧
      (∀ n l, l < 32 → q.vr n l = if n < gateNat e 32 4 ∧ b.y.r.present.getLsbD l = true then b.y.r.vr (f.a.toNat + n) l else 0) ∧
      q.hr 0 = e.extractLsb' 192 12 ∧ q.hr 1 = e.extractLsb' 204 12 ∧ q.hr 2 = e.extractLsb' 224 12 ∧ q.hr 3 = e.extractLsb' 236 12 ∧
      (∀ n, 4 ≤ n → n < 14 → q.hr n = 0) ∧ q.hr 14 = (if e.getLsbD 260 then b.y.r.hr (gateNat e 256 4) else 0) ∧
      q.hr 15 = (if e.getLsbD 276 then b.y.r.hr (gateNat e 272 4) else 0) ∧
      (∀ t ∈ q.strands, t.live = true → t.pc = e.extractLsb' 64 64) ∧
      ∃ fr, q.frame = some fr ∧ fr.gate = f.b ∧ fr.ret = b.y.fall ∧ fr.pc = b.y.pc ∧ fr.v = b.y.r.v ∧ fr.s = b.y.r.s ∧
        fr.p = b.y.r.p ∧ fr.h = b.y.r.h ∧ fr.k = b.y.r.k ∧ fr.did = b.y.r.did ∧ fr.asid = b.y.r.asid) ∧
  (∀ f s b fr, s.begun 0x1D9 f pb0 = some b → b.y.r.frame = some fr → b.y.r.quiescent = true → b.y.r.ldc = 0 → b.y.r.stc = 0 →
    b.y.r.outst = [] → b.y.r.copies = [] → b.t.sfu.any (fun e => e.rope == b.y.k) = false →
    b.y.r.k.any (fun k => k.2.state == .pending) = false →
    (∀ q : Rope, q.did = fr.did → q.asid = fr.asid → q.codeh = fr.codeh → q.wg = b.y.r.wg → q.port = fr.port → q.dslot = fr.dslot →
      b.t.targetAt b.y.k b.y.unit q fr.ret = .ok) →
    ∃ q, exec (.gret f) s = .next (b.after (b.t.setRope b.y.k q) [] 0 .done) ∧ q.frame = none ∧ q.did = fr.did ∧ q.asid = fr.asid ∧
      q.regs = fr.regs ∧ q.maps = fr.maps ∧ q.codeh = fr.codeh ∧ q.trapH = fr.trapH ∧ q.s = fr.s ∧ q.p = fr.p ∧ q.h = fr.h ∧ q.k = fr.k ∧
      (∀ n l, l < 32 → q.vr n l = if fr.base ≤ n ∧ n < fr.base + gateNat fr.entry 36 4 ∧ (b.y.r.present &&& ~~~b.y.r.retired).getLsbD l = true
        then b.y.r.landAll.vr (n - fr.base) l else rget 0 fr.v (32 * n + l)) ∧
      (∀ t ∈ q.strands, t.live = true → t.pc = fr.ret))

/-- An application of a map slot is stopped by the first step of R139 that fails for it, the step of A before that of B: SLOT with NAME, EMPTY, FAILED, CHAIN or TYPE and the name, or DOMAIN, or the wait for PENDING; an instruction that it stops traps or waits. MAPLD, MAPCLR and MAPQ trap on a name at or above the count, or a slot of another domain; SFQ.RD and WAITK on a token of another domain, enqueues and copy starts in a slot with no share, barriers and semaphores in a gate frame. GCALL is refused for the first reason of R230 that holds; GRET outside a frame or where it is not quiescent, and EXIT in a frame, raise GATE. That an entry whose translation is still out passes, and that each fault of it is the reason ENTRY, is log entry 58. -/
def Obligations.SlotsDomainsAndGatesTrap : Prop :=
  (∀ (x : Issue) (s : State) rowA rowB intA intB facc, x.f.mae = true → x.f.mbe = false →
    let n := x.f.ma.toNat
    let chk := x.mapChecks s rowA rowB intA intB facc
    let trap (cause reason info : Nat) : Prop := chk = some (.trap ⟨cause, reason, x.act, BitVec.ofNat 32 info, 0, 0⟩)
    (x.slotKey n = none → trap 7 1 n) ∧
    ∀ k, x.slotKey n = some k →
      let m := s.slot k
      (m.owner ≠ x.r.did → trap 6 3 0) ∧
      (m.owner = x.r.did →
        (m.state = .pending → chk = some .wait) ∧ (m.state = .empty → trap 7 2 n) ∧ (m.state = .failed → trap 7 6 n) ∧
        (m.state = .valid → m.succe = true →
          (x.slotKey m.succ = none → trap 7 1 m.succ) ∧
          ∀ j, x.slotKey m.succ = some j →
            let p := s.slot j
            let bad : Prop := p.state ≠ .valid ∨ p.succe = true ∨ rowA = 5 ∨ 8 < occupancy rowA (wfmtGroup m.wfmt) + occupancy rowA (wfmtGroup p.wfmt)
            let real : Prop := intA = true ∧ facc = false ∧ (wfmtInt m.wfmt = false ∨ wfmtInt p.wfmt = false)
            (p.owner ≠ x.r.did → trap 6 3 0) ∧
            (p.owner = x.r.did → (p.state = .pending → chk = some .wait) ∧ (p.state ≠ .pending → bad → trap 7 5 n) ∧
              (¬ bad → real → trap 7 4 n) ∧ (¬ bad → ¬ real → chk = none))) ∧
        (m.state = .valid → m.succe = false →
          if intA = true ∧ facc = false ∧ wfmtInt m.wfmt = false then trap 7 4 n else chk = none))) ∧
  (∀ (x : Issue) (s : State) rowA rowB intA intB facc st c, x.f.mae = true → x.f.mbe = true → 1 ≤ st → st ≤ 6 →
    let a (i : Nat) := x.mapStep s i x.f.ma.toNat rowA intA facc
    let b (i : Nat) := x.mapStep s i x.f.mb.toNat rowB intB facc
    (∀ i < st, 1 ≤ i → a i = none ∧ b i = none) → (a st = some c ∨ a st = none ∧ b st = some c) →
    x.mapChecks s rowA rowB intA intB facc = some c) ∧
  (∀ (x : Issue) n, (x.r.maps ≤ n → x.slotKey n = none) ∧
    (n < x.r.maps → ∀ fr, x.r.frame = some fr → x.slotKey n = some (16 * (4 * x.c + x.r.quad) + (fr.entry.extractLsb' 48 4).toNat + n))) ∧
  StopsAtItsMaps .iaddS32 0x000 ∧
  StopsAtItsMaps .iaddN32 0x001 ∧
  StopsAtItsMaps .isubS32 0x002 ∧
  StopsAtItsMaps .isubN32 0x003 ∧
  StopsAtItsMaps .iaddS64 0x004 ∧
  StopsAtItsMaps .iaddN64 0x005 ∧
  StopsAtItsMaps .isubS64 0x006 ∧
  StopsAtItsMaps .isubN64 0x007 ∧
  StopsAtItsMaps .iaddS16 0x008 ∧
  StopsAtItsMaps .iaddN16 0x009 ∧
  StopsAtItsMaps .isubS16 0x00A ∧
  StopsAtItsMaps .isubN16 0x00B ∧
  StopsAtItsMaps .iaddS8 0x00C ∧
  StopsAtItsMaps .iaddN8 0x00D ∧
  StopsAtItsMaps .isubS8 0x00E ∧
  StopsAtItsMaps .isubN8 0x00F ∧
  StopsAtItsMaps .iminS32 0x010 ∧
  StopsAtItsMaps .iminN32 0x011 ∧
  StopsAtItsMaps .imaxS32 0x012 ∧
  StopsAtItsMaps .imaxN32 0x013 ∧
  StopsAtItsMaps .icmpS32 0x014 ∧
  StopsAtItsMaps .icmpN32 0x015 ∧
  StopsAtItsMaps .icmpS64 0x016 ∧
  StopsAtItsMaps .icmpN64 0x017 ∧
  StopsAtItsMaps .andB 0x018 ∧
  StopsAtItsMaps .orB 0x019 ∧
  StopsAtItsMaps .xorB 0x01A ∧
  StopsAtItsMaps .andnB 0x01B ∧
  StopsAtItsMaps .notB 0x01C ∧
  StopsAtItsMaps .bitmix 0x01D ∧
  StopsAtItsMaps .shlN32 0x020 ∧
  StopsAtItsMaps .shrN32 0x021 ∧
  StopsAtItsMaps .shrS32 0x022 ∧
  StopsAtItsMaps .rolN32 0x023 ∧
  StopsAtItsMaps .shlN64 0x024 ∧
  StopsAtItsMaps .shrN64 0x025 ∧
  StopsAtItsMaps .shrS64 0x026 ∧
  StopsAtItsMaps .mov 0x028 ∧
  StopsAtItsMaps .mov64 0x029 ∧
  StopsAtItsMaps .sel 0x02A ∧
  StopsAtItsMaps .sel64 0x02B ∧
  StopsAtItsMaps .leaN32 0x02C ∧
  StopsAtItsMaps .leaN64 0x02D ∧
  StopsAtItsMaps .imulS32 0x040 ∧
  StopsAtItsMaps .imulN32 0x041 ∧
  StopsAtItsMaps .imulhS32 0x042 ∧
  StopsAtItsMaps .imulhN32 0x043 ∧
  StopsAtItsMaps .imulS16 0x044 ∧
  StopsAtItsMaps .imulN16 0x045 ∧
  StopsAtItsMaps .imulS8 0x046 ∧
  StopsAtItsMaps .imulN8 0x047 ∧
  StopsAtItsMaps .imadS32 0x048 ∧
  StopsAtItsMaps .imadN32 0x049 ∧
  StopsAtItsMaps .imadS16 0x04A ∧
  StopsAtItsMaps .imadN16 0x04B ∧
  StopsAtItsMaps .idpS8 0x04C ∧
  StopsAtItsMaps .idpN8 0x04D ∧
  StopsAtItsMaps .idpN4 0x04E ∧
  StopsAtItsMaps .imulS64 0x050 ∧
  StopsAtItsMaps .imulN64 0x051 ∧
  StopsAtItsMaps .imulhS64 0x052 ∧
  StopsAtItsMaps .imulhN64 0x053 ∧
  StopsAtItsMaps .popcN32 0x060 ∧
  StopsAtItsMaps .clzN32 0x061 ∧
  StopsAtItsMaps .ctzN32 0x062 ∧
  StopsAtItsMaps .brevN32 0x063 ∧
  StopsAtItsMaps .bfeS32 0x064 ∧
  StopsAtItsMaps .bfeN32 0x065 ∧
  StopsAtItsMaps .bfiN32 0x066 ∧
  StopsAtItsMaps .cvtF32F16 0x0C0 ∧
  StopsAtItsMaps .cvtF32Bf16 0x0C1 ∧
  StopsAtItsMaps .cvtF16F32 0x0C2 ∧
  StopsAtItsMaps .cvtBf16F32 0x0C3 ∧
  StopsAtItsMaps .cvtF64F32 0x0C4 ∧
  StopsAtItsMaps .cvtF32F64 0x0C5 ∧
  StopsAtItsMaps .cvtF32E4m3 0x0C6 ∧
  StopsAtItsMaps .cvtF32E5m2 0x0C7 ∧
  StopsAtItsMaps .cvtE4m3F32 0x0C8 ∧
  StopsAtItsMaps .cvtE5m2F32 0x0C9 ∧
  StopsAtItsMaps .cvtF32E2m1 0x0CA ∧
  StopsAtItsMaps .cvtE2m1F32 0x0CB ∧
  StopsAtItsMaps .cvtF32S32 0x0CC ∧
  StopsAtItsMaps .cvtF32N32 0x0CD ∧
  StopsAtItsMaps .cvtS32F32 0x0CE ∧
  StopsAtItsMaps .cvtN32F32 0x0CF ∧
  StopsAtItsMaps .cvtF64S64 0x0D0 ∧
  StopsAtItsMaps .cvtF64N64 0x0D1 ∧
  StopsAtItsMaps .cvtS64F64 0x0D2 ∧
  StopsAtItsMaps .cvtN64F64 0x0D3 ∧
  StopsAtItsMaps .cvtF64S32 0x0D4 ∧
  StopsAtItsMaps .cvtS32F64 0x0D5 ∧
  StopsAtItsMaps .frndF32 0x0D6 ∧
  StopsAtItsMaps .frndF64 0x0D7 ∧
  StopsAtItsMaps .packF16 0x0D8 ∧
  StopsAtItsMaps .packBf16 0x0D9 ∧
  StopsAtItsMaps .packE4m3 0x0DA ∧
  StopsAtItsMaps .packE5m2 0x0DB ∧
  StopsAtItsMaps .packE2m1 0x0DC ∧
  StopsAtItsMaps .packS16 0x0DD ∧
  StopsAtItsMaps .packN16 0x0DE ∧
  StopsAtItsMaps .packS8 0x0DF ∧
  StopsAtItsMaps .packN8 0x0E0 ∧
  StopsAtItsMaps .packN4 0x0E1 ∧
  StopsAtItsMaps .faddF32 0x080 ∧
  StopsAtItsMaps .fsubF32 0x081 ∧
  StopsAtItsMaps .fmulF32 0x082 ∧
  StopsAtItsMaps .ffmaF32 0x083 ∧
  StopsAtItsMaps .fminF32 0x084 ∧
  StopsAtItsMaps .fmaxF32 0x085 ∧
  StopsAtItsMaps .fcmpF32 0x086 ∧
  StopsAtItsMaps .fclassF32 0x087 ∧
  StopsAtItsMaps .faddF16 0x088 ∧
  StopsAtItsMaps .fsubF16 0x089 ∧
  StopsAtItsMaps .fmulF16 0x08A ∧
  StopsAtItsMaps .ffmaF16 0x08B ∧
  StopsAtItsMaps .fminF16 0x08C ∧
  StopsAtItsMaps .fmaxF16 0x08D ∧
  StopsAtItsMaps .fcmpF16 0x08E ∧
  StopsAtItsMaps .fclassF16 0x08F ∧
  StopsAtItsMaps .faddBf16 0x090 ∧
  StopsAtItsMaps .fsubBf16 0x091 ∧
  StopsAtItsMaps .fmulBf16 0x092 ∧
  StopsAtItsMaps .ffmaBf16 0x093 ∧
  StopsAtItsMaps .fminBf16 0x094 ∧
  StopsAtItsMaps .fmaxBf16 0x095 ∧
  StopsAtItsMaps .fcmpBf16 0x096 ∧
  StopsAtItsMaps .fclassBf16 0x097 ∧
  StopsAtItsMaps .faddF64 0x098 ∧
  StopsAtItsMaps .fsubF64 0x099 ∧
  StopsAtItsMaps .fmulF64 0x09A ∧
  StopsAtItsMaps .ffmaF64 0x09B ∧
  StopsAtItsMaps .fminF64 0x09C ∧
  StopsAtItsMaps .fmaxF64 0x09D ∧
  StopsAtItsMaps .fcmpF64 0x09E ∧
  StopsAtItsMaps .fclassF64 0x09F ∧
  (∀ f s b, s.begun 0x0A0 f pb0 = some b →
    let row := dataRow .n4 false
    let chk := b.y.mapChecks b.t row row true false true
    (∀ q, chk = some (.trap q) → exec (.faccN4 f) s = .next (b.trapped s q)) ∧ (chk = some .wait → exec (.faccN4 f) s = .next s)) ∧
  (∀ f s b, s.begun 0x0A1 f pb0 = some b →
    let row := dataRow .s8 false
    let chk := b.y.mapChecks b.t row row true false true
    (∀ q, chk = some (.trap q) → exec (.faccS8 f) s = .next (b.trapped s q)) ∧ (chk = some .wait → exec (.faccS8 f) s = .next s)) ∧
  (∀ f s b, s.begun 0x0A2 f pb0 = some b →
    let row := dataRow .n8 false
    let chk := b.y.mapChecks b.t row row true false true
    (∀ q, chk = some (.trap q) → exec (.faccN8 f) s = .next (b.trapped s q)) ∧ (chk = some .wait → exec (.faccN8 f) s = .next s)) ∧
  (∀ f s b, s.begun 0x0A3 f pb0 = some b →
    let row := dataRow .e2m1 false
    let chk := b.y.mapChecks b.t row row false false true
    (∀ q, chk = some (.trap q) → exec (.faccE2m1 f) s = .next (b.trapped s q)) ∧ (chk = some .wait → exec (.faccE2m1 f) s = .next s)) ∧
  (∀ f s b, s.begun 0x0A4 f pb0 = some b →
    let row := dataRow .e4m3 false
    let chk := b.y.mapChecks b.t row row false false true
    (∀ q, chk = some (.trap q) → exec (.faccE4m3 f) s = .next (b.trapped s q)) ∧ (chk = some .wait → exec (.faccE4m3 f) s = .next s)) ∧
  (∀ f s b, s.begun 0x0A5 f pb0 = some b →
    let row := dataRow .e5m2 false
    let chk := b.y.mapChecks b.t row row false false true
    (∀ q, chk = some (.trap q) → exec (.faccE5m2 f) s = .next (b.trapped s q)) ∧ (chk = some .wait → exec (.faccE5m2 f) s = .next s)) ∧
  (∀ f s b, s.begun 0x100 f pb0 = some b → b.y.act ≠ 0 → b.t.fenced b.y.k b.y.r b.y.unit = false → b.t.mapldBehind b.y.k = false →
    (b.y.slotKey (f.d.toNat % 16) = none → exec (.mapld f) s = .next (b.trapped s ⟨7, 1, b.y.act, BitVec.ofNat 32 (f.d.toNat % 16), 0, 0⟩)) ∧
    ∀ k, b.y.slotKey (f.d.toNat % 16) = some k → (b.t.slot k).owner ≠ b.y.r.did → exec (.mapld f) s = .next (b.trapped s ⟨6, 3, b.y.act, 0, 0, 0⟩)) ∧
  (∀ f s b, s.begun 0x101 f pb0 = some b → b.y.act ≠ 0 →
    (b.y.slotKey (f.d.toNat % 16) = none → exec (.mapclr f) s = .next (b.trapped s ⟨7, 1, b.y.act, BitVec.ofNat 32 (f.d.toNat % 16), 0, 0⟩)) ∧
    ∀ k, b.y.slotKey (f.d.toNat % 16) = some k → (b.t.slot k).owner ≠ b.y.r.did → exec (.mapclr f) s = .next (b.trapped s ⟨6, 3, b.y.act, 0, 0, 0⟩)) ∧
  (∀ f s b, s.begun 0x102 f pb0 = some b → b.y.act ≠ 0 →
    (b.y.slotKey (f.a.toNat % 16) = none → exec (.mapq f) s = .next (b.trapped s ⟨7, 1, b.y.act, BitVec.ofNat 32 (f.a.toNat % 16), 0, 0⟩)) ∧
    ∀ k, b.y.slotKey (f.a.toNat % 16) = some k → (b.t.slot k).owner ≠ b.y.r.did → exec (.mapq f) s = .next (b.trapped s ⟨6, 3, b.y.act, 0, 0, 0⟩)) ∧
  (∀ f s b, s.begun 0x1CA f pb0 = some b → (b.y.r.tok (f.a.toNat % 16)).state = .ready → (b.y.r.tok (f.a.toNat % 16)).did ≠ b.y.r.did →
    exec (.sfqRd f) s = .next (b.trapped s ⟨6, 4, b.y.act, 0, 0, 0⟩)) ∧
  (∀ f s b n, s.begun 0x1CB f pb0 = some b → n < 16 → (f.c ++ f.b).getLsbD n = true → (b.y.r.tok n).state = .ready → (b.y.r.tok n).did ≠ b.y.r.did →
    (∀ i < 16, (f.c ++ f.b).getLsbD i = true → (b.y.r.tok i).state ≠ .pending ∧ b.y.r.outst.all (fun o => o.tok != some i) = true) →
    exec (.waitk f) s = .next (b.trapped s ⟨6, 4, b.y.act, 0, 0, 0⟩)) ∧
  (∀ f s b, s.begun 0x1C0 f pb0 = some b → b.y.core.sfuShare b.y.r.dslot = 0 → exec (.sfqExp2 f) s = .next (b.trapped s ⟨6, 4, b.y.act, 0, 0, 0⟩)) ∧
  (∀ f s b, s.begun 0x1C1 f pb0 = some b → b.y.core.sfuShare b.y.r.dslot = 0 → exec (.sfqLog2 f) s = .next (b.trapped s ⟨6, 4, b.y.act, 0, 0, 0⟩)) ∧
  (∀ f s b, s.begun 0x1C2 f pb0 = some b → b.y.core.sfuShare b.y.r.dslot = 0 → exec (.sfqRcp f) s = .next (b.trapped s ⟨6, 4, b.y.act, 0, 0, 0⟩)) ∧
  (∀ f s b, s.begun 0x1C3 f pb0 = some b → b.y.core.sfuShare b.y.r.dslot = 0 → exec (.sfqRsq f) s = .next (b.trapped s ⟨6, 4, b.y.act, 0, 0, 0⟩)) ∧
  (∀ f s b, s.begun 0x1C4 f pb0 = some b → b.y.core.sfuShare b.y.r.dslot = 0 → exec (.sfqSqrt f) s = .next (b.trapped s ⟨6, 4, b.y.act, 0, 0, 0⟩)) ∧
  (∀ f s b, s.begun 0x1C5 f pb0 = some b → b.y.core.sfuShare b.y.r.dslot = 0 → exec (.sfqSin f) s = .next (b.trapped s ⟨6, 4, b.y.act, 0, 0, 0⟩)) ∧
  (∀ f s b, s.begun 0x1C6 f pb0 = some b → b.y.core.sfuShare b.y.r.dslot = 0 → exec (.sfqCos f) s = .next (b.trapped s ⟨6, 4, b.y.act, 0, 0, 0⟩)) ∧
  (∀ f s b, s.begun 0x1C7 f pb0 = some b → b.y.core.sfuShare b.y.r.dslot = 0 → exec (.sfqTanh f) s = .next (b.trapped s ⟨6, 4, b.y.act, 0, 0, 0⟩)) ∧
  (∀ f s b, s.begun 0x1C8 f pb0 = some b → b.y.core.sfuShare b.y.r.dslot = 0 → exec (.sfqSigm f) s = .next (b.trapped s ⟨6, 4, b.y.act, 0, 0, 0⟩)) ∧
  (∀ f s b, s.begun 0x1C9 f pb0 = some b → b.y.core.sfuShare b.y.r.dslot = 0 → exec (.sfqErf f) s = .next (b.trapped s ⟨6, 4, b.y.act, 0, 0, 0⟩)) ∧
  (∀ f s b, s.begun 0x1D0 f pb0 = some b → b.y.act ≠ 0 → b.y.core.copyShare b.y.r.dslot = 0 → exec (.cprun f) s = .next (b.trapped s ⟨6, 5, b.y.act, 0, 0, 0⟩)) ∧
  (∀ f pb s b, s.begun 0x1D1 f pb = some b → b.y.act ≠ 0 → b.y.core.copyShare b.y.r.dslot = 0 → exec (.cpcmd f pb) s = .next (b.trapped s ⟨6, 5, b.y.act, 0, 0, 0⟩)) ∧
  (∀ f s b, s.begun 0x1D2 f pb0 = some b → b.y.act ≠ 0 → f.b.toNat < 8 → b.y.r.frame ≠ none → exec (.cpq f) s = .next (b.trapped s ⟨6, 6, b.y.act, 0, 0, 0⟩)) ∧
  (∀ f s b, s.begun 0x150 f pb0 = some b → b.y.r.frame ≠ none → exec (.barSync f) s = .next (b.trapped s ⟨6, 6, b.y.act, 0, 0, 0⟩)) ∧
  (∀ f s b, s.begun 0x151 f pb0 = some b → b.y.r.frame ≠ none → exec (.barArr f) s = .next (b.trapped s ⟨6, 6, b.y.act, 0, 0, 0⟩)) ∧
  (∀ f s b, s.begun 0x152 f pb0 = some b → b.y.r.frame ≠ none → exec (.barWait f) s = .next (b.trapped s ⟨6, 6, b.y.act, 0, 0, 0⟩)) ∧
  (∀ f s b, s.begun 0x153 f pb0 = some b → b.y.r.frame ≠ none → exec (.barSet f) s = .next (b.trapped s ⟨6, 6, b.y.act, 0, 0, 0⟩)) ∧
  (∀ (x : Issue) (s : State) e, (∀ n, 1 ≤ n → n ≤ 6 → (∀ k, 1 ≤ k → k < n → ¬ x.gateFails s e k) → x.gateFails s e n → x.gateRefusal s e = some n) ∧
    ((∀ n, 1 ≤ n → n ≤ 6 → ¬ x.gateFails s e n) → x.gateRefusal s e = none)) ∧
  (∀ f s b n, s.begun 0x1D8 f pb0 = some b → b.y.gateRefusal b.t (rget 0 (b.t.domain b.y.r.did).gates f.b.toNat) = some n →
    exec (.gcall f) s = .next (b.trapped s ⟨14, n, b.y.act, f.b.setWidth 32, 0, 0⟩)) ∧
  (∀ f s b, s.begun 0x1D9 f pb0 = some b → b.y.r.frame = none → exec (.gret f) s = .next (b.trapped s ⟨14, 7, b.y.act, 0, 0, 0⟩)) ∧
  (∀ f s b fr, s.begun 0x1D9 f pb0 = some b → b.y.r.frame = some fr → b.y.r.quiescent = false →
    exec (.gret f) s = .next (b.trapped s ⟨14, 2, b.y.act, fr.gate.setWidth 32, 0, 0⟩)) ∧
  (∀ f s b fr, s.begun 0x14C f pb0 = some b → ¬(f.pg = 7 ∧ f.pgn = true) → b.y.r.frame = some fr →
    exec (.exit f) s = .next (b.trapped s ⟨14, 8, b.y.act, fr.gate.setWidth 32, 0, 0⟩))

/-- SREAD that starts, with lanes in ACTIVE, completes with the special register in a scalar, a pair, or the lanes of ACTIVE; a read of CYC outside isolation moves the count that isolation goes on from (log entry 44). TREC.RD completes with the word of the record, TREC.WR with the writable word replaced, TRET with the return: in a handler the record of the trap being handled; at level SYSTEM outside one that of the last trap, which is the model's choice (log entry 49). The special registers read what R25 lists: CYC the cycles of the core, or in isolated mode those counted for the domain on it; ETIME; the lane and the strand; the rope, workgroup and grid by their numbers; the domain with its slot, the level, the class counts, the priority, the position of the core, and the remap table with a present bit and a slot for each strand. When a cycle ends, its core counts it, its length passes, each rope resident on the core counts it under its class where its domain counts it (R26, R28), and so does an isolated domain; shown where no array is tested in it. -/
def Obligations.SpecialRegistersAndTheTrapRecord : Prop :=
  ((∀ f s b, s.begun 0x1DA f pb0 = some b → b.y.act ≠ 0 →
    let v (l : Nat) : Nat := b.y.special b.t f.a.toNat l
    exec (.sread f) s = .next (b.after (if f.c.toNat < 2 then b.y.isoMark b.t else b.t)
      (if f.c = 0 then [.scalar f.d.toNat (BitVec.ofNat 32 (v 0))]
       else if f.c = 1 then [.scalar f.d.toNat (BitVec.ofNat 32 (v 0)), .scalar (f.d.toNat + 1) (BitVec.ofNat 32 (v 0 / 2 ^ 32))]
       else b.y.active.map (fun l => .vec f.d.toNat l (BitVec.ofNat 32 (v l)))) 0 .fall)) ∧
  (∀ f s b, s.begun 0x1DC f pb0 = some b →
    let t := match b.y.r.trap with | some c => c.trap | none => b.y.r.lastTrap
    exec (.trecRd f) s = .next (b.after b.t [.scalar f.d.toNat (t.word (f.b.toNat % 16))] 0 .fall)) ∧
  (∀ f s b r, s.begun 0x1DD f pb0 = some b → tget b.t.ropes b.y.k = some r →
    let t := match r.trap with | some c => c.trap | none => r.lastTrap
    let n := f.b.toNat % 16
    let v := b.y.r.sr f.a.toNat
    let q : TrapRec := if n = 0 then { t with action := v.extractLsb' 24 2 }
      else if n = 4 then { t with rpc := t.rpc.extractLsb' 32 32 ++ v }
      else if n = 5 then { t with rpc := v ++ t.rpc.extractLsb' 0 32 }
      else { t with saved := listSet t.saved (n - 12) v }
    exec (.trecWr f) s = .next (b.after (b.t.setRope b.y.k
      (match r.trap with | some c => { r with trap := some { c with trap := q } } | none => { r with lastTrap := q })) [] 0 .fall)) ∧
  (∀ f s b, s.begun 0x1DB f pb0 = some b →
    let c : TrapCtx := match b.y.r.trap with | some c => c | none => ⟨b.y.r.lastTrap, b.y.unit, b.y.r.priv, none, b.y.fall, none, none, none⟩
    exec (.tret f) s = .next (b.after (b.t.returnFrom b.y.k b.y.unit c b.y.stall b.y.skip) [] 0 .done))) ∧
  ((∀ (x : Issue) (s : State) (l : Nat),
    x.special s 0 l = (if x.set.getLsbD 14 then rget 0 x.core.iso x.r.did.toNat else x.core.cyc) ∧ x.special s 1 l = s.etimePs / 1000 ∧
    x.special s 2 l = l ∧ x.special s 3 l = l / 4 ∧ x.special s 4 l = x.r.ropeId ∧ x.special s 5 l = x.w.wgid ∧
    x.special s 6 l = x.w.wgcount ∧ x.special s 7 l = 4 * x.w.strands ∧ x.special s 8 l = x.w.task % 2 ^ 32 ∧
    (x.special s 9 l % 2 ^ 16 = x.r.did.toNat ∧ x.special s 9 l / 2 ^ 16 = x.r.dslot) ∧
    x.special s 10 l = (match x.r.priv with | .task => 0 | .handler => 1 | .system => 2) ∧
    (∀ i < 4, x.special s 11 l / 2 ^ (16 * i) % 2 ^ 16 = x.r.classMix.getD i 0 % 2 ^ 16) ∧ x.special s 12 l = x.r.prio ∧
    (∀ d k c, d < 8 → k < 12 → c < 32 → x.c = 384 * d + 32 * k + c →
      let v := x.special s 13 l
      v % 8 = d ∧ v / 8 % 16 = k ∧ v / 128 % 32 = c ∧ v / 4096 = x.r.quad) ∧
    (∀ i < 8, (BitVec.ofNat 64 (x.special s 14 l)).extractLsb' (8 * i) 8 =
      (match x.r.strands[i]? with | some t => if t.present then 1#1 ++ t.slot else 0 | none => 0))) ∧
  (∀ (s : State) (c : Nat), ((s.cycleOf c).2 ≠ 2 ∨ s.idleArrays c = []) →
    let u := s.tick c
    let ending := (s.core c).startPs + (s.cycleOf c).1
    (u.core c).cyc = (s.core c).cyc + 1 ∧ (u.core c).startPs = ending ∧ u.etimePs = max s.etimePs ending ∧
    (∀ j, j ≠ c → tget u.cores j = tget s.cores j) ∧
    (∀ d : BitVec 16, (((List.range 4).filter (s.core c).slotValid).map (s.core c).slotDid).Nodup →
      rget 0 (u.core c).iso d.toNat = rget 0 (s.core c).iso d.toNat +
        (if d ∈ ((List.range 4).filter (s.core c).slotValid).map (s.core c).slotDid ∧ (s.core c).isolated d = true ∧ s.counts c d = true then 1 else 0)) ∧
    ∀ k r w, tget s.ropes k = some r → tget s.wgs r.wg = some w → r.classMix.length = 4 → ∃ q : Rope, tget u.ropes k = some q ∧
      if w.onCore c = true then (∀ i < 4, q.classMix.getD i 0 = r.classMix.getD i 0 + (if i = (s.cycleOf c).2 ∧ s.counts c r.did = true then 1 else 0)) ∧
        q.v = r.v ∧ q.s = r.s ∧ q.p = r.p ∧ q.h = r.h ∧ q.strands = r.strands
      else q = r))

/-- At level SYSTEM, SYSRD that starts with lanes in ACTIVE completes with the domain partition register in the pair; SYSWR that R221 does not refuse with the register written, the policy of the slot to be measured again and the waiting workgroups tested again; CINV with the lines of the ASID gone from the data level, the instruction levels or both of the core, as its target says, and a discard of both noted; HALT with the code kept for its task and every rope of the workgroup ended. -/
def Obligations.SystemInstructionsComplete : Prop :=
  (∀ f s b, s.begun 0x1E0 f pb0 = some b → b.y.act ≠ 0 →
    let v := b.y.core.dpeReg ((f.cw .n32).imm.toNat - 0x100)
    exec (.sysrd f) s = .next (b.after b.t
      [.scalar f.d.toNat (v.extractLsb' 0 32), .scalar (f.d.toNat + 1) (v.extractLsb' 32 32)] 0 .fall)) ∧
  (∀ f s b, s.begun 0x1E1 f pb0 = some b → b.y.act ≠ 0 →
    let n := (f.cw .n32).imm.toNat - 0x100
    let v := b.y.r.spair f.a.toNat
    let k := (b.t.core b.y.c).setDpe n v
    let did := (b.t.core b.y.c).slotDid (n / 8)
    b.t.syswrRefusal b.y.c n v = none →
    exec (.syswr f) s = .next (b.after ({ b.t.setCore b.y.c k with
      stale := b.t.stale ++ [did] ++ (if k.slotDid (n / 8) = did then [] else [k.slotDid (n / 8)]) } : State).retestAll [] 0 .fall)) ∧
  (∀ f s b, s.begun 0x1E2 f pb0 = some b →
    let target := f.d.toNat % 4
    let asid := (b.y.r.sr f.a.toNat).extractLsb' 0 16
    ∃ t, exec (.cinv f) s = .next (b.after t [] 0 .fall) ∧
      (target ≠ 1 → ∀ l ∈ t.l2, l.asid = asid → l.inL1 b.y.c = false ∧ l.uo.all (fun e => e.core != b.y.c) = true) ∧
      (target ≠ 0 → ∀ l ∈ t.code, l.asid = asid → b.y.c ∉ l.l1i ∧ l.bufs.all (fun q => q / 4 != b.y.c) = true) ∧
      (target = 1 → t.mem = b.t.mem) ∧
      (∀ p, f.d.getLsbD 2 = false → b.t.pendingAt p = false → rdByte t.mem p = rdByte b.t.mem p) ∧
      (∀ p, f.d.getLsbD 2 = true → (∀ l ∈ b.t.l2, l.asid = asid → l.dirty = some b.y.c → ∀ e ∈ l.old, e.1 ≠ p) →
        rdByte t.mem p = rdByte b.t.mem p) ∧
      (target = 2 → f.d.getLsbD 2 = true → ∃ l, tget t.asids asid.toNat = some l ∧ b.y.c ∈ l) ∧
      t.ropes = b.t.ropes ∧ t.wgs = b.t.wgs ∧ t.streams = b.t.streams ∧ t.cores = b.t.cores ∧ t.host = b.t.host ∧ t.peer = b.t.peer) ∧
  (∀ f s b, s.begun 0x1E3 f pb0 = some b →
    let t := (b.t.haltWg b.y.r.wg).onStream b.y.w.stream (fun q =>
      { q with window := q.window.map (fun k => if k.idx = b.y.w.task then { k with halted := some (b.y.r.sr f.a.toNat) } else k) })
    exec (.halt f) s = .next (b.after t [] 0 .done) ∧ t.mem = b.t.mem ∧ t.host = b.t.host ∧
      ∀ k ∈ b.y.w.ropes, ∀ r, tget t.ropes k = some r → r.ended = true)

/-- With ACTIVE empty an instruction that starts completes and does nothing but move to the fall-through: shown for scalar-unit, map, control, memory, copy, system and arithmetic instructions. MAPLD, MAPCLR and MAPQ with W = 1 still wait, with nothing done, for their slot to leave PENDING. -/
def Obligations.AnEmptyActiveSetHasNoEffect : Prop :=
  (∀ f s b, s.begun 0x100 f pb0 = some b → b.y.act = 0 → b.y.slotWaits b.t (f.d.toNat % 16) = false → exec (.mapld f) s = .next (b.after b.t [] 0 .fall)) ∧
  (∀ f s b, s.begun 0x101 f pb0 = some b → b.y.act = 0 → b.y.slotWaits b.t (f.d.toNat % 16) = false → exec (.mapclr f) s = .next (b.after b.t [] 0 .fall)) ∧
  (∀ f s b, s.begun 0x102 f pb0 = some b → b.y.act = 0 → (f.c.getLsbD 0 = true → b.y.slotWaits b.t (f.a.toNat % 16) = false) → exec (.mapq f) s = .next (b.after b.t [] 0 .fall)) ∧
  (∀ f s b, s.begun 0x1D0 f pb0 = some b → b.y.act = 0 → exec (.cprun f) s = .next (b.after b.t [] 0 .fall)) ∧
  (∀ f s b, s.begun 0x1D2 f pb0 = some b → b.y.act = 0 → exec (.cpq f) s = .next (b.after b.t [] 0 .fall)) ∧
  (∀ f s b, s.begun 0x1DA f pb0 = some b → b.y.act = 0 → exec (.sread f) s = .next (b.after b.t [] 0 .fall)) ∧
  (∀ f s b, s.begun 0x1E0 f pb0 = some b → b.y.act = 0 → exec (.sysrd f) s = .next (b.after b.t [] 0 .fall)) ∧
  (∀ f s b, s.begun 0x1E1 f pb0 = some b → b.y.act = 0 → exec (.syswr f) s = .next (b.after b.t [] 0 .fall)) ∧
  (∀ f s b, s.begun 0x01F f pb0 = some b → b.y.act = 0 → exec (.prds f) s = .next (b.after b.t [] 0 .fall)) ∧
  (∀ f s b, s.begun 0x027 f pb0 = some b → b.y.act = 0 → exec (.pwrs f) s = .next (b.after b.t [] 0 .fall)) ∧
  (∀ f s b, s.begun 0x158 f pb0 = some b → b.y.act = 0 → exec (.voteAny f) s = .next (b.after b.t [] 0 .fall)) ∧
  (∀ f s b, s.begun 0x159 f pb0 = some b → b.y.act = 0 → exec (.voteAll f) s = .next (b.after b.t [] 0 .fall)) ∧
  (∀ f s b, s.begun 0x15A f pb0 = some b → b.y.act = 0 → exec (.voteBal f) s = .next (b.after b.t [] 0 .fall)) ∧
  (∀ f s b, s.begun 0x140 f pb0 = some b → b.y.act = 0 → exec (.bra f) s = .next (b.after b.t [] 0 .fall)) ∧
  (∀ f s b, s.begun 0x141 f pb0 = some b → b.y.act = 0 → exec (.call f) s = .next (b.after b.t [] 0 .fall)) ∧
  (∀ f s b, s.begun 0x142 f pb0 = some b → b.y.act = 0 → exec (.jmpi f) s = .next (b.after b.t [] 0 .fall)) ∧
  (∀ f s b, s.begun 0x143 f pb0 = some b → b.y.act = 0 → exec (.calli f) s = .next (b.after b.t [] 0 .fall)) ∧
  (∀ f s b, s.begun 0x144 f pb0 = some b → b.y.act = 0 → exec (.ret f) s = .next (b.after b.t [] 0 .fall)) ∧
  (∀ f s b, s.begun 0x184 f pb0 = some b → b.y.act = 0 → exec (.ldN32 f) s = .next (b.after b.t [] 0 .fall)) ∧
  (∀ f s b, s.begun 0x18A f pb0 = some b → b.y.act = 0 → exec (.stN32 f) s = .next (b.after b.t [] 0 .fall)) ∧
  (∀ f s b, s.begun 0x198 f pb0 = some b → b.y.act = 0 → exec (.atomAddN32 f) s = .next (b.after b.t [] 0 .fall)) ∧
  (∀ f s b, s.begun 0x1B0 f pb0 = some b → b.y.act = 0 → exec (.redAddN32 f) s = .next (b.after b.t [] 0 .fall)) ∧
  (∀ f s b, s.begun 0x000 f pb0 = some b → b.y.act = 0 → f.mae = false → f.mbe = false → exec (.iaddS32 f) s = .next (b.after b.t [] 0 .fall)) ∧
  (∀ f s b, s.begun 0x028 f pb0 = some b → b.y.act = 0 → f.mae = false → f.mbe = false → exec (.mov f) s = .next (b.after b.t [] 0 .fall)) ∧
  (∀ f s b, s.begun 0x083 f pb0 = some b → b.y.act = 0 → f.mae = false → f.mbe = false → exec (.ffmaF32 f) s = .next (b.after b.t [] 0 .fall)) ∧
  (∀ f s b k, s.begun 0x100 f pb0 = some b → b.y.act = 0 → b.y.slotCheck b.t (f.d.toNat % 16) = .ok k → (b.t.slot k).state = .pending →
    exec (.mapld f) s = .next s) ∧
  (∀ f s b k, s.begun 0x101 f pb0 = some b → b.y.act = 0 → b.y.slotCheck b.t (f.d.toNat % 16) = .ok k → (b.t.slot k).state = .pending →
    exec (.mapclr f) s = .next s) ∧
  (∀ f s b k, s.begun 0x102 f pb0 = some b → b.y.act = 0 → f.c.getLsbD 0 = true → b.y.slotCheck b.t (f.a.toNat % 16) = .ok k → (b.t.slot k).state = .pending →
    exec (.mapq f) s = .next s)

/-- SYSRD, SYSWR, CINV and HALT below level SYSTEM, and TRET, TREC.RD and TREC.WR at level TASK, raise ILL, reason 2, whatever their operands; an IADD, FFMA, LD or ATOM that names a vector register at or above `.regs`, as a source or a destination, raises ILL, reason 1. -/
def Obligations.BarredInstructionsRaiseIll : Prop :=
  (∀ f s x m, s.issuing 0x1E0 f = some x → metaOf 0x1E0 = some m → x.proFault = none → regsOk 0x1E0 m f pb0 x.r.regs = true → x.r.priv ≠ .system →
    exec (.sysrd f) s = .next { x.raise s ⟨1, 2, x.act, 0, 0, 0⟩ with turn := .choose }) ∧
  (∀ f s x m, s.issuing 0x1E1 f = some x → metaOf 0x1E1 = some m → x.proFault = none → regsOk 0x1E1 m f pb0 x.r.regs = true → x.r.priv ≠ .system →
    exec (.syswr f) s = .next { x.raise s ⟨1, 2, x.act, 0, 0, 0⟩ with turn := .choose }) ∧
  (∀ f s x m, s.issuing 0x1E2 f = some x → metaOf 0x1E2 = some m → x.proFault = none → regsOk 0x1E2 m f pb0 x.r.regs = true → x.r.priv ≠ .system →
    exec (.cinv f) s = .next { x.raise s ⟨1, 2, x.act, 0, 0, 0⟩ with turn := .choose }) ∧
  (∀ f s x m, s.issuing 0x1E3 f = some x → metaOf 0x1E3 = some m → x.proFault = none → regsOk 0x1E3 m f pb0 x.r.regs = true → x.r.priv ≠ .system →
    exec (.halt f) s = .next { x.raise s ⟨1, 2, x.act, 0, 0, 0⟩ with turn := .choose }) ∧
  (∀ f s x m, s.issuing 0x1DB f = some x → metaOf 0x1DB = some m → x.proFault = none → regsOk 0x1DB m f pb0 x.r.regs = true → x.r.priv = .task →
    exec (.tret f) s = .next { x.raise s ⟨1, 2, x.act, 0, 0, 0⟩ with turn := .choose }) ∧
  (∀ f s x m, s.issuing 0x1DC f = some x → metaOf 0x1DC = some m → x.proFault = none → regsOk 0x1DC m f pb0 x.r.regs = true → x.r.priv = .task →
    exec (.trecRd f) s = .next { x.raise s ⟨1, 2, x.act, 0, 0, 0⟩ with turn := .choose }) ∧
  (∀ f s x m, s.issuing 0x1DD f = some x → metaOf 0x1DD = some m → x.proFault = none → regsOk 0x1DD m f pb0 x.r.regs = true → x.r.priv = .task →
    exec (.trecWr f) s = .next { x.raise s ⟨1, 2, x.act, 0, 0, 0⟩ with turn := .choose }) ∧
  (∀ f s x m, s.issuing 0x000 f = some x → metaOf 0x000 = some m → x.proFault = none → (∃ n, RegRef.vec n ∈ regReads 0x000 m f pb0 ++ regWrites 0x000 m f pb0 ∧ x.r.regs ≤ n) →
    exec (.iaddS32 f) s = .next { x.raise s ⟨1, 1, x.act, 0, 0, 0⟩ with turn := .choose }) ∧
  (∀ f s x m, s.issuing 0x083 f = some x → metaOf 0x083 = some m → x.proFault = none → (∃ n, RegRef.vec n ∈ regReads 0x083 m f pb0 ++ regWrites 0x083 m f pb0 ∧ x.r.regs ≤ n) →
    exec (.ffmaF32 f) s = .next { x.raise s ⟨1, 1, x.act, 0, 0, 0⟩ with turn := .choose }) ∧
  (∀ f s x m, s.issuing 0x184 f = some x → metaOf 0x184 = some m → x.proFault = none → (∃ n, RegRef.vec n ∈ regReads 0x184 m f pb0 ++ regWrites 0x184 m f pb0 ∧ x.r.regs ≤ n) →
    exec (.ldN32 f) s = .next { x.raise s ⟨1, 1, x.act, 0, 0, 0⟩ with turn := .choose }) ∧
  (∀ f s x m, s.issuing 0x198 f = some x → metaOf 0x198 = some m → x.proFault = none → (∃ n, RegRef.vec n ∈ regReads 0x198 m f pb0 ++ regWrites 0x198 m f pb0 ∧ x.r.regs ≤ n) →
    exec (.atomAddN32 f) s = .next { x.raise s ⟨1, 1, x.act, 0, 0, 0⟩ with turn := .choose })

/-- With checking on, an instruction that reads a register with a fixed-latency result in flight for its strands, or reads or writes the destination of an outstanding load, whether its lanes have been performed or await translation, raises STALLCHK with the register in INFO; with checking off it starts. A scalar register that a result in flight for other strands is due in is waited for, one of its own strands' alone raises STALLCHK too. That results are compared by the strands of the unit, and that lanes awaiting translation count, is log entry 37. -/
def Obligations.TheScoreboardIsChecked : Prop :=
  (∀ f s x m y, s.issuing 0x000 f = some x → metaOf 0x000 = some m → x.proFault = none → regsOk 0x000 m f pb0 x.r.regs = true →
    x.hazard (x.readsOf 0x000 m f pb0) (regWrites 0x000 m f pb0) = .check y →
    exec (.iaddS32 f) s = .next { x.raise s ⟨3, 0, x.act, y.info, 0, 0⟩ with turn := .choose }) ∧
  (∀ (x : Issue) rd wr p y w, x.chksb = true → p ∈ x.r.inflight → w ∈ p.writes → p.strands &&& x.r.unitStrands x.unit ≠ 0 →
    rd = [y] → w.hits y = true → (∀ n, y ≠ .sca n) → (∃ cw, x.f.enc = .native cw) → x.hazard rd wr = .check y) ∧
  (∀ (x : Issue) rd wr o y w, x.chksb = true → x.r.inflight = [] → o ∈ x.r.outst → w ∈ o.writes ++ o.waits → w.hits y = true →
    rd ++ wr = [y] → (∃ cw, x.f.enc = .native cw) → x.hazard rd wr = .check y) ∧
  (∀ (x : Issue) rd wr p n w, p ∈ x.r.inflight → w ∈ p.writes → p.strands &&& x.r.unitStrands x.unit = 0 → w.hits (.sca n) = true →
    RegRef.sca n ∈ rd → x.hazard rd wr = .wait) ∧
  (∀ (x : Issue) rd wr p n w, x.chksb = true → (∀ q ∈ x.r.inflight, q.strands &&& x.r.unitStrands x.unit ≠ 0) → p ∈ x.r.inflight →
    w ∈ p.writes → w.hits (.sca n) = true → rd = [.sca n] → (∃ cw, x.f.enc = .native cw) → x.hazard rd wr = .check (.sca n)) ∧
  (∀ (x : Issue) rd wr, x.chksb = false → (∀ n, RegRef.sca n ∉ rd) → (∃ cw, x.f.enc = .native cw) → x.hazard rd wr = .clear)

/-- A rope outside a handler whose handler address passes its checks takes a trap: the record is saved with the level, unit and fall-through, and, moved into it, the barrier wait (log entry 34), the remap that SPLICE.C has asked for (log entry 15) and a sleeping WAITV; the level is HANDLER, the strands of the unit stand at the handler address, the other live strands stop, the next issue of the unit is 12 cycles later, or once its last STALL has passed, and no register, memory or other rope changes. Outside a frame TRET restores s60 to s63, the level from before the trap and the barrier wait that it interrupted (log entry 34), and the other strands go on: with action RETRY of a precise trap the unit stands at the trapped instruction, with SKIP behind it, with RESUME at RPC, each where that passes its checks, and after 8 cycles or the STALL of TRET; with RESUME to an RPC that fails them the workgroup ends by a double fault; with KILL the workgroup ends and a task fault of class ROPE carries the record. -/
def Obligations.TrapsAreTakenAndReturnedFrom : Prop :=
  (∀ (s : State) k u t acc n r w, tget s.ropes k = some r → tget s.wgs r.wg = some w → r.trap = none → r.trapH ≠ 0 →
    s.handleFault r r.trapH r.codeUnit = none → s.startFault r r.trapH = none →
    ∃ q, s.takeTrap k u t acc (n + 1) = (s.dropFetch k u).setRope k q ∧
      q.trap = some ⟨t, u, r.priv, acc, t.rpc, (r.schedOf u).blocked, r.cand, r.monitorOf u⟩ ∧ q.cand = none ∧ q.priv = .handler ∧
      q.v = r.v ∧ q.s = r.s ∧ q.p = r.p ∧ q.h = r.h ∧ q.inflight = r.inflight ∧ q.outst = r.outst ∧
      (q.schedOf u).readyAt = max ((s.core w.core).cyc + 12) (r.schedOf u).readyAt ∧ q.monitors = r.monitors.filter (fun m => m.unit != u) ∧
      (∀ (i : Nat) (x : Strand), r.strands[i]? = some x → ∃ y : Strand, q.strands[i]? = some y ∧ y.active = x.active ∧
        (x.inUnit u = true → y.pc = r.trapH) ∧ (x.inUnit u = false → y.pc = x.pc ∧ (x.live = true → y.stopped = true)))) ∧
  ((∀ (s : State) k u r c st sk, tget s.ropes k = some r → c.access = none → c.trap.async = false → c.trap.action = 0 →
    s.returnFails k u r c.trap.fpc false = false → ∃ q, s.returnFrom k u c st sk = s.setRope k q ∧ q.ReturnsTo r c u c.trap.fpc (s.cycOf r + max 8 (1 + st)) sk) ∧
  (∀ (s : State) k u r c st sk, tget s.ropes k = some r → c.access = none → c.trap.async = false → c.trap.action = 1 →
    s.returnFails k u r c.fall false = false → ∃ q, s.returnFrom k u c st sk = s.setRope k q ∧ q.ReturnsTo r c u c.fall (s.cycOf r + max 8 (1 + st)) sk) ∧
  (∀ (s : State) k u r c st sk, tget s.ropes k = some r → c.access = none → c.trap.action = 2 →
    s.returnFails k u r c.trap.rpc true = false → ∃ q, s.returnFrom k u c st sk = s.setRope k q ∧ q.ReturnsTo r c u c.trap.rpc (s.cycOf r + max 8 (1 + st)) sk) ∧
  (∀ (s : State) k u r c w st sk, tget s.ropes k = some r → c.trap.action = 2 → s.returnFails k u r c.trap.rpc true = true →
    tget s.wgs r.wg = some w → w.pro = none →
    let t := s.returnFrom k u c st sk
    tget t.wgs r.wg = none ∧ ∃ q, t.faults = s.faults ++ [q] ∧ q.stream = w.stream ∧ q.task = w.task ∧ q.fault.cls = 5 ∧
      q.fault.reason = 2 ∧ q.trap = some c.trap) ∧
  (∀ (s : State) k u r c w st sk, tget s.ropes k = some r → c.trap.action = 3 → r.frame = none → tget s.wgs r.wg = some w →
    w.pro = none →
    let t := s.returnFrom k u c st sk
    tget t.wgs r.wg = none ∧ ∃ q, t.faults = s.faults ++ [q] ∧ q.stream = w.stream ∧ q.task = w.task ∧ q.fault.cls = 5 ∧
      q.fault.reason = 1 ∧ q.trap = some c.trap))

/-- An issue that falls through, with no fenced array to hold the quadrant, leaves its results in flight until its cycle plus the fixed latency and the added cycles, the registers as they were, and the unit not ready before the next cycle plus STALL. A result that is due is written into its registers and no others; a complete load lands at once but LDC counts it in issue order only, as STC does stores; a result in flight that issued before it does not take its register back; an SFU entry that is due makes its token READY; an SFQ.RD result is written when it has arrived. With checking off, of two outstanding results for one register each lane keeps one or the other, by a free choice (log entry 5). -/
def Obligations.ResultsLandWhenTheyAreDue : Prop :=
  (∀ (b : Begun) (s1 : State) ws extra (r : Rope), tget (b.x.overtake s1 ws).ropes b.y.k = some r →
    rget 0 ((b.x.overtake s1 ws).core b.y.c).holds b.y.r.quad = 0 →
    ∃ q : Rope, tget (b.after s1 ws extra .fall).ropes b.y.k = some q ∧ q.v = r.v ∧ q.s = r.s ∧ q.p = r.p ∧ q.h = r.h ∧ q.k = r.k ∧
      q.inflight = (if ws = [] then r.inflight
        else r.inflight ++ [⟨b.y.core.cyc + lamOf b.y.op + extra, b.y.r.unitStrands b.y.unit, ws, (b.x.overtake s1 ws).nextId⟩]) ∧
      ((b.after s1 ws extra .fall).core b.y.c).issued = ((b.x.overtake s1 ws).core b.y.c).issued ||| (1#4 <<< b.y.r.quad) ∧
      ∀ u ∈ q.units, q.unitStrands u &&& b.y.r.unitStrands b.y.unit ≠ 0 → b.y.core.cyc + 1 + b.y.stall ≤ (q.schedOf u).readyAt) ∧
  (∀ (s : State) k (r : Rope) p l, tget s.ropes k = some r → r.inflight = p :: l → p.due ≤ s.cycOf r → (∀ q ∈ l, s.cycOf r < q.due) →
    exec (.resultLands k) s = .next { s.setRope k { r.writes p.writes with inflight := l } with turn := .choose }) ∧
  (∀ (r : Rope) n l v m j, l < 32 → j < 32 →
    (r.write (.vec n l v)).vr m j = if m = n ∧ j = l ∧ r.present.getLsbD l = true then v else r.vr m j) ∧
  (∀ (r : Rope) n v m, (r.write (.scalar n v)).sr m = if m = n then v else r.sr m) ∧
  (∀ (r : Rope) n k v m j, ((r.write (.pred n k v)).pr m).getLsbD j =
    if m = n ∧ n ≠ 7 ∧ k.getLsbD j = true ∧ r.present.getLsbD j = true then v.getLsbD j else (r.pr m).getLsbD j) ∧
  (∀ (r : Rope) k m j, ((r.write (.status k)).pr m).getLsbD j =
    ((r.pr m).getLsbD j || (m == 6 && k.getLsbD j && r.present.getLsbD j))) ∧
  (∀ (s : State) k (r : Rope) (o : Outst) l, tget s.ropes k = some r → r.outst = o :: l → o.tok = none → o.arrived (s.cycOf r) = true →
    o.writes ≠ [] → o.waits = [] → (∀ q ∈ l, q.Apart o.writes ∧ q.tok = none ∧ (q.arrived (s.cycOf r) = false ∨ q.writes ≠ [])) →
    exec (.loadComplete k) s = .next { s.setRope k { (r.lateOver o.id o.writes).writes o.writes with outst := l, ldc := l.length } with turn := .choose }) ∧
  (∀ (s : State) k (r : Rope) (o p : Outst) l, tget s.ropes k = some r → r.outst = p :: o :: l → (∀ q ∈ r.outst, q.tok = none) →
    p.arrived (s.cycOf r) = false → o.arrived (s.cycOf r) = true → o.writes ≠ [] → o.waits = [] → (∀ q ∈ p :: l, q.Apart o.writes) →
    exec (.loadComplete k) s = .next { s.setRope k { (r.lateOver o.id o.writes).writes o.writes with outst := p :: { o with writes := [] } :: l, ldc := l.length + 2 }
      with turn := .choose }) ∧
  (∀ (s : State) k (r : Rope) (o : StoreOut) l, tget s.ropes k = some r → r.stores = o :: l → o.ready = true → o.due ≤ s.cycOf r →
    (∀ q ∈ l, q.ready = false ∨ s.cycOf r < q.due) →
    exec (.storePerformed k) s = .next { s.setRope k { r with stores := l, stc := l.length } with turn := .choose }) ∧
  (∀ (s : State) n (e : SfuEntry) (r : Rope), s.sfu[n]? = some e → e.due ≤ (s.core (e.quad / 4)).cyc → tget s.ropes e.rope = some r →
    (r.tok e.tok).state = .pending →
    exec (.sfuResultDelivery n) s = .next { ({ s with sfu := s.sfu.eraseIdx n } : State).setRope e.rope
      (r.setTok e.tok { r.tok e.tok with state := .ready }) with turn := .choose }) ∧
  (∀ (s : State) k (r : Rope) (o : Outst) l, tget s.ropes k = some r → r.outst = o :: l → o.tok.isSome = true → o.arrived (s.cycOf r) = true →
    (∀ q ∈ l, q.id ≠ o.id ∧ q.Apart o.writes) →
    exec (.sfqRdWrite k) s = .next { s.setRope k { (r.lateOver o.id o.writes).writes o.writes with outst := l } with turn := .choose }) ∧
  (∀ (r : Rope) id ws p, p ∈ r.inflight →
    (id < p.num → p ∈ (r.lateOver id ws).inflight) ∧
    (∀ n l v w, p.num ≤ id → p.writes = [.vec n l v] → ws = [.vec n l w] → ⟨p.due, p.strands, [.vec n l w], p.num⟩ ∈ (r.lateOver id ws).inflight) ∧
    (∀ n v w, p.num ≤ id → p.writes = [.scalar n v] → ws = [.scalar n w] → ⟨p.due, p.strands, [.scalar n w], p.num⟩ ∈ (r.lateOver id ws).inflight) ∧
    (∀ n m v w, p.num ≤ id → p.writes = [.scalar n v] → ws = [.scalar m w] → n ≠ m → p ∈ (r.lateOver id ws).inflight)) ∧
  (∀ (o : Outst) n l v n0, o.writes = [.vec n l v] → o.waits = [] → l < 32 →
    ∀ w, (raceWrites [.vec n l w] [o] n0).1 = [{ o with writes := if (choiceMask n0).getLsbD l then [] else [.vec n l v] }])

/-- When every live strand waits at SPLICE, the rope phase sends each group behind its SPLICE as one unit, to the join PC plus that SPLICE's length (log entry 50), ready 2 cycles later, or when the STALLs with which its strands came to wait have passed, with the registers as they are. A compaction that is due packs strands with their vector registers and predicate bits, those that a gate frame keeps among them, and the arrivals of strands at barriers; what it forms goes on where the candidates stand and issues no earlier than what it came from (log entry 15). WAITV is woken by a write or, on a core, reads again by polling at any time (log entry 11); a unit passed over 4,096 times is raised once; a yielding unit is skipped no longer; a quiescent Choarnif rope whose image is translated switches. -/
def Obligations.StrandsJoinCompactAndWake : Prop :=
  (∀ (s : State) k (r : Rope), tget s.ropes k = some r → r.phaseDone = true →
    ∃ q : Rope, exec (.ropePhase k) s = .next { s.setRope k q with turn := .choose } ∧ q.v = r.v ∧ q.s = r.s ∧ q.p = r.p ∧ q.inflight = r.inflight ∧
      (∀ (i : Nat) (x : Strand), r.strands[i]? = some x → x.live = true → ∃ y : Strand, q.strands[i]? = some y ∧ y.waiting = false ∧
        y.pc = x.joinPc + BitVec.ofNat 64 x.joinLen ∧ y.active = x.active ∧
        (∃ z : Strand, r.strands[y.unit]? = some z ∧ z.live = true ∧ z.joinPc = x.joinPc ∧
          ∀ (j : Nat) (z' : Strand), j < y.unit → r.strands[j]? = some z' → ¬(z'.live = true ∧ z'.joinPc = x.joinPc))) ∧
      (∀ u ∈ q.units, (q.schedOf u).readyAt = max (s.cycOf r + 2) (q.afterOf u)) ∧
      ∀ (i : Nat) (x y : Strand), r.strands.length ≤ 8 → r.strands[i]? = some x → x.live = true → x.active ≠ 0 → q.strands[i]? = some y → x.after ≤ (q.schedOf y.unit).readyAt) ∧
  (∀ (s : State) wg quad a r0, s.gatherDue wg quad = some (a, r0) →
    exec (.gatherTimeout wg quad) s = .next { s.compact wg quad a r0 with turn := .choose }) ∧
  (∀ (r : Rope) (ps : List Packed) cyc (j : Nat) (p : Packed), ps.length ≤ 8 → (∀ q ∈ ps, tsorted q.rope.v = true ∧ ∀ g, q.rope.frame = some g → tsorted g.v = true) → ps[j]? = some p → p.pos < 8 →
    let q := freshRope r ps cyc
    q.strands[j]? = some { p.strand with unit := 0, stopped := false, pc := r.unitPc r.headUnit } ∧ q.strands.length = ps.length ∧ q.s = r.s ∧ q.ropeId = r.ropeId ∧
      q.cand = none ∧ cyc < (q.schedOf 0).readyAt ∧ (∀ z ∈ ps, z.rope.readyAt ≤ (q.schedOf 0).readyAt) ∧ (∀ n e, e < 4 → q.vr n (4 * j + e) = p.rope.vr n (4 * p.pos + e)) ∧
      (∀ n e, n < 7 → e < 4 → (q.pr n).getLsbD (4 * j + e) = (p.rope.pr n).getLsbD (4 * p.pos + e)) ∧
      (∀ b, b < 16 → (q.bar b).arrived = (r.bar b).arrived ∧
        ((r.bar b).arrived = false → (q.bar b).strands.getLsbD j = (p.rope.bar b).strands.getLsbD p.pos) ∧
        (q.bar b).late.getLsbD j = (p.rope.bar b).late.getLsbD p.pos) ∧
      (∀ f g, r.frame = some f → p.rope.frame = some g → ∃ f', q.frame = some f' ∧ f'.ret = f.ret ∧ f'.s = f.s ∧
        (∀ n e, e < 4 → rget 0 f'.v (32 * n + 4 * j + e) = rget 0 g.v (32 * n + 4 * p.pos + e)) ∧
        ∀ n e, n < 7 → e < 4 → (rget 0 f'.p n).getLsbD (4 * j + e) = (rget 0 g.p n).getLsbD (4 * p.pos + e))) ∧
  (∀ (cs : List Rope) (p : Packed), p ∈ packedStrands cs ↔
    p.rope ∈ cs ∧ p.rope.strands[p.pos]? = some p.strand ∧ p.strand.live = true) ∧
  (∀ (s : State) k (r : Rope), tget s.ropes k = some r →
    let q : Rope := { r with monitors := r.monitors.map (fun m => { m with woken := true }) }
    exec (.waitvWake k) s = .next { s.setRope k q with turn := .choose } ∧
    (∀ w, tget s.wgs r.wg = some w → w.state ≠ .saved → exec (.waitvPoll k) s = .next { s.setRope k q with turn := .choose })) ∧
  (∀ (s : State) k u (r : Rope), tget s.ropes k = some r → 4096 ≤ (r.schedOf u).starve →
    exec (.priorityBoost k u) s = .next { s.setRope k { r with sched := tset r.sched u { r.schedOf u with starve := 0, boost := true } } with turn := .choose }) ∧
  (∀ (s : State) k u (r : Rope), tget s.ropes k = some r →
    exec (.yieldSkipEnd k u) s = .next { s.setRope k { r with sched := tset r.sched u { r.schedOf u with skip := 0 } } with turn := .choose }) ∧
  (∀ (s : State) k (r : Rope), tget s.ropes k = some r → r.port = true → r.onNative = false → r.quiescent = true → r.inflight = [] →
    s.translated r.did (r.unitPc r.headUnit) = true →
    exec (.nativeSwitch k) s = .next { s.setRope k { r with onNative := true } with turn := .choose })

/-- A map load that is due leaves its slot VALID with the scratchpad bytes it reads and the fields of its format block, or FAILED. A held trap is taken at the boundary of its unit. A copy fault ends the program and is held for the rope, or becomes the task fault ENGINE. A gate budget that ends abandons the frame with TIMEOUT. A logged access is translated, decided, raised, or replayed once. A page is pinned in a frame of its domain, a line evicted, each sub-array of an array tested, at once where an idle array has to be and else at the end of an M cycle in which it is idle (log entry 45), the carve-out moved with the lines of its ways. -/
def Obligations.EngineTranslationAndTrapEvents : Prop :=
  (∀ (s : State) k m w, (s.slot k).fill = some m → tget s.wgs m.wg = some w → m.due ≤ (s.core w.core).cyc → w.fillPinned m = true →
    exec (.mapldComplete k true) s = .next { s.setSlot k { MapSlot.empty (s.slot k).owner with state := .failed } with turn := .choose } ∧
    (m.raced = false → ∃ q : MapSlot, exec (.mapldComplete k false) s = .next { s.setSlot k q with turn := .choose } ∧ q.state = .valid ∧
      q.owner = (s.slot k).owner ∧ q.fill = none ∧ q.loaded = some m ∧ q.wfmt = m.fb.toNat % 32 ∧ q.blk = m.fb.toNat / 32 % 4 ∧
      q.succe = m.fb.getLsbD 7 ∧ q.succ = m.fb.toNat / 256 % 16 ∧
      (∀ i j, i < 32 → j < m.row → rdByte q.weights (i * m.row + j) = rdByte w.scratch (m.wa + i * m.stride + j)) ∧
      (∀ i, i < 32 * m.sb → rdByte q.scales i = rdByte w.scratch (m.sa + i))) ∧
    (m.raced = true → ∃ t, exec (.mapldComplete k false) s = .next t ∧ (t.slot k).state = .valid ∧ t.mem = s.mem ∧
      ∀ i, i < 32 * m.row → rdByte (t.slot k).weights i =
        Config.freeByte (rget 0 s.undef (s.slot k).owner.toNat + i) (w.scratch.map Prod.snd))) ∧
  (∀ (s : State) k (r : Rope) h l u, tget s.ropes k = some r → r.held = h :: l → r.trap = none → h.unit = some u → u ∈ r.units →
    exec (.trapDelivery k) s = .next { (s.setRope k { r with held := l }).takeTrap k u
      { h.trap with rpc := r.unitPc u, saved := [r.sr 60, r.sr 61, r.sr 62, r.sr 63], frame := r.frame.isSome } h.access trapFuel with turn := .choose }) ∧
  (∀ (s : State) k (c : CopyCtx) (cause reason : BitVec 8) va (r : Rope), tget s.ctxs k = some c → c.task = none →
    s.copyStuck c = some (cause.toNat, reason.toNat, va) → tget s.ropes c.rope = some r → r.ended = false →
    ∃ t q, exec (.copyFault k cause reason) s = .next t ∧ tget t.ctxs k = none ∧
      t.mem = (if cause = 9 then (s.copyFailed c va).haltMove c else s.copyFailed c va).mem ∧ tget t.ropes c.rope = some q ∧ q.v = r.v ∧
      q.held = r.held ++ [⟨copyTrap c cause.toNat reason.toNat (BitVec.ofNat 64 va), none, none⟩]) ∧
  (∀ (s : State) k (c : CopyCtx) (cause reason : BitVec 8) va st tk, tget s.ctxs k = some c → c.task = some (st, tk) →
    s.copyStuck c = some (cause.toNat, reason.toNat, va) →
    let u := if cause = 9 then (s.copyFailed c va).haltMove c else s.copyFailed c va
    exec (.copyFault k cause reason) s = .next { u with ctxs := terase u.ctxs k, turn := .choose, faults := u.faults ++
      [⟨st, tk, ⟨10, cause, 0, cause.setWidth 32⟩, 0xFFFFFFFF, none, s.etime⟩] }) ∧
  (∀ (s : State) k (c : CopyCtx) cause reason, tget s.ctxs k = some c → s.copyStuck c = none →
    exec (.copyFault k cause reason) s = .next { s with turn := .choose }) ∧
  (∀ (s : State) k (r : Rope) fr, tget s.ropes k = some r → r.frame = some fr → r.trap = none → fr.trapH ≠ 0 →
    (∀ q : Rope, q.did = fr.did → q.asid = fr.asid → q.codeh = fr.codeh → q.wg = r.wg → q.port = fr.port →
      s.handleFault q fr.trapH q.codeUnit = none ∧ s.startFault q fr.trapH = none) →
    ∃ t q c, exec (.gateBudgetExpiry k) s = .next t ∧ tget t.ropes k = some q ∧ q.frame = none ∧ q.did = fr.did ∧ q.v = fr.v ∧ q.s = fr.s ∧
      q.p = fr.p ∧ q.h = fr.h ∧ q.priv = .handler ∧ q.trap = some c ∧ c.trap.cause = 15 ∧ c.trap.fpc = fr.pc ∧ c.trap.info = fr.gate.setWidth 32) ∧
  (∀ (s : State) id e, s.logged id = some e → e.state = .retry →
    (s.logFault e = none → exec (.mtlbTranslate id) s = .next { s.setLog { e with state := .ready } with turn := .choose }) ∧
    (∀ n lanes, s.logFault e = some (n + 1, lanes) → exec (.mtlbTranslate id) s =
      .next { (s.lanesFailed e lanes).setLog { e with state := .deciding (BitVec.ofNat 8 (n + 1)) lanes } with turn := .choose }) ∧
    (∀ lanes, s.logFault e = some (0, lanes) → exec (.mtlbTranslate id) s = .next { s.raiseLog e 0 lanes with turn := .choose })) ∧
  (∀ (s : State) e n lanes, s.logFault e = some (n, lanes) → (∀ a ∈ e.lanes, a.lane < 32) →
    ∀ l, lanes.getLsbD l = true ↔ ∃ a ∈ e.lanes, a.lane = l ∧ ∃ m, s.laneFault (e.target s) a = some m ∧ leftClass m = leftClass n) ∧
  (∀ (s : State) e, s.logFault e = none ↔ ∀ a ∈ e.lanes, a.lane < 32 → s.laneFault (e.target s) a = none) ∧
  leftClass 0 = 1 ∧ (∀ m, 0 < m → m < 15 → leftClass m = 0) ∧
  (∀ (s : State) id e c lanes, s.logged id = some e → e.state = .deciding c lanes →
    exec (.faultResolve id .resolved) s = .next { (if e.kind = 3 then s.dropLog id else s.setLog { e with state := .retry }) with turn := .choose } ∧
    exec (.faultResolve id .declined) s = .next { s.raiseLog e c.toNat lanes with turn := .choose } ∧
    (c.toNat ≤ 4 → exec (.pluginTimeout id) s = .next { s.raiseLog e c.toNat lanes with turn := .choose })) ∧
  (∀ (s : State) e reason lanes (r : Rope), tget s.ropes e.rope = some r → e.kind ≠ 3 → e.orphan = false → r.ended = false →
    ∃ q h, tget (s.raiseLog e reason lanes).ropes e.rope = some q ∧ q.v = r.v ∧ q.held = r.held ++ [h] ∧ h.unit = some e.unit ∧
      h.access = some e.id ∧ h.trap.async = true ∧ h.trap.fpc = e.pc ∧ h.trap.lanemask = e.whole.getD lanes ∧
      (s.raiseLog e reason lanes).mem = s.mem) ∧
  (∀ (s : State) id e (r : Rope) s1 ws, s.logged id = some e → e.state = .ready → e.orphan = false → (e.kind = 1 ∨ e.kind = 2) →
    s.replays e = true → tget s.ropes e.rope = some r → s.performLanes (e.target s) e.lanes = (s1, ws, []) →
    ∃ t, exec (.replay id) s = .next t ∧ t.mem = s1.mem ∧ t.log = s1.log.filter (fun l => l.id != id) ∧
      ∀ q, tget s1.ropes e.rope = some q → ∃ q', tget t.ropes e.rope = some q' ∧ q'.v = q.v ∧
        q'.stores.map (fun o => (o.id, o.ready)) = q.stores.map (fun o => (o.id, o.id == id || o.ready))) ∧
  (∀ (s : State) wg p w, tget s.wgs wg = some w → w.onCore w.core = true → p ∉ w.pinned → 4096 * p < scratchAlloc w.scratchSize →
    ∃ t v, exec (.pagePin wg p) s = .next t ∧ t.mem = s.mem ∧ tget t.wgs wg = some v ∧ p ∈ v.pinned ∧ v.scratch = w.scratch ∧
      (s.pagesPinned w.core w.dslot < (s.core w.core).frames w.dslot → v = { w with pinned := w.pinned ++ [p] }) ∧
      ∀ k m f, tget s.slots k = some m → m.fill = some f → f.wg = wg → ∃ m' f', tget t.slots k = some m' ∧ m'.fill = some f' ∧ p ∈ f'.pages) ∧
  (∀ (s : State) a n, ∃ t, exec (.l2Eviction a n) s = .next t ∧ (∀ p, s.pendingAt p = false → rdByte t.mem p = rdByte s.mem p) ∧
    (∀ l ∈ t.l2, ¬(l.asid = a ∧ l.line = n)) ∧ ∀ l ∈ s.l2, ¬(l.asid = a ∧ l.line = n) → l ∈ t.l2) ∧
  (∀ (s : State) c q a (bad : BitVec 4), q < 4 → a < 2 →
    let x := s.array c q a
    let k := 2 * quadKey c q + a
    ((x.busy ≤ (s.core c).cyc ∧ s.testForced { x with faulty := x.faulty ||| bad } = true) →
      ∃ u : State, exec (.mapSelfTest c q a bad) s = .next { u.selfTest k with turn := .choose } ∧ u.mem = s.mem ∧ u.wgs = s.wgs ∧ u.streams = s.streams ∧
        u.array c q a = { x with faulty := x.faulty ||| bad, busy := max x.busy ((s.core c).cyc + 1) } ∧ 2 ≤ (u.core c).cycleClass) ∧
    (¬(x.busy ≤ (s.core c).cyc ∧ s.testForced { x with faulty := x.faulty ||| bad } = true) →
      exec (.mapSelfTest c q a bad) s = .next { s with arrays := tset s.arrays k { x with faulty := x.faulty ||| bad }, turn := .choose })) ∧
  (∀ (s : State) c q a, q < 4 → a < 2 →
    let x := s.array c q a
    let bad := x.faulty
    let y := (s.selfTest (2 * quadKey c q + a)).array c q a
    (s.selfTest (2 * quadKey c q + a)).mem = s.mem ∧ y.apps = 0 ∧ y.faulty = 0 ∧ y.users = (if bad = 0 then [] else x.users) ∧
      y.lasting = x.lasting ||| (x.fenced &&& bad) ∧
      (∀ z ∈ y.retries, z ∈ x.retries ∨ (bad ≠ 0 ∧ z ∈ s.mapTasks x)) ∧
      (∀ i < 4, bad = 0 → x.fenced.getLsbD i = true → x.lasting.getLsbD i = false → 15 ≤ rget 0 x.passes i →
        (y.fenced.getLsbD i = true ↔ ∃ z ∈ x.retries, s.retryOver z = false)) ∧
      ∀ i < 4,
        (bad.getLsbD i = false → x.fenced.getLsbD i = true → (x.lasting ||| (x.fenced &&& bad)).getLsbD i = true → y.fenced.getLsbD i = true) ∧
        (bad.getLsbD i = true → y.fenced.getLsbD i = true ∧ rget 0 y.passes i = 0) ∧
        (bad.getLsbD i = false → x.fenced.getLsbD i = false → y.fenced.getLsbD i = false) ∧
        (bad.getLsbD i = false → x.fenced.getLsbD i = true → rget 0 x.passes i < 15 →
          y.fenced.getLsbD i = true ∧ rget 0 y.passes i = rget 0 x.passes i + 1)) ∧
  (∀ (s : State) c cls, cls ≠ 2 → s.selfTests c cls = s) ∧
  (∀ (s : State) c q a x, q < 4 → a < 2 → tget s.arrays (2 * quadKey c q + a) = some x → x.busy ≤ (s.core c).cyc →
    ((s.selfTests c 2).array c q a).apps = 0 ∧ ((s.selfTests c 2).array c q a).faulty = 0) ∧
  (∀ (s : State) c n, 0 < n → n < 8 → ∃ t, exec (.scrChange c n) s = .next t ∧ (t.core c).scr = n ∧ (t.core c).scrDone = true ∧
    (∀ p, s.pendingAt p = false → rdByte t.mem p = rdByte s.mem p) ∧ ∀ l ∈ t.l2, ∀ e ∈ l.l1, e.1 = c → e.2 < 8 - n)

/-- An unplaced workgroup that a core can take becomes resident there with its ropes in the state of R24 and EMPTY slots; one that waits a millisecond rises by 1. A pre-emption takes cores out of the mask and vacates the domain's workgroup there: an `.idem` one waits for placement again, with its gate frames gone (log entry 57), another is to be saved. A rope is saved at a quiescent point, or by force once the timeout of the pre-empted domain, as its slot has it then, has passed, and with the last one, once no operation of an ended rope and no map load is in flight, the workgroup is an image, to which engine events apply and which is restored with its registers. -/
def Obligations.WorkgroupsArePlacedSavedAndRestored : Prop :=
  (∀ (s : State) wg w c slot, tget s.wgs wg = some w → s.waits w = true → s.lowerUnplaced w = false →
    s.chooseCore w (fun c => (s.placeOn w c).isSome) = some c → s.placeOn w c = some slot →
    ∃ t v, exec (.workgroupPlace wg) s = .next t ∧ t.mem = s.mem ∧ tget t.wgs wg = some v ∧ v.state = .resident ∧ v.core = c ∧ v.dslot = slot ∧
      v.ropes = (List.range (ropeCount w.strands)).map (s.nextId + ·) ∧ v.barriers = [] ∧ v.sems = [] ∧
      (∀ e ∈ v.slotMap, (t.slot (16 * quadKey c (e.1 / 16) + e.2)).state = .empty ∧ (t.slot (16 * quadKey c (e.1 / 16) + e.2)).owner = w.did) ∧
      ∀ i < ropeCount w.strands, ∃ r, tget t.ropes (s.nextId + i) = some r ∧ r.wg = wg ∧ r.ropeId = i ∧ r.quad = i % 4 ∧ r.priv = w.priv ∧
        r.v = [] ∧ r.p = [] ∧ r.k = [] ∧ (∀ n, r.sr n = rget 0 (w.args.filter (fun e => e.2 != 0)) n) ∧ r.ldc = 0 ∧ r.stc = 0 ∧ r.cpc = 0 ∧
        r.trap = none ∧ r.frame = none ∧ (r.strands.filter Strand.live).length = strandsOf w.strands i ∧
        ∀ x ∈ r.strands, x.live = true → x.pc = kdEntry w.kdesc ∧ x.active = 15 ∧ x.stack = []) ∧
  (∀ (s : State) wg w st, tget s.wgs wg = some w → w.state = .unplaced → w.since + 1000000 ≤ s.etime → tget s.streams w.stream = some st →
    w.prio < max st.mprio st.mcap →
    exec (.wgPriorityAging wg) s = .next { s.setWg wg { w with prio := w.prio + 1, since := w.since + 1000000 } with turn := .choose }) ∧
  (∀ (s : State) did cores wg w, s.wgs = [(wg, w)] → w.did = did → w.core ∈ cores → w.state = .resident → w.pro = none →
    ∃ t v, exec (.preemptRequest did cores) s = .next t ∧ (t.domain did).cores = (s.domain did).cores.filter (fun c => !cores.contains c) ∧
      tget t.wgs wg = some v ∧
      (w.idem = true → v.state = .unplaced ∧ v.again = true ∧ v.ropes = [] ∧ t.ropes = s.ropes.filter (fun e => e.2.wg != wg)) ∧
      (w.idem = false → v = { w with state := .saving, saveAt := s.etime, saveFor := did } ∧ t.ropes = s.ropes)) ∧
  (∀ (s : State) did cores, ∃ t, exec (.coreMaskAdd did cores) s = .next t ∧
    ∀ c, c ∈ (t.domain did).cores ↔ c ∈ (s.domain did).cores ∨ c ∈ cores) ∧
  (∀ (s : State) k (r : Rope) w, tget s.ropes k = some r → tget s.wgs r.wg = some w → w.state = .saving → k ∉ w.marked → s.idle k r = true →
    ((r.quiescent = true → ∃ t v, exec (.ropeSave k) s = .next t ∧ tget t.ropes k = some (r.saved s.etime false) ∧ tget t.wgs r.wg = some v ∧
        v.marked = w.marked ++ [k] ∧ v.scratch = w.scratch ∧ v.sems = w.sems ∧
        v.state = (if w.ropes.any (fun j => match tget s.ropes j with | some q => !q.ended | none => false) &&
            w.ropes.all (fun j => j == k || w.marked.contains j || (match tget s.ropes j with | some q => q.ended && s.idle j q | none => true)) &&
            s.slots.all (fun e => match e.2.fill with | some l => l.wg != r.wg | none => true)
          then .saved else .saving)) ∧
      (∀ slot, (s.core w.core).slotOf w.saveFor = some slot → w.saveAt + (s.core w.core).ptoNs slot ≤ s.etime →
        ∃ t v, exec (.forcedSave k) s = .next t ∧ tget t.ropes k = some (r.saved s.etime true) ∧
        tget t.wgs r.wg = some v ∧ v.marked = w.marked ++ [k]))) ∧
  (∀ (s : State) wg w n, tget s.wgs wg = some w → w.state = .saved → n < 8 →
    exec (.imageEvent wg (.sems n)) s = .next { s.setWg wg { w with sems := rset 0 w.sems n (if w.sem n = 0xFFFF then 0xFFFF else w.sem n + 1) } with turn := .choose } ∧
    (w.sem n ≠ 0 → exec (.imageEvent wg (.semw n)) s = .next { s.setWg wg { w with sems := rset 0 w.sems n (w.sem n - 1) } with turn := .choose }) ∧
    (∀ a bs, a + bs.length ≤ w.scratchSize → ∃ t v, exec (.imageEvent wg (.scratchWrite a bs)) s = .next t ∧ tget t.wgs wg = some v ∧
      v.scratch = wrBytes w.scratch a bs ∧ t.mem = s.mem) ∧
    (∀ k (r : Rope), k ∈ w.ropes → tget s.ropes k = some r → exec (.imageEvent wg (.monitorWrite k)) s =
      .next { s.setRope k { r with monitors := r.monitors.map (fun m => { m with woken := true }) } with turn := .choose })) ∧
  (∀ (s : State) wg w c slot, tget s.wgs wg = some w → s.eligible w = true → s.restoreOn w c = some slot → w.ropes.Nodup →
    ∃ t v, exec (.workgroupRestore wg c) s = .next t ∧ t.mem = s.mem ∧ tget t.wgs wg = some v ∧ v.state = .resident ∧ v.core = c ∧ v.dslot = slot ∧
      v.ropes = w.ropes ∧ v.scratch = w.scratch ∧ v.sems = w.sems ∧ v.barriers = w.barriers ∧
      ∀ k ∈ w.ropes, ∀ r, tget s.ropes k = some r → ∃ q, tget t.ropes k = some q ∧ q.v = r.v ∧ q.s = r.s ∧ q.p = r.p ∧ q.h = r.h ∧ q.k = r.k ∧
        q.trap = r.trap ∧ q.strands.map (fun x => (x.pc, x.active, x.stack, x.parked, x.retired)) =
          r.strands.map (fun x => (x.pc, x.active, x.stack, x.parked, x.retired)))

/-- Of a program whose next word is a start of its copy section: SETE writes a copy register, ADDE adds to one modulo 2^32, LOOP counts one down and goes back by its offset until it is 0, SEMS raises a semaphore up to 0xFFFF, SEMW lowers one that is not 0 and waits at 0, BARR goes on, DONE stores the copy register in the scratchpad, behind the accesses to its word that its rope has issued before the program, END frees the context and completes it in CPC; SEMS and DONE release, SEMW acquires (log entry 55). A copy PC that is no start halts with ENTRY. XFER and FILL that pass their checks, reach every place and are refused by no link write their bytes in loop order, all in one step (log entry 57); between places of HOST memory that do not overlap, XFER copies every byte, or ends the program where the link refuses it (log entry 48). -/
def Obligations.CopyWordsRun : Prop :=
  (∀ (s : State) (c : CopyCtx) (w : CopyWord), tget s.ctxs s.curCtx = some c → c.cmd = none → c.own = none → s.inCopy c.did c.start.toNat (c.pc + 8).toNat = true →
    exec (.copySete w) s = .next { s with ctxs := tset s.ctxs s.curCtx { c.setE (w.lo.toNat % 8) w.hi with pc := c.pc + 8, pages := (tget s.wgs c.wg).elim [] Workgroup.pinned }, turn := .choose }) ∧
  (∀ (s : State) (c : CopyCtx) (w : CopyWord), tget s.ctxs s.curCtx = some c → c.cmd = none → c.own = none → s.inCopy c.did c.start.toNat (c.pc + 8).toNat = true →
    exec (.copyAdde w) s = .next { s with ctxs := tset s.ctxs s.curCtx { c.setE (w.lo.toNat % 8) (c.er (w.lo.toNat % 8) + w.hi) with pc := c.pc + 8, pages := (tget s.wgs c.wg).elim [] Workgroup.pinned }, turn := .choose }) ∧
  (∀ (s : State) (c : CopyCtx) (w : CopyWord), tget s.ctxs s.curCtx = some c → c.cmd = none → c.own = none → c.er (w.lo.toNat % 8) ≠ 0 →
    s.inCopy c.did c.start.toNat (addInt c.pc (8 * (w.mid ++ w.lo.extractLsb' 8 4).toInt)).toNat = true →
    exec (.copyLoop w) s = .next { s with ctxs := tset s.ctxs s.curCtx { c.setE (w.lo.toNat % 8) (c.er (w.lo.toNat % 8) - 1) with pc := addInt c.pc (8 * (w.mid ++ w.lo.extractLsb' 8 4).toInt), pages := (tget s.wgs c.wg).elim [] Workgroup.pinned }, turn := .choose }) ∧
  (∀ (s : State) (c : CopyCtx) (w : CopyWord), tget s.ctxs s.curCtx = some c → c.cmd = none → c.own = none → c.er (w.lo.toNat % 8) = 0 → s.inCopy c.did c.start.toNat (c.pc + 8).toNat = true →
    exec (.copyLoop w) s = .next { s with ctxs := tset s.ctxs s.curCtx { c with pc := c.pc + 8, pages := (tget s.wgs c.wg).elim [] Workgroup.pinned }, turn := .choose }) ∧
  (∀ (s : State) (c : CopyCtx) (w : CopyWord) g, tget s.ctxs s.curCtx = some c → c.cmd = none → c.own = none → c.inFrame = false →
    tget s.wgs c.wg = some g → s.inCopy c.did c.start.toNat (c.pc + 8).toNat = true →
    let n := w.lo.toNat % 8
    let raised := (s.setWg c.wg { g with sems := rset 0 g.sems n (if g.sem n = 0xFFFF then 0xFFFF else g.sem n + 1) }).publishes
      (.copy c.id) s.nextId (semPlace c.wg n) (some 1) true
    let lowered := (s.setWg c.wg { g with sems := rset 0 g.sems n (g.sem n - 1) }).observes (.copy c.id) s.nextId (semPlace c.wg n) (some 1)
    let goOn (u : State) : State := { u with ctxs := tset s.ctxs s.curCtx { c with pc := c.pc + 8, pages := g.pinned }, turn := .choose }
    exec (.copySems w) s = .next (goOn raised) ∧
    (g.sem n ≠ 0 → exec (.copySemw w) s = .next (goOn lowered)) ∧
    (g.sem n = 0 → exec (.copySemw w) s = .next s)) ∧
  (∀ (s : State) (c : CopyCtx) (w : CopyWord), tget s.ctxs s.curCtx = some c → c.cmd = none → c.own = none → s.inCopy c.did c.start.toNat (c.pc + 8).toNat = true →
    exec (.copyBarr w) s = .next { s with ctxs := tset s.ctxs s.curCtx { c with pc := c.pc + 8, pages := (tget s.wgs c.wg).elim [] Workgroup.pinned }, turn := .choose }) ∧
  (∀ (s : State) (c : CopyCtx) (w : CopyWord) g, tget s.ctxs s.curCtx = some c → tget s.wgs c.wg = some g → c.inFrame = false →
    w.hi.toNat + 4 ≤ g.scratchSize → g.pinnedAt w.hi.toNat 4 = true → s.behindRope c c.doneGoal w.hi.toNat = false →
    (c.cmd.isSome = true ∨ c.own.isSome = true ∨ s.inCopy c.did c.start.toNat (c.pc + 8).toNat = true) →
    ∃ t v, exec (.copyDone w) s = .next t ∧ tget t.wgs c.wg = some v ∧
      v.scratch = wrBytes g.scratch w.hi.toNat (leBytes 4 (c.er (w.lo.toNat % 8)).toNat) ∧ t.mem = s.mem ∧ t.host = s.host ∧
      tget t.ctxs s.curCtx = some { c with pc := c.pc + 8, pages := g.pinned }) ∧
  (∀ (s : State) (c : CopyCtx) (w : CopyWord) g, tget s.ctxs s.curCtx = some c → tget s.wgs c.wg = some g → c.inFrame = false →
    w.hi.toNat + 4 ≤ g.scratchSize → (g.pinnedAt w.hi.toNat 4 = false ∨ ∃ l ∈ s.log, l.rope = c.rope ∧ c.task = none ∧ l.kind ≠ 3 ∧ l.id < c.id ∧
      ∃ x ∈ l.lanes, s.storageLine (l.target s) x.addr = s.storageLine c.doneGoal w.hi.toNat) →
    exec (.copyDone w) s = .next s) ∧
  (∀ (s : State) (c : CopyCtx) (w : CopyWord) r, tget s.ctxs s.curCtx = some c → tget s.ropes c.rope = some r → r.frame = none →
    let q : Rope := { r with copies := endIn r.copies c.id, cpc := (endIn r.copies c.id).length }
    exec (.copyEnd w) s = .next { s with ctxs := terase s.ctxs s.curCtx, turn := .choose, ropes := tset s.ropes c.rope q }) ∧
  (∀ (s : State) (c : CopyCtx) (w : CopyWord), tget s.ctxs s.curCtx = some c → c.cmd = none → c.own = none → s.inCopy c.did c.start.toNat (c.pc + 8).toNat = false →
    exec (.copyBarr w) s = .next { s.copyFault s.curCtx 2 0 (c.pc + 8) with turn := .choose }) ∧
  (∀ (s : State) (c : CopyCtx) (w : CopyWord) sh m fill bytes s0 s1, tget s.ctxs s.curCtx = some c → c.cmd = none → (c.marked w.lo sh).2 = true →
    moveOf fill (c.marked w.lo sh).1 = some m →
    let hs := s.ctxHandle c m.srcH
    let hd := s.ctxHandle c m.dstH
    let args := m.args fill hs hd
    s.copyChecks c args = none → s.moveWaits c args = false → s.moveFault c args = none → s.movePoisoned c args = none →
    s.moveBytes c m fill w.hi hs hd = (bytes, s0) → s0.moveRefused args = (false, s1) →
    (c.own.isSome = true ∨ s.inCopy c.did c.start.toNat (c.pc + 56).toNat = true) →
    let t := s1.doMove c hs hd (if fill then [] else m.srcOffs) bytes
    exec (if fill then .copyFill w sh else .copyXfer w sh) s =
      .next { t with ctxs := tset t.ctxs s.curCtx { c with pc := c.pc + 56, pages := (tget t.wgs c.wg).elim [] Workgroup.pinned }, turn := .choose }) ∧
  (∀ (s : State) (c : CopyCtx) (w : CopyWord) sh d, tget s.ctxs s.curCtx = some c → c.cmd = some d →
    let m := d.move
    let hs := s.ctxHandle c m.srcH
    let hd := s.ctxHandle c m.dstH
    hs.ent.space = 2 → hd.ent.space = 2 → d.wrap = false →
    s.copyChecks c (m.args false hs hd) = none → s.moveWaits c (m.args false hs hd) = false → s.moveFault c (m.args false hs hd) = none →
    s.movePoisoned c (m.args false hs hd) = none →
    (∀ i < d.len, hs.ent.base + d.src + d.len ≤ hd.ent.base + d.dst + i ∨ hd.ent.base + d.dst + i < hs.ent.base + d.src) →
    ∃ t, exec (.copyXfer w sh) s = .next t ∧ t.mem = s.mem ∧ t.peer = s.peer ∧
      ((s.moveRefused (m.args false hs hd)).1 = true → tget t.ctxs s.curCtx = none) ∧
      ((s.moveRefused (m.args false hs hd)).1 = false → ∀ a, rdByte t.host a = if hd.ent.base + d.dst ≤ a ∧ a < hd.ent.base + d.dst + d.len
        then rdByte s.host (hs.ent.base + d.src + (a - (hd.ent.base + d.dst))) else rdByte s.host a))

/-- At its stream's decode index every task word that keeps to its rules joins the window as one DECODED entry, and the decode index moves behind its words: TNOP and TEND as they are, TEND ending the decoding; TFREE unbinds a logical buffer, TBIND binds it to a handle entry whose extent it takes as a region; TSIG and TWAIT take their word, and a record, as regions, the record with right W alone (log entry 58); TFENCE with a SCOPE of 2 to 4; TINVAL and TGATE are irrevocable; a TEXPORT reads a version and writes a region; TCOPY and TFILL take their operands, raw, which no region check refuses (log entry 30), or logical buffers: a read or update uses the current version and depends on its producer, an update on its readers too, a write takes the buffer whose index the free list of its class in memory ends with, whose contents are then undefined, or waits for one; NOBUF and POOL give the class as WHERE (log entry 42); TRUN and TRUNP take the descriptor, the arguments of extension 1, and for each handle register its binding or the descriptor's default. A reserved bit raises TILL, the words that no table lists counting as reserved where they are said to be 0 (log entry 58), a SCOPE out of range TILL SCOPE, with no entry; a decode that waits changes nothing. -/
def Obligations.TasksAreDecodedIntoTheWindow : Prop :=
  (∀ (s : State) (t : Stream) (w : TaskWord), tget s.streams s.curStream = some t → t0Bits w 10 21 = 0 → tailUsed w 1 = false →
    exec (.tnop w) s = .next (s.joins t ({ Task.fresh t.decode (1 + w.ext.length) 0 w with decodeNs := s.etime })) ∧ exec (.tend w) s = .next (s.joins t ({ Task.fresh t.decode (1 + w.ext.length) 15 w with decodeNs := s.etime }))) ∧
  (∀ (s : State) (t : Stream) (w : TaskWord), tget s.streams s.curStream = some t → t0Bits w 10 21 ≠ 0 →
    exec (.tnop w) s = .next { s.decodeFault s.curStream t.decode (1 + w.ext.length) 0 1 2 0 with free := s.free + 1 }) ∧
  (∀ (s : State) (t : Stream) (w : TaskWord), tget s.streams s.curStream = some t → t0Bits w 18 13 = 0 → tailUsed w 1 = false →
    let lb := t0Bits w 10 8
    exec (.tfree w) s = .next (s.joins { t with dmap := terase t.dmap lb }
      { { Task.fresh t.decode (1 + w.ext.length) 7 w with decodeNs := s.etime } with renames := [(lb, none)], releases := releaseOf (tget t.dmap lb) })) ∧
  (∀ (s : State) (t : Stream) (w : TaskWord), tget s.streams s.curStream = some t → t0Bits w 18 13 = 0 → tailUsed w 2 = false → fld w.t1 14 18 = 0 →
    let lb := t0Bits w 10 8
    let rd := w.t1.getLsbD 12
    let wr := w.t1.getLsbD 13
    let h := (s.handle t.did (s.domain t.did).asid (rdIdx w.t1)).ent
    (rd || wr) = true → h.v = true → h.ok = true → (h.space = 0 ∨ h.space = 2 ∨ h.space = 3) →
    rdNeed rd wr &&& h.rights = rdNeed rd wr → h.len ≠ 0 →
    let v : Version := ⟨rdIdx w.t1, false, 0, t.decode, []⟩
    exec (.tbind w) s = .next (s.joins { t with dmap := tset t.dmap lb v }
      { { Task.fresh t.decode (1 + w.ext.length) 5 w with decodeNs := s.etime } with regions := [⟨h.space, h.base, h.len, rd, wr⟩], renames := [(lb, some v)], releases := releaseOf (tget t.dmap lb) })) ∧
  (∀ (s : State) (t : Stream) (w : TaskWord), tget s.streams s.curStream = some t → t0Bits w 13 18 = 0 → t0Bits w 10 2 < 2 → t0Bits w 12 1 = 0 → fld w.t1 12 20 = 0 → fld w.t3 18 14 = 0 → sigOff w % 8 = 0 →
    w.t6 = 0 → w.t7 = 0 →
    let h := (s.handle t.did (s.domain t.did).asid (rdIdx w.t1)).ent
    h.v = true → h.ok = true → (h.space = 0 ∨ h.space = 2 ∨ h.space = 3) → 10#4 &&& h.rights = 10#4 → sigOff w + 8 ≤ h.len →
    exec (.tsig w) s = .next (s.joins t { { Task.fresh t.decode (1 + w.ext.length) 8 w with decodeNs := s.etime } with regions := [⟨h.space, h.base + sigOff w, 8, false, true⟩], irrev := true })) ∧
  (∀ (s : State) (t : Stream) (w : TaskWord), tget s.streams s.curStream = some t → t0Bits w 13 18 = 0 → t0Bits w 10 2 < 2 → t0Bits w 12 1 = 1 → fld w.t1 12 20 = 0 → fld w.t3 18 14 = 0 → sigOff w % 8 = 0 →
    fld w.t6 12 20 = 0 → w.t7.toNat % 32 = 0 →
    let h := (s.handle t.did (s.domain t.did).asid (rdIdx w.t1)).ent
    let g := (s.handle t.did (s.domain t.did).asid (rdIdx w.t6)).ent
    h.v = true → h.ok = true → (h.space = 0 ∨ h.space = 2 ∨ h.space = 3) → 10#4 &&& h.rights = 10#4 → sigOff w + 8 ≤ h.len →
    g.v = true → g.ok = true → (g.space = 0 ∨ g.space = 2 ∨ g.space = 3) → 2#4 &&& g.rights = 2#4 → w.t7.toNat + 32 ≤ g.len →
    exec (.tsig w) s = .next (s.joins t { { Task.fresh t.decode (1 + w.ext.length) 8 w with decodeNs := s.etime } with
      regions := [⟨h.space, h.base + sigOff w, 8, false, true⟩, ⟨g.space, g.base + w.t7.toNat, 32, false, true⟩], irrev := true })) ∧
  (∀ (s : State) (t : Stream) (w : TaskWord), tget s.streams s.curStream = some t → t0Bits w 14 17 = 0 → t0Bits w 10 3 < 6 → fld w.t1 12 20 = 0 → fld w.t3 18 14 = 0 → sigOff w % 8 = 0 → w.t7 = 0 →
    let h := (s.handle t.did (s.domain t.did).asid (rdIdx w.t1)).ent
    h.v = true → h.ok = true → (h.space = 0 ∨ h.space = 2 ∨ h.space = 3) → 1#4 &&& h.rights = 1#4 → sigOff w + 8 ≤ h.len →
    exec (.twait w) s = .next (s.joins t { { Task.fresh t.decode (1 + w.ext.length) 9 w with decodeNs := s.etime } with regions := [⟨h.space, h.base + sigOff w, 8, true, false⟩] })) ∧
  (∀ (s : State) (t : Stream) (w : TaskWord), tget s.streams s.curStream = some t → t0Bits w 13 18 = 0 → tailUsed w 1 = false →
    (2 ≤ t0Bits w 10 3 ∧ t0Bits w 10 3 ≤ 4 → exec (.tfence w) s = .next (s.joins t ({ Task.fresh t.decode (1 + w.ext.length) 10 w with decodeNs := s.etime }))) ∧
    (t0Bits w 10 3 < 2 ∨ 4 < t0Bits w 10 3 →
      exec (.tfence w) s = .next { s.decodeFault s.curStream t.decode (1 + w.ext.length) 10 1 6 0 with free := s.free + 1 })) ∧
  (∀ (s : State) (t : Stream) (w : TaskWord), tget s.streams s.curStream = some t → t0Bits w 11 20 = 0 → tailUsed w 4 = false → (t0Bits w 10 1 = 1 → w.t1 = 0 ∧ w.t2 = 0 ∧ w.t3 = 0) →
    exec (.tinval w) s = .next (s.joins t { { Task.fresh t.decode (1 + w.ext.length) 11 w with decodeNs := s.etime } with irrev := true })) ∧
  (∀ (s : State) (t : Stream) (w : TaskWord), tget s.streams s.curStream = some t → t0Bits w 12 19 = 0 → fld w.t1 16 16 = 0 → fld w.t2 12 20 = 0 → fld w.t3 12 20 = 0 → fld w.t4 4 28 = 0 →
    (t0Bits w 10 1 = 0 → w.t4 = 0) → tailUsed w 5 = false →
    exec (.tgate w) s = .next (s.joins t { { Task.fresh t.decode (1 + w.ext.length) 12 w with decodeNs := s.etime } with irrev := true })) ∧
  (∀ (s : State) (t : Stream) (w : TaskWord), tget s.streams s.curStream = some t → t0Bits w 18 13 = 0 → tailUsed w 5 = false → w.t2.getLsbD 12 = false → w.t2.getLsbD 13 = true →
    let h := (s.handle t.did (s.domain t.did).asid (rdIdx w.t2)).ent
    let v := tget t.dmap (t0Bits w 10 8)
    h.v = true → h.ok = true → (h.space = 0 ∨ h.space = 2 ∨ h.space = 3) → 2#4 &&& h.rights = 2#4 → w.t4 ≠ 0 →
    rdOff w.t2 w.t3 + w.t4.toNat ≤ h.len →
    (∀ x, v = some x → w.t1.toNat + w.t4.toNat ≤ (s.handle t.did (s.domain t.did).asid x.idx).ent.len →
      ∃ d k, exec (.texport w) s = .next (s.joins d k) ∧ k.idx = t.decode ∧ k.top = 6 ∧ k.src = x.idx ∧ k.dst = rdIdx w.t2 ∧ k.irrev = true ∧
        (⟨h.space, h.base + rdOff w.t2 w.t3, w.t4.toNat, false, true⟩ : Region) ∈ k.regions ∧
        ((∃ e ∈ t.window, e.idx = x.producer) → x.producer ∈ k.deps)) ∧
    (v = none → exec (.texport w) s = .next { s.decodeFault s.curStream t.decode (1 + w.ext.length) 6 3 1 0 with free := s.free + 1 })) ∧
  (∀ (s : State) (t : Stream) (w : TaskWord), tget s.streams s.curStream = some t → ∀ fill, (fill = true → w.t3 = 0) → (fill = false → xWord w 1 6 = 0) → t0Bits w 10 21 = 0 → xWord w 1 7 = 0 →
    operandReserved w.t3 true = false → operandReserved w.t4 false = false → (fill = true ∨ w.t3.getLsbD 12 = false) → w.t4.getLsbD 12 = false →
    ∃ k, exec (if fill then .tfill w else .tcopy w) s = .next (s.joins t k) ∧ k.idx = t.decode ∧ k.state = .decoded ∧ k.irrev = true ∧
      k.dst = w.t4.extractLsb' 0 12 ∧ (fill = false → k.src = w.t3.extractLsb' 0 12) ∧ k.w = w) ∧
  (∀ (s : State) (t : Stream) (w : TaskWord), tget s.streams s.curStream = some t → ∀ fill d, Dc.copyTask fill w ⟨s, t, { Task.fresh t.decode (1 + w.ext.length) (if fill then 4 else 3) w with decodeNs := s.etime }⟩ = .ok d →
    exec (if fill then .tfill w else .tcopy w) s = .next (d.s.joins d.t d.k) ∧ d.k.idx = t.decode ∧ d.k.state = .decoded ∧ d.k.w = w) ∧
  (∀ (d : Dc) lb v loc, tget d.t.dmap lb = some v →
    (∃ e, d.useLb lb .r loc = .ok (e, v.idx) ∧ e.s = d.s ∧ tget e.t.dmap lb = some { v with readers := v.readers ++ [d.k.idx] } ∧
      e.k.renames = d.k.renames ∧ ∀ i, i ∈ e.k.deps ↔ i ∈ d.k.deps ∨ (i = v.producer ∧ ∃ k ∈ d.t.window, k.idx = i)) ∧
    (∃ e, d.useLb lb .u loc = .ok (e, v.idx) ∧ e.s = d.s ∧
      tget e.t.dmap lb = some { v with readers := v.readers ++ [d.k.idx], producer := d.k.idx } ∧
      ∀ i, i ∈ e.k.deps ↔ i ∈ d.k.deps ∨ ((i = v.producer ∨ i ∈ v.readers) ∧ ∃ k ∈ d.t.window, k.idx = i))) ∧
  (∀ (d : Dc) lb c loc (idx : BitVec 12),
    let dom := d.s.domain d.t.did
    let n := rget 0 dom.flCnt c
    let va := (rget 0 dom.flBase c).toNat + 2 * (n - 1)
    n ≠ 0 → d.s.sysPoison d.t.hub dom.asid va 2 = false → leNat (d.s.sysRead d.t.hub dom.asid va 2) = idx.toNat → d.poolOk idx c = true →
    ∃ e, d.useLb lb (.w c) loc = .ok (e, idx) ∧ rget 0 (e.s.domain d.t.did).flCnt c = n - 1 ∧ e.s.host = d.s.host ∧ e.s.peer = d.s.peer ∧
      rget 0 e.s.undef d.t.did.toNat = rget 0 d.s.undef d.t.did.toNat + classSize c ∧
      tget e.t.dmap lb = some ⟨idx, true, c, d.k.idx, []⟩ ∧ e.k.allocs = d.k.allocs ++ [(c, idx)] ∧
      e.k.releases = d.k.releases ++ releaseOf (tget d.t.dmap lb) ∧ e.k.deps = d.k.deps) ∧
  (∀ (d : Dc) lb c loc,
    let dom := d.s.domain d.t.did
    let n := rget 0 dom.flCnt c
    let va := (rget 0 dom.flBase c).toNat + 2 * (n - 1)
    n ≠ 0 → d.s.sysPoison d.t.hub dom.asid va 2 = false →
    (4096 ≤ leNat (d.s.sysRead d.t.hub dom.asid va 2) ∨ d.poolOk (BitVec.ofNat 12 (leNat (d.s.sysRead d.t.hub dom.asid va 2))) c = false) →
    d.useLb lb (.w c) loc = .error (.fault 3 2 c)) ∧
  (∀ (d : Dc) lb c loc, rget 0 (d.s.domain d.t.did).flCnt c = 0 →
    d.useLb lb (.w c) loc = if d.t.window.any (fun k => k.releases.any (fun r => r.1 == c)) then .error .wait
      else .error (.fault 4 (c + 1) c)) ∧
  (∀ (s : State) (t : Stream) (w : TaskWord), tget s.streams s.curStream = some t → ∀ pro d, Dc.launch pro w ⟨s, t, { Task.fresh t.decode (1 + w.ext.length) (if pro then 2 else 1) w with decodeNs := s.etime }⟩ = .ok d →
    exec (if pro then .trunp w else .trun w) s = .next (d.s.joins d.t d.k) ∧ d.k.idx = t.decode ∧ d.k.state = .decoded ∧
      d.k.wgcount = w.t3.toNat ∧ kdOk d.k.kdesc pro = true ∧
      ((∀ b ∈ bindSlots w, bsKind b.1 ≠ 3) → s.kernel t.hub (s.domain t.did).asid (w.t2 ++ w.t1).toNat pro = .ok d.k.kdesc) ∧
      (∀ n < 7, rget 0 d.k.args n = xWord w 1 (n + 1)) ∧
      (∀ n < 16, (∀ b ∈ bindSlots w, bsKind b.1 ≠ 0 → bsHreg b.1 ≠ n) → rget 0 d.k.handles n = kdHandle d.k.kdesc n)) ∧
  (∀ (s : State) (t : Stream) (w : TaskWord), tget s.streams s.curStream = some t → ∀ (pro : Bool) kd, t0Bits w 11 20 = 0 → w.ext = [] → w.t4 = 0 → w.t5 = 0 → w.t6 = 0 → w.t7 = 0 →
    s.kernel t.hub (s.domain t.did).asid (w.t2 ++ w.t1).toNat pro = .ok kd →
    ∃ d, Dc.launch pro w ⟨s, t, { Task.fresh t.decode (1 + w.ext.length) (if pro then 2 else 1) w with decodeNs := s.etime }⟩ = .ok d ∧
      d.s = s.sysTouch t.hub (s.domain t.did).asid (w.t2 ++ w.t1).toNat 64 .read ∧ d.t = t ∧ d.k.deps = [] ∧
      d.k.regions = []) ∧
  (∀ (s : State) (t : Stream) (w : TaskWord), tget s.streams s.curStream = some t → ∀ (pro : Bool), Dc.launch pro w ⟨s, t, { Task.fresh t.decode (1 + w.ext.length) (if pro then 2 else 1) w with decodeNs := s.etime }⟩ = .error .wait →
    exec (if pro then .trunp w else .trun w) s = .next s)

/-- A kick raises MAXTAIL and lets decoding go on. A stream whose next task can be decoded reads the 8-byte units of its entries, each once, and is decoded when all have been read. A task that may issue becomes ISSUED at once with its effect: tasks without work COMPLETE, TRUN adds its workgroups to be placed, TRUNP starts a one-lane prologue, TCOPY, TFILL and TEXPORT start a copy context, TSIG writes its word, or raises LINK where the link refuses it, TWAIT reads, TINVAL drops the translations of its range, or of all, with the lines and the owners there and nothing else, and TGATE puts the entry of a stream, or that of a handle with its rights masked, into the target's table, or takes it out, or raises GATE with POLICY; whether the policies admit it is free (log entry 22). A prologue with verdict REPEAT runs again. A task that has finished is COMPLETE; the head of the window retires in order, giving back what it releases to the free list in memory. -/
def Obligations.TasksAreIssuedCompletedAndRetired : Prop :=
  (∀ (s : State) key (t : Stream), tget s.streams key = some t → ∀ v, ∃ u q, exec (.kick key v) s = .next u ∧ u.mem = s.mem ∧ tget u.streams key = some q ∧ q.tail = max t.tail v.toNat ∧
    q.window = t.window ∧ q.head = t.head ∧ q.decode = t.decode ∧ (t.state = .idle → t.decode < v.toNat → q.state = .running)) ∧
  (∀ (s : State) key (t : Stream), tget s.streams key = some t → s.decodable t key = true →
    (List.range (1 + s.extAt t)).any (fun i => s.sysPoison t.hub (s.domain t.did).asid (t.entryVa (t.decode + i)) 32) = false →
    ∃ u q, exec (.decodeRecheck key) s = .next u ∧ tget u.streams key = some q ∧ (∀ p, s.pendingAt p = false → rdByte u.mem p = rdByte s.mem p) ∧ q = { t with got := q.got } ∧
      (∀ i v, tget t.got i = some v → tget q.got i = some v) ∧
      (∀ i v, tget q.got i = some v → tget t.got i = some v ∨ v = s.memUnit t i) ∧
      (u.turn = .stream → u.curStream = key ∧ ∀ i < 4 * (1 + s.extAt q), (tget q.got i).isSome = true) ∧
      ((∀ i < 4 * (1 + s.extAt t), (tget t.got i).isSome = true) → u.turn = .stream)) ∧
  (∀ (s : State) key (t : Stream) idx k, tget s.streams key = some t → t.task idx = some k → t.canIssue k = true → k.top = 0 ∨ k.top = 5 ∨ k.top = 7 ∨ k.top = 11 ∨ k.top = 15 ∨ (k.top = 1 ∧ k.wgcount = 0) →
    ∃ u q, exec (.taskIssue key idx) s = .next u ∧ tget u.streams key = some q ∧ (k.top ≠ 11 → u.mem = s.mem) ∧
      ∀ j, q.task idx = some j → j.state = .complete ∧ j.issueNs = s.etime) ∧
  (∀ (s : State) key (t : Stream) idx k, tget s.streams key = some t → t.task idx = some k → t.canIssue k = true → k.top = 1 → k.wgcount ≠ 0 →
    (s.markIssued key k.idx t.eff).placeTest ((s.markIssued key k.idx t.eff).newWg key t k 0) = none →
    ∃ u q, exec (.taskIssue key idx) s = .next u ∧ tget u.streams key = some q ∧ (∀ j, q.task idx = some j → j.state = .issued) ∧
      ∀ i < k.wgcount, ∃ w, tget u.wgs (s.nextId + i) = some w ∧ w.wgid = i ∧ w.state = .unplaced ∧ w.task = idx ∧ w.stream = key ∧
        w.kdesc = k.kdesc ∧ w.did = t.did ∧ w.wgcount = k.wgcount) ∧
  (∀ (s : State) key (t : Stream) idx k, tget s.streams key = some t → t.task idx = some k → t.canIssue k = true → k.top = 2 →
    (s.markIssued key k.idx t.eff).placeTest ((s.markIssued key k.idx t.eff).newWg key t k 0) = none →
    ∃ u w r, exec (.taskIssue key idx) s = .next u ∧ tget u.wgs s.nextId = some w ∧ w.pro = some 0 ∧ w.state = .resident ∧
      w.ropes = [s.nextId + 1] ∧ tget u.ropes (s.nextId + 1) = some r ∧ r.priv = .task ∧ (∃ x, r.strands = [x] ∧ x.pc = kdPro k.kdesc ∧ x.active = 1) ∧
      r.sr 10 = BitVec.ofNat 32 k.run) ∧
  (∀ (s : State) key (t : Stream) idx k, tget s.streams key = some t → t.task idx = some k → t.canIssue k = true → k.top = 3 ∨ k.top = 4 ∨ k.top = 6 →
    ∃ u c, exec (.taskIssue key idx) s = .next u ∧ tget u.ctxs s.nextId = some c ∧ c.task = some (key, idx) ∧ c.did = t.did ∧ c.pc = 0 ∧
      rget 0 c.h 0 = k.src ∧ rget 0 c.h 1 = k.dst ∧ (k.top = 6 → c.own = none ∧ c.cmd.isSome = true) ∧ (k.top ≠ 6 → c.own.isSome = true)) ∧
  (∀ (s : State) key (t : Stream) idx k, tget s.streams key = some t → t.task idx = some k → t.canIssue k = true → k.top = 9 ∨ k.top = 10 →
    ∃ u q, exec (.taskIssue key idx) s = .next u ∧ tget u.streams key = some q ∧ u.mem = s.mem ∧ ∀ j, q.task idx = some j → j.state = .issued) ∧
  (∀ (s : State) key (t : Stream) idx k, tget s.streams key = some t → t.task idx = some k → t.canIssue k = true → k.top = 8 → ∀ r, k.regions = [r] →
    let tw := (s.handle t.did (s.domain t.did).asid (rdIdx k.w.t1)).taskTarget t key s.nextId true
    tw.space = 2 →
    let v := (k.w.t5 ++ k.w.t4).toNat
    ((s.linkTakes tw r.base 8).1 = true → ∃ u, exec (.taskIssue key idx) s = .next u ∧ u.mem = s.mem ∧
      rdBytes u.host r.base 8 = leBytes 8 (if t0Bits k.w 10 2 = 1 then (leNat (rdBytes s.host r.base 8) + v) % 2 ^ 64 else v)) ∧
    ((s.linkTakes tw r.base 8).1 = false → ∃ u, exec (.taskIssue key idx) s = .next u ∧ u.host = s.host ∧
      u.faults = s.faults ++ [⟨key, idx, ⟨2, 5, 0, 0⟩, 0xFFFFFFFF, none, s.etime⟩])) ∧
  (∀ (s : State) key (t : Stream) idx k, tget s.streams key = some t → t.task idx = some k → t.canIssue k = true → k.top = 11 →
    let asid := (s.domain t.did).asid
    let va := (k.w.t2 ++ k.w.t1).toNat
    let in_ (lo n : Nat) : Prop := t0Bits k.w 10 1 = 1 ∨ 0 < k.w.t3.toNat ∧ lo < va + k.w.t3.toNat ∧ va < lo + n
    ∃ u, exec (.taskIssue key idx) s = .next u ∧
      (∀ e, e ∈ u.tlb ↔ e ∈ s.tlb ∧ ¬ (e.asid = asid ∧ in_ (65536 * e.page) 65536)) ∧
      (∀ l, l ∈ u.l2 ↔ l ∈ s.l2 ∧ ¬ (l.asid = asid ∧ in_ (128 * l.line) 128)) ∧
      (∀ l, l ∈ u.code ↔ l ∈ s.code ∧ ¬ (l.asid = asid ∧ in_ (128 * l.line) 128)) ∧
      (∀ e, e ∈ u.owners ↔ e ∈ s.owners ∧ ¬ (e.2.1 = asid ∧ in_ (65536 * e.2.2) 65536)) ∧
      (∀ p, s.pendingAt p = false → rdByte u.mem p = rdByte s.mem p) ∧
      ∃ q, tget u.streams key = some q ∧ ∀ j, q.task idx = some j → j.state = .complete) ∧
  (∀ (s : State) key (t : Stream) idx k, tget s.streams key = some t → t.task idx = some k → t.canIssue k = true → k.top = 12 →
    let tdid := k.w.t1.extractLsb' 0 16
    let tgt := (k.w.t3.extractLsb' 0 12).toNat
    let src := k.w.t2.extractLsb' 0 12
    let d := s.domain tdid
    let admits := d.valid && Config.policyAdmits t.did tdid (gateRequest k.w)
    let h := s.handle t.did (s.domain t.did).asid src
    let refused : Prop := ∃ u, exec (.taskIssue key idx) s = .next u ∧ u.domains = s.domains ∧
      u.faults = s.faults ++ [⟨key, k.idx, ⟨9, 1, 0, 0⟩, 0xFFFFFFFF, none, s.etime⟩]
    let gives (P : BitVec 256 → Prop) : Prop := ∃ u q, exec (.taskIssue key idx) s = .next u ∧ u.faults = s.faults ∧ tget u.streams key = some q ∧
      (∀ j, q.task idx = some j → j.state = .complete) ∧ P (rget 0 (u.domain tdid).handles tgt) ∧
      (∀ n, n ≠ tgt → rget 0 (u.domain tdid).handles n = rget 0 d.handles n) ∧ ∀ x, x ≠ tdid → u.domain x = s.domain x
    (admits = false → refused) ∧
    (admits = true → t0Bits k.w 11 1 = 1 → gives (fun e => e = if tget d.given tgt = some t.did then 0 else rget 0 d.handles tgt)) ∧
    (admits = true → t0Bits k.w 11 1 = 0 → t0Bits k.w 10 1 = 0 →
      (∀ y, tget s.streams (streamKey t.did src.toNat) = some y → y.valid = true → y.ringN < 2 ^ 40 → gives (fun e =>
        e.extractLsb' 0 64 = y.num.setWidth 64 ∧ (e.extractLsb' 64 48).toNat = 4096 + 32 * y.ringN ∧ e.getLsbD 128 = true ∧
        (e.extractLsb' 129 3).toNat = 4 ∧ e.extractLsb' 134 4 = 0b1011)) ∧
      ((tget s.streams (streamKey t.did src.toNat)).all (fun y => !y.valid) = true → refused)) ∧
    (admits = true → t0Bits k.w 11 1 = 0 → t0Bits k.w 10 1 = 1 →
      (h.ent.v = true → gives (fun e => e.extractLsb' 134 4 = h.raw.extractLsb' 134 4 &&& k.w.t4.extractLsb' 0 4 ∧
        ∀ i, i < 134 ∨ 138 ≤ i → e.getLsbD i = h.raw.getLsbD i)) ∧
      (h.ent.v = false → refused))) ∧
  (∀ (s : State) key (t : Stream) idx k, tget s.streams key = some t → t.task idx = some k → k.top = 2 → k.state = .issued → k.verdict = 2 → s.faulting key idx = false → s.gridDone key idx = true → k.run < 65535 →
    ∃ u w r, exec (.prologueRepeat key idx) s = .next u ∧ tget u.wgs s.nextId = some w ∧ w.pro = some 0 ∧ tget u.ropes (s.nextId + 1) = some r ∧
      r.sr 10 = BitVec.ofNat 32 (k.run + 1)) ∧
  (∀ (s : State) key (t : Stream) idx k, tget s.streams key = some t → t.task idx = some k → s.finished key t k = true → k.mapints = 0 →
    ∃ u q, exec (.taskComplete key idx) s = .next u ∧ tget u.streams key = some q ∧ (∀ j, q.task idx = some j → j.state = .complete) ∧
      u.replies = s.replies ++ (match k.halted with | some code => [Reply.halt key idx code] | none => [])) ∧
  (∀ (s : State) key (t : Stream), tget s.streams key = some t → ∀ k l, t.window = k :: l → k.state = .complete → t.mapped = true →
    ∃ u q, exec (.taskRetire key) s = .next u ∧ tget u.streams key = some q ∧ q.window = l ∧ q.decode = t.decode ∧
      q.head = (match l with | j :: _ => j.idx | [] => t.decode) ∧ q.rmap = applyRenames t.rmap k.renames ∧
      (∀ c idx, k.releases = [(c, idx)] →
        let dom := s.domain t.did
        let n := rget 0 dom.flCnt c
        n < rget 0 dom.flCap c →
        let dom1 := { dom with flCnt := rset 0 dom.flCnt c (n + 1) }
        rget 0 (u.domain t.did).flCnt c = n + 1 ∧
        u.mem = (((s.setStream key q).setDomain t.did dom1).sysWrite t.hub dom.asid ((rget 0 dom.flBase c).toNat + 2 * n) (leBytes 2 idx.toNat)).mem))

/-- A task fault makes the stream FAULTED at its task; with nothing older left, or the stream unmapped, what runs for the task and the younger ones ends, and once the stores and atomics that they have issued are performed they leave the window and the record is written. FCTL with RETRY, SKIP or DROP lets a recorded stream go on, and is ignored with action 3 or in another state. A TWAIT whose word satisfies its condition completes, and raises LINK where the link refuses its read; one past its limit, or a task past its budget, raises its fault. A task with a MAPINT that would complete is issued once more. A pending stream ages and is mapped into a free slot, or takes the slot of the victim, or is reported where it cannot be mapped; a stream is stopped, one that is FAULTED stays so (log entry 31). -/
def Obligations.FaultsLimitsAndMapping : Prop :=
  (∀ (s : State) key (t : Stream), tget s.streams key = some t → ∀ idx f, s.faults = [] → t.names idx = true → t.state ≠ .faulted → t.heldCtl = none →
    (∃ u q, exec (.taskFault key idx f) s = .next u ∧ tget u.streams key = some q ∧ q.state = .faulted ∧ q.faultIdx = idx ∧
      ((t.mapped = false ∨ ∀ k ∈ t.window, idx ≤ k.idx) →
        ((∀ e ∈ s.log, e.stream ≠ key) → q.recorded = true ∧ q.decode = idx ∧ (∀ k ∈ q.window, k.idx < idx)) ∧
        ((∃ e ∈ s.log, e.stream = key ∧ idx ≤ e.task ∧ e.orphan = true ∧ e.kind = 1 ∧ e.state = .ready) →
          q.recorded = false ∧ q.window = t.window)) ∧
      ((t.mapped = true ∧ ∃ k ∈ t.window, k.idx < idx) → q.recorded = false ∧ q.window = t.window ∧ u.faults.length = 1))) ∧
  (∀ (s : State) key (t : Stream), tget s.streams key = some t → ∀ v, (t.state ≠ .faulted ∨ v.toNat % 4 = 3) → exec (.fctl key v) s = .next { s with turn := .choose }) ∧
  (∀ (s : State) key (t : Stream), tget s.streams key = some t → ∀ v, t.state = .faulted → t.recorded = false → v.toNat % 4 ≠ 3 →
    exec (.fctl key v) s = .next { s.setStream key { t with heldCtl := some v } with turn := .choose }) ∧
  (∀ (s : State) key (t : Stream), tget s.streams key = some t → ∀ v, t.state = .faulted → t.recorded = true → v.toNat % 4 ≠ 3 →
    ∃ u q, exec (.fctl key v) s = .next u ∧ tget u.streams key = some q ∧ q.recorded = false ∧ q.heldCtl = none ∧
      q.decode = (if v.toNat % 4 = 1 then t.decode + t.faultN else if v.toNat % 4 = 2 then max t.decode t.tail else t.decode) ∧
      (q.state = .running ∨ q.state = .idle)) ∧
  (∀ (s : State) key (t : Stream) idx k, tget s.streams key = some t → t.task idx = some k → k.top = 9 → k.state = .issued → s.faulting key idx = false → ∀ r, k.regions = [r] →
    let tw := (s.handle t.did (s.domain t.did).asid (rdIdx k.w.t1)).taskTarget t key s.nextId true
    let s1 := s.onTask key idx (fun q => { q with pollNs := s.etime })
    tw.space = 2 →
    ((s1.linkTakes tw r.base 8).1 = false →
      exec (.twaitPoll key idx) s = .next { (s1.linkTakes tw r.base 8).2.taskFault key idx 2 5 0 with turn := .choose }) ∧
    ((s1.linkTakes tw r.base 8).1 = true → twaitHolds k.w (leNat (rdBytes s.host r.base 8)) = true →
      (∃ u q, exec (.twaitSatisfied key idx) s = .next u ∧ tget u.streams key = some q ∧ ∀ j, q.task idx = some j → j.state = .complete) ∧
      (∃ u q, exec (.twaitPoll key idx) s = .next u ∧ tget u.streams key = some q ∧ ∀ j, q.task idx = some j → j.state = .complete)) ∧
    ((s1.linkTakes tw r.base 8).1 = true → twaitHolds k.w (leNat (rdBytes s.host r.base 8)) = false →
      exec (.twaitPoll key idx) s = .next { (s1.linkTakes tw r.base 8).2 with turn := .choose })) ∧
  (∀ (w : TaskWord) v, v < 2 ^ 64 →
    let c := (w.t5 ++ w.t4).toNat
    let x : Int := if t0Bits w 13 1 = 1 then toSigned 64 v else v
    let y : Int := if t0Bits w 13 1 = 1 then toSigned 64 c else c
    twaitHolds w v = intCond (t0Bits w 10 3) x y) ∧
  (∀ (s : State) key (t : Stream) idx k, tget s.streams key = some t → t.task idx = some k → k.top = 9 → k.state = .issued → s.faulting key idx = false → k.w.t6 ≠ 0 → k.issueNs + 1000 * k.w.t6.toNat ≤ s.etime →
    exec (.twaitLimit key idx) s = .next { s.taskFault key idx 8 1 0 with turn := .choose }) ∧
  (∀ (s : State) key (t : Stream) idx k, tget s.streams key = some t → t.task idx = some k → k.state = .issued → s.faulting key idx = false → t.mbudget ≠ 0 → k.issueNs + 1000 * t.mbudget.toNat < s.etime →
    exec (.taskBudgetExpiry key idx) s = .next { s.taskFault key idx 8 2 0 with turn := .choose }) ∧
  (∀ (s : State) key (t : Stream) idx k, tget s.streams key = some t → t.task idx = some k → s.finished key t k = true → k.mapints ≠ 0 → (k.top = 1 ∨ k.top = 2) →
    (k.retried = true → exec (.mapintRetry key idx) s = .next { s.taskFault key idx 6 1 0 with turn := .choose }) ∧
    (k.retried = false → k.irrev = true → kdIdem k.kdesc = false →
      exec (.mapintRetry key idx) s = .next { s.taskFault key idx 6 2 0 with turn := .choose }) ∧
    (k.retried = false → (k.irrev = false ∨ kdIdem k.kdesc = true) →
      ∃ u q, exec (.mapintRetry key idx) s = .next u ∧ tget u.streams key = some q ∧
        (u.nextId = s.nextId + (if k.top = 2 then 2 else k.w.t3.toNat) ∨
          ∃ r, (⟨key, idx, ⟨11, r, 0, 0⟩, 0xFFFFFFFF, none, s.etime⟩ : FaultReq) ∈ u.faults) ∧
        ∀ j, q.task idx = some j → j.retried = true ∧ j.mapints = 0 ∧ j.state = .issued)) ∧
  (∀ (s : State) key (t : Stream), tget s.streams key = some t → ∀ j, s.firstPending key t = true → s.easySlot t = some j → (s.onSlot t.hub j).isNone = true →
    ∃ u q, exec (.streamMap key) s = .next u ∧ tget u.streams key = some q ∧ q.mapped = true ∧ q.slot = j ∧ q.pending = false ∧
      q.mappedAt = s.etime ∧ q.window = t.window ∧ q.mbudget = (if t.budOv then t.budget else (s.domain t.did).budget)) ∧
  (∀ (s : State) key (t : Stream), tget s.streams key = some t → ∀ j k o, s.firstPending key t = true → s.easySlot t = none → s.victimSlot t = some j → s.onSlot t.hub j = some (k, o) → k ≠ key →
    ∃ u q v, exec (.streamMap key) s = .next u ∧ tget u.streams key = some q ∧ q.mapped = true ∧ q.slot = j ∧
      tget u.streams k = some v ∧ v.mapped = false ∧ v.pending = true) ∧
  (∀ (s : State) key (t : Stream), tget s.streams key = some t → t.pending = true → s.mappable t = false →
    exec (.streamMap key) s = .next { s.setStream key { t with pending := false } with replies := s.replies ++ [.unmappable key], turn := .choose }) ∧
  (∀ (s : State) key (t : Stream), tget s.streams key = some t → t.pending = true → t.eff < max (s.prioOf t) (s.pcapOf t) → t.eff < s.prioOf t + (s.etime - t.since) / 1000000 →
    exec (.streamPriorityAging key) s = .next { s.setStream key { t with eff := t.eff + 1 } with turn := .choose }) ∧
  (∀ (s : State) key (t : Stream), tget s.streams key = some t → ∃ u q, exec (.streamStop key) s = .next u ∧ tget u.streams key = some q ∧ q.window = t.window ∧
    q.state = (if t.state = .faulted then .faulted else .stopped))

/-- A handle or gate entry is replaced whole. A stage-2 entry that goes leaves its frame reading zeros; one whose contents move takes the bytes along; one with W and X at once is not written. A scrubbed frame is marked; a retire sweep takes the lines, owners and root of an ASID without ropes. CAL_CTL holds; calendar writes wait for the first period that starts after them and then take effect, HOLD among them (log entry 23); slots begin in time. A partition register is written while its partitions are in reset; a write that is refused is reported and changes nothing (log entry 33). What a stage-2 change leaves of a frame, which frames a sweep waits for, and when a partition is in reset are log entry 32. A partition reset discards the streams' windows and workgroups of its domains; a cold reset leaves the reset values; a warm reset keeps the system key and leaves no rope; a die goes out of service and returns. -/
def Obligations.TablesMemoryCalendarsAndResets : Prop :=
  (∀ (s : State) did i e, ∃ u, exec (.handleUpdate did i e) s = .next u ∧ u.mem = s.mem ∧
    ∀ d j, rget 0 (u.domain d).handles j = if d = did ∧ j = i.toNat then e else rget 0 (s.domain d).handles j) ∧
  (∀ (s : State) did g e, ∃ u, exec (.gateTableUpdate did g e) s = .next u ∧ u.mem = s.mem ∧
    ∀ d j, rget 0 (u.domain d).gates j = if d = did ∧ j = g.toNat then e else rget 0 (s.domain d).gates j) ∧
  (∀ (s : State) p o, tget s.stage2 p = some o → tsorted s.mem = true →
    (∃ u, exec (.stage2Change p none false) s = .next u ∧ tget u.stage2 p = none ∧
      ∀ a, rdByte u.mem a = if a / 65536 = o.frame then 0 else rdByte s.mem a) ∧
    (∀ n, n.w = false ∨ n.x = false → s.keyUsable n.key.toNat n.frame (some o) = true → n.frame ≠ o.frame →
      ∃ u, exec (.stage2Change p (some n) true) s = .next u ∧ tget u.stage2 p = some n ∧ (∀ e ∈ u.tlb, e.ipa ≠ p) ∧
        ∀ a, rdByte u.mem a = if a / 65536 = n.frame then rdByte (s.flushFrame o.frame).mem (65536 * o.frame + a % 65536)
          else if a / 65536 = o.frame then 0 else rdByte (s.flushFrame o.frame).mem a) ∧
    (∀ n m, s.keyUsable n.key.toNat n.frame (if m then some o else none) = false →
      exec (.stage2Change p (some n) m) s = .next { s with turn := .choose }) ∧
    (∀ n m, n.w = true → n.x = true → exec (.stage2Change p (some n) m) s = .next { s with turn := .choose })) ∧
  (∀ (s : State) f, ∃ u, exec (.scrubComplete f) s = .next u ∧ f ∈ u.scrubbed ∧ u.mem = s.mem) ∧
  (∀ (s : State) a, (s.sweepReady a = true →
      ∃ u, exec (.retireSweep a) s = .next u ∧ (∀ l ∈ u.l2, l.asid ≠ a) ∧ (∀ l ∈ u.code, l.asid ≠ a) ∧ (∀ e ∈ u.tlb, e.asid ≠ a) ∧
        tget u.roots a.toNat = none ∧ u.mem = s.mem) ∧
    (s.sweepReady a = false → exec (.retireSweep a) s = .next { s with turn := .choose })) ∧
  (∀ (s : State) p v, v.toNat < 2 → ∃ u, exec (.calCtl p v) s = .next u ∧
    (u.cal p).waiting = (s.cal p).waiting ++ [(.calSlot p 64, v, s.etime / 2048)] ∧ (u.cal p).ctl = (s.cal p).ctl ∧ (u.cal p).slot = (s.cal p).slot) ∧
  (∀ (s : State) p, (s.cal p).now / 64 < s.etime / 2048 →
    ∃ u, exec (.calendarPeriodStart p) s = .next u ∧ (u.cal p).now = 64 * (s.etime / 2048) ∧
      (∀ q v n, (s.cal p).waiting = [(.calSlot q 64, v, n)] → (u.cal p).slot = (s.cal p).slot ∧
        (n < s.etime / 2048 → (u.cal p).ctl = v ∧ (u.cal p).waiting = []) ∧
        (s.etime / 2048 ≤ n → (u.cal p).ctl = (s.cal p).ctl ∧ (u.cal p).waiting = (s.cal p).waiting)) ∧
      ((s.cal p).ctl.getLsbD 0 = true → (∀ e ∈ (s.cal p).waiting, ∀ q, e.1 ≠ .calSlot q 64) →
        (u.cal p).slot = (s.cal p).slot ∧ (u.cal p).waiting = (s.cal p).waiting) ∧
      ((s.cal p).ctl.getLsbD 0 = false → ∀ q k v n, k < 64 → (s.cal p).waiting = [(.calSlot q k, v, n)] →
        (n < s.etime / 2048 → (u.cal p).waiting = [] ∧ rget 0 (u.cal p).slot k = v) ∧
        (s.etime / 2048 ≤ n → (u.cal p).waiting = (s.cal p).waiting ∧ (u.cal p).slot = (s.cal p).slot))) ∧
  (∀ (s : State) p, s.etime / 2048 = (s.cal p).now / 64 → (s.cal p).now < s.etime / 32 →
    ∃ u, exec (.calendarSlotBoundary p (s.etime / 32 % 64)) s = .next u ∧ (u.cal p).now = s.etime / 32 ∧ (u.cal p).slot = (s.cal p).slot) ∧
  (∀ (s : State) r v, regValueOk r v = true → ∃ u, exec (.registerWrite r v) s = .next u ∧
    (match r with
     | .calSlot p _ => (u.cal p).waiting = (s.cal p).waiting ++ [(r, v, s.etime / 2048)] ∧ (u.cal p).slot = (s.cal p).slot
     | .calShare p _ => (u.cal p).waiting = (s.cal p).waiting ++ [(r, v, s.etime / 2048)] ∧ (u.cal p).share = (s.cal p).share
     | _ => if (s.regParts r v).all s.inReset = true then u.reg r = v else u.partRegs = s.partRegs ∧ u.replies = s.replies ++ [.refusedWrite r])) ∧
  (∀ (s : State) r v, regValueOk r v = false →
    exec (.registerWrite r v) s = .next { s with replies := s.replies ++ [.refusedWrite r], turn := .choose }) ∧
  (∀ (s : State) p key (t : Stream), tget s.streams key = some t → (tget s.domains t.did.toNat).any (fun d => d.part == p) = true →
    (∀ e ∈ s.wgs, e.2.pro.isSome = true → 3072 ≤ e.2.core) →
    ∃ u q, exec (.partitionReset p) s = .next u ∧ tget u.streams key = some q ∧ q.state = .stopped ∧ q.window = [] ∧ q.decode = t.head ∧
      (∀ e ∈ u.wgs, (tget s.domains e.2.did.toNat).any (fun d => d.part == p) = false) ∧ p ∉ u.live ∧
      (∀ c ∈ s.partCores p, u.core c = ⟨0, s.etimePs, 0, [], [], [], [], 4, false, (s.core c).dpe, []⟩) ∧
      ∀ a, s.behindPorts p (a / 65536) = true → rdByte u.mem a = 0) ∧
  (∀ (s : State), ∃ u, exec .coldReset s = .next u ∧ u.ropes = [] ∧ u.wgs = [] ∧ u.streams = [] ∧ u.domains = [] ∧ u.mem = [] ∧ u.etimePs = 0 ∧
    u.partRegs = [] ∧ u.calendars = [] ∧ u.l2 = [] ∧ u.code = [] ∧ u.tlb = [] ∧ u.dump = [] ∧ u.host = s.host ∧ u.repairs = s.repairs ∧
    (∀ k b, tget s.repairs k = some b → tget u.arrays k = some ⟨0, b, b, [], 0, [], [], 0⟩) ∧ u.keys.map (fun e => (e.1, e.2.state)) = [(0, .valid)]) ∧
  (∀ (s : State), ∃ u, exec .warmReset s = .next u ∧ u.ropes = [] ∧ u.wgs = [] ∧ u.l2 = [] ∧ u.etimePs = s.etimePs ∧ u.partRegs = [] ∧
    u.blackBox = s.blackBox ∧ u.dump = s.dump ∧ tget u.keys 0 = tget s.keys 0 ∧ (∀ key t, tget u.streams key = some t → t.window = [] ∧ t.state = .stopped) ∧
    (∀ k d, tget u.domains k = some d → d.tdi = .unlocked)) ∧
  (∀ (s : State) die c, 384 * die ≤ c → c < 384 * die + 384 →
    (∃ u, exec (.dieOffline die) s = .next u ∧ die ∈ u.dieOff ∧ ∀ did, c ∉ u.coresOf did) ∧
    (∃ u, exec (.dieReturn die) s = .next u ∧ die ∉ u.dieOff ∧ (u.core c).cyc = 0 ∧ (u.core c).dpe = (s.core c).dpe))

/-- Each SPDM request is answered once the steps before it are done, with its own message, and a request out of order with an error that changes nothing. Inside a session KEYSET installs a key where no code of R345 refuses it, KEYDEL takes it away, an IDE key is set. A measurement that changes is recorded, the S-mode scheduler's as index 3. A doorbell write of 8 bytes in RUN is a kick. TDISP moves a TDI (log entry 21); the digests that answer are those of log entries 7 and 60, the order of KEYSET's and KEYDEL's codes log entry 33; the host writes memory. A launch packet that passes its checks is written into the ring and kicked; other frames do nothing. Errors are counted, contained and recorded; a fatal one resets; the duty is set; a file that passes the loader's checks becomes an image, which is translated, and unloaded once nothing names it; the codes and the order of those checks, and code 8 of an unload, are log entry 27, the STALLs of a translation log entry 9; what a dump holds is log entry 39. -/
def Obligations.AttestationKeysHostAndErrors : Prop :=
  (∀ (s : State) h x, let p := s.responder h
    (exec (.getVersion h) s = .next { s with spdm := tset s.spdm h ⟨true, false, false, false, false⟩, replies := s.replies ++ [.spdm h "VERSION" []], turn := .choose }) ∧
    (p.version = true → exec (.getCapabilities h) s = .next { s with spdm := tset s.spdm h { p with caps := true }, replies := s.replies ++ [.spdm h "CAPABILITIES" []], turn := .choose }) ∧
    (p.caps = true → exec (.negotiateAlgorithms h ⟨true, true, true, true⟩) s = .next { s with spdm := tset s.spdm h { p with algs := true }, replies := s.replies ++ [.spdm h "ALGORITHMS" []], turn := .choose }) ∧
    (p.algs = true → exec (.getDigests h) s = .next { s with spdm := tset s.spdm h p, replies := s.replies ++ [.spdm h "DIGESTS" [Config.bootDigest 0]], turn := .choose }) ∧
    (p.algs = true → exec (.getCertificate h 0) s = .next { s with spdm := tset s.spdm h p, replies := s.replies ++ [.spdm h "CERTIFICATE" [Config.bootDigest 0]], turn := .choose }) ∧
    (p.algs = true → exec (.challenge h x) s = .next { s with spdm := tset s.spdm h p, replies := s.replies ++ [.spdm h "CHALLENGE_AUTH" [x]], turn := .choose }) ∧
    (p.algs = true → exec (.keyExchange h false) s = .next { s with spdm := tset s.spdm h { p with keyed := true }, replies := s.replies ++ [.spdm h "KEY_EXCHANGE_RSP" []], turn := .choose }) ∧
    (p.keyed = true → exec (.finish h) s = .next { s with spdm := tset s.spdm h { p with session := true }, replies := s.replies ++ [.spdm h "FINISH_RSP" []], turn := .choose }) ∧
    (p.session = true → exec (.endSession h) s = .next { s with spdm := tset s.spdm h { p with keyed := false, session := false }, replies := s.replies ++ [.spdm h "END_SESSION_ACK" []], turn := .choose })) ∧
  (∀ (s : State) h i did, let p := s.responder h
    p.algs = true → 1 ≤ i → i ≤ 6 → (i < 5 ∨ (s.domain did).valid = true) →
    exec (.getMeasurements h i did) s = .next { s with
      spdm := tset s.spdm h p, replies := s.replies ++ [.spdm h "MEASUREMENTS" [s.digest i did]], turn := .choose }) ∧
  (∀ (s : State) h a x, let p := s.responder h
    (p.caps = false → exec (.negotiateAlgorithms h a) s = .next { s with
      spdm := tset s.spdm h p, replies := s.replies ++ [.spdm h "ERROR" []], turn := .choose }) ∧
    (p.algs = false → exec (.challenge h x) s = .next { s with
      spdm := tset s.spdm h p, replies := s.replies ++ [.spdm h "ERROR" []], turn := .choose })) ∧
  (∀ (s : State) h (r : KeySetReq), (s.responder h).session = true → 1 ≤ r.idx → r.idx ≤ 4095 → (s.keySlot r.idx).state ≠ .valid →
    s.keyNamed r.idx = false → (s.domain r.did).valid = true → s.bindingDigest r.mask r.did = r.policy →
    exec (.keyset h r) s = .next { s.takeDigests r.did with
      replies := s.replies ++ [.keyCode h 0], keys := tset s.keys r.idx ⟨.valid, r.did, r.mask, r.policy, r.key⟩, turn := .choose }) ∧
  (∀ (s : State) h i did, (s.responder h).session = true → 1 ≤ i → i ≤ 4095 → (s.keySlot i).state = .valid → (s.keySlot i).did = did →
    s.keyNamed i = false →
    exec (.keydel h i did) s = .next { s with replies := s.replies ++ [.keyCode h 0], keys := terase s.keys i, turn := .choose }) ∧
  (∀ (s : State) i did v, (∀ k q, (k, q) ∈ s.keys → q.binds i did = false) →
    ∃ u, exec (.measurementChange i did v) s = .next u ∧ u.digest i did = v ∧ u.keys = s.keys) ∧
  (∀ (s : State) v, (∀ k q, (k, q) ∈ s.keys → q.binds 3 0 = false) →
    ∃ u, exec (.schedulerReplace v) s = .next u ∧ u.digest 3 0 = v ∧ u.keys = s.keys) ∧
  (∀ (s : State) hub did (off : BitVec 15) v t, off.toNat % 8 = 0 → (s.domain did).tdi = .run →
    tget s.streams (streamKey did (off.toNat / 8)) = some t → t.valid = true →
    exec (.doorbellKick ⟨hub, did⟩ off 8 (some v)) s = exec (.kick (streamKey did (off.toNat / 8)) v) s) ∧
  (∀ (s : State) vf off n, exec (.doorbellKick vf off n none) s = .next { s with replies := s.replies ++ [.bar 0], turn := .choose }) ∧
  (∀ (s : State) did, ((s.domain did).tdi = .unlocked → ∃ u, exec (.tdispRequest did .lock) s = .next u ∧ (u.domain did).tdi = .locked) ∧
    ((s.domain did).tdi = .locked → ∃ u, exec (.tdispRequest did .start) s = .next u ∧ (u.domain did).tdi = .run) ∧
    (∃ u, exec (.tdispRequest did .stop) s = .next u ∧ (u.domain did).tdi = .unlocked) ∧
    (∃ u, exec (.tdiError did) s = .next u ∧ (u.domain did).tdi = .error ∧ u.mem = s.mem)) ∧
  (∀ (s : State) h i k, (s.responder h).session = true → i < 9 →
    exec (.ideKm h i k) s = .next { s with ide := tset s.ide (9 * h + i) k, turn := .choose }) ∧
  (∀ (s : State) (a : DWord) bs, exec (.hostWrite .host a bs) s = .next { s with host := wrBytes s.host a.toNat bs, turn := .choose }) ∧
  (∀ (s : State) asid (a : DWord) x f r w xx, s.lookup asid a.toNat .write = .ok f r w xx →
    s.hubRefused (s.hostHub asid a.toNat 1) asid a.toNat 1 = [] →
    ∃ u, exec (.hostWrite (.device asid) a [x]) s = .next u ∧ rdByte u.mem (physOf f a.toNat) = x ∧
      ∀ j, j ≠ physOf f a.toNat → s.pendingAt j = false → rdByte u.mem j = rdByte s.mem j) ∧
  (∀ (s : State) port sci (p : LaunchPkt) e t, p.ver = 1 → (s.domain p.did).valid = true → partOf (s.reg (.hubPort port)) = some (s.domain p.did).part →
    p.idx.toNat < 256 → e = rget 0 (s.domain p.did).rst p.idx.toNat → e.getLsbD 12 = true → rstNat e 13 3 = 0 → rstNat e 19 45 = 0 → p.zero = 0 →
    e.extractLsb' 64 64 = sci → p.count ≠ 0 → p.count.toNat ≤ rstNat e 16 3 → rstNat e 128 64 < p.seq.toNat → rstNat e 192 32 = 0 →
    tget s.streams (streamKey p.did (rstNat e 0 12)) = some t → t.valid = true → t.resv.toNat + p.count.toNat ≤ t.head + t.ringN →
    t.resv.toNat + p.count.toNat < 2 ^ 64 →
    ∃ u q, exec (.launchPacket port sci p) s = .next u ∧
      exec (.ethernetFrame port true ⟨sci, 0x88B5, some p⟩) s = .next u ∧
      tget u.streams (streamKey p.did (rstNat e 0 12)) = some q ∧ q.resv.toNat = t.resv.toNat + p.count.toNat ∧
      q.tail = max t.tail (t.resv.toNat + p.count.toNat) ∧ rstNat (rget 0 (u.domain p.did).rst p.idx.toNat) 128 64 = p.seq.toNat) ∧
  (∀ (s : State) port f, exec (.ethernetFrame port false f) s = .next { s with turn := .choose }) ∧
  (∀ (s : State) w, ∃ u, exec (.correctableError w) s = .next u ∧ rget 0 u.counters (hubOf w.die) = rget 0 s.counters (hubOf w.die) + 1 ∧
    (⟨s.etime, 1, w⟩ : BlackBox) ∈ (tget u.blackBox (hubOf w.die)).getD []) ∧
  (∀ (s : State) w k g, tget s.wgs k = some g → g.pro = none →
    ∃ u, exec (.uncorrectableError (.workgroup k) w) s = .next u ∧ tget u.wgs k = none ∧ u.mem = s.mem ∧
      ∀ t q, tget s.streams g.stream = some t → t.task g.task = some q → ∃ t' q', tget u.streams g.stream = some t' ∧
        t'.task g.task = some q' ∧ q'.mapints = q.mapints + 1) ∧
  (∀ (s : State) w asid n f r a x, s.lookup asid (128 * n) .read = .ok f r a x →
    ∃ u, exec (.uncorrectableError (.dataLine asid n) w) s = .next u ∧ u.poisoned (physOf f (128 * n)) = true ∧ u.mem = s.mem) ∧
  (∀ (s : State) p w, ∃ u, exec (.fatalError p false w) s = .next u ∧ Reply.dump p ∈ u.replies ∧
    (∃ d ∈ u.dump, d.part = p ∧ d.key = 0 ∧ d.counters = s.counters ∧ ∃ l, tget d.boxes (hubOf w.die) = some l ∧ (⟨s.etime, 7, w⟩ : BlackBox) ∈ l) ∧ (∀ e ∈ u.wgs, (tget s.domains e.2.did.toNat).any (fun d => d.part == p) = false)) ∧
  (∀ (s : State) w, ∃ u, exec (.thermalTrip w) s = .next u ∧ u.ropes = [] ∧ u.wgs = [] ∧ Reply.dump w.part.toNat ∈ u.replies) ∧
  (∀ (s : State) h i, exec (.blackBoxRead h i) s = .next { s with
    replies := s.replies ++ [.blackBox h ((((tget s.blackBox h).getD [])[i]?).map BlackBox.word)], turn := .choose }) ∧
  (∀ b : BlackBox, b.etime < 2 ^ 64 → (b.word.extractLsb' 0 64).toNat = b.etime ∧ b.word.extractLsb' 64 8 = b.cls ∧
    b.word.extractLsb' 72 8 = b.at_.code ∧ b.word.extractLsb' 80 4 = b.at_.die ∧ b.word.extractLsb' 84 4 = b.at_.part ∧
    b.word.extractLsb' 96 16 = b.at_.did ∧ b.word.extractLsb' 128 64 = b.at_.unit ∧ b.word.extractLsb' 192 64 = b.at_.detail) ∧
  (∀ (s : State) n p, n ≤ 100 → exec (.mapDutyUpdate ⟨none, n⟩) s = .next { s with duty := n, turn := .choose } ∧
    exec (.mapDutyUpdate ⟨some p, n⟩) s = .next { s with partDuty := rset 100 s.partDuty p n, turn := .choose }) ∧
  (∀ (s : State) did f, (loadCode f ≠ 0 → exec (.dzoLoad did f) s = .next { s with replies := s.replies ++ [.load (loadCode f)], turn := .choose }) ∧
    (loadCode f = 0 → ∃ u cs, exec (.dzoLoad did f) s = .next u ∧ tget u.images s.nextId = some (dzoImage did f cs) ∧
      cs.map (fun c => (c.kind, c.addr, c.size)) = ((dzoTable f).filter Dzo.placed).map (fun d => (d.kind, d.addr, d.size)) ∧
      u.replies = s.replies ++ [.load 0])) ∧
  (∀ (s : State) n i, tget s.images n = some i →
    (i.ported = true → exec (.choarnifTranslation n true) s = .next { s with images := tset s.images n { i with translated := true, stalls := s.portStalls i }, turn := .choose }) ∧
    (i.ported = false → exec (.choarnifTranslation n true) s = .next { s with turn := .choose }) ∧
    (exec (.choarnifTranslation n false) s = .next { s with turn := .choose }) ∧
    (s.imageBusy i = true → exec (.dzoUnload n) s = .next { s with replies := s.replies ++ [.load 8], turn := .choose }) ∧
    (s.imageBusy i = false → ∃ u, exec (.dzoUnload n) s = .next u ∧ tget u.images n = none ∧ u.replies = s.replies ++ [.load 0]))

/-- After reset no rope, workgroup, stream, domain, cache line, stage-2 entry or key but the system key exists; every register of a core reads its reset value (SCR 4, CYC 0, the partition registers); ETIME is 0; every byte of memory reads 0 and the memories are in canonical form. That an unlisted byte reads 0, the duty 100 and the epoch are the model's choices (log entries 3 and 4). -/
def Obligations.WhatAColdResetLeaves : Prop :=
  State.reset.ropes = [] ∧ State.reset.wgs = [] ∧ State.reset.streams = [] ∧ State.reset.domains = [] ∧ State.reset.l2 = [] ∧
  State.reset.stage2 = [] ∧ State.reset.tlb = [] ∧ State.reset.code = [] ∧ State.reset.log = [] ∧ State.reset.dump = [] ∧ State.reset.slots = [] ∧ State.reset.sfu = [] ∧ State.reset.ctxs = [] ∧ State.reset.poison = [] ∧
  State.reset.blackBox = [] ∧ State.reset.etimePs = 0 ∧ State.reset.keys.map (fun e => (e.1, e.2.state)) = [(0, .valid)] ∧
  (∀ c n, (State.reset.core c).scr = 4 ∧ (State.reset.core c).cyc = 0 ∧ (State.reset.core c).dpeReg n = dpeReset n) ∧
  (∀ a, rdByte State.reset.mem a = 0) ∧ State.reset.MemWf

/-- From every state whose package, host and peer memories list strictly rising addresses and no byte that equals what an unlisted address reads as, every step that answers a next state answers one whose memories are so too. -/
def Obligations.MemoriesStayCanonical : Prop :=
  ∀ s t : State, s.MemWf → step s = .next t → t.MemWf

/-- Where the turn is a rope unit's whose fetch passes its checks and whose bytes decode to an instruction, the step is exec of it on the state whose instruction levels hold its lines, the turn given back where exec leaves it; a fetch or a decode that fails takes its trap, for the lanes of its guard where its first word can be read (RESERVED where it does not decode), a poisoned line of a prologue is fatal, and one whose translation fails asks the Herey controller. A copy context's turn runs its copy word, where the homes that read it have combined their partial values, a stream's the task at its decode index, an event's that event. With no turn given the step chooses one. -/
def Obligations.AStepRunsTheDecodedInstruction : Prop :=
  let back (t : Turn) (o : Host.Outcome State Fault Refusal) : Host.Outcome State Fault Refusal :=
    match o with
    | .next u => .next (if u.turn = t then { u with turn := .choose } else u)
    | o => o
  (∀ (s : State) r, s.turn = .rope → tget s.ropes s.cur = some r → r.unitLanes s.curUnit ≠ 0 →
    (s.proPoisoned s.curUnit r = true → step s = .next { s.fatalFor (s.domain r.did).part with turn := .choose }) ∧
    (s.proPoisoned s.curUnit r = false →
    (∀ i, s.fetchCheck s.cur s.curUnit r = .ok → s.decodeAt r (r.unitPc s.curUnit).toNat = .ok i →
      step s = back .rope (exec i (s.fetchFill s.curUnit r))) ∧
    (∀ cause reason info off addr, s.fetchCheck s.cur s.curUnit r = .fault (cause, reason, info, off, addr) →
      step s = back .rope (.next (s.fetchRaise s.cur s.curUnit r ⟨cause, reason, if s.fetchAt s.cur s.curUnit r (r.unitPc s.curUnit) r.codeUnit == .ok then s.rawActive r s.curUnit else r.unitLanes s.curUnit,
        info, off, addr⟩))) ∧
    (∀ reason va, s.fetchCheck s.cur s.curUnit r = .miss reason va → step s = .next { s.askFetch s.cur s.curUnit r reason va with turn := .choose }) ∧
    (s.fetchCheck s.cur s.curUnit r = .asked → step s = .next { s with turn := .choose }) ∧
    (∀ e, s.fetchCheck s.cur s.curUnit r = .ok → s.decodeAt r (r.unitPc s.curUnit).toNat = .error e →
      step s = back .rope (.next (s.fetchRaise s.cur s.curUnit r ⟨1, 1, s.rawActive r s.curUnit, 0, 0, 0⟩))))) ∧
  (∀ (s : State) c, s.turn = .copy → tget s.ctxs s.curCtx = some c → c.next = none →
    (∀ i, s.copyFetchFault c = none → decodeCopy (s.copyWordAt c).1 (s.copyWordAt c).2 = .ok i → step s = back .copy (exec i (s.codeRead (s.domain c.did).asid c.pc.toNat (copyLen (s.copyWordAt c).1)))) ∧
    (∀ cause reason va, s.copyFetchFault c = some (cause, reason, va) →
      step s = .next (if 16 ≤ reason then { s.copyFault s.curCtx cause (reason - 16) (BitVec.ofNat 64 va) with turn := .choose }
        else { s with turn := .choose })) ∧
    (∀ e, s.copyFetchFault c = none → decodeCopy (s.copyWordAt c).1 (s.copyWordAt c).2 = .error e →
      step s = .next { s.copyFault s.curCtx 1 1 with turn := .choose })) ∧
  (∀ (s : State) c i, s.turn = .copy → tget s.ctxs s.curCtx = some c → c.next = some i → step s = back .copy (exec i s)) ∧
  (∀ (s : State) t i, s.turn = .stream → tget s.streams s.curStream = some t → s.taskAt t = .ok i → step s = back .stream (exec i s)) ∧
  (∀ (s : State) i, s.turn = .event i → step s = back (.event i) (exec i s)) ∧
  (∀ s : State, s.turn = .choose → step s = .next s.choose)

/-- Words that the manual prints with their fields decode to the instructions they stand for: MOV with a map, MATCH, PLOP, RED.ADD with and without a CW, ICMP with an immediate, ST.N64, TREC.RD, PACK, and the Choarnif word of IADD.S32. -/
def Obligations.WordsDecodeToTheirInstructions : Prop :=
  decodeWords [0x2007000100020428] = .ok (.mov ⟨2, 0, 2, 0, 1, 0, 7, false, 0, false, 0, true, false, .native none⟩) ∧
  decodeWords [0x000700040405050C] = .ok (.matchN32 ⟨2, 0, 5, 4, 4, 0, 7, false, 0, false, 0, false, false, .native none⟩) ∧
  decodeWords [0x00072001033A001E] = .ok (.plop ⟨0, 0, 58, 3, 1, 32, 7, false, 0, false, 0, false, false, .native none⟩) ∧
  decodeWords [0x00020907010001B0] = .ok (.redAddN32 ⟨0, 0, 0, 1, 7, 9, 2, false, 0, false, 0, false, false, .native none⟩) ∧
  decodeWords [0x00020914010081B0, 0x0000000000000004] = .ok (.redAddN32 ⟨0, 0, 0, 1, 20, 9, 2, false, 0, false, 0, false, false, .native (some ⟨4, 0, 0, 0, 0, false, false⟩)⟩) ∧
  decodeWords [0x0007030004118015, 0x0000000000010000] = .ok (.icmpN32 ⟨0, 0, 17, 4, 0, 3, 7, false, 0, false, 0, false, false, .native (some ⟨65536, 0, 0, 0, 0, false, false⟩)⟩) ∧
  decodeWords [0x0007011E0114818B, 0x0000000000000020] = .ok (.stN64 ⟨0, 0, 20, 1, 30, 1, 7, false, 0, false, 0, false, false, .native (some ⟨32, 0, 0, 0, 0, false, false⟩)⟩) ∧
  decodeWords [0x00070000003C01DC] = .ok (.trecRd ⟨0, 0, 60, 0, 0, 0, 7, false, 0, false, 0, false, false, .native none⟩) ∧
  decodeWords [0x00070011101402D9] = .ok (.packBf16 ⟨1, 0, 20, 16, 17, 0, 7, false, 0, false, 0, false, false, .native none⟩) ∧
  decodeChoarnif 0x72431400 none = .ok (.iaddS32 ⟨0, 0, 5, 3, 9, 0, 7, false, 0, false, 0, false, false, .choarnif none⟩)

/-- For every well-formed instruction, with every operand at every value its encoding admits: the words the encoder gives decode to it. So for native words, Choarnif words, copy words with their shape record, and task entries. -/
def Obligations.EncodedInstructionsDecodeToThemselves : Prop :=
  (∀ (i : Instr) ws, i.WellFormed → encode i = some ws → decodeWords ws = .ok i) ∧
  (∀ (i : Instr) c0 c1, i.WellFormed → encodeChoarnif i = some (c0, c1) → decodeChoarnif c0 c1 = .ok i) ∧
  (∀ (i : Instr) co cw sh w, i.WellFormed → i.copy? = some (co, cw, some sh) → encodeCopy i = some w → decodeCopy w sh = .ok i) ∧
  (∀ (i : Instr) co cw sh w, i.WellFormed → i.copy? = some (co, cw, none) → encodeCopy i = some w → decodeCopy w sh = .ok i) ∧
  (∀ (i : Instr) e ext, i.WellFormed → encodeTask i = some (e :: ext) → decodeTask e ext = .ok i)

/-- Whatever the decoders accept is well formed, and the encoder gives back the very words it was read from: no bit of a native, Choarnif, copy or task word is ignored, and no two words stand for one instruction. -/
def Obligations.DecodingKeepsEveryBit : Prop :=
  (∀ ws i, decodeWords ws = .ok i → i.WellFormed ∧ encode i = some (ws.take (iwLength (ws.headD 0) / 8))) ∧
  (∀ c0 c1 i, decodeChoarnif c0 c1 = .ok i → i.WellFormed ∧ encodeChoarnif i = some (c0, if c0.getLsbD 9 then c1 else none)) ∧
  (∀ w sh i, decodeCopy w sh = .ok i → i.WellFormed ∧ encodeCopy i = some w) ∧
  (∀ e ext i, decodeTask e ext = .ok i → i.WellFormed ∧ encodeTask i = some (e :: ext))

/-- Whatever the state, each of these instructions either is not ready and leaves the state as it is, or ends a prologue that may not hold it, or takes a trap, or asks for the translation that its target lacks and stays where it is, or leaves every memory, rope but its own, workgroup, stream, domain, table and register as it is: only its lanes' PCs and schedule, its results in flight, its core's clock and issue record, the map arrays, a prologue's count, with a read of CYC outside isolation the count that isolation goes on from, and with a WAITC of limits 0 the marks of the rope's accesses, change; where a fenced array holds the quadrant, what runs in it is later. The results go to the destination registers and p6, in lanes of ACTIVE. -/
def Obligations.RegisterInstructionsChangeNothingElse : Prop :=
  ChangesOnlyRegisters .iaddS32 0x000 ∧
  ChangesOnlyRegisters .iaddN32 0x001 ∧
  ChangesOnlyRegisters .isubS32 0x002 ∧
  ChangesOnlyRegisters .isubN32 0x003 ∧
  ChangesOnlyRegisters .iaddS64 0x004 ∧
  ChangesOnlyRegisters .iaddN64 0x005 ∧
  ChangesOnlyRegisters .isubS64 0x006 ∧
  ChangesOnlyRegisters .isubN64 0x007 ∧
  ChangesOnlyRegisters .iaddS16 0x008 ∧
  ChangesOnlyRegisters .iaddN16 0x009 ∧
  ChangesOnlyRegisters .isubS16 0x00A ∧
  ChangesOnlyRegisters .isubN16 0x00B ∧
  ChangesOnlyRegisters .iaddS8 0x00C ∧
  ChangesOnlyRegisters .iaddN8 0x00D ∧
  ChangesOnlyRegisters .isubS8 0x00E ∧
  ChangesOnlyRegisters .isubN8 0x00F ∧
  ChangesOnlyRegisters .iminS32 0x010 ∧
  ChangesOnlyRegisters .iminN32 0x011 ∧
  ChangesOnlyRegisters .imaxS32 0x012 ∧
  ChangesOnlyRegisters .imaxN32 0x013 ∧
  ChangesOnlyRegisters .icmpS32 0x014 ∧
  ChangesOnlyRegisters .icmpN32 0x015 ∧
  ChangesOnlyRegisters .icmpS64 0x016 ∧
  ChangesOnlyRegisters .icmpN64 0x017 ∧
  ChangesOnlyRegisters .andB 0x018 ∧
  ChangesOnlyRegisters .orB 0x019 ∧
  ChangesOnlyRegisters .xorB 0x01A ∧
  ChangesOnlyRegisters .andnB 0x01B ∧
  ChangesOnlyRegisters .notB 0x01C ∧
  ChangesOnlyRegisters .bitmix 0x01D ∧
  ChangesOnlyRegisters .plop 0x01E ∧
  ChangesOnlyRegisters .prds 0x01F ∧
  ChangesOnlyRegisters .shlN32 0x020 ∧
  ChangesOnlyRegisters .shrN32 0x021 ∧
  ChangesOnlyRegisters .shrS32 0x022 ∧
  ChangesOnlyRegisters .rolN32 0x023 ∧
  ChangesOnlyRegisters .shlN64 0x024 ∧
  ChangesOnlyRegisters .shrN64 0x025 ∧
  ChangesOnlyRegisters .shrS64 0x026 ∧
  ChangesOnlyRegisters .pwrs 0x027 ∧
  ChangesOnlyRegisters .mov 0x028 ∧
  ChangesOnlyRegisters .mov64 0x029 ∧
  ChangesOnlyRegisters .sel 0x02A ∧
  ChangesOnlyRegisters .sel64 0x02B ∧
  ChangesOnlyRegisters .leaN32 0x02C ∧
  ChangesOnlyRegisters .leaN64 0x02D ∧
  ChangesOnlyRegisters .imulS32 0x040 ∧
  ChangesOnlyRegisters .imulN32 0x041 ∧
  ChangesOnlyRegisters .imulhS32 0x042 ∧
  ChangesOnlyRegisters .imulhN32 0x043 ∧
  ChangesOnlyRegisters .imulS16 0x044 ∧
  ChangesOnlyRegisters .imulN16 0x045 ∧
  ChangesOnlyRegisters .imulS8 0x046 ∧
  ChangesOnlyRegisters .imulN8 0x047 ∧
  ChangesOnlyRegisters .imadS32 0x048 ∧
  ChangesOnlyRegisters .imadN32 0x049 ∧
  ChangesOnlyRegisters .imadS16 0x04A ∧
  ChangesOnlyRegisters .imadN16 0x04B ∧
  ChangesOnlyRegisters .idpS8 0x04C ∧
  ChangesOnlyRegisters .idpN8 0x04D ∧
  ChangesOnlyRegisters .idpN4 0x04E ∧
  ChangesOnlyRegisters .imulS64 0x050 ∧
  ChangesOnlyRegisters .imulN64 0x051 ∧
  ChangesOnlyRegisters .imulhS64 0x052 ∧
  ChangesOnlyRegisters .imulhN64 0x053 ∧
  ChangesOnlyRegisters .idivS32 0x054 ∧
  ChangesOnlyRegisters .idivN32 0x055 ∧
  ChangesOnlyRegisters .iremS32 0x056 ∧
  ChangesOnlyRegisters .iremN32 0x057 ∧
  ChangesOnlyRegisters .idivS64 0x058 ∧
  ChangesOnlyRegisters .idivN64 0x059 ∧
  ChangesOnlyRegisters .iremS64 0x05A ∧
  ChangesOnlyRegisters .iremN64 0x05B ∧
  ChangesOnlyRegisters .popcN32 0x060 ∧
  ChangesOnlyRegisters .clzN32 0x061 ∧
  ChangesOnlyRegisters .ctzN32 0x062 ∧
  ChangesOnlyRegisters .brevN32 0x063 ∧
  ChangesOnlyRegisters .bfeS32 0x064 ∧
  ChangesOnlyRegisters .bfeN32 0x065 ∧
  ChangesOnlyRegisters .bfiN32 0x066 ∧
  ChangesOnlyRegisters .faddF32 0x080 ∧
  ChangesOnlyRegisters .fsubF32 0x081 ∧
  ChangesOnlyRegisters .fmulF32 0x082 ∧
  ChangesOnlyRegisters .ffmaF32 0x083 ∧
  ChangesOnlyRegisters .fminF32 0x084 ∧
  ChangesOnlyRegisters .fmaxF32 0x085 ∧
  ChangesOnlyRegisters .fcmpF32 0x086 ∧
  ChangesOnlyRegisters .fclassF32 0x087 ∧
  ChangesOnlyRegisters .faddF16 0x088 ∧
  ChangesOnlyRegisters .fsubF16 0x089 ∧
  ChangesOnlyRegisters .fmulF16 0x08A ∧
  ChangesOnlyRegisters .ffmaF16 0x08B ∧
  ChangesOnlyRegisters .fminF16 0x08C ∧
  ChangesOnlyRegisters .fmaxF16 0x08D ∧
  ChangesOnlyRegisters .fcmpF16 0x08E ∧
  ChangesOnlyRegisters .fclassF16 0x08F ∧
  ChangesOnlyRegisters .faddBf16 0x090 ∧
  ChangesOnlyRegisters .fsubBf16 0x091 ∧
  ChangesOnlyRegisters .fmulBf16 0x092 ∧
  ChangesOnlyRegisters .ffmaBf16 0x093 ∧
  ChangesOnlyRegisters .fminBf16 0x094 ∧
  ChangesOnlyRegisters .fmaxBf16 0x095 ∧
  ChangesOnlyRegisters .fcmpBf16 0x096 ∧
  ChangesOnlyRegisters .fclassBf16 0x097 ∧
  ChangesOnlyRegisters .faddF64 0x098 ∧
  ChangesOnlyRegisters .fsubF64 0x099 ∧
  ChangesOnlyRegisters .fmulF64 0x09A ∧
  ChangesOnlyRegisters .ffmaF64 0x09B ∧
  ChangesOnlyRegisters .fminF64 0x09C ∧
  ChangesOnlyRegisters .fmaxF64 0x09D ∧
  ChangesOnlyRegisters .fcmpF64 0x09E ∧
  ChangesOnlyRegisters .fclassF64 0x09F ∧
  ChangesOnlyRegisters .faccN4 0x0A0 ∧
  ChangesOnlyRegisters .faccS8 0x0A1 ∧
  ChangesOnlyRegisters .faccN8 0x0A2 ∧
  ChangesOnlyRegisters .faccE2m1 0x0A3 ∧
  ChangesOnlyRegisters .faccE4m3 0x0A4 ∧
  ChangesOnlyRegisters .faccE5m2 0x0A5 ∧
  ChangesOnlyRegisters .cvtF32F16 0x0C0 ∧
  ChangesOnlyRegisters .cvtF32Bf16 0x0C1 ∧
  ChangesOnlyRegisters .cvtF16F32 0x0C2 ∧
  ChangesOnlyRegisters .cvtBf16F32 0x0C3 ∧
  ChangesOnlyRegisters .cvtF64F32 0x0C4 ∧
  ChangesOnlyRegisters .cvtF32F64 0x0C5 ∧
  ChangesOnlyRegisters .cvtF32E4m3 0x0C6 ∧
  ChangesOnlyRegisters .cvtF32E5m2 0x0C7 ∧
  ChangesOnlyRegisters .cvtE4m3F32 0x0C8 ∧
  ChangesOnlyRegisters .cvtE5m2F32 0x0C9 ∧
  ChangesOnlyRegisters .cvtF32E2m1 0x0CA ∧
  ChangesOnlyRegisters .cvtE2m1F32 0x0CB ∧
  ChangesOnlyRegisters .cvtF32S32 0x0CC ∧
  ChangesOnlyRegisters .cvtF32N32 0x0CD ∧
  ChangesOnlyRegisters .cvtS32F32 0x0CE ∧
  ChangesOnlyRegisters .cvtN32F32 0x0CF ∧
  ChangesOnlyRegisters .cvtF64S64 0x0D0 ∧
  ChangesOnlyRegisters .cvtF64N64 0x0D1 ∧
  ChangesOnlyRegisters .cvtS64F64 0x0D2 ∧
  ChangesOnlyRegisters .cvtN64F64 0x0D3 ∧
  ChangesOnlyRegisters .cvtF64S32 0x0D4 ∧
  ChangesOnlyRegisters .cvtS32F64 0x0D5 ∧
  ChangesOnlyRegisters .frndF32 0x0D6 ∧
  ChangesOnlyRegisters .frndF64 0x0D7 ∧
  ChangesOnlyRegisters .packF16 0x0D8 ∧
  ChangesOnlyRegisters .packBf16 0x0D9 ∧
  ChangesOnlyRegisters .packE4m3 0x0DA ∧
  ChangesOnlyRegisters .packE5m2 0x0DB ∧
  ChangesOnlyRegisters .packE2m1 0x0DC ∧
  ChangesOnlyRegisters .packS16 0x0DD ∧
  ChangesOnlyRegisters .packN16 0x0DE ∧
  ChangesOnlyRegisters .packS8 0x0DF ∧
  ChangesOnlyRegisters .packN8 0x0E0 ∧
  ChangesOnlyRegisters .packN4 0x0E1 ∧
  ChangesOnlyRegisters .mapq 0x102 ∧
  ChangesOnlyRegisters .shfl 0x108 ∧
  ChangesOnlyRegisters .bcast 0x109 ∧
  ChangesOnlyRegisters .rdlane 0x10A ∧
  ChangesOnlyRegisters .wrlane 0x10B ∧
  ChangesOnlyRegisters .matchN32 0x10C ∧
  ChangesOnlyRegisters .matchN64 0x10D ∧
  ChangesOnlyRegisters .bra 0x140 ∧
  ChangesOnlyRegisters .call 0x141 ∧
  ChangesOnlyRegisters .jmpi 0x142 ∧
  ChangesOnlyRegisters .calli 0x143 ∧
  ChangesOnlyRegisters .ret 0x144 ∧
  ChangesOnlyRegisters .yield 0x14A ∧
  ChangesOnlyRegisters .nop 0x14B ∧
  ChangesOnlyRegisters .voteAny 0x158 ∧
  ChangesOnlyRegisters .voteAll 0x159 ∧
  ChangesOnlyRegisters .voteBal 0x15A ∧
  ChangesOnlyRegisters .waitc 0x160 ∧
  ChangesOnlyRegisters .cpq 0x1D2 ∧
  ChangesOnlyRegisters .sread 0x1DA ∧
  ChangesOnlyRegisters .trecRd 0x1DC ∧
  ChangesOnlyRegisters .sysrd 0x1E0
end

