-- ==== Sys2Proof/Laws/Tables.lean ====
section
/-! SUPPORT. The laws of the sparse tables: reading after writing, and the canonical form that every memory operation keeps. -/

namespace Sys2Proof.Machine

variable {α : Type}

theorem tget_terase (t : Tbl α) (k j : Nat) : tget (terase t k) j = if j = k then none else tget t j := by
  induction t with
  | nil => simp [terase, tget]
  | cons p r ih =>
    obtain ⟨a, v⟩ := p
    by_cases hk : a = k
    · subst hk
      by_cases hj : j = a
      · subst hj; simpa [terase] using ih
      · simp [terase, tget, ih, hj, Ne.symm hj]
    · by_cases hj : a = j
      · subst hj; simp [terase, tget, hk]
      · simp [terase, tget, hk, hj, ih]

theorem tget_tins (t : Tbl α) (k j : Nat) (v : α) (h : tget t k = none) :
    tget (tins k v t) j = if j = k then some v else tget t j := by
  induction t with
  | nil =>
    by_cases hj : j = k
    · simp [tins, tget, hj]
    · simp [tins, tget, hj, Ne.symm hj]
  | cons p r ih =>
    obtain ⟨a, w⟩ := p
    have ha : a ≠ k := by intro e; simp [tget, e] at h
    have hr : tget r k = none := by simpa [tget, ha] using h
    by_cases hlt : k < a
    · by_cases hj : j = k
      · subst hj; simp [tins, tget, hlt]
      · simp [tins, tget, hlt, hj, Ne.symm hj]
    · by_cases hj : a = j
      · subst hj; simp [tins, tget, hlt, ha]
      · simp [tins, tget, hlt, hj, ih hr]

/-- Reading a table after one key has been written. -/
theorem tget_tset (t : Tbl α) (k j : Nat) (v : α) : tget (tset t k v) j = if j = k then some v else tget t j := by
  unfold tset
  rw [tget_tins _ _ _ _ (by rw [tget_terase]; simp), tget_terase]
  by_cases hj : j = k <;> simp [hj]

/-- A table whose entries are changed, but for their keys. -/
theorem tget_map_fst {β : Type} (t : Tbl α) (g : Nat × α → Nat × β) (hg : ∀ p, (g p).1 = p.1) (j : Nat) :
    tget (t.map g) j = (tget t j).map (fun v => (g (j, v)).2) := by
  induction t with
  | nil => rfl
  | cons p t ih =>
    obtain ⟨k, v⟩ := p
    have hk : g (k, v) = (k, (g (k, v)).2) := Prod.ext (hg (k, v)) rfl
    simp only [List.map_cons]
    rw [hk]
    simp only [tget]
    by_cases h : k = j
    · simp [h]
    · simp only [h, if_false]; exact ih

/-- A table whose values are changed by key. -/
theorem tget_map {β : Type} (t : Tbl α) (g : Nat → α → β) (j : Nat) :
    tget (t.map (fun ((k, v) : Nat × α) => (k, g k v))) j = (tget t j).map (g j) := by
  induction t with
  | nil => rfl
  | cons p t ih =>
    obtain ⟨k, v⟩ := p
    simp only [List.map_cons, tget]
    by_cases h : k = j
    · simp [h]
    · simp only [h, if_false]; exact ih

@[simp] theorem tget_tset_same (t : Tbl α) (k : Nat) (v : α) : tget (tset t k v) k = some v := by simp [tget_tset]

theorem tget_tset_ne (t : Tbl α) {k j : Nat} (v : α) (h : j ≠ k) : tget (tset t k v) j = tget t j := by simp [tget_tset, h]

/-- Reading a register table after one register has been written. -/
theorem rget_rset [DecidableEq α] (d : α) (t : Tbl α) (k j : Nat) (v : α) :
    rget d (rset d t k v) j = if j = k then v else rget d t j := by
  unfold rget rset
  by_cases hv : v = d
  · by_cases hj : j = k <;> simp [hv, tget_terase, hj]
  · by_cases hj : j = k <;> simp [hv, tget_tset, hj]

@[simp] theorem rget_rset_same [DecidableEq α] (d : α) (t : Tbl α) (k : Nat) (v : α) : rget d (rset d t k v) k = v := by
  simp [rget_rset]

theorem rget_rset_ne [DecidableEq α] (d : α) (t : Tbl α) {k j : Nat} (v : α) (h : j ≠ k) :
    rget d (rset d t k v) j = rget d t j := by simp [rget_rset, h]

/-! Sorted keys. -/

theorem tsortedAbove_mono {lo hi : Nat} {t : Tbl α} (h : tsortedAbove hi t = true) (hl : lo ≤ hi) :
    tsortedAbove lo t = true := by
  cases t with
  | nil => rfl
  | cons p r =>
    obtain ⟨a, v⟩ := p
    simp only [tsortedAbove, Bool.and_eq_true, decide_eq_true_eq] at h ⊢
    exact ⟨by omega, h.2⟩

theorem tsorted_of_above {lo : Nat} {t : Tbl α} (h : tsortedAbove lo t = true) : tsorted t = true := by
  cases t with
  | nil => rfl
  | cons p r =>
    obtain ⟨a, v⟩ := p
    simp only [tsortedAbove, Bool.and_eq_true] at h
    simpa [tsorted] using h.2

theorem tsortedAbove_terase {lo : Nat} {t : Tbl α} (h : tsortedAbove lo t = true) (k : Nat) :
    tsortedAbove lo (terase t k) = true := by
  induction t generalizing lo with
  | nil => rfl
  | cons p r ih =>
    obtain ⟨a, v⟩ := p
    simp only [tsortedAbove, Bool.and_eq_true, decide_eq_true_eq] at h
    by_cases hk : a = k
    · simpa [terase, hk] using ih (tsortedAbove_mono h.2 (by omega))
    · simp [terase, hk, tsortedAbove, h.1, ih h.2]

theorem tsorted_terase {t : Tbl α} (h : tsorted t = true) (k : Nat) : tsorted (terase t k) = true := by
  cases t with
  | nil => rfl
  | cons p r =>
    obtain ⟨a, v⟩ := p
    have hr : tsortedAbove a r = true := by simpa [tsorted] using h
    by_cases hk : a = k
    · simpa [terase, hk] using tsorted_of_above (tsortedAbove_terase hr k)
    · simpa [terase, hk, tsorted] using tsortedAbove_terase hr k

theorem tsortedAbove_tins {lo k : Nat} {t : Tbl α} (v : α) (h : tsortedAbove lo t = true) (hl : lo < k)
    (hn : tget t k = none) : tsortedAbove lo (tins k v t) = true := by
  induction t generalizing lo with
  | nil => simp [tins, tsortedAbove, hl]
  | cons p r ih =>
    obtain ⟨a, w⟩ := p
    have ha : a ≠ k := by intro e; simp [tget, e] at hn
    have hr : tget r k = none := by simpa [tget, ha] using hn
    simp only [tsortedAbove, Bool.and_eq_true, decide_eq_true_eq] at h
    by_cases hlt : k < a
    · simp [tins, hlt, tsortedAbove, hl, h.2]
    · simp [tins, hlt, tsortedAbove, h.1, ih h.2 (by omega) hr]

theorem tsorted_tset {t : Tbl α} (h : tsorted t = true) (k : Nat) (v : α) : tsorted (tset t k v) = true := by
  unfold tset
  have he := tsorted_terase h k
  have hn : tget (terase t k) k = none := by rw [tget_terase]; simp
  generalize terase t k = u at he hn
  cases u with
  | nil => simp [tins, tsorted, tsortedAbove]
  | cons p r =>
    obtain ⟨a, w⟩ := p
    have ha : a ≠ k := by intro e; simp [tget, e] at hn
    have hr : tget r k = none := by simpa [tget, ha] using hn
    have hs : tsortedAbove a r = true := by simpa [tsorted] using he
    by_cases hlt : k < a
    · simp [tins, hlt, tsorted, tsortedAbove, hs]
    · simpa [tins, hlt, tsorted] using tsortedAbove_tins v hs (by omega) hr

theorem tsortedAbove_filter {lo : Nat} {t : Tbl α} (p : Nat × α → Bool) (h : tsortedAbove lo t = true) :
    tsortedAbove lo (t.filter p) = true := by
  induction t generalizing lo with
  | nil => rfl
  | cons q r ih =>
    obtain ⟨a, v⟩ := q
    simp only [tsortedAbove, Bool.and_eq_true, decide_eq_true_eq] at h
    by_cases hp : p (a, v)
    · simp [hp, tsortedAbove, h.1, ih h.2]
    · simpa [hp] using ih (tsortedAbove_mono h.2 (by omega))

theorem tsorted_filter {t : Tbl α} (p : Nat × α → Bool) (h : tsorted t = true) : tsorted (t.filter p) = true := by
  cases t with
  | nil => rfl
  | cons q r =>
    obtain ⟨a, v⟩ := q
    have hr : tsortedAbove a r = true := by simpa [tsorted] using h
    by_cases hp : p (a, v)
    · simpa [hp, tsorted] using tsortedAbove_filter p hr
    · simpa [hp] using tsorted_of_above (tsortedAbove_filter p hr)

theorem all_terase {t : Tbl α} {p : Nat × α → Bool} (h : t.all p = true) (k : Nat) : (terase t k).all p = true := by
  induction t with
  | nil => rfl
  | cons q r ih =>
    obtain ⟨a, v⟩ := q
    simp only [List.all_cons, Bool.and_eq_true] at h
    by_cases hk : a = k
    · simpa [terase, hk] using ih h.2
    · simp only [terase, hk, if_false, List.all_cons, Bool.and_eq_true]
      exact ⟨h.1, ih h.2⟩

theorem all_tins {t : Tbl α} {p : Nat × α → Bool} (h : t.all p = true) (k : Nat) (v : α) (hv : p (k, v) = true) :
    (tins k v t).all p = true := by
  induction t with
  | nil => simp [tins, hv]
  | cons q r ih =>
    obtain ⟨a, w⟩ := q
    simp only [List.all_cons, Bool.and_eq_true] at h
    by_cases hlt : k < a
    · simp only [tins, hlt, if_true, List.all_cons, Bool.and_eq_true]
      exact ⟨hv, h⟩
    · simp only [tins, hlt, if_false, List.all_cons, Bool.and_eq_true]
      exact ⟨h.1, ih h.2⟩

/-! Memories. -/

/-- The empty memory is canonical. -/
theorem Memory.wf_nil : Memory.wf [] = true := rfl

/-- Writing one byte keeps the canonical form. -/
theorem Memory.wf_wrByte {m : Tbl Byte} (h : Memory.wf m = true) (a : Nat) (v : Byte) : Memory.wf (wrByte m a v) = true := by
  simp only [Memory.wf, Bool.and_eq_true] at h ⊢
  unfold wrByte rset
  by_cases hv : v = 0
  · simp only [hv, if_true]
    exact ⟨tsorted_terase h.1 a, all_terase h.2 a⟩
  · simp only [hv, if_false]
    exact ⟨tsorted_tset h.1 a v, all_tins (all_terase h.2 a) a v (by simpa using hv)⟩

/-- Writing bytes keeps the canonical form. -/
theorem Memory.wf_wrBytes {m : Tbl Byte} (h : Memory.wf m = true) (a : Nat) (bs : List Byte) :
    Memory.wf (wrBytes m a bs) = true := by
  induction bs generalizing m a with
  | nil => exact h
  | cons b bs ih => exact ih (Memory.wf_wrByte h a b) (a + 1)

/-- Dropping entries keeps the canonical form. -/
theorem Memory.wf_filter {m : Tbl Byte} (h : Memory.wf m = true) (p : Nat × Byte → Bool) :
    Memory.wf (m.filter p) = true := by
  simp only [Memory.wf, Bool.and_eq_true] at h ⊢
  refine ⟨tsorted_filter p h.1, ?_⟩
  rw [List.all_eq_true] at h ⊢
  intro x hx
  exact h.2 x (List.mem_filter.mp hx).1

/-- Dropping a range keeps the canonical form. -/
theorem Memory.wf_dropRange {m : Tbl Byte} (h : Memory.wf m = true) (lo n : Nat) : Memory.wf (dropRange m lo n) = true :=
  Memory.wf_filter h _

/-- A read after a write of one byte. -/
theorem rdByte_wrByte (m : Tbl Byte) (a b : Nat) (v : Byte) : rdByte (wrByte m a v) b = if b = a then v else rdByte m b :=
  rget_rset 0 m a b v

/-- A read after a write of bytes: the byte written there, or what stood there. -/
theorem rdByte_wrBytes (m : Tbl Byte) (a b : Nat) (bs : List Byte) :
    rdByte (wrBytes m a bs) b = if a ≤ b ∧ b < a + bs.length then bs.getD (b - a) 0 else rdByte m b := by
  induction bs generalizing m a with
  | nil =>
    have h : ¬ (a ≤ b ∧ b < a + ([] : List Byte).length) := by simp
    rw [if_neg h]; rfl
  | cons v bs ih =>
    simp only [wrBytes, ih, rdByte_wrByte, List.length_cons]
    by_cases hba : b = a
    · subst hba; simp
    · by_cases hin : a + 1 ≤ b ∧ b < a + 1 + bs.length
      · have h1 : a ≤ b ∧ b < a + (bs.length + 1) := by omega
        have h2 : b - a = (b - (a + 1)) + 1 := by omega
        simp [hin, h1, h2]
      · have h1 : ¬ (a ≤ b ∧ b < a + (bs.length + 1)) := by omega
        rw [if_neg hin, if_neg hba, if_neg h1]

/-- Bytes read back are those written. -/
theorem rdBytes_wrBytes (m : Tbl Byte) (a : Nat) (bs : List Byte) : rdBytes (wrBytes m a bs) a bs.length = bs := by
  have key : ∀ (m : Tbl Byte) (b n : Nat) (l : List Byte), l.length = n →
      (∀ i, i < n → rdByte m (b + i) = l.getD i 0) → rdBytes m b n = l := by
    intro m b n
    induction n generalizing b with
    | zero => intro l hl _; simp [List.length_eq_zero_iff.mp hl, rdBytes]
    | succ n ih =>
      intro l hl h
      cases l with
      | nil => simp at hl
      | cons v l =>
        have h0 := h 0 (by omega)
        have ht := ih (b + 1) l (by simpa using hl) (fun i hi => by
          have := h (i + 1) (by omega)
          simpa [Nat.add_assoc, Nat.add_comm 1 i] using this)
        simp only [rdBytes, ht]
        simpa using h0
  refine key _ _ _ _ rfl ?_
  intro i hi
  rw [rdByte_wrBytes]
  simp [hi]

end Sys2Proof.Machine
end

