-- ==== Sys2Proof/Laws/State.lean ====
section
/-! SUPPORT. The updates of State, field by field: what each one writes, and that it leaves every other field. -/

namespace Sys2Proof.Machine

@[simp] theorem State.setCore_turn (s : State) (c : Nat) (k : Core) : (s.setCore c k).turn = s.turn := rfl
@[simp] theorem State.setCore_cur (s : State) (c : Nat) (k : Core) : (s.setCore c k).cur = s.cur := rfl
@[simp] theorem State.setCore_curUnit (s : State) (c : Nat) (k : Core) : (s.setCore c k).curUnit = s.curUnit := rfl
@[simp] theorem State.setCore_curCtx (s : State) (c : Nat) (k : Core) : (s.setCore c k).curCtx = s.curCtx := rfl
@[simp] theorem State.setCore_curStream (s : State) (c : Nat) (k : Core) : (s.setCore c k).curStream = s.curStream := rfl
@[simp] theorem State.setCore_inputs (s : State) (c : Nat) (k : Core) : (s.setCore c k).inputs = s.inputs := rfl
@[simp] theorem State.setCore_free (s : State) (c : Nat) (k : Core) : (s.setCore c k).free = s.free := rfl
@[simp] theorem State.setCore_undef (s : State) (c : Nat) (k : Core) : (s.setCore c k).undef = s.undef := rfl
@[simp] theorem State.setCore_nextId (s : State) (c : Nat) (k : Core) : (s.setCore c k).nextId = s.nextId := rfl
@[simp] theorem State.setCore_etimePs (s : State) (c : Nat) (k : Core) : (s.setCore c k).etimePs = s.etimePs := rfl
@[simp] theorem State.setCore_epochPs (s : State) (c : Nat) (k : Core) : (s.setCore c k).epochPs = s.epochPs := rfl
@[simp] theorem State.setCore_ropes (s : State) (c : Nat) (k : Core) : (s.setCore c k).ropes = s.ropes := rfl
@[simp] theorem State.setCore_wgs (s : State) (c : Nat) (k : Core) : (s.setCore c k).wgs = s.wgs := rfl
@[simp] theorem State.setCore_slots (s : State) (c : Nat) (k : Core) : (s.setCore c k).slots = s.slots := rfl
@[simp] theorem State.setCore_arrays (s : State) (c : Nat) (k : Core) : (s.setCore c k).arrays = s.arrays := rfl
@[simp] theorem State.setCore_sfu (s : State) (c : Nat) (k : Core) : (s.setCore c k).sfu = s.sfu := rfl
@[simp] theorem State.setCore_ctxs (s : State) (c : Nat) (k : Core) : (s.setCore c k).ctxs = s.ctxs := rfl
@[simp] theorem State.setCore_log (s : State) (c : Nat) (k : Core) : (s.setCore c k).log = s.log := rfl
@[simp] theorem State.setCore_faults (s : State) (c : Nat) (k : Core) : (s.setCore c k).faults = s.faults := rfl
@[simp] theorem State.setCore_domains (s : State) (c : Nat) (k : Core) : (s.setCore c k).domains = s.domains := rfl
@[simp] theorem State.setCore_streams (s : State) (c : Nat) (k : Core) : (s.setCore c k).streams = s.streams := rfl
@[simp] theorem State.setCore_mem (s : State) (c : Nat) (k : Core) : (s.setCore c k).mem = s.mem := rfl
@[simp] theorem State.setCore_host (s : State) (c : Nat) (k : Core) : (s.setCore c k).host = s.host := rfl
@[simp] theorem State.setCore_peer (s : State) (c : Nat) (k : Core) : (s.setCore c k).peer = s.peer := rfl
@[simp] theorem State.setCore_roots (s : State) (c : Nat) (k : Core) : (s.setCore c k).roots = s.roots := rfl
@[simp] theorem State.setCore_stage2 (s : State) (c : Nat) (k : Core) : (s.setCore c k).stage2 = s.stage2 := rfl
@[simp] theorem State.setCore_owners (s : State) (c : Nat) (k : Core) : (s.setCore c k).owners = s.owners := rfl
@[simp] theorem State.setCore_scrubbed (s : State) (c : Nat) (k : Core) : (s.setCore c k).scrubbed = s.scrubbed := rfl
@[simp] theorem State.setCore_l2 (s : State) (c : Nat) (k : Core) : (s.setCore c k).l2 = s.l2 := rfl
@[simp] theorem State.setCore_tlb (s : State) (c : Nat) (k : Core) : (s.setCore c k).tlb = s.tlb := rfl
@[simp] theorem State.setCore_code (s : State) (c : Nat) (k : Core) : (s.setCore c k).code = s.code := rfl
@[simp] theorem State.setCore_asids (s : State) (c : Nat) (k : Core) : (s.setCore c k).asids = s.asids := rfl
@[simp] theorem State.setCore_poison (s : State) (c : Nat) (k : Core) : (s.setCore c k).poison = s.poison := rfl
@[simp] theorem State.setCore_partRegs (s : State) (c : Nat) (k : Core) : (s.setCore c k).partRegs = s.partRegs := rfl
@[simp] theorem State.setCore_calendars (s : State) (c : Nat) (k : Core) : (s.setCore c k).calendars = s.calendars := rfl
@[simp] theorem State.setCore_keys (s : State) (c : Nat) (k : Core) : (s.setCore c k).keys = s.keys := rfl
@[simp] theorem State.setCore_digests (s : State) (c : Nat) (k : Core) : (s.setCore c k).digests = s.digests := rfl
@[simp] theorem State.setCore_spdm (s : State) (c : Nat) (k : Core) : (s.setCore c k).spdm = s.spdm := rfl
@[simp] theorem State.setCore_ide (s : State) (c : Nat) (k : Core) : (s.setCore c k).ide = s.ide := rfl
@[simp] theorem State.setCore_blackBox (s : State) (c : Nat) (k : Core) : (s.setCore c k).blackBox = s.blackBox := rfl
@[simp] theorem State.setCore_counters (s : State) (c : Nat) (k : Core) : (s.setCore c k).counters = s.counters := rfl
@[simp] theorem State.setCore_images (s : State) (c : Nat) (k : Core) : (s.setCore c k).images = s.images := rfl
@[simp] theorem State.setCore_duty (s : State) (c : Nat) (k : Core) : (s.setCore c k).duty = s.duty := rfl
@[simp] theorem State.setCore_partDuty (s : State) (c : Nat) (k : Core) : (s.setCore c k).partDuty = s.partDuty := rfl
@[simp] theorem State.setCore_dieOff (s : State) (c : Nat) (k : Core) : (s.setCore c k).dieOff = s.dieOff := rfl
@[simp] theorem State.setCore_live (s : State) (c : Nat) (k : Core) : (s.setCore c k).live = s.live := rfl
@[simp] theorem State.setCore_repairs (s : State) (c : Nat) (k : Core) : (s.setCore c k).repairs = s.repairs := rfl
@[simp] theorem State.setCore_dump (s : State) (c : Nat) (k : Core) : (s.setCore c k).dump = s.dump := rfl
@[simp] theorem State.setCore_stale (s : State) (c : Nat) (k : Core) : (s.setCore c k).stale = s.stale := rfl
@[simp] theorem State.setCore_repaired (s : State) (c : Nat) (k : Core) : (s.setCore c k).repaired = s.repaired := rfl
@[simp] theorem State.setCore_resets (s : State) (c : Nat) (k : Core) : (s.setCore c k).resets = s.resets := rfl
@[simp] theorem State.setCore_rotors (s : State) (c : Nat) (k : Core) : (s.setCore c k).rotors = s.rotors := rfl
@[simp] theorem State.setCore_preempts (s : State) (c : Nat) (k : Core) : (s.setCore c k).preempts = s.preempts := rfl
@[simp] theorem State.setCore_fatals (s : State) (c : Nat) (k : Core) : (s.setCore c k).fatals = s.fatals := rfl
@[simp] theorem State.setCore_replies (s : State) (c : Nat) (k : Core) : (s.setCore c k).replies = s.replies := rfl

@[simp] theorem State.setDomain_turn (s : State) (d : BitVec 16) (x : Domain) : (s.setDomain d x).turn = s.turn := rfl
@[simp] theorem State.setDomain_cur (s : State) (d : BitVec 16) (x : Domain) : (s.setDomain d x).cur = s.cur := rfl
@[simp] theorem State.setDomain_curUnit (s : State) (d : BitVec 16) (x : Domain) : (s.setDomain d x).curUnit = s.curUnit := rfl
@[simp] theorem State.setDomain_curCtx (s : State) (d : BitVec 16) (x : Domain) : (s.setDomain d x).curCtx = s.curCtx := rfl
@[simp] theorem State.setDomain_curStream (s : State) (d : BitVec 16) (x : Domain) : (s.setDomain d x).curStream = s.curStream := rfl
@[simp] theorem State.setDomain_inputs (s : State) (d : BitVec 16) (x : Domain) : (s.setDomain d x).inputs = s.inputs := rfl
@[simp] theorem State.setDomain_free (s : State) (d : BitVec 16) (x : Domain) : (s.setDomain d x).free = s.free := rfl
@[simp] theorem State.setDomain_undef (s : State) (d : BitVec 16) (x : Domain) : (s.setDomain d x).undef = s.undef := rfl
@[simp] theorem State.setDomain_nextId (s : State) (d : BitVec 16) (x : Domain) : (s.setDomain d x).nextId = s.nextId := rfl
@[simp] theorem State.setDomain_etimePs (s : State) (d : BitVec 16) (x : Domain) : (s.setDomain d x).etimePs = s.etimePs := rfl
@[simp] theorem State.setDomain_epochPs (s : State) (d : BitVec 16) (x : Domain) : (s.setDomain d x).epochPs = s.epochPs := rfl
@[simp] theorem State.setDomain_ropes (s : State) (d : BitVec 16) (x : Domain) : (s.setDomain d x).ropes = s.ropes := rfl
@[simp] theorem State.setDomain_wgs (s : State) (d : BitVec 16) (x : Domain) : (s.setDomain d x).wgs = s.wgs := rfl
@[simp] theorem State.setDomain_slots (s : State) (d : BitVec 16) (x : Domain) : (s.setDomain d x).slots = s.slots := rfl
@[simp] theorem State.setDomain_arrays (s : State) (d : BitVec 16) (x : Domain) : (s.setDomain d x).arrays = s.arrays := rfl
@[simp] theorem State.setDomain_cores (s : State) (d : BitVec 16) (x : Domain) : (s.setDomain d x).cores = s.cores := rfl
@[simp] theorem State.setDomain_sfu (s : State) (d : BitVec 16) (x : Domain) : (s.setDomain d x).sfu = s.sfu := rfl
@[simp] theorem State.setDomain_ctxs (s : State) (d : BitVec 16) (x : Domain) : (s.setDomain d x).ctxs = s.ctxs := rfl
@[simp] theorem State.setDomain_log (s : State) (d : BitVec 16) (x : Domain) : (s.setDomain d x).log = s.log := rfl
@[simp] theorem State.setDomain_faults (s : State) (d : BitVec 16) (x : Domain) : (s.setDomain d x).faults = s.faults := rfl
@[simp] theorem State.setDomain_streams (s : State) (d : BitVec 16) (x : Domain) : (s.setDomain d x).streams = s.streams := rfl
@[simp] theorem State.setDomain_mem (s : State) (d : BitVec 16) (x : Domain) : (s.setDomain d x).mem = s.mem := rfl
@[simp] theorem State.setDomain_host (s : State) (d : BitVec 16) (x : Domain) : (s.setDomain d x).host = s.host := rfl
@[simp] theorem State.setDomain_peer (s : State) (d : BitVec 16) (x : Domain) : (s.setDomain d x).peer = s.peer := rfl
@[simp] theorem State.setDomain_roots (s : State) (d : BitVec 16) (x : Domain) : (s.setDomain d x).roots = s.roots := rfl
@[simp] theorem State.setDomain_stage2 (s : State) (d : BitVec 16) (x : Domain) : (s.setDomain d x).stage2 = s.stage2 := rfl
@[simp] theorem State.setDomain_owners (s : State) (d : BitVec 16) (x : Domain) : (s.setDomain d x).owners = s.owners := rfl
@[simp] theorem State.setDomain_scrubbed (s : State) (d : BitVec 16) (x : Domain) : (s.setDomain d x).scrubbed = s.scrubbed := rfl
@[simp] theorem State.setDomain_l2 (s : State) (d : BitVec 16) (x : Domain) : (s.setDomain d x).l2 = s.l2 := rfl
@[simp] theorem State.setDomain_tlb (s : State) (d : BitVec 16) (x : Domain) : (s.setDomain d x).tlb = s.tlb := rfl
@[simp] theorem State.setDomain_code (s : State) (d : BitVec 16) (x : Domain) : (s.setDomain d x).code = s.code := rfl
@[simp] theorem State.setDomain_asids (s : State) (d : BitVec 16) (x : Domain) : (s.setDomain d x).asids = s.asids := rfl
@[simp] theorem State.setDomain_poison (s : State) (d : BitVec 16) (x : Domain) : (s.setDomain d x).poison = s.poison := rfl
@[simp] theorem State.setDomain_partRegs (s : State) (d : BitVec 16) (x : Domain) : (s.setDomain d x).partRegs = s.partRegs := rfl
@[simp] theorem State.setDomain_calendars (s : State) (d : BitVec 16) (x : Domain) : (s.setDomain d x).calendars = s.calendars := rfl
@[simp] theorem State.setDomain_keys (s : State) (d : BitVec 16) (x : Domain) : (s.setDomain d x).keys = s.keys := rfl
@[simp] theorem State.setDomain_digests (s : State) (d : BitVec 16) (x : Domain) : (s.setDomain d x).digests = s.digests := rfl
@[simp] theorem State.setDomain_spdm (s : State) (d : BitVec 16) (x : Domain) : (s.setDomain d x).spdm = s.spdm := rfl
@[simp] theorem State.setDomain_ide (s : State) (d : BitVec 16) (x : Domain) : (s.setDomain d x).ide = s.ide := rfl
@[simp] theorem State.setDomain_blackBox (s : State) (d : BitVec 16) (x : Domain) : (s.setDomain d x).blackBox = s.blackBox := rfl
@[simp] theorem State.setDomain_counters (s : State) (d : BitVec 16) (x : Domain) : (s.setDomain d x).counters = s.counters := rfl
@[simp] theorem State.setDomain_images (s : State) (d : BitVec 16) (x : Domain) : (s.setDomain d x).images = s.images := rfl
@[simp] theorem State.setDomain_duty (s : State) (d : BitVec 16) (x : Domain) : (s.setDomain d x).duty = s.duty := rfl
@[simp] theorem State.setDomain_partDuty (s : State) (d : BitVec 16) (x : Domain) : (s.setDomain d x).partDuty = s.partDuty := rfl
@[simp] theorem State.setDomain_dieOff (s : State) (d : BitVec 16) (x : Domain) : (s.setDomain d x).dieOff = s.dieOff := rfl
@[simp] theorem State.setDomain_live (s : State) (d : BitVec 16) (x : Domain) : (s.setDomain d x).live = s.live := rfl
@[simp] theorem State.setDomain_repairs (s : State) (d : BitVec 16) (x : Domain) : (s.setDomain d x).repairs = s.repairs := rfl
@[simp] theorem State.setDomain_dump (s : State) (d : BitVec 16) (x : Domain) : (s.setDomain d x).dump = s.dump := rfl
@[simp] theorem State.setDomain_stale (s : State) (d : BitVec 16) (x : Domain) : (s.setDomain d x).stale = s.stale := rfl
@[simp] theorem State.setDomain_repaired (s : State) (d : BitVec 16) (x : Domain) : (s.setDomain d x).repaired = s.repaired := rfl
@[simp] theorem State.setDomain_resets (s : State) (d : BitVec 16) (x : Domain) : (s.setDomain d x).resets = s.resets := rfl
@[simp] theorem State.setDomain_rotors (s : State) (d : BitVec 16) (x : Domain) : (s.setDomain d x).rotors = s.rotors := rfl
@[simp] theorem State.setDomain_preempts (s : State) (d : BitVec 16) (x : Domain) : (s.setDomain d x).preempts = s.preempts := rfl
@[simp] theorem State.setDomain_fatals (s : State) (d : BitVec 16) (x : Domain) : (s.setDomain d x).fatals = s.fatals := rfl
@[simp] theorem State.setDomain_replies (s : State) (d : BitVec 16) (x : Domain) : (s.setDomain d x).replies = s.replies := rfl

@[simp] theorem State.setRope_turn (s : State) (k : Nat) (r : Rope) : (s.setRope k r).turn = s.turn := rfl
@[simp] theorem State.setRope_cur (s : State) (k : Nat) (r : Rope) : (s.setRope k r).cur = s.cur := rfl
@[simp] theorem State.setRope_curUnit (s : State) (k : Nat) (r : Rope) : (s.setRope k r).curUnit = s.curUnit := rfl
@[simp] theorem State.setRope_curCtx (s : State) (k : Nat) (r : Rope) : (s.setRope k r).curCtx = s.curCtx := rfl
@[simp] theorem State.setRope_curStream (s : State) (k : Nat) (r : Rope) : (s.setRope k r).curStream = s.curStream := rfl
@[simp] theorem State.setRope_inputs (s : State) (k : Nat) (r : Rope) : (s.setRope k r).inputs = s.inputs := rfl
@[simp] theorem State.setRope_free (s : State) (k : Nat) (r : Rope) : (s.setRope k r).free = s.free := rfl
@[simp] theorem State.setRope_undef (s : State) (k : Nat) (r : Rope) : (s.setRope k r).undef = s.undef := rfl
@[simp] theorem State.setRope_nextId (s : State) (k : Nat) (r : Rope) : (s.setRope k r).nextId = s.nextId := rfl
@[simp] theorem State.setRope_etimePs (s : State) (k : Nat) (r : Rope) : (s.setRope k r).etimePs = s.etimePs := rfl
@[simp] theorem State.setRope_epochPs (s : State) (k : Nat) (r : Rope) : (s.setRope k r).epochPs = s.epochPs := rfl
@[simp] theorem State.setRope_wgs (s : State) (k : Nat) (r : Rope) : (s.setRope k r).wgs = s.wgs := rfl
@[simp] theorem State.setRope_slots (s : State) (k : Nat) (r : Rope) : (s.setRope k r).slots = s.slots := rfl
@[simp] theorem State.setRope_arrays (s : State) (k : Nat) (r : Rope) : (s.setRope k r).arrays = s.arrays := rfl
@[simp] theorem State.setRope_cores (s : State) (k : Nat) (r : Rope) : (s.setRope k r).cores = s.cores := rfl
@[simp] theorem State.setRope_sfu (s : State) (k : Nat) (r : Rope) : (s.setRope k r).sfu = s.sfu := rfl
@[simp] theorem State.setRope_ctxs (s : State) (k : Nat) (r : Rope) : (s.setRope k r).ctxs = s.ctxs := rfl
@[simp] theorem State.setRope_log (s : State) (k : Nat) (r : Rope) : (s.setRope k r).log = s.log := rfl
@[simp] theorem State.setRope_faults (s : State) (k : Nat) (r : Rope) : (s.setRope k r).faults = s.faults := rfl
@[simp] theorem State.setRope_domains (s : State) (k : Nat) (r : Rope) : (s.setRope k r).domains = s.domains := rfl
@[simp] theorem State.setRope_streams (s : State) (k : Nat) (r : Rope) : (s.setRope k r).streams = s.streams := rfl
@[simp] theorem State.setRope_mem (s : State) (k : Nat) (r : Rope) : (s.setRope k r).mem = s.mem := rfl
@[simp] theorem State.setRope_host (s : State) (k : Nat) (r : Rope) : (s.setRope k r).host = s.host := rfl
@[simp] theorem State.setRope_peer (s : State) (k : Nat) (r : Rope) : (s.setRope k r).peer = s.peer := rfl
@[simp] theorem State.setRope_roots (s : State) (k : Nat) (r : Rope) : (s.setRope k r).roots = s.roots := rfl
@[simp] theorem State.setRope_stage2 (s : State) (k : Nat) (r : Rope) : (s.setRope k r).stage2 = s.stage2 := rfl
@[simp] theorem State.setRope_owners (s : State) (k : Nat) (r : Rope) : (s.setRope k r).owners = s.owners := rfl
@[simp] theorem State.setRope_scrubbed (s : State) (k : Nat) (r : Rope) : (s.setRope k r).scrubbed = s.scrubbed := rfl
@[simp] theorem State.setRope_l2 (s : State) (k : Nat) (r : Rope) : (s.setRope k r).l2 = s.l2 := rfl
@[simp] theorem State.setRope_tlb (s : State) (k : Nat) (r : Rope) : (s.setRope k r).tlb = s.tlb := rfl
@[simp] theorem State.setRope_code (s : State) (k : Nat) (r : Rope) : (s.setRope k r).code = s.code := rfl
@[simp] theorem State.setRope_asids (s : State) (k : Nat) (r : Rope) : (s.setRope k r).asids = s.asids := rfl
@[simp] theorem State.setRope_poison (s : State) (k : Nat) (r : Rope) : (s.setRope k r).poison = s.poison := rfl
@[simp] theorem State.setRope_partRegs (s : State) (k : Nat) (r : Rope) : (s.setRope k r).partRegs = s.partRegs := rfl
@[simp] theorem State.setRope_calendars (s : State) (k : Nat) (r : Rope) : (s.setRope k r).calendars = s.calendars := rfl
@[simp] theorem State.setRope_keys (s : State) (k : Nat) (r : Rope) : (s.setRope k r).keys = s.keys := rfl
@[simp] theorem State.setRope_digests (s : State) (k : Nat) (r : Rope) : (s.setRope k r).digests = s.digests := rfl
@[simp] theorem State.setRope_spdm (s : State) (k : Nat) (r : Rope) : (s.setRope k r).spdm = s.spdm := rfl
@[simp] theorem State.setRope_ide (s : State) (k : Nat) (r : Rope) : (s.setRope k r).ide = s.ide := rfl
@[simp] theorem State.setRope_blackBox (s : State) (k : Nat) (r : Rope) : (s.setRope k r).blackBox = s.blackBox := rfl
@[simp] theorem State.setRope_counters (s : State) (k : Nat) (r : Rope) : (s.setRope k r).counters = s.counters := rfl
@[simp] theorem State.setRope_images (s : State) (k : Nat) (r : Rope) : (s.setRope k r).images = s.images := rfl
@[simp] theorem State.setRope_duty (s : State) (k : Nat) (r : Rope) : (s.setRope k r).duty = s.duty := rfl
@[simp] theorem State.setRope_partDuty (s : State) (k : Nat) (r : Rope) : (s.setRope k r).partDuty = s.partDuty := rfl
@[simp] theorem State.setRope_dieOff (s : State) (k : Nat) (r : Rope) : (s.setRope k r).dieOff = s.dieOff := rfl
@[simp] theorem State.setRope_live (s : State) (k : Nat) (r : Rope) : (s.setRope k r).live = s.live := rfl
@[simp] theorem State.setRope_repairs (s : State) (k : Nat) (r : Rope) : (s.setRope k r).repairs = s.repairs := rfl
@[simp] theorem State.setRope_dump (s : State) (k : Nat) (r : Rope) : (s.setRope k r).dump = s.dump := rfl
@[simp] theorem State.setRope_stale (s : State) (k : Nat) (r : Rope) : (s.setRope k r).stale = s.stale := rfl
@[simp] theorem State.setRope_repaired (s : State) (k : Nat) (r : Rope) : (s.setRope k r).repaired = s.repaired := rfl
@[simp] theorem State.setRope_resets (s : State) (k : Nat) (r : Rope) : (s.setRope k r).resets = s.resets := rfl
@[simp] theorem State.setRope_rotors (s : State) (k : Nat) (r : Rope) : (s.setRope k r).rotors = s.rotors := rfl
@[simp] theorem State.setRope_preempts (s : State) (k : Nat) (r : Rope) : (s.setRope k r).preempts = s.preempts := rfl
@[simp] theorem State.setRope_fatals (s : State) (k : Nat) (r : Rope) : (s.setRope k r).fatals = s.fatals := rfl
@[simp] theorem State.setRope_replies (s : State) (k : Nat) (r : Rope) : (s.setRope k r).replies = s.replies := rfl

@[simp] theorem State.setWg_turn (s : State) (k : Nat) (w : Workgroup) : (s.setWg k w).turn = s.turn := rfl
@[simp] theorem State.setWg_cur (s : State) (k : Nat) (w : Workgroup) : (s.setWg k w).cur = s.cur := rfl
@[simp] theorem State.setWg_curUnit (s : State) (k : Nat) (w : Workgroup) : (s.setWg k w).curUnit = s.curUnit := rfl
@[simp] theorem State.setWg_curCtx (s : State) (k : Nat) (w : Workgroup) : (s.setWg k w).curCtx = s.curCtx := rfl
@[simp] theorem State.setWg_curStream (s : State) (k : Nat) (w : Workgroup) : (s.setWg k w).curStream = s.curStream := rfl
@[simp] theorem State.setWg_inputs (s : State) (k : Nat) (w : Workgroup) : (s.setWg k w).inputs = s.inputs := rfl
@[simp] theorem State.setWg_free (s : State) (k : Nat) (w : Workgroup) : (s.setWg k w).free = s.free := rfl
@[simp] theorem State.setWg_undef (s : State) (k : Nat) (w : Workgroup) : (s.setWg k w).undef = s.undef := rfl
@[simp] theorem State.setWg_nextId (s : State) (k : Nat) (w : Workgroup) : (s.setWg k w).nextId = s.nextId := rfl
@[simp] theorem State.setWg_etimePs (s : State) (k : Nat) (w : Workgroup) : (s.setWg k w).etimePs = s.etimePs := rfl
@[simp] theorem State.setWg_epochPs (s : State) (k : Nat) (w : Workgroup) : (s.setWg k w).epochPs = s.epochPs := rfl
@[simp] theorem State.setWg_ropes (s : State) (k : Nat) (w : Workgroup) : (s.setWg k w).ropes = s.ropes := rfl
@[simp] theorem State.setWg_slots (s : State) (k : Nat) (w : Workgroup) : (s.setWg k w).slots = s.slots := rfl
@[simp] theorem State.setWg_arrays (s : State) (k : Nat) (w : Workgroup) : (s.setWg k w).arrays = s.arrays := rfl
@[simp] theorem State.setWg_cores (s : State) (k : Nat) (w : Workgroup) : (s.setWg k w).cores = s.cores := rfl
@[simp] theorem State.setWg_sfu (s : State) (k : Nat) (w : Workgroup) : (s.setWg k w).sfu = s.sfu := rfl
@[simp] theorem State.setWg_ctxs (s : State) (k : Nat) (w : Workgroup) : (s.setWg k w).ctxs = s.ctxs := rfl
@[simp] theorem State.setWg_log (s : State) (k : Nat) (w : Workgroup) : (s.setWg k w).log = s.log := rfl
@[simp] theorem State.setWg_faults (s : State) (k : Nat) (w : Workgroup) : (s.setWg k w).faults = s.faults := rfl
@[simp] theorem State.setWg_domains (s : State) (k : Nat) (w : Workgroup) : (s.setWg k w).domains = s.domains := rfl
@[simp] theorem State.setWg_streams (s : State) (k : Nat) (w : Workgroup) : (s.setWg k w).streams = s.streams := rfl
@[simp] theorem State.setWg_mem (s : State) (k : Nat) (w : Workgroup) : (s.setWg k w).mem = s.mem := rfl
@[simp] theorem State.setWg_host (s : State) (k : Nat) (w : Workgroup) : (s.setWg k w).host = s.host := rfl
@[simp] theorem State.setWg_peer (s : State) (k : Nat) (w : Workgroup) : (s.setWg k w).peer = s.peer := rfl
@[simp] theorem State.setWg_roots (s : State) (k : Nat) (w : Workgroup) : (s.setWg k w).roots = s.roots := rfl
@[simp] theorem State.setWg_stage2 (s : State) (k : Nat) (w : Workgroup) : (s.setWg k w).stage2 = s.stage2 := rfl
@[simp] theorem State.setWg_owners (s : State) (k : Nat) (w : Workgroup) : (s.setWg k w).owners = s.owners := rfl
@[simp] theorem State.setWg_scrubbed (s : State) (k : Nat) (w : Workgroup) : (s.setWg k w).scrubbed = s.scrubbed := rfl
@[simp] theorem State.setWg_l2 (s : State) (k : Nat) (w : Workgroup) : (s.setWg k w).l2 = s.l2 := rfl
@[simp] theorem State.setWg_tlb (s : State) (k : Nat) (w : Workgroup) : (s.setWg k w).tlb = s.tlb := rfl
@[simp] theorem State.setWg_code (s : State) (k : Nat) (w : Workgroup) : (s.setWg k w).code = s.code := rfl
@[simp] theorem State.setWg_asids (s : State) (k : Nat) (w : Workgroup) : (s.setWg k w).asids = s.asids := rfl
@[simp] theorem State.setWg_poison (s : State) (k : Nat) (w : Workgroup) : (s.setWg k w).poison = s.poison := rfl
@[simp] theorem State.setWg_partRegs (s : State) (k : Nat) (w : Workgroup) : (s.setWg k w).partRegs = s.partRegs := rfl
@[simp] theorem State.setWg_calendars (s : State) (k : Nat) (w : Workgroup) : (s.setWg k w).calendars = s.calendars := rfl
@[simp] theorem State.setWg_keys (s : State) (k : Nat) (w : Workgroup) : (s.setWg k w).keys = s.keys := rfl
@[simp] theorem State.setWg_digests (s : State) (k : Nat) (w : Workgroup) : (s.setWg k w).digests = s.digests := rfl
@[simp] theorem State.setWg_spdm (s : State) (k : Nat) (w : Workgroup) : (s.setWg k w).spdm = s.spdm := rfl
@[simp] theorem State.setWg_ide (s : State) (k : Nat) (w : Workgroup) : (s.setWg k w).ide = s.ide := rfl
@[simp] theorem State.setWg_blackBox (s : State) (k : Nat) (w : Workgroup) : (s.setWg k w).blackBox = s.blackBox := rfl
@[simp] theorem State.setWg_counters (s : State) (k : Nat) (w : Workgroup) : (s.setWg k w).counters = s.counters := rfl
@[simp] theorem State.setWg_images (s : State) (k : Nat) (w : Workgroup) : (s.setWg k w).images = s.images := rfl
@[simp] theorem State.setWg_duty (s : State) (k : Nat) (w : Workgroup) : (s.setWg k w).duty = s.duty := rfl
@[simp] theorem State.setWg_partDuty (s : State) (k : Nat) (w : Workgroup) : (s.setWg k w).partDuty = s.partDuty := rfl
@[simp] theorem State.setWg_dieOff (s : State) (k : Nat) (w : Workgroup) : (s.setWg k w).dieOff = s.dieOff := rfl
@[simp] theorem State.setWg_live (s : State) (k : Nat) (w : Workgroup) : (s.setWg k w).live = s.live := rfl
@[simp] theorem State.setWg_repairs (s : State) (k : Nat) (w : Workgroup) : (s.setWg k w).repairs = s.repairs := rfl
@[simp] theorem State.setWg_dump (s : State) (k : Nat) (w : Workgroup) : (s.setWg k w).dump = s.dump := rfl
@[simp] theorem State.setWg_stale (s : State) (k : Nat) (w : Workgroup) : (s.setWg k w).stale = s.stale := rfl
@[simp] theorem State.setWg_repaired (s : State) (k : Nat) (w : Workgroup) : (s.setWg k w).repaired = s.repaired := rfl
@[simp] theorem State.setWg_resets (s : State) (k : Nat) (w : Workgroup) : (s.setWg k w).resets = s.resets := rfl
@[simp] theorem State.setWg_rotors (s : State) (k : Nat) (w : Workgroup) : (s.setWg k w).rotors = s.rotors := rfl
@[simp] theorem State.setWg_preempts (s : State) (k : Nat) (w : Workgroup) : (s.setWg k w).preempts = s.preempts := rfl
@[simp] theorem State.setWg_fatals (s : State) (k : Nat) (w : Workgroup) : (s.setWg k w).fatals = s.fatals := rfl
@[simp] theorem State.setWg_replies (s : State) (k : Nat) (w : Workgroup) : (s.setWg k w).replies = s.replies := rfl

@[simp] theorem State.setStream_turn (s : State) (k : Nat) (t : Stream) : (s.setStream k t).turn = s.turn := rfl
@[simp] theorem State.setStream_cur (s : State) (k : Nat) (t : Stream) : (s.setStream k t).cur = s.cur := rfl
@[simp] theorem State.setStream_curUnit (s : State) (k : Nat) (t : Stream) : (s.setStream k t).curUnit = s.curUnit := rfl
@[simp] theorem State.setStream_curCtx (s : State) (k : Nat) (t : Stream) : (s.setStream k t).curCtx = s.curCtx := rfl
@[simp] theorem State.setStream_curStream (s : State) (k : Nat) (t : Stream) : (s.setStream k t).curStream = s.curStream := rfl
@[simp] theorem State.setStream_inputs (s : State) (k : Nat) (t : Stream) : (s.setStream k t).inputs = s.inputs := rfl
@[simp] theorem State.setStream_free (s : State) (k : Nat) (t : Stream) : (s.setStream k t).free = s.free := rfl
@[simp] theorem State.setStream_undef (s : State) (k : Nat) (t : Stream) : (s.setStream k t).undef = s.undef := rfl
@[simp] theorem State.setStream_nextId (s : State) (k : Nat) (t : Stream) : (s.setStream k t).nextId = s.nextId := rfl
@[simp] theorem State.setStream_etimePs (s : State) (k : Nat) (t : Stream) : (s.setStream k t).etimePs = s.etimePs := rfl
@[simp] theorem State.setStream_epochPs (s : State) (k : Nat) (t : Stream) : (s.setStream k t).epochPs = s.epochPs := rfl
@[simp] theorem State.setStream_ropes (s : State) (k : Nat) (t : Stream) : (s.setStream k t).ropes = s.ropes := rfl
@[simp] theorem State.setStream_wgs (s : State) (k : Nat) (t : Stream) : (s.setStream k t).wgs = s.wgs := rfl
@[simp] theorem State.setStream_slots (s : State) (k : Nat) (t : Stream) : (s.setStream k t).slots = s.slots := rfl
@[simp] theorem State.setStream_arrays (s : State) (k : Nat) (t : Stream) : (s.setStream k t).arrays = s.arrays := rfl
@[simp] theorem State.setStream_cores (s : State) (k : Nat) (t : Stream) : (s.setStream k t).cores = s.cores := rfl
@[simp] theorem State.setStream_sfu (s : State) (k : Nat) (t : Stream) : (s.setStream k t).sfu = s.sfu := rfl
@[simp] theorem State.setStream_ctxs (s : State) (k : Nat) (t : Stream) : (s.setStream k t).ctxs = s.ctxs := rfl
@[simp] theorem State.setStream_log (s : State) (k : Nat) (t : Stream) : (s.setStream k t).log = s.log := rfl
@[simp] theorem State.setStream_faults (s : State) (k : Nat) (t : Stream) : (s.setStream k t).faults = s.faults := rfl
@[simp] theorem State.setStream_domains (s : State) (k : Nat) (t : Stream) : (s.setStream k t).domains = s.domains := rfl
@[simp] theorem State.setStream_mem (s : State) (k : Nat) (t : Stream) : (s.setStream k t).mem = s.mem := rfl
@[simp] theorem State.setStream_host (s : State) (k : Nat) (t : Stream) : (s.setStream k t).host = s.host := rfl
@[simp] theorem State.setStream_peer (s : State) (k : Nat) (t : Stream) : (s.setStream k t).peer = s.peer := rfl
@[simp] theorem State.setStream_roots (s : State) (k : Nat) (t : Stream) : (s.setStream k t).roots = s.roots := rfl
@[simp] theorem State.setStream_stage2 (s : State) (k : Nat) (t : Stream) : (s.setStream k t).stage2 = s.stage2 := rfl
@[simp] theorem State.setStream_owners (s : State) (k : Nat) (t : Stream) : (s.setStream k t).owners = s.owners := rfl
@[simp] theorem State.setStream_scrubbed (s : State) (k : Nat) (t : Stream) : (s.setStream k t).scrubbed = s.scrubbed := rfl
@[simp] theorem State.setStream_l2 (s : State) (k : Nat) (t : Stream) : (s.setStream k t).l2 = s.l2 := rfl
@[simp] theorem State.setStream_tlb (s : State) (k : Nat) (t : Stream) : (s.setStream k t).tlb = s.tlb := rfl
@[simp] theorem State.setStream_code (s : State) (k : Nat) (t : Stream) : (s.setStream k t).code = s.code := rfl
@[simp] theorem State.setStream_asids (s : State) (k : Nat) (t : Stream) : (s.setStream k t).asids = s.asids := rfl
@[simp] theorem State.setStream_poison (s : State) (k : Nat) (t : Stream) : (s.setStream k t).poison = s.poison := rfl
@[simp] theorem State.setStream_partRegs (s : State) (k : Nat) (t : Stream) : (s.setStream k t).partRegs = s.partRegs := rfl
@[simp] theorem State.setStream_calendars (s : State) (k : Nat) (t : Stream) : (s.setStream k t).calendars = s.calendars := rfl
@[simp] theorem State.setStream_keys (s : State) (k : Nat) (t : Stream) : (s.setStream k t).keys = s.keys := rfl
@[simp] theorem State.setStream_digests (s : State) (k : Nat) (t : Stream) : (s.setStream k t).digests = s.digests := rfl
@[simp] theorem State.setStream_spdm (s : State) (k : Nat) (t : Stream) : (s.setStream k t).spdm = s.spdm := rfl
@[simp] theorem State.setStream_ide (s : State) (k : Nat) (t : Stream) : (s.setStream k t).ide = s.ide := rfl
@[simp] theorem State.setStream_blackBox (s : State) (k : Nat) (t : Stream) : (s.setStream k t).blackBox = s.blackBox := rfl
@[simp] theorem State.setStream_counters (s : State) (k : Nat) (t : Stream) : (s.setStream k t).counters = s.counters := rfl
@[simp] theorem State.setStream_images (s : State) (k : Nat) (t : Stream) : (s.setStream k t).images = s.images := rfl
@[simp] theorem State.setStream_duty (s : State) (k : Nat) (t : Stream) : (s.setStream k t).duty = s.duty := rfl
@[simp] theorem State.setStream_partDuty (s : State) (k : Nat) (t : Stream) : (s.setStream k t).partDuty = s.partDuty := rfl
@[simp] theorem State.setStream_dieOff (s : State) (k : Nat) (t : Stream) : (s.setStream k t).dieOff = s.dieOff := rfl
@[simp] theorem State.setStream_live (s : State) (k : Nat) (t : Stream) : (s.setStream k t).live = s.live := rfl
@[simp] theorem State.setStream_repairs (s : State) (k : Nat) (t : Stream) : (s.setStream k t).repairs = s.repairs := rfl
@[simp] theorem State.setStream_dump (s : State) (k : Nat) (t : Stream) : (s.setStream k t).dump = s.dump := rfl
@[simp] theorem State.setStream_stale (s : State) (k : Nat) (t : Stream) : (s.setStream k t).stale = s.stale := rfl
@[simp] theorem State.setStream_repaired (s : State) (k : Nat) (t : Stream) : (s.setStream k t).repaired = s.repaired := rfl
@[simp] theorem State.setStream_resets (s : State) (k : Nat) (t : Stream) : (s.setStream k t).resets = s.resets := rfl
@[simp] theorem State.setStream_rotors (s : State) (k : Nat) (t : Stream) : (s.setStream k t).rotors = s.rotors := rfl
@[simp] theorem State.setStream_preempts (s : State) (k : Nat) (t : Stream) : (s.setStream k t).preempts = s.preempts := rfl
@[simp] theorem State.setStream_fatals (s : State) (k : Nat) (t : Stream) : (s.setStream k t).fatals = s.fatals := rfl
@[simp] theorem State.setStream_replies (s : State) (k : Nat) (t : Stream) : (s.setStream k t).replies = s.replies := rfl

@[simp] theorem State.setSlot_turn (s : State) (k : Nat) (m : MapSlot) : (s.setSlot k m).turn = s.turn := rfl
@[simp] theorem State.setSlot_cur (s : State) (k : Nat) (m : MapSlot) : (s.setSlot k m).cur = s.cur := rfl
@[simp] theorem State.setSlot_curUnit (s : State) (k : Nat) (m : MapSlot) : (s.setSlot k m).curUnit = s.curUnit := rfl
@[simp] theorem State.setSlot_curCtx (s : State) (k : Nat) (m : MapSlot) : (s.setSlot k m).curCtx = s.curCtx := rfl
@[simp] theorem State.setSlot_curStream (s : State) (k : Nat) (m : MapSlot) : (s.setSlot k m).curStream = s.curStream := rfl
@[simp] theorem State.setSlot_inputs (s : State) (k : Nat) (m : MapSlot) : (s.setSlot k m).inputs = s.inputs := rfl
@[simp] theorem State.setSlot_free (s : State) (k : Nat) (m : MapSlot) : (s.setSlot k m).free = s.free := rfl
@[simp] theorem State.setSlot_undef (s : State) (k : Nat) (m : MapSlot) : (s.setSlot k m).undef = s.undef := rfl
@[simp] theorem State.setSlot_nextId (s : State) (k : Nat) (m : MapSlot) : (s.setSlot k m).nextId = s.nextId := rfl
@[simp] theorem State.setSlot_etimePs (s : State) (k : Nat) (m : MapSlot) : (s.setSlot k m).etimePs = s.etimePs := rfl
@[simp] theorem State.setSlot_epochPs (s : State) (k : Nat) (m : MapSlot) : (s.setSlot k m).epochPs = s.epochPs := rfl
@[simp] theorem State.setSlot_ropes (s : State) (k : Nat) (m : MapSlot) : (s.setSlot k m).ropes = s.ropes := rfl
@[simp] theorem State.setSlot_wgs (s : State) (k : Nat) (m : MapSlot) : (s.setSlot k m).wgs = s.wgs := rfl
@[simp] theorem State.setSlot_arrays (s : State) (k : Nat) (m : MapSlot) : (s.setSlot k m).arrays = s.arrays := rfl
@[simp] theorem State.setSlot_cores (s : State) (k : Nat) (m : MapSlot) : (s.setSlot k m).cores = s.cores := rfl
@[simp] theorem State.setSlot_sfu (s : State) (k : Nat) (m : MapSlot) : (s.setSlot k m).sfu = s.sfu := rfl
@[simp] theorem State.setSlot_ctxs (s : State) (k : Nat) (m : MapSlot) : (s.setSlot k m).ctxs = s.ctxs := rfl
@[simp] theorem State.setSlot_log (s : State) (k : Nat) (m : MapSlot) : (s.setSlot k m).log = s.log := rfl
@[simp] theorem State.setSlot_faults (s : State) (k : Nat) (m : MapSlot) : (s.setSlot k m).faults = s.faults := rfl
@[simp] theorem State.setSlot_domains (s : State) (k : Nat) (m : MapSlot) : (s.setSlot k m).domains = s.domains := rfl
@[simp] theorem State.setSlot_streams (s : State) (k : Nat) (m : MapSlot) : (s.setSlot k m).streams = s.streams := rfl
@[simp] theorem State.setSlot_mem (s : State) (k : Nat) (m : MapSlot) : (s.setSlot k m).mem = s.mem := rfl
@[simp] theorem State.setSlot_host (s : State) (k : Nat) (m : MapSlot) : (s.setSlot k m).host = s.host := rfl
@[simp] theorem State.setSlot_peer (s : State) (k : Nat) (m : MapSlot) : (s.setSlot k m).peer = s.peer := rfl
@[simp] theorem State.setSlot_roots (s : State) (k : Nat) (m : MapSlot) : (s.setSlot k m).roots = s.roots := rfl
@[simp] theorem State.setSlot_stage2 (s : State) (k : Nat) (m : MapSlot) : (s.setSlot k m).stage2 = s.stage2 := rfl
@[simp] theorem State.setSlot_owners (s : State) (k : Nat) (m : MapSlot) : (s.setSlot k m).owners = s.owners := rfl
@[simp] theorem State.setSlot_scrubbed (s : State) (k : Nat) (m : MapSlot) : (s.setSlot k m).scrubbed = s.scrubbed := rfl
@[simp] theorem State.setSlot_l2 (s : State) (k : Nat) (m : MapSlot) : (s.setSlot k m).l2 = s.l2 := rfl
@[simp] theorem State.setSlot_tlb (s : State) (k : Nat) (m : MapSlot) : (s.setSlot k m).tlb = s.tlb := rfl
@[simp] theorem State.setSlot_code (s : State) (k : Nat) (m : MapSlot) : (s.setSlot k m).code = s.code := rfl
@[simp] theorem State.setSlot_asids (s : State) (k : Nat) (m : MapSlot) : (s.setSlot k m).asids = s.asids := rfl
@[simp] theorem State.setSlot_poison (s : State) (k : Nat) (m : MapSlot) : (s.setSlot k m).poison = s.poison := rfl
@[simp] theorem State.setSlot_partRegs (s : State) (k : Nat) (m : MapSlot) : (s.setSlot k m).partRegs = s.partRegs := rfl
@[simp] theorem State.setSlot_calendars (s : State) (k : Nat) (m : MapSlot) : (s.setSlot k m).calendars = s.calendars := rfl
@[simp] theorem State.setSlot_keys (s : State) (k : Nat) (m : MapSlot) : (s.setSlot k m).keys = s.keys := rfl
@[simp] theorem State.setSlot_digests (s : State) (k : Nat) (m : MapSlot) : (s.setSlot k m).digests = s.digests := rfl
@[simp] theorem State.setSlot_spdm (s : State) (k : Nat) (m : MapSlot) : (s.setSlot k m).spdm = s.spdm := rfl
@[simp] theorem State.setSlot_ide (s : State) (k : Nat) (m : MapSlot) : (s.setSlot k m).ide = s.ide := rfl
@[simp] theorem State.setSlot_blackBox (s : State) (k : Nat) (m : MapSlot) : (s.setSlot k m).blackBox = s.blackBox := rfl
@[simp] theorem State.setSlot_counters (s : State) (k : Nat) (m : MapSlot) : (s.setSlot k m).counters = s.counters := rfl
@[simp] theorem State.setSlot_images (s : State) (k : Nat) (m : MapSlot) : (s.setSlot k m).images = s.images := rfl
@[simp] theorem State.setSlot_duty (s : State) (k : Nat) (m : MapSlot) : (s.setSlot k m).duty = s.duty := rfl
@[simp] theorem State.setSlot_partDuty (s : State) (k : Nat) (m : MapSlot) : (s.setSlot k m).partDuty = s.partDuty := rfl
@[simp] theorem State.setSlot_dieOff (s : State) (k : Nat) (m : MapSlot) : (s.setSlot k m).dieOff = s.dieOff := rfl
@[simp] theorem State.setSlot_live (s : State) (k : Nat) (m : MapSlot) : (s.setSlot k m).live = s.live := rfl
@[simp] theorem State.setSlot_repairs (s : State) (k : Nat) (m : MapSlot) : (s.setSlot k m).repairs = s.repairs := rfl
@[simp] theorem State.setSlot_dump (s : State) (k : Nat) (m : MapSlot) : (s.setSlot k m).dump = s.dump := rfl
@[simp] theorem State.setSlot_stale (s : State) (k : Nat) (m : MapSlot) : (s.setSlot k m).stale = s.stale := rfl
@[simp] theorem State.setSlot_repaired (s : State) (k : Nat) (m : MapSlot) : (s.setSlot k m).repaired = s.repaired := rfl
@[simp] theorem State.setSlot_resets (s : State) (k : Nat) (m : MapSlot) : (s.setSlot k m).resets = s.resets := rfl
@[simp] theorem State.setSlot_rotors (s : State) (k : Nat) (m : MapSlot) : (s.setSlot k m).rotors = s.rotors := rfl
@[simp] theorem State.setSlot_preempts (s : State) (k : Nat) (m : MapSlot) : (s.setSlot k m).preempts = s.preempts := rfl
@[simp] theorem State.setSlot_fatals (s : State) (k : Nat) (m : MapSlot) : (s.setSlot k m).fatals = s.fatals := rfl
@[simp] theorem State.setSlot_replies (s : State) (k : Nat) (m : MapSlot) : (s.setSlot k m).replies = s.replies := rfl

@[simp] theorem State.onRope_turn (s : State) (k : Nat) (g : Rope → Rope) : (s.onRope k g).turn = s.turn := by unfold State.onRope; split <;> rfl
@[simp] theorem State.onRope_cur (s : State) (k : Nat) (g : Rope → Rope) : (s.onRope k g).cur = s.cur := by unfold State.onRope; split <;> rfl
@[simp] theorem State.onRope_curUnit (s : State) (k : Nat) (g : Rope → Rope) : (s.onRope k g).curUnit = s.curUnit := by unfold State.onRope; split <;> rfl
@[simp] theorem State.onRope_curCtx (s : State) (k : Nat) (g : Rope → Rope) : (s.onRope k g).curCtx = s.curCtx := by unfold State.onRope; split <;> rfl
@[simp] theorem State.onRope_curStream (s : State) (k : Nat) (g : Rope → Rope) : (s.onRope k g).curStream = s.curStream := by unfold State.onRope; split <;> rfl
@[simp] theorem State.onRope_inputs (s : State) (k : Nat) (g : Rope → Rope) : (s.onRope k g).inputs = s.inputs := by unfold State.onRope; split <;> rfl
@[simp] theorem State.onRope_free (s : State) (k : Nat) (g : Rope → Rope) : (s.onRope k g).free = s.free := by unfold State.onRope; split <;> rfl
@[simp] theorem State.onRope_undef (s : State) (k : Nat) (g : Rope → Rope) : (s.onRope k g).undef = s.undef := by unfold State.onRope; split <;> rfl
@[simp] theorem State.onRope_nextId (s : State) (k : Nat) (g : Rope → Rope) : (s.onRope k g).nextId = s.nextId := by unfold State.onRope; split <;> rfl
@[simp] theorem State.onRope_etimePs (s : State) (k : Nat) (g : Rope → Rope) : (s.onRope k g).etimePs = s.etimePs := by unfold State.onRope; split <;> rfl
@[simp] theorem State.onRope_epochPs (s : State) (k : Nat) (g : Rope → Rope) : (s.onRope k g).epochPs = s.epochPs := by unfold State.onRope; split <;> rfl
@[simp] theorem State.onRope_wgs (s : State) (k : Nat) (g : Rope → Rope) : (s.onRope k g).wgs = s.wgs := by unfold State.onRope; split <;> rfl
@[simp] theorem State.onRope_slots (s : State) (k : Nat) (g : Rope → Rope) : (s.onRope k g).slots = s.slots := by unfold State.onRope; split <;> rfl
@[simp] theorem State.onRope_arrays (s : State) (k : Nat) (g : Rope → Rope) : (s.onRope k g).arrays = s.arrays := by unfold State.onRope; split <;> rfl
@[simp] theorem State.onRope_cores (s : State) (k : Nat) (g : Rope → Rope) : (s.onRope k g).cores = s.cores := by unfold State.onRope; split <;> rfl
@[simp] theorem State.onRope_sfu (s : State) (k : Nat) (g : Rope → Rope) : (s.onRope k g).sfu = s.sfu := by unfold State.onRope; split <;> rfl
@[simp] theorem State.onRope_ctxs (s : State) (k : Nat) (g : Rope → Rope) : (s.onRope k g).ctxs = s.ctxs := by unfold State.onRope; split <;> rfl
@[simp] theorem State.onRope_log (s : State) (k : Nat) (g : Rope → Rope) : (s.onRope k g).log = s.log := by unfold State.onRope; split <;> rfl
@[simp] theorem State.onRope_faults (s : State) (k : Nat) (g : Rope → Rope) : (s.onRope k g).faults = s.faults := by unfold State.onRope; split <;> rfl
@[simp] theorem State.onRope_domains (s : State) (k : Nat) (g : Rope → Rope) : (s.onRope k g).domains = s.domains := by unfold State.onRope; split <;> rfl
@[simp] theorem State.onRope_streams (s : State) (k : Nat) (g : Rope → Rope) : (s.onRope k g).streams = s.streams := by unfold State.onRope; split <;> rfl
@[simp] theorem State.onRope_mem (s : State) (k : Nat) (g : Rope → Rope) : (s.onRope k g).mem = s.mem := by unfold State.onRope; split <;> rfl
@[simp] theorem State.onRope_host (s : State) (k : Nat) (g : Rope → Rope) : (s.onRope k g).host = s.host := by unfold State.onRope; split <;> rfl
@[simp] theorem State.onRope_peer (s : State) (k : Nat) (g : Rope → Rope) : (s.onRope k g).peer = s.peer := by unfold State.onRope; split <;> rfl
@[simp] theorem State.onRope_roots (s : State) (k : Nat) (g : Rope → Rope) : (s.onRope k g).roots = s.roots := by unfold State.onRope; split <;> rfl
@[simp] theorem State.onRope_stage2 (s : State) (k : Nat) (g : Rope → Rope) : (s.onRope k g).stage2 = s.stage2 := by unfold State.onRope; split <;> rfl
@[simp] theorem State.onRope_owners (s : State) (k : Nat) (g : Rope → Rope) : (s.onRope k g).owners = s.owners := by unfold State.onRope; split <;> rfl
@[simp] theorem State.onRope_scrubbed (s : State) (k : Nat) (g : Rope → Rope) : (s.onRope k g).scrubbed = s.scrubbed := by unfold State.onRope; split <;> rfl
@[simp] theorem State.onRope_l2 (s : State) (k : Nat) (g : Rope → Rope) : (s.onRope k g).l2 = s.l2 := by unfold State.onRope; split <;> rfl
@[simp] theorem State.onRope_tlb (s : State) (k : Nat) (g : Rope → Rope) : (s.onRope k g).tlb = s.tlb := by unfold State.onRope; split <;> rfl
@[simp] theorem State.onRope_code (s : State) (k : Nat) (g : Rope → Rope) : (s.onRope k g).code = s.code := by unfold State.onRope; split <;> rfl
@[simp] theorem State.onRope_asids (s : State) (k : Nat) (g : Rope → Rope) : (s.onRope k g).asids = s.asids := by unfold State.onRope; split <;> rfl
@[simp] theorem State.onRope_poison (s : State) (k : Nat) (g : Rope → Rope) : (s.onRope k g).poison = s.poison := by unfold State.onRope; split <;> rfl
@[simp] theorem State.onRope_partRegs (s : State) (k : Nat) (g : Rope → Rope) : (s.onRope k g).partRegs = s.partRegs := by unfold State.onRope; split <;> rfl
@[simp] theorem State.onRope_calendars (s : State) (k : Nat) (g : Rope → Rope) : (s.onRope k g).calendars = s.calendars := by unfold State.onRope; split <;> rfl
@[simp] theorem State.onRope_keys (s : State) (k : Nat) (g : Rope → Rope) : (s.onRope k g).keys = s.keys := by unfold State.onRope; split <;> rfl
@[simp] theorem State.onRope_digests (s : State) (k : Nat) (g : Rope → Rope) : (s.onRope k g).digests = s.digests := by unfold State.onRope; split <;> rfl
@[simp] theorem State.onRope_spdm (s : State) (k : Nat) (g : Rope → Rope) : (s.onRope k g).spdm = s.spdm := by unfold State.onRope; split <;> rfl
@[simp] theorem State.onRope_ide (s : State) (k : Nat) (g : Rope → Rope) : (s.onRope k g).ide = s.ide := by unfold State.onRope; split <;> rfl
@[simp] theorem State.onRope_blackBox (s : State) (k : Nat) (g : Rope → Rope) : (s.onRope k g).blackBox = s.blackBox := by unfold State.onRope; split <;> rfl
@[simp] theorem State.onRope_counters (s : State) (k : Nat) (g : Rope → Rope) : (s.onRope k g).counters = s.counters := by unfold State.onRope; split <;> rfl
@[simp] theorem State.onRope_images (s : State) (k : Nat) (g : Rope → Rope) : (s.onRope k g).images = s.images := by unfold State.onRope; split <;> rfl
@[simp] theorem State.onRope_duty (s : State) (k : Nat) (g : Rope → Rope) : (s.onRope k g).duty = s.duty := by unfold State.onRope; split <;> rfl
@[simp] theorem State.onRope_partDuty (s : State) (k : Nat) (g : Rope → Rope) : (s.onRope k g).partDuty = s.partDuty := by unfold State.onRope; split <;> rfl
@[simp] theorem State.onRope_dieOff (s : State) (k : Nat) (g : Rope → Rope) : (s.onRope k g).dieOff = s.dieOff := by unfold State.onRope; split <;> rfl
@[simp] theorem State.onRope_live (s : State) (k : Nat) (g : Rope → Rope) : (s.onRope k g).live = s.live := by unfold State.onRope; split <;> rfl
@[simp] theorem State.onRope_repairs (s : State) (k : Nat) (g : Rope → Rope) : (s.onRope k g).repairs = s.repairs := by unfold State.onRope; split <;> rfl
@[simp] theorem State.onRope_dump (s : State) (k : Nat) (g : Rope → Rope) : (s.onRope k g).dump = s.dump := by unfold State.onRope; split <;> rfl
@[simp] theorem State.onRope_stale (s : State) (k : Nat) (g : Rope → Rope) : (s.onRope k g).stale = s.stale := by unfold State.onRope; split <;> rfl
@[simp] theorem State.onRope_repaired (s : State) (k : Nat) (g : Rope → Rope) : (s.onRope k g).repaired = s.repaired := by unfold State.onRope; split <;> rfl
@[simp] theorem State.onRope_resets (s : State) (k : Nat) (g : Rope → Rope) : (s.onRope k g).resets = s.resets := by unfold State.onRope; split <;> rfl
@[simp] theorem State.onRope_rotors (s : State) (k : Nat) (g : Rope → Rope) : (s.onRope k g).rotors = s.rotors := by unfold State.onRope; split <;> rfl
@[simp] theorem State.onRope_preempts (s : State) (k : Nat) (g : Rope → Rope) : (s.onRope k g).preempts = s.preempts := by unfold State.onRope; split <;> rfl
@[simp] theorem State.onRope_fatals (s : State) (k : Nat) (g : Rope → Rope) : (s.onRope k g).fatals = s.fatals := by unfold State.onRope; split <;> rfl
@[simp] theorem State.onRope_replies (s : State) (k : Nat) (g : Rope → Rope) : (s.onRope k g).replies = s.replies := by unfold State.onRope; split <;> rfl

@[simp] theorem State.onWg_turn (s : State) (k : Nat) (g : Workgroup → Workgroup) : (s.onWg k g).turn = s.turn := by unfold State.onWg; split <;> rfl
@[simp] theorem State.onWg_cur (s : State) (k : Nat) (g : Workgroup → Workgroup) : (s.onWg k g).cur = s.cur := by unfold State.onWg; split <;> rfl
@[simp] theorem State.onWg_curUnit (s : State) (k : Nat) (g : Workgroup → Workgroup) : (s.onWg k g).curUnit = s.curUnit := by unfold State.onWg; split <;> rfl
@[simp] theorem State.onWg_curCtx (s : State) (k : Nat) (g : Workgroup → Workgroup) : (s.onWg k g).curCtx = s.curCtx := by unfold State.onWg; split <;> rfl
@[simp] theorem State.onWg_curStream (s : State) (k : Nat) (g : Workgroup → Workgroup) : (s.onWg k g).curStream = s.curStream := by unfold State.onWg; split <;> rfl
@[simp] theorem State.onWg_inputs (s : State) (k : Nat) (g : Workgroup → Workgroup) : (s.onWg k g).inputs = s.inputs := by unfold State.onWg; split <;> rfl
@[simp] theorem State.onWg_free (s : State) (k : Nat) (g : Workgroup → Workgroup) : (s.onWg k g).free = s.free := by unfold State.onWg; split <;> rfl
@[simp] theorem State.onWg_undef (s : State) (k : Nat) (g : Workgroup → Workgroup) : (s.onWg k g).undef = s.undef := by unfold State.onWg; split <;> rfl
@[simp] theorem State.onWg_nextId (s : State) (k : Nat) (g : Workgroup → Workgroup) : (s.onWg k g).nextId = s.nextId := by unfold State.onWg; split <;> rfl
@[simp] theorem State.onWg_etimePs (s : State) (k : Nat) (g : Workgroup → Workgroup) : (s.onWg k g).etimePs = s.etimePs := by unfold State.onWg; split <;> rfl
@[simp] theorem State.onWg_epochPs (s : State) (k : Nat) (g : Workgroup → Workgroup) : (s.onWg k g).epochPs = s.epochPs := by unfold State.onWg; split <;> rfl
@[simp] theorem State.onWg_ropes (s : State) (k : Nat) (g : Workgroup → Workgroup) : (s.onWg k g).ropes = s.ropes := by unfold State.onWg; split <;> rfl
@[simp] theorem State.onWg_slots (s : State) (k : Nat) (g : Workgroup → Workgroup) : (s.onWg k g).slots = s.slots := by unfold State.onWg; split <;> rfl
@[simp] theorem State.onWg_arrays (s : State) (k : Nat) (g : Workgroup → Workgroup) : (s.onWg k g).arrays = s.arrays := by unfold State.onWg; split <;> rfl
@[simp] theorem State.onWg_cores (s : State) (k : Nat) (g : Workgroup → Workgroup) : (s.onWg k g).cores = s.cores := by unfold State.onWg; split <;> rfl
@[simp] theorem State.onWg_sfu (s : State) (k : Nat) (g : Workgroup → Workgroup) : (s.onWg k g).sfu = s.sfu := by unfold State.onWg; split <;> rfl
@[simp] theorem State.onWg_ctxs (s : State) (k : Nat) (g : Workgroup → Workgroup) : (s.onWg k g).ctxs = s.ctxs := by unfold State.onWg; split <;> rfl
@[simp] theorem State.onWg_log (s : State) (k : Nat) (g : Workgroup → Workgroup) : (s.onWg k g).log = s.log := by unfold State.onWg; split <;> rfl
@[simp] theorem State.onWg_faults (s : State) (k : Nat) (g : Workgroup → Workgroup) : (s.onWg k g).faults = s.faults := by unfold State.onWg; split <;> rfl
@[simp] theorem State.onWg_domains (s : State) (k : Nat) (g : Workgroup → Workgroup) : (s.onWg k g).domains = s.domains := by unfold State.onWg; split <;> rfl
@[simp] theorem State.onWg_streams (s : State) (k : Nat) (g : Workgroup → Workgroup) : (s.onWg k g).streams = s.streams := by unfold State.onWg; split <;> rfl
@[simp] theorem State.onWg_mem (s : State) (k : Nat) (g : Workgroup → Workgroup) : (s.onWg k g).mem = s.mem := by unfold State.onWg; split <;> rfl
@[simp] theorem State.onWg_host (s : State) (k : Nat) (g : Workgroup → Workgroup) : (s.onWg k g).host = s.host := by unfold State.onWg; split <;> rfl
@[simp] theorem State.onWg_peer (s : State) (k : Nat) (g : Workgroup → Workgroup) : (s.onWg k g).peer = s.peer := by unfold State.onWg; split <;> rfl
@[simp] theorem State.onWg_roots (s : State) (k : Nat) (g : Workgroup → Workgroup) : (s.onWg k g).roots = s.roots := by unfold State.onWg; split <;> rfl
@[simp] theorem State.onWg_stage2 (s : State) (k : Nat) (g : Workgroup → Workgroup) : (s.onWg k g).stage2 = s.stage2 := by unfold State.onWg; split <;> rfl
@[simp] theorem State.onWg_owners (s : State) (k : Nat) (g : Workgroup → Workgroup) : (s.onWg k g).owners = s.owners := by unfold State.onWg; split <;> rfl
@[simp] theorem State.onWg_scrubbed (s : State) (k : Nat) (g : Workgroup → Workgroup) : (s.onWg k g).scrubbed = s.scrubbed := by unfold State.onWg; split <;> rfl
@[simp] theorem State.onWg_l2 (s : State) (k : Nat) (g : Workgroup → Workgroup) : (s.onWg k g).l2 = s.l2 := by unfold State.onWg; split <;> rfl
@[simp] theorem State.onWg_tlb (s : State) (k : Nat) (g : Workgroup → Workgroup) : (s.onWg k g).tlb = s.tlb := by unfold State.onWg; split <;> rfl
@[simp] theorem State.onWg_code (s : State) (k : Nat) (g : Workgroup → Workgroup) : (s.onWg k g).code = s.code := by unfold State.onWg; split <;> rfl
@[simp] theorem State.onWg_asids (s : State) (k : Nat) (g : Workgroup → Workgroup) : (s.onWg k g).asids = s.asids := by unfold State.onWg; split <;> rfl
@[simp] theorem State.onWg_poison (s : State) (k : Nat) (g : Workgroup → Workgroup) : (s.onWg k g).poison = s.poison := by unfold State.onWg; split <;> rfl
@[simp] theorem State.onWg_partRegs (s : State) (k : Nat) (g : Workgroup → Workgroup) : (s.onWg k g).partRegs = s.partRegs := by unfold State.onWg; split <;> rfl
@[simp] theorem State.onWg_calendars (s : State) (k : Nat) (g : Workgroup → Workgroup) : (s.onWg k g).calendars = s.calendars := by unfold State.onWg; split <;> rfl
@[simp] theorem State.onWg_keys (s : State) (k : Nat) (g : Workgroup → Workgroup) : (s.onWg k g).keys = s.keys := by unfold State.onWg; split <;> rfl
@[simp] theorem State.onWg_digests (s : State) (k : Nat) (g : Workgroup → Workgroup) : (s.onWg k g).digests = s.digests := by unfold State.onWg; split <;> rfl
@[simp] theorem State.onWg_spdm (s : State) (k : Nat) (g : Workgroup → Workgroup) : (s.onWg k g).spdm = s.spdm := by unfold State.onWg; split <;> rfl
@[simp] theorem State.onWg_ide (s : State) (k : Nat) (g : Workgroup → Workgroup) : (s.onWg k g).ide = s.ide := by unfold State.onWg; split <;> rfl
@[simp] theorem State.onWg_blackBox (s : State) (k : Nat) (g : Workgroup → Workgroup) : (s.onWg k g).blackBox = s.blackBox := by unfold State.onWg; split <;> rfl
@[simp] theorem State.onWg_counters (s : State) (k : Nat) (g : Workgroup → Workgroup) : (s.onWg k g).counters = s.counters := by unfold State.onWg; split <;> rfl
@[simp] theorem State.onWg_images (s : State) (k : Nat) (g : Workgroup → Workgroup) : (s.onWg k g).images = s.images := by unfold State.onWg; split <;> rfl
@[simp] theorem State.onWg_duty (s : State) (k : Nat) (g : Workgroup → Workgroup) : (s.onWg k g).duty = s.duty := by unfold State.onWg; split <;> rfl
@[simp] theorem State.onWg_partDuty (s : State) (k : Nat) (g : Workgroup → Workgroup) : (s.onWg k g).partDuty = s.partDuty := by unfold State.onWg; split <;> rfl
@[simp] theorem State.onWg_dieOff (s : State) (k : Nat) (g : Workgroup → Workgroup) : (s.onWg k g).dieOff = s.dieOff := by unfold State.onWg; split <;> rfl
@[simp] theorem State.onWg_live (s : State) (k : Nat) (g : Workgroup → Workgroup) : (s.onWg k g).live = s.live := by unfold State.onWg; split <;> rfl
@[simp] theorem State.onWg_repairs (s : State) (k : Nat) (g : Workgroup → Workgroup) : (s.onWg k g).repairs = s.repairs := by unfold State.onWg; split <;> rfl
@[simp] theorem State.onWg_dump (s : State) (k : Nat) (g : Workgroup → Workgroup) : (s.onWg k g).dump = s.dump := by unfold State.onWg; split <;> rfl
@[simp] theorem State.onWg_stale (s : State) (k : Nat) (g : Workgroup → Workgroup) : (s.onWg k g).stale = s.stale := by unfold State.onWg; split <;> rfl
@[simp] theorem State.onWg_repaired (s : State) (k : Nat) (g : Workgroup → Workgroup) : (s.onWg k g).repaired = s.repaired := by unfold State.onWg; split <;> rfl
@[simp] theorem State.onWg_resets (s : State) (k : Nat) (g : Workgroup → Workgroup) : (s.onWg k g).resets = s.resets := by unfold State.onWg; split <;> rfl
@[simp] theorem State.onWg_rotors (s : State) (k : Nat) (g : Workgroup → Workgroup) : (s.onWg k g).rotors = s.rotors := by unfold State.onWg; split <;> rfl
@[simp] theorem State.onWg_preempts (s : State) (k : Nat) (g : Workgroup → Workgroup) : (s.onWg k g).preempts = s.preempts := by unfold State.onWg; split <;> rfl
@[simp] theorem State.onWg_fatals (s : State) (k : Nat) (g : Workgroup → Workgroup) : (s.onWg k g).fatals = s.fatals := by unfold State.onWg; split <;> rfl
@[simp] theorem State.onWg_replies (s : State) (k : Nat) (g : Workgroup → Workgroup) : (s.onWg k g).replies = s.replies := by unfold State.onWg; split <;> rfl

@[simp] theorem State.onStream_turn (s : State) (k : Nat) (g : Stream → Stream) : (s.onStream k g).turn = s.turn := by unfold State.onStream; split <;> rfl
@[simp] theorem State.onStream_cur (s : State) (k : Nat) (g : Stream → Stream) : (s.onStream k g).cur = s.cur := by unfold State.onStream; split <;> rfl
@[simp] theorem State.onStream_curUnit (s : State) (k : Nat) (g : Stream → Stream) : (s.onStream k g).curUnit = s.curUnit := by unfold State.onStream; split <;> rfl
@[simp] theorem State.onStream_curCtx (s : State) (k : Nat) (g : Stream → Stream) : (s.onStream k g).curCtx = s.curCtx := by unfold State.onStream; split <;> rfl
@[simp] theorem State.onStream_curStream (s : State) (k : Nat) (g : Stream → Stream) : (s.onStream k g).curStream = s.curStream := by unfold State.onStream; split <;> rfl
@[simp] theorem State.onStream_inputs (s : State) (k : Nat) (g : Stream → Stream) : (s.onStream k g).inputs = s.inputs := by unfold State.onStream; split <;> rfl
@[simp] theorem State.onStream_free (s : State) (k : Nat) (g : Stream → Stream) : (s.onStream k g).free = s.free := by unfold State.onStream; split <;> rfl
@[simp] theorem State.onStream_undef (s : State) (k : Nat) (g : Stream → Stream) : (s.onStream k g).undef = s.undef := by unfold State.onStream; split <;> rfl
@[simp] theorem State.onStream_nextId (s : State) (k : Nat) (g : Stream → Stream) : (s.onStream k g).nextId = s.nextId := by unfold State.onStream; split <;> rfl
@[simp] theorem State.onStream_etimePs (s : State) (k : Nat) (g : Stream → Stream) : (s.onStream k g).etimePs = s.etimePs := by unfold State.onStream; split <;> rfl
@[simp] theorem State.onStream_epochPs (s : State) (k : Nat) (g : Stream → Stream) : (s.onStream k g).epochPs = s.epochPs := by unfold State.onStream; split <;> rfl
@[simp] theorem State.onStream_ropes (s : State) (k : Nat) (g : Stream → Stream) : (s.onStream k g).ropes = s.ropes := by unfold State.onStream; split <;> rfl
@[simp] theorem State.onStream_wgs (s : State) (k : Nat) (g : Stream → Stream) : (s.onStream k g).wgs = s.wgs := by unfold State.onStream; split <;> rfl
@[simp] theorem State.onStream_slots (s : State) (k : Nat) (g : Stream → Stream) : (s.onStream k g).slots = s.slots := by unfold State.onStream; split <;> rfl
@[simp] theorem State.onStream_arrays (s : State) (k : Nat) (g : Stream → Stream) : (s.onStream k g).arrays = s.arrays := by unfold State.onStream; split <;> rfl
@[simp] theorem State.onStream_cores (s : State) (k : Nat) (g : Stream → Stream) : (s.onStream k g).cores = s.cores := by unfold State.onStream; split <;> rfl
@[simp] theorem State.onStream_sfu (s : State) (k : Nat) (g : Stream → Stream) : (s.onStream k g).sfu = s.sfu := by unfold State.onStream; split <;> rfl
@[simp] theorem State.onStream_ctxs (s : State) (k : Nat) (g : Stream → Stream) : (s.onStream k g).ctxs = s.ctxs := by unfold State.onStream; split <;> rfl
@[simp] theorem State.onStream_log (s : State) (k : Nat) (g : Stream → Stream) : (s.onStream k g).log = s.log := by unfold State.onStream; split <;> rfl
@[simp] theorem State.onStream_faults (s : State) (k : Nat) (g : Stream → Stream) : (s.onStream k g).faults = s.faults := by unfold State.onStream; split <;> rfl
@[simp] theorem State.onStream_domains (s : State) (k : Nat) (g : Stream → Stream) : (s.onStream k g).domains = s.domains := by unfold State.onStream; split <;> rfl
@[simp] theorem State.onStream_mem (s : State) (k : Nat) (g : Stream → Stream) : (s.onStream k g).mem = s.mem := by unfold State.onStream; split <;> rfl
@[simp] theorem State.onStream_host (s : State) (k : Nat) (g : Stream → Stream) : (s.onStream k g).host = s.host := by unfold State.onStream; split <;> rfl
@[simp] theorem State.onStream_peer (s : State) (k : Nat) (g : Stream → Stream) : (s.onStream k g).peer = s.peer := by unfold State.onStream; split <;> rfl
@[simp] theorem State.onStream_roots (s : State) (k : Nat) (g : Stream → Stream) : (s.onStream k g).roots = s.roots := by unfold State.onStream; split <;> rfl
@[simp] theorem State.onStream_stage2 (s : State) (k : Nat) (g : Stream → Stream) : (s.onStream k g).stage2 = s.stage2 := by unfold State.onStream; split <;> rfl
@[simp] theorem State.onStream_owners (s : State) (k : Nat) (g : Stream → Stream) : (s.onStream k g).owners = s.owners := by unfold State.onStream; split <;> rfl
@[simp] theorem State.onStream_scrubbed (s : State) (k : Nat) (g : Stream → Stream) : (s.onStream k g).scrubbed = s.scrubbed := by unfold State.onStream; split <;> rfl
@[simp] theorem State.onStream_l2 (s : State) (k : Nat) (g : Stream → Stream) : (s.onStream k g).l2 = s.l2 := by unfold State.onStream; split <;> rfl
@[simp] theorem State.onStream_tlb (s : State) (k : Nat) (g : Stream → Stream) : (s.onStream k g).tlb = s.tlb := by unfold State.onStream; split <;> rfl
@[simp] theorem State.onStream_code (s : State) (k : Nat) (g : Stream → Stream) : (s.onStream k g).code = s.code := by unfold State.onStream; split <;> rfl
@[simp] theorem State.onStream_asids (s : State) (k : Nat) (g : Stream → Stream) : (s.onStream k g).asids = s.asids := by unfold State.onStream; split <;> rfl
@[simp] theorem State.onStream_poison (s : State) (k : Nat) (g : Stream → Stream) : (s.onStream k g).poison = s.poison := by unfold State.onStream; split <;> rfl
@[simp] theorem State.onStream_partRegs (s : State) (k : Nat) (g : Stream → Stream) : (s.onStream k g).partRegs = s.partRegs := by unfold State.onStream; split <;> rfl
@[simp] theorem State.onStream_calendars (s : State) (k : Nat) (g : Stream → Stream) : (s.onStream k g).calendars = s.calendars := by unfold State.onStream; split <;> rfl
@[simp] theorem State.onStream_keys (s : State) (k : Nat) (g : Stream → Stream) : (s.onStream k g).keys = s.keys := by unfold State.onStream; split <;> rfl
@[simp] theorem State.onStream_digests (s : State) (k : Nat) (g : Stream → Stream) : (s.onStream k g).digests = s.digests := by unfold State.onStream; split <;> rfl
@[simp] theorem State.onStream_spdm (s : State) (k : Nat) (g : Stream → Stream) : (s.onStream k g).spdm = s.spdm := by unfold State.onStream; split <;> rfl
@[simp] theorem State.onStream_ide (s : State) (k : Nat) (g : Stream → Stream) : (s.onStream k g).ide = s.ide := by unfold State.onStream; split <;> rfl
@[simp] theorem State.onStream_blackBox (s : State) (k : Nat) (g : Stream → Stream) : (s.onStream k g).blackBox = s.blackBox := by unfold State.onStream; split <;> rfl
@[simp] theorem State.onStream_counters (s : State) (k : Nat) (g : Stream → Stream) : (s.onStream k g).counters = s.counters := by unfold State.onStream; split <;> rfl
@[simp] theorem State.onStream_images (s : State) (k : Nat) (g : Stream → Stream) : (s.onStream k g).images = s.images := by unfold State.onStream; split <;> rfl
@[simp] theorem State.onStream_duty (s : State) (k : Nat) (g : Stream → Stream) : (s.onStream k g).duty = s.duty := by unfold State.onStream; split <;> rfl
@[simp] theorem State.onStream_partDuty (s : State) (k : Nat) (g : Stream → Stream) : (s.onStream k g).partDuty = s.partDuty := by unfold State.onStream; split <;> rfl
@[simp] theorem State.onStream_dieOff (s : State) (k : Nat) (g : Stream → Stream) : (s.onStream k g).dieOff = s.dieOff := by unfold State.onStream; split <;> rfl
@[simp] theorem State.onStream_live (s : State) (k : Nat) (g : Stream → Stream) : (s.onStream k g).live = s.live := by unfold State.onStream; split <;> rfl
@[simp] theorem State.onStream_repairs (s : State) (k : Nat) (g : Stream → Stream) : (s.onStream k g).repairs = s.repairs := by unfold State.onStream; split <;> rfl
@[simp] theorem State.onStream_dump (s : State) (k : Nat) (g : Stream → Stream) : (s.onStream k g).dump = s.dump := by unfold State.onStream; split <;> rfl
@[simp] theorem State.onStream_stale (s : State) (k : Nat) (g : Stream → Stream) : (s.onStream k g).stale = s.stale := by unfold State.onStream; split <;> rfl
@[simp] theorem State.onStream_repaired (s : State) (k : Nat) (g : Stream → Stream) : (s.onStream k g).repaired = s.repaired := by unfold State.onStream; split <;> rfl
@[simp] theorem State.onStream_resets (s : State) (k : Nat) (g : Stream → Stream) : (s.onStream k g).resets = s.resets := by unfold State.onStream; split <;> rfl
@[simp] theorem State.onStream_rotors (s : State) (k : Nat) (g : Stream → Stream) : (s.onStream k g).rotors = s.rotors := by unfold State.onStream; split <;> rfl
@[simp] theorem State.onStream_preempts (s : State) (k : Nat) (g : Stream → Stream) : (s.onStream k g).preempts = s.preempts := by unfold State.onStream; split <;> rfl
@[simp] theorem State.onStream_fatals (s : State) (k : Nat) (g : Stream → Stream) : (s.onStream k g).fatals = s.fatals := by unfold State.onStream; split <;> rfl
@[simp] theorem State.onStream_replies (s : State) (k : Nat) (g : Stream → Stream) : (s.onStream k g).replies = s.replies := by unfold State.onStream; split <;> rfl

@[simp] theorem State.drawDelay_turn (s : State) : (s.drawDelay).2.turn = s.turn := rfl
@[simp] theorem State.drawDelay_cur (s : State) : (s.drawDelay).2.cur = s.cur := rfl
@[simp] theorem State.drawDelay_curUnit (s : State) : (s.drawDelay).2.curUnit = s.curUnit := rfl
@[simp] theorem State.drawDelay_curCtx (s : State) : (s.drawDelay).2.curCtx = s.curCtx := rfl
@[simp] theorem State.drawDelay_curStream (s : State) : (s.drawDelay).2.curStream = s.curStream := rfl
@[simp] theorem State.drawDelay_inputs (s : State) : (s.drawDelay).2.inputs = s.inputs := rfl
@[simp] theorem State.drawDelay_undef (s : State) : (s.drawDelay).2.undef = s.undef := rfl
@[simp] theorem State.drawDelay_nextId (s : State) : (s.drawDelay).2.nextId = s.nextId := rfl
@[simp] theorem State.drawDelay_etimePs (s : State) : (s.drawDelay).2.etimePs = s.etimePs := rfl
@[simp] theorem State.drawDelay_epochPs (s : State) : (s.drawDelay).2.epochPs = s.epochPs := rfl
@[simp] theorem State.drawDelay_ropes (s : State) : (s.drawDelay).2.ropes = s.ropes := rfl
@[simp] theorem State.drawDelay_wgs (s : State) : (s.drawDelay).2.wgs = s.wgs := rfl
@[simp] theorem State.drawDelay_slots (s : State) : (s.drawDelay).2.slots = s.slots := rfl
@[simp] theorem State.drawDelay_arrays (s : State) : (s.drawDelay).2.arrays = s.arrays := rfl
@[simp] theorem State.drawDelay_cores (s : State) : (s.drawDelay).2.cores = s.cores := rfl
@[simp] theorem State.drawDelay_sfu (s : State) : (s.drawDelay).2.sfu = s.sfu := rfl
@[simp] theorem State.drawDelay_ctxs (s : State) : (s.drawDelay).2.ctxs = s.ctxs := rfl
@[simp] theorem State.drawDelay_log (s : State) : (s.drawDelay).2.log = s.log := rfl
@[simp] theorem State.drawDelay_faults (s : State) : (s.drawDelay).2.faults = s.faults := rfl
@[simp] theorem State.drawDelay_domains (s : State) : (s.drawDelay).2.domains = s.domains := rfl
@[simp] theorem State.drawDelay_streams (s : State) : (s.drawDelay).2.streams = s.streams := rfl
@[simp] theorem State.drawDelay_mem (s : State) : (s.drawDelay).2.mem = s.mem := rfl
@[simp] theorem State.drawDelay_host (s : State) : (s.drawDelay).2.host = s.host := rfl
@[simp] theorem State.drawDelay_peer (s : State) : (s.drawDelay).2.peer = s.peer := rfl
@[simp] theorem State.drawDelay_roots (s : State) : (s.drawDelay).2.roots = s.roots := rfl
@[simp] theorem State.drawDelay_stage2 (s : State) : (s.drawDelay).2.stage2 = s.stage2 := rfl
@[simp] theorem State.drawDelay_owners (s : State) : (s.drawDelay).2.owners = s.owners := rfl
@[simp] theorem State.drawDelay_scrubbed (s : State) : (s.drawDelay).2.scrubbed = s.scrubbed := rfl
@[simp] theorem State.drawDelay_l2 (s : State) : (s.drawDelay).2.l2 = s.l2 := rfl
@[simp] theorem State.drawDelay_tlb (s : State) : (s.drawDelay).2.tlb = s.tlb := rfl
@[simp] theorem State.drawDelay_code (s : State) : (s.drawDelay).2.code = s.code := rfl
@[simp] theorem State.drawDelay_asids (s : State) : (s.drawDelay).2.asids = s.asids := rfl
@[simp] theorem State.drawDelay_poison (s : State) : (s.drawDelay).2.poison = s.poison := rfl
@[simp] theorem State.drawDelay_partRegs (s : State) : (s.drawDelay).2.partRegs = s.partRegs := rfl
@[simp] theorem State.drawDelay_calendars (s : State) : (s.drawDelay).2.calendars = s.calendars := rfl
@[simp] theorem State.drawDelay_keys (s : State) : (s.drawDelay).2.keys = s.keys := rfl
@[simp] theorem State.drawDelay_digests (s : State) : (s.drawDelay).2.digests = s.digests := rfl
@[simp] theorem State.drawDelay_spdm (s : State) : (s.drawDelay).2.spdm = s.spdm := rfl
@[simp] theorem State.drawDelay_ide (s : State) : (s.drawDelay).2.ide = s.ide := rfl
@[simp] theorem State.drawDelay_blackBox (s : State) : (s.drawDelay).2.blackBox = s.blackBox := rfl
@[simp] theorem State.drawDelay_counters (s : State) : (s.drawDelay).2.counters = s.counters := rfl
@[simp] theorem State.drawDelay_images (s : State) : (s.drawDelay).2.images = s.images := rfl
@[simp] theorem State.drawDelay_duty (s : State) : (s.drawDelay).2.duty = s.duty := rfl
@[simp] theorem State.drawDelay_partDuty (s : State) : (s.drawDelay).2.partDuty = s.partDuty := rfl
@[simp] theorem State.drawDelay_dieOff (s : State) : (s.drawDelay).2.dieOff = s.dieOff := rfl
@[simp] theorem State.drawDelay_live (s : State) : (s.drawDelay).2.live = s.live := rfl
@[simp] theorem State.drawDelay_repairs (s : State) : (s.drawDelay).2.repairs = s.repairs := rfl
@[simp] theorem State.drawDelay_dump (s : State) : (s.drawDelay).2.dump = s.dump := rfl
@[simp] theorem State.drawDelay_stale (s : State) : (s.drawDelay).2.stale = s.stale := rfl
@[simp] theorem State.drawDelay_repaired (s : State) : (s.drawDelay).2.repaired = s.repaired := rfl
@[simp] theorem State.drawDelay_resets (s : State) : (s.drawDelay).2.resets = s.resets := rfl
@[simp] theorem State.drawDelay_rotors (s : State) : (s.drawDelay).2.rotors = s.rotors := rfl
@[simp] theorem State.drawDelay_preempts (s : State) : (s.drawDelay).2.preempts = s.preempts := rfl
@[simp] theorem State.drawDelay_fatals (s : State) : (s.drawDelay).2.fatals = s.fatals := rfl
@[simp] theorem State.drawDelay_replies (s : State) : (s.drawDelay).2.replies = s.replies := rfl

@[simp] theorem State.draw_turn (s : State) : (s.draw).2.turn = s.turn := rfl
@[simp] theorem State.draw_cur (s : State) : (s.draw).2.cur = s.cur := rfl
@[simp] theorem State.draw_curUnit (s : State) : (s.draw).2.curUnit = s.curUnit := rfl
@[simp] theorem State.draw_curCtx (s : State) : (s.draw).2.curCtx = s.curCtx := rfl
@[simp] theorem State.draw_curStream (s : State) : (s.draw).2.curStream = s.curStream := rfl
@[simp] theorem State.draw_inputs (s : State) : (s.draw).2.inputs = s.inputs := rfl
@[simp] theorem State.draw_undef (s : State) : (s.draw).2.undef = s.undef := rfl
@[simp] theorem State.draw_nextId (s : State) : (s.draw).2.nextId = s.nextId := rfl
@[simp] theorem State.draw_etimePs (s : State) : (s.draw).2.etimePs = s.etimePs := rfl
@[simp] theorem State.draw_epochPs (s : State) : (s.draw).2.epochPs = s.epochPs := rfl
@[simp] theorem State.draw_ropes (s : State) : (s.draw).2.ropes = s.ropes := rfl
@[simp] theorem State.draw_wgs (s : State) : (s.draw).2.wgs = s.wgs := rfl
@[simp] theorem State.draw_slots (s : State) : (s.draw).2.slots = s.slots := rfl
@[simp] theorem State.draw_arrays (s : State) : (s.draw).2.arrays = s.arrays := rfl
@[simp] theorem State.draw_cores (s : State) : (s.draw).2.cores = s.cores := rfl
@[simp] theorem State.draw_sfu (s : State) : (s.draw).2.sfu = s.sfu := rfl
@[simp] theorem State.draw_ctxs (s : State) : (s.draw).2.ctxs = s.ctxs := rfl
@[simp] theorem State.draw_log (s : State) : (s.draw).2.log = s.log := rfl
@[simp] theorem State.draw_faults (s : State) : (s.draw).2.faults = s.faults := rfl
@[simp] theorem State.draw_domains (s : State) : (s.draw).2.domains = s.domains := rfl
@[simp] theorem State.draw_streams (s : State) : (s.draw).2.streams = s.streams := rfl
@[simp] theorem State.draw_mem (s : State) : (s.draw).2.mem = s.mem := rfl
@[simp] theorem State.draw_host (s : State) : (s.draw).2.host = s.host := rfl
@[simp] theorem State.draw_peer (s : State) : (s.draw).2.peer = s.peer := rfl
@[simp] theorem State.draw_roots (s : State) : (s.draw).2.roots = s.roots := rfl
@[simp] theorem State.draw_stage2 (s : State) : (s.draw).2.stage2 = s.stage2 := rfl
@[simp] theorem State.draw_owners (s : State) : (s.draw).2.owners = s.owners := rfl
@[simp] theorem State.draw_scrubbed (s : State) : (s.draw).2.scrubbed = s.scrubbed := rfl
@[simp] theorem State.draw_l2 (s : State) : (s.draw).2.l2 = s.l2 := rfl
@[simp] theorem State.draw_tlb (s : State) : (s.draw).2.tlb = s.tlb := rfl
@[simp] theorem State.draw_code (s : State) : (s.draw).2.code = s.code := rfl
@[simp] theorem State.draw_asids (s : State) : (s.draw).2.asids = s.asids := rfl
@[simp] theorem State.draw_poison (s : State) : (s.draw).2.poison = s.poison := rfl
@[simp] theorem State.draw_partRegs (s : State) : (s.draw).2.partRegs = s.partRegs := rfl
@[simp] theorem State.draw_calendars (s : State) : (s.draw).2.calendars = s.calendars := rfl
@[simp] theorem State.draw_keys (s : State) : (s.draw).2.keys = s.keys := rfl
@[simp] theorem State.draw_digests (s : State) : (s.draw).2.digests = s.digests := rfl
@[simp] theorem State.draw_spdm (s : State) : (s.draw).2.spdm = s.spdm := rfl
@[simp] theorem State.draw_ide (s : State) : (s.draw).2.ide = s.ide := rfl
@[simp] theorem State.draw_blackBox (s : State) : (s.draw).2.blackBox = s.blackBox := rfl
@[simp] theorem State.draw_counters (s : State) : (s.draw).2.counters = s.counters := rfl
@[simp] theorem State.draw_images (s : State) : (s.draw).2.images = s.images := rfl
@[simp] theorem State.draw_duty (s : State) : (s.draw).2.duty = s.duty := rfl
@[simp] theorem State.draw_partDuty (s : State) : (s.draw).2.partDuty = s.partDuty := rfl
@[simp] theorem State.draw_dieOff (s : State) : (s.draw).2.dieOff = s.dieOff := rfl
@[simp] theorem State.draw_live (s : State) : (s.draw).2.live = s.live := rfl
@[simp] theorem State.draw_repairs (s : State) : (s.draw).2.repairs = s.repairs := rfl
@[simp] theorem State.draw_dump (s : State) : (s.draw).2.dump = s.dump := rfl
@[simp] theorem State.draw_stale (s : State) : (s.draw).2.stale = s.stale := rfl
@[simp] theorem State.draw_repaired (s : State) : (s.draw).2.repaired = s.repaired := rfl
@[simp] theorem State.draw_resets (s : State) : (s.draw).2.resets = s.resets := rfl
@[simp] theorem State.draw_rotors (s : State) : (s.draw).2.rotors = s.rotors := rfl
@[simp] theorem State.draw_preempts (s : State) : (s.draw).2.preempts = s.preempts := rfl
@[simp] theorem State.draw_fatals (s : State) : (s.draw).2.fatals = s.fatals := rfl
@[simp] theorem State.draw_replies (s : State) : (s.draw).2.replies = s.replies := rfl

/-! Reading back what an update wrote. -/

@[simp] theorem State.setRope_get (s : State) (k : Nat) (r : Rope) : tget (s.setRope k r).ropes k = some r := tget_tset_same _ _ _
theorem State.setRope_get_ne (s : State) {k j : Nat} (r : Rope) (h : j ≠ k) : tget (s.setRope k r).ropes j = tget s.ropes j :=
  tget_tset_ne _ _ h
@[simp] theorem State.setWg_get (s : State) (k : Nat) (w : Workgroup) : tget (s.setWg k w).wgs k = some w := tget_tset_same _ _ _
theorem State.setWg_get_ne (s : State) {k j : Nat} (w : Workgroup) (h : j ≠ k) : tget (s.setWg k w).wgs j = tget s.wgs j :=
  tget_tset_ne _ _ h
@[simp] theorem State.setStream_get (s : State) (k : Nat) (t : Stream) : tget (s.setStream k t).streams k = some t :=
  tget_tset_same _ _ _
@[simp] theorem State.setCore_core (s : State) (c : Nat) (k : Core) : (s.setCore c k).core c = k := by
  simp [State.core, State.setCore]
theorem State.setCore_core_ne (s : State) {c d : Nat} (k : Core) (h : d ≠ c) : (s.setCore c k).core d = s.core d := by
  simp [State.core, State.setCore, tget_tset_ne _ _ h, State.freshCore]
@[simp] theorem State.setDomain_domain (s : State) (d : BitVec 16) (x : Domain) : (s.setDomain d x).domain d = x := by
  simp [State.domain, State.setDomain]
@[simp] theorem State.setSlot_slot (s : State) (k : Nat) (m : MapSlot) : (s.setSlot k m).slot k = m := by
  simp [State.slot, State.setSlot]

/-- What `onRope` leaves at a rope: the changed rope, or nothing where there was none. -/
theorem State.onRope_get (s : State) (k j : Nat) (g : Rope → Rope) :
    tget (s.onRope k g).ropes j = if j = k then (tget s.ropes k).map g else tget s.ropes j := by
  unfold State.onRope
  split
  · next r h => by_cases hj : j = k <;> simp [State.setRope, tget_tset, hj, h]
  · next h => by_cases hj : j = k <;> simp [hj, h]

/-- What `onWg` leaves at a workgroup. -/
theorem State.onWg_get (s : State) (k j : Nat) (g : Workgroup → Workgroup) :
    tget (s.onWg k g).wgs j = if j = k then (tget s.wgs k).map g else tget s.wgs j := by
  unfold State.onWg
  split
  · next r h => by_cases hj : j = k <;> simp [State.setWg, tget_tset, hj, h]
  · next h => by_cases hj : j = k <;> simp [hj, h]

/-! Registers: reading after one register write (R11, R17, R18). -/

@[simp] theorem Rope.setV_s (r : Rope) (n l : Nat) (v : Word) : (r.setV n l v).s = r.s := by unfold Rope.setV; split <;> rfl
@[simp] theorem Rope.setV_p (r : Rope) (n l : Nat) (v : Word) : (r.setV n l v).p = r.p := by unfold Rope.setV; split <;> rfl
@[simp] theorem Rope.setV_strands (r : Rope) (n l : Nat) (v : Word) : (r.setV n l v).strands = r.strands := by
  unfold Rope.setV; split <;> rfl
@[simp] theorem Rope.setS_v (r : Rope) (n : Nat) (v : Word) : (r.setS n v).v = r.v := rfl
@[simp] theorem Rope.setS_p (r : Rope) (n : Nat) (v : Word) : (r.setS n v).p = r.p := rfl
@[simp] theorem Rope.setS_strands (r : Rope) (n : Nat) (v : Word) : (r.setS n v).strands = r.strands := rfl
@[simp] theorem Rope.setP_v (r : Rope) (n : Nat) (m v : Word) : (r.setP n m v).v = r.v := by unfold Rope.setP; split <;> rfl
@[simp] theorem Rope.setP_s (r : Rope) (n : Nat) (m v : Word) : (r.setP n m v).s = r.s := by unfold Rope.setP; split <;> rfl
@[simp] theorem Rope.setP_strands (r : Rope) (n : Nat) (m v : Word) : (r.setP n m v).strands = r.strands := by
  unfold Rope.setP; split <;> rfl
@[simp] theorem Rope.setS_sr (r : Rope) (n j : Nat) (v : Word) : (r.setS n v).sr j = if j = n then v else r.sr j := by
  simp [Rope.sr, Rope.setS, rget_rset]

/-- A vector register's lane after a write: absent lanes are never written (R11). -/
theorem Rope.setV_v (r : Rope) (n l : Nat) (v : Word) :
    (r.setV n l v).v = if r.present.getLsbD l then rset 0 r.v (32 * n + l) v else r.v := by
  unfold Rope.setV; split <;> rfl

/-- A predicate after a write of some of its bits: p7 and absent lanes ignore it (R11, R18). -/
theorem Rope.setP_pr (r : Rope) (n j : Nat) (m v : Word) :
    (r.setP n m v).pr j =
      if j = n ∧ n ≠ 7 then (r.pr n &&& ~~~(m &&& r.present)) ||| (v &&& (m &&& r.present)) else r.pr j := by
  unfold Rope.setP
  by_cases hn : n = 7
  · simp [hn]
  · by_cases hj : j = n
    · subst hj; simp [hn, Rope.pr]
    · by_cases h7 : j = 7
      · subst h7; simp [hn, Rope.pr, Ne.symm hn]
      · simp [hn, hj, h7, Rope.pr, rget_rset]

end Sys2Proof.Machine
end

