-- ==== Sys2Proof/Laws/Issue.lean ====
section
/-! SUPPORT. What the envelope of the rope instructions can answer, and how the moulds of the arithmetic instructions complete. -/

namespace Sys2Proof.Machine

/-- What stands behind an instruction that starts. -/
theorem begun_spec {s : State} {op : Nat} {f : Fields} {pb : PB} {b : Begun} (h : s.begun op f pb = some b) :
    s.issuing op f = some b.x ∧ metaOf op = some b.m ∧ b.x.proFault = none ∧
    b.y = b.x.viewed s (b.x.readsOf op b.m f pb) ∧ b.t = b.x.drawn s (b.x.readsOf op b.m f pb) ∧ b.w = regWrites op b.m f pb ∧
    regsOk op b.m f pb b.x.r.regs = true ∧ privOk op b.x.r.priv = true ∧
    b.x.hazard (b.x.readsOf op b.m f pb) (regWrites op b.m f pb) = .clear ∧
    (usesF64 op && decide (b.x.core.cyc < (tget b.x.core.f64 b.x.r.quad).getD 0)) = false := by
  unfold State.begun at h
  split at h
  · next x m hx hm =>
    simp only [] at h
    split at h
    · next hc =>
      cases h
      simp only [Bool.and_eq_true, decide_eq_true_eq, Bool.not_eq_true', Option.isNone_iff_eq_none] at hc
      obtain ⟨⟨⟨⟨h1, h2⟩, h3⟩, h4⟩, h5⟩ := hc
      exact ⟨hx, hm, h1, rfl, rfl, rfl, h2, h3, h5, h4⟩
    · cases h
  · cases h

/-- The issue of an instruction carries its opcode and fields. -/
theorem issuing_spec {s : State} {op : Nat} {f : Fields} {x : Issue} (h : s.issuing op f = some x) :
    x.op = op ∧ x.f = f ∧ x.k = s.cur ∧ x.unit = s.curUnit ∧ tget s.ropes s.cur = some x.r ∧ tget s.wgs x.r.wg = some x.w ∧
    x.c = x.w.core ∧ x.core = s.core x.c := by
  unfold State.issuing at h
  split at h
  · cases h
  · next r hr =>
    split at h
    · cases h
    · next w hw =>
      simp only [] at h
      split at h
      · cases h
      · cases h; exact ⟨rfl, rfl, rfl, rfl, hr, hw, rfl, rfl⟩

theorem begun_op {s : State} {op : Nat} {f : Fields} {pb : PB} {b : Begun} (h : s.begun op f pb = some b) :
    b.x.op = op ∧ b.x.f = f ∧ b.y.op = op ∧ b.y.f = f := by
  obtain ⟨hi, -, -, hy, -⟩ := begun_spec h
  obtain ⟨h1, h2, -⟩ := issuing_spec hi
  rw [hy]
  exact ⟨h1, h2, h1, h2⟩

/-- The envelope runs the body of an instruction that starts. -/
theorem issue_begun {s : State} {op : Nat} {f : Fields} {pb : PB} {b : Begun} (body : Issue → State → Act)
    (h : s.begun op f pb = some b) :
    issue op f pb body s =
      match body b.y b.t with
      | .wait => .next s
      | .hold s1 => .next { s1 with turn := .choose }
      | .trap q => .next (b.trapped s q)
      | .go s1 ws extra nx => .next (b.after s1 ws extra nx) := by
  obtain ⟨hi, hm, hp, hy, ht, hw, hr, hv, hh, hf⟩ := begun_spec h
  unfold issue
  simp only [hi, hp, hm, hr, hv, hh, hf, Bool.not_true, Bool.false_eq_true, if_false]
  rw [← hy, ← ht]
  cases body b.y b.t <;> rfl

/-- An instruction that starts and whose body goes on answers the next state. -/
theorem issue_go {s : State} {op : Nat} {f : Fields} {pb : PB} {b : Begun} {body : Issue → State → Act} {s1 : State}
    {ws : List RegWrite} {extra : Nat} {nx : Next} (h : s.begun op f pb = some b) (hg : body b.y b.t = .go s1 ws extra nx) :
    issue op f pb body s = .next (b.after s1 ws extra nx) := by rw [issue_begun body h, hg]

/-- An instruction that starts and whose body traps takes the trap. -/
theorem issue_trap {s : State} {op : Nat} {f : Fields} {pb : PB} {b : Begun} {body : Issue → State → Act} {q : TrapReq}
    (h : s.begun op f pb = some b) (hg : body b.y b.t = .trap q) : issue op f pb body s = .next (b.trapped s q) := by
  rw [issue_begun body h, hg]

/-- An instruction that starts and whose body waits leaves the state as it is. -/
theorem issue_wait {s : State} {op : Nat} {f : Fields} {pb : PB} {b : Begun} {body : Issue → State → Act}
    (h : s.begun op f pb = some b) (hg : body b.y b.t = .wait) : issue op f pb body s = .next s := by
  rw [issue_begun body h, hg]

/-- Everything the envelope can answer: no unit stands there; the state as it is; the end of a prologue; a trap; or the
effect of an instruction that started. -/
theorem issue_cases {s : State} {op : Nat} {f : Fields} {pb : PB} {body : Issue → State → Act}
    {P : Host.Outcome State Fault Refusal → Prop} (hf : P (.fault .noIssuingUnit)) (hw : P (.next s))
    (hp : ∀ x reason, s.issuing op f = some x → x.proFault = some reason →
      P (.next { (s.raiseFault x.w 7 reason 0 none).killWg x.r.wg with turn := .choose }))
    (ht : ∀ x q, s.issuing op f = some x → P (.next { x.raise s q with turn := .choose }))
    (hh : ∀ b s1, s.begun op f pb = some b → body b.y b.t = .hold s1 → P (.next { s1 with turn := .choose }))
    (hg : ∀ b s1 ws extra nx, s.begun op f pb = some b → body b.y b.t = .go s1 ws extra nx →
      P (.next (b.after s1 ws extra nx))) : P (issue op f pb body s) := by
  cases hb : s.begun op f pb with
  | some b =>
    rw [issue_begun body hb]
    split
    · exact hw
    · next s1 h => exact hh b s1 hb h
    · exact ht b.x _ (begun_spec hb).1
    · next s1 ws extra nx h => exact hg b s1 ws extra nx hb h
  | none =>
    unfold issue
    split
    · exact hf
    · next x hx =>
      split
      · next hpf => exact hp x _ hx hpf
      · next hpro =>
        split
        · exact ht x _ hx
        · next m hm =>
          split
          · exact ht x _ hx
          · next hreg =>
            split
            · exact ht x _ hx
            · next hpriv =>
              split
              · exact hw
              · next hf64 =>
                simp only []
                split
                · exact hw
                · exact ht x _ hx
                · next hclear =>
                  exfalso
                  unfold State.begun at hb
                  simp [hx, hm, hpro, hclear] at hb
                  simp_all

/-! The moulds. -/

/-- The end of an arithmetic instruction is its destination, where no flag traps. -/
theorem writeD_dest {b : Begun} {res : Nat → ER} {ws : List RegWrite} (s1 : State) (extra : Nat) (hf : b.y.f = b.x.f)
    (h : b.dest res = some ws) : b.y.writeD s1 b.m res extra = .go s1 ws extra .fall := by
  unfold Begun.dest Begun.untrapped at h
  unfold Issue.writeD Issue.finish
  simp only [hf] at *
  split at h
  · next ha => cases h; simp [ha]
  · next ha =>
    simp only [ha, if_false]
    split at h
    · next hs =>
      split at h
      · next hq =>
        cases h
        rw [if_pos hs, if_neg]
        simpa [or_iff_not_imp_left] using hq
      · cases h
    · next hs =>
      split at h
      · next hq =>
        cases h
        rw [if_neg hs, if_neg]
        simpa [or_iff_not_imp_left] using hq
      · cases h

theorem mapped_ok {b : Begun} {s1 : State} {extra : Nat} (h : b.mapped = some (s1, extra)) :
    b.y.mapIn b.t b.m = .ok (s1, extra) := by
  unfold Begun.mapped at h
  split at h
  · next p hp => cases h; exact hp
  · cases h

/-- Without a mapped operand no check stops the map stage (R139). -/
theorem mapChecks_plain {x : Issue} (s : State) (rowA rowB : Nat) (intA intB facc : Bool) (ha : x.f.mae = false) (hb : x.f.mbe = false) :
    x.mapChecks s rowA rowB intA intB facc = none := by
  simp [Issue.mapChecks, ha, hb]

/-- The map stage of an instruction that a check stops traps with its record, or waits (R139). -/
theorem mapStageIn_stops {x : Issue} {s : State} {rowA rowB : Nat} {intA intB facc : Bool} {c : MapCheck}
    (h : x.mapChecks s rowA rowB intA intB facc = some c) :
    x.mapStageIn s rowA rowB intA intB facc = .error c.act := by
  unfold Issue.mapStageIn
  by_cases hm : (x.f.mae || x.f.mbe) = true
  · rw [if_pos hm, h]
  · simp only [Bool.or_eq_true, not_or, Bool.not_eq_true] at hm
    rw [mapChecks_plain s rowA rowB intA intB facc hm.1 hm.2] at h
    cases h

/-- An S2 instruction completes with its result. -/
theorem alu2_next {s : State} {op : Nat} {f : Fields} {g : Meta → CW → EV → EV → ER} {b : Begun} {s1 : State} {extra : Nat}
    {ws : List RegWrite} (h : s.begun op f pb0 = some b) (hm : b.mapped = some (s1, extra)) (hd : b.dest (resAB g b) = some ws) :
    alu2 op f g s = .next (b.after s1 ws extra .fall) := by
  have ho := begun_op h
  refine issue_go h ?_
  simp only [(begun_spec h).2.1, mapped_ok hm]
  rw [← writeD_dest s1 extra (by rw [ho.2.2.2, ho.2.1]) hd]
  unfold resAB
  rw [ho.2.1]

/-- An S1 instruction completes with its result. -/
theorem alu1_next {s : State} {op : Nat} {f : Fields} {g : Meta → CW → EV → ER} {b : Begun} {s1 : State} {extra : Nat}
    {ws : List RegWrite} (h : s.begun op f pb0 = some b) (hm : b.mapped = some (s1, extra)) (hd : b.dest (resB g b) = some ws) :
    alu1 op f g s = .next (b.after s1 ws extra .fall) := by
  have ho := begun_op h
  refine issue_go h ?_
  simp only [(begun_spec h).2.1, mapped_ok hm]
  rw [← writeD_dest s1 extra (by rw [ho.2.2.2, ho.2.1]) hd]
  unfold resB
  rw [ho.2.1]

/-- An S3 instruction completes with its result. -/
theorem alu3_next {s : State} {op : Nat} {f : Fields} {g : Meta → CW → EV → EV → EV → ER} {b : Begun} {s1 : State} {extra : Nat}
    {ws : List RegWrite} (h : s.begun op f pb0 = some b) (hm : b.mapped = some (s1, extra)) (hd : b.dest (resABC g b) = some ws) :
    alu3 op f g s = .next (b.after s1 ws extra .fall) := by
  have ho := begun_op h
  refine issue_go h ?_
  simp only [(begun_spec h).2.1, mapped_ok hm]
  rw [← writeD_dest s1 extra (by rw [ho.2.2.2, ho.2.1]) hd]
  unfold resABC
  rw [ho.2.1]

/-- A conversion completes with its result. -/
theorem aluCvt_next {s : State} {op : Nat} {f : Fields} {g : Meta → CW → EV → ER} {b : Begun} {s1 : State} {extra : Nat}
    {ws : List RegWrite} (h : s.begun op f pb0 = some b) (hm : b.mapped = some (s1, extra)) (hd : b.dest (resCvt g b) = some ws) :
    aluCvt op f g s = .next (b.after s1 ws extra .fall) := by
  have ho := begun_op h
  refine issue_go h ?_
  simp only [(begun_spec h).2.1, mapped_ok hm]
  rw [← writeD_dest s1 extra (by rw [ho.2.2.2, ho.2.1]) hd]
  unfold resCvt
  rw [ho.2.1]

end Sys2Proof.Machine
end

