-- ==== Sys2Proof/Laws/Frame.lean ====
section
/-! SUPPORT. What the instructions that only write registers leave unchanged. -/

namespace Sys2Proof.Machine

/-- A rope that differs from another only in its lanes and scheduling. -/
def Rope.Moves (r r' : Rope) : Prop := r' = { r with strands := r'.strands, sched := r'.sched }

theorem Rope.moves_refl (r : Rope) : r.Moves r := rfl
theorem Rope.moves_trans {a b c : Rope} (h : a.Moves b) (h' : b.Moves c) : a.Moves c := by
  unfold Rope.Moves at *; rw [h', h]
theorem Rope.moveUnit_moves (r : Rope) (u : Nat) (nx : Nat → DWord) : r.Moves (r.moveUnit u nx) := rfl
theorem Rope.foldl_moves {α : Type} (g : Rope → α → Rope) (hg : ∀ (r : Rope) a, r.Moves (g r a)) (l : List α) (r : Rope) :
    r.Moves (l.foldl g r) := by
  induction l generalizing r with
  | nil => exact Rope.moves_refl r
  | cons a l ih => exact Rope.moves_trans (hg r a) (ih _)
theorem Rope.readyUnits_moves (r : Rope) (st : BitVec 8) (k : Nat) (c : DWord → Nat) : r.Moves (r.readyUnits st k c) :=
  Rope.foldl_moves _ (fun r u => (rfl : r.Moves (r.setReady u _ _))) _ _

theorem Rope.onlyLater_refl (r : Rope) : r.OnlyLater r := ⟨rfl, rfl, rfl⟩

/-- A rope as the issue of an instruction leaves it, with its results in flight (R73, R238, R375). -/
def Rope.Commits (r q : Rope) (l : List (BitVec 8 × List RegWrite)) : Prop :=
  q = { r with suppress := q.suppress, portWait := q.portWait, inflight := q.inflight, strands := q.strands, sched := q.sched } ∧
  (∀ e ∈ q.suppress, e ∈ r.suppress) ∧ q.landing = l

theorem Rope.Commits.moves {r a b : Rope} {l : List (BitVec 8 × List RegWrite)} (h : r.Commits a l) (h' : a.Moves b) :
    r.Commits b l := by
  obtain ⟨h1, h2, h3⟩ := h
  unfold Rope.Moves at h'
  have hi : b.inflight = a.inflight := by rw [h']
  have hs : b.suppress = a.suppress := by rw [h']
  refine ⟨?_, by rwa [hs], by unfold Rope.landing at *; rwa [hi]⟩
  rw [h', h1]

theorem Rope.Commits.later {r a b : Rope} {l : List (BitVec 8 × List RegWrite)} (h : r.Commits a l) (h' : a.OnlyLater b) :
    r.Commits b l := by
  obtain ⟨h1, h2, h3⟩ := h
  obtain ⟨g1, g2, -⟩ := h'
  have hs : b.suppress = a.suppress := by rw [g1]
  refine ⟨?_, by rwa [hs], by rwa [g2]⟩
  rw [g1, h1]

theorem Rope.Commits.portWait {r a : Rope} {l : List (BitVec 8 × List RegWrite)} (h : r.Commits a l) (n : Nat) :
    r.Commits { a with portWait := n } l := by
  obtain ⟨h1, h2, h3⟩ := h
  exact ⟨by rw [h1], h2, h3⟩

/-- Overtaken deliveries: only the rope's outstanding deliveries and the free values drawn change. -/
theorem Issue.overtake_spec (x : Issue) (s : State) (w : List RegWrite) :
    x.overtake s w = { s with ropes := (x.overtake s w).ropes, free := (x.overtake s w).free } ∧
    (∀ j, j ≠ x.k → tget (x.overtake s w).ropes j = tget s.ropes j) ∧
    ∀ r, tget s.ropes x.k = some r → ∃ o, tget (x.overtake s w).ropes x.k = some { r with outst := o } := by
  unfold Issue.overtake State.onRope State.setRope
  simp only []
  split
  · exact ⟨rfl, fun _ _ => rfl, fun r h => ⟨r.outst, h⟩⟩
  · split
    · next r hr =>
      refine ⟨rfl, fun j hj => tget_tset_ne _ _ hj, fun r' hr' => ?_⟩
      rw [hr] at hr'; cases hr'
      exact ⟨_, tget_tset_same _ _ _⟩
    · next hr => exact ⟨rfl, fun _ _ => rfl, fun r h => by rw [hr] at h; cases h⟩

/-- What the held cycles of a fenced array leave: the core's clock of its instructions in flight, and when results land, units
issue and arrays are free (R152). -/
theorem State.holdQuad_spec (s : State) (c quad : Nat) :
    let t := s.holdQuad c quad
    t = { s with ropes := t.ropes, cores := t.cores, arrays := t.arrays } ∧
    (∀ j, tget t.ropes j = none ∧ tget s.ropes j = none ∨
      ∃ r q, tget s.ropes j = some r ∧ tget t.ropes j = some q ∧ r.OnlyLater q) ∧
    (∀ d, d ≠ c → t.core d = s.core d) ∧
    t.core c = { s.core c with flight := (t.core c).flight, f64 := (t.core c).f64, holds := (t.core c).holds, held := (t.core c).held } := by
  have id_ : ∀ j, tget s.ropes j = none ∧ tget s.ropes j = none ∨
      ∃ r q, tget s.ropes j = some r ∧ tget s.ropes j = some q ∧ r.OnlyLater q := by
    intro j
    cases h : tget s.ropes j with
    | none => exact .inl ⟨rfl, rfl⟩
    | some r => exact .inr ⟨r, r, rfl, rfl, r.onlyLater_refl⟩
  unfold State.holdQuad
  simp only []
  split
  · exact ⟨rfl, id_, fun _ _ => rfl, rfl⟩
  · refine ⟨rfl, fun j => ?_, fun d hd => State.setCore_core_ne { s with arrays := _ } _ hd, ?_⟩
    · simp only [State.setCore]
      rw [tget_map_fst (hg := ?fst)]
      case fst => exact fun _ => rfl
      cases h : tget s.ropes j with
      | none => exact .inl ⟨rfl, rfl⟩
      | some r =>
        refine .inr ⟨r, _, rfl, rfl, ?_⟩
        simp only []
        split
        · split
          · refine ⟨rfl, ?_, ?_⟩
            · simp [Rope.landing, Function.comp_def]
            · simp [Rope.standing, Function.comp_def]
          · exact r.onlyLater_refl
        · exact r.onlyLater_refl
    · have key : ∀ (ar : Tbl MapArray) (k : Core) (rs : Tbl Rope),
          k = { s.core c with flight := k.flight, f64 := k.f64, holds := k.holds, held := k.held } →
          let t : State := { ({ s with arrays := ar } : State).setCore c k with ropes := rs }
          t.core c = { s.core c with
            flight := (t.core c).flight, f64 := (t.core c).f64, holds := (t.core c).holds, held := (t.core c).held } := by
        intro ar k rs hk t
        rw [show t.core c = k from ({ s with arrays := ar } : State).setCore_core c k]
        exact hk
      exact key _ _ _ rfl

theorem State.onWg_eq (s : State) (wg : Nat) (g : Workgroup → Workgroup) : s.onWg wg g = { s with wgs := (s.onWg wg g).wgs } := by
  unfold State.onWg
  split <;> rfl

theorem State.turn_eq {s u a : State} (ha : a = { u with wgs := a.wgs }) (hu : u = { s with ropes := u.ropes, cores := u.cores, arrays := u.arrays }) :
    ({ a with turn := .choose } : State) = { s with turn := .choose, ropes := a.ropes, cores := a.cores, arrays := a.arrays, wgs := a.wgs } := by
  rw [ha, hu]

/-- What the issue of an instruction that moves its lanes leaves. -/
theorem Issue.commit_spec (x : Issue) (s : State) (ws : List RegWrite) (extra : Nat) (nx : Next) {r : Rope}
    (hr : tget s.ropes x.k = some r) :
    let t := x.commit s ws extra nx
    t = { s with turn := .choose, ropes := t.ropes, cores := t.cores, arrays := t.arrays, wgs := t.wgs } ∧
    (∀ j, j ≠ x.k → tget t.ropes j = none ∧ tget s.ropes j = none ∨
      ∃ r q, tget s.ropes j = some r ∧ tget t.ropes j = some q ∧ r.OnlyLater q) ∧
    (∀ j, tget t.wgs j = (tget s.wgs j).map (fun w => if j = x.r.wg then { w with pro := w.pro.map (· + 1) } else w)) ∧
    (∀ c, c ≠ x.c → t.core c = s.core c) ∧
    (let q := t.core x.c
     q = { s.core x.c with issued := q.issued, flight := q.flight, f64 := q.f64, holds := q.holds, held := q.held }) ∧
    ∃ q : Rope, tget t.ropes x.k = some q ∧
      q = { r with suppress := q.suppress, portWait := q.portWait, inflight := q.inflight, strands := q.strands, sched := q.sched } ∧
      (∀ e ∈ q.suppress, e ∈ r.suppress) ∧
      q.landing = if ws.isEmpty then r.landing else r.landing ++ [(x.r.unitStrands x.unit, ws)] := by
  have key : ∀ (r3 : Rope) (core1 : Core) (t : State),
      t = { (((s.setRope x.k r3).setCore x.c core1).holdQuad x.c x.r.quad).onWg x.r.wg
        (fun w => { w with pro := w.pro.map (· + 1) }) with turn := .choose } →
      (core1 = { s.core x.c with issued := core1.issued, flight := core1.flight, f64 := core1.f64 }) →
      t = { s with turn := .choose, ropes := t.ropes, cores := t.cores, arrays := t.arrays, wgs := t.wgs } ∧
      (∀ j, j ≠ x.k → tget t.ropes j = none ∧ tget s.ropes j = none ∨
        ∃ r q, tget s.ropes j = some r ∧ tget t.ropes j = some q ∧ r.OnlyLater q) ∧
      (∀ j, tget t.wgs j = (tget s.wgs j).map (fun w => if j = x.r.wg then { w with pro := w.pro.map (· + 1) } else w)) ∧
      (∀ c, c ≠ x.c → t.core c = s.core c) ∧
      (let q := t.core x.c
       q = { s.core x.c with issued := q.issued, flight := q.flight, f64 := q.f64, holds := q.holds, held := q.held }) ∧
      ∃ q, tget t.ropes x.k = some q ∧ r3.OnlyLater q := by
    intro r3 core1 t ht hc
    obtain ⟨h1, h2, h3, h4⟩ := ((s.setRope x.k r3).setCore x.c core1).holdQuad_spec x.c x.r.quad
    generalize hu : ((s.setRope x.k r3).setCore x.c core1).holdQuad x.c x.r.quad = u at h1 h2 h3 h4
    rw [hu] at ht
    have hro : t.ropes = u.ropes := by rw [ht]; exact State.onWg_ropes _ _ _
    have hco : t.cores = u.cores := by rw [ht]; exact State.onWg_cores _ _ _
    have hcore : ∀ c, t.core c = u.core c := by
      intro c
      have he : t.etimePs = u.etimePs := by rw [ht]; exact State.onWg_etimePs _ _ _
      have hp : t.epochPs = u.epochPs := by rw [ht]; exact State.onWg_epochPs _ _ _
      unfold State.core State.freshCore
      rw [hco, he, hp]
    refine ⟨?_, fun j hj => ?_, fun j => ?_, fun c hcx => ?_, ?_, ?_⟩
    · rw [ht]
      exact State.turn_eq (u.onWg_eq x.r.wg _) h1
    · rw [hro]
      have := h2 j
      simp only [State.setCore_ropes, State.setRope_get_ne s r3 hj] at this
      exact this
    · have hw : u.wgs = s.wgs := by rw [h1]; rfl
      rw [ht]
      show tget (u.onWg _ _).wgs j = _
      rw [State.onWg_get, hw]
      by_cases hj : j = x.r.wg
      · simp [hj]
      · cases hq : tget s.wgs j <;> simp [hj]
    · rw [hcore, h3 c hcx, State.setCore_core_ne _ _ hcx]; rfl
    · simp only [hcore]
      rw [State.setCore_core] at h4
      rw [h4, hc]
    · have := h2 x.k
      simp only [State.setCore_ropes, State.setRope_get] at this
      obtain ⟨-, h⟩ | ⟨r, q, h, hq, ho⟩ := this
      · cases h
      · cases h
        exact ⟨q, by rw [hro]; exact hq, ho⟩
  intro t
  have ht : t = x.commit s ws extra nx := rfl
  unfold Issue.commit at ht
  simp only [hr] at ht
  obtain ⟨h1, h2, h3, h4, h5, q, h6, h7⟩ := key _ _ t ht rfl
  refine ⟨h1, h2, h3, h4, h5, q, h6, ?_⟩
  have later : ∀ r3 : Rope, r.Commits r3 (if ws.isEmpty then r.landing else r.landing ++ [(x.r.unitStrands x.unit, ws)]) →
      r3.OnlyLater q → r.Commits q (if ws.isEmpty then r.landing else r.landing ++ [(x.r.unitStrands x.unit, ws)]) :=
    fun r3 h h' => h.later h'
  refine later _ ?_ h7
  have hc : r.Commits { (if x.op = 0x1DB then r else r.used (x.r.unitStrands x.unit)) with
      inflight := if ws.isEmpty then r.inflight else r.inflight ++ [⟨x.core.cyc + lamOf x.op + extra, x.r.unitStrands x.unit, ws, s.nextId⟩] }
      (if ws.isEmpty then r.landing else r.landing ++ [(x.r.unitStrands x.unit, ws)]) := by
    have hl : ({ r with inflight := if ws.isEmpty then r.inflight else
        r.inflight ++ [⟨x.core.cyc + lamOf x.op + extra, x.r.unitStrands x.unit, ws, s.nextId⟩] } : Rope).landing =
        if ws.isEmpty then r.landing else r.landing ++ [(x.r.unitStrands x.unit, ws)] := by
      unfold Rope.landing
      split <;> simp
    split
    · exact ⟨rfl, fun _ h => h, hl⟩
    · unfold Rope.used
      split
      · exact ⟨rfl, fun _ h => (List.mem_filter.1 h).1, hl⟩
      · exact ⟨rfl, fun _ h => h, hl⟩
  split
  · refine Rope.Commits.portWait ?_ _
    cases nx with
    | fall => exact hc.moves (Rope.moves_trans (Rope.moveUnit_moves _ _ _) (Rope.readyUnits_moves _ _ _ _))
    | move dest =>
      exact hc.moves (Rope.moves_trans (Rope.moves_trans (Rope.moveUnit_moves _ _ _) (Rope.readyUnits_moves _ _ _ _)) rfl)
    | done => exact hc
  · cases nx with
    | fall => exact hc.moves (Rope.moves_trans (Rope.moveUnit_moves _ _ _) (Rope.readyUnits_moves _ _ _ _))
    | move dest =>
      exact hc.moves (Rope.moves_trans (Rope.moves_trans (Rope.moveUnit_moves _ _ _) (Rope.readyUnits_moves _ _ _ _)) rfl)
    | done => exact hc

/-- A rope that differs from another in registers alone. -/
def Rope.RegsOnly (r q : Rope) : Prop := q = { r with v := q.v, s := q.s, p := q.p }

theorem Rope.regsOnly_trans {a b c : Rope} (h : a.RegsOnly b) (h' : b.RegsOnly c) : a.RegsOnly c := by
  unfold Rope.RegsOnly at *; rw [h', h]

theorem Rope.write_regsOnly (r : Rope) (w : RegWrite) : r.RegsOnly (r.write w) := by
  cases w <;> simp only [Rope.RegsOnly, Rope.write, Rope.setV, Rope.setP, Rope.setS] <;> (repeat' split) <;> rfl

theorem Rope.writes_regsOnly (r : Rope) (ws : List RegWrite) : r.RegsOnly (r.writes ws) := by
  induction ws generalizing r with
  | nil => rfl
  | cons w ws ih => exact Rope.regsOnly_trans (r.write_regsOnly w) (ih _)

/-- The view of a rope's registers that a read may take differs from the rope in registers alone (R76). -/
theorem raceReads_regsOnly (reads : List RegRef) (os : List Outst) (p : Rope × Nat) : p.1.RegsOnly (raceReads reads os p).1 := by
  induction os generalizing p with
  | nil => rfl
  | cons o os ih =>
    unfold raceReads
    simp only []
    split
    · exact Rope.regsOnly_trans (p.1.writes_regsOnly _) (ih _)
    · exact ih _

/-- The view differs from the rope in registers alone (R76, R143). -/
theorem Issue.viewed_rope (x : Issue) (s : State) (reads : List RegRef) : x.r.RegsOnly (x.viewed s reads).r :=
  Rope.regsOnly_trans (x.r.writes_regsOnly _) (raceReads_regsOnly reads _ _)

/-- A change of nothing but the map arrays and what they hold a quadrant of the core for. -/
def State.MapsOnly (s t : State) (c : Nat) : Prop :=
  t = { s with arrays := t.arrays, cores := t.cores } ∧ (∀ d, d ≠ c → t.core d = s.core d) ∧
    t.core c = { s.core c with holds := (t.core c).holds }

theorem State.mapsOnly_refl (s : State) (c : Nat) : s.MapsOnly s c := ⟨rfl, fun _ _ => rfl, rfl⟩

/-- The arrays taken change nothing else (R148, R150, R152). -/
theorem Issue.takeArrays_only {x : Issue} {s s1 : State} {apps : List (Nat × Bool)} (h : x.takeArrays s apps = some s1) :
    s.MapsOnly s1 x.c := by
  have fold : ∀ (l : List (Nat × Nat)) (g : State → Nat × Nat → Tbl MapArray) (t : State),
      ∃ ar, l.foldl (fun (t : State) p => { t with arrays := g t p }) t = { t with arrays := ar } := by
    intro l g
    induction l with
    | nil => exact fun t => ⟨t.arrays, rfl⟩
    | cons p l ih =>
      intro t
      obtain ⟨ar, h⟩ := ih { t with arrays := g t p }
      exact ⟨ar, by rw [List.foldl_cons, h]⟩
  have key : ∀ (ar : Tbl MapArray) (n : Tbl Nat), s.MapsOnly (({ s with arrays := ar } : State).setCore x.c { s.core x.c with holds := n }) x.c := by
    intro ar n
    refine ⟨rfl, fun d hd => State.setCore_core_ne _ _ hd, ?_⟩
    rw [State.setCore_core]
  unfold Issue.takeArrays at h
  simp only [] at h
  rw [Option.ite_none_left_eq_some] at h
  have h2 := Option.some.inj h.2
  rw [← h2]
  obtain ⟨ar, ha⟩ := fold _ (fun t p => _) s
  erw [ha]
  exact key _ _

/-- The map stage changes nothing else (R148, R150, R152). -/
theorem Issue.mapStageIn_only {x : Issue} {s s1 : State} {a b : Nat} {i j f : Bool} {extra : Nat}
    (h : x.mapStageIn s a b i j f = .ok (s1, extra)) : s.MapsOnly s1 x.c := by
  unfold Issue.mapStageIn at h
  split at h
  · split at h
    · cases h
    · simp only [] at h
      split at h
      · cases h
      · next h2 =>
        cases h
        exact Issue.takeArrays_only h2
  · cases h; exact s.mapsOnly_refl _

/-- An effect of an instruction that only writes registers, beside its results: on the map arrays, by a read of CYC on the count
that isolation goes on from, by a WAITC with limits of 0 on the marks of the rope's accesses (R26, R148, R286). -/
def Begun.Quiet (b : Begun) (s1 : State) : Prop :=
  s1 = { b.t with arrays := s1.arrays, cores := s1.cores, wgs := s1.wgs } ∧
    s1.wgs = (if b.x.op = 0x160 ∧ b.x.f.a = 0 ∧ b.x.f.b = 0 then b.t.waitReleases b.x.k else b.t).wgs ∧
    (∀ d, d ≠ b.x.c → s1.core d = b.t.core d) ∧
    (let q := s1.core b.x.c
     q = { b.t.core b.x.c with holds := q.holds, iso := q.iso } ∧
     (q.iso = (b.t.core b.x.c).iso ∨ b.x.op = 0x1DA ∧ b.x.f.a = 0 ∧ q.iso = rset 0 (b.t.core b.x.c).iso b.y.r.did.toNat
       (max (rget 0 (b.t.core b.x.c).iso b.y.r.did.toNat) b.y.core.cyc)))

theorem State.MapsOnly.quiet {b : Begun} {s1 : State} (h : b.t.MapsOnly s1 b.x.c) (ho : b.x.op ≠ 0x160) : b.Quiet s1 := by
  obtain ⟨h1, h2, h3⟩ := h
  have hi : (s1.core b.x.c).iso = (b.t.core b.x.c).iso := by rw [h3]
  have hw : s1.wgs = b.t.wgs := (congrArg State.wgs h1 :)
  refine ⟨by rw [hw]; exact h1, by rw [if_neg (fun e => ho e.1)]; exact hw, h2, ?_, .inl hi⟩
  rw [hi]
  exact h3

/-- A WAITC with limits of 0 changes the marks of its rope's accesses alone (R286). -/
theorem State.waitReleases_quiet {b : Begun} (ho : b.x.op = 0x160) :
    b.Quiet (if b.x.f.a = 0 ∧ b.x.f.b = 0 then b.t.waitReleases b.x.k else b.t) := by
  simp only [Begun.Quiet, ho, true_and]
  split
  · exact ⟨rfl, fun d _ => rfl, rfl, .inl rfl⟩
  · exact ⟨rfl, fun d _ => rfl, rfl, .inl rfl⟩

/-- A read of CYC changes the count that isolation goes on from alone (R26). -/
theorem Issue.isoMark_quiet {s : State} {op : Nat} {f : Fields} {pb : PB} {b : Begun} (h : s.begun op f pb = some b) (ho : op = 0x1DA) :
    b.Quiet (b.y.isoMark b.t) := by
  obtain ⟨hi, -, -, hy, -, -⟩ := begun_spec h
  have hc : b.y.c = b.x.c := by rw [hy]; rfl
  have hf : b.y.f = b.x.f := by rw [hy]; rfl
  unfold Issue.isoMark
  split
  · next hq =>
    simp only []
    rw [hc]
    refine ⟨rfl, by rw [if_neg (by rw [(begun_op h).1, ho]; exact fun e => absurd e.1 (by decide))]; rfl,
      fun d hd => State.setCore_core_ne _ _ hd, ?_⟩
    simp only [State.setCore_core]
    exact ⟨trivial, .inr ⟨by rw [(begun_op h).1, ho], by rw [← hf]; exact hq.1, trivial⟩⟩
  · exact (b.t.mapsOnly_refl b.x.c).quiet (by rw [(begun_op h).1, ho]; decide)

/-- The results that an instruction of registers may have: to its destinations and p6, in lanes of ACTIVE. -/
def Begun.Confined (b : Begun) (ws : List RegWrite) : Prop :=
  ∀ w ∈ ws, w.confinedTo b.y.act = true ∧ (w.target = none ∨ ∃ d ∈ b.w, w.target = some d)

/-- An instruction that has started, whose effect is quiet and whose results are confined, only writes
registers. -/
theorem Begun.after_onlyRegisters {s : State} {op : Nat} {f : Fields} {pb : PB} {b : Begun} (h : s.begun op f pb = some b)
    {s1 : State} (hs : b.Quiet s1) {ws : List RegWrite} (hw : b.Confined ws) (extra : Nat) (nx : Next) :
    b.OnlyRegisters s (b.after s1 ws extra nx) := by
  obtain ⟨hi, -, -, hy, ht, -⟩ := begun_spec h
  obtain ⟨h1, -, hk, -, hr, -⟩ := issuing_spec hi
  obtain ⟨m1, mw, m2, m3⟩ := hs
  have ht' : b.t = { s with free := b.t.free } := by rw [ht]; rfl
  have hro : s1.ropes = s.ropes := by rw [m1, ht']
  have hcs : ∀ c, b.t.core c = s.core c := by intro c; rw [ht']; rfl
  obtain ⟨o1, o2, o3⟩ := b.x.overtake_spec s1 ws
  have hwg : (b.x.overtake s1 ws).wgs = (if b.x.op = 0x160 ∧ b.x.f.a = 0 ∧ b.x.f.b = 0 then b.t.waitReleases s.cur else s).wgs := by
    rw [congrArg State.wgs o1]
    refine mw.trans ?_
    rw [hk]
    split
    · rfl
    · rw [ht']
  obtain ⟨o, ho⟩ := o3 b.x.r (by rw [hro, hk]; exact hr)
  have hyk : b.y.k = b.x.k := by rw [hy]; rfl
  obtain ⟨c1, c2, c3, c4, c5, q, c6, c7, c8, c9⟩ := b.y.commit_spec (b.x.overtake s1 ws) ws extra nx (by rw [hyk]; exact ho)
  have hyr := b.x.viewed_rope s (b.x.readsOf op b.m f pb)
  rw [← hy] at hyr
  have v1 : b.y.r.wg = b.x.r.wg := by rw [hyr]
  have v2 : b.y.r.unitStrands b.y.unit = b.x.r.unitStrands b.x.unit := by
    rw [hyr, show b.y.unit = b.x.unit by rw [hy]; rfl]; rfl
  have hyc : b.y.c = b.x.c := by rw [hy]; rfl
  rw [hyk, hk] at c2 c6
  rw [v1] at c3
  rw [hyc] at c4 c5
  rw [hk] at o2
  simp only [] at c1 c2 c3 c4 c5 c6
  have oc : ∀ c, (b.x.overtake s1 ws).core c = s1.core c := by intro c; rw [o1]; rfl
  unfold Begun.OnlyRegisters Begun.after
  refine ⟨?_, fun j hj => ?_, fun j => by rw [c3 j, hwg], fun c hc => by rw [c4 c hc, oc, m2 c hc, hcs], ?_, q, c6, ?_, ?_, ?_⟩
  · generalize b.x.overtake s1 ws = s2 at *
    generalize b.y.commit s2 ws extra nx = t2 at *
    rw [c1, o1, m1, ht']
  · have := c2 j hj
    rw [o2 j hj, hro] at this
    exact this
  · rw [oc] at c5
    obtain ⟨m3, m4⟩ := m3
    rw [hcs] at m3 m4
    have hio : ((b.y.commit (b.x.overtake s1 ws) ws extra nx).core b.x.c).iso = (s1.core b.x.c).iso := by rw [c5]
    refine ⟨?_, by rw [hio]; exact m4⟩
    rw [hio]
    rw [m3] at c5
    exact c5
  · rw [c7]
  · exact c8
  · by_cases hz : ws.isEmpty = true
    · exact .inl (by rw [c9, if_pos hz]; rfl)
    · exact .inr ⟨ws, by rw [c9, if_neg hz, v2]; rfl, hw⟩

/-- An instruction whose body, where it goes on, has a quiet effect and confines its results, only writes registers. -/
theorem issue_onlyRegisters {s t : State} {op : Nat} {f : Fields} {pb : PB} {body : Issue → State → Act}
    (hh : ∀ b s1, s.begun op f pb = some b → body b.y b.t = .hold s1 → ∃ reason va, s1 = b.t.askFetch b.y.k b.y.unit b.y.r reason va)
    (hb : ∀ b s1 ws extra nx, s.begun op f pb = some b → body b.y b.t = .go s1 ws extra nx →
      b.Quiet s1 ∧ b.Confined ws)
    (h : issue op f pb body s = .next t) :
    t = s ∨
    (∃ x reason, s.issuing op f = some x ∧ x.proFault = some reason ∧
      t = { (s.raiseFault x.w 7 reason 0 none).killWg x.r.wg with turn := .choose }) ∨
    (∃ x q, s.issuing op f = some x ∧ t = { x.raise s q with turn := .choose }) ∨
    (∃ b reason va, s.begun op f pb = some b ∧ t = { b.t.askFetch b.y.k b.y.unit b.y.r reason va with turn := .choose }) ∨
    ∃ b, s.begun op f pb = some b ∧ b.OnlyRegisters s t := by
  refine issue_cases (P := fun o => o = .next t → _) ?_ ?_ ?_ ?_ ?_ ?_ h
  · intro e; cases e
  · intro e; cases e; exact .inl rfl
  · intro x reason hx hp e
    cases e
    exact .inr (.inl ⟨x, reason, hx, hp, rfl⟩)
  · intro x q hx e
    cases e
    exact .inr (.inr (.inl ⟨x, q, hx, rfl⟩))
  · intro b s1 hx hg e
    cases e
    obtain ⟨reason, va, rfl⟩ := hh b s1 hx hg
    exact .inr (.inr (.inr (.inl ⟨b, reason, va, hx, rfl⟩)))
  · intro b s1 ws extra nx hx hg e
    cases e
    obtain ⟨hm, hc⟩ := hb b s1 ws extra nx hx hg
    exact .inr (.inr (.inr (.inr ⟨b, hx, b.after_onlyRegisters hx hm hc extra nx⟩)))

/-- The writes of a vector destination are confined to it. -/
theorem vecWrite_confined {act : Word} {dw d l v : Nat} (hl : act.getLsbD l = true) :
    ∀ w ∈ vecWrite dw d l v, w.confinedTo act = true ∧ ∃ q ∈ vecRefs d dw, w.target = some q := by
  intro w hw
  unfold vecWrite at hw
  unfold vecRefs
  split at hw <;> simp_all [RegWrite.confinedTo, RegWrite.target]
  obtain rfl | rfl := hw <;> simp_all

/-- The writes of a scalar destination are confined to it. -/
theorem scaWrite_confined {act : Word} {dw d v : Nat} :
    ∀ w ∈ scaWrite dw d v, w.confinedTo act = true ∧ ∃ q ∈ scaRefs d dw, w.target = some q := by
  intro w hw
  unfold scaWrite at hw
  unfold scaRefs
  split at hw <;> simp_all [RegWrite.confinedTo, RegWrite.target]
  obtain rfl | rfl := hw <;> simp_all

/-- Status bits go to p6 in lanes of ACTIVE. -/
theorem results_confined {b : Begun} {ws : List RegWrite} {fl : Nat → Flags} {cond : Nat → Bool} (h : b.Confined ws) : b.Confined (b.y.results fl cond ws) := by
  unfold Issue.results
  split
  · exact h
  · intro w hw
    simp only [List.mem_append, List.mem_singleton] at hw
    obtain hw | rfl := hw
    · exact h w hw
    · refine ⟨?_, .inl rfl⟩
      simp [RegWrite.confinedTo, Issue.statusLanes]
      split
      · rw [BitVec.and_assoc]; ext i; simp; tauto
      · simp

/-- The lanes of ACTIVE. -/
theorem active_mem {x : Issue} {l : Nat} (h : l ∈ x.active) : x.act.getLsbD l = true := by
  simp only [Issue.active, lanesOf, List.mem_filter] at h; exact h.2

/-- The end of an arithmetic instruction changes no state and confines its results. -/
theorem writeD_confined {s : State} {op : Nat} {f : Fields} {b : Begun} (hb : s.begun op f pb0 = some b)
   (hs : b.m.sig = .s1 ∨ b.m.sig = .s2 ∨ b.m.sig = .s3 ∨ b.m.sig = .sp) {s1 s2 : State} {res : Nat → ER} {extra e : Nat} {ws : List RegWrite} {nx : Next}
   (h : b.y.writeD s1 b.m res extra = .go s2 ws e nx) : s2 = s1 ∧ b.Confined ws := by
  have ho := begun_op hb
  obtain ⟨-, -, -, -, -, hw, -⟩ := begun_spec hb
  unfold Issue.writeD Issue.finish at h
  split at h
  · cases h; exact ⟨rfl, by simp [Begun.Confined]⟩
  · split at h
    · next hsc =>
      simp only [] at h
      split at h
      · cases h
      · cases h
        refine ⟨rfl, results_confined fun w hm => ?_⟩
        obtain ⟨h1, q, h2, h3⟩ := scaWrite_confined (act := b.y.act) w hm
        refine ⟨h1, .inr ⟨q, ?_, h3⟩⟩
        rw [ho.2.2.2] at hsc h2
        rw [hw]
        rcases hs with h | h | h | h <;> rw [h] at hsc <;> simp [regWrites, h] at hsc ⊢ <;> simpa [hsc] using h2
    · next hsc =>
      simp only [] at h
      split at h
      · cases h
      · cases h
        refine ⟨rfl, results_confined fun w hm => ?_⟩
        obtain ⟨l, hl, hm⟩ := List.mem_flatMap.1 hm
        obtain ⟨h1, q, h2, h3⟩ := vecWrite_confined (active_mem hl) w hm
        refine ⟨h1, .inr ⟨q, ?_, h3⟩⟩
        rw [ho.2.2.2] at hsc h2
        rw [hw]
        rcases hs with h | h | h | h <;> rw [h] at hsc <;> simp [regWrites, h] at hsc ⊢ <;> first | exact h2 | simpa [hsc] using h2

end Sys2Proof.Machine
end

