-- ==== Sys2Proof/Laws/Memory.lean ====
section
/-! SUPPORT. How a memory access goes on, and what its steps leave of the memories. -/

namespace Sys2Proof.Machine

/-- An access whose conditions are met goes on: with its lanes performed, or sent over the link. -/
theorem access_done {b : Begun} {a : Access} (h : b.MayAccess a) :
    ((b.y.goal b.t b.memHandle).linked = false → ∀ s1 ws left, b.t.performLanes (b.y.goal b.t b.memHandle) (b.memLanes a) = (s1, ws, left) →
      b.y.access b.t a.pb a.need a.kind a.ld a.sc a.size a.align a.els a.pre = .go (b.accessed a s1 ws left) [] 0 .fall) ∧
    ((b.y.goal b.t b.memHandle).linked = true →
      b.y.access b.t a.pb a.need a.kind a.ld a.sc a.size a.align a.els a.pre = .go (b.sent a) [] 0 .fall) := by
  obtain ⟨h1, h2, h3, h4, h5, h6, h7⟩ := h
  have hm : ∀ p, a.els.map (fun e => (⟨e.lane, (b.memHandle.addr e.off).toNat, e.act⟩ : LaneAcc)) = p ↔ b.memLanes a = p := fun _ => Iff.rfl
  have hml : a.els.map (fun e => (⟨e.lane, (b.memHandle.addr e.off).toNat, e.act⟩ : LaneAcc)) = b.memLanes a := rfl
  unfold Issue.access
  rw [show b.t.ropeHandle b.y.r (b.y.f.a.toNat % 16) = b.memHandle from rfl]
  rw [if_neg h1, if_neg (by simp only [not_or, h4]; refine ⟨by omega, by omega, by simp⟩)]
  simp only [h5, hml, h6, h7, Bool.or_self, Bool.false_eq_true, if_false]
  constructor
  · intro hl s1 ws left hq
    unfold State.tryLanes
    simp only [hl, Bool.false_eq_true, if_false, hq]
    unfold Begun.accessed Begun.counted
    simp only [State.drawDelay, List.isEmpty_map, List.flatMap_map]
  · intro hl
    unfold State.tryLanes Begun.sent Begun.counted
    simp only [hl, if_true, State.drawDelay, List.isEmpty_map, List.flatMap_map, List.append_nil]

/-! What is kept of the memories. -/

@[simp] theorem leBytes_length (n v : Nat) : (leBytes n v).length = n := by
  induction n generalizing v with
  | zero => rfl
  | succ n ih => simp [leBytes, ih]

/-- The memories' canonical form is kept, and the memories outside the frames are as before. -/
def State.MemKept (s t : State) : Prop :=
  (Memory.wf s.mem = true → Memory.wf t.mem = true) ∧ t.host = s.host ∧ t.peer = s.peer

theorem State.memKept_refl (s : State) : s.MemKept s := ⟨id, rfl, rfl⟩
theorem State.MemKept.trans {s t u : State} (h : s.MemKept t) (h' : t.MemKept u) : s.MemKept u :=
  ⟨fun w => h'.1 (h.1 w), h'.2.1.trans h.2.1, h'.2.2.trans h.2.2⟩
theorem State.memKept_foldl {α : Type} (g : State → α → State) (hg : ∀ (s : State) (a : α), s.MemKept (g s a)) (l : List α) (s : State) :
    s.MemKept (l.foldl g s) := by
  induction l generalizing s with
  | nil => exact s.memKept_refl
  | cons a l ih => exact (hg s a).trans (ih _)

theorem State.memKept_ite {s a b : State} (c : Prop) [Decidable c] (ha : s.MemKept a) (hb : s.MemKept b) :
    s.MemKept (if c then a else b) := by split <;> assumption
theorem State.memKept_ite_snd {α : Type} {s : State} {a b : α × State} (c : Prop) [Decidable c] (ha : s.MemKept a.2)
    (hb : s.MemKept b.2) : s.MemKept (if c then a else b).2 := by split <;> assumption

/-- Partial values combined at their home keep the canonical form. -/
theorem UoCopy.wf_combine (c : UoCopy) (base : Nat) {m : Tbl Byte} (h : Memory.wf m = true) :
    Memory.wf (c.combine base m) = true := by
  unfold UoCopy.combine
  generalize c.words = l
  induction l generalizing m with
  | nil => exact h
  | cons w l ih => exact ih (Memory.wf_wrBytes h _ _)

theorem wf_combineAll (base : Nat) (l : List UoCopy) {m : Tbl Byte} (h : Memory.wf m = true) :
    Memory.wf (l.foldl (fun m c => c.combine base m) m) = true := by
  induction l generalizing m with
  | nil => exact h
  | cons c l ih => exact ih (c.wf_combine base h)

theorem L2Line.wf_combined (l : L2Line) {m : Tbl Byte} (h : Memory.wf m = true) : Memory.wf (l.combined m) = true :=
  wf_combineAll _ _ h

/-- A copy's partial values reach the words they stand for alone. -/
theorem UoCopy.combine_other (c : UoCopy) (base : Nat) (m : Tbl Byte) (p : Nat)
    (h : ∀ w ∈ c.words, ¬(base + 4 * w.1 ≤ p ∧ p < base + 4 * w.1 + w.2.1.size)) : rdByte (c.combine base m) p = rdByte m p := by
  unfold UoCopy.combine
  generalize hl : c.words = l at h
  clear hl
  induction l generalizing m with
  | nil => rfl
  | cons w l ih =>
    rw [List.foldl_cons, ih _ (fun x hx => h x (List.mem_cons_of_mem _ hx))]
    have := h w (List.mem_cons_self ..)
    rw [rdByte_wrBytes, leBytes_length, if_neg this]

@[simp] theorem State.wake_mem (s : State) (p a n : Nat) : (s.wake p a n).mem = s.mem := rfl
@[simp] theorem State.wake_host (s : State) (p a n : Nat) : (s.wake p a n).host = s.host := rfl
@[simp] theorem State.wake_peer (s : State) (p a n : Nat) : (s.wake p a n).peer = s.peer := rfl
@[simp] theorem State.wake_wgs (s : State) (p a n : Nat) : (s.wake p a n).wgs = s.wgs := rfl
@[simp] theorem State.putLine_mem (s : State) (l : L2Line) : (s.putLine l).mem = s.mem := rfl
@[simp] theorem State.putLine_host (s : State) (l : L2Line) : (s.putLine l).host = s.host := rfl
@[simp] theorem State.putLine_peer (s : State) (l : L2Line) : (s.putLine l).peer = s.peer := rfl
@[simp] theorem State.putLine_wgs (s : State) (l : L2Line) : (s.putLine l).wgs = s.wgs := rfl

theorem State.wake_kept (s : State) (p a n : Nat) : s.MemKept (s.wake p a n) := ⟨id, rfl, rfl⟩
theorem State.putLine_kept (s : State) (l : L2Line) : s.MemKept (s.putLine l) := ⟨id, rfl, rfl⟩
theorem State.own_kept (s : State) (asid : BitVec 16) (va f : Nat) : s.MemKept (s.own asid va f) := by
  unfold State.own; split <;> exact ⟨id, rfl, rfl⟩
/-- Recalled update-only copies keep the memories (R297). -/
theorem State.recallPhys_kept (s : State) (p n : Nat) : s.MemKept (s.recallPhys p n) := by
  have key : ∀ (ls : List L2Line) (m : Tbl Byte), Memory.wf m = true → Memory.wf (ls.foldl (fun m x => x.combined m) m) = true := by
    intro ls
    induction ls with
    | nil => exact fun _ h => h
    | cons a ls ih => exact fun m h => ih _ (a.wf_combined h)
  unfold State.recallPhys
  split
  · exact ⟨key _ _, rfl, rfl⟩
  · exact s.memKept_refl

theorem State.walkRecall_kept (s : State) (asid : BitVec 16) (va : Nat) : s.MemKept (s.walkRecall asid va) := by
  unfold State.walkRecall
  split
  · exact s.memKept_refl
  · exact State.memKept_foldl _ (fun t p => t.recallPhys_kept p 8) _ _

theorem State.hold_kept (s : State) (asid : BitVec 16) (va : Nat) : s.MemKept (s.hold asid va) := by
  have h1 : s.MemKept (if (s.heldStage1 asid va).isNone then s.walkRecall asid va else s) :=
    State.memKept_ite _ (s.walkRecall_kept asid va) s.memKept_refl
  unfold State.hold
  simp only []
  generalize (if (s.heldStage1 asid va).isNone then s.walkRecall asid va else s) = u at *
  split <;> split <;> exact h1.trans ⟨id, rfl, rfl⟩
theorem State.evictLine_kept (s : State) (l : L2Line) : s.MemKept (s.evictLine l) := ⟨l.wf_combined, rfl, rfl⟩
theorem State.recall_kept (s : State) (asid : BitVec 16) (va : Nat) : s.MemKept (s.recall asid va) := by
  unfold State.recall
  split
  · exact s.memKept_refl
  · next l _ =>
    split
    · exact s.memKept_refl
    · exact ⟨l.wf_combined, rfl, rfl⟩

/-- Lines that leave L1 write partial values to their home (R293, R297). -/
theorem State.l1Leave_kept (s : State) (c : Nat) (g p : Nat → Bool) : s.MemKept (s.l1Leave c g p) := by
  refine ⟨fun h => ?_, rfl, rfl⟩
  show Memory.wf (s.l2.foldl _ s.mem) = true
  generalize s.l2 = l
  generalize s.mem = m at h
  induction l generalizing m with
  | nil => exact h
  | cons a l ih =>
    rw [List.foldl_cons]
    refine ih _ ?_
    split
    · exact wf_combineAll _ _ h
    · exact h

theorem State.l1Way_kept (s : State) (c line p : Nat) : s.MemKept (s.l1Way c line p).1 := by
  unfold State.l1Way
  simp only []
  split
  · exact s.memKept_refl
  · exact State.MemKept.trans (t := s.draw.2) ⟨id, rfl, rfl⟩ (State.l1Leave_kept _ _ _ _)

theorem State.allocLine_kept (s : State) (l : L2Line) (mask : BitVec 16) : s.MemKept (s.allocLine l mask) := by
  unfold State.allocLine
  simp only []
  split
  · exact s.putLine_kept _
  · split
    · exact s.putLine_kept _
    · exact (State.MemKept.trans (t := s.draw.2) ⟨id, rfl, rfl⟩ (State.memKept_foldl _ State.evictLine_kept _ _)).trans
        (State.putLine_kept _ _)

/-- What a failed translation leaves behind keeps the memories. -/
theorem State.fatalFor_kept (s : State) (p : Nat) : s.MemKept (s.fatalFor p) := by
  unfold State.fatalFor; split <;> exact ⟨id, rfl, rfl⟩
theorem State.walked_kept (s : State) (asid : BitVec 16) (va : Nat) : s.MemKept (s.walked asid va) := by
  refine (s.walkRecall_kept asid va).trans ?_
  unfold State.walked
  simp only []
  (repeat' split) <;> first | exact State.memKept_refl _ | exact State.fatalFor_kept _ _
theorem State.failed_kept (s : State) (t : Target) (va : Nat) (k : AccKind) : s.MemKept (s.failed t va k) := by
  unfold State.failed; split
  · exact ⟨id, rfl, rfl⟩
  · exact s.walked_kept _ _

/-- A translation keeps the memories. -/
theorem State.xlate_kept (s : State) (t : Target) (va : Nat) (k : AccKind) : s.MemKept (s.xlate t va k).2 := by
  unfold State.xlate
  split
  · next f _ _ _ _ =>
    simp only []
    have h1 := (s.hold_kept t.asid va).trans (State.own_kept _ t.asid va f)
    generalize (s.hold t.asid va).own t.asid va f = u at *
    refine State.memKept_ite_snd _ s.memKept_refl ?_
    · refine h1.trans ?_
      simp only []
      split
      · next l _ => exact ⟨l.wf_combined, rfl, rfl⟩
      · split
        · exact u.memKept_refl
        · exact u.allocLine_kept _ _
  · exact s.failed_kept t va k

/-- A touch of L1 keeps the memories. -/
theorem State.l1Touch_kept (s : State) (c : Nat) (al : Bool) (asid : BitVec 16) (va n p : Nat) (w : Bool) :
    s.MemKept (s.l1Touch c al asid va n p w) := by
  refine (s.recall_kept asid va).trans ?_
  unfold State.l1Touch
  simp only []
  generalize s.recall asid va = u
  split
  · exact u.memKept_refl
  · next l0 _ =>
    split
    · refine State.MemKept.trans ?_ (State.putLine_kept _ _)
      split
      · exact u.memKept_refl
      · exact u.l1Way_kept _ _ _
    · exact u.putLine_kept _

/-- A merge at a line's home keeps the memories. -/
theorem State.l1Merge_kept (s : State) (asid : BitVec 16) (va : Nat) : s.MemKept (s.l1Merge asid va) := by
  refine (s.recall_kept asid va).trans ?_
  unfold State.l1Merge
  simp only []
  split
  · exact State.memKept_refl _
  · exact State.putLine_kept _ _

/-- Bytes written into a frame keep the memories' form. -/
theorem State.writePhys_kept (s : State) (c : Option Nat) (al : Bool) (asid : BitVec 16) (va fr : Nat) (bs : List Byte) :
    s.MemKept (s.writePhys c al asid va fr bs) := by
  have key : ∀ u : State, s.MemKept u → s.MemKept (({ u with mem := wrBytes u.mem (physOf fr va) bs } : State).wake spGlobal
      (place asid.toNat va) bs.length) := fun u h => h.trans ⟨fun w => Memory.wf_wrBytes w _ _, rfl, rfl⟩
  cases c with
  | none => exact key _ (s.l1Merge_kept asid va)
  | some c => exact key _ (s.l1Touch_kept c al asid va bs.length (physOf fr va) true)

/-- What a system unit's request leaves behind keeps the memories. -/
theorem State.sysTouch_kept (s : State) (hub : Nat) (asid : BitVec 16) (va n : Nat) (k : AccKind) : s.MemKept (s.sysTouch hub asid va n k) := by
  unfold State.sysTouch
  refine (State.memKept_foldl _ (fun t l => ?_) _ _).trans (State.memKept_foldl _ (fun t p => ?_) _ _)
  · exact ⟨id, rfl, rfl⟩
  · split
    · split
      · exact t.memKept_refl
      · exact (t.own_kept _ _ _).trans (State.recallPhys_kept _ _ _)
    · exact t.walked_kept _ _

/-- A system write keeps the canonical form, and the memories outside the frames. -/
theorem State.sysWrite_kept (s : State) (hub : Nat) (asid : BitVec 16) (va : Nat) (bs : List Byte) : s.MemKept (s.sysWrite hub asid va bs) := by
  unfold State.sysWrite State.sysStore
  refine ((s.sysTouch_kept hub asid va bs.length .write).trans (State.memKept_foldl _ (fun t p => ?_) _ _)).trans
    (State.memKept_foldl _ (fun t i => ?_) _ _)
  · split
    · exact ⟨id, rfl, rfl⟩
    · exact t.memKept_refl
  · split
    · exact t.memKept_refl
    · split
      · exact State.writePhys_kept _ _ _ _ _ _ _
      · exact t.memKept_refl

/-- A gathered RED keeps the memories' form (R297). -/
theorem State.gather_kept (s : State) (t : Target) (c : Nat) (op : AtomOp) (x va : Nat) : s.MemKept (s.gather t c op x va) := by
  unfold State.gather
  split
  · exact s.memKept_refl
  · next l0 _ =>
    simp only []
    refine State.MemKept.trans ?_ (State.putLine_kept _ _)
    have h1 : s.MemKept (match (l0.l1.filter (fun (e : Nat × Nat) => e.1 == c)).map Prod.snd ++
        (l0.uo.filter (fun (e : UoCopy) => e.core == c)).map UoCopy.way with | w :: _ => (s, w) | [] => s.l1Way c l0.line t.policy).1 := by
      split
      · exact s.memKept_refl
      · exact s.l1Way_kept _ _ _
    exact State.memKept_ite _ (h1.trans ⟨UoCopy.wf_combine _ _, rfl, rfl⟩) h1

end Sys2Proof.Machine
end

