-- ==== Sys2Proof/Tests/Witness.lean ====
section
/-! SUPPORT. Witnesses: for each statement with hypotheses, states and operands that meet them all together. -/

namespace Sys2Proof.Tests
open Sys2Proof.Machine
set_option Elab.async false

/-! The lab: one rope of one strand about to issue on core 0, at level SYSTEM, its map name 0 a valid slot of ones. -/

/-- Fields of a register form: v8, v4, v6. -/
def regF : Fields := ⟨3, 0, 8, 4, 6, 0, 7, false, 0, false, 0, false, false, .native none⟩
/-- The same with A mapped. -/
def mapF : Fields := { regF with mae := true }
/-- The same with a guard that no lane meets. -/
def offF : Fields := { regF with pg := 0 }

/-- A valid slot of S8 weights, all 1. -/
def onesSlot : MapSlot := ⟨.valid, 0, 1, 0, false, 0, (List.range 1024).map (fun i => (i, 1)), [], none, none⟩

/-- The lab's rope and workgroup changed. -/
def labWith (g : Rope → Rope) (h : Workgroup → Workgroup) : State :=
  let s := State.reset.boot []
  let w := (tget s.wgs 0).getD (bootWg 1)
  let r := (tget s.ropes 1).getD (w.freshRope 0 0 0 [0] true 0)
  { (s.setWg 0 (h { w with maps := 16, slotMap := [(0, 0)] })).setRope 1 (g { r with maps := 16 }) with slots := [(0, onesSlot)] }

/-- The lab. -/
def lab : State := labWith id id

/-- The domain settings of a state (R220). -/
def withSet (v : DWord) (s : State) : State := s.setCore 0 ((s.core 0).setDpe 5 v)

/-- An instruction starts, and what has begun meets a condition. -/
def starts (op : Nat) (f : Fields) (s : State) (h : Begun → Bool) : Bool := (s.begun op f pb0).any h

/-! Arithmetic. -/

theorem untrapped_of {b : Begun} (h : b.y.fpxen = 0) (fl : Nat → Flags) : b.untrapped fl = true := by
  have h0 : (maskOf fun l => fl l &&& (0 : Flags) != 0) = 0 := by
    have : (fun l => fl l &&& (0 : Flags) != 0) = fun _ => false := by funext l; simp
    rw [this]; decide
  unfold Begun.untrapped Issue.fpxLanes
  rw [h, h0]
  simp

theorem dest_some {b : Begun} (h : b.y.fpxen = 0) (res : Nat → ER) : ∃ ws, b.dest res = some ws := by
  unfold Begun.dest
  split
  · exact ⟨_, rfl⟩
  · split <;> rw [if_pos (untrapped_of h _)] <;> exact ⟨_, rfl⟩

/-- What a completion asks for: a start, its maps, no trap, some lane. -/
def completes (op : Nat) (f : Fields) : Bool :=
  starts op f lab (fun b => b.mapped.isSome && b.y.fpxen == 0 && b.y.act != 0)

/-- The opcodes of the completion statements. -/
def compOps : List Nat := [0x000, 0x001, 0x002, 0x003, 0x004, 0x005, 0x006, 0x007, 0x008, 0x009, 0x00A, 0x00B, 0x00C, 0x00D, 0x00E, 0x00F, 0x010, 0x011, 0x012, 0x013, 0x018, 0x019, 0x01A, 0x01B, 0x01C, 0x01D, 0x020, 0x021, 0x022, 0x023, 0x024, 0x025, 0x026, 0x028, 0x029, 0x02A, 0x02B, 0x02C, 0x02D, 0x040, 0x041, 0x042, 0x043, 0x044, 0x045, 0x046, 0x047, 0x048, 0x049, 0x04A, 0x04B, 0x04C, 0x04D, 0x04E, 0x050, 0x051, 0x052, 0x053, 0x060, 0x061, 0x062, 0x063, 0x064, 0x065, 0x066, 0x080, 0x081, 0x082, 0x083, 0x084, 0x085, 0x087, 0x088, 0x089, 0x08A, 0x08B, 0x08C, 0x08D, 0x08F, 0x090, 0x091, 0x092, 0x093, 0x094, 0x095, 0x097, 0x098, 0x099, 0x09A, 0x09B, 0x09C, 0x09D, 0x09F, 0x0C0, 0x0C1, 0x0C2, 0x0C3, 0x0C4, 0x0C5, 0x0C6, 0x0C7, 0x0C8, 0x0C9, 0x0CA, 0x0CB, 0x0CC, 0x0CD, 0x0CE, 0x0CF, 0x0D0, 0x0D1, 0x0D2, 0x0D3, 0x0D4, 0x0D5, 0x0D6, 0x0D7, 0x0D8, 0x0D9, 0x0DA, 0x0DB, 0x0DC, 0x0DD, 0x0DE, 0x0DF, 0x0E0, 0x0E1]

theorem wit_comp_plain : compOps.all (fun op => completes op regF) = true := by decide +kernel
theorem wit_comp_mapped : [0x000, 0x010, 0x040, 0x080, 0x084].all (fun op => completes op mapF) = true := by decide +kernel

theorem completes_spec {op : Nat} {f : Fields} (h : completes op f = true) (res : Begun → Nat → ER) :
    ∃ b s1 extra ws, lab.begun op f pb0 = some b ∧ b.mapped = some (s1, extra) ∧ b.dest (res b) = some ws := by
  unfold completes starts at h
  obtain ⟨b, hb, h⟩ := (Option.any_eq_true _ _).1 h
  simp only [Bool.and_eq_true, beq_iff_eq] at h
  obtain ⟨p, hp⟩ := Option.isSome_iff_exists.1 h.1.1
  obtain ⟨ws, hw⟩ := dest_some h.1.2 (res b)
  exact ⟨b, p.1, p.2, ws, hb, hp, hw⟩

/-- Every completion statement of an arithmetic instruction has a state and operands, whatever its result. -/
theorem wit_CompletesWith (op : Nat) (h : op ∈ compOps) (res : Begun → Nat → ER) :
    ∃ (f : Fields) (s : State) (b : Begun) (s1 : State) (extra : Nat) (ws : List RegWrite),
      s.begun op f pb0 = some b ∧ b.mapped = some (s1, extra) ∧ b.dest (res b) = some ws :=
  ⟨regF, lab, completes_spec (List.all_eq_true.1 wit_comp_plain op h) res⟩

/-- A lab whose v4 and v6 hold given words in lanes 0 and 1 (pairs for 64-bit formats). -/
def data (a0 a1 b : Nat) : State := labWith (fun r => { r with v := [(128, BitVec.ofNat 32 a0), (129, BitVec.ofNat 32 a1),
  (160, BitVec.ofNat 32 (a0 / 2 ^ 32)), (161, BitVec.ofNat 32 (a1 / 2 ^ 32)), (192, BitVec.ofNat 32 b), (224, BitVec.ofNat 32 (b / 2 ^ 32))] }) id

def divOps : List (Nat × Ty) := [(0x054, .s32), (0x055, .n32), (0x056, .s32), (0x057, .n32), (0x058, .s64), (0x059, .n64), (0x05A, .s64), (0x05B, .n64)]

/-- Divisions whose conditions do not trap: a zero divisor with its trap off, and 7 / 2 with the traps on. -/
theorem wit_DividesWith : divOps.all (fun p =>
    starts p.1 regF lab (fun b => b.y.active.all (fun l => b.divTrap p.2 l == 0) && b.y.fpxen == 0 && b.y.act != 0)) = true ∧
  divOps.all (fun p => starts p.1 { regF with pg := 7 } (withSet 0x3000 (labWith (fun r => { r with
      v := [192, 193, 194, 195].map (fun k => (k, 2)) }) id))
    (fun b => b.y.active.all (fun l => b.divTrap p.2 l == 0) && b.y.fpxen == 0)) = true := by decide +kernel

/-- Divisions that trap: DIVZ, and DIVOVF of the least number by -1. -/
theorem wit_DivisionTraps : divOps.all (fun p =>
    starts p.1 regF (withSet 0x3000 lab) (fun b => (b.y.active.find? (fun j => b.divTrap p.2 j != 0)).any (fun l => b.divTrap p.2 l == 10))) = true ∧
  [(0x054, Ty.s32), (0x056, .s32)].all (fun p => starts p.1 regF (withSet 0x3000 (labWith (fun r => { r with
      v := [(128, 0x80000000), (129, 1), (130, 1), (131, 1)] ++ [192, 193, 194, 195].map (fun k => (k, 0xFFFFFFFF)) }) id))
    (fun b => (b.y.active.find? (fun j => b.divTrap p.2 j != 0)).any (fun l => b.divTrap p.2 l == 11))) = true := by decide +kernel

/-- Compares: with lanes in ACTIVE and flags that cannot trap, and with none. -/
theorem wit_ComparesWith : ([0x014, 0x015, 0x016, 0x017, 0x086, 0x08E, 0x096, 0x09E] : List Nat).all (fun op =>
    starts op regF lab (fun b => b.mapped.isSome && b.y.act != 0 && b.y.fpxen == 0) &&
    starts op offF lab (fun b => b.mapped.isSome && b.y.act == 0)) = true := by decide +kernel

theorem fpxLanes_of {x : Issue} {fl : Nat → Flags} {l : Nat} (h : x.act.getLsbD l = true) (hl : l = 0)
    (hf : (fl l &&& x.fpxen != 0) = true) : x.fpxLanes fl ≠ 0 := by
  intro e
  have := congrArg (fun m : Word => m.getLsbD l) e
  subst hl
  simp only [Issue.fpxLanes, BitVec.getLsbD_and, h, Bool.true_and] at this
  have key : ∀ p : Nat → Bool, p 0 = true → (maskOf p).getLsbD 0 = true := by
    intro p hp
    have hodd : ∀ (q : List Nat) (a : Nat), (∀ k ∈ q, k ≠ 0) → (q.foldl (fun a l => a + 2 ^ l) a) % 2 = a % 2 := by
      intro q
      induction q with
      | nil => intro a _; rfl
      | cons k q ih =>
        intro a hq
        rw [List.foldl_cons, ih _ (fun k hk => hq k (List.mem_cons_of_mem _ hk))]
        obtain ⟨n, rfl⟩ := Nat.exists_eq_succ_of_ne_zero (hq k List.mem_cons_self)
        rw [Nat.pow_succ]; omega
    have hl : lanes32 = 0 :: (List.range 31).map (· + 1) := by decide
    unfold maskOf
    rw [hl, List.filter_cons, if_pos hp, List.foldl_cons]
    simp only [BitVec.getLsbD_ofNat, Nat.testBit_zero]
    rw [hodd _ _ (by intro k hk; simp at hk; omega)]
    rfl
  rw [key _ hf] at this
  simp at this

/-- What a trap of flags asks for, seen in lane 0. -/
def raises (_ : Fields → Instr) (op : Nat) (f : Fields) (s : State) (res : Begun → Nat → ER) : Bool :=
  starts op f (withSet 0x7C s) (fun b => b.mapped.isSome && b.y.act.getLsbD 0 && !b.y.quiet 12 && !scalarForm f &&
    ((res b 0).fl &&& b.y.fpxen != 0))

/-- What is seen in lane 0 meets the hypotheses of the trap statements. -/
theorem raises_spec {i : Fields → Instr} {op : Nat} {f : Fields} {s : State} {res : Begun → Nat → ER} (h : raises i op f s res = true) :
    ∃ (s : State) (b : Begun) (s1 : State) (extra : Nat), s.begun op f pb0 = some b ∧ b.mapped = some (s1, extra) ∧ b.y.act ≠ 0 ∧
      b.y.fpxLanes (fun l => if scalarForm f && (b.m.sig == .s1 || b.m.sig == .s2) then (res b 0).fl else (res b l).fl) ≠ 0 ∧
      b.y.quiet 12 = false := by
  unfold raises starts at h
  obtain ⟨b, hb, h⟩ := (Option.any_eq_true _ _).1 h
  simp only [Bool.and_eq_true, Bool.not_eq_true'] at h
  obtain ⟨⟨⟨⟨h1, h2⟩, h3⟩, h4⟩, h5⟩ := h
  obtain ⟨p, hp⟩ := Option.isSome_iff_exists.1 h1
  refine ⟨_, b, p.1, p.2, hb, hp, ?_, ?_, h3⟩
  · intro e; rw [e] at h2; simp at h2
  · simp only [h4, Bool.false_and, Bool.false_eq_true, if_false]
    exact fpxLanes_of h2 rfl h5

theorem wit_fpx_fadd_f32 : raises .faddF32 0x080 regF (data 0x7f800000 0x0 0xff800000)
    (resAB (fun m c a b => roundedIn (floatTy m c) c (firstNan a.flt b.flt (faddExact c.rm.toNat a.flt b.flt)))) = true := by decide +kernel
theorem wit_fpx_fadd_f16 : raises .faddF16 0x088 regF (data 0x7c007c00 0x0 0xfc00fc00)
    (resAB (fun m c a b => roundedIn (floatTy m c) c (firstNan a.flt b.flt (faddExact c.rm.toNat a.flt b.flt)))) = true := by decide +kernel
theorem wit_fpx_fadd_bf16 : raises .faddBf16 0x090 regF (data 0x7f807f80 0x0 0xff80ff80)
    (resAB (fun m c a b => roundedIn (floatTy m c) c (firstNan a.flt b.flt (faddExact c.rm.toNat a.flt b.flt)))) = true := by decide +kernel
theorem wit_fpx_fadd_f64 : raises .faddF64 0x098 regF (data 0x7ff0000000000000 0x0 0xfff0000000000000)
    (resAB (fun m c a b => roundedIn (floatTy m c) c (firstNan a.flt b.flt (faddExact c.rm.toNat a.flt b.flt)))) = true := by decide +kernel
theorem wit_fpx_fsub_f32 : raises .fsubF32 0x081 regF (data 0x7f800000 0x0 0x7f800000)
    (resAB (fun m c a b => roundedIn (floatTy m c) c (firstNan a.flt b.flt (faddExact c.rm.toNat a.flt (fneg b.flt))))) = true := by decide +kernel
theorem wit_fpx_fsub_f16 : raises .fsubF16 0x089 regF (data 0x7c007c00 0x0 0x7c007c00)
    (resAB (fun m c a b => roundedIn (floatTy m c) c (firstNan a.flt b.flt (faddExact c.rm.toNat a.flt (fneg b.flt))))) = true := by decide +kernel
theorem wit_fpx_fsub_bf16 : raises .fsubBf16 0x091 regF (data 0x7f807f80 0x0 0x7f807f80)
    (resAB (fun m c a b => roundedIn (floatTy m c) c (firstNan a.flt b.flt (faddExact c.rm.toNat a.flt (fneg b.flt))))) = true := by decide +kernel
theorem wit_fpx_fsub_f64 : raises .fsubF64 0x099 regF (data 0x7ff0000000000000 0x0 0x7ff0000000000000)
    (resAB (fun m c a b => roundedIn (floatTy m c) c (firstNan a.flt b.flt (faddExact c.rm.toNat a.flt (fneg b.flt))))) = true := by decide +kernel
theorem wit_fpx_fmul_f32 : raises .fmulF32 0x082 regF (data 0x7f800000 0x0 0x0)
    (resAB (fun m c a b => roundedIn (floatTy m c) c (firstNan a.flt b.flt (fmulExact a.flt b.flt)))) = true := by decide +kernel
theorem wit_fpx_fmul_f16 : raises .fmulF16 0x08A regF (data 0x7c007c00 0x0 0x0)
    (resAB (fun m c a b => roundedIn (floatTy m c) c (firstNan a.flt b.flt (fmulExact a.flt b.flt)))) = true := by decide +kernel
theorem wit_fpx_fmul_bf16 : raises .fmulBf16 0x092 regF (data 0x7f807f80 0x0 0x0)
    (resAB (fun m c a b => roundedIn (floatTy m c) c (firstNan a.flt b.flt (fmulExact a.flt b.flt)))) = true := by decide +kernel
theorem wit_fpx_fmul_f64 : raises .fmulF64 0x09A regF (data 0x7ff0000000000000 0x0 0x0)
    (resAB (fun m c a b => roundedIn (floatTy m c) c (firstNan a.flt b.flt (fmulExact a.flt b.flt)))) = true := by decide +kernel
theorem wit_fpx_ffma_f32 : raises .ffmaF32 0x083 regF (data 0x7f800000 0x0 0x0)
    (resABC (fun m c a b d => roundedIn (floatTy m c) c (ffmaExact c.rm.toNat a.flt b.flt d.flt))) = true := by decide +kernel
theorem wit_fpx_ffma_f16 : raises .ffmaF16 0x08B regF (data 0x7c007c00 0x0 0x0)
    (resABC (fun m c a b d => roundedIn (floatTy m c) c (ffmaExact c.rm.toNat a.flt b.flt d.flt))) = true := by decide +kernel
theorem wit_fpx_ffma_bf16 : raises .ffmaBf16 0x093 regF (data 0x7f807f80 0x0 0x0)
    (resABC (fun m c a b d => roundedIn (floatTy m c) c (ffmaExact c.rm.toNat a.flt b.flt d.flt))) = true := by decide +kernel
theorem wit_fpx_ffma_f64 : raises .ffmaF64 0x09B regF (data 0x7ff0000000000000 0x0 0x0)
    (resABC (fun m c a b d => roundedIn (floatTy m c) c (ffmaExact c.rm.toNat a.flt b.flt d.flt))) = true := by decide +kernel
theorem wit_fpx_fmin_f32 : raises .fminF32 0x084 mapF (data 0x7f800000 0xff800000 0x0)
    (resAB (fun m c a b => roundedIn (floatTy m c) c (extremeOf false a.flt b.flt, 0))) = true := by decide +kernel
theorem wit_fpx_fmin_f16 : raises .fminF16 0x08C mapF (data 0x7c007c00 0xfc00fc00 0x0)
    (resAB (fun m c a b => roundedIn (floatTy m c) c (extremeOf false a.flt b.flt, 0))) = true := by decide +kernel
theorem wit_fpx_fmin_bf16 : raises .fminBf16 0x094 mapF (data 0x7f807f80 0xff80ff80 0x0)
    (resAB (fun m c a b => roundedIn (floatTy m c) c (extremeOf false a.flt b.flt, 0))) = true := by decide +kernel
theorem wit_fpx_fmin_f64 : raises .fminF64 0x09C mapF (data 0x7ff0000000000000 0xfff0000000000000 0x0)
    (resAB (fun m c a b => roundedIn (floatTy m c) c (extremeOf false a.flt b.flt, 0))) = true := by decide +kernel
theorem wit_fpx_fmax_f32 : raises .fmaxF32 0x085 mapF (data 0x7f800000 0xff800000 0x0)
    (resAB (fun m c a b => roundedIn (floatTy m c) c (extremeOf true a.flt b.flt, 0))) = true := by decide +kernel
theorem wit_fpx_fmax_f16 : raises .fmaxF16 0x08D mapF (data 0x7c007c00 0xfc00fc00 0x0)
    (resAB (fun m c a b => roundedIn (floatTy m c) c (extremeOf true a.flt b.flt, 0))) = true := by decide +kernel
theorem wit_fpx_fmax_bf16 : raises .fmaxBf16 0x095 mapF (data 0x7f807f80 0xff80ff80 0x0)
    (resAB (fun m c a b => roundedIn (floatTy m c) c (extremeOf true a.flt b.flt, 0))) = true := by decide +kernel
theorem wit_fpx_fmax_f64 : raises .fmaxF64 0x09D mapF (data 0x7ff0000000000000 0xfff0000000000000 0x0)
    (resAB (fun m c a b => roundedIn (floatTy m c) c (extremeOf true a.flt b.flt, 0))) = true := by decide +kernel

/-- FACC: with lanes in ACTIVE and with none. -/
theorem wit_AccumulatesWith : [(0x0A0, Ty.n4), (0x0A1, .s8), (0x0A2, .n8), (0x0A3, .e2m1), (0x0A4, .e4m3), (0x0A5, .e5m2)].all (fun p =>
    starts p.1 mapF lab (fun b => (match b.y.mapStageIn b.t (dataRow p.2 false) (dataRow p.2 false) (!p.2.isFloat) false true with
      | .ok _ => true | .error _ => false) && b.y.act != 0 && b.y.fpxen == 0) &&
    starts p.1 { mapF with pg := 0 } lab (fun b => (match b.y.mapStageIn b.t (dataRow p.2 false) (dataRow p.2 false) (!p.2.isFloat) false true with
      | .ok _ => true | .error _ => false) && b.y.act == 0)) = true := by decide +kernel

end Sys2Proof.Tests
end

