-- ==== Sys2Proof/Tests/WitnessRope.lean ====
section
/-! SUPPORT. Witnesses for the statements about control, lanes, memory, engines and system instructions. -/

namespace Sys2Proof.Tests
open Sys2Proof.Machine
set_option Elab.async false

/-- Fields with D, A, B, C given. -/
def fd (d a b c : BitVec 8) : Fields := { regF with d := d, a := a, b := b, c := c }
/-- The same with a guard that no lane meets. -/
def fdOff (d a b c : BitVec 8) : Fields := { fd d a b c with pg := 0 }
/-- Fields with a CW that holds an immediate. -/
def fdImm (d a b c : BitVec 8) (imm : Word) : Fields := { fd d a b c with enc := .native (some ⟨imm, 0, 0, 0, 0, false, false⟩) }

/-- PLOP, PRDS, PWRS; SHFL, BCAST, RDLANE, WRLANE, MATCH; votes with lanes in ACTIVE; YIELD, NOP. -/
theorem wit_begun : ([0x01E, 0x01F, 0x027, 0x108, 0x109, 0x10A, 0x10B, 0x10C, 0x10D, 0x158, 0x159, 0x15A, 0x14A, 0x14B] : List Nat).all
    (fun op => starts op (fd 2 1 1 0) lab (fun b => b.y.act != 0)) = true := by decide +kernel

/-! Maps. -/

/-- MAPLD of zeros (format SEL) from scratchpad 0 into slot 0. -/
theorem wit_mapld : starts 0x100 (fd 0 4 6 0) lab (fun b => b.y.act != 0 && !b.t.fenced b.y.k b.y.r b.y.unit &&
    !b.t.mapldBehind b.y.k && (match b.y.slotCheck b.t 0 with
    | .ok k => (b.t.slot k).state != .pending &&
      (let m := fillOf b.y b.t.drawDelay.2.nextId (b.y.r.sr 4).toNat (b.t.readScratch b.y.r.wg (b.y.r.sr 6).toNat 32) 5
       m.outside b.y.w.scratchSize == none)
    | .error _ => false) && (b.y.r.sr 6).toNat % 4 == 0 && (b.y.r.sr 4).toNat % 4 == 0 && b.y.r.frame.isNone &&
    Machine.outside b.y.w.scratchSize (b.y.r.sr 6).toNat 32 == none && b.y.blockPinned (b.y.r.sr 6).toNat &&
    blockOk (b.t.readScratch b.y.r.wg (b.y.r.sr 6).toNat 32)) = true := by decide +kernel

theorem wit_mapclr : starts 0x101 (fd 0 0 0 0) lab (fun b => b.y.act != 0 && (match b.y.slotCheck b.t 0 with
    | .ok k => (b.t.slot k).state != .pending | .error _ => false)) = true := by decide +kernel

/-- MAPQ without and with W. -/
theorem wit_mapq : ([0, 1] : List (BitVec 8)).all (fun c => starts 0x102 (fd 8 0 0 c) lab (fun b => b.y.act != 0 &&
    (match b.y.slotCheck b.t 0 with | .ok k => c == 0 || (b.t.slot k).state != .pending | .error _ => false))) = true := by decide +kernel

/-! Control. -/

/-- The lab with a code address in s4:s5 and in v4:v5 of every lane. -/
def labCode : State := labWith (fun r => { r with s := [(4, 0x10000)], v := [(128, 0x10000), (129, 0x10000), (130, 0x10000), (131, 0x10000)] }) id

/-- A target that passes its checks, one that fails them, one without a translation. -/
def isOk : FetchRes → Bool | .ok => true | _ => false
/-- See `isOk`. -/
def isFault : FetchRes → Bool | .fault _ => true | _ => false
/-- See `isOk`. -/
def isMiss : FetchRes → Bool | .miss _ _ => true | _ => false

/-- Transfers to a start: BRA and CALL to themselves, JMPI, CALLI in both forms, RET. -/
theorem wit_transfers :
    (([0x140, 0x141] : List Nat).all (fun op => starts op (fd 8 0 0 0) lab (fun b => b.y.act != 0 &&
      b.y.active.all (fun _ => isOk (b.t.targetAt b.y.k b.y.unit b.y.r (branchTo b.y)))))) = true ∧
    (([0x142, 0x143] : List Nat).all (fun op => ([0, 1] : List (BitVec 8)).all (fun c => starts op (fd 8 4 0 c) labCode (fun b => b.y.act != 0 &&
      b.y.active.all (fun l => isOk (b.t.targetAt b.y.k b.y.unit b.y.r (jumpTo b.y l))))))) = true ∧
    starts 0x144 (fd 8 4 0 0) labCode (fun b => b.y.act != 0 && isOk (b.t.targetAt b.y.k b.y.unit b.y.r (b.y.r.spair 4))) = true := by decide +kernel

/-- Transfers to no start: 8 bytes on, and address 0. -/
theorem wit_badTargets :
    (([0x140, 0x141] : List Nat).all (fun op => starts op (fd 8 1 0 0) lab (fun b => b.y.act != 0 &&
      isFault (b.t.targetAt b.y.k b.y.unit b.y.r (branchTo b.y))))) = true ∧
    starts 0x144 (fd 8 4 0 0) lab (fun b => b.y.act != 0 && isFault (b.t.targetAt b.y.k b.y.unit b.y.r (b.y.r.spair 4))) = true := by decide +kernel

/-- The lab with a code handle and an image of two pages, of which the second is not mapped. -/
def labMiss : State :=
  let s := labWith (fun r => { r with s := [(4, 0x20000)] }) id
  let d := s.domain 0
  { s.setDomain 0 { d with handles := rset 0 d.handles 0 (BitVec.ofNat 256 (0x10000 + 131072 * 2 ^ 64 + (1 + 256) * 2 ^ 128)) } with
    images := s.images.map (fun (k, i) => (k, { i with sections := [⟨1, 0x10000, 131072, []⟩], starts := [0x10000, 0x20000] })) }

/-- Transfers to a start on a page without a translation. -/
theorem wit_missingTargets :
    (([0x140, 0x141] : List Nat).all (fun op => starts op (fd 8 0 0x20 0) labMiss (fun b => b.y.act != 0 &&
      isMiss (b.t.targetAt b.y.k b.y.unit b.y.r (branchTo b.y))))) = true ∧
    starts 0x144 (fd 8 4 0 0) labMiss (fun b => b.y.act != 0 && isMiss (b.t.targetAt b.y.k b.y.unit b.y.r (b.y.r.spair 4))) = true := by decide +kernel

/-- A frayed rope: three lanes of the strand active, one parked. -/
def labFrayed : State := labWith (fun r => { r with strands := r.strands.map (fun t => if t.live then { t with active := 7, parked := 8 } else t) }) id

theorem wit_splices :
    (([0x148, 0x149] : List Nat).all (fun op => starts op (fd 0 0 0 0) lab (fun b => (tget b.t.ropes b.y.k).any (fun r => r.whole)) &&
      starts op (fd 0 0 0 0) labFrayed (fun b => (tget b.t.ropes b.y.k).any (fun r => !r.whole)))) = true ∧
    starts 0x14C (fd 0 0 0 0) lab (fun b => b.y.r.frame.isNone && b.y.act != 0 && !b.t.logs b.y.k) = true ∧
    starts 0x14C { fd 0 0 0 0 with pgn := true } lab (fun _ => true) = true := by decide +kernel

/-- Strands for the clauses of SPLICE and EXIT: with a group on the stack and without. -/
def strandA : Strand := ⟨0, true, 8, 3, [(16, 12)], 0, 0, 0, false, 0, false, 0, false, 0⟩
def strandB : Strand := { strandA with stack := [], parked := 8 }
theorem wit_strands : strandA.stack = [(16, 12)] ∧ strandB.stack = [] ∧ strandA.active &&& ~~~(1#4) ≠ 0 ∧
    strandA.active &&& ~~~(3#4) = 0 ∧ strandB.active &&& ~~~(15#4) = 0 := by decide

/-! Barriers. -/

theorem wit_barriers :
    (([0x150, 0x151] : List Nat).all (fun op => starts op (fd 0 0 3 0) lab (fun b => b.y.r.frame.isNone && !b.t.logs b.y.k &&
      (b.y.r.bar 3).strands &&& b.y.r.unitStrands b.y.unit != b.y.r.unitStrands b.y.unit && (tget (b.t.barArrive b.y.k 3 (b.y.r.unitStrands b.y.unit)).ropes b.y.k).isSome))) = true ∧
    (([0x152, 0x153] : List Nat).all (fun op => starts op (fd 0 0 15 4) lab (fun b => b.y.r.frame.isNone && (tget b.t.ropes b.y.k).isSome))) = true := by
  decide +kernel

/-- A barrier with all arrivals and one without; a rope that ends before and after its arrival. -/
theorem wit_barTest :
    (tget (labWith id (fun w => { w with barriers := [(0, ⟨1, 1, false, none⟩)] })).wgs 0).any (fun w =>
      (w.barrier 0).arrived == (w.barrier 0).expected && (w.barrier 0).arrived != 0) = true ∧
    (tget lab.wgs 0).any (fun w => (w.barrier 0).arrived != (w.barrier 0).expected) = true ∧
    (tget (labWith id (fun w => { w with barriers := [(0, ⟨3, 1, false, none⟩)] })).ropes 1).any (fun r => (r.bar 0).arrived == false) = true ∧
    (tget (labWith id (fun w => { w with barriers := [(0, ⟨3, 1, false, none⟩)] })).wgs 0).any (fun w => (w.barrier 0).arrived != (w.barrier 0).expected - 1) = true ∧
    (labWith id (fun w => { w with barriers := [(0, ⟨3, 1, false, none⟩)] })).ropes.all (fun (_, q) =>
      (q.bar 0).strands &&& q.liveStrands != q.liveStrands) = true := by
  decide +kernel

/-- WAITC at limits 0 and at 63; the fences. -/
theorem wit_waits : starts 0x160 (fd 0 0 0 0) lab (fun b => b.y.r.ldc == 0 && b.y.r.stc == 0 && b.y.r.cpc == 0) = true ∧
    starts 0x160 (fd 0 63 63 63) (labWith (fun r => { r with ldc := 63, stc := 63, cpc := 63 }) id) (fun _ => true) = true ∧
    (([0x162, 0x163, 0x164] : List Nat).all (fun op => starts op (fd 0 0 1 0) lab (fun b => (tget b.t.ropes b.y.k).isSome))) = true := by
  decide +kernel

/-- A rope whose release fence holds its unit back behind a store. -/
def labFenced : State := labWith (fun r => { r with s := [(4, 0x10000)], stc := 1, stores := [⟨0, 100, true⟩], fence := ⟨0, 1, [], []⟩ }) id
theorem wit_fenced : ([0x184, 0x185, 0x18A, 0x18B, 0x198, 0x1B0, 0x100] : List Nat).all (fun op =>
    starts op (fd 8 4 6 0) labFenced (fun b => b.y.act != 0 && b.t.fenced b.y.k b.y.r b.y.unit)) = true := by decide +kernel

/-! Memory. -/

/-- A handle entry of a space with rights R, W, A, of 64 KiB from a base. -/
def rwaEntry (space : Nat) (base : Nat) : BitVec 256 := BitVec.ofNat 256 (base + 65536 * 2 ^ 64 + (1 + 2 * space + 0x0AC0) * 2 ^ 128)

/-- The lab with handles 1 to 3 in the domain (GLOBAL at a page of data, SCRATCH, HOST), handle register 4 naming one. -/
def labMem (n : BitVec 12) : State :=
  let s := ((labWith (fun r => { r with h := [(4, n)] }) id).placePage 0 0x20000 false 0 (List.replicate 16 7)).2
  let d := s.domain 0
  s.setDomain 0 { d with tdi := .run, handles := rset 0 (rset 0 (rset 0 d.handles 1 (rwaEntry 0 0x20000)) 2 (rwaEntry 1 0)) 3 (rwaEntry 2 0x5000) }

/-- The conditions of an access, decided. -/
def mayOk (b : Begun) (a : Access) : Bool :=
  b.y.act != 0 && decide ((if a.ld then b.y.r.ldc else b.y.r.stc) < 63) && decide (b.t.logUsed b.y.c b.y.r.quad < 256) &&
  !b.t.fenced b.y.k b.y.r b.y.unit && b.y.addrTrap b.t b.memHandle a.need a.sc a.size a.align a.els == none &&
  !b.t.behindLog b.y.k (b.y.goal b.t b.memHandle) b.memHandle a.els && !b.t.kickWaits b.y.k b.y.r b.memHandle a.els

theorem mayOk_spec {b : Begun} {a : Access} (h : mayOk b a = true) : b.MayAccess a := by
  unfold mayOk at h
  simp only [Bool.and_eq_true, bne_iff_ne, decide_eq_true_eq, Bool.not_eq_true', beq_iff_eq] at h
  obtain ⟨⟨⟨⟨⟨⟨h1, h2⟩, h3⟩, h4⟩, h5⟩, h6⟩, h7⟩ := h
  exact ⟨h1, h2, h3, h4, h5, h6, h7⟩

/-- An access in GLOBAL and SCRATCH space, and in HOST space too for a load or store, that may be performed. -/
def accesses (_ : Fields → Instr) (op : Nat) (a : Begun → Access) : Bool :=
  (if op < 0x198 then [1, 2, 3] else [1, 2] : List (BitVec 12)).all (fun n => starts op (fd 8 4 6 0) (labMem n) (fun b => mayOk b (a b)))

theorem wit_ldN8 : accesses .ldN8 0x180 (fun b => ⟨⟨[0, 1, 2, 3], 1, .load⟩, .read, true, b.y.f.c.getLsbD 0, 1, 1,
    b.y.elems (b.y.f.c.getLsbD 0) (fun l => .load 1 false (b.y.f.c.getLsbD 0) b.y.f.d.toNat l), [], pb0⟩) = true := by decide +kernel
theorem wit_ldS8 : accesses .ldS8 0x181 (fun b => ⟨⟨[0, 1, 2, 3], 1, .load⟩, .read, true, b.y.f.c.getLsbD 0, 1, 1,
    b.y.elems (b.y.f.c.getLsbD 0) (fun l => .load 1 true (b.y.f.c.getLsbD 0) b.y.f.d.toNat l), [], pb0⟩) = true := by decide +kernel
theorem wit_ldN16 : accesses .ldN16 0x182 (fun b => ⟨⟨[0, 1, 2, 3], 1, .load⟩, .read, true, b.y.f.c.getLsbD 0, 2, 2,
    b.y.elems (b.y.f.c.getLsbD 0) (fun l => .load 2 false (b.y.f.c.getLsbD 0) b.y.f.d.toNat l), [], pb0⟩) = true := by decide +kernel
theorem wit_ldS16 : accesses .ldS16 0x183 (fun b => ⟨⟨[0, 1, 2, 3], 1, .load⟩, .read, true, b.y.f.c.getLsbD 0, 2, 2,
    b.y.elems (b.y.f.c.getLsbD 0) (fun l => .load 2 true (b.y.f.c.getLsbD 0) b.y.f.d.toNat l), [], pb0⟩) = true := by decide +kernel
theorem wit_ldN32 : accesses .ldN32 0x184 (fun b => ⟨⟨[0, 1, 2, 3, 4], 1, .load⟩, .read, true, b.y.f.c.getLsbD 0, 4, 4,
    b.y.elems (b.y.f.c.getLsbD 0) (fun l => .load 4 false (b.y.f.c.getLsbD 0) b.y.f.d.toNat l), [], pb0⟩) = true := by decide +kernel
theorem wit_ldN64 : accesses .ldN64 0x185 (fun b => ⟨⟨[0, 1, 2, 3, 4], 1, .load⟩, .read, true, b.y.f.c.getLsbD 0, 8, 8,
    b.y.elems (b.y.f.c.getLsbD 0) (fun l => .load 8 false (b.y.f.c.getLsbD 0) b.y.f.d.toNat l), [], pb0⟩) = true := by decide +kernel
theorem wit_ldqN32 : accesses .ldqN32 0x186 (fun b => ⟨⟨[0, 1, 2, 3], 1, .load⟩, .read, true, b.y.f.c.getLsbD 0, 16, 16,
    b.y.elems (b.y.f.c.getLsbD 0) (fun l => .load 16 false (b.y.f.c.getLsbD 0) b.y.f.d.toNat l), [], pb0⟩) = true := by decide +kernel
theorem wit_stN8 : accesses .stN8 0x188 (fun b => ⟨⟨[0, 1, 2, 3], 2, .store⟩, .write, false, b.y.f.c.getLsbD 0, 1, 1,
    b.y.elems (b.y.f.c.getLsbD 0) (fun l => .store (storedBytes b.y (b.y.f.c.getLsbD 0) 1 l)), [], pb0⟩) = true := by decide +kernel
theorem wit_stN16 : accesses .stN16 0x189 (fun b => ⟨⟨[0, 1, 2, 3], 2, .store⟩, .write, false, b.y.f.c.getLsbD 0, 2, 2,
    b.y.elems (b.y.f.c.getLsbD 0) (fun l => .store (storedBytes b.y (b.y.f.c.getLsbD 0) 2 l)), [], pb0⟩) = true := by decide +kernel
theorem wit_stN32 : accesses .stN32 0x18A (fun b => ⟨⟨[0, 1, 2, 3, 4], 2, .store⟩, .write, false, b.y.f.c.getLsbD 0, 4, 4,
    b.y.elems (b.y.f.c.getLsbD 0) (fun l => .store (storedBytes b.y (b.y.f.c.getLsbD 0) 4 l)), [], pb0⟩) = true := by decide +kernel
theorem wit_stN64 : accesses .stN64 0x18B (fun b => ⟨⟨[0, 1, 2, 3, 4], 2, .store⟩, .write, false, b.y.f.c.getLsbD 0, 8, 8,
    b.y.elems (b.y.f.c.getLsbD 0) (fun l => .store (storedBytes b.y (b.y.f.c.getLsbD 0) 8 l)), [], pb0⟩) = true := by decide +kernel
theorem wit_stqN32 : accesses .stqN32 0x18C (fun b => ⟨⟨[0, 1, 2, 3], 2, .store⟩, .write, false, b.y.f.c.getLsbD 0, 16, 16,
    b.y.elems (b.y.f.c.getLsbD 0) (fun l => .store (storedBytes b.y (b.y.f.c.getLsbD 0) 16 l)), [], pb0⟩) = true := by decide +kernel
theorem wit_atomAddN32 : accesses .atomAddN32 0x198 (fun b => ⟨⟨[0, 1, 4], 11, .other⟩, .atomic, true, false, 4, 4,
    b.y.elems false (fun l => .atom .addN32 (b.y.atomArgs .addN32 l).1 (b.y.atomArgs .addN32 l).2 (some b.y.f.d.toNat) l), [], pb0⟩) = true := by decide +kernel
theorem wit_atomAddN64 : accesses .atomAddN64 0x199 (fun b => ⟨⟨[0, 1, 4], 11, .addCasXchg⟩, .atomic, true, false, 8, 8,
    b.y.elems false (fun l => .atom .addN64 (b.y.atomArgs .addN64 l).1 (b.y.atomArgs .addN64 l).2 (some b.y.f.d.toNat) l), [], pb0⟩) = true := by decide +kernel
theorem wit_atomAddF32 : accesses .atomAddF32 0x19A (fun b => ⟨⟨[0, 1], 11, .other⟩, .atomic, true, false, 4, 4,
    b.y.elems false (fun l => .atom .addF32 (b.y.atomArgs .addF32 l).1 (b.y.atomArgs .addF32 l).2 (some b.y.f.d.toNat) l), [], pb0⟩) = true := by decide +kernel
theorem wit_atomAdd2Bf16 : accesses .atomAdd2Bf16 0x19B (fun b => ⟨⟨[0, 1], 11, .other⟩, .atomic, true, false, 4, 4,
    b.y.elems false (fun l => .atom .add2Bf16 (b.y.atomArgs .add2Bf16 l).1 (b.y.atomArgs .add2Bf16 l).2 (some b.y.f.d.toNat) l), [], pb0⟩) = true := by decide +kernel
theorem wit_atomMinS32 : accesses .atomMinS32 0x19C (fun b => ⟨⟨[0, 1, 4], 11, .other⟩, .atomic, true, false, 4, 4,
    b.y.elems false (fun l => .atom .minS32 (b.y.atomArgs .minS32 l).1 (b.y.atomArgs .minS32 l).2 (some b.y.f.d.toNat) l), [], pb0⟩) = true := by decide +kernel
theorem wit_atomMinN32 : accesses .atomMinN32 0x19D (fun b => ⟨⟨[0, 1, 4], 11, .other⟩, .atomic, true, false, 4, 4,
    b.y.elems false (fun l => .atom .minN32 (b.y.atomArgs .minN32 l).1 (b.y.atomArgs .minN32 l).2 (some b.y.f.d.toNat) l), [], pb0⟩) = true := by decide +kernel
theorem wit_atomMinF32 : accesses .atomMinF32 0x19E (fun b => ⟨⟨[0, 1], 11, .other⟩, .atomic, true, false, 4, 4,
    b.y.elems false (fun l => .atom .minF32 (b.y.atomArgs .minF32 l).1 (b.y.atomArgs .minF32 l).2 (some b.y.f.d.toNat) l), [], pb0⟩) = true := by decide +kernel
theorem wit_atomMaxS32 : accesses .atomMaxS32 0x19F (fun b => ⟨⟨[0, 1, 4], 11, .other⟩, .atomic, true, false, 4, 4,
    b.y.elems false (fun l => .atom .maxS32 (b.y.atomArgs .maxS32 l).1 (b.y.atomArgs .maxS32 l).2 (some b.y.f.d.toNat) l), [], pb0⟩) = true := by decide +kernel
theorem wit_atomMaxN32 : accesses .atomMaxN32 0x1A0 (fun b => ⟨⟨[0, 1, 4], 11, .other⟩, .atomic, true, false, 4, 4,
    b.y.elems false (fun l => .atom .maxN32 (b.y.atomArgs .maxN32 l).1 (b.y.atomArgs .maxN32 l).2 (some b.y.f.d.toNat) l), [], pb0⟩) = true := by decide +kernel
theorem wit_atomMaxF32 : accesses .atomMaxF32 0x1A1 (fun b => ⟨⟨[0, 1], 11, .other⟩, .atomic, true, false, 4, 4,
    b.y.elems false (fun l => .atom .maxF32 (b.y.atomArgs .maxF32 l).1 (b.y.atomArgs .maxF32 l).2 (some b.y.f.d.toNat) l), [], pb0⟩) = true := by decide +kernel
theorem wit_atomAndN32 : accesses .atomAndN32 0x1A2 (fun b => ⟨⟨[0, 1, 4], 11, .other⟩, .atomic, true, false, 4, 4,
    b.y.elems false (fun l => .atom .andN32 (b.y.atomArgs .andN32 l).1 (b.y.atomArgs .andN32 l).2 (some b.y.f.d.toNat) l), [], pb0⟩) = true := by decide +kernel
theorem wit_atomOrN32 : accesses .atomOrN32 0x1A3 (fun b => ⟨⟨[0, 1, 4], 11, .other⟩, .atomic, true, false, 4, 4,
    b.y.elems false (fun l => .atom .orN32 (b.y.atomArgs .orN32 l).1 (b.y.atomArgs .orN32 l).2 (some b.y.f.d.toNat) l), [], pb0⟩) = true := by decide +kernel
theorem wit_atomXorN32 : accesses .atomXorN32 0x1A4 (fun b => ⟨⟨[0, 1, 4], 11, .other⟩, .atomic, true, false, 4, 4,
    b.y.elems false (fun l => .atom .xorN32 (b.y.atomArgs .xorN32 l).1 (b.y.atomArgs .xorN32 l).2 (some b.y.f.d.toNat) l), [], pb0⟩) = true := by decide +kernel
theorem wit_atomIncN32 : accesses .atomIncN32 0x1A5 (fun b => ⟨⟨[0, 1, 4], 11, .other⟩, .atomic, true, false, 4, 4,
    b.y.elems false (fun l => .atom .incN32 (b.y.atomArgs .incN32 l).1 (b.y.atomArgs .incN32 l).2 (some b.y.f.d.toNat) l), [], pb0⟩) = true := by decide +kernel
theorem wit_atomDecN32 : accesses .atomDecN32 0x1A6 (fun b => ⟨⟨[0, 1, 4], 11, .other⟩, .atomic, true, false, 4, 4,
    b.y.elems false (fun l => .atom .decN32 (b.y.atomArgs .decN32 l).1 (b.y.atomArgs .decN32 l).2 (some b.y.f.d.toNat) l), [], pb0⟩) = true := by decide +kernel
theorem wit_atomCaddF32 : accesses .atomCaddF32 0x1A7 (fun b => ⟨⟨[0, 1], 11, .other⟩, .atomic, true, false, 8, 8,
    b.y.elems false (fun l => .atom .caddF32 (b.y.atomArgs .caddF32 l).1 (b.y.atomArgs .caddF32 l).2 (some b.y.f.d.toNat) l), [], pb0⟩) = true := by decide +kernel
theorem wit_atomXchgN32 : accesses .atomXchgN32 0x1A8 (fun b => ⟨⟨[0, 1, 4], 11, .other⟩, .atomic, true, false, 4, 4,
    b.y.elems false (fun l => .atom .xchgN32 (b.y.atomArgs .xchgN32 l).1 (b.y.atomArgs .xchgN32 l).2 (some b.y.f.d.toNat) l), [], pb0⟩) = true := by decide +kernel
theorem wit_atomXchgN64 : accesses .atomXchgN64 0x1A9 (fun b => ⟨⟨[0, 1, 4], 11, .addCasXchg⟩, .atomic, true, false, 8, 8,
    b.y.elems false (fun l => .atom .xchgN64 (b.y.atomArgs .xchgN64 l).1 (b.y.atomArgs .xchgN64 l).2 (some b.y.f.d.toNat) l), [], pb0⟩) = true := by decide +kernel
theorem wit_atomCasN32 : accesses .atomCasN32 0x1AA (fun b => ⟨⟨[0, 1, 4], 11, .other⟩, .atomic, true, false, 4, 4,
    b.y.elems false (fun l => .atom .casN32 (b.y.atomArgs .casN32 l).1 (b.y.atomArgs .casN32 l).2 (some b.y.f.d.toNat) l), [], pb0⟩) = true := by decide +kernel
theorem wit_atomCasN64 : accesses .atomCasN64 0x1AB (fun b => ⟨⟨[0, 1, 4], 11, .addCasXchg⟩, .atomic, true, false, 8, 8,
    b.y.elems false (fun l => .atom .casN64 (b.y.atomArgs .casN64 l).1 (b.y.atomArgs .casN64 l).2 (some b.y.f.d.toNat) l), [], pb0⟩) = true := by decide +kernel
theorem wit_redAddN32 : accesses .redAddN32 0x1B0 (fun b => ⟨⟨[0, 1, 4], 10, .other⟩, .atomic, false, false, 4, 4,
    b.y.elems false (fun l => .atom .addN32 (b.y.atomArgs .addN32 l).1 (b.y.atomArgs .addN32 l).2 none l), [], pb0⟩) = true := by decide +kernel
theorem wit_redAddN64 : accesses .redAddN64 0x1B1 (fun b => ⟨⟨[0, 1, 4], 10, .redAdd⟩, .atomic, false, false, 8, 8,
    b.y.elems false (fun l => .atom .addN64 (b.y.atomArgs .addN64 l).1 (b.y.atomArgs .addN64 l).2 none l), [], pb0⟩) = true := by decide +kernel
theorem wit_redAddF32 : accesses .redAddF32 0x1B2 (fun b => ⟨⟨[0, 1], 10, .other⟩, .atomic, false, false, 4, 4,
    b.y.elems false (fun l => .atom .addF32 (b.y.atomArgs .addF32 l).1 (b.y.atomArgs .addF32 l).2 none l), [], pb0⟩) = true := by decide +kernel
theorem wit_redAdd2Bf16 : accesses .redAdd2Bf16 0x1B3 (fun b => ⟨⟨[0, 1], 10, .other⟩, .atomic, false, false, 4, 4,
    b.y.elems false (fun l => .atom .add2Bf16 (b.y.atomArgs .add2Bf16 l).1 (b.y.atomArgs .add2Bf16 l).2 none l), [], pb0⟩) = true := by decide +kernel
theorem wit_redMinS32 : accesses .redMinS32 0x1B4 (fun b => ⟨⟨[0, 1, 4], 10, .other⟩, .atomic, false, false, 4, 4,
    b.y.elems false (fun l => .atom .minS32 (b.y.atomArgs .minS32 l).1 (b.y.atomArgs .minS32 l).2 none l), [], pb0⟩) = true := by decide +kernel
theorem wit_redMinN32 : accesses .redMinN32 0x1B5 (fun b => ⟨⟨[0, 1, 4], 10, .other⟩, .atomic, false, false, 4, 4,
    b.y.elems false (fun l => .atom .minN32 (b.y.atomArgs .minN32 l).1 (b.y.atomArgs .minN32 l).2 none l), [], pb0⟩) = true := by decide +kernel
theorem wit_redMinF32 : accesses .redMinF32 0x1B6 (fun b => ⟨⟨[0, 1], 10, .other⟩, .atomic, false, false, 4, 4,
    b.y.elems false (fun l => .atom .minF32 (b.y.atomArgs .minF32 l).1 (b.y.atomArgs .minF32 l).2 none l), [], pb0⟩) = true := by decide +kernel
theorem wit_redMaxS32 : accesses .redMaxS32 0x1B7 (fun b => ⟨⟨[0, 1, 4], 10, .other⟩, .atomic, false, false, 4, 4,
    b.y.elems false (fun l => .atom .maxS32 (b.y.atomArgs .maxS32 l).1 (b.y.atomArgs .maxS32 l).2 none l), [], pb0⟩) = true := by decide +kernel
theorem wit_redMaxN32 : accesses .redMaxN32 0x1B8 (fun b => ⟨⟨[0, 1, 4], 10, .other⟩, .atomic, false, false, 4, 4,
    b.y.elems false (fun l => .atom .maxN32 (b.y.atomArgs .maxN32 l).1 (b.y.atomArgs .maxN32 l).2 none l), [], pb0⟩) = true := by decide +kernel
theorem wit_redMaxF32 : accesses .redMaxF32 0x1B9 (fun b => ⟨⟨[0, 1], 10, .other⟩, .atomic, false, false, 4, 4,
    b.y.elems false (fun l => .atom .maxF32 (b.y.atomArgs .maxF32 l).1 (b.y.atomArgs .maxF32 l).2 none l), [], pb0⟩) = true := by decide +kernel
theorem wit_redAndN32 : accesses .redAndN32 0x1BA (fun b => ⟨⟨[0, 1, 4], 10, .other⟩, .atomic, false, false, 4, 4,
    b.y.elems false (fun l => .atom .andN32 (b.y.atomArgs .andN32 l).1 (b.y.atomArgs .andN32 l).2 none l), [], pb0⟩) = true := by decide +kernel
theorem wit_redOrN32 : accesses .redOrN32 0x1BB (fun b => ⟨⟨[0, 1, 4], 10, .other⟩, .atomic, false, false, 4, 4,
    b.y.elems false (fun l => .atom .orN32 (b.y.atomArgs .orN32 l).1 (b.y.atomArgs .orN32 l).2 none l), [], pb0⟩) = true := by decide +kernel
theorem wit_redXorN32 : accesses .redXorN32 0x1BC (fun b => ⟨⟨[0, 1, 4], 10, .other⟩, .atomic, false, false, 4, 4,
    b.y.elems false (fun l => .atom .xorN32 (b.y.atomArgs .xorN32 l).1 (b.y.atomArgs .xorN32 l).2 none l), [], pb0⟩) = true := by decide +kernel
theorem wit_redIncN32 : accesses .redIncN32 0x1BD (fun b => ⟨⟨[0, 1, 4], 10, .other⟩, .atomic, false, false, 4, 4,
    b.y.elems false (fun l => .atom .incN32 (b.y.atomArgs .incN32 l).1 (b.y.atomArgs .incN32 l).2 none l), [], pb0⟩) = true := by decide +kernel
theorem wit_redDecN32 : accesses .redDecN32 0x1BE (fun b => ⟨⟨[0, 1, 4], 10, .other⟩, .atomic, false, false, 4, 4,
    b.y.elems false (fun l => .atom .decN32 (b.y.atomArgs .decN32 l).1 (b.y.atomArgs .decN32 l).2 none l), [], pb0⟩) = true := by decide +kernel
theorem wit_redCaddF32 : accesses .redCaddF32 0x1BF (fun b => ⟨⟨[0, 1], 10, .other⟩, .atomic, false, false, 8, 8,
    b.y.elems false (fun l => .atom .caddF32 (b.y.atomArgs .caddF32 l).1 (b.y.atomArgs .caddF32 l).2 none l), [], pb0⟩) = true := by decide +kernel

/-- The parameter block of a tile of 2 registers. -/
def tilePb : PB := ⟨4, BitVec.ofNat 32 (8 + 8 * 512 + 2 * 2 ^ 18), 0x80008, 0⟩

theorem wit_tiles : ([1, 2] : List (BitVec 12)).all (fun n =>
    ((labMem n).begun 0x190 (fd 8 4 6 1) tilePb).any (fun b => mayOk b ⟨⟨[0, 1], 1, .other⟩, .read, true, false, 4, 4,
      b.y.tileElems tilePb (fun k l => .load 4 false false ((fd 8 4 6 1).d.toNat + k) l), [], tilePb⟩) &&
    ((labMem n).begun 0x191 (fd 8 4 6 1) tilePb).any (fun b => mayOk b ⟨⟨[0, 1], 2, .other⟩, .write, false, false, 4, 4,
      b.y.tileElems tilePb (fun k l => .store (leBytes 4 (b.y.r.vr ((fd 8 4 6 1).d.toNat + k) l).toNat)), [], tilePb⟩)) = true := by decide +kernel

/-- A lane that stores, a place it does not store to, for each space of a target. -/
def laneAt (a : Nat) : LaneAcc := ⟨0, a, .store [1, 2]⟩
/-- A target in a space, of domain 0 and workgroup 0. -/
def targetOf (space : Nat) : Target := ⟨space, 0, 0, 0, 1, 0, none, .core 0, 0, 0, 0, 0, none, 0⟩

end Sys2Proof.Tests
end

