-- ==== Sys2Proof/Tests/WitnessEngine.lean ====
section
/-! SUPPORT. Witnesses for the statements about memory, WAITV, engines, gates, traps and system instructions. -/

namespace Sys2Proof.Tests
open Sys2Proof.Machine
set_option Elab.async false

/-! Memory. -/

/-- A stream for CTRL space. -/
def strm : Stream := ⟨0, 0, true, 0x20000, 4, false, 0, 0, false, false, 0, 1, 0, 0, 0, 0, 0, false, 0, 0, 0, .idle, false, 0, [], [], [], false, 0,
  false, 0, 0, 0, 0, 0, 0, 0, 0, 0, 0, 0, false, [], none⟩

/-- The lab with a writable page at GLOBAL 0x20000 (R302, R304). -/
def labWritable : State :=
  let s := (labMem 1).mapFrom 0x20000 (65536 * 9 + 15) 0 4 0 0x20000
  { s with stage2 := tset s.stage2 9 ⟨9, true, false, 0⟩ }

/-- A lane stores two bytes; a place that it leaves alone, in each space; a read in CTRL space. -/
theorem wit_MemoryChangesOnly :
    ([0, 1, 2, 3] : List Nat).all (fun k => !((labMem 1).storedAt (targetOf k) [laneAt 0x20010]).contains 0x20012) = true ∧
    (labMem 1).storedAt (targetOf 2) [laneAt 0x20010] = [0x20010, 0x20011] ∧ (labMem 1).storedAt (targetOf 1) [laneAt 16] = [16, 17] ∧
    labWritable.storedAt (targetOf 0) [laneAt 0x20010] = [0x90010, 0x90011] ∧
    tget ({ labMem 1 with streams := [(1, strm)] } : State).streams (targetOf 4).stream = some strm ∧
    (⟨0, 0, .load 8 false true 4 0⟩ : LaneAcc).kind = .read ∧ (labMem 1).pendingAt 0x20012 = false := by decide +kernel

theorem wit_AStoreIsReadBack : (targetOf 0).space = 0 ∧ (∀ i < 2, ((labMem 1).recall (targetOf 0).asid 0x20010).pendingAt (physOf 9 0x20010 + i) = false) ∧ (targetOf 1).space = 1 ∧ (tget (labMem 1).wgs (targetOf 1).wg).isSome = true ∧
    (targetOf 2).space = 2 := by decide +kernel

/-- The lanes of a load, a store, an ATOM and a RED at an address. -/
def fourLanes (a : Nat) : List LaneAcc :=
  [⟨0, a, .load 2 true false 4 0⟩, ⟨0, a, .store [1, 2]⟩, ⟨0, a, .atom .addN32 1 0 (some 4) 0⟩, ⟨0, a, .atom .addN32 1 0 none 0⟩]

theorem wit_LaneDone :
    (fourLanes 16).all (fun a => (tget (labMem 2).wgs (targetOf 1).wg).any (fun w => w.pinnedAt a.addr a.size)) = true ∧
    (fourLanes 0x20010).all (fun a => match labWritable.xlate (targetOf 0) a.addr a.kind with
      | (.ok fr _ _ _, s1) => !s1.poisoned (physOf fr a.addr) && (s1.gatherable (targetOf 0) a).isNone &&
        (List.range a.size).all (fun i => !s1.pendingAt (physOf fr a.addr + i))
      | _ => false) = true ∧
    (fourLanes 16).all (fun a => (labMem 3).linkOk (targetOf 2) a.addr a.size) = true := by decide +kernel

/-- The conditions of a WAITV that issues, decided. -/
def waitvOk (b : Begun) : Bool :=
  let h := b.t.ropeHandle b.y.r (b.y.f.a.toNat % 16)
  let size := if b.y.f.d.getLsbD 3 then 8 else 4
  let els := b.y.elems true (fun l => .load size false true 0 l)
  b.y.r.monitorOf b.y.unit == none && b.y.act != 0 && !b.t.fenced b.y.k b.y.r b.y.unit && decide (b.t.logUsed b.y.c b.y.r.quad < 256) &&
  !b.t.log.any (fun e => e.rope == b.y.k && e.unit == b.y.unit && e.pc == b.y.pc && e.isWaitv b.y.r) &&
  b.y.addrTrap b.t h ⟨[0, 1, 4], 1, .load⟩ true size size els == none && !b.t.behindLog b.y.k b.waitvTarget h els

theorem waitvOk_spec {b : Begun} (h : waitvOk b = true) : b.WaitvIssues := by
  unfold waitvOk at h
  simp only [Bool.and_eq_true, bne_iff_ne, decide_eq_true_eq, Bool.not_eq_true', beq_iff_eq] at h
  obtain ⟨⟨⟨⟨⟨⟨h1, h2⟩, h3⟩, h4⟩, h5⟩, h6⟩, h7⟩ := h
  exact ⟨h1, h2, h3, h4, h5, h6, h7⟩

/-- Whether a read by a monitor finds the comparison to hold. -/
def finds (b : Begun) (s1 : State) (t : Target) (m : Monitor) : Option Bool :=
  (s1.waitvReads t m).map (fun z => intCond (b.y.f.d.toNat % 8)
    (if b.y.f.d.getLsbD 4 then toSigned (8 * m.size) (leNat z.2.2) else (leNat z.2.2 : Int)) (if b.y.f.d.getLsbD 4 then toSigned (8 * m.size) m.cmp else (m.cmp : Int)))

/-- The lab with its rope's monitor on the word, woken, for a compare value that its registers no longer hold. -/
def labMon (n : BitVec 12) : State := (labMem n).onRope 1 (fun r => { r with
  monitors := [⟨9, 0, if n = 1 then 0 else 1, if n = 1 then 0x20000 else 0, 4, true, 0x07070707, if n = 1 then rwaEntry 0 0x20000 else rwaEntry 1 0⟩] })

/-- WAITV on a word of 0 in SCRATCH and of 0x07070707 in GLOBAL space, EQ and NE 0; woken, EQ and NE 0x07070707. -/
theorem wit_waitv :
    starts 0x161 (fdOff 0 4 6 0) (labMem 2) (fun b => b.y.act == 0 && (b.y.r.monitorOf b.y.unit).isNone) = true ∧
    ([(2, 0, true), (1, 1, true), (2, 1, false), (1, 0, false)] : List (BitVec 12 × BitVec 8 × Bool)).all (fun p =>
      starts 0x161 (fd p.2.1 4 6 0) (labMem p.1) (fun b => waitvOk b &&
        finds b { b.t with nextId := b.t.nextId + 1 } b.waitvTarget b.waitvTaken == some p.2.2)) = true ∧
    ([(1, 0, true), (2, 1, true), (2, 0, false), (1, 1, false)] : List (BitVec 12 × BitVec 8 × Bool)).all (fun p =>
      starts 0x161 (fd p.2.1 4 6 0) (labMon p.1) (fun b => (b.y.r.monitorOf b.y.unit).any (fun m =>
        finds b b.t (b.y.watched b.t m) m == some p.2.2))) = true := by
  decide +kernel

theorem wit_pref : starts 0x18D (fd 0 4 6 0) (labMem 1) (fun b => !b.t.fenced b.y.k b.y.r b.y.unit && !b.t.pendingAt 0x20000) = true := by decide +kernel

/-- PREF's scalar form, of a translated line; a lane whose checks fail. -/
theorem wit_prefLine :
    starts 0x18D (fd 1 4 6 1) (labMem 1) (fun b => b.y.act != 0 && (b.t.ropeHandle b.y.r 4).ent.policy != 2 &&
      (b.y.goal b.t (b.t.ropeHandle b.y.r 4)).core.isSome && (b.y.elems true (fun l => .load 1 false true 0 l)).length == 1 &&
      (b.y.elems true (fun l => .load 1 false true 0 l)).all (fun e =>
        (b.y.addrTrap b.t (b.t.ropeHandle b.y.r 4) ⟨[0], 1, .load⟩ true 1 1 [e]).isNone &&
        (match b.t.xlate (b.y.goal b.t (b.t.ropeHandle b.y.r 4)) ((b.t.ropeHandle b.y.r 4).addr e.off).toNat .read with
         | (.ok .., _) => true | _ => false))) = true ∧
    starts 0x18D (fd 1 4 6 1) (labMem 2) (fun b => (b.y.elems true (fun l => .load 1 false true 0 l)).all (fun e =>
      (b.y.addrTrap b.t (b.t.ropeHandle b.y.r 4) ⟨[0], 1, .load⟩ true 1 1 [e]).isSome)) = true := by decide +kernel

/-! Numbers. -/

/-- 1 and 4, 1/2 and 3/2 as F32 bits and as what they stand for; bounds of the binary exponent of 1 and its root and reciprocal. -/
theorem wit_numbers : fdecode .f32 0x3F800000 = .fin false 8388608 (-23) ∧ fdecode .f32 0xBF800000 = .fin true 8388608 (-23) ∧
    (8388608 : ℚ) * 2 ^ (-23 : Int) = (1 : Nat) ∧ (8388608 : ℚ) * 2 ^ (-23 : Int) = (2 : ℚ) ^ (0 : Int) ∧
    fdecode .f32 0x3FC00000 = .fin false 12582912 (-23) ∧ (12582912 : ℚ) * 2 ^ (-23 : Int) = (1 : Nat) + 1 / 2 ∧
    fdecode .f32 0x43000000 = .fin false 8388608 (-16) ∧ (128 : ℚ) ≤ (8388608 : ℚ) * 2 ^ (-16 : Int) ∧
    fdecode .f32 0x7FC00000 = .nan false (2 ^ 51) := by
  refine ⟨by decide, by decide, by norm_num, by norm_num, by decide, by norm_num, by decide, by norm_num, by decide⟩

/-- The magnitude 1 lies in its binade, as do its reciprocal, root and reciprocal root. -/
theorem wit_binades : (2 : ℝ) ^ (0 : Int) ≤ ((1 : Nat) : ℝ) * 2 ^ (0 : Int) ∧ ((1 : Nat) : ℝ) * 2 ^ (0 : Int) < (2 : ℝ) ^ ((0 : Int) + 1) ∧
    (2 : ℝ) ^ (0 : Int) ≤ 1 / (((8388608 : Nat) : ℝ) * 2 ^ (-23 : Int)) ∧ 1 / (((8388608 : Nat) : ℝ) * 2 ^ (-23 : Int)) < (2 : ℝ) ^ ((0 : Int) + 1) ∧
    (2 : ℝ) ^ (0 : Int) ≤ Real.sqrt (((8388608 : Nat) : ℝ) * 2 ^ (-23 : Int)) ∧ Real.sqrt (((8388608 : Nat) : ℝ) * 2 ^ (-23 : Int)) < (2 : ℝ) ^ ((0 : Int) + 1) ∧
    (2 : ℝ) ^ (0 : Int) ≤ 1 / Real.sqrt (((8388608 : Nat) : ℝ) * 2 ^ (-23 : Int)) ∧
    1 / Real.sqrt (((8388608 : Nat) : ℝ) * 2 ^ (-23 : Int)) < (2 : ℝ) ^ ((0 : Int) + 1) := by
  have h : (((8388608 : Nat) : ℝ) * 2 ^ (-23 : Int)) = 1 := by norm_num
  rw [h, Real.sqrt_one]
  norm_num

/-- Operands of MapRound: NaN, infinities, zeros, and products with a largest one. -/
theorem wit_mapRound : ([FVal.nan false 1] : List FVal).any fisNan = true ∧ FVal.inf false ∈ [FVal.inf false] ∧ FVal.inf true ∈ [FVal.inf true] ∧
    (∀ p ∈ [FVal.fin false 0 0], fisNan p = false ∧ fisInf p = false ∧ ratOf p = 0) ∧
    (∃ p ∈ [FVal.fin false 1 0, .fin true 1 (-1)], (2 : ℚ) ^ (0 : Int) ≤ |ratOf p|) ∧
    (∀ p ∈ [FVal.fin false 1 0, .fin true 1 (-1)], fisNan p = false ∧ fisInf p = false ∧ |ratOf p| < (2 : ℚ) ^ ((0 : Int) + 1)) := by
  refine ⟨by decide, by simp, by simp, by simp [fisNan, fisInf, ratOf], ⟨_, List.mem_cons_self, by simp [ratOf]⟩, ?_⟩
  simp [fisNan, fisInf, ratOf]
  norm_num [abs_of_neg]

/-- A map of the lab; data of integers and of floating values. -/
theorem wit_mapUse : starts 0x000 mapF lab (fun b => (b.y.mapUse b.t 0 0).1.state == .valid) = true ∧
    (∀ v ∈ [EV.i 3], ∃ z, v = .i z) ∧ (∀ v ∈ [EV.f (.fin false 1 0)], ∃ z, v = .f z) :=
  ⟨by decide +kernel, by simp, by simp⟩

/-- The operands of the float atomics: finite ones whose sum is 0 and is not, and a NaN. -/
theorem wit_cadd : fdecode .f32 ((0 : DWord).extractLsb' 0 32).toNat = .fin false 0 (-149) ∧
    fdecode .f32 ((0x3F8000003F800000 : DWord).extractLsb' 32 32).toNat = .fin false 8388608 (-23) ∧
    ([fdecode .f32 ((0x7FC00000 : DWord).extractLsb' 0 32).toNat] : List FVal).any fisNan = true := by decide

/-! The SFU and copy programs. -/

/-- The lab with SFU and copy shares, a copy program in its image, and a token. -/
def labEng (t : Token) : State :=
  let s := (labWith (fun r => { r with k := [(4, t)] }) id).setCore 0 (lab.core 0 |>.setDpe 3 0x420000)
  { s with images := [(7, ⟨0, [⟨1, 0x10000, 65536, []⟩, ⟨3, 0x30000, 65536, []⟩], [0x10000, 0x30000, 0x30008], false, false, []⟩)] }

theorem wit_sfq : ([0x1C0, 0x1C1, 0x1C2, 0x1C3, 0x1C4, 0x1C5, 0x1C6, 0x1C7, 0x1C8, 0x1C9] : List Nat).all (fun op =>
    starts op (fd 4 4 0 0) (labEng ⟨.free, 0, 0, [], []⟩) (fun b => b.mapped.isSome && b.y.core.sfuShare b.y.r.dslot != 0 &&
      (b.y.r.tok 4).state != .pending && b.t.sfu.isEmpty)) = true := by decide +kernel

theorem wit_sfqRd :
    starts 0x1CA (fd 8 4 0 0) (labEng ⟨.free, 0, 0, [], []⟩) (fun b => (b.y.r.tok 4).state == .free) = true ∧
    starts 0x1CA (fdOff 8 4 0 0) (labEng ⟨.ready, 0, 15, [], []⟩) (fun b => b.y.act == 0 && (b.y.r.tok 4).state == .ready &&
      (b.y.r.tok 4).did == b.y.r.did && b.y.fpxen == 0) = true ∧
    starts 0x1CA (fd 8 4 0 0) (labEng ⟨.ready, 0, 15, [(0, 1)], [(0, 1)]⟩) (fun b => b.y.act != 0 && (b.y.r.tok 4).state == .ready &&
      (b.y.r.tok 4).did == b.y.r.did && b.y.fpxen == 0) = true ∧
    starts 0x1CB (fd 0 0 0x10 0) (labEng ⟨.ready, 0, 15, [], []⟩) (fun b => (b.y.r.tok 4).state == .ready && (b.y.r.tok 4).did == b.y.r.did &&
      b.y.r.outst.isEmpty) = true := by decide +kernel

/-- CPRUN to the program 0x20000 bytes on; CPCMD; CPQ of a semaphore and of the count. -/
theorem wit_copyCommands :
    starts 0x1D0 (fd 4 0 0x40 0) (labEng ⟨.free, 0, 0, [], []⟩) (fun b => b.y.act != 0 && b.y.core.copyShare b.y.r.dslot != 0 &&
      (let dest := b.y.pc + BitVec.ofInt 64 (8 * ((0 : BitVec 8) ++ ((0x40 : BitVec 8) ++ (0 : BitVec 8))).toInt)
       dest.toNat % 8 == 0 && b.t.inCopy b.y.r.did b.y.pc.toNat dest.toNat) && !b.y.copyWaits b.t) = true ∧
    ((labEng ⟨.free, 0, 0, [], []⟩).begun 0x1D1 (fdImm 1 2 4 6 9) ⟨0, 0, 64, 5⟩).any (fun b => b.y.act != 0 &&
      b.y.core.copyShare b.y.r.dslot != 0 && !b.y.copyWaits b.t) = true ∧
    starts 0x1D2 (fd 8 0 7 0) lab (fun b => b.y.act != 0 && b.y.r.frame.isNone) = true ∧
    starts 0x1D2 (fd 8 0 8 0) lab (fun b => b.y.act != 0) = true ∧
    starts 0x1D0 (fd 4 0 0x40 0) ((labEng ⟨.free, 0, 0, [], []⟩).onRope 1 (fun r => { r with stores := [⟨0, 100, true⟩], fence := ⟨0, 1, [], []⟩ })) (fun b =>
      b.y.act != 0 && b.y.core.copyShare b.y.r.dslot != 0 && b.t.fenced b.y.k b.y.r b.y.unit &&
      (let dest := b.y.pc + BitVec.ofInt 64 (8 * ((0 : BitVec 8) ++ ((0x40 : BitVec 8) ++ (0 : BitVec 8))).toInt)
       dest.toNat % 8 == 0 && b.t.inCopy b.y.r.did b.y.pc.toNat dest.toNat)) = true := by decide +kernel

/-! Special registers, traps, system instructions. -/

def trapRec (action : BitVec 2) : TrapRec := ⟨4, 1, false, false, false, action, 15, 0x10000, 0x10000, 0, 0, 0, 0, [1, 2, 3, 4]⟩
/-- The lab in its handler. -/
def labTrap (action : BitVec 2) : State := labWith (fun r => { r with trap := some ⟨trapRec action, 0, .task, none, 0x10008, none, none, none⟩, priv := .handler }) id

theorem wit_special :
    ([(0, 0), (6, 1), (4, 2)] : List (BitVec 8 × BitVec 8)).all (fun p => starts 0x1DA (fd 8 p.1 0 p.2) lab (fun b => b.y.act != 0)) = true ∧
    ([0x1DC, 0x1DD, 0x1DB] : List Nat).all (fun op => starts op (fd 0 0 0 0) (labTrap 0) (fun b => b.y.r.trap.isSome && (tget b.t.ropes b.y.k).isSome) &&
      starts op (fd 0 0 0 0) lab (fun b => b.y.r.trap.isNone && (tget b.t.ropes b.y.k).isSome)) = true := by decide +kernel

theorem wit_system :
    starts 0x1E0 (fdImm 8 0 0 0 0x105) lab (fun b => b.y.act != 0) = true ∧
    starts 0x1E1 (fdImm 0 8 0 0 0x105) lab (fun b => b.y.act != 0 && (b.t.syswrRefusal b.y.c 5 (b.y.r.spair 8)).isNone) = true ∧
    ([0, 1, 6] : List (BitVec 8)).all (fun d => starts 0x1E2 (fd d 4 0 0) lab (fun _ => true)) = true ∧
    starts 0x1E3 (fd 0 4 0 0) lab (fun b => !b.y.w.ropes.isEmpty && b.y.w.ropes.all (fun k => (tget b.t.ropes k).isSome)) = true := by decide +kernel

/-- Instructions whose guard no lane meets. -/
theorem wit_emptyActive : ([0x100, 0x101, 0x102, 0x1D0, 0x1D2, 0x1DA, 0x1E0, 0x1E1, 0x01F, 0x027, 0x158, 0x159, 0x15A, 0x140, 0x141, 0x142, 0x143,
    0x144, 0x184, 0x18A, 0x198, 0x1B0, 0x000, 0x028, 0x083] : List Nat).all (fun op =>
      starts op (fdOff 0 4 0 0) lab (fun b => b.y.act == 0)) = true := by decide +kernel

/-- The conditions under which an instruction is barred by its level, at each level below. -/
def barredAt (op : Nat) (p : Priv) (h : Priv → Bool) : Bool :=
  ((labWith (fun r => { r with priv := p }) id).issuing op (fd 0 0 0 0)).any (fun x => x.proFault.isNone && h x.r.priv &&
    (metaOf op).any (fun m => regsOk op m (fd 0 0 0 0) pb0 x.r.regs))

theorem wit_barred :
    ([0x1E0, 0x1E1, 0x1E2, 0x1E3] : List Nat).all (fun op => barredAt op .task (· != .system) && barredAt op .handler (· != .system)) = true ∧
    ([0x1DB, 0x1DC, 0x1DD] : List Nat).all (fun op => barredAt op .task (· == .task)) = true := by decide +kernel

/-- A vector register at `.regs` itself: as the destination, and as a source. -/
theorem wit_barredRegs : ([0x000, 0x083, 0x184, 0x198] : List Nat).all (fun op => ([fd 16 4 6 0, fd 8 4 16 0] : List Fields).all (fun f =>
    ((labWith (fun r => { r with regs := 16 }) id).issuing op f).any (fun x => x.proFault.isNone && (metaOf op).any (fun m =>
      (regReads op m f pb0 ++ regWrites op m f pb0).any (fun q => match q with | .vec n => decide (x.r.regs ≤ n) | _ => false))))) = true := by
  decide +kernel

/-- A result in flight for v4, with checking on and off. -/
def labFlight (set : DWord) : State := withSet set (labWith (fun r => { r with inflight := [⟨9, 1, [.vec 4 0 5], 1⟩] }) id)
/-- An outstanding load of v4 that awaits translation, with checking on. -/
def labLoad : State := withSet 1 (labWith (fun r => { r with outst := [⟨9, 5, false, none, [], [.vec 4 0 0]⟩] }) id)
/-- A result in flight for s4, of a set of strands, with checking on. -/
def labSca (st : BitVec 8) : State := withSet 1 (labWith (fun r => { r with inflight := [⟨9, st, [.scalar 4 5], 1⟩] }) id)
theorem wit_scoreboard :
    ((labFlight 1).issuing 0x000 regF).any (fun x => x.proFault.isNone && (metaOf 0x000).any (fun m => regsOk 0x000 m regF pb0 x.r.regs &&
      (match x.hazard (x.readsOf 0x000 m regF pb0) (regWrites 0x000 m regF pb0) with | .check _ => true | _ => false))) = true ∧
    ((labFlight 1).issuing 0x000 regF).any (fun x => x.chksb && x.r.inflight.any (fun p => p.writes.any (fun w => w.hits (.vec 4)) &&
      p.strands &&& x.r.unitStrands x.unit != 0)) = true ∧
    (labLoad.issuing 0x000 regF).any (fun x => x.chksb && x.r.inflight.isEmpty && x.r.outst.any (fun o =>
      (o.writes ++ o.waits).any (fun w => w.hits (.vec 4)))) = true ∧
    ((labFlight 0).issuing 0x000 regF).any (fun x => !x.chksb) = true ∧
    ((labSca 2).issuing 0x000 regF).any (fun x => x.r.inflight.any (fun p => p.strands &&& x.r.unitStrands x.unit == 0 &&
      p.writes.any (fun w => w.hits (.sca 4)))) = true ∧
    ((labSca 1).issuing 0x000 regF).any (fun x => x.chksb && x.r.inflight.all (fun p => p.strands &&& x.r.unitStrands x.unit != 0 &&
      p.writes.any (fun w => w.hits (.sca 4)))) = true := by decide +kernel

/-- The lab with a handler at a start. -/
def labHandler : State := labWith (fun r => { r with trapH := 0x10000 }) id
theorem wit_takeTrap : (tget labHandler.ropes 1).any (fun r => r.trap.isNone && r.trapH != 0 &&
    (labHandler.handleFault r r.trapH r.codeUnit).isNone && (labHandler.startFault r r.trapH).isNone && (tget labHandler.wgs r.wg).isSome) = true := by
  decide +kernel

/-- In a handler with each action; GOTO goes to a start, and to none. -/
theorem wit_returnTrap : ([0, 1, 2, 3] : List (BitVec 2)).all (fun a => (tget (labTrap a).ropes 1).any (fun r => r.trap.any (fun c =>
    c.access.isNone && !c.trap.async && c.trap.action == a && r.frame.isNone && (tget (labTrap a).wgs r.wg).any (fun w => w.pro.isNone) &&
    (a == 1 || a == 3 || !(labTrap a).returnFails 1 0 r (if a = 0 then c.trap.fpc else c.trap.rpc) (a == 2)) &&
    (labTrap a).returnFails 1 0 r 8 true))) = true ∧
  (tget (labTrap 1).ropes 1).any (fun r => r.trap.any (fun _ => !(labTrap 1).returnFails 1 0 r 0x10000 false)) = true := by decide +kernel

end Sys2Proof.Tests
end

