-- ==== Sys2Proof/Tests/Slice0.lean ====
section
/-! SUPPORT. Tests: ill-formed terms, one word for each instruction read from the manual's encoding tables, and single steps with
results worked out from the manual. -/

namespace Sys2Proof.Tests
open Sys2Proof.Machine
set_option Elab.async false

/-- Fields of a native instruction without a CW: TC 3, PG 7. -/
def rf (d a b c : BitVec 8) : Fields := ⟨3, 0, d, a, b, c, 7, false, 0, false, 0, false, false, .native none⟩
/-- The same with a CW: IMM32, MODA, MODB, RM, SAT, MZ. -/
def rfCw (d a b c : BitVec 8) (imm : Word) (ma mb : BitVec 8 := 0) (rm : BitVec 2 := 0) (sat mz : Bool := false) : Fields :=
  { rf d a b c with enc := .native (some ⟨imm, ma, mb, 0, rm, sat, mz⟩) }
/-- Words decode to an instruction. -/
noncomputable def reads (ws : List DWord) (i : Instr) : Bool := match decodeWords ws with | .ok j => decide (j = i) | .error _ => false

/-! Decoding. -/

/-- Words of R60 with the opcodes of R80 to R87. -/
theorem test_decode_integer_0 : ([
    (0x0007000604080600, .iaddS32 (rf 8 4 6 0)),
    (0x0007000604080601, .iaddN32 (rf 8 4 6 0)),
    (0x0007000604080602, .isubS32 (rf 8 4 6 0)),
    (0x0007000604080603, .isubN32 (rf 8 4 6 0)),
    (0x0007000604080604, .iaddS64 (rf 8 4 6 0)),
    (0x0007000604080605, .iaddN64 (rf 8 4 6 0)),
    (0x0007000604080606, .isubS64 (rf 8 4 6 0)),
    (0x0007000604080607, .isubN64 (rf 8 4 6 0)),
    (0x0007000604080608, .iaddS16 (rf 8 4 6 0)),
    (0x0007000604080609, .iaddN16 (rf 8 4 6 0)),
    (0x000700060408060A, .isubS16 (rf 8 4 6 0)),
    (0x000700060408060B, .isubN16 (rf 8 4 6 0)),
    (0x000700060408060C, .iaddS8 (rf 8 4 6 0)),
    (0x000700060408060D, .iaddN8 (rf 8 4 6 0)),
    (0x000700060408060E, .isubS8 (rf 8 4 6 0)),
    (0x000700060408060F, .isubN8 (rf 8 4 6 0)),
    (0x0007000604080610, .iminS32 (rf 8 4 6 0)),
    (0x0007000604080611, .iminN32 (rf 8 4 6 0)),
    (0x0007000604080612, .imaxS32 (rf 8 4 6 0)),
    (0x0007000604080613, .imaxN32 (rf 8 4 6 0))] : List (DWord × Instr)).all (fun p => reads [p.1] p.2) = true := by decide +kernel
/-- Words of R60 with the opcodes of R80 to R87. -/
theorem test_decode_integer_1 : ([
    (0x0007000604090614, .icmpS32 (rf 9 4 6 0)),
    (0x0007000604090615, .icmpN32 (rf 9 4 6 0)),
    (0x0007000604090616, .icmpS64 (rf 9 4 6 0)),
    (0x0007000604090617, .icmpN64 (rf 9 4 6 0)),
    (0x0007000604080618, .andB (rf 8 4 6 0)),
    (0x0007000604080619, .orB (rf 8 4 6 0)),
    (0x000700060408061A, .xorB (rf 8 4 6 0)),
    (0x000700060408061B, .andnB (rf 8 4 6 0)),
    (0x000700060008061C, .notB (rf 8 0 6 0)),
    (0x000700060408061D, .bitmix (rf 8 4 6 0)),
    (0x000720010308061E, .plop (rf 8 3 1 32)),
    (0x000700000508061F, .prds (rf 8 5 0 0)),
    (0x0007000604080620, .shlN32 (rf 8 4 6 0)),
    (0x0007000604080621, .shrN32 (rf 8 4 6 0)),
    (0x0007000604080622, .shrS32 (rf 8 4 6 0)),
    (0x0007000604080623, .rolN32 (rf 8 4 6 0)),
    (0x0007000604080624, .shlN64 (rf 8 4 6 0)),
    (0x0007000604080625, .shrN64 (rf 8 4 6 0)),
    (0x0007000604080626, .shrS64 (rf 8 4 6 0)),
    (0x0007000004050627, .pwrs (rf 5 4 0 0))] : List (DWord × Instr)).all (fun p => reads [p.1] p.2) = true := by decide +kernel
/-- Words of R60 with the opcodes of R80 to R87. -/
theorem test_decode_integer_2 : ([
    (0x0007000600080628, .mov (rf 8 0 6 0)),
    (0x0007000600080629, .mov64 (rf 8 0 6 0)),
    (0x000700060408062A, .sel (rf 8 4 6 0)),
    (0x000700060408062B, .sel64 (rf 8 4 6 0)),
    (0x000700060408062C, .leaN32 (rf 8 4 6 0)),
    (0x000700060408062D, .leaN64 (rf 8 4 6 0))] : List (DWord × Instr)).all (fun p => reads [p.1] p.2) = true := by decide +kernel
/-- Words of R60 with the opcodes of R80 to R87. -/
theorem test_decode_multiply_0 : ([
    (0x0007000604080640, .imulS32 (rf 8 4 6 0)),
    (0x0007000604080641, .imulN32 (rf 8 4 6 0)),
    (0x0007000604080642, .imulhS32 (rf 8 4 6 0)),
    (0x0007000604080643, .imulhN32 (rf 8 4 6 0)),
    (0x0007000604080644, .imulS16 (rf 8 4 6 0)),
    (0x0007000604080645, .imulN16 (rf 8 4 6 0)),
    (0x0007000604080646, .imulS8 (rf 8 4 6 0)),
    (0x0007000604080647, .imulN8 (rf 8 4 6 0)),
    (0x0007000604080648, .imadS32 (rf 8 4 6 0)),
    (0x0007000604080649, .imadN32 (rf 8 4 6 0)),
    (0x000700060408064A, .imadS16 (rf 8 4 6 0)),
    (0x000700060408064B, .imadN16 (rf 8 4 6 0)),
    (0x000700060408064C, .idpS8 (rf 8 4 6 0)),
    (0x000700060408064D, .idpN8 (rf 8 4 6 0)),
    (0x000700060408064E, .idpN4 (rf 8 4 6 0)),
    (0x0007000604080650, .imulS64 (rf 8 4 6 0)),
    (0x0007000604080651, .imulN64 (rf 8 4 6 0)),
    (0x0007000604080652, .imulhS64 (rf 8 4 6 0)),
    (0x0007000604080653, .imulhN64 (rf 8 4 6 0)),
    (0x0007000604080654, .idivS32 (rf 8 4 6 0))] : List (DWord × Instr)).all (fun p => reads [p.1] p.2) = true := by decide +kernel
/-- Words of R60 with the opcodes of R80 to R87. -/
theorem test_decode_multiply_1 : ([
    (0x0007000604080655, .idivN32 (rf 8 4 6 0)),
    (0x0007000604080656, .iremS32 (rf 8 4 6 0)),
    (0x0007000604080657, .iremN32 (rf 8 4 6 0)),
    (0x0007000604080658, .idivS64 (rf 8 4 6 0)),
    (0x0007000604080659, .idivN64 (rf 8 4 6 0)),
    (0x000700060408065A, .iremS64 (rf 8 4 6 0)),
    (0x000700060408065B, .iremN64 (rf 8 4 6 0)),
    (0x0007000600080660, .popcN32 (rf 8 0 6 0)),
    (0x0007000600080661, .clzN32 (rf 8 0 6 0)),
    (0x0007000600080662, .ctzN32 (rf 8 0 6 0)),
    (0x0007000600080663, .brevN32 (rf 8 0 6 0)),
    (0x0007000604080664, .bfeS32 (rf 8 4 6 0)),
    (0x0007000604080665, .bfeN32 (rf 8 4 6 0)),
    (0x0007000604080666, .bfiN32 (rf 8 4 6 0))] : List (DWord × Instr)).all (fun p => reads [p.1] p.2) = true := by decide +kernel
/-- Words of R60 with the opcodes of R80 to R87. -/
theorem test_decode_float_0 : ([
    (0x0007000604080680, .faddF32 (rf 8 4 6 0)),
    (0x0007000604080681, .fsubF32 (rf 8 4 6 0)),
    (0x0007000604080682, .fmulF32 (rf 8 4 6 0)),
    (0x0007000604080683, .ffmaF32 (rf 8 4 6 0)),
    (0x0007000604080684, .fminF32 (rf 8 4 6 0)),
    (0x0007000604080685, .fmaxF32 (rf 8 4 6 0)),
    (0x0007000604090686, .fcmpF32 (rf 9 4 6 0)),
    (0x0007000600080687, .fclassF32 (rf 8 0 6 0)),
    (0x0007000604080688, .faddF16 (rf 8 4 6 0)),
    (0x0007000604080689, .fsubF16 (rf 8 4 6 0)),
    (0x000700060408068A, .fmulF16 (rf 8 4 6 0)),
    (0x000700060408068B, .ffmaF16 (rf 8 4 6 0)),
    (0x000700060408068C, .fminF16 (rf 8 4 6 0)),
    (0x000700060408068D, .fmaxF16 (rf 8 4 6 0)),
    (0x000700060008068F, .fclassF16 (rf 8 0 6 0)),
    (0x0007000604080690, .faddBf16 (rf 8 4 6 0)),
    (0x0007000604080691, .fsubBf16 (rf 8 4 6 0)),
    (0x0007000604080692, .fmulBf16 (rf 8 4 6 0)),
    (0x0007000604080693, .ffmaBf16 (rf 8 4 6 0)),
    (0x0007000604080694, .fminBf16 (rf 8 4 6 0))] : List (DWord × Instr)).all (fun p => reads [p.1] p.2) = true := by decide +kernel
/-- Words of R60 with the opcodes of R80 to R87. -/
theorem test_decode_float_1 : ([
    (0x0007000604080695, .fmaxBf16 (rf 8 4 6 0)),
    (0x0007000600080697, .fclassBf16 (rf 8 0 6 0)),
    (0x0007000604080698, .faddF64 (rf 8 4 6 0)),
    (0x0007000604080699, .fsubF64 (rf 8 4 6 0)),
    (0x000700060408069A, .fmulF64 (rf 8 4 6 0)),
    (0x000700060408069B, .ffmaF64 (rf 8 4 6 0)),
    (0x000700060408069C, .fminF64 (rf 8 4 6 0)),
    (0x000700060408069D, .fmaxF64 (rf 8 4 6 0)),
    (0x000700060409069E, .fcmpF64 (rf 9 4 6 0)),
    (0x000700060008069F, .fclassF64 (rf 8 0 6 0)),
    (0x01370000040806A0, .faccN4 { rf 8 4 0 0 with ma := 3, mae := true }),
    (0x01370000040806A1, .faccS8 { rf 8 4 0 0 with ma := 3, mae := true }),
    (0x01370000040806A2, .faccN8 { rf 8 4 0 0 with ma := 3, mae := true }),
    (0x01370000040806A3, .faccE2m1 { rf 8 4 0 0 with ma := 3, mae := true }),
    (0x01370000040806A4, .faccE4m3 { rf 8 4 0 0 with ma := 3, mae := true }),
    (0x01370000040806A5, .faccE5m2 { rf 8 4 0 0 with ma := 3, mae := true })] : List (DWord × Instr)).all (fun p => reads [p.1] p.2) = true := by decide +kernel
/-- Words of R60 with the opcodes of R80 to R87. -/
theorem test_decode_convert_0 : ([
    (0x00070006000806C0, .cvtF32F16 (rf 8 0 6 0)),
    (0x00070006000806C1, .cvtF32Bf16 (rf 8 0 6 0)),
    (0x00070006000806C2, .cvtF16F32 (rf 8 0 6 0)),
    (0x00070006000806C3, .cvtBf16F32 (rf 8 0 6 0)),
    (0x00070006000806C4, .cvtF64F32 (rf 8 0 6 0)),
    (0x00070006000806C5, .cvtF32F64 (rf 8 0 6 0)),
    (0x00070006000806C6, .cvtF32E4m3 (rf 8 0 6 0)),
    (0x00070006000806C7, .cvtF32E5m2 (rf 8 0 6 0)),
    (0x00070006000806C8, .cvtE4m3F32 (rf 8 0 6 0)),
    (0x00070006000806C9, .cvtE5m2F32 (rf 8 0 6 0)),
    (0x00070006000806CA, .cvtF32E2m1 (rf 8 0 6 0)),
    (0x00070006000806CB, .cvtE2m1F32 (rf 8 0 6 0)),
    (0x00070006000806CC, .cvtF32S32 (rf 8 0 6 0)),
    (0x00070006000806CD, .cvtF32N32 (rf 8 0 6 0)),
    (0x00070006000806CE, .cvtS32F32 (rf 8 0 6 0)),
    (0x00070006000806CF, .cvtN32F32 (rf 8 0 6 0)),
    (0x00070006000806D0, .cvtF64S64 (rf 8 0 6 0)),
    (0x00070006000806D1, .cvtF64N64 (rf 8 0 6 0)),
    (0x00070006000806D2, .cvtS64F64 (rf 8 0 6 0)),
    (0x00070006000806D3, .cvtN64F64 (rf 8 0 6 0))] : List (DWord × Instr)).all (fun p => reads [p.1] p.2) = true := by decide +kernel
/-- Words of R60 with the opcodes of R80 to R87. -/
theorem test_decode_convert_1 : ([
    (0x00070006000806D4, .cvtF64S32 (rf 8 0 6 0)),
    (0x00070006000806D5, .cvtS32F64 (rf 8 0 6 0)),
    (0x00070006000806D6, .frndF32 (rf 8 0 6 0)),
    (0x00070006000806D7, .frndF64 (rf 8 0 6 0)),
    (0x00070006040806D8, .packF16 (rf 8 4 6 0)),
    (0x00070006040806D9, .packBf16 (rf 8 4 6 0)),
    (0x00070006040806DA, .packE4m3 (rf 8 4 6 0)),
    (0x00070006040806DB, .packE5m2 (rf 8 4 6 0)),
    (0x00070006040806DC, .packE2m1 (rf 8 4 6 0)),
    (0x00070006040806DD, .packS16 (rf 8 4 6 0)),
    (0x00070006040806DE, .packN16 (rf 8 4 6 0)),
    (0x00070006040806DF, .packS8 (rf 8 4 6 0)),
    (0x00070006040806E0, .packN8 (rf 8 4 6 0)),
    (0x00070006040806E1, .packN4 (rf 8 4 6 0))] : List (DWord × Instr)).all (fun p => reads [p.1] p.2) = true := by decide +kernel
/-- Words of R60 with the opcodes of R80 to R87. -/
theorem test_decode_maps_lanes : ([
    (0x0007000604080700, .mapld (rf 8 4 6 0)),
    (0x0007000000080701, .mapclr (rf 8 0 0 0)),
    (0x0007010004080702, .mapq (rf 8 4 0 1)),
    (0x0007000604080708, .shfl (rf 8 4 6 0)),
    (0x0007000604080709, .bcast (rf 8 4 6 0)),
    (0x000700060408070A, .rdlane (rf 8 4 6 0)),
    (0x000700060408070B, .wrlane (rf 8 4 6 0)),
    (0x000700060408070C, .matchN32 (rf 8 4 6 0)),
    (0x000700060408070D, .matchN64 (rf 8 4 6 0))] : List (DWord × Instr)).all (fun p => reads [p.1] p.2) = true := by decide +kernel
/-- Words of R60 with the opcodes of R80 to R87. -/
theorem test_decode_control_0 : ([
    (0x0007FF0604000740, .bra (rf 0 4 6 255)),
    (0x0007000604080741, .call (rf 8 4 6 0)),
    (0x0007010004000742, .jmpi (rf 0 4 0 1)),
    (0x0007010004080743, .calli (rf 8 4 0 1)),
    (0x0007000004000744, .ret (rf 0 4 0 0)),
    (0x0007000000000748, .splice (rf 0 0 0 0)),
    (0x0007000000000749, .spliceC (rf 0 0 0 0)),
    (0x000700000000074A, .yield (rf 0 0 0 0)),
    (0x000700000000074B, .nop (rf 0 0 0 0)),
    (0x000700000000074C, .exit (rf 0 0 0 0)),
    (0x0007000600000750, .barSync (rf 0 0 6 0)),
    (0x0007000600000751, .barArr (rf 0 0 6 0)),
    (0x0007000600000752, .barWait (rf 0 0 6 0)),
    (0x0007200600000753, .barSet (rf 0 0 6 32)),
    (0x0007000001020758, .voteAny (rf 2 1 0 0)),
    (0x0007000001020759, .voteAll (rf 2 1 0 0)),
    (0x000700000408075A, .voteBal (rf 8 4 0 0)),
    (0x00073D3E3F000760, .waitc (rf 0 63 62 61)),
    (0x00070A0604840761, .waitv (rf 132 4 6 10)),
    (0x0007000400000762, .fenceAcq (rf 0 0 4 0))] : List (DWord × Instr)).all (fun p => reads [p.1] p.2) = true := by decide +kernel
/-- Words of R60 with the opcodes of R80 to R87. -/
theorem test_decode_control_1 : ([
    (0x0007000400000763, .fenceRel (rf 0 0 4 0)),
    (0x0007000400000764, .fenceAr (rf 0 0 4 0))] : List (DWord × Instr)).all (fun p => reads [p.1] p.2) = true := by decide +kernel
/-- Words of R60 with the opcodes of R80 to R87. -/
theorem test_decode_memory : ([
    (0x0007000604080780, .ldN8 (rf 8 4 6 0)),
    (0x0007000604080781, .ldS8 (rf 8 4 6 0)),
    (0x0007000604080782, .ldN16 (rf 8 4 6 0)),
    (0x0007000604080783, .ldS16 (rf 8 4 6 0)),
    (0x0007000604080784, .ldN32 (rf 8 4 6 0)),
    (0x0007000604080785, .ldN64 (rf 8 4 6 0)),
    (0x0007000604080786, .ldqN32 (rf 8 4 6 0)),
    (0x0007000604080788, .stN8 (rf 8 4 6 0)),
    (0x0007000604080789, .stN16 (rf 8 4 6 0)),
    (0x000700060408078A, .stN32 (rf 8 4 6 0)),
    (0x000700060408078B, .stN64 (rf 8 4 6 0)),
    (0x000700060408078C, .stqN32 (rf 8 4 6 0)),
    (0x000700060401078D, .pref (rf 1 4 6 0))] : List (DWord × Instr)).all (fun p => reads [p.1] p.2) = true := by decide +kernel
/-- Words of R60 with the opcodes of R80 to R87. -/
theorem test_decode_atomics : ([
    (0x00070C0604080798, .atomAddN32 (rf 8 4 6 12)),
    (0x00070C0604080799, .atomAddN64 (rf 8 4 6 12)),
    (0x00070C060408079A, .atomAddF32 (rf 8 4 6 12)),
    (0x00070C060408079B, .atomAdd2Bf16 (rf 8 4 6 12)),
    (0x00070C060408079C, .atomMinS32 (rf 8 4 6 12)),
    (0x00070C060408079D, .atomMinN32 (rf 8 4 6 12)),
    (0x00070C060408079E, .atomMinF32 (rf 8 4 6 12)),
    (0x00070C060408079F, .atomMaxS32 (rf 8 4 6 12)),
    (0x00070C06040807A0, .atomMaxN32 (rf 8 4 6 12)),
    (0x00070C06040807A1, .atomMaxF32 (rf 8 4 6 12)),
    (0x00070C06040807A2, .atomAndN32 (rf 8 4 6 12)),
    (0x00070C06040807A3, .atomOrN32 (rf 8 4 6 12)),
    (0x00070C06040807A4, .atomXorN32 (rf 8 4 6 12)),
    (0x00070C06040807A5, .atomIncN32 (rf 8 4 6 12)),
    (0x00070C06040807A6, .atomDecN32 (rf 8 4 6 12)),
    (0x00070C06040807A7, .atomCaddF32 (rf 8 4 6 12)),
    (0x00070C06040807A8, .atomXchgN32 (rf 8 4 6 12)),
    (0x00070C06040807A9, .atomXchgN64 (rf 8 4 6 12)),
    (0x00070C06040807AA, .atomCasN32 (rf 8 4 6 12)),
    (0x00070C06040807AB, .atomCasN64 (rf 8 4 6 12))] : List (DWord × Instr)).all (fun p => reads [p.1] p.2) = true := by decide +kernel
/-- Words of R60 with the opcodes of R80 to R87. -/
theorem test_decode_reductions : ([
    (0x00070A06040007B0, .redAddN32 (rf 0 4 6 10)),
    (0x00070A06040007B1, .redAddN64 (rf 0 4 6 10)),
    (0x00070A06040007B2, .redAddF32 (rf 0 4 6 10)),
    (0x00070A06040007B3, .redAdd2Bf16 (rf 0 4 6 10)),
    (0x00070A06040007B4, .redMinS32 (rf 0 4 6 10)),
    (0x00070A06040007B5, .redMinN32 (rf 0 4 6 10)),
    (0x00070A06040007B6, .redMinF32 (rf 0 4 6 10)),
    (0x00070A06040007B7, .redMaxS32 (rf 0 4 6 10)),
    (0x00070A06040007B8, .redMaxN32 (rf 0 4 6 10)),
    (0x00070A06040007B9, .redMaxF32 (rf 0 4 6 10)),
    (0x00070A06040007BA, .redAndN32 (rf 0 4 6 10)),
    (0x00070A06040007BB, .redOrN32 (rf 0 4 6 10)),
    (0x00070A06040007BC, .redXorN32 (rf 0 4 6 10)),
    (0x00070A06040007BD, .redIncN32 (rf 0 4 6 10)),
    (0x00070A06040007BE, .redDecN32 (rf 0 4 6 10)),
    (0x00070A06040007BF, .redCaddF32 (rf 0 4 6 10))] : List (DWord × Instr)).all (fun p => reads [p.1] p.2) = true := by decide +kernel
/-- Words of R60 with the opcodes of R80 to R87. -/
theorem test_decode_engines : ([
    (0x00070000040807C0, .sfqExp2 (rf 8 4 0 0)),
    (0x00070000040807C1, .sfqLog2 (rf 8 4 0 0)),
    (0x00070000040807C2, .sfqRcp (rf 8 4 0 0)),
    (0x00070000040807C3, .sfqRsq (rf 8 4 0 0)),
    (0x00070000040807C4, .sfqSqrt (rf 8 4 0 0)),
    (0x00070000040807C5, .sfqSin (rf 8 4 0 0)),
    (0x00070000040807C6, .sfqCos (rf 8 4 0 0)),
    (0x00070000040807C7, .sfqTanh (rf 8 4 0 0)),
    (0x00070000040807C8, .sfqSigm (rf 8 4 0 0)),
    (0x00070000040807C9, .sfqErf (rf 8 4 0 0)),
    (0x00070000040807CA, .sfqRd (rf 8 4 0 0)),
    (0x00070006000007CB, .waitk (rf 0 0 6 0)),
    (0x0007FF06040807D0, .cprun (rf 8 4 6 255))] : List (DWord × Instr)).all (fun p => reads [p.1] p.2) = true := by decide +kernel
/-- Words of R60 with the opcodes of R80 to R87. -/
theorem test_decode_system : ([
    (0x00070006000807D2, .cpq (rf 8 0 6 0)),
    (0x00070006040007D8, .gcall (rf 0 4 6 0)),
    (0x00070000000007D9, .gret (rf 0 0 0 0)),
    (0x00070200020807DA, .sread (rf 8 2 0 2)),
    (0x00070000000007DB, .tret (rf 0 0 0 0)),
    (0x0007000D000807DC, .trecRd (rf 8 0 13 0)),
    (0x00070005040007DD, .trecWr (rf 0 4 5 0))] : List (DWord × Instr)).all (fun p => reads [p.1] p.2) = true := by decide +kernel

/-- Words that the manual prints with their fields (spec/05, spec/17 to spec/21). -/
theorem test_decode_printed_0 : ([
    ([0x2007000100020428], .mov ⟨2, 0, 2, 0, 1, 0, 7, false, 0, false, 0, true, false, .native none⟩),
    ([0x000700040405050C], .matchN32 ⟨2, 0, 5, 4, 4, 0, 7, false, 0, false, 0, false, false, .native none⟩),
    ([0x0007000404051D0C], .matchN32 ⟨2, 3, 5, 4, 4, 0, 7, false, 0, false, 0, false, false, .native none⟩),
    ([0x00072001033A001E], .plop ⟨0, 0, 58, 3, 1, 32, 7, false, 0, false, 0, false, false, .native none⟩),
    ([0x00020907010001B0], .redAddN32 ⟨0, 0, 0, 1, 7, 9, 2, false, 0, false, 0, false, false, .native none⟩),
    ([0x0007001806010015], .icmpN32 ⟨0, 0, 1, 6, 24, 0, 7, false, 0, false, 0, false, false, .native none⟩),
    ([0x0007000100000150], .barSync ⟨0, 0, 0, 0, 1, 0, 7, false, 0, false, 0, false, false, .native none⟩),
    ([0x00020914010081B0, 0x0000000000000004], .redAddN32 ⟨0, 0, 0, 1, 20, 9, 2, false, 0, false, 0, false, false, .native (some ⟨4, 0, 0, 0, 0, false, false⟩)⟩),
    ([0x0007040202040249], .imadN32 ⟨1, 0, 4, 2, 2, 4, 7, false, 0, false, 0, false, false, .native none⟩),
    ([0x000700000104015A], .voteBal ⟨0, 0, 4, 1, 0, 0, 7, false, 0, false, 0, false, false, .native none⟩),
    ([0x0007040400050060], .popcN32 ⟨0, 0, 5, 0, 4, 4, 7, false, 0, false, 0, false, false, .native none⟩),
    ([0x0007030004118015, 0x0000000000010000], .icmpN32 ⟨0, 0, 17, 4, 0, 3, 7, false, 0, false, 0, false, false, .native (some ⟨65536, 0, 0, 0, 0, false, false⟩)⟩),
    ([0x0007011E0114818B, 0x0000000000000020], .stN64 ⟨0, 0, 20, 1, 30, 1, 7, false, 0, false, 0, false, false, .native (some ⟨32, 0, 0, 0, 0, false, false⟩)⟩)] : List (List DWord × Instr)).all (fun p => reads p.1 p.2) = true := by decide +kernel

/-- Words that the manual prints with their fields (spec/05, spec/17 to spec/21). -/
theorem test_decode_printed_1 : ([
    ([0x00070000080001D8], .gcall ⟨0, 0, 0, 8, 0, 0, 7, false, 0, false, 0, false, false, .native none⟩),
    ([0x0107020000010400], .iaddS32 ⟨2, 0, 1, 0, 0, 2, 7, false, 0, true, 0, false, false, .native none⟩),
    ([0x000700030E01018A], .stN32 ⟨0, 0, 1, 14, 3, 0, 7, false, 0, false, 0, false, false, .native none⟩),
    ([0x00070000003C01DC], .trecRd ⟨0, 0, 60, 0, 0, 0, 7, false, 0, false, 0, false, false, .native none⟩),
    ([0x000700003E0001DD], .trecWr ⟨0, 0, 0, 62, 0, 0, 7, false, 0, false, 0, false, false, .native none⟩),
    ([0x00070000000001DB], .tret ⟨0, 0, 0, 0, 0, 0, 7, false, 0, false, 0, false, false, .native none⟩),
    ([0x00070000000001D9], .gret ⟨0, 0, 0, 0, 0, 0, 7, false, 0, false, 0, false, false, .native none⟩),
    ([0x0007030008088295, 0], .fmaxBf16 ⟨1, 0, 8, 8, 0, 3, 7, false, 0, false, 0, false, false, .native (some ⟨0, 0, 0, 0, 0, false, false⟩)⟩),
    ([0x00070011101402D9], .packBf16 ⟨1, 0, 20, 16, 17, 0, 7, false, 0, false, 0, false, false, .native none⟩),
    ([0x000700000000014B], .nop ⟨0, 0, 0, 0, 0, 0, 7, false, 0, false, 0, false, false, .native none⟩),
    ([0x0107000400080490], .faddBf16 ⟨2, 0, 8, 0, 4, 0, 7, false, 0, true, 0, false, false, .native none⟩),
    ([0x0007030008208296, 0x0000080800000000], .fcmpBf16 ⟨1, 0, 32, 8, 0, 3, 7, false, 0, false, 0, false, false, .native (some ⟨0, 8, 8, 0, 0, false, false⟩)⟩)] : List (List DWord × Instr)).all (fun p => reads p.1 p.2) = true := by decide +kernel

/-- Words with a CW (R61): FCMP.F16 of two selected halves; SYSRD and SYSWR of register 0x105; a mapped IADD that zeroes
masked lanes. -/
theorem test_decode_cw : ([
    ([0x000700060409868E, 0x0000080800000000], .fcmpF16 (rfCw 9 4 6 0 0 8 8)),
    ([0x00070000000886E0 ||| 0x100, 0x0000000000000105], .sysrd (rfCw 8 0 0 0 0x105)),
    ([0x00070000080086E1 ||| 0x100, 0x0000000000000105], .syswr (rfCw 0 8 0 0 0x105)),
    ([0x0137000604088600, 0x0800000000000000], .iaddS32 { rfCw 8 4 6 0 0 0 0 0 false true with ma := 3, mae := true }),
    ([0x0007000604088680, 0x0700000000000000], .faddF32 (rfCw 8 4 6 0 0 0 0 3 true false))] : List (List DWord × Instr)).all
    (fun p => reads p.1 p.2) = true := by decide +kernel

/-- Words with a PB (R65): LDT and STT of 4 rows by 8 columns; CPCMD of 64 bytes. -/
theorem test_decode_pb : ([
    ([0x0007010604080790, 0x0004080800000040, 0x0000000000000100], .ldt (rf 8 4 6 1) ⟨0x40, 0x00040808, 0x100, 0⟩),
    ([0x0007010604080791, 0x0004080800000040, 0x0000000000000100], .stt (rf 8 4 6 1) ⟨0x40, 0x00040808, 0x100, 0⟩),
    ([0x00070C06040807D1, 0, 0x0000000800000040], .cpcmd (rf 8 4 6 12) ⟨0, 0, 64, 8⟩)] : List (List DWord × Instr)).all
    (fun p => reads p.1 p.2) = true := by decide +kernel

/-- CINV and HALT; a guard p2 inverted; STALL, Y and MB. -/
theorem test_decode_fields : ([
    ([0x00070000040607E2], .cinv (rf 6 4 0 0)), ([0x00070000040007E3], .halt (rf 0 4 0 0)),
    ([0x000A000604080600], .iaddS32 { rf 8 4 6 0 with pg := 2, pgn := true }),
    ([0x640700060408FE00 - 0x8000], .iaddS32 { rf 8 4 6 0 with stall := 15, y := true, mb := 2, mbe := true })] : List (List DWord × Instr)).all
    (fun p => reads p.1 p.2) = true := by decide +kernel

/-- Words that do not decode: an unassigned opcode (R80), bit 63 (R60), CW bits 63 to 60 (R61), TC below the class (R72), an odd pair
(R17), no second word. -/
theorem test_decode_refuses :
    ([([0x0007000604080630], .unassigned), ([0x8007000604080600], .reserved), ([0x0007000604088600, 0x1000000000000000], .reserved),
      ([0x0007000604080040], .illFormed), ([0x0007000604090604], .illFormed), ([0x0007000604088600], .short)] : List (List DWord × DecodeErr)).all
      (fun p => match decodeWords p.1 with | .error e => decide (e = p.2) | .ok _ => false) = true := by decide +kernel

/-- Choarnif words (R373): the manual's IADD.S32, and a branch with its second word. -/
theorem test_decode_choarnif : (match decodeChoarnif 0x72431400 none with
    | .ok i => decide (i = .iaddS32 ⟨0, 0, 5, 3, 9, 0, 7, false, 0, false, 0, false, false, .choarnif none⟩) | .error _ => false) = true := by
  decide +kernel

/-- A shape of zeros. -/
def shape0 : Shape := ⟨0, 0, 0, 0, 0, 0, 0, 0, 0, 0, 0, 0⟩

/-- Copy words (R211). LOOP goes 2 words back: offset 0xFFFE. -/
theorem test_decode_copy : ([
    (0x0000000000080101, .copyXfer ⟨0x801, 0, 0⟩ shape0), (0x3F80000000000002, .copyFill ⟨0, 0, 0x3F800000⟩ shape0),
    (0x1234567800000703, .copySete ⟨7, 0, 0x12345678⟩), (0xFFFFFFFF00000104, .copyAdde ⟨1, 0, 0xFFFFFFFF⟩),
    (0x00000000FFFE0205, .copyLoop ⟨0xE02, 0xFFF, 0⟩), (0x0000000000000506, .copySems ⟨5, 0, 0⟩), (0x0000000000000507, .copySemw ⟨5, 0, 0⟩),
    (0x0000000000000008, .copyBarr ⟨0, 0, 0⟩), (0x0000010000000309, .copyDone ⟨3, 0, 0x100⟩), (0x000000000000000A, .copyEnd ⟨0, 0, 0⟩)] :
    List (DWord × Instr)).all (fun p => match decodeCopy p.1 shape0 with | .ok i => decide (i = p.2) | .error _ => false) = true := by decide +kernel

/-- A ring entry: T1 in bits 63:32, T0 with PH 1. -/
def ent (t1 t0 : Nat) : BitVec 256 := BitVec.ofNat 256 (t1 * 2 ^ 32 + 2 ^ 31 + t0)
/-- The task word that it stands for. -/
def twd (t1 : Word) (t0 : BitVec 23) (x : List TaskExt) : TaskWord := ⟨t0, true, t1, 0, 0, 0, 0, 0, 0, x⟩

/-- Task words (R246, R247): TOP in bits 7:0, EXT in 9:8. -/
theorem test_decode_task : ([
    (ent 5 0x00, [], .tnop (twd 5 0 [])), (ent 5 0x01, [], .trun (twd 5 0 [])), (ent 5 0x102, [ent 9 0], .trunp (twd 5 1 [⟨true, 0, 9, 0, 0, 0, 0, 0, 0⟩])),
    (ent 5 0x103, [ent 9 0], .tcopy (twd 5 1 [⟨true, 0, 9, 0, 0, 0, 0, 0, 0⟩])), (ent 5 0x104, [ent 9 0], .tfill (twd 5 1 [⟨true, 0, 9, 0, 0, 0, 0, 0, 0⟩])),
    (ent 5 0x405, [], .tbind (twd 5 4 [])), (ent 5 0x06, [], .texport (twd 5 0 [])), (ent 5 0x07, [], .tfree (twd 5 0 [])), (ent 5 0x08, [], .tsig (twd 5 0 [])),
    (ent 5 0x09, [], .twait (twd 5 0 [])), (ent 5 0x80A, [], .tfence (twd 5 8 [])), (ent 5 0x0B, [], .tinval (twd 5 0 [])), (ent 5 0x0C, [], .tgate (twd 5 0 [])),
    (ent 5 0x0F, [], .tend (twd 5 0 []))] : List (BitVec 256 × List (BitVec 256) × Instr)).all
    (fun p => match decodeTask p.1 p.2.1 with | .ok i => decide (i = p.2.2) | .error _ => false) = true := by decide +kernel

/-! Well-formedness: an ill-formed term for each check. -/

/-- TC below the class (R72); a FORM that no entry has, and an immediate form without a CW (R66); registers of the wrong parity or above
63 (R17, R66); a condition above 5 (R68); modifiers (R64): an index without SEL, widening a 32-bit operand, SX on a float, NEG on a bit
pattern; packed operands in two modes (R92); RM and SAT where nothing rounds or saturates (R79); BITMIX's table, LEA's shift, PACK's
position (R103, R112, R128); a map field without its enable and MZ without a map (R70). -/
theorem test_ill_formed_arithmetic : ([.imulS32 { rf 8 4 6 0 with tc := 0 }, .iaddS32 (rf 8 4 6 7), .iaddS32 (rf 8 4 6 3), .iaddS64 (rf 9 4 6 0),
    .iaddS32 (rf 64 4 6 4), .icmpS32 (rf 0x31 4 6 0), .iaddS32 (rfCw 8 4 6 0 0 1), .iaddS32 (rfCw 8 4 6 0 0 8), .faddF32 (rfCw 8 4 6 0 0 0x20),
    .andB (rfCw 8 4 6 0 0 0x40), .iaddS16 (rfCw 8 4 6 0 0 0x28 0), .iaddS32 (rfCw 8 4 6 0 0 0 0 1), .andB (rfCw 8 4 6 0 0 0 0 0 true),
    .bitmix (rfCw 8 4 6 0 256), .leaN32 (rfCw 8 4 6 0 16), .packF16 (rfCw 8 4 6 0 2), .iaddS32 { rf 8 4 6 0 with ma := 1 },
    .iaddS32 (rfCw 8 4 6 0 0 0 0 0 false true), .iaddS32 { rf 8 4 6 1 with mbe := true }] : List Instr).all (fun i => !i.wf) = true := by decide +kernel

/-- A lane, a guard, a count, a semaphore, a barrier count, a predicate, a special register, a system register out of range; a CW where
none may stand; tiles and byte runs whose block breaks R187 and R209; data and offset registers of memory instructions (R178, R186, R189);
copy words (R211) and task words (R246, R247) with fields that must be 0. -/
theorem test_ill_formed_entries : ([.rdlane (rf 8 4 32 0), .splice { rf 0 0 0 0 with pg := 2 }, .waitc (rf 0 64 0 0), .cpq (rf 8 0 9 0),
    .barSet (rf 0 0 1 33), .plop (rf 0x40 1 1 0), .sread (rf 8 15 0 0), .sread (rf 8 2 0 0), .sysrd (rfCw 8 0 0 0 0x107), .nop (rfCw 0 0 0 0 1),
    .ldt (rf 8 4 6 1) ⟨0, 0x00040807, 0, 0⟩, .cpcmd (rf 8 4 6 12) ⟨0, 0, 0, 8⟩, .cpcmd (rf 8 4 6 12) ⟨0, 0, 64, 2⟩, .ldN64 (rf 9 4 6 0), .ldN32 (rf 8 16 6 0),
    .ldN32 (rf 8 4 64 1), .redAddN32 (rf 1 4 6 0), .atomCasN32 (rf 8 4 6 9), .faccN4 (rf 8 4 0 0), .copyXfer ⟨0, 1, 0⟩ shape0, .copySete ⟨8, 0, 0⟩,
    .copyLoop ⟨8, 0, 0⟩, .copyDone ⟨0, 0, 2⟩, .copyBarr ⟨1, 0, 0⟩, .tnop (twd 0 1 []), .tcopy (twd 0 0 []), .trun (twd 0 1 [⟨true, 1, 0, 0, 0, 0, 0, 0, 0⟩])] :
    List Instr).all (fun i => !i.wf) = true := by decide +kernel

/-! Encoding. -/

/-- The encoder gives the words back (R60, R61, R211, R373). -/
theorem test_encode : encode (.iaddS32 (rf 8 4 6 0)) = some [0x0007000604080600] ∧
    encode (.sysrd (rfCw 8 0 0 0 0x105)) = some [0x00070000000887E0, 0x0000000000000105] ∧ encodeCopy (.copyLoop ⟨0xE02, 0xFFF, 0⟩) = some 0x00000000FFFE0205 ∧
    encodeChoarnif (.iaddS32 ⟨0, 0, 5, 3, 9, 0, 7, false, 0, false, 0, false, false, .choarnif none⟩) = some (0x72431400, none) := by decide +kernel

/-! The placed instruction. -/

/-- A NOP word in the table's numbering; the step fetches and runs it: the unit's PC moves behind it. -/
theorem test_table_word : (match decodeTableWord 64 0x000700000000014B with | some i => decide (i = .nop { rf 0 0 0 0 with tc := 0 }) | none => false) = true ∧
    (match step (State.reset.withFetchWord 64 0x000700000000014B) with
     | .next t => (tget t.ropes 1).any (fun r => r.unitPc 0 == 0x10008) | _ => false) = true := by decide +kernel

/-! Steps: results in flight. -/

/-- The register writes that a step of the lab puts in flight. -/
def wrote (o : Host.Outcome State Fault Refusal) (w : RegWrite) : Bool :=
  match o with | .next t => (tget t.ropes 1).any (fun r => r.inflight.any (fun p => p.writes.contains w)) | _ => false
/-- A step writes a word to v8 of lane 0. -/
def lane0 (i : Fields → Instr) (a b : Nat) (v : Word) : Bool := wrote (exec (i (rf 8 4 6 0)) (data a 0 b)) (.vec 8 0 v)
/-- A step writes a pair to v8:v9 of lane 0. -/
def pair0 (i : Fields → Instr) (a b : Nat) (lo hi : Word) : Bool :=
  wrote (exec (i (rf 8 4 6 0)) (data a 0 b)) (.vec 8 0 lo) && wrote (exec (i (rf 8 4 6 0)) (data a 0 b)) (.vec 9 0 hi)

/-- Sums wrap (R92); with SAT they stop at the limits (R94). -/
theorem test_add : (lane0 .iaddN32 0xFFFFFFFF 2 1 && lane0 .isubS32 0x80000000 1 0x7FFFFFFF && pair0 .iaddN64 0xFFFFFFFFFFFFFFFF 1 0 0 &&
    lane0 .iaddN16 0x0001FFFF 0x00010001 0x00020000 && lane0 .isubN8 0x00000001 0x00000002 0x000000FF &&
    wrote (exec (.iaddS32 (rfCw 8 4 6 0 0 0 0 0 true)) (data 0x7FFFFFFF 0 1)) (.vec 8 0 0x7FFFFFFF)) = true := by decide +kernel

/-- Minimum, maximum, logic, shifts by the width and more (R97, R102, R104). -/
theorem test_logic : (lane0 .iminS32 0xFFFFFFFF 1 0xFFFFFFFF && lane0 .iminN32 0xFFFFFFFF 1 1 && lane0 .andnB 0xFF 0x0F 0xF0 &&
    lane0 .xorB 0xFF 0x0F 0xF0 && lane0 .rolN32 0x80000001 1 3 && lane0 .shrS32 0x80000000 4 0xF8000000) = true := by decide +kernel

/-- Products, high halves, quotients toward 0 and remainders with the dividend's sign (R98, R100, R101). -/
theorem test_products : (lane0 .imulN32 0x10001 0x10001 0x20001 && lane0 .imulhS32 0xFFFFFFFF 2 0xFFFFFFFF && lane0 .imulhN32 0xFFFFFFFF 2 1 &&
    lane0 .idivS32 0xFFFFFFF9 2 0xFFFFFFFD && lane0 .iremS32 0xFFFFFFF9 2 0xFFFFFFFF && pair0 .imulN64 0x100000001 3 3 3) = true := by decide +kernel

/-- Bit counts and fields (R107). -/
theorem test_bits : (([(.popcN32, 0xF0F00001, 9), (.clzN32, 0x00010000, 15), (.clzN32, 0, 32), (.ctzN32, 0x00010000, 16), (.brevN32, 1, 0x80000000)] :
    List ((Fields → Instr) × Nat × Word)).all (fun p => wrote (exec (p.1 (rf 8 0 6 0)) (data 0 0 p.2.1)) (.vec 8 0 p.2.2))) = true := by decide +kernel

/-- 1.5 + 2.25, 3 × 1.5, −0 + 0 = +0, minimum of −0 and 0, a sum that rounds to even (R116, R120). -/
theorem test_float : (lane0 .faddF32 0x3FC00000 0x40100000 0x40700000 && lane0 .fmulF32 0x40400000 0x3FC00000 0x40900000 &&
    lane0 .faddF32 0x80000000 0 0 && lane0 .fminF32 0x80000000 0 0x80000000 && lane0 .faddF32 0x3F800000 0x33800000 0x3F800000 &&
    pair0 .faddF64 0x3FF8000000000000 0x4002000000000000 0 0x400E0000) = true := by decide +kernel

/-- Conversions: 1.0 to F16 and back, 2.5 to an integer to even, 3e9 clamped, −1 to N32 clamped (R125, R126). -/
theorem test_convert : (([(.cvtF16F32, 0x3F800000, 0x3C00), (.cvtF32F16, 0x3C00, 0x3F800000), (.cvtS32F32, 0x40200000, 2), (.cvtS32F32, 0x4F32D05E, 0x7FFFFFFF),
    (.cvtN32F32, 0xBF800000, 0), (.cvtF32S32, 0xFFFFFFFF, 0xBF800000), (.cvtE4m3F32, 0x3F800000, 0x38)] :
    List ((Fields → Instr) × Nat × Word)).all (fun p => wrote (exec (p.1 (rf 8 0 6 0)) (data 0 0 p.2.1)) (.vec 8 0 p.2.2))) = true := by decide +kernel

/-- A compare writes p1 in the lanes of ACTIVE; a vote gathers a predicate (R109, R155). -/
theorem test_compare : (wrote (exec (.icmpS32 (rf 0x11 4 6 0)) (data 0xFFFFFFFF 5 0)) (.pred 1 15 1) &&
    wrote (exec (.voteBal (rf 8 7 0 0)) lab) (.scalar 8 15)) = true := by decide +kernel

/-- Moves between lanes: BCAST of lane 1, RDLANE of lane 1 (R154). -/
theorem test_lanes : (wrote (exec (.bcast (rf 8 4 1 0)) (data 7 9 0)) (.vec 8 0 9) && wrote (exec (.rdlane (rf 8 4 1 0)) (data 7 9 0)) (.scalar 8 9)) = true := by
  decide +kernel

/-- The PC of the lab's unit after a step. -/
def pcAfter (o : Host.Outcome State Fault Refusal) : Option DWord := match o with | .next t => (tget t.ropes 1).map (fun r => r.unitPc 0) | _ => none

/-- A call to the word itself leaves the address behind it in s8:s9 (R160); YIELD goes on. -/
theorem test_control : pcAfter (exec (.call (rf 8 0 0 0)) lab) = some 0x10000 ∧ wrote (exec (.call (rf 8 0 0 0)) lab) (.scalar 8 0x10008) = true ∧
    pcAfter (exec (.yield (rf 0 0 0 0)) lab) = some 0x10008 := by decide +kernel

/-- A trap without a handler ends in KILL: a task fault of class 5 and no workgroup (R238, R270). -/
theorem test_kill : (match exec (.ret (rf 0 4 0 0)) lab with
    | .next t => t.faults.length == 1 && (tget t.wgs 0).all (fun w => w.ropes.all (fun k => (tget t.ropes k).all (fun r => r.ended))) | _ => false) = true := by decide +kernel

/-- A trap with a handler enters it: the record's cause ENTRY, the level HANDLER, the PC at the handler (R235, R236). -/
theorem test_handler : (match exec (.ret (rf 0 4 0 0)) (labWith (fun r => { r with trapH := 0x10000, s := [(4, 0x10008)] }) id) with
    | .next t => (tget t.ropes 1).any (fun (r : Rope) => r.trap.any (fun c => c.trap.cause == 2 && c.trap.fpc == 0x10000) && r.priv == .handler && r.unitPc 0 == 0x10000)
    | _ => false) = true := by decide +kernel

/-- The lab over a handle, with vector registers. -/
def labV (n : BitVec 12) (v : Tbl Word) : State := { labMem n with ropes := (labMem n).ropes.map (fun e => (e.1, { e.2 with v := v })) }
/-- A condition on what a step leaves of the lab's rope and workgroup. -/
def leaves (o : Host.Outcome State Fault Refusal) (p : Rope → Workgroup → Bool) : Bool :=
  match o with
  | .next t => (tget t.ropes 1).any (fun r => (tget t.wgs 0).any (fun w => p r w))
  | _ => false

/-- A store through a SCRATCH handle, v8 of lane 0 at offset v6; a load of GLOBAL bytes (R183, R186). -/
theorem test_store :
    leaves (exec (.stN32 (rf 8 4 6 0)) (labV 2 [(192, 4), (256, 0x11223344)])) (fun r w => rdBytes w.scratch 4 4 == [0x44, 0x33, 0x22, 0x11] && r.stc == 1) = true ∧
    leaves (exec (.ldN32 (rf 8 4 6 0)) (labMem 1)) (fun r _ => r.ldc == 1 && r.outst.any (fun o => o.writes.contains (.vec 8 0 0x07070707))) = true := by
  decide +kernel

/-- RED.ADD adds lanes one after the other to one word (R190). -/
theorem test_atomics : leaves (exec (.redAddN32 (rf 0 4 6 8)) (labV 2 [(256, 1), (257, 2), (258, 3), (259, 4)]))
    (fun _ w => rdBytes w.scratch 0 4 == [10, 0, 0, 0]) = true := by decide +kernel

/-- Gathered RED.ADDs leave an update-only copy with their sum; memory is as before, and a read at the home finds the sum
added (R297). -/
theorem test_update_only :
    let s := [1, 2, 3, 4].foldl (fun s x => s.gather (targetOf 0) 0 .addN32 x 0x20010) (labWritable.xlate (targetOf 0) 0x20010 .atomic).2
    (rdBytes s.mem 0x90010 4 == rdBytes labWritable.mem 0x90010 4 && s.pendingAt 0x90010 &&
      leNat (s.physBytes 0x90010 4) == leNat (rdBytes labWritable.mem 0x90010 4) + 10) = true := by decide +kernel

/-- A fetch leaves its line in the MLIC, in the core's L1 instruction cache and in the quadrant's line buffer (R300). -/
theorem test_instruction_levels : (match step (State.reset.withFetchWord 64 0x000700000000014B) with
    | .next t => t.code.any (fun l => l.cluster == 0 && l.line == 0x10000 / 128 && l.l1i.contains 0 && l.bufs.contains 0) | _ => false) = true := by decide +kernel

/-- A kick raises MAXTAIL and never lowers it (R242). -/
theorem test_kick : ([(4, 4), (1, 3)] : List (DWord × Nat)).all (fun p => match exec (.kick 0 p.1) { lab with streams := [(0, { strm with tail := 3 })] } with
    | .next t => (tget t.streams 0).any (fun q => q.tail == p.2) | _ => false) = true := by decide +kernel

end Sys2Proof.Tests
end

