-- ==== Sys2Proof/Tests/WitnessEvents.lean ====
section
/-! SUPPORT. Witnesses for the statements about gates, results in flight, strands, engine events and workgroups. -/

namespace Sys2Proof.Tests
open Sys2Proof.Machine
set_option Elab.async false

/-- A condition on the lab's rope in a state. -/
def atRope (s : State) (h : Rope → Bool) : Bool := (tget s.ropes 1).any h

/-! Gates. -/

/-- A gate entry into the system domain itself: one argument, one result, 8 registers, entry at 0x10000, code handle 0. -/
def gateE : BitVec 512 := BitVec.ofNat 512 (2 ^ 16 + 2 ^ 32 + 2 ^ 36 + 2 ^ 40 + 0x10000 * 2 ^ 64)

/-- The lab at level SYSTEM with gate 6 and register-file room. -/
def labGate : State :=
  let s := lab.setCore 0 ((lab.core 0).setDpe 1 0xFF00)
  s.setDomain 0 { s.domain 0 with gates := rset 0 (s.domain 0).gates 6 gateE }

theorem wit_gcall : starts 0x1D8 (fd 0 4 6 0) labGate (fun b => (b.y.gateRefusal b.t (rget 0 (b.t.domain b.y.r.did).gates 6)).isNone &&
    b.y.core.slotOf 0 == some 0 && !b.t.gateBusy b.y.k b.y.r &&
    isOk (b.t.targetAt b.y.k b.y.unit (b.y.asCallee b.t (rget 0 (b.t.domain b.y.r.did).gates 6)) 0x10000)) = true := by decide +kernel

/-- The caller's side of a frame of that gate. -/
def frameE : Frame := ⟨6, gateE, 4, 0x10000, 0, 0x10000, 0, 0, 0, 256, 16, 0, 0, [], [], [], [], [], 0, 0, 0, [], false, true, none⟩
/-- The lab inside the frame. -/
def labFrame : State := labWith (fun r => { r with frame := some frameE, regs := 8 }) id

/-- The target check of a rope reads its domain, its slot, ASID, code handle, workgroup and kind only. -/
theorem targetAt_congr (s : State) (k u : Nat) (q r : Rope) (pc : DWord) (h1 : q.did = r.did) (h2 : q.asid = r.asid) (h3 : q.codeh = r.codeh)
    (h4 : q.wg = r.wg) (h5 : q.port = r.port) (h6 : q.dslot = r.dslot) : s.targetAt k u q pc = s.targetAt k u r pc := by
  unfold State.targetAt State.fetchAt State.handleFault State.startFault State.startAt State.isPro State.fetchBytes State.fetchByte
    State.codeTarget State.coreOf Rope.codeUnit
  rw [h1, h2, h3, h4, h5, h6]

theorem wit_gret :
    starts 0x1D9 (fd 0 0 0 0) labFrame (fun b => b.y.r.frame == some frameE && b.y.r.quiescent && b.y.r.ldc == 0 && b.y.r.stc == 0 &&
      b.y.r.outst.isEmpty && b.y.r.copies.isEmpty && !b.t.sfu.any (fun e => e.rope == b.y.k) && !b.y.r.k.any (fun k => k.2.state == .pending) &&
      isOk (b.t.targetAt b.y.k b.y.unit b.y.r frameE.ret) && b.y.r.did == frameE.did && b.y.r.asid == frameE.asid && b.y.r.codeh == frameE.codeh &&
      b.y.r.port == frameE.port && b.y.r.dslot == frameE.dslot) = true ∧
    (∀ (b : Begun), b.t.targetAt b.y.k b.y.unit b.y.r frameE.ret = .ok → b.y.r.did = frameE.did → b.y.r.asid = frameE.asid →
      b.y.r.codeh = frameE.codeh → b.y.r.port = frameE.port → b.y.r.dslot = frameE.dslot →
      ∀ q : Rope, q.did = frameE.did → q.asid = frameE.asid → q.codeh = frameE.codeh → q.wg = b.y.r.wg → q.port = frameE.port →
        q.dslot = frameE.dslot → b.t.targetAt b.y.k b.y.unit q frameE.ret = .ok) := by
  refine ⟨by decide +kernel, fun b h h1 h2 h3 h4 h5 q g1 g2 g3 g4 g5 g6 => ?_⟩
  rw [targetAt_congr b.t _ _ q b.y.r _ (g1.trans h1.symm) (g2.trans h2.symm) (g3.trans h3.symm) g4 (g5.trans h4.symm) (g6.trans h5.symm), h]

/-! Results. -/

/-- A list is not empty, its head meets one condition and the others another. -/
def firstDue {α : Type} (l : List α) (p q : α → Bool) : Bool := l.head?.any p && l.tail.all q

/-- The lab with a result, a load, an SFQ.RD, a store and an SFU entry that have arrived. -/
def labResults : State := { labWith (fun r => { r with
  inflight := [⟨0, 1, [.vec 4 0 5], 1⟩, ⟨9, 1, [.vec 4 0 6], 2⟩], stores := [⟨3, 0, true⟩, ⟨4, 9, true⟩], k := [(4, ⟨.pending, 0, 15, [], []⟩)] }) id with
  sfu := [⟨1, 4, 0, 0, 0⟩] }

theorem wit_ResultsLand :
    starts 0x000 regF lab (fun b => (tget (b.x.overtake b.t []).ropes b.y.k).isSome && rget 0 ((b.x.overtake b.t []).core b.y.c).holds b.y.r.quad == 0) = true ∧
    atRope labResults (fun r => firstDue r.inflight (fun p => decide (p.due ≤ labResults.cycOf r)) (fun q => decide (labResults.cycOf r < q.due))) = true ∧
    atRope labResults (fun r => firstDue r.stores (fun o => o.ready && decide (o.due ≤ labResults.cycOf r))
      (fun q => !q.ready || decide (labResults.cycOf r < q.due))) = true ∧
    (labResults.sfu[0]?).any (fun e => decide (e.due ≤ (labResults.core (e.quad / 4)).cyc) &&
      (tget labResults.ropes e.rope).any (fun r => (r.tok e.tok).state == .pending)) = true := by decide +kernel

/-- Loads: the oldest arrived; a later one arrived first; an SFQ.RD. -/
def outA : Outst := ⟨1, 0, true, none, [.vec 4 0 5], []⟩
def outB : Outst := ⟨2, 9, true, none, [.vec 5 0 5], []⟩
def outT : Outst := ⟨3, 0, true, some 4, [.vec 6 0 5], []⟩
theorem wit_LoadsComplete :
    [[outA, outB], [outA]].all (fun l => atRope (labWith (fun r => { r with outst := l }) id) (fun r => firstDue r.outst
      (fun o => o.tok.isNone && o.arrived 0 && !o.writes.isEmpty && o.waits.isEmpty) (fun q => q.tok.isNone && (!q.arrived 0 || !q.writes.isEmpty) &&
        (q.writes ++ q.waits).all (fun w => RegWrite.less outA.writes 0xFFFFFFFF true w == some w)))) = true ∧
    atRope (labWith (fun r => { r with outst := [outB, outA] }) id) (fun r => r.outst.all (fun q => q.tok.isNone) && !outB.arrived 0 && outA.arrived 0) = true ∧
    atRope (labWith (fun r => { r with outst := [outT, outB] }) id) (fun r => firstDue r.outst (fun o => o.tok.isSome && o.arrived 0)
      (fun q => q.id != outT.id && (q.writes ++ q.waits).all (fun w => RegWrite.less outT.writes 0xFFFFFFFF true w == some w))) = true := by decide +kernel

/-- Of two deliveries to one register with checking off. -/
theorem wit_race : outA.writes = [.vec 4 0 5] ∧ outA.waits = [] ∧ (0 : Nat) < 32 := by decide

/-! Strands. -/

/-- The lab with its strand waiting at a SPLICE; with its rope a candidate; sleeping; passed over; a quiescent Choarnif rope. -/
def labJoin : State := labWith (fun r => { r with strands := r.strands.map (fun t => if t.live then { t with waiting := true, joinPc := 0x10000, joinLen := 8 } else t) }) id
def labCand : State := labWith (fun r => { r with cand := some (0x10000, 1) }) id
def labSleep : State := labWith (fun r => { r with monitors := [⟨9, 0, 1, 0, 4, false, 0, 0⟩] }) id
def labPort : State := { labWith (fun r => { r with port := true, onNative := false }) id with images := [(7, ⟨0, [⟨2, 0x10000, 65536, []⟩], [0x10000], true, true, []⟩)] }

theorem wit_Strands :
    atRope labJoin Rope.phaseDone = true ∧ (labCand.gatherDue 0 0).isSome = true ∧
    atRope labCand (fun r => (packedStrands [r]).length == 1 && (packedStrands [r]).all (fun q => tsorted q.rope.v && decide (q.pos < 8)) &&
      !(packedStrands [r]).isEmpty) = true ∧
    atRope labFrame (fun r => (packedStrands [r]).all (fun q => tsorted q.rope.v && q.rope.frame.any (fun g => tsorted g.v)) &&
      (packedStrands [r]).length == 1 && r.frame.isSome) = true ∧
    atRope labSleep (fun r => !r.monitors.isEmpty && (tget labSleep.wgs r.wg).all (fun w => w.state != .saved)) = true ∧
    atRope (labWith (fun r => { r with sched := [(0, ⟨0, 0, 0, 4096, false, none⟩)] }) id) (fun r => decide (4096 ≤ (r.schedOf 0).starve)) = true ∧
    atRope labPort (fun r => r.port && !r.onNative && r.quiescent && r.inflight.isEmpty && labPort.translated r.did (r.unitPc r.headUnit)) = true := by
  decide +kernel

/-! Engine, translation and trap events. -/

/-- A map load of workgroup 0 that is due. -/
def fillE : MapFill := ⟨5, 64, 32, 32, 2048, 1, 5, 0, 1, 0, false, [], Mark.new none 0⟩
/-- The lab with the load pending in slot 0. -/
def labFill : State := { lab with slots := [(0, { onesSlot with state := .pending, fill := some fillE })] }
/-- A copy context of the lab's rope, and of a task. -/
def ctxE : CopyCtx := ⟨5, 0, 0, 1, 0, 0, 0x30000, 0x30000, [], [], 0, false, 0, 0, none, none, none, []⟩
/-- A state whose first hub die is connected to the memory port of die 0 (R337). -/
def hubbed (s : State) : State := { s with partRegs := tset (tset s.partRegs (regKey (.partReq 0 12)) 16) (regKey (.conn 0 12)) 1 }
/-- The lab with a program at an address without a translation; on a page whose frame another VA owns. -/
def labStuck (t : Option (Nat × Nat)) : State := { hubbed lab with ctxs := [(0, { ctxE with task := t })] }
/-- See `labStuck`. -/
def labTaken (t : Option (Nat × Nat)) : State :=
  { hubbed lab with
    ctxs := [(0, { ctxE with task := t, pc := 0x10000 })]
    owners := lab.stage2.map (fun (_, e) => (e.frame, (0, 77)))
    stage2 := lab.stage2.map (fun (p, e) => (p, { e with w := true })) }
/-- A trap of the copy engine. -/
def trapE : TrapRec := copyTrap ctxE 5 1 0

/-- The load of `labFill` raced by a write. -/
theorem wit_raced : ({ fillE with raced := true } : MapFill).raced = true ∧
    (({ lab with slots := [(0, { onesSlot with state := .pending, fill := some { fillE with raced := true } })] } : State).slot 0).fill =
      some { fillE with raced := true } ∧ (tget lab.wgs 0).any (fun w => decide (fillE.due ≤ (lab.core w.core).cyc) && w.fillPinned { fillE with raced := true }) = true := by
  decide +kernel

theorem wit_Engines :
    ((labFill.slot 0).fill == some fillE && (tget labFill.wgs fillE.wg).any (fun w => decide (fillE.due ≤ (labFill.core w.core).cyc) && w.fillPinned fillE)) = true ∧
    atRope (labWith (fun r => { r with held := [⟨trapE, some 0, none⟩] }) id) (fun r => r.trap.isNone && r.units.contains 0) = true ∧
    ([none, some (1, 0)] : List (Option (Nat × Nat))).all (fun t => (labStuck t).ctxs.any (fun (_, c) => c.task == t &&
      ((labStuck t).copyStuck c).any (fun z => z.1 == 9 && z.2.1 != 0) && (tget lab.ropes c.rope).any (fun r => !r.ended))) = true ∧
    ([none, some (1, 0)] : List (Option (Nat × Nat))).all (fun t => (labTaken t).ctxs.any (fun (_, c) => c.task == t &&
      ((labTaken t).copyStuck c).any (fun z => z.1 == 8) && (tget lab.ropes c.rope).any (fun r => !r.ended))) = true ∧
    (lab.copyStuck { ctxE with cmd := some ⟨0, 0, 0, 0, true, 0, 0⟩, pc := 8 }).isNone = true := by decide +kernel

/-- The lab in a frame whose caller has a handler. -/
def labBudget : State := labWith (fun r => { r with frame := some { frameE with trapH := 0x10000 } }) id
theorem wit_Budget :
    atRope labBudget (fun r => r.frame == some { frameE with trapH := 0x10000 } && r.trap.isNone && (labBudget.handleFault r 0x10000 8).isNone && (labBudget.startFault r 0x10000).isNone &&
      r.did == 0 && r.asid == 0 && r.codeh == 0 && !r.port) = true ∧
    (∀ (r : Rope), r.did = 0 → r.asid = 0 → r.codeh = 0 → r.port = false → labBudget.handleFault r 0x10000 8 = none →
      labBudget.startFault r 0x10000 = none →
      ∀ q : Rope, q.did = frameE.did → q.asid = frameE.asid → q.codeh = frameE.codeh → q.wg = r.wg → q.port = frameE.port →
        labBudget.handleFault q 0x10000 q.codeUnit = none ∧ labBudget.startFault q 0x10000 = none) := by
  refine ⟨by decide +kernel, fun r h1 h2 h3 h4 h h' q g1 g2 g3 g4 g5 => ?_⟩
  have hu : q.codeUnit = 8 := by unfold Rope.codeUnit; rw [g5]; rfl
  rw [hu]
  constructor
  · rw [← h]; unfold State.handleFault; rw [g1, g2, g3, h1, h2, h3]; rfl
  · rw [← h']; unfold State.startFault State.startAt State.isPro Rope.codeUnit; rw [g1, g4, g5, h1, h4]; rfl

/-- A logged store of lane 0, to an unmapped address of space 0, or to space 1; in a state. -/
def logE (space : Nat) (st : LogState) : LogEntry := ⟨3, 1, 0, 0, 0, 0, 0, 0, 0x10000, 0, [], rwaEntry space 0, 0, 1, [laneAt (if space = 0 then 0x50000 else 16)], none, st, false⟩
def labLog (e : LogEntry) : State := { labWith (fun r => { r with stores := [⟨3, 0, false⟩] }) id with log := [e] }

theorem wit_Log :
    ((labLog (logE 0 .retry)).logged 3 == some (logE 0 .retry) && ((labLog (logE 0 .retry)).logFault (logE 0 .retry)).any (fun n => n == (1, 1))) = true ∧
    ((labLog (logE 1 .retry)).logged 3 == some (logE 1 .retry) && ((labLog (logE 1 .retry)).logFault (logE 1 .retry)).isNone) = true ∧
    ((labLog (logE 0 (.deciding 1 1))).logged 3 == some (logE 0 (.deciding 1 1))) = true ∧
    (tget (labLog (logE 0 .retry)).ropes 1).isSome = true ∧ (laneAt 0x50000).lane < 32 ∧
    (let s := labLog (logE 1 .ready)
     (s.logged 3 == some (logE 1 .ready)) && s.replays (logE 1 .ready) && (tget s.ropes 1).any (fun r => r.stores.any (fun o => o.id == 3) && (tget s.wgs r.wg).any (fun _ =>
       (s.performLanes ((logE 1 .ready).target s) (logE 1 .ready).lanes).2.2.isEmpty))) = true := by decide +kernel

/-- Frame 9 of a writable page named by another VA: ALIAS. -/
def labAlias : State := { labWritable with owners := [(9, (0, 77))], log := [{ logE 0 .retry with lanes := [laneAt 0x20010] }] }
theorem wit_LogAlias : (labAlias.logged 3).any (fun e => e.state == .retry && labAlias.logFault e == some (0, 1)) = true := by decide +kernel

theorem wit_pagePin : (tget (labWith id (fun w => { w with pinned := [] })).wgs 0).any (fun w => w.onCore w.core && !w.pinned.contains 3 &&
    decide (4096 * 3 < scratchAlloc w.scratchSize) &&
    decide ((labWith id (fun w => { w with pinned := [] })).pagesPinned w.core w.dslot <
      ((labWith id (fun w => { w with pinned := [] })).core w.core).frames w.dslot)) = true := by
  decide +kernel

/-- With every frame in use the page takes the place of another; a load in flight notes it. -/
theorem wit_pageTaken : (tget lab.wgs 0).any (fun w => w.onCore w.core && !w.pinned.contains 16) = true ∧
    (tget (labWith id (fun w => { w with scratchSize := 131072 })).wgs 0).any (fun w => decide (4096 * 16 < scratchAlloc w.scratchSize)) = true ∧
    (tget labFill.slots 0).any (fun m => m.fill == some fillE && fillE.wg == 0) = true := by decide +kernel

/-- An idle array in an M cycle; one that has to be tested; one whose fence ends with this test. -/
def labArray (m : MapArray) : State :=
  { (lab.setCore 0 { lab.core 0 with flight := [⟨2, 0, 5, 0⟩] }) with arrays := [(0, m)] }
theorem wit_selfTest :
    (let s := labArray ⟨0, 1, 0, [(0, 15)], 3, [], [], 0⟩
     let x := s.array 0 0 0
     decide (x.busy ≤ (s.core 0).cyc) && s.testForced { x with faulty := x.faulty ||| 2 } == false && x.fenced.getLsbD 0 && !x.lasting.getLsbD 0 &&
       decide (15 ≤ rget 0 x.passes 0) && x.retries.isEmpty && x.faulty == 0 && (tget s.arrays 0).isSome) = true ∧
    (let s := labArray ⟨0, 3, 2, [], 4096, [], [], 4⟩
     let x := s.array 0 0 0
     decide (x.busy ≤ (s.core 0).cyc) && s.testForced { x with faulty := x.faulty ||| 0 } && x.faulty.getLsbD 2 && !x.faulty.getLsbD 0 &&
       (x.lasting ||| (x.fenced &&& x.faulty)).getLsbD 1 && x.fenced.getLsbD 1 && decide (rget 0 x.passes 0 < 15) && !x.fenced.getLsbD 3) = true := by
  decide +kernel

/-! Workgroups. -/

/-- The lab with core 0 able to take workgroups of the system domain. -/
def labGrid (w : Workgroup) (l : List (Nat × Stream)) : State :=
  let s := ({ lab with wgs := [(0, w)], streams := l, partRegs := bootRegs [] } : State)
  let c := (((s.core 0).setDpe 1 0xFF00).setDpe 2 0xFFFFFFFF).setDpe 3 0xFFFF
  (s.setCore 0 c).setDomain 0 { s.domain 0 with cores := [0] }

/-- An unplaced workgroup, of one strand, two map names. -/
def wgU : Workgroup := { bootWg 1 with state := .unplaced, ropes := [], maps := 2, regs := 8, pinned := [] }

theorem wit_Placement :
    ((labGrid wgU []).lowerUnplaced wgU == false && (labGrid wgU []).chooseCore wgU (fun c => ((labGrid wgU []).placeOn wgU c).isSome) == some 0 &&
      (labGrid wgU []).placeOn wgU 0 == some 0 && (labGrid wgU []).waits wgU && wgU.pro.isNone && ropeCount wgU.strands == 1) = true ∧
    (let s : State := { labGrid { wgU with stream := 1 } [(1, { strm with mprio := 3 })] with etimePs := 2000000000 }
     decide (0 + 1000000 ≤ s.etime) && (tget s.streams 1).any (fun t => decide (wgU.prio < max t.mprio t.mcap))) = true ∧
    ([true, false].all (fun b => (labGrid { bootWg 1 with idem := b } []).wgs == [(0, { bootWg 1 with idem := b })] && (bootWg 1).did == 0 && (bootWg 1).core == 0 &&
      (bootWg 1).state == .resident && (bootWg 1).pro.isNone && (tget (labGrid (bootWg 1) []).ropes 1).any (fun r => !r.ended))) = true := by decide +kernel

/-- A workgroup being saved, and a saved one. -/
def wgS : Workgroup := { bootWg 1 with state := .saving }
def wgI : Workgroup := { bootWg 1 with state := .saved, marked := [1], sems := [(2, 5)] }
theorem wit_Saving :
    ((labGrid wgS []).idle 1 ((tget lab.ropes 1).getD (wgS.freshRope 0 0 0 [] true 0)) && !wgS.marked.contains 1 && ((labGrid wgS []).core wgS.core).slotOf wgS.saveFor == some 0 &&
      (let s : State := { labGrid wgS [] with etimePs := 2000000000000 }
       decide (wgS.saveAt + (s.core wgS.core).ptoNs 0 ≤ s.etime)) &&
      atRope (labGrid wgS []) (fun r => r.quiescent)) = true ∧
    (wgI.sem 2 != 0 && decide (16 + [(1 : Byte), 2].length ≤ wgI.scratchSize) && wgI.ropes.contains 1) = true ∧
    atRope labSleep (fun r => !r.monitors.isEmpty) = true ∧
    ((labGrid wgI []).eligible wgI && (labGrid wgI []).restoreOn wgI 0 == some 0 && wgI.ropes == [1]) = true := by decide +kernel

end Sys2Proof.Tests
end

