-- ==== Sys2Proof/Tests/WitnessTasks.lean ====
section
/-! SUPPORT. Witnesses for the statements about copy words, tasks, streams, the package, and for those over all states. -/

namespace Sys2Proof.Tests
open Sys2Proof.Machine
set_option Elab.async false

/-! Copy words. -/

/-- The copy lab with one context; its program's words are at 0x30000 and 0x30008. -/
def labCtx (c : CopyCtx) : State := { labEng ⟨.free, 0, 0, [], []⟩ with ctxs := [(0, c)], curCtx := 0 }

theorem wit_CopyWords :
    (let s := labCtx { ctxE with e := [(1, 5)] }
     s.inCopy ctxE.did ctxE.start.toNat (ctxE.pc + 8).toNat && ({ ctxE with e := [(1, 5)] } : CopyCtx).er 1 != 0 && ctxE.er 1 == 0 &&
       s.inCopy ctxE.did ctxE.start.toNat (addInt ctxE.pc (8 * (0#12 ++ (1#12).extractLsb' 8 4).toInt)).toNat && ctxE.cmd.isNone && ctxE.own.isNone && !ctxE.inFrame &&
       (tget s.wgs ctxE.wg).any (fun g => decide (g.sem 3 ≠ 0xFFFF) && g.sem 3 == 0 && decide ((64 : Word).toNat + 4 ≤ g.scratchSize) && g.pinnedAt 64 4) &&
       (tget s.ropes ctxE.rope).any (fun r => r.frame.isNone) && !s.inCopy ctxE.did ctxE.start.toNat ({ ctxE with pc := 0x30008 } : CopyCtx).pc.toNat.succ) = true ∧
    (bootWg 1).sem 3 = 0 ∧ wgI.sem 2 ≠ 0 ∧
    (labCtx { ctxE with pc := 0x30008 }).inCopy 0 0x30000 ((0x30008 : DWord) + 8).toNat = false := by decide +kernel

/-- A shape: one run of 16 bytes from handle register 4 to handle register 5. -/
def shapeE : Shape := ⟨0, 64, 4, 5, 0x10010, 1, 0, 0, 0, 0, 0, 0⟩
/-- The same as a FILL of four words. -/
def shapeF : Shape := ⟨0, 64, 0, 5, 0x10004, 0x20001, 0, 0, 0, 0, 0, 0⟩
/-- A handle's memory (2 SCRATCH, 3 HOST) in handle registers 4 and 5 of a context in a program that has another start 56 bytes on. -/
def labMove (n : BitVec 12) (c : CopyCtx) : State :=
  { labMem n with ctxs := [(0, { c with h := [(4, n), (5, n)] })], curCtx := 0, images := [(7, ⟨0, [⟨3, 0x30000, 65536, []⟩], [0x30000, 0x30038], false, false, []⟩)] }

/-- The conditions of a move, decided. -/
def moveOk (fill : Bool) (s : State) (c : CopyCtx) (sh : Shape) : Bool :=
  (c.marked 0 sh).2 && (moveOf fill (c.marked 0 sh).1).any (fun m =>
    let a := m.args fill (s.ctxHandle c m.srcH) (s.ctxHandle c m.dstH)
    (s.copyChecks c a).isNone && !s.moveWaits c a && (s.moveFault c a).isNone && (s.movePoisoned c a).isNone &&
      !((s.moveBytes c m fill 0 (s.ctxHandle c m.srcH) (s.ctxHandle c m.dstH)).2.moveRefused a).1) && s.inCopy c.did c.start.toNat (c.pc + 56).toNat

theorem wit_moves :
    ((labMove 2 ctxE).ctxs.all (fun e => moveOk false (labMove 2 ctxE) e.2 shapeE && moveOk true (labMove 2 ctxE) e.2 shapeF)) = true ∧
    (let d : CpCmd := ⟨4, 5, 0, 64, false, 16, 128⟩
     let s := labMove 3 { ctxE with cmd := some d }
     s.ctxs.all (fun e =>
       let c := e.2
       let hs := s.ctxHandle c d.move.srcH
       let hd := s.ctxHandle c d.move.dstH
       let a := d.move.args false hs hd
       c.cmd == some d && hs.ent.space == 2 && hd.ent.space == 2 && (s.copyChecks c a).isNone && !s.moveWaits c a && (s.moveFault c a).isNone &&
         !d.wrap && (s.movePoisoned c a).isNone && (List.range d.len).all (fun i => decide (hs.ent.base + d.src + d.len ≤ hd.ent.base + d.dst + i)))) = true := by
  decide +kernel

/-! Decoding. -/

/-- A task word from T0's field bits, T1 to T7. -/
def tw (t0 : BitVec 23) (t1 t2 t3 t4 t5 t6 t7 : Word) : TaskWord := ⟨t0, true, t1, t2, t3, t4, t5, t6, t7, []⟩

/-- A mapped stream at decode index 2, logical buffer 0 bound to the HOST handle. -/
def strT : Stream := { strm with mapped := true, head := 2, tail := 4, decode := 2, dmap := [(0, ⟨3, false, 0, 0, []⟩)] }
/-- The lab with it. -/
def labT (t : Stream) : State := { hubbed (labMem 3) with streams := [(0, t)], curStream := 0 }
/-- The conditions of a region of `n` bytes from `off` in handle `idx`. -/
def regionOk (s : State) (idx : BitVec 12) (need : BitVec 4) (off n : Nat) : Bool :=
  let h := (s.handle 0 (s.domain 0).asid idx).ent
  h.v && h.ok && (h.space == 0 || h.space == 2 || h.space == 3) && need &&& h.rights == need && decide (off + n ≤ h.len) && h.len != 0

theorem wit_words :
    (t0Bits (tw 0 0 0 0 0 0 0 0) 10 21 == 0 && !tailUsed (tw 0 0 0 0 0 0 0 0) 1 && t0Bits (tw 4 0 0 0 0 0 0 0) 10 21 != 0) = true ∧
    (let w := tw 0 (3 + 4096) 0 0 0 0 0 0
     t0Bits w 18 13 == 0 && !tailUsed w 2 && fld w.t1 14 18 == 0 && (w.t1.getLsbD 12 || w.t1.getLsbD 13) && regionOk (labT strT) (rdIdx w.t1) 1 0 0) = true ∧
    (let w := tw 0 3 0 0 5 0 0 0
     t0Bits w 13 18 == 0 && decide (t0Bits w 10 2 < 2) && t0Bits w 12 1 == 0 && fld w.t1 12 20 == 0 && fld w.t3 18 14 == 0 && sigOff w % 8 == 0 &&
       t0Bits w 14 17 == 0 && decide (t0Bits w 10 3 < 6) &&
       w.t6 == 0 && w.t7 == 0 && regionOk (labT strT) (rdIdx w.t1) 10 (sigOff w) 8 && regionOk (labT strT) (rdIdx w.t1) 1 (sigOff w) 8) = true ∧
    (let w := tw 16 3 0 0 5 0 3 64
     t0Bits w 13 18 == 0 && decide (t0Bits w 10 2 < 2) && t0Bits w 12 1 == 1 && fld w.t1 12 20 == 0 && fld w.t3 18 14 == 0 && sigOff w % 8 == 0 &&
       fld w.t6 12 20 == 0 && w.t7.toNat % 32 == 0 && regionOk (labT strT) (rdIdx w.t1) 10 (sigOff w) 8 && regionOk (labT strT) (rdIdx w.t6) 2 64 32) = true ∧
    ([8, 12, 16, 0, 20] : List (BitVec 23)).map (fun b => t0Bits (tw b 0 0 0 0 0 0 0) 10 3) = [2, 3, 4, 0, 5] ∧
    ([0, 4] : List (BitVec 23)).map (fun b => t0Bits (tw b 0 0 0 0 0 0 0) 10 1) = [0, 1] ∧
    (let w := tw 0 8 3 64 16 0 0 0
     t0Bits w 18 13 == 0 && !tailUsed { w with t4 := 0 } 5 && !tailUsed w 5 && !w.t2.getLsbD 12 && regionOk (labT strT) 3 2 64 16) = true := by decide +kernel

/-- TEXPORT of a bound buffer and of an unbound one. -/
theorem wit_texport :
    (let w := tw 0 8 (3 + 8192) 64 16 0 0 0
     t0Bits w 18 13 == 0 && !tailUsed w 5 && !w.t2.getLsbD 12 && w.t2.getLsbD 13 && w.t4 != 0 && rdIdx w.t2 == 3 && rdOff w.t2 w.t3 == 64 &&
       regionOk (labT strT) (rdIdx w.t2) 2 (rdOff w.t2 w.t3) w.t4.toNat &&
       (tget strT.dmap 0).any (fun x => decide (w.t1.toNat + w.t4.toNat ≤ ((labT strT).handle 0 ((labT strT).domain 0).asid x.idx).ent.len)) &&
       (tget ({ strT with dmap := [] } : Stream).dmap 0).isNone) = true := by decide +kernel

/-- TCOPY and TFILL on raw operands. -/
theorem wit_copyTasks :
    (let w := tw 0 0 0 3 3 0 0 0
     let v := tw 0 0 0 0 3 0 0 0
     t0Bits w 10 21 == 0 && xWord w 1 7 == 0 && xWord w 1 6 == 0 && v.t3 == 0 && !operandReserved w.t3 true && !operandReserved w.t4 false &&
       !operandReserved v.t3 true && !w.t3.getLsbD 12 && !w.t4.getLsbD 12 &&
       (match Dc.copyTask false w ⟨labT strT, strT, Task.fresh 2 1 3 w⟩ with | .ok _ => true | .error _ => false) &&
       (match Dc.copyTask true v ⟨labT strT, strT, Task.fresh 2 1 4 v⟩ with | .ok _ => true | .error _ => false)) = true := by decide +kernel

/-- A free list of class 0 in memory at 0x20000, of one index; a decode in progress over it. -/
def labPool (n : Nat) (idx : BitVec 16) : State :=
  let s := ((labT strT).placePage 0 0x70000 false 0 (leBytes 2 idx.toNat)).2
  s.setDomain 0 { s.domain 0 with handles := rset 0 (s.domain 0).handles 5 (rwaEntry 0 0x40000), flBase := [(0, 0x70000)], flCnt := [(0, n)] }
def dcPool (n : Nat) (idx : BitVec 16) (t : Stream) : Dc := ⟨labPool n idx, t, Task.fresh 2 1 1 (tw 0 0 0 0 0 0 0 0)⟩
/-- Whether a decode's free list of class 0 gives an index that names a buffer of its pool. -/
def popped (d : Dc) (idx : Nat) (ok : Bool) : Bool :=
  let dom := d.s.domain d.t.did
  let n := rget 0 dom.flCnt 0
  let va := (rget 0 dom.flBase 0).toNat + 2 * (n - 1)
  n != 0 && !d.s.sysPoison d.t.hub dom.asid va 2 && leNat (d.s.sysRead d.t.hub dom.asid va 2) == idx && d.poolOk (BitVec.ofNat 12 idx) 0 == ok
/-- A window entry of a task. -/
def taskE (top : Nat) (st : TaskState) : Task := { Task.fresh 2 1 top (tw 0 0 0 0 0 0 0 0) with state := st }

theorem wit_buffers :
    (tget strT.dmap 0).isSome = true ∧ popped (dcPool 1 5 strT) 5 true = true ∧ popped (dcPool 1 9 strT) 9 false = true ∧
    popped (dcPool 1 4105 strT) 4105 false = true ∧ rget 0 ((dcPool 0 5 strT).s.domain 0).flCnt 0 = 0 ∧
    ({ strT with window := [{ taskE 1 .decoded with idx := 1, releases := [(0, 5)] }] } : Stream).window.any (fun k => k.releases.any (fun r => r.1 == 0)) = true := by
  decide +kernel

/-- The system kernel in a page at 0x60000, with a prologue address. -/
def proKernel : BitVec 512 := bootKernel ||| BitVec.ofNat 512 (0x50000 * 2 ^ 192)
def labK (k : BitVec 512) (t : Stream) : State := ((labT t).placePage 0 0x60000 false 0 (leBytes 64 k.toNat)).2
/-- A bind slot 0 that takes a fresh buffer of class 0 into handle register 1. -/
def twW : TaskWord := tw 0 0x60000 0 1 (1 + 3 * 16) 0 0 0

theorem wit_launches :
    (let w := tw 0 0x60000 0 1 0 0 0 0
     t0Bits w 11 20 == 0 && w.t4 == 0 && ([false, true].all (fun p => match (labK (if p then proKernel else bootKernel) strT).kernel 0 0 (w.t2 ++ w.t1).toNat p with | .ok _ => true | .error _ => false)) &&
       (match Dc.launch false w ⟨labK bootKernel strT, strT, Task.fresh 2 1 1 w⟩ with | .ok _ => true | .error _ => false) &&
       (match Dc.launch true w ⟨labK proKernel strT, strT, Task.fresh 2 1 2 w⟩ with | .ok _ => true | .error _ => false)) = true ∧
    (let t : Stream := { strT with window := [{ taskE 1 .decoded with idx := 1, releases := [(0, 5)] }] }
     [true, false].all (fun pro => match Dc.launch pro twW ⟨labK bootKernel t, t, Task.fresh 2 1 (if pro then 2 else 1) twW⟩ with | .error .wait => true | _ => false)) = true := by
  decide +kernel

/-! Issue, completion, retirement. -/

/-- A stream with one task in its window. -/
def strW (k : Task) : Stream := { strT with window := [k], decode := 3, state := .running }
/-- The lab with it and a core for its workgroups. -/
def labW (k : Task) : State := labGrid wgS [(0, strW k)]

theorem wit_decodable :
    (let s := ((labT { strT with ring := 0x70000 }).placePage 0 0x70000 false 0 ([0, 0, 0, 0x80] ++ List.replicate 60 0 ++ [0, 0, 0, 0x80])).2
     (tget s.streams 0).any (fun t => s.decodable t 0 && (List.range (1 + s.extAt t)).all (fun i => !s.sysPoison t.hub (s.domain t.did).asid (t.entryVa (t.decode + i)) 32))) = true := by
  decide +kernel

theorem wit_Issue :
    ([0, 2, 3, 4, 5, 6, 7, 8, 9, 10, 11, 15, 1] : List Nat).all (fun top => (tget (labW (taskE top .decoded)).streams 0).any (fun t =>
      (t.task 2).any (fun k => t.canIssue k && k.top == top && k.wgcount == 0))) = true ∧
    ([(1, 3), (2, 0)] : List (Nat × Nat)).all (fun p =>
      let k : Task := { taskE p.1 .decoded with kdesc := if p.1 = 2 then proKernel else bootKernel, wgcount := p.2 }
      let s := labW k
      (strW k).canIssue k && ((s.markIssued 0 k.idx (strW k).eff).placeTest ((s.markIssued 0 k.idx (strW k).eff).newWg 0 (strW k) k 0)).isNone) = true := by
  decide +kernel

/-- A TSIG of the HOST word, both operations; a TWAIT on it. -/
theorem wit_signals :
    ([0, 4] : List (BitVec 23)).all (fun b =>
      let k : Task := { taskE 8 .decoded with w := tw b 3 0 0 5 0 0 0, regions := [⟨2, 0x5000, 8, false, true⟩] }
      let s : State := { labMem 3 with streams := [(0, strW k)] }
      (strW k).canIssue k && ((s.handle 0 (s.domain 0).asid (rdIdx k.w.t1)).taskTarget (strW k) 0 s.nextId true).space == 2 && (s.domain 0).tdi == .run) = true ∧
    ([0, 4] : List (BitVec 23)).all (fun b =>
      let k : Task := { taskE 9 .issued with w := tw b 3 0 0 0 0 1 0, regions := [⟨2, 0x5000, 8, true, false⟩] }
      let s : State := { labMem 3 with streams := [(0, strW k)], etimePs := 5000000000 }
      !s.faulting 0 2 && ((s.handle 0 (s.domain 0).asid (rdIdx k.w.t1)).taskTarget (strW k) 0 s.nextId true).space == 2 && (s.domain 0).tdi == .run &&
      (twaitHolds k.w (leNat (rdBytes s.host 0x5000 8)) == (b == 0)) && k.w.t6 != 0 && decide (k.issueNs + 1000 * k.w.t6.toNat ≤ s.etime)) = true ∧
    (let k := taskE 1 .issued
     let s : State := { labMem 3 with streams := [(0, { strW k with mbudget := 1 })], etimePs := 5000000000 }
     !s.faulting 0 2 && decide (k.issueNs + 1000 * (1 : Word).toNat < s.etime)) = true := by decide +kernel

/-- What is complete: a REPEAT; grids, copies and a fence; MAPINTs in each form; a head that retires, giving a buffer back. -/
theorem wit_Completion :
    (let k : Task := { taskE 2 .issued with verdict := 2, run := 5 }
     (strW k).task 2 == some k && !(labW k).faulting 0 2 && (labW k).gridDone 0 2) = true ∧
    ([1, 2, 3, 4, 6, 10] : List Nat).all (fun top => (labW (taskE top .issued)).finished 0 (strW (taskE top .issued)) (taskE top .issued) &&
      (taskE top .issued).mapints == 0) = true ∧
    ([(true, false), (false, true), (false, false)] : List (Bool × Bool)).all (fun p => ([1, 2] : List Nat).all (fun top =>
      let k : Task := { taskE top .issued with mapints := 1, retried := p.1, irrev := p.2, kdesc := bootKernel }
      (strW k).task 2 == some k && !(labW k).faulting 0 2 && (labW k).gridDone 0 2 && !kdIdem k.kdesc)) = true ∧
    (let k : Task := { taskE 1 .complete with releases := [(0, 5)] }
     let s := (labW k).setDomain 0 { (labW k).domain 0 with flCap := [(0, 4)] }
     (strW k).window == k :: [] && (strW k).mapped && decide (rget 0 (s.domain 0).flCnt 0 < rget 0 (s.domain 0).flCap 0)) = true := by
  decide +kernel

/-! Faults and mapping. -/

theorem wit_Faults :
    ((labW (taskE 1 .issued)).faults.isEmpty && (strW (taskE 1 .issued)).names 2 && (strW (taskE 1 .issued)).window.all (fun k => decide (2 ≤ k.idx))) = true ∧
    (let t : Stream := { strW (taskE 1 .issued) with window := [{ taskE 1 .issued with idx := 1 }, taskE 1 .decoded], head := 1 }
     t.names 2 && t.mapped && t.window.any (fun k => decide (k.idx < 2))) = true ∧
    ([0, 1, 2] : List Word).all (fun v => v.toNat % 4 != 3) = true := by decide +kernel

/-- A faulting stream whose task has left a store in the operand log. -/
theorem wit_FaultPending : (let s : State := { labW (taskE 1 .issued) with log := [{ logE 1 .ready with stream := 0, task := 2, orphan := true }] }
    s.faults.isEmpty && s.log.any (fun e => e.stream == 0 && decide (2 ≤ e.task) && e.orphan && e.kind == 1 && e.state == .ready)) = true := by
  decide +kernel

/-- A pending stream on a hub die whose slot belongs to its domain's partition. -/
theorem wit_Mapping :
    (let t : Stream := { strm with log2n := 6, pending := true }
     let s : State := { labW (taskE 1 .decoded) with streams := [(0, t)], partRegs := [(regKey (.hubSlot 0), 16)] }
     s.firstPending 0 t && s.easySlot t == some 0 && (s.onSlot t.hub 0).isNone) = true ∧
    (let t : Stream := { strm with prioOv := true, prio := 2, pcap := 5, pending := true }
     let s : State := { labW (taskE 1 .decoded) with streams := [(0, t)], etimePs := 9000000000 }
     decide (t.eff < max (s.prioOf t) (s.pcapOf t)) && decide (t.eff < s.prioOf t + (s.etime - t.since) / 1000000)) = true := by decide +kernel

/-! The package. -/

theorem wit_Package :
    (tget labWritable.stage2 9 == some ⟨9, true, false, 0⟩ && tsorted labWritable.mem && labWritable.keyUsable 0 7 (some ⟨9, true, false, 0⟩) && !labWritable.keyUsable 5 7 (some ⟨9, true, false, 0⟩) && !labWritable.keyUsable 5 7 none) = true ∧
    State.reset.sweepReady 0 = true ∧ lab.sweepReady 0 = false ∧
    (let s : State := { State.reset with etimePs := 5000000, calendars := [(0, ⟨[], [], 0, [], 0, []⟩)] }
     decide ((s.cal 0).now / 64 < s.etime / 2048)) = true ∧
    ([0, 1] : List Word).all (fun v => (({ State.reset with calendars := [(0, ⟨[], [], v, [(.calSlot 0 3, 9, 0)], 0, []⟩)] } : State).cal 0).ctl.getLsbD 0 == (v == 1)) = true ∧
    (let s : State := { State.reset with etimePs := 40000, calendars := [(0, ⟨[], [], 0, [], 0, []⟩)] }
     s.etime / 2048 == (s.cal 0).now / 64 && decide ((s.cal 0).now < s.etime / 32)) = true ∧
    ([(.calSlot 0 3, 9), (.calShare 0 3, 2 ^ 17), (.hubSlot 3, 17)] : List (SysReg × Word)).all (fun p => regValueOk p.1 p.2) = true ∧
    regValueOk (.hubSlot 3) 32 = false ∧
    (tget (labW (taskE 1 .decoded)).streams 0).any (fun t => (tget (labW (taskE 1 .decoded)).domains t.did.toNat).any (fun d => d.part == 0)) = true ∧
    (labW (taskE 1 .decoded)).wgs.all (fun e => !e.2.pro.isSome) = true := by decide +kernel

/-- Responders at each step. -/
theorem wit_Spdm : ([⟨true, true, true, true, true⟩, ⟨true, false, false, false, false⟩] : List Spdm).all (fun p =>
    ({ State.reset with spdm := [(0, p)] } : State).responder 0 == p) = true ∧
  ({ lab with spdm := [(0, ⟨true, true, true, true, true⟩)] } : State).keyNamed 5 = false ∧ (lab.domain 0).valid = true ∧
  (lab.keySlot 5).state ≠ .valid ∧ (({ lab with keys := [(5, ⟨.valid, 0, 0, 0, 0⟩)] } : State).keySlot 5).state = .valid ∧
  lab.keys.all (fun e => !e.2.binds 3 0 && !e.2.binds 6 0) = true ∧ (labMem 1).domain 0 = { (labMem 1).domain 0 with tdi := .run } ∧
  tget (labT strT).streams (streamKey 0 0) = some strT ∧ strT.valid = true := by decide +kernel

/-- A key request whose policy is the digest of its measurements. -/
theorem wit_keyset (s : State) (m : BitVec 6) : ∃ r : KeySetReq, s.bindingDigest r.mask r.did = r.policy :=
  ⟨⟨5, 0, 0, m, s.bindingDigest m 0⟩, rfl⟩

/-- Calendars whose waiting write is one of CAL_CTL, and of a slot under HOLD; a partition in reset and one that has left it. -/
theorem wit_Calendars :
    (let s : State := { State.reset with calendars := [(0, ⟨[], [], 0, [(.calSlot 0 64, 1, 0)], 0, []⟩)], etimePs := 5000000 }
     (s.cal 0).waiting == [(.calSlot 0 64, 1, 0)] && decide ((s.cal 0).now / 64 < s.etime / 2048)) = true ∧
    (let s : State := { State.reset with calendars := [(0, ⟨[], [], 1, [(.calSlot 0 3, 9, 0)], 0, []⟩)], etimePs := 5000000 }
     (s.cal 0).ctl.getLsbD 0 && (s.cal 0).waiting.all (fun e => match e.1 with | .calSlot _ k => k != 64 | _ => true) &&
       decide ((s.cal 0).now / 64 < s.etime / 2048)) = true ∧
    (let s : State := { State.reset with calendars := [(0, ⟨[], [], 0, [(.calSlot 0 3, 9, 9)], 0, []⟩)], etimePs := 5000000 }
     (s.cal 0).waiting == [(.calSlot 0 3, 9, 9)] && decide ((s.cal 0).now / 64 < s.etime / 2048) && decide (s.etime / 2048 ≤ 9)) = true ∧
    (State.reset.regParts (.hubSlot 3) 17).all State.reset.inReset = true ∧
    (({ State.reset with live := [1] } : State).regParts (.hubSlot 3) 17).all ({ State.reset with live := [1] } : State).inReset = false ∧
    ([true, false] : List Bool).all (fun b => (tget ([(4, ⟨0, [], [], b, false, []⟩)] : Tbl Image) 4).any (fun i => i.ported == b)) = true := by
  decide +kernel

theorem wit_hostWrite : (match labWritable.lookup 0 0x20010 .write with | .ok .. => true | _ => false) = true ∧
    (match labWritable.lookup 0 (128 * 1024) .read with | .ok .. => true | _ => false) = true ∧
    (hubbed labWritable).hubRefused ((hubbed labWritable).hostHub 0 0x20010 1) 0 0x20010 1 = [] ∧
    (match (hubbed labWritable).lookup 0 0x20010 .write with | .ok .. => true | _ => false) = true := by decide +kernel

/-- A launch packet of one entry for stream 0, through a port of partition 0. -/
def rstE : BitVec 256 := BitVec.ofNat 256 (2 ^ 12 + 2 * 2 ^ 16 + 77 * 2 ^ 64 + 8 * 2 ^ 128)
def labNet : State :=
  let s := ({ labT strT with partRegs := [(regKey (.hubPort 3), 16)] } : State)
  s.setDomain 0 { s.domain 0 with rst := [(4, rstE)] }
theorem wit_packet :
    (let p : LaunchPkt := ⟨1, 0, 4, 1, 0, 9, [0]⟩
     let s := labNet
     let e := rget 0 (s.domain p.did).rst p.idx.toNat
     p.ver == 1 && (s.domain p.did).valid && partOf (s.reg (.hubPort 3)) == some (s.domain p.did).part && decide (p.idx.toNat < 256) && e.getLsbD 12 &&
       rstNat e 13 3 == 0 && rstNat e 19 45 == 0 && p.zero == 0 && e.extractLsb' 64 64 == 77 && p.count != 0 && decide (p.count.toNat ≤ rstNat e 16 3) &&
       decide (rstNat e 128 64 < p.seq.toNat) && rstNat e 192 32 == 0 && tget s.streams (streamKey p.did (rstNat e 0 12)) == some strT &&
       decide (strT.resv.toNat + p.count.toNat ≤ strT.head + strT.ringN) && decide (strT.resv.toNat + p.count.toNat < 2 ^ 64)) = true := by decide +kernel

/-- A file of one empty data section (R363, R364). -/
def dzoMin : List Byte := leBytes 8 0x00010000014F5A44 ++ leBytes 8 0x100000000 ++ leBytes 8 64 ++ List.replicate 40 0 ++ leBytes 8 6 ++ leBytes 8 96 ++
  List.replicate 16 0

/-- A workgroup of a stream's task, and an image nothing names. -/
theorem wit_errors :
    (tget (labW (taskE 1 .issued)).wgs 0).any (fun g => g.pro.isNone && (tget (labW (taskE 1 .issued)).streams g.stream).any (fun t => (t.task 2).isSome)) = true ∧
    loadCode [] ≠ 0 ∧ loadCode dzoMin = 0 ∧ ((labW (taskE 1 .issued)).imageBusy ⟨0, [⟨1, 0x10000, 65536, []⟩], [], false, false, []⟩) = true ∧ (State.reset.imageBusy ⟨0, [], [], false, false, []⟩) = false := by decide +kernel

/-! Statements over all states. -/

theorem wit_MemWf : ∃ t, State.reset.MemWf ∧ step { State.reset with turn := .event (.mapDutyUpdate ⟨none, 50⟩) } = .next t :=
  ⟨_, by unfold State.MemWf; decide, rfl⟩

/-- A copy context at an END word, and at a word that is none. -/
def labWord (ok : Bool) : State :=
  { (lab.placePage 0 0x30000 true 0 (if ok then [10, 0, 0, 0, 0, 0, 0, 0] else [0xFF])).2 with ctxs := [(0, ctxE)] }
/-- The lab issues a NOP word; its fetch, an unmapped fetch and a word that does not decode. -/
theorem wit_steps :
    (let s := State.reset.boot [0x4B, 0x01, 0, 0, 0, 0, 7, 0]
     s.turn == .rope && (tget s.ropes s.cur).any (fun r => r.unitLanes s.curUnit != 0 && isOk (s.fetchCheck s.cur s.curUnit r))) = true ∧
    (let s : State := { State.reset.boot [] with images := [] }
     s.turn == .rope && (tget s.ropes s.cur).any (fun r => r.unitLanes s.curUnit != 0 && isFault (s.fetchCheck s.cur s.curUnit r))) = true ∧
    (let s : State := ({ labMiss with turn := .rope, cur := 1 } : State).onRope 1 (fun r => { r with strands := r.strands.map (fun t => { t with pc := 0x20000 }) })
     (tget s.ropes s.cur).any (fun r => r.unitLanes s.curUnit != 0 && isMiss (s.fetchCheck s.cur s.curUnit r) &&
       (let u := s.askFetch 1 0 r 4 0x20000
        u.fetchCheck 1 0 r == .asked))) = true ∧
    ([true, false] : List Bool).all (fun b => let s := labWord b
      s.ctxs.all (fun (_, c) => c.next.isNone && (s.copyFetchFault c).isNone &&
        (match decodeCopy (s.copyWordAt c).1 (s.copyWordAt c).2 with | .ok _ => b | .error _ => !b))) = true ∧
    (match decodeWords [0x000700000000014B] with | .ok _ => true | .error _ => false) = true ∧
    (match decodeWords [0xFFFFFFFFFFFFFFFF] with | .ok _ => false | .error _ => true) = true := by decide +kernel

end Sys2Proof.Tests
end

