-- ==== Sys2Proof/Tests/WitnessChecks.lean ====
section
/-! SUPPORT. Witnesses for the statements about targets, checks of accesses, slots, domains and gates, translation, the special
registers and late results. -/

namespace Sys2Proof.Tests
open Sys2Proof.Machine
set_option Elab.async false

/-! Transfers. -/

/-- The first fault of a transfer's lanes, decided. -/
def faultsFirst (b : Begun) (target : Nat → DWord) (l : Nat) : Bool :=
  let res (j : Nat) := b.t.targetAt b.y.k b.y.unit b.y.r (target j)
  b.y.active.contains l && (match res l with
    | .fault q => b.y.active.all (fun j => match res j with
      | .ok => true
      | .fault p => if j < l then decide (targetOrder q.1 < targetOrder p.1) else decide (targetOrder q.1 ≤ targetOrder p.1)
      | _ => false)
    | _ => false)

/-- What is decided meets the hypothesis of the statement. -/
theorem faultsFirst_spec {b : Begun} {target : Nat → DWord} {l : Nat} (h : faultsFirst b target l = true) : ∃ q, b.FaultsFirst target l q := by
  unfold faultsFirst at h
  simp only [Bool.and_eq_true, List.contains_iff_mem] at h
  obtain ⟨hm, h⟩ := h
  cases hr : b.t.targetAt b.y.k b.y.unit b.y.r (target l) with
  | fault q =>
    refine ⟨q, hm, hr, fun j hj => ?_⟩
    simp only [hr, List.all_eq_true] at h
    have hj' := h j hj
    cases hf : b.t.targetAt b.y.k b.y.unit b.y.r (target j) with
    | ok => exact Or.inl hf
    | fault p =>
      refine Or.inr ⟨p, hf, ?_⟩
      rw [hf] at hj'
      by_cases hl : j < l <;> simp [hl] at hj' ⊢ <;> exact hj'
    | miss _ _ => rw [hf] at hj'; simp at hj'
    | asked => rw [hf] at hj'; simp at hj'
  | ok => rw [hr] at h; simp at h
  | miss _ _ => rw [hr] at h; simp at h
  | asked => rw [hr] at h; simp at h

/-- Lane 0 at a start, lane 1 at no start (ENTRY), lane 2 outside the code handle (BOUND), lane 3 at no start; a scalar pair at no start. -/
def labLanes : State := labWith (fun r => { r with s := [(4, 8)], v := [(128, 0x10000), (129, 0x10008), (130, 8), (131, 0x10008)] }) id

/-- JMPI and CALLI whose first fault is lane 2's BOUND; a scalar pair; lane 1 on a page without a translation, then asked for. -/
theorem wit_indirectTargets : ([0x142, 0x143] : List Nat).all (fun op =>
    starts op (fd 8 4 0 0) labLanes (fun b => faultsFirst b (jumpTo b.y) 2) &&
    starts op (fd 8 4 0 1) labLanes (fun b => faultsFirst b (jumpTo b.y) 0) &&
    (let s := labMiss.onRope 1 (fun r => { r with v := [(128, 0x10000), (129, 0x20000), (130, 0x10000), (131, 0x20000)] })
     starts op (fd 8 4 0 0) s (fun b => b.y.active.contains 1 && isMiss (b.t.targetAt b.y.k b.y.unit b.y.r (jumpTo b.y 1)) &&
       b.y.active.all (fun j => !decide (j < 1) || !isMiss (b.t.targetAt b.y.k b.y.unit b.y.r (jumpTo b.y j)))) &&
     starts op (fd 8 4 0 0) ((tget s.ropes 1).elim s (fun r => s.askFetch 1 0 r 4 0x20000)) (fun b => b.y.active.contains 1 &&
       b.t.targetAt b.y.k b.y.unit b.y.r (jumpTo b.y 1) == .asked &&
       b.y.active.all (fun j => !isMiss (b.t.targetAt b.y.k b.y.unit b.y.r (jumpTo b.y j)))))) = true := by decide +kernel

/-- A rope whose lanes are moved: with no fenced array, of at most 8 strands, one of them with a group on its stack. -/
theorem wit_moved : ([lab, labWith (fun r => { r with strands := r.strands.map (fun t => if t.live then { t with active := 3, stack := [(0x10000, 12)] } else t) }) id] : List State).all
    (fun s => starts 0x140 (fd 8 0 0 0) s (fun b => rget 0 ((b.x.overtake b.t []).core b.y.c).holds b.y.r.quad == 0 &&
      (tget (b.x.overtake b.t []).ropes b.y.k).any (fun r => decide (r.strands.length ≤ 8) && r.strands.any (fun x => x.inUnit b.y.unit && x.active != 0)))) = true := by
  decide +kernel

/-! The checks of an access. -/

/-- `Issue.checkFails`, decided. -/
def checkB (x : Issue) (s : State) (h : HRef) (need : MemNeed) (size align n : Nat) (off : Int) : Bool :=
  let e := h.ent
  match n with
  | 0 => e.v == false
  | 1 => e.ok == false || (e.space == 4 && (s.ctrlStream h).isNone)
  | 2 => !need.spaces.contains e.space
  | 3 => (List.range 4).any (fun i => need.rights.getLsbD i && !h.rights.getLsbD i)
  | 4 => decide ((if e.space = 4 then off else e.base + off) % align ≠ 0)
  | 5 => decide (off < 0 ∨ e.len < off + size)
  | 6 => e.space == 1 && decide ((x.w.scratchSize : Int) < e.base + off + size)
  | 7 => e.space == 4 && (match s.ctrlStream h with | some (_, t) => !ctrlAdmits t need.ctrl size off.toNat | none => true)
  | _ => e.space == 1 && x.r.frame.isSome

theorem checkB_spec (x : Issue) (s : State) (h : HRef) (need : MemNeed) (size align : Nat) (off : Int) :
    ∀ n < 9, checkB x s h need size align n off = true ↔ x.checkFails s h need size align n off := by
  intro n hn
  match n, hn with
  | 0, _ => simp [checkB, Issue.checkFails]
  | 1, _ => simp [checkB, Issue.checkFails]
  | 2, _ => simp [checkB, Issue.checkFails]
  | 3, _ => simp [checkB, Issue.checkFails]
  | 4, _ => simp [checkB, Issue.checkFails]
  | 5, _ => simp [checkB, Issue.checkFails]
  | 6, _ => simp [checkB, Issue.checkFails]
  | 7, _ =>
    cases hc : s.ctrlStream h with
    | none => simp [checkB, Issue.checkFails, hc]
    | some p =>
      obtain ⟨q, t⟩ := p
      simp only [checkB, Issue.checkFails, hc, Bool.and_eq_true, beq_iff_eq, Bool.not_eq_true', Option.some.injEq, Prod.mk.injEq]
      exact and_congr_right fun _ => ⟨fun h _ _ e => e.2 ▸ h, fun h => h q t ⟨rfl, rfl⟩⟩
  | 8, _ => simp [checkB, Issue.checkFails, Option.isSome_iff_ne_none]

/-- A 4-byte load through entry `e` in the lab changed by `g`: at offset `off` check `n` fails and none before it, and at offset 0 neither
does where `both` is set. -/
def failsAt (g : State → State) (e : BitVec 256) (n : Nat) (off : Int) (both : Bool) : Bool :=
  let s := g ((labWith (fun r => { r with h := [(4, 5)] }) id))
  let d := s.domain 0
  starts 0x184 (fd 8 4 6 0) (s.setDomain 0 { d with tdi := .run, handles := rset 0 d.handles 5 e }) (fun b =>
    let h := b.t.ropeHandle b.y.r 4
    let fails (k : Nat) (o : Int) : Bool := checkB b.y b.t h ⟨if n = 2 then [0] else [0, 1, 2, 3, 4], 1, .load⟩ 4 4 k o
    (List.range n).all (fun k => !fails k off && !fails k 0) && fails n off && (!both || !fails n 0))

/-- Each check of R179 and R222 fails first somewhere; those on the offset for one lane of two. -/
theorem wit_checks :
    failsAt id 0 0 0 false = true ∧ failsAt id (rwaEntry 0 0x20000 ||| BitVec.ofNat 256 (2 ^ 255)) 1 0 false = true ∧
    failsAt id (rwaEntry 1 0) 2 0 false = true ∧ failsAt id (BitVec.ofNat 256 (65536 * 2 ^ 64 + 2 ^ 128)) 3 0 false = true ∧
    failsAt id (rwaEntry 0 0x20000) 4 2 true = true ∧ failsAt id (rwaEntry 0 0x20000) 5 65536 true = true ∧
    failsAt id (rwaEntry 1 0) 6 65532 false = false ∧ failsAt id (rwaEntry 1 4096) 6 65532 true = true ∧
    failsAt (fun s => { s with streams := [(0, strm)] }) (rwaEntry 4 0) 7 0 false = true ∧
    failsAt (fun s => s.onRope 1 (fun r => { r with frame := some frameE })) (rwaEntry 1 0) 8 0 false = true := by decide +kernel

/-- An access that need not wait and whose handle names no entry. -/
def mayTrap (b : Begun) (a : Access) : Bool :=
  b.y.act != 0 && decide ((if a.ld then b.y.r.ldc else b.y.r.stc) < 63) && decide (b.t.logUsed b.y.c b.y.r.quad < 256) &&
  !b.t.fenced b.y.k b.y.r b.y.unit && (b.y.addrTrap b.t b.memHandle a.need a.sc a.size a.align a.els).isSome

theorem mayTrap_spec {b : Begun} {a : Access} (h : mayTrap b a = true) : ∃ q, b.y.act ≠ 0 ∧ (if a.ld then b.y.r.ldc else b.y.r.stc) < 63 ∧
    b.t.logUsed b.y.c b.y.r.quad < 256 ∧ b.t.fenced b.y.k b.y.r b.y.unit = false ∧
    b.y.addrTrap b.t b.memHandle a.need a.sc a.size a.align a.els = some q := by
  unfold mayTrap at h
  simp only [Bool.and_eq_true, bne_iff_ne, decide_eq_true_eq, Bool.not_eq_true'] at h
  obtain ⟨⟨⟨⟨h1, h2⟩, h3⟩, h4⟩, h5⟩ := h
  obtain ⟨q, hq⟩ := Option.isSome_iff_exists.1 h5
  exact ⟨q, h1, h2, h3, h4, hq⟩

theorem wit_trap_ldN8 : starts 0x180 (fd 8 4 6 0) (labMem 9) (fun b => mayTrap b ((fun b => ⟨⟨[0, 1, 2, 3], 1, .load⟩, .read, true, b.y.f.c.getLsbD 0, 1, 1,
    b.y.elems (b.y.f.c.getLsbD 0) (fun l => .load 1 false (b.y.f.c.getLsbD 0) b.y.f.d.toNat l), [], pb0⟩) b)) = true := by decide +kernel
theorem wit_trap_ldS8 : starts 0x181 (fd 8 4 6 0) (labMem 9) (fun b => mayTrap b ((fun b => ⟨⟨[0, 1, 2, 3], 1, .load⟩, .read, true, b.y.f.c.getLsbD 0, 1, 1,
    b.y.elems (b.y.f.c.getLsbD 0) (fun l => .load 1 true (b.y.f.c.getLsbD 0) b.y.f.d.toNat l), [], pb0⟩) b)) = true := by decide +kernel
theorem wit_trap_ldN16 : starts 0x182 (fd 8 4 6 0) (labMem 9) (fun b => mayTrap b ((fun b => ⟨⟨[0, 1, 2, 3], 1, .load⟩, .read, true, b.y.f.c.getLsbD 0, 2, 2,
    b.y.elems (b.y.f.c.getLsbD 0) (fun l => .load 2 false (b.y.f.c.getLsbD 0) b.y.f.d.toNat l), [], pb0⟩) b)) = true := by decide +kernel
theorem wit_trap_ldS16 : starts 0x183 (fd 8 4 6 0) (labMem 9) (fun b => mayTrap b ((fun b => ⟨⟨[0, 1, 2, 3], 1, .load⟩, .read, true, b.y.f.c.getLsbD 0, 2, 2,
    b.y.elems (b.y.f.c.getLsbD 0) (fun l => .load 2 true (b.y.f.c.getLsbD 0) b.y.f.d.toNat l), [], pb0⟩) b)) = true := by decide +kernel
theorem wit_trap_ldN32 : starts 0x184 (fd 8 4 6 0) (labMem 9) (fun b => mayTrap b ((fun b => ⟨⟨[0, 1, 2, 3, 4], 1, .load⟩, .read, true, b.y.f.c.getLsbD 0, 4, 4,
    b.y.elems (b.y.f.c.getLsbD 0) (fun l => .load 4 false (b.y.f.c.getLsbD 0) b.y.f.d.toNat l), [], pb0⟩) b)) = true := by decide +kernel
theorem wit_trap_ldN64 : starts 0x185 (fd 8 4 6 0) (labMem 9) (fun b => mayTrap b ((fun b => ⟨⟨[0, 1, 2, 3, 4], 1, .load⟩, .read, true, b.y.f.c.getLsbD 0, 8, 8,
    b.y.elems (b.y.f.c.getLsbD 0) (fun l => .load 8 false (b.y.f.c.getLsbD 0) b.y.f.d.toNat l), [], pb0⟩) b)) = true := by decide +kernel
theorem wit_trap_ldqN32 : starts 0x186 (fd 8 4 6 0) (labMem 9) (fun b => mayTrap b ((fun b => ⟨⟨[0, 1, 2, 3], 1, .load⟩, .read, true, b.y.f.c.getLsbD 0, 16, 16,
    b.y.elems (b.y.f.c.getLsbD 0) (fun l => .load 16 false (b.y.f.c.getLsbD 0) b.y.f.d.toNat l), [], pb0⟩) b)) = true := by decide +kernel
theorem wit_trap_stN8 : starts 0x188 (fd 8 4 6 0) (labMem 9) (fun b => mayTrap b ((fun b => ⟨⟨[0, 1, 2, 3], 2, .store⟩, .write, false, b.y.f.c.getLsbD 0, 1, 1,
    b.y.elems (b.y.f.c.getLsbD 0) (fun l => .store (storedBytes b.y (b.y.f.c.getLsbD 0) 1 l)), [], pb0⟩) b)) = true := by decide +kernel
theorem wit_trap_stN16 : starts 0x189 (fd 8 4 6 0) (labMem 9) (fun b => mayTrap b ((fun b => ⟨⟨[0, 1, 2, 3], 2, .store⟩, .write, false, b.y.f.c.getLsbD 0, 2, 2,
    b.y.elems (b.y.f.c.getLsbD 0) (fun l => .store (storedBytes b.y (b.y.f.c.getLsbD 0) 2 l)), [], pb0⟩) b)) = true := by decide +kernel
theorem wit_trap_stN32 : starts 0x18A (fd 8 4 6 0) (labMem 9) (fun b => mayTrap b ((fun b => ⟨⟨[0, 1, 2, 3, 4], 2, .store⟩, .write, false, b.y.f.c.getLsbD 0, 4, 4,
    b.y.elems (b.y.f.c.getLsbD 0) (fun l => .store (storedBytes b.y (b.y.f.c.getLsbD 0) 4 l)), [], pb0⟩) b)) = true := by decide +kernel
theorem wit_trap_stN64 : starts 0x18B (fd 8 4 6 0) (labMem 9) (fun b => mayTrap b ((fun b => ⟨⟨[0, 1, 2, 3, 4], 2, .store⟩, .write, false, b.y.f.c.getLsbD 0, 8, 8,
    b.y.elems (b.y.f.c.getLsbD 0) (fun l => .store (storedBytes b.y (b.y.f.c.getLsbD 0) 8 l)), [], pb0⟩) b)) = true := by decide +kernel
theorem wit_trap_stqN32 : starts 0x18C (fd 8 4 6 0) (labMem 9) (fun b => mayTrap b ((fun b => ⟨⟨[0, 1, 2, 3], 2, .store⟩, .write, false, b.y.f.c.getLsbD 0, 16, 16,
    b.y.elems (b.y.f.c.getLsbD 0) (fun l => .store (storedBytes b.y (b.y.f.c.getLsbD 0) 16 l)), [], pb0⟩) b)) = true := by decide +kernel
theorem wit_trap_atomAddN32 : starts 0x198 (fd 8 4 6 0) (labMem 9) (fun b => mayTrap b ((fun b => ⟨⟨[0, 1, 4], 11, .other⟩, .atomic, true, false, 4, 4,
    b.y.elems false (fun l => .atom .addN32 (b.y.atomArgs .addN32 l).1 (b.y.atomArgs .addN32 l).2 (some b.y.f.d.toNat) l), [], pb0⟩) b)) = true := by decide +kernel
theorem wit_trap_atomAddN64 : starts 0x199 (fd 8 4 6 0) (labMem 9) (fun b => mayTrap b ((fun b => ⟨⟨[0, 1, 4], 11, .addCasXchg⟩, .atomic, true, false, 8, 8,
    b.y.elems false (fun l => .atom .addN64 (b.y.atomArgs .addN64 l).1 (b.y.atomArgs .addN64 l).2 (some b.y.f.d.toNat) l), [], pb0⟩) b)) = true := by decide +kernel
theorem wit_trap_atomAddF32 : starts 0x19A (fd 8 4 6 0) (labMem 9) (fun b => mayTrap b ((fun b => ⟨⟨[0, 1], 11, .other⟩, .atomic, true, false, 4, 4,
    b.y.elems false (fun l => .atom .addF32 (b.y.atomArgs .addF32 l).1 (b.y.atomArgs .addF32 l).2 (some b.y.f.d.toNat) l), [], pb0⟩) b)) = true := by decide +kernel
theorem wit_trap_atomAdd2Bf16 : starts 0x19B (fd 8 4 6 0) (labMem 9) (fun b => mayTrap b ((fun b => ⟨⟨[0, 1], 11, .other⟩, .atomic, true, false, 4, 4,
    b.y.elems false (fun l => .atom .add2Bf16 (b.y.atomArgs .add2Bf16 l).1 (b.y.atomArgs .add2Bf16 l).2 (some b.y.f.d.toNat) l), [], pb0⟩) b)) = true := by decide +kernel
theorem wit_trap_atomMinS32 : starts 0x19C (fd 8 4 6 0) (labMem 9) (fun b => mayTrap b ((fun b => ⟨⟨[0, 1, 4], 11, .other⟩, .atomic, true, false, 4, 4,
    b.y.elems false (fun l => .atom .minS32 (b.y.atomArgs .minS32 l).1 (b.y.atomArgs .minS32 l).2 (some b.y.f.d.toNat) l), [], pb0⟩) b)) = true := by decide +kernel
theorem wit_trap_atomMinN32 : starts 0x19D (fd 8 4 6 0) (labMem 9) (fun b => mayTrap b ((fun b => ⟨⟨[0, 1, 4], 11, .other⟩, .atomic, true, false, 4, 4,
    b.y.elems false (fun l => .atom .minN32 (b.y.atomArgs .minN32 l).1 (b.y.atomArgs .minN32 l).2 (some b.y.f.d.toNat) l), [], pb0⟩) b)) = true := by decide +kernel
theorem wit_trap_atomMinF32 : starts 0x19E (fd 8 4 6 0) (labMem 9) (fun b => mayTrap b ((fun b => ⟨⟨[0, 1], 11, .other⟩, .atomic, true, false, 4, 4,
    b.y.elems false (fun l => .atom .minF32 (b.y.atomArgs .minF32 l).1 (b.y.atomArgs .minF32 l).2 (some b.y.f.d.toNat) l), [], pb0⟩) b)) = true := by decide +kernel
theorem wit_trap_atomMaxS32 : starts 0x19F (fd 8 4 6 0) (labMem 9) (fun b => mayTrap b ((fun b => ⟨⟨[0, 1, 4], 11, .other⟩, .atomic, true, false, 4, 4,
    b.y.elems false (fun l => .atom .maxS32 (b.y.atomArgs .maxS32 l).1 (b.y.atomArgs .maxS32 l).2 (some b.y.f.d.toNat) l), [], pb0⟩) b)) = true := by decide +kernel
theorem wit_trap_atomMaxN32 : starts 0x1A0 (fd 8 4 6 0) (labMem 9) (fun b => mayTrap b ((fun b => ⟨⟨[0, 1, 4], 11, .other⟩, .atomic, true, false, 4, 4,
    b.y.elems false (fun l => .atom .maxN32 (b.y.atomArgs .maxN32 l).1 (b.y.atomArgs .maxN32 l).2 (some b.y.f.d.toNat) l), [], pb0⟩) b)) = true := by decide +kernel
theorem wit_trap_atomMaxF32 : starts 0x1A1 (fd 8 4 6 0) (labMem 9) (fun b => mayTrap b ((fun b => ⟨⟨[0, 1], 11, .other⟩, .atomic, true, false, 4, 4,
    b.y.elems false (fun l => .atom .maxF32 (b.y.atomArgs .maxF32 l).1 (b.y.atomArgs .maxF32 l).2 (some b.y.f.d.toNat) l), [], pb0⟩) b)) = true := by decide +kernel
theorem wit_trap_atomAndN32 : starts 0x1A2 (fd 8 4 6 0) (labMem 9) (fun b => mayTrap b ((fun b => ⟨⟨[0, 1, 4], 11, .other⟩, .atomic, true, false, 4, 4,
    b.y.elems false (fun l => .atom .andN32 (b.y.atomArgs .andN32 l).1 (b.y.atomArgs .andN32 l).2 (some b.y.f.d.toNat) l), [], pb0⟩) b)) = true := by decide +kernel
theorem wit_trap_atomOrN32 : starts 0x1A3 (fd 8 4 6 0) (labMem 9) (fun b => mayTrap b ((fun b => ⟨⟨[0, 1, 4], 11, .other⟩, .atomic, true, false, 4, 4,
    b.y.elems false (fun l => .atom .orN32 (b.y.atomArgs .orN32 l).1 (b.y.atomArgs .orN32 l).2 (some b.y.f.d.toNat) l), [], pb0⟩) b)) = true := by decide +kernel
theorem wit_trap_atomXorN32 : starts 0x1A4 (fd 8 4 6 0) (labMem 9) (fun b => mayTrap b ((fun b => ⟨⟨[0, 1, 4], 11, .other⟩, .atomic, true, false, 4, 4,
    b.y.elems false (fun l => .atom .xorN32 (b.y.atomArgs .xorN32 l).1 (b.y.atomArgs .xorN32 l).2 (some b.y.f.d.toNat) l), [], pb0⟩) b)) = true := by decide +kernel
theorem wit_trap_atomIncN32 : starts 0x1A5 (fd 8 4 6 0) (labMem 9) (fun b => mayTrap b ((fun b => ⟨⟨[0, 1, 4], 11, .other⟩, .atomic, true, false, 4, 4,
    b.y.elems false (fun l => .atom .incN32 (b.y.atomArgs .incN32 l).1 (b.y.atomArgs .incN32 l).2 (some b.y.f.d.toNat) l), [], pb0⟩) b)) = true := by decide +kernel
theorem wit_trap_atomDecN32 : starts 0x1A6 (fd 8 4 6 0) (labMem 9) (fun b => mayTrap b ((fun b => ⟨⟨[0, 1, 4], 11, .other⟩, .atomic, true, false, 4, 4,
    b.y.elems false (fun l => .atom .decN32 (b.y.atomArgs .decN32 l).1 (b.y.atomArgs .decN32 l).2 (some b.y.f.d.toNat) l), [], pb0⟩) b)) = true := by decide +kernel
theorem wit_trap_atomCaddF32 : starts 0x1A7 (fd 8 4 6 0) (labMem 9) (fun b => mayTrap b ((fun b => ⟨⟨[0, 1], 11, .other⟩, .atomic, true, false, 8, 8,
    b.y.elems false (fun l => .atom .caddF32 (b.y.atomArgs .caddF32 l).1 (b.y.atomArgs .caddF32 l).2 (some b.y.f.d.toNat) l), [], pb0⟩) b)) = true := by decide +kernel
theorem wit_trap_atomXchgN32 : starts 0x1A8 (fd 8 4 6 0) (labMem 9) (fun b => mayTrap b ((fun b => ⟨⟨[0, 1, 4], 11, .other⟩, .atomic, true, false, 4, 4,
    b.y.elems false (fun l => .atom .xchgN32 (b.y.atomArgs .xchgN32 l).1 (b.y.atomArgs .xchgN32 l).2 (some b.y.f.d.toNat) l), [], pb0⟩) b)) = true := by decide +kernel
theorem wit_trap_atomXchgN64 : starts 0x1A9 (fd 8 4 6 0) (labMem 9) (fun b => mayTrap b ((fun b => ⟨⟨[0, 1, 4], 11, .addCasXchg⟩, .atomic, true, false, 8, 8,
    b.y.elems false (fun l => .atom .xchgN64 (b.y.atomArgs .xchgN64 l).1 (b.y.atomArgs .xchgN64 l).2 (some b.y.f.d.toNat) l), [], pb0⟩) b)) = true := by decide +kernel
theorem wit_trap_atomCasN32 : starts 0x1AA (fd 8 4 6 0) (labMem 9) (fun b => mayTrap b ((fun b => ⟨⟨[0, 1, 4], 11, .other⟩, .atomic, true, false, 4, 4,
    b.y.elems false (fun l => .atom .casN32 (b.y.atomArgs .casN32 l).1 (b.y.atomArgs .casN32 l).2 (some b.y.f.d.toNat) l), [], pb0⟩) b)) = true := by decide +kernel
theorem wit_trap_atomCasN64 : starts 0x1AB (fd 8 4 6 0) (labMem 9) (fun b => mayTrap b ((fun b => ⟨⟨[0, 1, 4], 11, .addCasXchg⟩, .atomic, true, false, 8, 8,
    b.y.elems false (fun l => .atom .casN64 (b.y.atomArgs .casN64 l).1 (b.y.atomArgs .casN64 l).2 (some b.y.f.d.toNat) l), [], pb0⟩) b)) = true := by decide +kernel
theorem wit_trap_redAddN32 : starts 0x1B0 (fd 8 4 6 0) (labMem 9) (fun b => mayTrap b ((fun b => ⟨⟨[0, 1, 4], 10, .other⟩, .atomic, false, false, 4, 4,
    b.y.elems false (fun l => .atom .addN32 (b.y.atomArgs .addN32 l).1 (b.y.atomArgs .addN32 l).2 none l), [], pb0⟩) b)) = true := by decide +kernel
theorem wit_trap_redAddN64 : starts 0x1B1 (fd 8 4 6 0) (labMem 9) (fun b => mayTrap b ((fun b => ⟨⟨[0, 1, 4], 10, .redAdd⟩, .atomic, false, false, 8, 8,
    b.y.elems false (fun l => .atom .addN64 (b.y.atomArgs .addN64 l).1 (b.y.atomArgs .addN64 l).2 none l), [], pb0⟩) b)) = true := by decide +kernel
theorem wit_trap_redAddF32 : starts 0x1B2 (fd 8 4 6 0) (labMem 9) (fun b => mayTrap b ((fun b => ⟨⟨[0, 1], 10, .other⟩, .atomic, false, false, 4, 4,
    b.y.elems false (fun l => .atom .addF32 (b.y.atomArgs .addF32 l).1 (b.y.atomArgs .addF32 l).2 none l), [], pb0⟩) b)) = true := by decide +kernel
theorem wit_trap_redAdd2Bf16 : starts 0x1B3 (fd 8 4 6 0) (labMem 9) (fun b => mayTrap b ((fun b => ⟨⟨[0, 1], 10, .other⟩, .atomic, false, false, 4, 4,
    b.y.elems false (fun l => .atom .add2Bf16 (b.y.atomArgs .add2Bf16 l).1 (b.y.atomArgs .add2Bf16 l).2 none l), [], pb0⟩) b)) = true := by decide +kernel
theorem wit_trap_redMinS32 : starts 0x1B4 (fd 8 4 6 0) (labMem 9) (fun b => mayTrap b ((fun b => ⟨⟨[0, 1, 4], 10, .other⟩, .atomic, false, false, 4, 4,
    b.y.elems false (fun l => .atom .minS32 (b.y.atomArgs .minS32 l).1 (b.y.atomArgs .minS32 l).2 none l), [], pb0⟩) b)) = true := by decide +kernel
theorem wit_trap_redMinN32 : starts 0x1B5 (fd 8 4 6 0) (labMem 9) (fun b => mayTrap b ((fun b => ⟨⟨[0, 1, 4], 10, .other⟩, .atomic, false, false, 4, 4,
    b.y.elems false (fun l => .atom .minN32 (b.y.atomArgs .minN32 l).1 (b.y.atomArgs .minN32 l).2 none l), [], pb0⟩) b)) = true := by decide +kernel
theorem wit_trap_redMinF32 : starts 0x1B6 (fd 8 4 6 0) (labMem 9) (fun b => mayTrap b ((fun b => ⟨⟨[0, 1], 10, .other⟩, .atomic, false, false, 4, 4,
    b.y.elems false (fun l => .atom .minF32 (b.y.atomArgs .minF32 l).1 (b.y.atomArgs .minF32 l).2 none l), [], pb0⟩) b)) = true := by decide +kernel
theorem wit_trap_redMaxS32 : starts 0x1B7 (fd 8 4 6 0) (labMem 9) (fun b => mayTrap b ((fun b => ⟨⟨[0, 1, 4], 10, .other⟩, .atomic, false, false, 4, 4,
    b.y.elems false (fun l => .atom .maxS32 (b.y.atomArgs .maxS32 l).1 (b.y.atomArgs .maxS32 l).2 none l), [], pb0⟩) b)) = true := by decide +kernel
theorem wit_trap_redMaxN32 : starts 0x1B8 (fd 8 4 6 0) (labMem 9) (fun b => mayTrap b ((fun b => ⟨⟨[0, 1, 4], 10, .other⟩, .atomic, false, false, 4, 4,
    b.y.elems false (fun l => .atom .maxN32 (b.y.atomArgs .maxN32 l).1 (b.y.atomArgs .maxN32 l).2 none l), [], pb0⟩) b)) = true := by decide +kernel
theorem wit_trap_redMaxF32 : starts 0x1B9 (fd 8 4 6 0) (labMem 9) (fun b => mayTrap b ((fun b => ⟨⟨[0, 1], 10, .other⟩, .atomic, false, false, 4, 4,
    b.y.elems false (fun l => .atom .maxF32 (b.y.atomArgs .maxF32 l).1 (b.y.atomArgs .maxF32 l).2 none l), [], pb0⟩) b)) = true := by decide +kernel
theorem wit_trap_redAndN32 : starts 0x1BA (fd 8 4 6 0) (labMem 9) (fun b => mayTrap b ((fun b => ⟨⟨[0, 1, 4], 10, .other⟩, .atomic, false, false, 4, 4,
    b.y.elems false (fun l => .atom .andN32 (b.y.atomArgs .andN32 l).1 (b.y.atomArgs .andN32 l).2 none l), [], pb0⟩) b)) = true := by decide +kernel
theorem wit_trap_redOrN32 : starts 0x1BB (fd 8 4 6 0) (labMem 9) (fun b => mayTrap b ((fun b => ⟨⟨[0, 1, 4], 10, .other⟩, .atomic, false, false, 4, 4,
    b.y.elems false (fun l => .atom .orN32 (b.y.atomArgs .orN32 l).1 (b.y.atomArgs .orN32 l).2 none l), [], pb0⟩) b)) = true := by decide +kernel
theorem wit_trap_redXorN32 : starts 0x1BC (fd 8 4 6 0) (labMem 9) (fun b => mayTrap b ((fun b => ⟨⟨[0, 1, 4], 10, .other⟩, .atomic, false, false, 4, 4,
    b.y.elems false (fun l => .atom .xorN32 (b.y.atomArgs .xorN32 l).1 (b.y.atomArgs .xorN32 l).2 none l), [], pb0⟩) b)) = true := by decide +kernel
theorem wit_trap_redIncN32 : starts 0x1BD (fd 8 4 6 0) (labMem 9) (fun b => mayTrap b ((fun b => ⟨⟨[0, 1, 4], 10, .other⟩, .atomic, false, false, 4, 4,
    b.y.elems false (fun l => .atom .incN32 (b.y.atomArgs .incN32 l).1 (b.y.atomArgs .incN32 l).2 none l), [], pb0⟩) b)) = true := by decide +kernel
theorem wit_trap_redDecN32 : starts 0x1BE (fd 8 4 6 0) (labMem 9) (fun b => mayTrap b ((fun b => ⟨⟨[0, 1, 4], 10, .other⟩, .atomic, false, false, 4, 4,
    b.y.elems false (fun l => .atom .decN32 (b.y.atomArgs .decN32 l).1 (b.y.atomArgs .decN32 l).2 none l), [], pb0⟩) b)) = true := by decide +kernel
theorem wit_trap_redCaddF32 : starts 0x1BF (fd 8 4 6 0) (labMem 9) (fun b => mayTrap b ((fun b => ⟨⟨[0, 1], 10, .other⟩, .atomic, false, false, 8, 8,
    b.y.elems false (fun l => .atom .caddF32 (b.y.atomArgs .caddF32 l).1 (b.y.atomArgs .caddF32 l).2 none l), [], pb0⟩) b)) = true := by decide +kernel
theorem wit_trap_tiles : ((labMem 9).begun 0x190 (fd 8 4 6 1) tilePb).any (fun b => mayTrap b ⟨⟨[0, 1], 1, .other⟩, .read, true, false, 4, 4,
      b.y.tileElems tilePb (fun k l => .load 4 false false ((fd 8 4 6 1).d.toNat + k) l), [], tilePb⟩) = true ∧
    ((labMem 9).begun 0x191 (fd 8 4 6 1) tilePb).any (fun b => mayTrap b ⟨⟨[0, 1], 2, .other⟩, .write, false, false, 4, 4,
      b.y.tileElems tilePb (fun k l => .store (leBytes 4 (b.y.r.vr ((fd 8 4 6 1).d.toNat + k) l).toNat)), [], tilePb⟩) = true := by decide +kernel

theorem wit_trap_waitv : starts 0x161 (fd 0 4 6 0) (labMem 9) (fun b => (b.y.r.monitorOf b.y.unit).isNone && b.y.act != 0 &&
    !b.t.fenced b.y.k b.y.r b.y.unit && decide (b.t.logUsed b.y.c b.y.r.quad < 256) &&
    !b.t.log.any (fun e => e.rope == b.y.k && e.unit == b.y.unit && e.pc == b.y.pc && e.isWaitv b.y.r) &&
    (b.y.addrTrap b.t (b.t.ropeHandle b.y.r 4) ⟨[0, 1, 4], 1, .load⟩ true 4 4 (b.y.elems true (fun l => .load 4 false true 0 l))).isSome) = true := by
  decide +kernel

/-! Slots. -/

/-- The lab with names 0 and 1 for two slots. -/
def labSlots (m p : MapSlot) : State :=
  { labWith id (fun w => { w with slotMap := [(0, 0), (1, 1)] }) with slots := [(0, m), (1, p)] }
/-- Fields with A and B mapped by names 0 and 1. -/
def mapAB : Fields := { mapF with mbe := true, mb := 1 }

/-- The cases of R139 for an application by A alone: no name, another domain's slot, its states, its successor's, a format of the wrong kind. -/
theorem wit_mapChecks :
    starts 0x000 mapF (labWith (fun r => { r with maps := 0 }) (fun w => { w with maps := 0 })) (fun b => b.y.f.mae && !b.y.f.mbe && (b.y.slotKey 0).isNone) = true ∧
    starts 0x000 mapF (labSlots { onesSlot with owner := 9 } onesSlot) (fun b => b.y.slotKey 0 == some 0 && (b.t.slot 0).owner != b.y.r.did) = true ∧
    ([.pending, .empty, .failed, .valid] : List SlotState).all (fun st => starts 0x000 mapF (labSlots { onesSlot with state := st } onesSlot) (fun b =>
      b.y.slotKey 0 == some 0 && (b.t.slot 0).owner == b.y.r.did && (b.t.slot 0).state == st && !(b.t.slot 0).succe)) = true ∧
    starts 0x000 mapF (labSlots { onesSlot with wfmt := 3 } onesSlot) (fun b => !wfmtInt (b.t.slot 0).wfmt && (b.t.slot 0).state == .valid) = true ∧
    (let chained : MapSlot := { onesSlot with succe := true, succ := 1 }
     starts 0x000 mapF (labSlots { chained with succ := 31 } onesSlot) (fun b => (b.t.slot 0).succe && (b.y.slotKey 31).isNone) &&
     ([{ onesSlot with owner := 9 }, { onesSlot with state := .pending }, { onesSlot with succe := true }, { onesSlot with wfmt := 3 }, onesSlot] : List MapSlot).all
       (fun p => starts 0x000 mapF (labSlots chained p) (fun b => b.y.slotKey (b.t.slot 0).succ == some 1 && b.t.slot 1 == p))) = true := by decide +kernel

/-- A and B: A fails at a step; B at a step at which A passes; at each step that can. -/
theorem wit_mapBoth :
    ([(labSlots { onesSlot with owner := 9 } onesSlot, 2, true), (labSlots onesSlot { onesSlot with owner := 9 }, 2, false),
      (labSlots onesSlot { onesSlot with state := .pending }, 3, false), (labSlots { onesSlot with state := .empty } onesSlot, 4, true),
      (labSlots { onesSlot with succe := true, succ := 31 } onesSlot, 5, true), (labSlots onesSlot { onesSlot with wfmt := 3 }, 6, false)] : List (State × Nat × Bool)).all
    (fun p => starts 0x000 mapAB p.1 (fun b => b.y.f.mae && b.y.f.mbe &&
      (let a (i : Nat) := (b.y.mapStep b.t i b.y.f.ma.toNat 0 true false).isNone
       let c (i : Nat) := (b.y.mapStep b.t i b.y.f.mb.toNat 0 true false).isNone
       (List.range p.2.1).all (fun i => i == 0 || a i && c i) && (if p.2.2 then !a p.2.1 else a p.2.1 && !c p.2.1)))) = true := by decide +kernel

/-- Instructions that a check of their maps stops: a trap and a wait, of an ALU form and of FACC. -/
theorem wit_StopsAtItsMaps :
    ([0x000, 0x080] : List Nat).all (fun op => ([(.empty, false), (.pending, true)] : List (SlotState × Bool)).all (fun p =>
      starts op mapF (labSlots { onesSlot with state := p.1 } onesSlot) (fun b =>
        match b.y.mapChecks b.t (rowOf b.m mapF b.m.aw) (rowOf b.m mapF b.m.bw) (!b.m.ty.isFloat) (!b.m.ty.isFloat) false with
        | some .wait => p.2 | some (.trap _) => !p.2 | _ => false))) = true ∧
    ([0x0A0, 0x0A4] : List Nat).all (fun op => ([(.empty, false), (.pending, true)] : List (SlotState × Bool)).all (fun p =>
      starts op mapF (labSlots { onesSlot with state := p.1 } onesSlot) (fun b =>
        match b.y.mapChecks b.t (dataRow .n4 false) (dataRow .n4 false) true false true with
        | some .wait => p.2 | some (.trap _) => !p.2 | _ => false))) = true := by decide +kernel

/-- MAPLD, MAPCLR and MAPQ of no name and of another domain's slot; with ACTIVE empty, of a slot that is PENDING and of one that is not. -/
theorem wit_slotTraps : ([0x100, 0x101, 0x102] : List Nat).all (fun op =>
    starts op (fd 0 0 0 1) (labWith (fun r => { r with maps := 0 }) (fun w => { w with maps := 0 })) (fun b => b.y.act != 0 &&
      !b.t.fenced b.y.k b.y.r b.y.unit && !b.t.mapldBehind b.y.k && (b.y.slotKey 0).isNone) &&
    starts op (fd 0 0 0 1) (labSlots { onesSlot with owner := 9 } onesSlot) (fun b => b.y.act != 0 &&
      !b.t.fenced b.y.k b.y.r b.y.unit && !b.t.mapldBehind b.y.k && b.y.slotKey 0 == some 0 && (b.t.slot 0).owner != b.y.r.did) &&
    starts op (fdOff 0 0 0 1) (labSlots { onesSlot with state := .pending } onesSlot) (fun b => b.y.act == 0 &&
      (match b.y.slotCheck b.t 0 with | .ok k => (b.t.slot k).state == .pending | .error _ => false) && b.y.slotWaits b.t 0) &&
    starts op (fdOff 0 0 0 1) lab (fun b => b.y.act == 0 && !b.y.slotWaits b.t 0)) = true := by decide +kernel

/-! Domains and gates. -/

/-- A token of another domain at SFQ.RD and WAITK; no share at an enqueue and a copy command; a gate frame at CPQ and the barriers. -/
theorem wit_domainTraps :
    starts 0x1CA (fd 8 4 0 0) (labEng ⟨.ready, 9, 15, [], []⟩) (fun b => (b.y.r.tok 4).state == .ready && (b.y.r.tok 4).did != b.y.r.did) = true ∧
    starts 0x1CB (fd 0 0 0x10 0) (labEng ⟨.ready, 9, 15, [], []⟩) (fun b => ((0 : BitVec 8) ++ (0x10 : BitVec 8)).getLsbD 4 && (b.y.r.tok 4).state == .ready &&
      (b.y.r.tok 4).did != b.y.r.did && b.y.r.outst.isEmpty) = true ∧
    (let s := (labEng ⟨.free, 0, 0, [], []⟩).setCore 0 (lab.core 0 |>.setDpe 3 0)
     ([0x1C0, 0x1C1, 0x1C2, 0x1C3, 0x1C4, 0x1C5, 0x1C6, 0x1C7, 0x1C8, 0x1C9] : List Nat).all (fun op =>
       starts op (fd 4 4 0 0) s (fun b => b.y.core.sfuShare b.y.r.dslot == 0)) &&
     starts 0x1D0 (fd 4 0 0x40 0) s (fun b => b.y.act != 0 && b.y.core.copyShare b.y.r.dslot == 0) &&
     (s.begun 0x1D1 (fdImm 1 2 4 6 9) ⟨0, 0, 64, 5⟩).any (fun b => b.y.act != 0 && b.y.core.copyShare b.y.r.dslot == 0)) = true ∧
    starts 0x1D2 (fd 8 0 7 0) labFrame (fun b => b.y.act != 0 && b.y.r.frame.isSome) = true ∧
    ([0x150, 0x151, 0x152, 0x153] : List Nat).all (fun op => starts op (fd 0 0 3 4) labFrame (fun b => b.y.r.frame.isSome)) = true := by decide +kernel

/-- `Issue.gateFails`, decided for checks 1 to 5. -/
def gateB (x : Issue) (s : State) (e : BitVec 512) (n : Nat) : Bool :=
  let field (lo w : Nat) : Nat := (e.extractLsb' lo w).toNat
  let barred (lo : Nat) : Bool := e.getLsbD (lo + 4) &&
    (let h := s.handle x.r.did x.r.asid (x.r.hr (field lo 4))
     h.ent.v == false || !([0, 2, 3] : List Nat).contains h.ent.space)
  match n with
  | 1 => x.r.frame.isSome || x.r.priv == .handler
  | 2 => !x.r.quiescent
  | 3 => !e.getLsbD 16 || ([(17, 15), (46, 2), (57, 7), (216, 8), (248, 8), (265, 7), (281, 7), (332, 180)] : List (Nat × Nat)).any (fun r => field r.1 r.2 != 0) ||
      decide (8 < field 32 4 ∨ 8 < field 36 4 ∨ field 40 6 = 0 ∨ 32 < field 40 6 ∨ 16 < field 48 4 + field 52 5) ||
      isFault (s.targetAt x.k x.unit (x.asCallee s e) (e.extractLsb' 64 64))
  | 4 => decide (x.r.regs < x.f.a.toNat + max (field 32 4) (field 36 4))
  | 5 => barred 256 || barred 272
  | _ => match x.core.slotOf (e.extractLsb' 0 16) with
    | none => true
    | some slot => decide (x.core.rfBytes slot < s.rfUsed x.c x.r.quad slot + 16 * 8 * field 40 6 * x.r.presentStrands)

theorem gateB_spec (x : Issue) (s : State) (e : BitVec 512) : ∀ n, 1 ≤ n → n ≤ 6 → (gateB x s e n = true ↔ x.gateFails s e n) := by
  intro n h1 h6
  have hf : ∀ r : FetchRes, isFault r = true ↔ ∃ q, r = .fault q := by intro r; cases r <;> simp [isFault]
  match n, h1, h6 with
  | 1, _, _ => simp [gateB, Issue.gateFails, Option.isSome_iff_ne_none]
  | 2, _, _ => simp [gateB, Issue.gateFails]
  | 3, _, _ => simp [gateB, Issue.gateFails, hf, or_assoc]
  | 4, _, _ => simp [gateB, Issue.gateFails]
  | 5, _, _ => simp [gateB, Issue.gateFails]
  | 6, _, _ => cases hs : x.core.slotOf (e.extractLsb' 0 16) <;> simp [gateB, Issue.gateFails, hs]

/-- A call of gate 6 with entry `e` in the lab changed: check `n` fails and none before it, and the call is refused so. -/
def gateAt (g : State → State) (e : BitVec 512) (n : Nat) : Bool :=
  let s := g labGate
  starts 0x1D8 (fd 0 4 6 0) (s.setDomain 0 { s.domain 0 with gates := rset 0 (s.domain 0).gates 6 e }) (fun b =>
    let e := rget 0 (b.t.domain b.y.r.did).gates 6
    (List.range n).all (fun k => k == 0 || !gateB b.y b.t e k) && gateB b.y b.t e n && b.y.gateRefusal b.t e == some n)

/-- Each reason of R230; an entry with none. -/
theorem wit_gateFails :
    gateAt (fun s => s.onRope 1 (fun r => { r with frame := some frameE })) gateE 1 = true ∧
    gateAt (fun s => s.onRope 1 (fun r => { r with strands := r.strands.map (fun t => if t.live then { t with active := 7, parked := 8 } else t) })) gateE 2 = true ∧
    gateAt id 0 3 = true ∧ gateAt (fun s => s.onRope 1 (fun r => { r with regs := 8 })) (gateE + BitVec.ofNat 512 (7 * 2 ^ 32)) 4 = true ∧
    gateAt (fun s => s.onRope 1 (fun r => { r with h := [(0, 9)] })) (gateE ||| BitVec.ofNat 512 (2 ^ 260)) 5 = true ∧ gateAt (fun s => s.setCore 0 ((s.core 0).setDpe 1 0)) gateE 6 = true ∧
    starts 0x1D8 (fd 0 4 6 0) labGate (fun b => [1, 2, 3, 4, 5, 6].all (fun n => !gateB b.y b.t (rget 0 (b.t.domain b.y.r.did).gates 6) n)) = true := by
  decide +kernel

/-- GRET outside a frame and where it is not quiescent; EXIT in a frame. -/
theorem wit_gateTraps :
    starts 0x1D9 (fd 0 0 0 0) lab (fun b => b.y.r.frame.isNone) = true ∧
    starts 0x1D9 (fd 0 0 0 0) (labFrame.onRope 1 (fun r => { r with strands := r.strands.map (fun t => if t.live then { t with active := 7, parked := 8 } else t) }))
      (fun b => b.y.r.frame == some frameE && !b.y.r.quiescent) = true ∧
    starts 0x14C (fd 0 0 0 0) labFrame (fun b => b.y.r.frame == some frameE) = true := by decide +kernel

/-! Translation. -/

/-- The lab with a table at IPA 0x70000 (frame 7) that holds `e` at its start. -/
def labTab (e : Nat) : State := { lab with stage2 := tset lab.stage2 7 ⟨7, false, false, 0⟩, mem := wrBytes lab.mem 0x70000 (leBytes 8 e) }

/-- A table word read: one without a stage-2 entry; each kind of entry at a level: invalid, reserved bits, a leaf at level 0, one of an address
that its size does not divide, a page, a table at level 3, one with rights, one not aligned, the next table. -/
theorem wit_walk : tget lab.stage2 7 = none ∧
    ([(0, 3), (1 + 2 ^ 52, 3), (3, 0), (3 + 256, 3), (7 + 0x20000, 3), (1, 3), (5, 2), (1 + 256, 1), (1 + 0x1000, 1)] : List (Nat × Nat)).all (fun p =>
      let s := labTab p.1
      (tget s.stage2 7 == some ⟨7, false, false, 0⟩) && !s.poisoned 0x70000 && decide (p.2 < 4 ∧ p.1 < 2 ^ 64) &&
        (match s.tableRead 0x70000 with | .ok e => e == p.1 | .error _ => false)) = true := by decide +kernel

/-- Translations that miss: no tables of the ASID; no entry; a right that the leaf lacks; a stage-2 entry that is missing, lacks the
right, has another key; another owner; and one that passes, of a writable and of another page. -/
theorem wit_translations :
    tget labWritable.roots 77 = none ∧ (tget labWritable.roots 0).isSome = true ∧
    ([(0x30000, 1), (0x40000, 1)] : List (Nat × Nat)).all (fun p => (match labWritable.stage1 0 p.1 with | .error r => r == p.2 | .ok _ => false) &&
      (labWritable.heldStage1 0 p.1).isNone) = true ∧
    (labWritable.heldStage1 0 0x20000 = none) ∧ (2 ^ 48 : Nat) ≤ 2 ^ 48 + 4 ∧
    (let ok (s : State) (h : Nat → Bool → Bool → Bool → Bool) : Bool := match s.stage1 0 0x20000 with | .ok (ipa, r, w, x) => h (ipa / 65536) r w x | .error _ => false
     ok labWritable (fun _ r w x => r && w && !x) && ok { labWritable with stage2 := [] } (fun _ _ _ _ => true) == false &&
     ok labWritable (fun n _ _ _ => (tget labWritable.stage2 n).any (fun e => e.w && e.key == 0 && (tget labWritable.owners e.frame).isNone)) &&
     ok labAlias (fun n _ _ _ => (tget labAlias.stage2 n).any (fun e => e.w && (tget labAlias.owners e.frame).any (fun o => o != (0, 2)))) &&
     ok { labWritable with stage2 := tset labWritable.stage2 9 ⟨9, false, false, 3⟩ } (fun n _ w _ => w && n == 9)) = true ∧
    (let t := targetOf 0
     !labWritable.refused t 0x20010 .write && (labWritable.l2Line t.asid 0x20010).isNone &&
       (match (labWritable.xlate t 0x20010 .write).1 with | .ok .. => true | _ => false) &&
       (let s := (labWritable.performLanes t [laneAt 0x20010]).1
        !s.refused t 0x20010 .write && (s.l2Line t.asid 0x20010).any (fun l => l.r && l.w))) = true := by decide +kernel

/-! Special registers, ticks, late results, copy waits. -/

/-- A core's number in its parts; a cycle that ends, of a resident rope and of one elsewhere. -/
theorem wit_tick : (0 : Nat) = 384 * 0 + 32 * 0 + 0 ∧ (lab.cycleOf 0).2 ≠ 2 ∧ lab.idleArrays 0 = [] ∧
    (((List.range 4).filter (lab.core 0).slotValid).map (lab.core 0).slotDid).Nodup ∧
    (tget lab.ropes 1).any (fun r => r.classMix.length == 4 && (tget lab.wgs r.wg).any (fun w => w.onCore 0 && !w.onCore 1)) = true := by decide +kernel

/-- A result in flight that issued before a load, and one that issued after it. -/
theorem wit_lateOver : ([⟨9, 1, [.vec 4 0 5], 1⟩, ⟨9, 1, [.scalar 4 5], 7⟩] : List Pend).all (fun p =>
    (labWith (fun r => { r with inflight := [p] }) id).ropes.any (fun e => e.2.inflight.contains p) && (decide (p.num ≤ 3) || decide (3 < p.num))) = true := by
  decide +kernel

/-- Lanes of two kinds of fault: a missing translation, an alias and a link. -/
theorem wit_leftClass : leftClass 1 = leftClass 4 ∧ leftClass 0 ≠ leftClass 1 ∧
    (let s : State := labLog { logE 0 .retry with lanes := [⟨0, 0x50000, .store [1, 2]⟩, ⟨1, 2 ^ 48, .store [1, 2]⟩, ⟨2, 0x10000, .store [1, 2]⟩] }
     (s.logged 3).any (fun e => (s.logFault e).any (fun z => leftClass z.1 == 0) && e.lanes.all (fun a => decide (a.lane < 32)))) = true := by decide +kernel

/-- A copy program's DONE to a word that its rope has stored to before it, and to a page that is not pinned. -/
theorem wit_copyDoneWaits :
    (let s : State := { labLog { logE 1 .ready with lanes := [laneAt 64] } with ctxs := [(0, ctxE)], curCtx := 0 }
     s.ctxs.any (fun (_, c) => (tget s.wgs c.wg).any (fun g => decide (64 + 4 ≤ g.scratchSize)) && !c.inFrame && s.log.any (fun l => l.rope == c.rope &&
       c.task.isNone && l.kind != 3 && decide (l.id < c.id) && l.lanes.any (fun x => s.storageLine (l.target s) x.addr == s.storageLine c.doneGoal 64)))) = true ∧
    (let s : State := { labWith id (fun w => { w with pinned := [] }) with ctxs := [(0, ctxE)], curCtx := 0 }
     s.ctxs.any (fun (_, c) => (tget s.wgs c.wg).any (fun g => decide (64 + 4 ≤ g.scratchSize) && !g.pinnedAt 64 4) && !c.inFrame)) = true ∧
    (let s : State := labCtx ctxE
     s.ctxs.any (fun (_, c) => !s.behindRope c c.doneGoal 64)) = true := by decide +kernel

/-- A live strand with lanes at the rope phase, ready only after its STALL; a rope that has not arrived at a barrier at which a strand
had. -/
theorem wit_phaseAfter :
    atRope labJoin (fun r => decide (r.strands.length ≤ 8) && r.strands.any (fun x => x.live && x.active != 0)) = true ∧
    atRope labCand (fun r => !(r.bar 0).arrived && (packedStrands [r]).all (fun p => decide (p.pos < 8))) = true := by decide +kernel

/-! Tasks that change tables, and fetches that fail. -/

/-- TGATE and TINVAL that may issue: to a domain that is not valid, which every policy refuses; a revocation, a stream and a handle. -/
theorem wit_tgate :
    ([taskE 12 .decoded, { taskE 12 .decoded with w := tw 2 0 0 0 0 0 0 0 }, { taskE 12 .decoded with w := tw 1 0 3 7 15 0 0 0 },
      { taskE 11 .decoded with w := tw 0 0x20000 0 65536 0 0 0 0 }, { taskE 11 .decoded with w := tw 1 0 0 0 0 0 0 0 }] : List Task).all (fun k =>
      (labW k).streams.any (fun e => e.2.canIssue k)) = true ∧
    ({ labW (taskE 12 .decoded) with domains := [] } : State).domain 0 = { ({ labW (taskE 12 .decoded) with domains := [] } : State).domain 0 with valid := false } ∧
    ((labMem 3).handle 0 ((labMem 3).domain 0).asid 3).ent.v = true ∧ ((labMem 3).handle 0 ((labMem 3).domain 0).asid 7).ent.v = false ∧
    (tget (labW (taskE 12 .decoded)).streams (streamKey 0 0)).any (fun y => y.valid && decide (y.ringN < 2 ^ 40)) = true ∧
    (tget (labW (taskE 12 .decoded)).streams (streamKey 0 3)).all (fun y => !y.valid) = true ∧
    (labMem 3).pendingAt 0x20000 = false := by decide +kernel

/-- A prologue at a poisoned line, and at a clean one; a copy word on a page without a translation, on a poisoned line. -/
theorem wit_fetches :
    (let s : State := { labWith id (fun w => { w with pro := some 0 }) with images := [(7, ⟨0, [⟨8, 0x10000, 65536, []⟩], [0x10000], false, false, []⟩)] }
     let bad : State := { s with poison := [65536 / 128] }
     (tget bad.ropes 1).any (fun r => bad.proPoisoned 0 r && r.unitLanes 0 != 0) && (tget s.ropes 1).any (fun r => !s.proPoisoned 0 r)) = true ∧
    ((labStuck none).ctxs.any (fun (_, c) => c.next.isNone && ((labStuck none).copyFetchFault c).any (fun z => decide (z.2.1 < 16)))) = true ∧
    (let s := labWord true
     let bad : State := { s with poison := [6 * 65536 / 128] }
     bad.ctxs.any (fun (_, c) => c.next.isNone && (bad.copyFetchFault c).any (fun z => decide (16 ≤ z.2.1)))) = true := by decide +kernel

end Sys2Proof.Tests
end

section
/-! PROOFS. The logic instructions (R102) and the bit counts (R107): their elements are bit-vector operations on the 32-bit operands. -/

namespace Sys2Proof.Machine

/-! From the element of a mould to completion. -/

/-- An S1 instruction completes with every function that agrees with its element. -/
theorem completesWith_of_alu1 {i : Fields → Instr} {op : Nat} {elem g : Meta → CW → EV → ER}
    (hexec : ∀ f s, exec (i f) s = alu1 op f elem s) (hg : ∀ m c b, elem m c b = g m c b) : CompletesWith i op (resB g) := by
  obtain rfl : elem = g := funext fun m => funext fun c => funext (hg m c)
  intro f s b s1 extra ws hb hm hd
  rw [hexec]
  exact alu1_next hb hm hd

/-- An S2 instruction completes with every function that agrees with its element. -/
theorem completesWith_of_alu2 {i : Fields → Instr} {op : Nat} {elem g : Meta → CW → EV → EV → ER}
    (hexec : ∀ f s, exec (i f) s = alu2 op f elem s) (hg : ∀ m c a b, elem m c a b = g m c a b) :
    CompletesWith i op (resAB g) := by
  obtain rfl : elem = g := funext fun m => funext fun c => funext fun a => funext (hg m c a)
  intro f s b s1 extra ws hb hm hd
  rw [hexec]
  exact alu2_next hb hm hd

/-! Words and bits. -/

/-- The natural number the model computes with is that of the element's word. -/
theorem EV.nat_eq_toNat_word (w : Nat) (e : EV) : e.nat w = (e.word w).toNat := by
  simp [EV.nat, EV.word, wrapInt, BitVec.toNat_ofInt]

/-- A result given by a number is the result of the word with that number. -/
theorem ER.of_eq_erOf {w n : Nat} {v : BitVec w} (h : n = v.toNat) : ER.of n = erOf v := by
  rw [h]; rfl

theorem bitOf_eq_testBit (v n : Nat) : bitOf v n = v.testBit n := by
  simp [bitOf, Nat.testBit_eq_decide_div_mod_eq, beq_eq_decide]

/-! Logic (R102). -/

theorem andElem_eq (m : Meta) (c : CW) (a b : EV) : andElem m c a b = erOf (a.word 32 &&& b.word 32) :=
  ER.of_eq_erOf (by simp only [EV.nat_eq_toNat_word, BitVec.toNat_and])

theorem orElem_eq (m : Meta) (c : CW) (a b : EV) : orElem m c a b = erOf (a.word 32 ||| b.word 32) :=
  ER.of_eq_erOf (by simp only [EV.nat_eq_toNat_word, BitVec.toNat_or])

theorem xorElem_eq (m : Meta) (c : CW) (a b : EV) : xorElem m c a b = erOf (a.word 32 ^^^ b.word 32) :=
  ER.of_eq_erOf (by simp only [EV.nat_eq_toNat_word, BitVec.toNat_xor])

theorem andnElem_eq (m : Meta) (c : CW) (a b : EV) : andnElem m c a b = erOf (a.word 32 &&& ~~~(b.word 32)) :=
  ER.of_eq_erOf (by simp only [EV.nat_eq_toNat_word, BitVec.toNat_and, BitVec.toNat_not])

theorem notElem_eq (m : Meta) (c : CW) (b : EV) : notElem m c b = erOf (~~~(b.word 32)) :=
  ER.of_eq_erOf (by simp only [EV.nat_eq_toNat_word, BitVec.toNat_not])

/-- Settles O4: each element is the bit-vector operation on the two words, and the S1 and S2 moulds complete with their element. -/
theorem logicIsBitwise : Obligations.LogicIsBitwise := by
  unfold Obligations.LogicIsBitwise
  exact ⟨completesWith_of_alu2 (fun _ _ => rfl) andElem_eq, completesWith_of_alu2 (fun _ _ => rfl) orElem_eq,
    completesWith_of_alu2 (fun _ _ => rfl) xorElem_eq, completesWith_of_alu2 (fun _ _ => rfl) andnElem_eq,
    completesWith_of_alu1 (fun _ _ => rfl) notElem_eq⟩

/-! Bit counts (R107). -/

/-- The recursive count takes one bit off the low end; the positions above it are those of the halved number, moved up by one. -/
theorem popCount_eq_length_filter (n v : Nat) : popCount n v = ((List.range n).filter (fun k => v.testBit k)).length := by
  induction n generalizing v with
  | zero => rfl
  | succ n ih =>
    have hlow : v % 2 = (v.testBit 0).toNat := by rw [Nat.toNat_testBit, Nat.pow_zero, Nat.div_one]
    rw [popCount, ih, hlow, List.range_succ_eq_map, List.filter_cons, List.filter_map]
    cases v.testBit 0 <;> simp [Function.comp_def, Nat.testBit_succ, Nat.add_comm]

/-- The leading zeros of a word that is not 0 lie above its binary logarithm. -/
theorem toNat_clz_eq {w : Nat} (v : BitVec w) :
    v.clz.toNat = if v.toNat = 0 then w else w - 1 - v.toNat.log2 := by
  by_cases hv : v = 0#w
  · rw [BitVec.clz_eq_iff_eq_zero.mpr hv, hv]
    simp [Nat.mod_eq_of_lt Nat.lt_two_pow_self]
  · have hne : v.toNat ≠ 0 := fun h => hv (BitVec.eq_of_toNat_eq (by simpa using h))
    have hlt : v.clz.toNat < w := by
      simpa [BitVec.lt_def, Nat.mod_eq_of_lt Nat.lt_two_pow_self] using BitVec.clz_lt_iff_ne_zero.mpr hv
    have hlog : v.toNat.log2 = w - 1 - v.clz.toNat := by
      refine (Nat.log2_eq_iff hne).mpr ⟨BitVec.two_pow_sub_clz_le_toNat_of_ne_zero (by omega) hv, ?_⟩
      have := BitVec.toNat_lt_two_pow_sub_clz (x := v)
      rwa [show w - 1 - v.clz.toNat + 1 = w - v.clz.toNat by omega]
    rw [if_neg hne]
    omega

/-- The trailing zeros of a word count the positions below its first 1 bit, or all of them. -/
theorem toNat_ctz_eq {w : Nat} (v : BitVec w) :
    v.ctz.toNat = ((List.range w).find? (fun k => v.getLsbD k)).getD w := by
  by_cases hv : v = 0#w
  · rw [BitVec.ctz_eq_reverse_clz, BitVec.clz_eq_iff_eq_zero.mpr (BitVec.reverse_eq_zero_iff.mpr hv), hv,
      List.find?_eq_none.mpr (by simp)]
    simp [Nat.mod_eq_of_lt Nat.lt_two_pow_self]
  · have hlt : v.ctz.toNat < w := by
      simpa [BitVec.lt_def, Nat.mod_eq_of_lt Nat.lt_two_pow_self] using BitVec.ctz_lt_iff_ne_zero.mpr hv
    have hfind : (List.range w).find? (fun k => v.getLsbD k) = some v.ctz.toNat := by
      rw [List.find?_range_eq_some]
      exact ⟨BitVec.getLsbD_true_ctz_of_ne_zero hv, List.mem_range.mpr hlt,
        fun j hj => by simp [BitVec.getLsbD_false_of_lt_ctz hj]⟩
    rw [hfind, Option.getD_some]

/-- Adding up the powers of two at the 1 bits below `n` gives the low `n` bits. -/
theorem foldl_testBit_eq_mod (x n : Nat) :
    (List.range n).foldl (fun a k => if x.testBit k then a + 2 ^ k else a) 0 = x % 2 ^ n := by
  induction n with
  | zero => simp [Nat.mod_one]
  | succ n ih =>
    rw [List.range_succ, List.foldl_append, ih, Nat.mod_pow_succ, ← Nat.toNat_testBit]
    cases h : x.testBit n <;> simp [h]

theorem popcElem_eq (m : Meta) (c : CW) (b : EV) : popcElem m c b =
    erOf (BitVec.ofNat 32 ((List.range 32).filter (fun k => (b.word 32).getLsbD k)).length) := by
  refine ER.of_eq_erOf ?_
  have hle := List.length_filter_le (fun k => (b.word 32).getLsbD k) (List.range 32)
  rw [List.length_range] at hle
  rw [EV.nat_eq_toNat_word, popCount_eq_length_filter, BitVec.toNat_ofNat, Nat.mod_eq_of_lt (by omega)]
  rfl

theorem clzElem_eq (m : Meta) (c : CW) (b : EV) : clzElem m c b = erOf (b.word 32).clz :=
  ER.of_eq_erOf (by rw [EV.nat_eq_toNat_word, toNat_clz_eq])

theorem ctzElem_eq (m : Meta) (c : CW) (b : EV) : ctzElem m c b = erOf (b.word 32).reverse.clz := by
  rw [← BitVec.ctz_eq_reverse_clz]
  refine ER.of_eq_erOf ?_
  simp only [EV.nat_eq_toNat_word, bitOf_eq_testBit, BitVec.testBit_toNat, toNat_ctz_eq]

/-- Bit k of the reversed word is bit 31 - k of the word, so BREV adds up the bits of the reversed word. -/
theorem brevElem_eq (m : Meta) (c : CW) (b : EV) : brevElem m c b = erOf (b.word 32).reverse := by
  refine ER.of_eq_erOf ?_
  have hbit : ∀ k ∈ List.range 32, bitOf (b.nat 32) (31 - k) = (b.word 32).reverse.toNat.testBit k := by
    intro k hk
    rw [EV.nat_eq_toNat_word, bitOf_eq_testBit, BitVec.testBit_toNat, BitVec.testBit_toNat, BitVec.getLsbD_reverse,
      BitVec.getMsbD, decide_eq_true (List.mem_range.mp hk), Bool.true_and]
  calc _ = (List.range 32).foldl (fun a k => if (b.word 32).reverse.toNat.testBit k then a + 2 ^ k else a) 0 :=
        List.foldl_ext _ _ _ fun a k hk => by rw [hbit k hk]
    _ = (b.word 32).reverse.toNat := by rw [foldl_testBit_eq_mod, Nat.mod_eq_of_lt (BitVec.isLt _)]

/-- Settles O6: each element is a count of the operand's bits or their reversal, and the S1 mould completes with its element. -/
theorem bitCounts : Obligations.BitCounts := by
  unfold Obligations.BitCounts
  exact ⟨completesWith_of_alu1 (fun _ _ => rfl) popcElem_eq, completesWith_of_alu1 (fun _ _ => rfl) clzElem_eq,
    completesWith_of_alu1 (fun _ _ => rfl) ctzElem_eq, completesWith_of_alu1 (fun _ _ => rfl) brevElem_eq⟩

end Sys2Proof.Machine
end

section
/-! PROOFS. How an instruction ends in its destination: the moulds of the arithmetic instructions (R66, R67, R93, R111, R125). -/

namespace Sys2Proof.Machine

/-- An instruction that ends in its destination: once its maps apply, its body writes the result that `res` gives each lane into D
(R69, R124). -/
def EndsInD (i : Fields → Instr) (op : Nat) (res : Begun → Nat → ER) : Prop :=
  ∃ body : Fields → Issue → State → Act, (∀ f s, exec (i f) s = issue op f pb0 (body f) s) ∧
    ∀ (f : Fields) (s : State) (b : Begun) (s1 : State) (extra : Nat), s.begun op f pb0 = some b → b.mapped = some (s1, extra) →
      body f b.y b.t = b.y.writeD s1 b.m (res b) extra

/-- The fields of the issue and of its view are those of the instruction. -/
theorem begun_fields {s : State} {op : Nat} {f : Fields} {pb : PB} {b : Begun} (h : s.begun op f pb = some b) : b.y.f = b.x.f := by
  rw [(begun_op h).2.2.2, (begun_op h).2.1]

theorem EndsInD.completesWith {i : Fields → Instr} {op : Nat} {res : Begun → Nat → ER} (h : EndsInD i op res) :
    CompletesWith i op res := by
  obtain ⟨body, hexec, hbody⟩ := h
  intro f s b s1 extra ws hb hm hd
  rw [hexec]
  exact issue_go hb (by rw [hbody f s b s1 extra hb hm, writeD_dest s1 extra (begun_fields hb) hd])

/-- An instruction none of whose flags trap ends with its results (R124). -/
theorem finish_untrapped {b : Begun} {fl : Nat → Flags} (s : State) (cond : Nat → Bool) (ws : List RegWrite) (extra : Nat)
    (h : b.untrapped fl = true) : b.y.finish s fl cond ws extra = .go s (b.y.results fl cond ws) extra .fall :=
  if_neg (by simpa [Begun.untrapped, or_iff_not_imp_left] using h)

/-- The end of an arithmetic instruction with lanes in ACTIVE whose enabled flags trap (R51, R124). -/
theorem writeD_fpx {b : Begun} {res : Nat → ER} (s1 : State) (extra : Nat) (hf : b.y.f = b.x.f) (ha : b.y.act ≠ 0) {fl : Nat → Flags}
    (hfl : fl = fun l => if scalarForm b.x.f && (b.m.sig == .s1 || b.m.sig == .s2) then (res 0).fl else (res l).fl)
    (ht : b.y.fpxLanes fl ≠ 0) (hq : b.y.quiet 12 = false) :
    b.y.writeD s1 b.m res extra = .trap ⟨12, 0, b.y.fpxLanes fl, (b.y.fpxUnion fl).setWidth 32, 0, 0⟩ := by
  unfold Issue.writeD Issue.finish
  simp only [hf, ha, if_false]
  split
  · next hs =>
    obtain rfl : fl = fun _ => (res 0).fl := by rw [hfl]; simp only [hs, if_true]
    exact if_pos (by rw [hq, Bool.not_false, Bool.and_true]; exact bne_iff_ne.2 ht)
  · next hs =>
    obtain rfl : fl = fun l => (res l).fl := by rw [hfl]; simp only [hs, Bool.false_eq_true, if_false]
    exact if_pos (by rw [hq, Bool.not_false, Bool.and_true]; exact bne_iff_ne.2 ht)

theorem EndsInD.raisesFpx {i : Fields → Instr} {op : Nat} {res : Begun → Nat → ER} (h : EndsInD i op res) : RaisesFpx i op res := by
  obtain ⟨body, hexec, hbody⟩ := h
  intro f s b s1 extra hb hm ha fl ht hq
  rw [hexec]
  refine issue_trap hb ?_
  rw [hbody f s b s1 extra hb hm]
  exact writeD_fpx s1 extra (begun_fields hb) ha (by simp only [fl, (begun_op hb).2.1]) ht hq

/-! The moulds. -/

/-- An S2 instruction ends in D with every function that agrees with its element at its entry. -/
theorem endsInD_alu2 {i : Fields → Instr} {op : Nat} {elem g : Meta → CW → EV → EV → ER}
    (hexec : ∀ f s, exec (i f) s = alu2 op f elem s) (hg : ∀ m, metaOf op = some m → ∀ c a b, elem m c a b = g m c a b) :
    EndsInD i op (resAB g) := by
  refine ⟨_, hexec, fun f s b s1 extra hb hm => ?_⟩
  obtain rfl := (begun_op hb).2.1
  have hmeta := (begun_spec hb).2.1
  simp only [hmeta, mapped_ok hm, hg _ hmeta]
  rfl

/-- An S1 instruction ends in D with every function that agrees with its element at its entry. -/
theorem endsInD_alu1 {i : Fields → Instr} {op : Nat} {elem g : Meta → CW → EV → ER}
    (hexec : ∀ f s, exec (i f) s = alu1 op f elem s) (hg : ∀ m, metaOf op = some m → ∀ c b, elem m c b = g m c b) :
    EndsInD i op (resB g) := by
  refine ⟨_, hexec, fun f s b s1 extra hb hm => ?_⟩
  obtain rfl := (begun_op hb).2.1
  have hmeta := (begun_spec hb).2.1
  simp only [hmeta, mapped_ok hm, hg _ hmeta]
  rfl

/-- An S3 instruction ends in D with every function that agrees with its element at its entry. -/
theorem endsInD_alu3 {i : Fields → Instr} {op : Nat} {elem g : Meta → CW → EV → EV → EV → ER}
    (hexec : ∀ f s, exec (i f) s = alu3 op f elem s) (hg : ∀ m, metaOf op = some m → ∀ c a b d, elem m c a b d = g m c a b d) :
    EndsInD i op (resABC g) := by
  refine ⟨_, hexec, fun f s b s1 extra hb hm => ?_⟩
  obtain rfl := (begun_op hb).2.1
  have hmeta := (begun_spec hb).2.1
  simp only [hmeta, mapped_ok hm, hg _ hmeta]
  rfl

/-- A conversion ends in D with every function that agrees with its element at its entry. -/
theorem endsInD_aluCvt {i : Fields → Instr} {op : Nat} {elem g : Meta → CW → EV → ER}
    (hexec : ∀ f s, exec (i f) s = aluCvt op f elem s) (hg : ∀ m, metaOf op = some m → ∀ c b, elem m c b = g m c b) :
    EndsInD i op (resCvt g) := by
  refine ⟨_, hexec, fun f s b s1 extra hb hm => ?_⟩
  obtain rfl := (begun_op hb).2.1
  have hmeta := (begun_spec hb).2.1
  simp only [hmeta, mapped_ok hm, hg _ hmeta]
  rfl

/-! Words. -/

theorem wrapInt_eq_toNat_ofInt (w : Nat) (x : Int) : wrapInt w x = (BitVec.ofInt w x).toNat := by
  simp [wrapInt, BitVec.toNat_ofInt]

theorem wrapInt_lt (w : Nat) (x : Int) : wrapInt w x < 2 ^ w := by
  rw [wrapInt_eq_toNat_ofInt]; exact BitVec.isLt _

end Sys2Proof.Machine
end

section
/-! PROOFS. Integer arithmetic: sums, products, dot products, divisions and compares (R93, R96 to R101). -/

namespace Sys2Proof.Machine

/-- R93 as the model computes it is R93 as the statements give it. -/
theorem keepAs_eq_keptAs (t : Ty) (sat : Bool) (v : Int) : keepAs t sat v = keptAs t sat v := by
  have hrange : lowest t ≤ highest t := by
    cases t <;> decide
  change (if sat then (⟨wrapInt t.width (if v < lowest t then lowest t else if highest t < v then highest t else v), 0,
    decide ((if v < lowest t then lowest t else if highest t < v then highest t else v) ≠ v)⟩ : ER) else ER.of (wrapInt t.width v)) = _
  unfold keptAs ER.of
  simp only [wrapInt_eq_toNat_ofInt]
  by_cases hl : v < lowest t
  · simp [hl, hl.ne']
  · by_cases hh : highest t < v
    · simp [hl, hh, hh.ne]
    · simp [hl, hh]

theorem keepTy_eq_keptTy (m : Meta) (c : CW) : keepTy m c = keptTy m c := rfl

theorem keep_eq_kept (m : Meta) (c : CW) (v : Int) : keep m c v = kept m c v := by
  unfold keep kept
  rw [keepAs_eq_keptAs, keepTy_eq_keptTy]

theorem addElem_eq (m : Meta) (c : CW) (a b : EV) : addElem m c a b = kept m c (a.int + b.int) := keep_eq_kept ..
theorem subElem_eq (m : Meta) (c : CW) (a b : EV) : subElem m c a b = kept m c (a.int - b.int) := keep_eq_kept ..
theorem mulElem_eq (m : Meta) (c : CW) (a b : EV) : mulElem m c a b = kept m c (a.int * b.int) := keep_eq_kept ..
theorem madElem_eq (m : Meta) (c : CW) (a b d : EV) : madElem m c a b d = kept m c (a.int * b.int + d.int) := keep_eq_kept ..

theorem minElem_eq (m : Meta) (c : CW) (a b : EV) : minElem m c a b = kept m c (if a.int ≤ b.int then a.int else b.int) := by
  rw [minElem, keep_eq_kept, min_def]

theorem maxElem_eq (m : Meta) (c : CW) (a b : EV) : maxElem m c a b = kept m c (if a.int ≤ b.int then b.int else a.int) := by
  rw [maxElem, keep_eq_kept, max_def]

/-- IMULH keeps the high half of the double-width product. -/
theorem mulhElem_eq (m : Meta) (c : CW) (a b : EV) :
    mulhElem m c a b = erOf ((BitVec.ofInt (2 * m.ty.width) (a.int * b.int)).extractLsb' m.ty.width m.ty.width) := by
  refine ER.of_eq_erOf ?_
  have hlt := BitVec.isLt (BitVec.ofInt (2 * m.ty.width) (a.int * b.int))
  rw [wrapInt_eq_toNat_ofInt, BitVec.extractLsb'_toNat, Nat.shiftRight_eq_div_pow, Nat.mod_eq_of_lt]
  refine Nat.div_lt_of_lt_mul ?_
  rwa [← pow_add, ← two_mul]

theorem completesWith_add {i : Fields → Instr} {op : Nat} (h : ∀ f s, exec (i f) s = alu2 op f addElem s) :
    CompletesWith i op (resAB (fun m c a b => kept m c (a.int + b.int))) := completesWith_of_alu2 h addElem_eq
theorem completesWith_sub {i : Fields → Instr} {op : Nat} (h : ∀ f s, exec (i f) s = alu2 op f subElem s) :
    CompletesWith i op (resAB (fun m c a b => kept m c (a.int - b.int))) := completesWith_of_alu2 h subElem_eq
theorem completesWith_mul {i : Fields → Instr} {op : Nat} (h : ∀ f s, exec (i f) s = alu2 op f mulElem s) :
    CompletesWith i op (resAB (fun m c a b => kept m c (a.int * b.int))) := completesWith_of_alu2 h mulElem_eq
theorem completesWith_mad {i : Fields → Instr} {op : Nat} (h : ∀ f s, exec (i f) s = alu3 op f madElem s) :
    CompletesWith i op (resABC (fun m c a b d => kept m c (a.int * b.int + d.int))) :=
  (endsInD_alu3 h fun m _ => madElem_eq m).completesWith

/-- Settles O1: each element keeps the exact sum, product or extreme by R93, and the S2 and S3 moulds complete with their element. -/
theorem integerSumsKeepTheExactResult : Obligations.IntegerSumsKeepTheExactResult := by
  unfold Obligations.IntegerSumsKeepTheExactResult
  refine ⟨⟨?adds, ?subs, ?mins, ?maxs⟩, ?muls, ?mads, ?highs⟩
  case adds => refine ⟨?_, ?_, ?_, ?_, ?_, ?_, ?_, ?_⟩ <;> exact completesWith_add fun _ _ => rfl
  case subs => refine ⟨?_, ?_, ?_, ?_, ?_, ?_, ?_, ?_⟩ <;> exact completesWith_sub fun _ _ => rfl
  case mins => constructor <;> exact completesWith_of_alu2 (fun _ _ => rfl) minElem_eq
  case maxs => constructor <;> exact completesWith_of_alu2 (fun _ _ => rfl) maxElem_eq
  case muls => refine ⟨?_, ?_, ?_, ?_, ?_, ?_, ?_, ?_⟩ <;> exact completesWith_mul fun _ _ => rfl
  case mads => refine ⟨?_, ?_, ?_, ?_⟩ <;> exact completesWith_mad fun _ _ => rfl
  case highs => refine ⟨?_, ?_, ?_, ?_⟩ <;> exact completesWith_of_alu2 (fun _ _ => rfl) mulhElem_eq

/-! Dot products (R99). -/

/-- Adding up terms one by one from a start value adds their sum. -/
theorem foldl_add_eq_add_sum {α : Type} (g : α → Int) (l : List α) (a : Int) :
    l.foldl (fun t e => t + g e) a = a + (l.map g).sum := by
  induction l generalizing a with
  | nil => simp
  | cons e l ih => rw [List.foldl_cons, ih, List.map_cons, List.sum_cons, add_assoc]

/-- IDP ends in D with the accumulator plus the products, kept at 32 bits. -/
theorem endsInD_idp {i : Fields → Instr} {op : Nat} {t : Ty} (hexec : ∀ f s, exec (i f) s = idp op f s)
    (ht : ∀ m, metaOf op = some m → wideTy m.ty = t) :
    EndsInD i op (fun b l => keptAs t (b.x.f.cw b.m.ty).sat
      (((b.y.srcC b.m).at_ l 0).1.int + ((List.range (elemCount b.m b.x.f)).map (fun e =>
        ((b.y.srcA b.t b.m).at_ l e).1.int * ((b.y.srcBvec b.t b.m).at_ l e).1.int)).sum)) := by
  refine ⟨_, hexec, fun f s b s1 extra hb hm => ?_⟩
  have hmeta := (begun_spec hb).2.1
  simp only [hmeta, mapped_ok hm, (begun_op hb).2.1, foldl_add_eq_add_sum, keepAs_eq_keptAs, ht _ hmeta]

/-- Settles O2: the fold of the products is their sum added to the accumulator. -/
theorem dotProductsAccumulateInThirtyTwoBits : Obligations.DotProductsAccumulateInThirtyTwoBits := by
  unfold Obligations.DotProductsAccumulateInThirtyTwoBits
  exact ⟨(endsInD_idp (fun _ _ => rfl) (by rintro m ⟨⟩; rfl)).completesWith,
    (endsInD_idp (fun _ _ => rfl) (by rintro m ⟨⟩; rfl)).completesWith,
    (endsInD_idp (fun _ _ => rfl) (by rintro m ⟨⟩; rfl)).completesWith⟩

/-! Compares (R68, R101, R122). -/

theorem getLsbD_bitsOf (p : Nat → Bool) {k : Nat} (hk : k < 32) : (bitsOf p).getLsbD k = p k := by
  simp [bitsOf, BitVec.getLsbD, hk]

/-- The word that a set of lanes gives has the bits of the predicate. -/
theorem maskOf_eq_bitsOf (p : Nat → Bool) : maskOf p = bitsOf p := by
  have hfold : ((List.range 32).filter p).foldl (fun a l => a + 2 ^ l) 0 = (bitsOf p).toNat := by
    rw [List.foldl_filter, List.foldl_ext _ (fun a k => if (bitsOf p).toNat.testBit k then a + 2 ^ k else a)]
    · rw [foldl_testBit_eq_mod, Nat.mod_eq_of_lt (BitVec.isLt _)]
    · intro a k hk
      rw [BitVec.testBit_toNat, getLsbD_bitsOf p (List.mem_range.mp hk)]
  rw [maskOf, lanes32, hfold, BitVec.ofNat_toNat, BitVec.setWidth_eq]

theorem icond_eq_intCond (cc : Nat) (a b : Int) : icond cc a b = intCond cc a b := by
  unfold icond intCond
  split <;> simp [beq_eq_decide, bne, ge_iff_le, gt_iff_lt]

/-- A compare completes with every condition that agrees with its own (R68). -/
theorem comparesWith_of_aluCmp {i : Fields → Instr} {op : Nat} {c g : Nat → EV → EV → Bool × Flags}
    (hexec : ∀ f s, exec (i f) s = aluCmp op f c s) (hg : ∀ n < 8, ∀ a b, c n a b = g n a b) : ComparesWith i op g := by
  intro f s b s1 extra hb hm
  obtain rfl := (begun_op hb).2.1
  have hmeta := (begun_spec hb).2.1
  have hcc : b.x.f.d.toNat / 8 % 8 < 8 := Nat.mod_lt _ (by decide)
  refine ⟨fun ha => ?_, fun ha hq => ?_⟩
  all_goals
    rw [hexec]
    refine issue_go hb ?_
    simp only [hmeta, mapped_ok hm, hg _ hcc, ha, if_true, if_false]
  rw [maskOf_eq_bitsOf]
  exact finish_untrapped s1 _ _ extra hq

/-! Floating conditions (R122). -/

theorem fcond_eq_floatCond {cc : Nat} (hcc : cc < 8) (a b : FVal) : fcond cc a b = floatCond cc a b := by
  unfold fcond floatCond
  cases hn : (fisNan a || fisNan b)
  · interval_cases cc <;> simp
  · interval_cases cc <;> simp

/-- Settles O7: a compare writes the condition on the elements of A and B, which is that of the exact values. -/
theorem comparesWriteThePredicate : Obligations.ComparesWriteThePredicate := by
  unfold Obligations.ComparesWriteThePredicate
  have int (n : Nat) (a b : EV) : cmpElem n a b = (intCond n a.int b.int, 0) := by rw [cmpElem, icond_eq_intCond]
  have flt : ∀ n < 8, ∀ a b, fcmpElem n a b = floatCond n a.flt b.flt := fun _ hn a b => fcond_eq_floatCond hn a.flt b.flt
  refine ⟨?ints, ?floats⟩
  case ints => refine ⟨?_, ?_, ?_, ?_⟩ <;> exact comparesWith_of_aluCmp (fun _ _ => rfl) fun n _ => int n
  case floats => refine ⟨?_, ?_, ?_, ?_⟩ <;> exact comparesWith_of_aluCmp (fun _ _ => rfl) flt

/-! Divisions (R100). -/

/-- Whether a division's condition is enabled as a trap. -/
def DivCond.enabled (x : Issue) : DivCond → Bool
  | .none => false
  | .divz => x.set.getLsbD 12 && !x.quiet 10
  | .divovf => x.set.getLsbD 13 && !x.quiet 11

/-- The trap of a condition: 10 DIVZ, 11 DIVOVF. -/
def DivCond.cause : DivCond → Nat
  | .none => 0
  | .divz => 10
  | .divovf => 11

/-- A lane's trap is that of the condition of its division, where it is enabled. -/
theorem divTrap_eq {s : State} {op : Nat} {f : Fields} {b : Begun} (hb : s.begun op f pb0 = some b) (t : Ty) (l : Nat) :
    b.divTrap t l = if (divRem t (b.dividend l) (b.divisor l)).2.2.enabled b.y then (divRem t (b.dividend l) (b.divisor l)).2.2.cause
      else 0 := by
  have hset : b.x.set = b.y.set := by rw [(begun_spec hb).2.2.2.1]; rfl
  unfold Begun.divTrap divRem
  rw [hset]
  by_cases hz : b.divisor l = 0
  · simp [hz, DivCond.enabled, DivCond.cause]
  · change (if _ then _ else if (_ < lowest t ∨ highest t < _) ∧ _ then 11 else 0) = _
    rw [if_neg hz, if_neg hz]
    change _ = if DivCond.enabled b.y (if _ < lowest t ∨ highest t < _ then _ else _) then DivCond.cause (if _ < lowest t ∨ highest t < _ then _ else _) else 0
    by_cases ho : (b.dividend l).tdiv (b.divisor l) < lowest t ∨ highest t < (b.dividend l).tdiv (b.divisor l)
    · simp [ho, DivCond.enabled, DivCond.cause]
    · simp [ho, DivCond.enabled, DivCond.cause]

/-- An enabled condition is that of the lane's trap. -/
theorem enabled_iff_divTrap {s : State} {op : Nat} {f : Fields} {b : Begun} (hb : s.begun op f pb0 = some b) (t : Ty) (l : Nat) :
    (divRem t (b.dividend l) (b.divisor l)).2.2.enabled b.y = (b.divTrap t l != 0) := by
  rw [divTrap_eq hb]
  cases he : (divRem t (b.dividend l) (b.divisor l)).2.2.enabled b.y
  · rfl
  · cases hc : (divRem t (b.dividend l) (b.divisor l)).2.2
    · rw [hc] at he; cases he
    · rfl
    · rfl

/-- The result of a lane's division as the model computes it. -/
theorem divResult_eq_divided (t : Ty) (rem : Bool) (b : Begun) (l : Nat) :
    (⟨wrapInt t.width (if rem then (divRem t (b.dividend l) (b.divisor l)).2.1 else (divRem t (b.dividend l) (b.divisor l)).1), 0,
      (divRem t (b.dividend l) (b.divisor l)).2.2 != .none⟩ : ER) = divided t rem b l := by
  have hones : wrapInt t.width (2 ^ t.width - 1) = (BitVec.allOnes t.width).toNat := by
    have hpos : (1 : Int) ≤ 2 ^ t.width := one_le_pow₀ (by decide)
    rw [wrapInt, Int.emod_eq_of_lt (by omega) (by omega), BitVec.toNat_allOnes, show (2 : Int) ^ t.width = ((2 ^ t.width : Nat) : Int) by simp]
    omega
  unfold divided divRem
  by_cases hz : b.divisor l = 0
  · cases rem <;> simp [hz, hones, wrapInt_eq_toNat_ofInt]
  · simp only [hz, if_false]
    change _ = (⟨_, _, decide (_ < tyMin t ∨ tyMax t < _)⟩ : ER)
    by_cases ho : (b.dividend l).tdiv (b.divisor l) < tyMin t ∨ tyMax t < (b.dividend l).tdiv (b.divisor l)
    · simp [ho, wrapInt_eq_toNat_ofInt]
    · simp [ho, wrapInt_eq_toNat_ofInt]

/-- The body of a division, by the traps of its lanes. -/
def divBody (t : Ty) (rem : Bool) (b : Begun) : Act :=
  match b.y.active.find? (fun l => b.divTrap t l != 0) with
  | some l => .trap ⟨b.divTrap t l, 0, if scalarForm b.x.f then b.y.act
      else b.y.act &&& bitsOf (fun j => b.divTrap t j == b.divTrap t l), 0, 0, 0⟩
  | none => b.y.writeD b.t b.m (divided t rem b) 0

/-- The lanes with the condition of an enabled lane, as a division looks for them, are those with its trap. -/
theorem divLanes_eq {s : State} {op : Nat} {f : Fields} {b : Begun} (hb : s.begun op f pb0 = some b) {t : Ty} {l : Nat}
    (hl : b.divTrap t l ≠ 0) : (if (divRem t (b.dividend l) (b.divisor l)).2.2 = .divz then 10 else 11) = b.divTrap t l ∧
    (fun j => (divRem t (b.dividend j) (b.divisor j)).2.2 == (divRem t (b.dividend l) (b.divisor l)).2.2) =
      fun j => b.divTrap t j == b.divTrap t l := by
  have he : (divRem t (b.dividend l) (b.divisor l)).2.2.enabled b.y = true := by
    rw [enabled_iff_divTrap hb]; exact bne_iff_ne.2 hl
  refine ⟨?_, funext fun j => ?_⟩
  · rw [divTrap_eq hb, if_pos he]
    cases hc : (divRem t (b.dividend l) (b.divisor l)).2.2
    · rw [hc] at he; cases he
    · rfl
    · rfl
  · rw [divTrap_eq hb t j, divTrap_eq hb t l, if_pos he]
    generalize (divRem t (b.dividend l) (b.divisor l)).2.2 = c at he
    generalize (divRem t (b.dividend j) (b.divisor j)).2.2 = d
    by_cases hd : d = c
    · subst hd; rw [if_pos he]; simp
    · rw [beq_eq_false_iff_ne.2 hd]
      symm
      split
      · cases c <;> cases d <;> first | rfl | exact absurd rfl hd
      · cases c <;> first | rfl | cases he

/-- A division that starts runs its body. -/
theorem divide_eq (op : Nat) (rem : Bool) (t : Ty) (ht : ∀ m, metaOf op = some m → m.ty = t) :
    ∃ body : Fields → Issue → State → Act, (∀ f s, divide op rem f s = issue op f pb0 (body f) s) ∧
      ∀ (f : Fields) (s : State) (b : Begun), s.begun op f pb0 = some b → body f b.y b.t = divBody t rem b := by
  refine ⟨_, fun _ _ => rfl, fun f s b hb => ?_⟩
  obtain rfl := (begun_op hb).2.1
  have hmeta := (begun_spec hb).2.1
  obtain rfl := ht _ hmeta
  have hfind : (fun l => (divRem b.m.ty (b.dividend l) (b.divisor l)).2.2.enabled b.y) = fun l => b.divTrap b.m.ty l != 0 :=
    funext fun l => enabled_iff_divTrap hb _ l
  simp only [hmeta, divBody]
  rw [← hfind]
  split
  · next l hl =>
    have hl' : b.y.active.find? (fun l => (divRem b.m.ty (b.dividend l) (b.divisor l)).2.2.enabled b.y) = some l := hl
    rw [hl']
    rw [hfind] at hl'
    obtain ⟨hc, hm⟩ := divLanes_eq hb (by simpa using List.find?_some hl' : b.divTrap b.m.ty l ≠ 0)
    simp only []
    rw [← hm, ← hc, maskOf_eq_bitsOf]
    rfl
  · next hn =>
    have hn' : b.y.active.find? (fun l => (divRem b.m.ty (b.dividend l) (b.divisor l)).2.2.enabled b.y) = none := hn
    rw [hn', ← funext (divResult_eq_divided b.m.ty rem b)]
    rfl

/-- A division whose lanes have no enabled trap ends in D (R100). -/
theorem dividesWith_of_divide {i : Fields → Instr} {op : Nat} {t : Ty} {rem : Bool} (hexec : ∀ f s, exec (i f) s = divide op rem f s)
    (ht : ∀ m, metaOf op = some m → m.ty = t) : DividesWith i op t rem := by
  intro f s b ws hb hl hd
  obtain ⟨body, hrun, hbody⟩ := divide_eq op rem t ht
  rw [hexec, hrun]
  refine issue_go hb ?_
  rw [hbody f s b hb, divBody, List.find?_eq_none.2 (by simpa using hl)]
  exact writeD_dest b.t 0 (begun_fields hb) hd

/-- A division whose lowest lane with an enabled condition is known takes its trap (R100, R396). -/
theorem divisionTraps_of_divide {i : Fields → Instr} {op : Nat} {t : Ty} {rem : Bool} (hexec : ∀ f s, exec (i f) s = divide op rem f s)
    (ht : ∀ m, metaOf op = some m → m.ty = t) : DivisionTraps i op t := by
  intro f s b l hb hl
  obtain ⟨body, hrun, hbody⟩ := divide_eq op rem t ht
  rw [hexec, hrun]
  refine issue_trap hb ?_
  rw [hbody f s b hb, divBody, hl, (begun_op hb).2.1]

/-- Settles O3: the conditions of the lanes decide between the trap of the lowest enabled one and the results. -/
theorem divisionTruncatesOrTraps : Obligations.DivisionTruncatesOrTraps := by
  unfold Obligations.DivisionTruncatesOrTraps
  refine ⟨⟨?_, ?_, ?_, ?_, ?_, ?_, ?_, ?_⟩, ?_, ?_, ?_, ?_, ?_, ?_, ?_, ?_⟩
  iterate 8 exact dividesWith_of_divide (fun _ _ => rfl) (by rintro m ⟨⟩; rfl)
  all_goals exact divisionTraps_of_divide (fun _ _ => rfl) (by rintro m ⟨⟩; rfl)

end Sys2Proof.Machine
end

section
/-! PROOFS. Shifts, fields, moves and predicate moves (R103 to R106, R108 to R112). -/

namespace Sys2Proof.Machine

/-! Shifts (R106). -/

theorem EV.toNat_word_mod (b : EV) {v w : Nat} (h : v ≤ w) : (b.word w).toNat % 2 ^ v = (b.word v).toNat := by
  have hdvd : (2 : Int) ^ v ∣ 2 ^ w := pow_dvd_pow 2 h
  have hpos (n : Nat) : (0 : Int) ≤ b.int % 2 ^ n := Int.emod_nonneg _ (by positivity)
  rw [EV.word, EV.word, BitVec.toNat_ofInt, BitVec.toNat_ofInt]
  zify
  simp only [Nat.cast_pow, Nat.cast_ofNat, Int.toNat_of_nonneg (hpos _), Int.emod_emod_of_dvd _ hdvd]

theorem shiftCount_eq_countOf (b : EV) : shiftCount b = countOf b := by
  rw [shiftCount, countOf, EV.nat_eq_toNat_word]
  exact b.toNat_word_mod (v := 8) (by decide)

theorem shlElem_eq {m : Meta} (w : Nat) (hw : m.ty.width = w) (c : CW) (a b : EV) :
    shlElem m c a b = if w ≤ countOf b then erOf (0#w) else erOf (a.word w <<< countOf b) := by
  subst hw
  rw [shlElem, shiftCount_eq_countOf, EV.nat_eq_toNat_word]
  split
  · rfl
  · exact ER.of_eq_erOf (by rw [BitVec.toNat_shiftLeft, Nat.shiftLeft_eq])

theorem shrElem_eq {m : Meta} (w : Nat) (hw : m.ty.width = w) (c : CW) (a b : EV) :
    shrElem m c a b = if w ≤ countOf b then erOf (0#w) else erOf (a.word w >>> countOf b) := by
  subst hw
  rw [shrElem, shiftCount_eq_countOf, EV.nat_eq_toNat_word]
  split
  · rfl
  · exact ER.of_eq_erOf (by rw [BitVec.toNat_ushiftRight, Nat.shiftRight_eq_div_pow])

theorem toSigned_eq_toInt {w : Nat} (v : BitVec w) : toSigned w v.toNat = v.toInt := by
  rw [toSigned, bitOf_eq_testBit, BitVec.testBit_toNat, BitVec.toInt_eq_msb_cond, BitVec.msb_eq_getLsbD_last,
    Nat.cast_pow, Nat.cast_ofNat]

/-- A division by a power of two beyond the sign bit leaves the sign. -/
theorem toInt_div_min {w : Nat} (v : BitVec w) (n : Nat) : v.toInt / 2 ^ min n (w - 1) = v.toInt >>> n := by
  rw [Int.shiftRight_eq_div_pow]
  rcases Nat.le_total n (w - 1) with h | h
  · rw [min_eq_left h]; simp
  · have hpow : (2 : Int) ^ (w - 1) ≤ 2 ^ n := pow_le_pow_right₀ (by decide) h
    have hlo := v.le_toInt
    have hhi := v.toInt_lt
    have hsign : ∀ p : Int, 2 ^ (w - 1) ≤ p → v.toInt / p = if 0 ≤ v.toInt then 0 else -1 := by
      intro p hp
      have hp0 : 0 < p := lt_of_lt_of_le (by positivity) hp
      split
      · exact Int.ediv_eq_zero_of_lt ‹_› (by omega)
      · refine le_antisymm (Int.le_of_lt_add_one ((Int.ediv_lt_iff_lt_mul hp0).2 (by omega))) ((Int.le_ediv_iff_mul_le hp0).2 (by omega))
    rw [min_eq_right h, hsign _ le_rfl, Nat.cast_pow, Nat.cast_ofNat, hsign _ hpow]

theorem sarElem_eq {m : Meta} (w : Nat) (hw : m.ty.width = w) (c : CW) (a b : EV) :
    sarElem m c a b = erOf ((a.word w).sshiftRight (countOf b)) := by
  subst hw
  refine ER.of_eq_erOf ?_
  rw [shiftCount_eq_countOf, EV.nat_eq_toNat_word, toSigned_eq_toInt, wrapInt_eq_toNat_ofInt, toInt_div_min]
  rfl

theorem rolElem_eq (m : Meta) (c : CW) (a b : EV) : rolElem m c a b = erOf ((a.word 32).rotateLeft (countOf b % 32)) := by
  refine ER.of_eq_erOf ?_
  rw [shiftCount_eq_countOf, EV.nat_eq_toNat_word]
  have hn : countOf b % 32 < 32 := Nat.mod_lt _ (by decide)
  generalize countOf b % 32 = n at hn
  have hlow : (a.word 32).toNat / 2 ^ (32 - n) < 2 ^ n := by
    refine Nat.div_lt_of_lt_mul ?_
    rw [← pow_add, Nat.sub_add_cancel hn.le]
    exact BitVec.isLt _
  have hhigh : (a.word 32).toNat * 2 ^ n % 2 ^ 32 = (a.word 32).toNat % 2 ^ (32 - n) * 2 ^ n := by
    rw [← Nat.mul_mod_mul_right, ← pow_add, Nat.sub_add_cancel hn.le]
  rw [BitVec.toNat_rotateLeft, Nat.mod_eq_of_lt hn, Nat.shiftLeft_eq, Nat.shiftRight_eq_div_pow, hhigh, ← Nat.shiftLeft_eq,
    Nat.shiftLeft_add_eq_or_of_lt hlow]

/-! Fields (R108, R109). -/

theorem fieldOf_eq (b : EV) : fieldOf (b.nat 32) = (fieldPos b, fieldWid b) := by
  have hpos : b.nat 32 % 256 = fieldPos b := by
    rw [EV.nat_eq_toNat_word]; exact b.toNat_word_mod (v := 8) (by decide)
  have hwid : b.nat 32 / 256 % 256 = ((b.word 16).extractLsb' 8 8).toNat := by
    rw [EV.nat_eq_toNat_word, BitVec.extractLsb'_toNat, Nat.shiftRight_eq_div_pow, ← b.toNat_word_mod (v := 16) (w := 32) (by decide)]
    omega
  simp only [fieldOf, hpos, hwid, fieldWid]
  congr 1
  split <;> omega

theorem bfeElem_eq {m : Meta} (hw : m.dw = 32) (signed : Bool) (a b : EV) : bfeElem m signed a b =
    erOf (if signed then ((a.word 32).extractLsb' (fieldPos b) (fieldWid b)).signExtend 32
      else ((a.word 32).extractLsb' (fieldPos b) (fieldWid b)).setWidth 32) := by
  have hle : fieldWid b ≤ 32 := by unfold fieldWid; omega
  have hx : a.nat 32 / 2 ^ fieldPos b % 2 ^ fieldWid b = ((a.word 32).extractLsb' (fieldPos b) (fieldWid b)).toNat := by
    rw [EV.nat_eq_toNat_word, BitVec.extractLsb'_toNat, Nat.shiftRight_eq_div_pow]
  rw [bfeElem, fieldOf_eq]
  simp only [hx, hw, toSigned_eq_toInt]
  clear hx
  generalize (a.word 32).extractLsb' (fieldPos b) (fieldWid b) = x
  generalize fieldWid b = w at hle x
  by_cases h0 : w = 0
  · subst h0
    rw [if_pos rfl, BitVec.eq_nil x]
    cases signed <;> rfl
  · rw [if_neg h0]
    refine ER.of_eq_erOf ?_
    cases signed
    · simp [BitVec.toNat_setWidth, Nat.mod_eq_of_lt (lt_of_lt_of_le x.isLt (Nat.pow_le_pow_right (by decide) hle))]
    · simp only [if_true, wrapInt_eq_toNat_ofInt]; rfl

theorem bfeElem_signed {m : Meta} (hw : m.dw = 32) (a b : EV) :
    bfeElem m true a b = erOf (((a.word 32).extractLsb' (fieldPos b) (fieldWid b)).signExtend 32) := by
  rw [bfeElem_eq hw, if_pos rfl]

theorem bfeElem_unsigned {m : Meta} (hw : m.dw = 32) (a b : EV) :
    bfeElem m false a b = erOf (((a.word 32).extractLsb' (fieldPos b) (fieldWid b)).setWidth 32) := by
  rw [bfeElem_eq hw, if_neg Bool.false_ne_true]

/-- The bits of a value whose bits from `p` on, `w` of them, are replaced by those of `x`. -/
theorem testBit_putField (old x p w k : Nat) (hx : x < 2 ^ w) :
    (old % 2 ^ p + x * 2 ^ p + old / 2 ^ (p + w) * 2 ^ (p + w)).testBit k =
      if p ≤ k ∧ k < p + w then x.testBit (k - p) else old.testBit k := by
  have hsum : old % 2 ^ p + x * 2 ^ p + old / 2 ^ (p + w) * 2 ^ (p + w) = 2 ^ p * (2 ^ w * (old / 2 ^ (p + w)) + x) + old % 2 ^ p := by
    rw [pow_add]; ring
  rw [hsum, Nat.testBit_two_pow_mul_add _ (Nat.mod_lt _ (by positivity)), Nat.testBit_two_pow_mul_add _ hx]
  by_cases h1 : k < p
  · rw [if_pos h1, if_neg (by omega), Nat.testBit_mod_two_pow, decide_eq_true h1, Bool.true_and]
  · by_cases h2 : k < p + w
    · rw [if_neg h1, if_pos (by omega), if_pos (by omega)]
    · rw [if_neg h1, if_neg (by omega), if_neg (by omega), Nat.testBit_div_two_pow]
      congr 1; omega

theorem getLsbD_fieldMask (b : EV) {k : Nat} (hk : k < 32) :
    (fieldMask b).getLsbD k = decide (fieldPos b ≤ k ∧ k < fieldPos b + fieldWid b) := by
  rw [fieldMask, getLsbD_bitsOf _ hk, Bool.decide_and]

theorem bfiElem_eq (m : Meta) (c : CW) (a b d : EV) : bfiElem m c a b d =
    erOf ((d.word 32 &&& ~~~(fieldMask b)) ||| ((a.word 32 <<< fieldPos b) &&& fieldMask b)) := by
  have hw : fieldWid b = 0 ∨ fieldPos b + fieldWid b ≤ 32 := by unfold fieldWid; omega
  have hput : (if fieldWid b = 0 then ER.of (d.nat 32) else ER.of (d.nat 32 % 2 ^ fieldPos b + a.nat 32 % 2 ^ fieldWid b * 2 ^ fieldPos b +
      d.nat 32 / 2 ^ (fieldPos b + fieldWid b) * 2 ^ (fieldPos b + fieldWid b))) =
      ER.of (d.nat 32 % 2 ^ fieldPos b + a.nat 32 % 2 ^ fieldWid b * 2 ^ fieldPos b +
      d.nat 32 / 2 ^ (fieldPos b + fieldWid b) * 2 ^ (fieldPos b + fieldWid b)) := by
    split
    · next h0 => rw [h0, pow_zero, Nat.mod_one, zero_mul, Nat.add_zero, Nat.add_zero, Nat.mod_add_div']
    · rfl
  rw [bfiElem, fieldOf_eq]
  simp only []
  rw [hput]
  refine ER.of_eq_erOf (Nat.eq_of_testBit_eq fun k => ?_)
  rw [testBit_putField _ _ _ _ _ (Nat.mod_lt _ (by positivity))]
  simp only [EV.nat_eq_toNat_word, BitVec.testBit_toNat, BitVec.getLsbD_or, BitVec.getLsbD_and, BitVec.getLsbD_not, BitVec.getLsbD_shiftLeft,
    Nat.testBit_mod_two_pow]
  by_cases hk : k < 32
  · rw [getLsbD_fieldMask b hk]
    by_cases hf : fieldPos b ≤ k ∧ k < fieldPos b + fieldWid b
    · have hlt : k - fieldPos b < fieldWid b := by omega
      simp [hf, hk, hlt]
    · simp [hf, hk]
  · have : ∀ v : BitVec 32, v.getLsbD k = false := fun v => BitVec.getLsbD_of_ge v k (by omega)
    simp only [this, hk]
    rw [if_neg (by omega)]; simp

/-! Moves (R103, R110 to R112). -/

theorem movElem_eq {m : Meta} (w : Nat) (hw : m.dw = w) (c : CW) (b : EV) : movElem m c b = erOf (b.word w) := by
  subst hw
  exact ER.of_eq_erOf (EV.nat_eq_toNat_word _ _)

theorem leaElem_eq {m : Meta} (w : Nat) (hw : m.dw = w) (c : CW) (a b : EV) :
    leaElem m c a b = erOf (BitVec.ofInt w (a.int * 2 ^ (c.imm.toNat % 16) + b.int)) := by
  subst hw
  exact ER.of_eq_erOf (wrapInt_eq_toNat_ofInt _ _)

/-- Adding up the powers of two at the bits that a predicate gives is the word with those bits. -/
theorem foldl_pow_eq_bitsOf (p : Nat → Bool) :
    (List.range 32).foldl (fun a k => if p k then a + 2 ^ k else a) 0 = (bitsOf p).toNat := by
  rw [List.foldl_ext _ (fun a k => if (bitsOf p).toNat.testBit k then a + 2 ^ k else a), foldl_testBit_eq_mod,
    Nat.mod_eq_of_lt (BitVec.isLt _)]
  intro a k hk
  rw [BitVec.testBit_toNat, getLsbD_bitsOf p (List.mem_range.mp hk)]

theorem bits_single (v k : Nat) : bits v k k = (v.testBit k).toNat := by
  rw [bits, Nat.add_sub_cancel_left, pow_one, Nat.toNat_testBit]

theorem bitmixElem_eq (m : Meta) (c : CW) (a b d : EV) : bitmixElem m c a b d = erOf (bitsOf (fun k =>
    c.imm.getLsbD (((a.word 32).getLsbD k).toNat + 2 * ((b.word 32).getLsbD k).toNat + 4 * ((d.word 32).getLsbD k).toNat))) := by
  refine ER.of_eq_erOf ?_
  simp only [bits_single, bitOf_eq_testBit, EV.nat_eq_toNat_word, BitVec.testBit_toNat]
  exact foldl_pow_eq_bitsOf _

/-- A select ends in D with A or B by the predicate's bit (R111). -/
theorem endsInD_aluSel {i : Fields → Instr} {op : Nat} {w : Nat} (hexec : ∀ f s, exec (i f) s = aluSel op f s)
    (hw : ∀ m, metaOf op = some m → m.dw = w) : EndsInD i op (selected w) := by
  refine ⟨_, hexec, fun f s b s1 extra hb hm => ?_⟩
  obtain rfl := (begun_op hb).2.1
  have hmeta := (begun_spec hb).2.1
  obtain rfl := hw _ hmeta
  simp only [hmeta, mapped_ok hm, wrapInt_eq_toNat_ofInt]
  congr 1
  funext l
  unfold selected
  simp only [EV.word, apply_ite EV.int]

theorem plop_next {f : Fields} {s : State} {b : Begun} (hb : s.begun 0x01E f pb0 = some b) :
    exec (.plop f) s = .next (b.after b.t (if b.y.act = 0 then [] else [.pred (f.d.toNat % 8) b.y.act (bitsOf (fun l =>
      f.c.getLsbD (4 * ((b.y.r.pr f.a.toNat).getLsbD l).toNat + 2 * ((b.y.r.pr f.b.toNat).getLsbD l).toNat +
        ((b.y.r.pr (f.d.toNat / 8)).getLsbD l).toNat)))]) 0 .fall) := by
  rw [show exec (.plop f) s = execPlop f s from rfl, execPlop]
  exact issue_go hb (by rw [← maskOf_eq_bitsOf])

theorem prds_next {f : Fields} {s : State} {b : Begun} (hb : s.begun 0x01F f pb0 = some b) :
    exec (.prds f) s = .next (b.after b.t (if b.y.act = 0 then [] else [.scalar f.d.toNat (b.y.r.pr f.a.toNat &&& b.y.r.present)]) 0 .fall) := by
  rw [show exec (.prds f) s = execPrds f s from rfl, execPrds]
  exact issue_go hb rfl

theorem pwrs_next {f : Fields} {s : State} {b : Begun} (hb : s.begun 0x027 f pb0 = some b) :
    exec (.pwrs f) s = .next (b.after b.t (if b.y.act = 0 then [] else [.pred f.d.toNat b.y.act (b.y.r.sr f.a.toNat)]) 0 .fall) := by
  rw [show exec (.pwrs f) s = execPwrs f s from rfl, execPwrs]
  exact issue_go hb rfl

/-- Settles O5: the elements of shifts, fields, moves and BITMIX are bit-vector operations, and their moulds end in D; PLOP, PRDS and
PWRS write their one register. -/
theorem shiftsFieldsAndMoves : Obligations.ShiftsFieldsAndMoves := by
  unfold Obligations.ShiftsFieldsAndMoves
  refine ⟨⟨?_, ?_, ?_, ?_, ?_, ?_, ?_, ?_, ?_, ?_⟩, ⟨?_, ?_, ?_, ?_, ?_, ?_, ?_⟩, ?_, ?_, ?_⟩
  · exact (endsInD_alu2 (fun _ _ => rfl) (by rintro m ⟨⟩; exact shlElem_eq 32 rfl)).completesWith
  · exact (endsInD_alu2 (fun _ _ => rfl) (by rintro m ⟨⟩; exact shrElem_eq 32 rfl)).completesWith
  · exact (endsInD_alu2 (fun _ _ => rfl) (by rintro m ⟨⟩; exact sarElem_eq 32 rfl)).completesWith
  · exact completesWith_of_alu2 (fun _ _ => rfl) rolElem_eq
  · exact (endsInD_alu2 (fun _ _ => rfl) (by rintro m ⟨⟩; exact shlElem_eq 64 rfl)).completesWith
  · exact (endsInD_alu2 (fun _ _ => rfl) (by rintro m ⟨⟩; exact shrElem_eq 64 rfl)).completesWith
  · exact (endsInD_alu2 (fun _ _ => rfl) (by rintro m ⟨⟩; exact sarElem_eq 64 rfl)).completesWith
  · exact (endsInD_alu2 (elem := fun m _ => bfeElem m true) (fun _ _ => rfl) (by rintro m ⟨⟩ c; exact bfeElem_signed rfl)).completesWith
  · exact (endsInD_alu2 (elem := fun m _ => bfeElem m false) (fun _ _ => rfl) (by rintro m ⟨⟩ c; exact bfeElem_unsigned rfl)).completesWith
  · exact (endsInD_alu3 (fun _ _ => rfl) fun m _ => bfiElem_eq m).completesWith
  · exact (endsInD_alu1 (fun _ _ => rfl) (by rintro m ⟨⟩; exact movElem_eq 32 rfl)).completesWith
  · exact (endsInD_alu1 (fun _ _ => rfl) (by rintro m ⟨⟩; exact movElem_eq 64 rfl)).completesWith
  · exact (endsInD_alu2 (fun _ _ => rfl) (by rintro m ⟨⟩; exact leaElem_eq 32 rfl)).completesWith
  · exact (endsInD_alu2 (fun _ _ => rfl) (by rintro m ⟨⟩; exact leaElem_eq 64 rfl)).completesWith
  · exact (endsInD_alu3 (fun _ _ => rfl) fun m _ => bitmixElem_eq m).completesWith
  · exact (endsInD_aluSel (fun _ _ => rfl) (by rintro m ⟨⟩; rfl)).completesWith
  · exact (endsInD_aluSel (fun _ _ => rfl) (by rintro m ⟨⟩; rfl)).completesWith
  · exact fun f s b hb => plop_next hb
  · exact fun f s b hb => prds_next hb
  · exact fun f s b hb => pwrs_next hb

end Sys2Proof.Machine
end

section
/-! PROOFS. Exact sums, products and comparisons of floating values are those of the numbers they stand for (R47, R121 to R123). -/

namespace Sys2Proof.Machine

/-- A number in units of a smaller power of two. -/
theorem natMul_zpow_of_le (m : Nat) {e q : Int} (h : q ≤ e) : ((m * 2 ^ (e - q).toNat : Nat) : ℚ) * 2 ^ q = m * 2 ^ e := by
  have he : (2 : ℚ) ^ e = 2 ^ (e - q).toNat * 2 ^ q := by
    rw [← zpow_natCast, Int.toNat_of_nonneg (by omega), ← zpow_add₀ (by norm_num), Int.sub_add_cancel]
  rw [he]; push_cast; ring

theorem ratOf_neg (s : Bool) (m : Nat) (e : Int) : ratOf (.fin (!s) m e) = -ratOf (.fin s m e) := by
  cases s <;> simp [ratOf]

/-- The exact signed sum stands for the sum of the numbers. -/
theorem ratOf_dySum (sa : Bool) (ma : Nat) (ea : Int) (sb : Bool) (mb : Nat) (eb : Int) :
    ((dySum sa ma ea sb mb eb).1 : ℚ) * 2 ^ (dySum sa ma ea sb mb eb).2 = ratOf (.fin sa ma ea) + ratOf (.fin sb mb eb) := by
  have ha := natMul_zpow_of_le ma (min_le_left ea eb)
  have hb := natMul_zpow_of_le mb (min_le_right ea eb)
  simp only [dySum, ratOf]
  push_cast at ha hb ⊢
  rw [add_mul]
  congr 1
  · cases sa <;> simp [ha]
  · cases sb <;> simp [hb]

theorem dySum_sub_pos_iff (sa : Bool) (ma : Nat) (ea : Int) (sb : Bool) (mb : Nat) (eb : Int) :
    (dySum sa ma ea (!sb) mb eb).1 < 0 ↔ ratOf (.fin sa ma ea) < ratOf (.fin sb mb eb) := by
  have h := ratOf_dySum sa ma ea (!sb) mb eb
  have hp : (0 : ℚ) < 2 ^ (dySum sa ma ea (!sb) mb eb).2 := by positivity
  rw [ratOf_neg] at h
  constructor
  · intro hlt
    have : ((dySum sa ma ea (!sb) mb eb).1 : ℚ) * 2 ^ (dySum sa ma ea (!sb) mb eb).2 < 0 :=
      mul_neg_of_neg_of_pos (by exact_mod_cast hlt) hp
    linarith
  · intro hlt
    have : ((dySum sa ma ea (!sb) mb eb).1 : ℚ) < 0 := by
      by_contra hn
      have := mul_nonneg (not_lt.1 hn) hp.le
      linarith
    exact_mod_cast this

theorem dySum_sub_eq_zero_iff (sa : Bool) (ma : Nat) (ea : Int) (sb : Bool) (mb : Nat) (eb : Int) :
    (dySum sa ma ea (!sb) mb eb).1 = 0 ↔ ratOf (.fin sa ma ea) = ratOf (.fin sb mb eb) := by
  have h := ratOf_dySum sa ma ea (!sb) mb eb
  have hp : (2 : ℚ) ^ (dySum sa ma ea (!sb) mb eb).2 ≠ 0 := by positivity
  rw [ratOf_neg, ← sub_eq_add_neg] at h
  rw [← sub_eq_zero (a := ratOf (.fin sa ma ea)), ← h, mul_eq_zero_iff_right hp, Int.cast_eq_zero]

theorem flt_fin_iff (sa : Bool) (ma : Nat) (ea : Int) (sb : Bool) (mb : Nat) (eb : Int) :
    flt (.fin sa ma ea) (.fin sb mb eb) = true ↔ ratOf (.fin sa ma ea) < ratOf (.fin sb mb eb) := by
  rw [← dySum_sub_pos_iff]; simp [flt]

theorem feq_fin_iff (sa : Bool) (ma : Nat) (ea : Int) (sb : Bool) (mb : Nat) (eb : Int) :
    feq (.fin sa ma ea) (.fin sb mb eb) = true ↔ ratOf (.fin sa ma ea) = ratOf (.fin sb mb eb) := by
  rw [← dySum_sub_eq_zero_iff]; simp [feq]

/-- Less-than orders the values that are no NaN by the numbers they stand for. -/
theorem flt_eq_belowVal {a b : FVal} (ha : fisNan a = false) (hb : fisNan b = false) : flt a b = belowVal a b := by
  match a, b with
  | .nan .., _ => cases ha
  | .inf _, .nan .. => cases hb
  | .fin .., .nan .. => cases hb
  | .inf _, .inf _ => rfl
  | .inf _, .fin .. => rfl
  | .fin .., .inf _ => rfl
  | .fin sa ma ea, .fin sb mb eb =>
    rw [Bool.eq_iff_iff, flt_fin_iff]; simp [belowVal]

/-- The table of R121. -/
theorem fminmax_eq_extremeOf (mx : Bool) (a b : FVal) : fminmax mx a b = extremeOf mx a b := by
  by_cases ha : fisNan a = true
  · cases a <;> cases ha
    cases b <;> rfl
  by_cases hb : fisNan b = true
  · cases b <;> cases hb
    cases a <;> first | rfl | exact absurd rfl ha
  rw [Bool.not_eq_true] at ha hb
  have habove := flt_eq_belowVal hb ha
  have hbelow := flt_eq_belowVal ha hb
  by_cases hz : (fisZero a && fisZero b) = true
  · match a, b with
    | .fin s 0 e, .fin t 0 d => simp [fminmax, extremeOf, fisNan, fisZero, fsign]
    | .fin s (m + 1) e, _ => simp [fisZero] at hz
    | .fin s 0 e, .fin t (n + 1) d => simp [fisZero] at hz
    | .fin s 0 e, .inf t => simp [fisZero] at hz
    | .fin s 0 e, .nan t g => simp [fisZero] at hz
    | .inf s, _ => simp [fisZero] at hz
    | .nan s g, _ => simp [fisZero] at hz
  · rw [fminmax, ha, hb, if_neg Bool.false_ne_true, if_neg Bool.false_ne_true, if_neg hz, habove, hbelow]
    match a, b with
    | .nan .., _ => cases ha
    | .inf _, .nan .. => cases hb
    | .fin .., .nan .. => cases hb
    | .inf _, .inf _ => rfl
    | .inf _, .fin .. => rfl
    | .fin _ 0 _, .inf _ => rfl
    | .fin _ (_ + 1) _, .inf _ => rfl
    | .fin _ 0 _, .fin _ 0 _ => exact absurd rfl hz
    | .fin _ 0 _, .fin _ (_ + 1) _ => rfl
    | .fin _ (_ + 1) _, .fin _ 0 _ => rfl
    | .fin _ (_ + 1) _, .fin _ (_ + 1) _ => rfl

/-- The position of a number's highest bit gives the power of two below it. -/
theorem log2_add_lt_iff (m : Nat) (hm : m ≠ 0) (e k : Int) : (m.log2 : Int) + e < k ↔ (m : ℚ) * 2 ^ e < 2 ^ k := by
  have hlo : (2 : ℚ) ^ ((m.log2 : Int) + e) ≤ m * 2 ^ e := by
    rw [zpow_add₀ (by norm_num), zpow_natCast]
    gcongr
    exact_mod_cast Nat.log2_self_le hm
  have hhi : (m : ℚ) * 2 ^ e < 2 ^ ((m.log2 : Int) + e + 1) := by
    rw [show (m.log2 : Int) + e + 1 = ((m.log2 + 1 : Nat) : Int) + e by push_cast; ring, zpow_add₀ (by norm_num), zpow_natCast]
    gcongr
    exact_mod_cast Nat.lt_log2_self
  constructor
  · intro h
    exact hhi.trans_le (zpow_le_zpow_right₀ (by norm_num) (by omega))
  · intro h
    by_contra hn
    exact absurd (hlo.trans_lt h) (not_lt.2 (zpow_le_zpow_right₀ (by norm_num) (by omega)))

theorem fclass_eq_two_pow_classBit {t : Ty} (ht : eMin t = leastNormal t) (v : FVal) : fclass t v = 2 ^ classBit t v := by
  match v with
  | .nan s _ => cases s <;> rfl
  | .inf s => cases s <;> rfl
  | .fin s 0 e => cases s <;> rfl
  | .fin s (m + 1) e =>
    simp only [fclass, classBit, Nat.succ_ne_zero, if_false, ht, log2_add_lt_iff (m + 1) (Nat.succ_ne_zero m) e]
    split <;> cases s <;> rfl

theorem classBit_lt (t : Ty) (v : FVal) : classBit t v < 64 := by
  unfold classBit
  (repeat' split) <;> decide

end Sys2Proof.Machine
end

section
/-! PROOFS. The floating instructions end in D with their results, or raise FPX (R115 to R124). -/

namespace Sys2Proof.Machine

theorem nanOr_eq_firstNan (a b : FVal) (r : FVal × Flags) : nanOr a b r = firstNan a b r := by
  cases a <;> cases b <;> rfl

theorem roundRes_eq_roundedIn (m : Meta) (c : CW) (r : FVal × Flags) : roundRes m c r = roundedIn (floatTy m c) c r := rfl

theorem faddElem_eq (m : Meta) (c : CW) (a b : EV) :
    faddElem m c a b = roundedIn (floatTy m c) c (firstNan a.flt b.flt (faddExact c.rm.toNat a.flt b.flt)) := by
  rw [faddElem, nanOr_eq_firstNan, roundRes_eq_roundedIn]

theorem fsubElem_eq (m : Meta) (c : CW) (a b : EV) :
    fsubElem m c a b = roundedIn (floatTy m c) c (firstNan a.flt b.flt (faddExact c.rm.toNat a.flt (fneg b.flt))) := by
  rw [fsubElem, nanOr_eq_firstNan, roundRes_eq_roundedIn]

theorem fmulElem_eq (m : Meta) (c : CW) (a b : EV) :
    fmulElem m c a b = roundedIn (floatTy m c) c (firstNan a.flt b.flt (fmulExact a.flt b.flt)) := by
  rw [fmulElem, nanOr_eq_firstNan, roundRes_eq_roundedIn]

theorem fminElem_eq (m : Meta) (c : CW) (a b : EV) :
    fminElem m c a b = roundedIn (floatTy m c) c (extremeOf false a.flt b.flt, 0) := by
  rw [fminElem, fminmax_eq_extremeOf, roundRes_eq_roundedIn]

theorem fmaxElem_eq (m : Meta) (c : CW) (a b : EV) :
    fmaxElem m c a b = roundedIn (floatTy m c) c (extremeOf true a.flt b.flt, 0) := by
  rw [fmaxElem, fminmax_eq_extremeOf, roundRes_eq_roundedIn]

theorem fclassElem_eq {m : Meta} (ht : eMin m.ty = leastNormal m.ty) (c : CW) (b : EV) :
    fclassElem m c b = erOf (BitVec.ofNat 64 (2 ^ classBit m.ty b.flt)) := by
  refine ER.of_eq_erOf ?_
  rw [fclass_eq_two_pow_classBit ht, BitVec.toNat_ofNat, Nat.mod_eq_of_lt (Nat.pow_lt_pow_right (by decide) (classBit_lt _ _))]

variable {i : Fields → Instr} {op : Nat}

theorem endsInD_fadd (h : ∀ f s, exec (i f) s = alu2 op f faddElem s) : EndsInD i op (resAB (fun m c a b =>
    roundedIn (floatTy m c) c (firstNan a.flt b.flt (faddExact c.rm.toNat a.flt b.flt)))) :=
  endsInD_alu2 h fun m _ => faddElem_eq m

theorem endsInD_fsub (h : ∀ f s, exec (i f) s = alu2 op f fsubElem s) : EndsInD i op (resAB (fun m c a b =>
    roundedIn (floatTy m c) c (firstNan a.flt b.flt (faddExact c.rm.toNat a.flt (fneg b.flt))))) :=
  endsInD_alu2 h fun m _ => fsubElem_eq m

theorem endsInD_fmul (h : ∀ f s, exec (i f) s = alu2 op f fmulElem s) : EndsInD i op (resAB (fun m c a b =>
    roundedIn (floatTy m c) c (firstNan a.flt b.flt (fmulExact a.flt b.flt)))) :=
  endsInD_alu2 h fun m _ => fmulElem_eq m

theorem endsInD_ffma (h : ∀ f s, exec (i f) s = alu3 op f ffmaElem s) : EndsInD i op (resABC (fun m c a b d =>
    roundedIn (floatTy m c) c (ffmaExact c.rm.toNat a.flt b.flt d.flt))) :=
  endsInD_alu3 h fun _ _ _ _ _ _ => rfl

theorem endsInD_fmin (h : ∀ f s, exec (i f) s = alu2 op f fminElem s) : EndsInD i op (resAB (fun m c a b =>
    roundedIn (floatTy m c) c (extremeOf false a.flt b.flt, 0))) :=
  endsInD_alu2 h fun m _ => fminElem_eq m

theorem endsInD_fmax (h : ∀ f s, exec (i f) s = alu2 op f fmaxElem s) : EndsInD i op (resAB (fun m c a b =>
    roundedIn (floatTy m c) c (extremeOf true a.flt b.flt, 0))) :=
  endsInD_alu2 h fun m _ => fmaxElem_eq m

theorem endsInD_fclass (h : ∀ f s, exec (i f) s = alu1 op f fclassElem s)
    (ht : ∀ m, metaOf op = some m → eMin m.ty = leastNormal m.ty) :
    EndsInD i op (resB (fun m _ b => erOf (BitVec.ofNat 64 (2 ^ classBit m.ty b.flt)))) :=
  endsInD_alu1 h fun m hm => fclassElem_eq (ht m hm)

end Sys2Proof.Machine
end

section
namespace Sys2Proof.Machine

/-- Settles O8: each element is the first NaN or the exact result, rounded once, and the moulds end in D. -/
theorem floatingSumsAndProductsRoundOnce : Obligations.FloatingSumsAndProductsRoundOnce := by
  unfold Obligations.FloatingSumsAndProductsRoundOnce
  refine ⟨?adds, ?subs, ?muls, ?fmas⟩
  case adds => refine ⟨?_, ?_, ?_, ?_⟩ <;> exact (endsInD_fadd fun _ _ => rfl).completesWith
  case subs => refine ⟨?_, ?_, ?_, ?_⟩ <;> exact (endsInD_fsub fun _ _ => rfl).completesWith
  case muls => refine ⟨?_, ?_, ?_, ?_⟩ <;> exact (endsInD_fmul fun _ _ => rfl).completesWith
  case fmas => refine ⟨?_, ?_, ?_, ?_⟩ <;> exact (endsInD_ffma fun _ _ => rfl).completesWith

/-- Settles O9: FMIN and FMAX choose by the table of R121, FCLASS gives the bit of the class, and the moulds end in D. -/
theorem floatingMinimumMaximumAndClass : Obligations.FloatingMinimumMaximumAndClass := by
  unfold Obligations.FloatingMinimumMaximumAndClass
  refine ⟨?mins, ?maxs, ?classes⟩
  case mins => refine ⟨?_, ?_, ?_, ?_⟩ <;> exact (endsInD_fmin fun _ _ => rfl).completesWith
  case maxs => refine ⟨?_, ?_, ?_, ?_⟩ <;> exact (endsInD_fmax fun _ _ => rfl).completesWith
  case classes => refine ⟨?_, ?_, ?_, ?_⟩ <;> exact (endsInD_fclass (fun _ _ => rfl) (by rintro m ⟨⟩; rfl)).completesWith

/-- Settles O10: an instruction that ends in D raises FPX before anything is written. -/
theorem enabledFlagsTrapBeforeAnythingIsWritten : Obligations.EnabledFlagsTrapBeforeAnythingIsWritten := by
  unfold Obligations.EnabledFlagsTrapBeforeAnythingIsWritten
  refine ⟨?adds, ?subs, ?muls, ?fmas, ?mins, ?maxs⟩
  case adds => refine ⟨?_, ?_, ?_, ?_⟩ <;> exact (endsInD_fadd fun _ _ => rfl).raisesFpx
  case subs => refine ⟨?_, ?_, ?_, ?_⟩ <;> exact (endsInD_fsub fun _ _ => rfl).raisesFpx
  case muls => refine ⟨?_, ?_, ?_, ?_⟩ <;> exact (endsInD_fmul fun _ _ => rfl).raisesFpx
  case fmas => refine ⟨?_, ?_, ?_, ?_⟩ <;> exact (endsInD_ffma fun _ _ => rfl).raisesFpx
  case mins => refine ⟨?_, ?_, ?_, ?_⟩ <;> exact (endsInD_fmin fun _ _ => rfl).raisesFpx
  case maxs => refine ⟨?_, ?_, ?_, ?_⟩ <;> exact (endsInD_fmax fun _ _ => rfl).raisesFpx

end Sys2Proof.Machine
end

section
/-! PROOFS. Conversions, packs and accumulations (R49, R120, R125 to R128). -/

namespace Sys2Proof.Machine

variable {i : Fields → Instr} {op : Nat}

/-! Conversions (R125 to R127). -/

theorem fToInt_eq_intOfFloat (t : Ty) (rm : Nat) (v : FVal) : ER.fl2 (fToInt t rm v) = intOfFloat t rm v := by
  match v with
  | .nan _ _ => rfl
  | .inf s =>
    change (⟨wrapInt t.width (if s then lowest t else highest t), flagIV, false⟩ : ER) = _
    rw [wrapInt_eq_toNat_ofInt]; rfl
  | .fin s m e =>
    have hrange : lowest t ≤ highest t := by cases t <;> decide
    simp only [fToInt, intOfFloat, ER.fl2]
    generalize (if s then -((roundAt rm s m e 0).1 : Int) else (roundAt rm s m e 0).1) = x
    simp only [wrapInt_eq_toNat_ofInt]
    change (⟨(if x < lowest t ∨ highest t < x then
      ((BitVec.ofInt t.width (if x < lowest t then lowest t else if highest t < x then highest t else x)).toNat, flagIV)
      else ((BitVec.ofInt t.width x).toNat, if (roundAt rm s m e 0).2 then flagNX else 0) : Nat × Flags).1, _, _⟩ : ER) = _
    by_cases hl : x < lowest t
    · rw [if_pos (.inl hl), if_pos hl, if_pos hl, if_pos (show x < tyMin t ∨ tyMax t < x from .inl hl)]
    · by_cases hh : highest t < x
      · rw [if_pos (.inr hh), if_neg hl, if_pos hh, if_neg hl, if_pos hh, if_pos (show x < tyMin t ∨ tyMax t < x from .inr hh)]
      · have hn : ¬(x < lowest t ∨ highest t < x) := by omega
        rw [if_neg hn, if_neg hl, if_neg hh, if_neg (show ¬(x < tyMin t ∨ tyMax t < x) from hn)]

theorem endsInD_toFloat {t : Ty} (h : ∀ f s, exec (i f) s = aluCvt op f (toFloat t) s) : EndsInD i op
    (resCvt (fun _ c b => ⟨(fround t c.rm.toNat c.sat b.flt).1, (fround t c.rm.toNat c.sat b.flt).2, false⟩)) :=
  endsInD_aluCvt h fun _ _ _ _ => rfl

theorem endsInD_toInt {t : Ty} (h : ∀ f s, exec (i f) s = aluCvt op f (toInt t) s) :
    EndsInD i op (resCvt (fun _ c b => intOfFloat t c.rm.toNat b.flt)) :=
  endsInD_aluCvt h fun _ _ _ _ => fToInt_eq_intOfFloat ..

theorem endsInD_frnd {t : Ty} (h : ∀ f s, exec (i f) s = aluCvt op f (frndElem t) s) :
    EndsInD i op (resCvt (fun _ c b => ⟨(fround t 0 false (fintegral c.rm.toNat b.flt)).1, 0, false⟩)) :=
  endsInD_aluCvt h fun _ _ _ _ => rfl

/-! Packs (R128). -/

theorem packElem_eq_convInto (t : Ty) (c : CW) (e : EV) : packElem t c e = convInto t c e := by
  unfold packElem convInto
  split
  · rfl
  · exact keepAs_eq_keptAs t c.sat e.int

theorem testBit_putElem (w p x old k : Nat) :
    (putElem w p x old).testBit k = if w * p ≤ k ∧ k < w * p + w then x.testBit (k - w * p) else old.testBit k := by
  rw [putElem, Nat.mul_succ, testBit_putField _ _ _ _ _ (Nat.mod_lt _ (by positivity))]
  split
  · next h => rw [Nat.testBit_mod_two_pow, decide_eq_true (by omega), Bool.true_and]
  · rfl

/-- The word that PACK leaves: two adjacent elements replaced under a mask. -/
def packedWord (w pos p q : Nat) (old : Word) : Word :=
  let mask : Word := ((BitVec.allOnes 32) >>> (32 - 2 * w)) <<< (2 * w * pos)
  (old &&& ~~~mask) ||| ((BitVec.ofNat 32 (p % 2 ^ w + q % 2 ^ w * 2 ^ w)) <<< (2 * w * pos))

/-- Two elements put one after the other are, in the low 32 bits, the two elements put under their mask. -/
theorem putElem_putElem_mod {w : Nat} (hw : 2 * w ≤ 32) (pos p q : Nat) (old : Word) :
    putElem w (2 * pos + 1) q (putElem w (2 * pos) p old.toNat) % 2 ^ 32 = (packedWord w pos p q old).toNat := by
  refine Nat.eq_of_testBit_eq fun k => ?_
  rw [Nat.testBit_mod_two_pow, BitVec.testBit_toNat]
  by_cases hk : k < 32
  swap
  · rw [decide_eq_false hk, BitVec.getLsbD_of_ge _ _ (by omega), Bool.false_and]
  have hpair : p % 2 ^ w + q % 2 ^ w * 2 ^ w = 2 ^ w * (q % 2 ^ w) + p % 2 ^ w := by ring
  have hat : 2 * w * pos = w * (2 * pos) := by ring
  simp only [packedWord, hk, decide_true, Bool.true_and, testBit_putElem, BitVec.testBit_toNat, BitVec.getLsbD_or, BitVec.getLsbD_and,
    BitVec.getLsbD_not, BitVec.getLsbD_shiftLeft, BitVec.getLsbD_ushiftRight, BitVec.getLsbD_allOnes, BitVec.getLsbD_ofNat, hpair,
    Nat.testBit_two_pow_mul_add _ (Nat.mod_lt p (Nat.two_pow_pos w)), Nat.testBit_mod_two_pow, hat, Nat.mul_succ]
  by_cases hlow : k < w * (2 * pos)
  · simp [hlow, show ¬w * (2 * pos) + w ≤ k by omega, show ¬w * (2 * pos) ≤ k by omega]
  · obtain ⟨j, rfl⟩ := Nat.exists_eq_add_of_le (not_lt.1 hlow)
    by_cases h1 : j < w
    · have h2 : 32 - 2 * w + j < 32 := by omega
      have h3 : j < 32 := by omega
      simp [h1, h2, h3]
    · by_cases h2 : j < 2 * w
      · have h3 : 32 - 2 * w + j < 32 := by omega
        have h4 : j < 32 := by omega
        have h5 : j - w < w := by omega
        have h6 : w * (2 * pos) + j - (w * (2 * pos) + w) = j - w := by omega
        simp [h1, h3, h4, h5, h6, show w ≤ j by omega, show j < w + w by omega,
          show ¬w * (2 * pos) + w + w ≤ w * (2 * pos) + j by omega]
      · have h3 : ¬32 - 2 * w + j < 32 := by omega
        have h5 : ¬j - w < w := by omega
        have h6 : ¬w * (2 * pos) + j < w * (2 * pos) + w + w := by omega
        simp [h1, h3, h5, h6]

/-- The end of an arithmetic instruction takes the low 32 bits of a result for a 32-bit destination. -/
theorem writeD_congr {x : Issue} {s : State} {m : Meta} {r q : Nat → ER} {extra : Nat} (hd : m.dw ≠ 64)
    (h : ∀ l, (r l).v % 2 ^ 32 = (q l).v % 2 ^ 32 ∧ (r l).fl = (q l).fl ∧ (r l).st = (q l).st) :
    x.writeD s m r extra = x.writeD s m q extra := by
  have hv (l : Nat) : BitVec.ofNat 32 (r l).v = BitVec.ofNat 32 (q l).v := BitVec.eq_of_toNat_eq (by simpa using (h l).1)
  have hfl (l : Nat) : (r l).fl = (q l).fl := (h l).2.1
  have hst (l : Nat) : (r l).st = (q l).st := (h l).2.2
  simp only [Issue.writeD, scaWrite, vecWrite, hd, if_false, hv, hfl, hst]

/-- PACK ends in D with two elements replaced (R128). -/
theorem endsInD_pack {t : Ty} (h : ∀ f s, exec (i f) s = pack op t f s) (hd : ∀ m, metaOf op = some m → m.dw ≠ 64)
    (ht : 2 * t.width ≤ 32) : EndsInD i op (packedInto t) := by
  refine ⟨_, h, fun f s b s1 extra hb hm => ?_⟩
  obtain rfl := (begun_op hb).2.1
  have hmeta := (begun_spec hb).2.1
  simp only [hmeta, mapped_ok hm, packElem_eq_convInto]
  refine writeD_congr (hd _ hmeta) fun l => ⟨?_, rfl, rfl⟩
  rw [putElem_putElem_mod ht, packedInto, Nat.mod_eq_of_lt (BitVec.isLt _)]
  rfl

/-- Settles O12: conversions round once into their format or clamp into their type, FRND rounds to an integral value, and PACK replaces
two elements under a mask. -/
theorem conversionsRoundOnce : Obligations.ConversionsRoundOnce := by
  unfold Obligations.ConversionsRoundOnce
  refine ⟨⟨?_, ?_, ?_, ?_, ?_, ?_, ?_, ?_, ?_, ?_, ?_, ?_, ?_, ?_, ?i1, ?i2, ?_, ?_, ?i3, ?i4, ?_, ?i5, ?r1, ?r2⟩, ?packs⟩
  case i1 | i2 | i3 | i4 | i5 => exact (endsInD_toInt fun _ _ => rfl).completesWith
  case r1 | r2 => exact (endsInD_frnd fun _ _ => rfl).completesWith
  case packs =>
    refine ⟨?_, ?_, ?_, ?_, ?_, ?_, ?_, ?_, ?_, ?_⟩ <;>
      exact (endsInD_pack (fun _ _ => rfl) (by rintro m ⟨⟩; decide) (by decide)).completesWith
  all_goals exact (endsInD_toFloat fun _ _ => rfl).completesWith

/-! Accumulations (R120). -/

/-- FACC completes with its positions added into its accumulators. -/
theorem accumulatesWith_of_facc {t : Ty} {n : Nat} (h : ∀ f s, exec (i f) s = facc op f s) (ht : faccTy op = t) (hn : faccCount op = n) :
    AccumulatesWith i op t n := by
  subst ht hn
  intro f s b s1 extra hb hm c out fl
  obtain rfl := (begun_op hb).2.1
  have hy := begun_fields hb
  refine ⟨fun ha => ?_, fun ha hq => ?_⟩
  all_goals
    rw [h]
    refine issue_go hb ?_
    simp only [hm, ha, if_true, if_false, nanOr_eq_firstNan]
  have hfl : fl = fun l => (List.range (faccCount op)).foldl (fun a e => a ||| (b.accumulated out c l e).fl) 0 :=
    funext fun l => List.foldl_map
  rw [hfl] at hq ⊢
  exact finish_untrapped s1 (fun _ => false) _ extra hq

/-- Settles O13: position e of the mapped operand is added into accumulator D + e. -/
theorem accumulatorsReceiveTheMappedPositions : Obligations.AccumulatorsReceiveTheMappedPositions := by
  unfold Obligations.AccumulatorsReceiveTheMappedPositions
  refine ⟨?_, ?_, ?_, ?_, ?_, ?_⟩ <;> exact accumulatesWith_of_facc (fun _ _ => rfl) rfl rfl

end Sys2Proof.Machine
end

section
/-! PROOFS. The reset state, the words the manual prints, and what a step runs (R361, R3). -/

namespace Sys2Proof.Machine

/-- Settles O54: every table of the reset state is empty, so every register and byte reads its default. -/
theorem whatAColdResetLeaves : Obligations.WhatAColdResetLeaves := by
  refine ⟨rfl, rfl, rfl, rfl, rfl, rfl, rfl, rfl, rfl, rfl, rfl, rfl, rfl, rfl, rfl, rfl, by decide, ?_, fun _ => rfl, rfl, rfl, rfl⟩
  exact fun c n => ⟨rfl, rfl, rfl⟩

/-- Settles O57: the decoder evaluated on each word. -/
theorem wordsDecodeToTheirInstructions : Obligations.WordsDecodeToTheirInstructions :=
  ⟨rfl, rfl, rfl, rfl, rfl, rfl, rfl, rfl, rfl, rfl⟩

/-! Whose turn it is (R3). -/

/-- A turn that the step itself ends leaves nothing to give back. -/
theorem yieldTurn_done {t : Turn} (h : t ≠ .choose) (s : State) : yieldTurn t (done s) = .next { s with turn := .choose } := by
  simp [yieldTurn, done, Ne.symm h]

theorem yieldTurn_same {t : Turn} {s : State} (h : s.turn = t) : yieldTurn t (.next s) = .next { s with turn := .choose } := by
  simp [yieldTurn, h]

variable {s : State}

theorem step_of_rope (h : s.turn = .rope) : step s = yieldTurn .rope s.runRope := by simp [step, h]

theorem step_of_copy (h : s.turn = .copy) : step s = yieldTurn .copy s.runCopy := by simp [step, h]

theorem step_of_stream (h : s.turn = .stream) : step s = yieldTurn .stream s.runStream := by simp [step, h]

theorem runRope_of_poisoned {r : Rope} (hr : tget s.ropes s.cur = some r) (hl : r.unitLanes s.curUnit ≠ 0)
    (hp : s.proPoisoned s.curUnit r = true) : s.runRope = done (s.fatalFor (s.domain r.did).part) := by
  simp only [State.runRope, hr, if_neg hl, hp, if_true]

section
variable {r : Rope} (hr : tget s.ropes s.cur = some r) (hl : r.unitLanes s.curUnit ≠ 0) (hp : s.proPoisoned s.curUnit r = false)
include hr hl hp

/-! A unit's turn by what its fetch comes to. -/

theorem runRope_of_instr {i : Instr} (hf : s.fetch s.cur s.curUnit r = .instr i) : s.runRope = exec i (s.fetchFill s.curUnit r) := by
  simp only [State.runRope, hr, if_neg hl, hp, Bool.false_eq_true, if_false, hf]

theorem runRope_of_trap {q : TrapReq} (hf : s.fetch s.cur s.curUnit r = .trap q) : s.runRope = .next (s.fetchRaise s.cur s.curUnit r q) := by
  simp only [State.runRope, hr, if_neg hl, hp, Bool.false_eq_true, if_false, hf]

theorem runRope_of_ask {reason va : Nat} (hf : s.fetch s.cur s.curUnit r = .ask reason va) :
    s.runRope = done (s.askFetch s.cur s.curUnit r reason va) := by
  simp only [State.runRope, hr, if_neg hl, hp, Bool.false_eq_true, if_false, hf]

theorem runRope_of_wait (hf : s.fetch s.cur s.curUnit r = .wait) : s.runRope = .next s := by
  simp only [State.runRope, hr, if_neg hl, hp, Bool.false_eq_true, if_false, hf]

end

theorem runCopy_of_own {c : CopyCtx} {i : Instr} (hc : tget s.ctxs s.curCtx = some c) (hn : c.next = some i) :
    s.runCopy = exec i s := by
  simp [State.runCopy, hc, hn]

/-- A copy context's turn whose word cannot be fetched. -/
theorem runCopy_of_fault {c : CopyCtx} {cause r va : Nat} (hc : tget s.ctxs s.curCtx = some c) (hn : c.next = none)
    (hf : s.copyFetchFault c = some (cause, r, va)) :
    s.runCopy = if 16 ≤ r then done (s.copyFault s.curCtx cause (r - 16) (BitVec.ofNat 64 va)) else .next s := by
  simp only [State.runCopy, hc, hn, hf]

theorem runCopy_of_word {c : CopyCtx} {i : Instr} (hc : tget s.ctxs s.curCtx = some c) (hn : c.next = none)
    (hf : s.copyFetchFault c = none) (hd : decodeCopy (s.copyWordAt c).1 (s.copyWordAt c).2 = .ok i) :
    s.runCopy = exec i (s.codeRead (s.domain c.did).asid c.pc.toNat (copyLen (s.copyWordAt c).1)) := by
  simp only [State.runCopy, hc, hn, hf, hd]

theorem runCopy_of_undecoded {c : CopyCtx} {e : DecodeErr} (hc : tget s.ctxs s.curCtx = some c) (hn : c.next = none)
    (hf : s.copyFetchFault c = none) (hd : decodeCopy (s.copyWordAt c).1 (s.copyWordAt c).2 = .error e) :
    s.runCopy = done (s.copyFault s.curCtx 1 1) := by
  simp only [State.runCopy, hc, hn, hf, hd]

theorem runStream_of_task {t : Stream} {i : Instr} (ht : tget s.streams s.curStream = some t) (hi : s.taskAt t = .ok i) :
    s.runStream = exec i s := by
  simp [State.runStream, ht, hi]

/-- Settles O56: the step is the agent's run with the turn given back, and each run is cut by what is fetched and decoded. -/
theorem aStepRunsTheDecodedInstruction : Obligations.AStepRunsTheDecodedInstruction := by
  refine ⟨fun s r ht hr hl => ⟨fun hp => ?_, fun hp => ⟨fun i hf hd => ?_, fun cause reason info off addr hf => ?_,
      fun reason va hf => ?_, fun hf => ?_, fun e hf hd => ?_⟩⟩,
    fun s c ht hc hn => ⟨fun i hf hd => ?_, fun cause reason va hf => ?_, fun e hf hd => ?_⟩,
    fun s c i ht hc hn => ?_, fun s t i ht hs hi => ?_, fun s i ht => ?_, fun s ht => ?_⟩
  · rw [step_of_rope ht, runRope_of_poisoned hr hl hp, yieldTurn_done (by simp)]
  · rw [step_of_rope ht, runRope_of_instr hr hl hp (by rw [State.fetch, hf, hd])]
    rfl
  · rw [step_of_rope ht, runRope_of_trap hr hl hp (by rw [State.fetch, hf])]
    rfl
  · rw [step_of_rope ht, runRope_of_ask hr hl hp (by rw [State.fetch, hf])]
    exact yieldTurn_done (by simp) _
  · rw [step_of_rope ht, runRope_of_wait hr hl hp (by rw [State.fetch, hf])]
    exact yieldTurn_same ht
  · rw [step_of_rope ht, runRope_of_trap hr hl hp (by rw [State.fetch, hf, hd])]
    rfl
  · rw [step_of_copy ht, runCopy_of_word hc hn hf hd]
    rfl
  · rw [step_of_copy ht, runCopy_of_fault hc hn hf]
    by_cases h : 16 ≤ reason
    · simp only [h, if_true]
      exact yieldTurn_done (by simp) _
    · simp only [h, if_false]
      exact yieldTurn_same ht
  · rw [step_of_copy ht, runCopy_of_undecoded hc hn hf hd]
    exact yieldTurn_done (by simp) _
  · rw [step_of_copy ht, runCopy_of_own hc hn]
    rfl
  · rw [step_of_stream ht, runStream_of_task hs hi]
    rfl
  · simp only [step, ht]
    rfl
  · simp [step, ht]

end Sys2Proof.Machine
end

section
/-! PROOFS. A magnitude is rounded to the multiple of a quantum that the mode chooses (R47). -/

namespace Sys2Proof.Machine

/-- A number in units of a smaller power of two. -/
theorem natMul_zpow_of_le_real (m : Nat) {e q : Int} (h : q ≤ e) : ((m * 2 ^ (e - q).toNat : Nat) : ℝ) * 2 ^ q = m * 2 ^ e := by
  have := congrArg (Rat.cast (K := ℝ)) (natMul_zpow_of_le m h)
  push_cast at this ⊢
  exact this

theorem dyLt_iff (a : Nat) (p : Int) (b : Nat) (q : Int) : dyLt a p b q = true ↔ (a : ℝ) * 2 ^ p < b * 2 ^ q := by
  rw [← natMul_zpow_of_le_real a (min_le_left p q), ← natMul_zpow_of_le_real b (min_le_right p q),
    mul_lt_mul_iff_left₀ (by positivity), Nat.cast_lt]
  simp [dyLt]

theorem log2_add_lt_iff_real (m : Nat) (hm : m ≠ 0) (e k : Int) : (m.log2 : Int) + e < k ↔ (m : ℝ) * 2 ^ e < 2 ^ k := by
  rw [log2_add_lt_iff m hm e k, ← Rat.cast_lt (K := ℝ)]
  push_cast
  rfl

/-- A number lies between the power of two of its highest bit and the next one. -/
theorem log2_add_eq (m : Nat) (hm : m ≠ 0) (e k : Int) (hlo : (2 : ℝ) ^ k ≤ m * 2 ^ e) (hhi : (m : ℝ) * 2 ^ e < 2 ^ (k + 1)) :
    (m.log2 : Int) + e = k := by
  have h1 := (log2_add_lt_iff_real m hm e (k + 1)).2 hhi
  have h2 := mt (log2_add_lt_iff_real m hm e k).1 (not_lt.2 hlo)
  omega

/-- The magnitude as a multiple of the quantum and a rest. -/
theorem div_mod_zpow (m : Nat) {e q : Int} (h : e < q) :
    (m : ℝ) * 2 ^ e = ((m / 2 ^ (q - e).toNat : Nat) + ((m % 2 ^ (q - e).toNat : Nat) : ℝ) / 2 ^ (q - e).toNat) * 2 ^ q := by
  have hk : (2 : ℝ) ^ q = 2 ^ (q - e).toNat * 2 ^ e := by
    rw [← zpow_natCast, Int.toNat_of_nonneg (by omega), ← zpow_add₀ (by norm_num), Int.sub_add_cancel]
  have hm : (m : ℝ) = (2 : ℝ) ^ (q - e).toNat * (m / 2 ^ (q - e).toNat : Nat) + (m % 2 ^ (q - e).toNat : Nat) := by
    exact_mod_cast (Nat.div_add_mod m (2 ^ (q - e).toNat)).symm
  rw [hk, add_mul, div_mul_eq_mul_div, mul_left_comm, mul_div_assoc, mul_div_cancel_left₀ _ (by positivity : (2 : ℝ) ^ (q - e).toNat ≠ 0)]
  nth_rw 1 [hm]
  ring

/-- A magnitude is rounded to itself where it is a multiple of the quantum. -/
theorem roundsTo_self (rm : Nat) (s : Bool) {q : ℝ} (hq : 0 < q) (n : Nat) : RoundsTo rm s (n * q) q n := by
  unfold RoundsTo
  split
  · simp only [sub_self, abs_zero]
    exact ⟨by positivity, fun h => by linarith⟩
  · split <;> constructor <;> linarith

/-- What the mode chooses between a multiple of the quantum and the next one, by the rest above it. -/
theorem roundsTo_of_rest {rm : Nat} (hrm : rm < 4) (s : Bool) {q : ℝ} (hq : 0 < q) (n k r : Nat) (h0 : r ≠ 0) (hr : r < 2 ^ k) :
    RoundsTo rm s ((n + (r : ℝ) / 2 ^ k) * q) q
      (if (match rm with
        | 0 => decide (2 ^ k < 2 * r) || (decide (2 ^ k = 2 * r) && n % 2 == 1)
        | 1 => false
        | 2 => !s
        | _ => s) then n + 1 else n) := by
  have hx0 : 0 < (r : ℝ) / 2 ^ k := by positivity
  have hx1 : (r : ℝ) / 2 ^ k < 1 := (div_lt_one (by positivity)).2 (by exact_mod_cast hr)
  have down : n * q ≤ (n + (r : ℝ) / 2 ^ k) * q ∧ (n + (r : ℝ) / 2 ^ k) * q < n * q + q := by constructor <;> nlinarith
  have up : ((n + 1 : Nat) : ℝ) * q < (n + (r : ℝ) / 2 ^ k) * q + q ∧ (n + (r : ℝ) / 2 ^ k) * q ≤ ((n + 1 : Nat) : ℝ) * q := by
    rw [Nat.cast_add_one]; constructor <;> nlinarith
  match rm, hrm with
  | 0, _ =>
    have half : (2 ^ k : ℝ) < 2 * r ↔ 1 / 2 < (r : ℝ) / 2 ^ k := by
      rw [lt_div_iff₀ (by positivity)]; constructor <;> intro h <;> linarith
    have halfEq : (2 ^ k : ℝ) = 2 * r ↔ (r : ℝ) / 2 ^ k = 1 / 2 := by
      rw [div_eq_iff (by positivity)]; constructor <;> intro h <;> linarith
    have hlt : 2 ^ k < 2 * r ↔ 1 / 2 < (r : ℝ) / 2 ^ k := by rw [← half]; exact_mod_cast Iff.rfl
    have heq : 2 ^ k = 2 * r ↔ (r : ℝ) / 2 ^ k = 1 / 2 := by rw [← halfEq]; exact_mod_cast Iff.rfl
    have below : |(n + (r : ℝ) / 2 ^ k) * q - n * q| = (r : ℝ) / 2 ^ k * q := by
      rw [add_mul, add_sub_cancel_left, abs_of_pos (by positivity)]
    have above : |(n + (r : ℝ) / 2 ^ k) * q - (n + 1 : Nat) * q| = (1 - (r : ℝ) / 2 ^ k) * q := by
      rw [abs_sub_comm, abs_of_nonneg (by push_cast; nlinarith)]; push_cast; ring
    simp only [RoundsTo, if_true]
    rcases lt_trichotomy ((r : ℝ) / 2 ^ k) (1 / 2) with h | h | h
    · have h1 : ¬2 ^ k < 2 * r := mt hlt.1 (by linarith)
      have h2 : ¬2 ^ k = 2 * r := mt heq.1 (by linarith)
      simp only [h1, h2, decide_false, Bool.false_and, Bool.or_false, Bool.false_eq_true, if_false, below]
      exact ⟨by nlinarith, fun he => absurd he (by nlinarith)⟩
    · have h1 : ¬2 ^ k < 2 * r := mt hlt.1 (by linarith)
      have h2 : 2 ^ k = 2 * r := heq.2 h
      by_cases hn : n % 2 = 1
      · simp only [h2, hn, lt_irrefl, decide_false, decide_true, beq_self_eq_true, Bool.and_self, Bool.or_true, if_true, above]
        exact ⟨by nlinarith, fun _ => Nat.succ_mod_two_eq_zero_iff.2 hn⟩
      · have hb : (n % 2 == 1) = false := by simpa using hn
        simp only [h2, hb, lt_irrefl, decide_false, decide_true, Bool.and_false, Bool.or_false, Bool.false_eq_true, if_false, below]
        exact ⟨by nlinarith, fun _ => by omega⟩
    · have h1 : 2 ^ k < 2 * r := hlt.2 h
      simp only [h1, decide_true, Bool.true_or, if_true, above]
      exact ⟨by nlinarith, fun he => absurd he (by nlinarith)⟩
  | 1, _ => simpa [RoundsTo] using down
  | 2, _ => cases s <;> [simpa [RoundsTo] using up; simpa [RoundsTo] using down]
  | 3, _ => cases s <;> [simpa [RoundsTo] using down; simpa [RoundsTo] using up]

/-- Neither a number nor its successor lies strictly between the two. -/
theorem next_ne_of_frac (b : Bool) (n : Nat) {x : ℝ} (h0 : 0 < x) (h1 : x < 1) : ((if b then n + 1 else n : Nat) : ℝ) ≠ n + x := by
  cases b
  · simpa using h0.ne'
  · simpa using h1.ne'

/-- `roundAt` gives the multiple that the mode chooses, and says whether it differs from the magnitude. -/
theorem roundAt_spec {rm : Nat} (hrm : rm < 4) (s : Bool) (m : Nat) (e q : Int) :
    RoundsTo rm s ((m : ℝ) * 2 ^ e) (2 ^ q) (roundAt rm s m e q).1 ∧
      ((roundAt rm s m e q).2 = true ↔ ((roundAt rm s m e q).1 : ℝ) * 2 ^ q ≠ (m : ℝ) * 2 ^ e) := by
  have hq : (0 : ℝ) < 2 ^ q := by positivity
  unfold roundAt
  by_cases h : q ≤ e
  · rw [if_pos h, ← natMul_zpow_of_le_real m h]
    exact ⟨roundsTo_self rm s hq _, by simp⟩
  · rw [if_neg h, div_mod_zpow m (not_le.1 h)]
    generalize hk : (q - e).toNat = k
    by_cases hr : m % 2 ^ k = 0
    · simp only [hr, if_true, Nat.cast_zero, zero_div, add_zero]
      exact ⟨roundsTo_self rm s hq _, by simp⟩
    · simp only [hr, if_false]
      have hlt := Nat.mod_lt m (Nat.two_pow_pos k)
      refine ⟨roundsTo_of_rest hrm s hq _ k _ hr hlt, iff_of_true trivial ?_⟩
      have hx0 : 0 < ((m % 2 ^ k : Nat) : ℝ) / 2 ^ k := by positivity
      have hx1 : ((m % 2 ^ k : Nat) : ℝ) / 2 ^ k < 1 := (div_lt_one (by positivity)).2 (by exact_mod_cast hlt)
      rw [Ne, mul_left_inj' hq.ne']
      exact next_ne_of_frac _ _ hx0 hx1

/-- A rounded magnitude is less than a quantum away. -/
theorem RoundsTo.lt_add {rm : Nat} {s : Bool} {x q : ℝ} {n : Nat} (hq : 0 < q) (h : RoundsTo rm s x q n) : n * q < x + q := by
  unfold RoundsTo at h
  split at h
  · have := (abs_le.1 h.1).1; linarith
  · split at h
    · linarith [h.1]
    · exact h.1

/-- A magnitude below a number of quanta is rounded to that number at most. -/
theorem RoundsTo.le_of_lt {rm : Nat} {s : Bool} {x q : ℝ} {n : Nat} (hq : 0 < q) (h : RoundsTo rm s x q n) {N : Nat} (hx : x < N * q) :
    n ≤ N := by
  have h1 : (n : ℝ) * q < (N + 1 : Nat) * q := by push_cast; linarith [h.lt_add hq]
  have h2 : n < N + 1 := by exact_mod_cast lt_of_mul_lt_mul_right h1 hq.le
  omega

end Sys2Proof.Machine
end

section
/-! PROOFS. What the encoder of a finite value packs, the decoder reads (R38, R41). -/

namespace Sys2Proof.Machine

/-- A sign, an exponent field and a fraction field put together. -/
def packed (F E : Nat) (s : Bool) (e f : Nat) : Nat := (if s then 2 ^ (F + E) else 0) + e * 2 ^ F + f

section
variable {F E e f : Nat}

theorem packed_mod (s : Bool) (hf : f < 2 ^ F) : packed F E s e f % 2 ^ F = f := by
  cases s <;> simp [packed, pow_add, Nat.add_mod, Nat.mod_eq_of_lt hf]

theorem packed_div (s : Bool) (hf : f < 2 ^ F) : packed F E s e f / 2 ^ F = (if s then 2 ^ E else 0) + e := by
  have : packed F E s e f = f + ((if s then 2 ^ E else 0) + e) * 2 ^ F := by cases s <;> simp [packed, pow_add] <;> ring
  rw [this, Nat.add_mul_div_right _ _ (by positivity), Nat.div_eq_of_lt hf, Nat.zero_add]

theorem packed_exp (s : Bool) (hf : f < 2 ^ F) (he : e < 2 ^ E) : packed F E s e f / 2 ^ F % 2 ^ E = e := by
  rw [packed_div s hf]
  cases s <;> simp [Nat.mod_eq_of_lt he]

theorem bitOf_packed (s : Bool) (hf : f < 2 ^ F) (he : e < 2 ^ E) : bitOf (packed F E s e f) (F + E) = s := by
  rw [bitOf, pow_add, ← Nat.div_div_eq_div_mul, packed_div s hf]
  cases s <;> simp [Nat.div_eq_of_lt he]

theorem packed_lt (s : Bool) (hf : f < 2 ^ F) (he : e < 2 ^ E) : packed F E s e f < 2 ^ (F + E + 1) := by
  have h : e * 2 ^ F + f < 2 ^ (F + E) := by
    rw [pow_add, mul_comm]
    nlinarith [Nat.mul_le_mul_left (2 ^ F) (Nat.succ_le_of_lt he)]
  rw [pow_succ]
  cases s <;> simp only [packed, if_true, Bool.false_eq_true, if_false] <;> omega

end

theorem width_eq {t : Ty} (ht : t.isFloat = true) : t.width = fracBits t + expBits t + 1 := by
  cases t <;> first | rfl | cases ht

/-- The fields that stand for a number (R38, R39, R41). -/
def FinFields (t : Ty) (e f : Nat) : Prop :=
  match t with
  | .e3m2 | .e2m1 => True
  | .e4m3 => ¬(e = 15 ∧ f = 7)
  | _ => e ≠ 2 ^ expBits t - 1

/-- The decoder on fields that stand for a number. -/
theorem fdecode_packed {t : Ty} (s : Bool) {e f : Nat} (he : e < 2 ^ expBits t) (hf : f < 2 ^ fracBits t) (h : FinFields t e f) :
    fdecode t (packed (fracBits t) (expBits t) s e f) =
      if e = 0 then (if t = .bf16 then .fin s 0 0 else .fin s f (eMin t - fracBits t))
      else .fin s (2 ^ fracBits t + f) ((e : Int) - fbias t - fracBits t) := by
  unfold fdecode
  simp only [packed_mod s hf, packed_exp s hf he, bitOf_packed s hf he]
  cases t <;> first
    | rfl
    | exact if_neg h

/-- The exponent of the largest number of a format. -/
def eMax (t : Ty) : Int := (maxFin t).1.log2 + (maxFin t).2

theorem maxFin_lt {t : Ty} : ((maxFin t).1 : ℝ) * 2 ^ (maxFin t).2 < 2 ^ (eMax t + 1) :=
  (log2_add_lt_iff_real _ (by cases t <;> decide) _ _).1 (by simp [eMax])

/-- A number within the range has an exponent field that fits. -/
theorem finFields_of_le {t : Ty} (ht : t.isFloat = true) {e f : Nat}
    (h : ((2 ^ fracBits t + f : Nat) : ℝ) * 2 ^ ((e : Int) - fbias t - fracBits t) ≤ (maxFin t).1 * 2 ^ (maxFin t).2) :
    e < 2 ^ expBits t ∧ FinFields t e f := by
  have hlo : (2 : ℝ) ^ ((e : Int) - fbias t) ≤ (2 ^ fracBits t + f : Nat) * 2 ^ ((e : Int) - fbias t - fracBits t) := by
    rw [show (e : Int) - fbias t = fracBits t + ((e : Int) - fbias t - fracBits t) by ring, zpow_add₀ (by norm_num), zpow_natCast]
    simp only [add_sub_cancel_left]
    gcongr
    push_cast
    linarith [Nat.cast_nonneg (α := ℝ) f]
  have hexp : (e : Int) - fbias t < eMax t + 1 :=
    (zpow_lt_zpow_iff_right₀ (by norm_num)).1 ((hlo.trans h).trans_lt maxFin_lt)
  cases t with
  | e4m3 =>
    refine ⟨?_, ?_⟩
    · have : (e : Int) - 7 < 8 + 1 := hexp
      exact (by omega : e < 16)
    · rintro ⟨rfl, rfl⟩
      norm_num [fracBits, fbias, maxFin] at h
  | e3m2 =>
    have : (e : Int) - 3 < 4 + 1 := hexp
    exact ⟨(by omega : e < 8), trivial⟩
  | e2m1 =>
    have : (e : Int) - 1 < 2 + 1 := hexp
    exact ⟨(by omega : e < 4), trivial⟩
  | e5m2 =>
    have : (e : Int) - 15 < 15 + 1 := hexp
    exact ⟨(by omega : e < 32), (by omega : e ≠ 31)⟩
  | f16 =>
    have : (e : Int) - 15 < 15 + 1 := hexp
    exact ⟨(by omega : e < 32), (by omega : e ≠ 31)⟩
  | bf16 =>
    have : (e : Int) - 127 < 127 + 1 := hexp
    exact ⟨(by omega : e < 256), (by omega : e ≠ 255)⟩
  | f32 =>
    have : (e : Int) - 127 < 127 + 1 := hexp
    exact ⟨(by omega : e < 256), (by omega : e ≠ 255)⟩
  | f64 =>
    have : (e : Int) - 1023 < 1023 + 1 := hexp
    exact ⟨(by omega : e < 2048), (by omega : e ≠ 2047)⟩
  | _ => cases ht

theorem finFields_zero {t : Ty} (ht : t.isFloat = true) {f : Nat} : FinFields t 0 f := by
  cases t <;> simp [FinFields, expBits, Ty.isFloat] at ht ⊢

/-- A zero is encoded as the sign alone. -/
theorem encodes_zero {t : Ty} (ht : t.isFloat = true) (s : Bool) (q : Int) : Encodes t (encodeFin t s 0 q) s 0 := by
  have hp : encodeFin t s 0 q = packed (fracBits t) (expBits t) s 0 0 := by simp [encodeFin, packed]
  rw [hp]
  refine ⟨?_, ?_⟩
  · rw [width_eq ht]; exact packed_lt s (by positivity) (by positivity)
  · rw [fdecode_packed s (by positivity) (by positivity) (finFields_zero ht), if_pos rfl]
    split
    · exact ⟨0, 0, rfl, by simp⟩
    · exact ⟨0, _, rfl, by simp⟩

/-- A number below the normal range is encoded as a multiple of the subnormal quantum. -/
theorem encodes_subnormal {t : Ty} (ht : t.isFloat = true) (hb : t ≠ .bf16) (s : Bool) {n : Nat} {q : Int} (hn : n ≠ 0)
    (hq : eMin t - fracBits t ≤ q) (hex : (n.log2 : Int) + q < eMin t) : Encodes t (encodeFin t s n q) s (n * 2 ^ q) := by
  have hp : encodeFin t s n q = packed (fracBits t) (expBits t) s 0 (n * 2 ^ (q - (eMin t - fracBits t)).toNat) := by
    simp [encodeFin, packed, hn, hex]
  have hval := natMul_zpow_of_le_real n hq
  have hf : n * 2 ^ (q - (eMin t - fracBits t)).toNat < 2 ^ fracBits t := by
    have h := (log2_add_lt_iff_real n hn q (eMin t)).1 hex
    rw [← hval, show eMin t = fracBits t + (eMin t - fracBits t) by ring, zpow_add₀ (by norm_num), zpow_natCast] at h
    simp only [add_sub_cancel_left] at h
    exact_mod_cast lt_of_mul_lt_mul_right h (by positivity)
  rw [hp]
  refine ⟨?_, ?_⟩
  · rw [width_eq ht]; exact packed_lt s hf (by positivity)
  · rw [fdecode_packed s (by positivity) hf (finFields_zero ht), if_pos rfl, if_neg hb]
    exact ⟨_, _, rfl, hval⟩

/-- The significand of a number whose highest bit is at most one place above the precision. -/
theorem significand_eq {n F : Nat} (hn : n ≠ 0) (hle : n ≤ 2 ^ (F + 1)) :
    ((if n.log2 ≤ F then n * 2 ^ (F - n.log2) else n / 2 ^ (n.log2 - F) : Nat) : ℝ) = n * 2 ^ ((F : Int) - n.log2) ∧
      2 ^ F ≤ (if n.log2 ≤ F then n * 2 ^ (F - n.log2) else n / 2 ^ (n.log2 - F)) ∧
      (if n.log2 ≤ F then n * 2 ^ (F - n.log2) else n / 2 ^ (n.log2 - F)) < 2 ^ (F + 1) := by
  by_cases h : n.log2 ≤ F
  · simp only [h, if_true]
    have hlo := Nat.mul_le_mul_right (2 ^ (F - n.log2)) (Nat.log2_self_le hn)
    have hhi := Nat.mul_lt_mul_of_pos_right (Nat.lt_log2_self (n := n)) (Nat.two_pow_pos (F - n.log2))
    rw [← pow_add] at hlo hhi
    refine ⟨?_, ?_, ?_⟩
    · rw [← Nat.cast_sub h, zpow_natCast]; push_cast; rfl
    · convert hlo using 2; omega
    · convert hhi using 2; omega
  · have hl : n.log2 = F + 1 := le_antisymm (Nat.lt_succ_iff.1 ((Nat.log2_lt hn).2 (hle.trans_lt (Nat.pow_lt_pow_right (by decide) (by omega))))) (by omega)
    have he : n = 2 ^ (F + 1) := le_antisymm hle (hl ▸ Nat.log2_self_le hn)
    simp only [if_neg h]
    rw [hl, Nat.add_sub_cancel_left]
    rw [he]
    refine ⟨?_, ?_, ?_⟩
    · rw [pow_succ, pow_one, Nat.mul_div_cancel _ (by decide), show (F : Int) - (F + 1 : Nat) = -1 by push_cast; ring]
      push_cast; ring
    · rw [pow_succ, pow_one, Nat.mul_div_cancel _ (by decide)]
    · rw [pow_succ, pow_one, Nat.mul_div_cancel _ (by decide)]; omega

/-- A number in the normal range is encoded with its exponent and fraction. -/
theorem encodes_normal {t : Ty} (ht : t.isFloat = true) (s : Bool) {n : Nat} {q : Int} (hn : n ≠ 0) (hle : n ≤ 2 ^ (fracBits t + 1))
    (hex : eMin t ≤ (n.log2 : Int) + q) (hmax : (n : ℝ) * 2 ^ q ≤ (maxFin t).1 * 2 ^ (maxFin t).2) :
    Encodes t (encodeFin t s n q) s (n * 2 ^ q) := by
  obtain ⟨hval, hlo, hhi⟩ := significand_eq hn hle
  generalize hsig : (if n.log2 ≤ fracBits t then n * 2 ^ (fracBits t - n.log2) else n / 2 ^ (n.log2 - fracBits t)) = g at hval hlo hhi
  obtain ⟨f, rfl⟩ := Nat.exists_eq_add_of_le hlo
  have hf : f < 2 ^ fracBits t := by rw [pow_succ] at hhi; omega
  obtain ⟨e, he⟩ := Int.eq_ofNat_of_zero_le (show 0 ≤ (n.log2 : Int) + q + fbias t by unfold eMin at hex; omega)
  have he1 : e ≠ 0 := by unfold eMin at hex; omega
  have hp : encodeFin t s n q = packed (fracBits t) (expBits t) s e f := by
    simp [encodeFin, packed, hn, not_lt.2 hex, hsig, he]
  have hx : (n : ℝ) * 2 ^ q = (2 ^ fracBits t + f : Nat) * 2 ^ ((e : Int) - fbias t - fracBits t) := by
    rw [hval, mul_assoc, ← zpow_add₀ (by norm_num)]
    congr 2
    omega
  obtain ⟨hfit, hfin⟩ := finFields_of_le ht (hx ▸ hmax)
  rw [hp]
  refine ⟨?_, ?_⟩
  · rw [width_eq ht]; exact packed_lt s hf hfit
  · rw [fdecode_packed s hfit hf hfin, if_neg he1]
    exact ⟨_, _, rfl, hx.symm⟩

end Sys2Proof.Machine
end

section
/-! PROOFS. A value is rounded once into a format (R38 to R41, R47 to R51). -/

namespace Sys2Proof.Machine

/-- The formats that results are rounded into. -/
def resultFormats : List Ty := [.f64, .f32, .f16, .bf16, .e5m2, .e4m3, .e2m1]

variable {t : Ty}

theorem isFloat_of_result (ht : t ∈ resultFormats) : t.isFloat = true := by
  revert ht; cases t <;> decide

theorem greatest_eq (ht : t ∈ resultFormats) : (greatest t : ℝ) = (maxFin t).1 * 2 ^ (maxFin t).2 := by
  simp only [resultFormats, List.mem_cons, List.not_mem_nil, or_false] at ht
  rcases ht with rfl | ht
  · have h : (2 : ℝ) ^ (1023 : Int) = 2 ^ (52 : Int) * 2 ^ (971 : Int) := by rw [← zpow_add₀ (by norm_num)]; rfl
    simp only [greatest, maxFin]
    push_cast
    rw [h, ← mul_assoc]
    congr 1
    norm_num
  · rcases ht with rfl | rfl | rfl | rfl | rfl | rfl <;> norm_num [greatest, maxFin]

theorem leastNormal_eq (ht : t ∈ resultFormats) : leastNormal t = eMin t := by
  revert ht; cases t <;> decide

theorem fractionOf_eq (ht : t ∈ resultFormats) : fractionOf t = fracBits t := by
  revert ht; cases t <;> decide

theorem encodes_max (ht : t ∈ resultFormats) (s : Bool) : Encodes t (encodeMax t s) s (greatest t) := by
  rw [greatest_eq ht]
  have hf := isFloat_of_result ht
  refine encodes_normal hf s ?_ ?_ ?_ le_rfl <;> revert hf <;> cases t <;> decide

theorem fdecode_encodeInf (ht : t ∈ [Ty.f64, .f32, .f16, .bf16, .e5m2]) (s : Bool) :
    encodeInf t s < 2 ^ t.width ∧ fdecode t (encodeInf t s) = .inf s := by
  revert ht; cases t <;> cases s <;> decide

/-- Whether an overflow goes away from zero in a mode (R48). -/
def outward (rm : Nat) (s : Bool) : Bool := match rm with | 0 => true | 1 => false | 2 => !s | _ => s

theorem outward_iff {rm : Nat} (hrm : rm < 4) (s : Bool) : outward rm s = false ↔ rm = 1 ∨ rm = 2 ∧ s = true ∨ rm = 3 ∧ s = false := by
  match rm, hrm with
  | 0, _ => simp [outward]
  | 1, _ => simp [outward]
  | 2, _ => simp [outward]
  | 3, _ => simp [outward]

/-- An overflow gives what R48 says. -/
theorem overflows_overflowBits (ht : t ∈ resultFormats) {rm : Nat} (hrm : rm < 4) (sat s : Bool) :
    Overflows t rm sat s (overflowBits t rm sat s) := by
  have h3 : t ≠ .e3m2 := by rintro rfl; revert ht; decide
  have hb : overflowBits t rm sat s = if sat || t = .e2m1 || t = .e3m2 then encodeMax t s
    else if outward rm s then (if t = .e4m3 then encodeNan t s 0 else encodeInf t s) else encodeMax t s := rfl
  have hdir : (sat = true ∨ t = .e2m1 ∨ rm = 1 ∨ rm = 2 ∧ s = true ∨ rm = 3 ∧ s = false) ↔ (sat = true ∨ t = .e2m1) ∨ outward rm s = false := by
    rw [outward_iff hrm, or_assoc]
  simp only [Overflows, hdir, hb]
  by_cases hs : sat = true ∨ t = .e2m1
  · rw [if_pos (.inl hs), if_pos (by rcases hs with h | h <;> simp [h])]
    exact encodes_max ht s
  · rw [if_neg (show ¬(sat || decide (t = .e2m1) || decide (t = .e3m2)) = true by simpa [h3] using hs)]
    cases ho : outward rm s with
    | false =>
      rw [if_pos (.inr rfl)]
      exact encodes_max ht s
    | true =>
      rw [if_neg (by simpa using hs), if_pos rfl]
      by_cases h4 : t = .e4m3
      · subst h4
        cases s <;> rfl
      · rw [if_neg h4, if_neg h4]
        have h2 : t ≠ .e2m1 := fun h => hs (.inr h)
        exact fdecode_encodeInf (by revert ht; simp only [resultFormats, List.mem_cons, List.not_mem_nil]; tauto) s

/-- The rounding of a nonzero number, its quanta written out. -/
theorem fround_fin (t : Ty) (rm : Nat) (sat s : Bool) {m : Nat} (hm : m ≠ 0) {e k : Int} (hk : (m.log2 : Int) + e = k) :
    fround t rm sat (.fin s m e) =
      (let r1 := roundAt rm s m e (k - fracBits t)
      let tiny := dyLt r1.1 (k - fracBits t) 1 (eMin t)
      if t = .bf16 then
        if tiny then (encodeFin t s 0 0, flagUF ||| flagNX)
        else if dyLt (maxFin t).1 (maxFin t).2 r1.1 (k - fracBits t) then (overflowBits t rm sat s, flagOF ||| flagNX)
        else (encodeFin t s r1.1 (k - fracBits t), if r1.2 then flagNX else 0)
      else
        let q := max (k - fracBits t) (eMin t - fracBits t)
        let r := roundAt rm s m e q
        if dyLt (maxFin t).1 (maxFin t).2 r.1 q then (overflowBits t rm sat s, flagOF ||| flagNX)
        else (encodeFin t s r.1 q, (if r.2 then flagNX else 0) ||| (if r.2 && tiny then flagUF else 0))) := by
  obtain ⟨m, rfl⟩ := Nat.exists_eq_succ_of_ne_zero hm
  subst hk
  rfl

/-- A number that does not overflow is encoded as it was rounded; one below the normal range needs the subnormal quantum. -/
theorem encodes_rounded (ht : t ∈ resultFormats) (s : Bool) {rm n : Nat} {x : ℝ} {k q : Int} (hx : x < 2 ^ (k + 1))
    (hq : k - fracBits t ≤ q) (hr : RoundsTo rm s x (2 ^ q) n)
    (hsub : (n : ℝ) * 2 ^ q < 2 ^ eMin t → t ≠ .bf16 ∧ eMin t - fracBits t ≤ q) (hmax : (n : ℝ) * 2 ^ q ≤ greatest t) :
    Encodes t (encodeFin t s n q) s (n * 2 ^ q) := by
  have hf := isFloat_of_result ht
  have hle : n ≤ 2 ^ (fracBits t + 1) := by
    refine hr.le_of_lt (by positivity) (hx.trans_le ?_)
    push_cast
    rw [← zpow_natCast, ← zpow_add₀ (by norm_num)]
    exact zpow_le_zpow_right₀ (by norm_num) (by push_cast; omega)
  by_cases hn : n = 0
  · subst hn
    simpa using encodes_zero hf s q
  · by_cases hex : (n.log2 : Int) + q < eMin t
    · obtain ⟨hb, hqs⟩ := hsub ((log2_add_lt_iff_real n hn q (eMin t)).1 hex)
      exact encodes_subnormal hf hb s hn hqs hex
    · exact encodes_normal hf s hn hle (not_lt.1 hex) (greatest_eq ht ▸ hmax)

/-- A nonzero number is rounded as R47 to R51 say. -/
theorem rounded_fround (ht : t ∈ resultFormats) {rm : Nat} (hrm : rm < 4) (sat s : Bool) {m : Nat} {e k : Int} (hm : m ≠ 0)
    (hlo : (2 : ℝ) ^ k ≤ m * 2 ^ e) (hhi : (m : ℝ) * 2 ^ e < 2 ^ (k + 1)) :
    Rounded t rm sat s (m * 2 ^ e) k (fround t rm sat (.fin s m e)) := by
  have hk := log2_add_eq m hm e k hlo hhi
  have hflag : (flagUF ||| flagNX : Flags) ≠ 0 := by decide
  rw [fround_fin t rm sat s hm hk, Rounded, fractionOf_eq ht, leastNormal_eq ht, max_sub_sub_right]
  obtain ⟨h1, hx1⟩ := roundAt_spec hrm s m e (k - fracBits t)
  have htiny := dyLt_iff (roundAt rm s m e (k - fracBits t)).1 (k - fracBits t) 1 (eMin t)
  simp only [Nat.cast_one, one_mul] at htiny
  by_cases hb : t = .bf16
  · have hover := dyLt_iff (maxFin t).1 (maxFin t).2 (roundAt rm s m e (k - fracBits t)).1 (k - fracBits t)
    rw [← greatest_eq ht] at hover
    simp only [hb, if_true, true_and, forall_const, true_imp_iff] at *
    refine ⟨_, _, h1, h1, fun hti => ?_, fun hti ho => ?_, fun hti ho => ?_⟩
    · rw [if_pos (htiny.2 hti)]
      exact ⟨encodes_zero rfl s 0, rfl⟩
    · rw [if_neg (mt htiny.1 hti), if_pos (hover.2 ho)]
      exact ⟨overflows_overflowBits ht hrm sat s, rfl⟩
    · rw [if_neg (mt htiny.1 hti), if_neg (mt hover.1 (not_lt.2 ho))]
      refine ⟨encodes_rounded ht s hhi le_rfl h1 (fun h => absurd h hti) ho, fun he => ?_, fun _ hti' => absurd hti' hti, fun hne _ => ?_⟩
      · exact if_neg (mt hx1.1 (not_not.2 he))
      · exact if_pos (hx1.2 hne)
  · obtain ⟨h2, hx2⟩ := roundAt_spec hrm s m e (max k (eMin t) - fracBits t)
    have hover := dyLt_iff (maxFin t).1 (maxFin t).2 (roundAt rm s m e (max k (eMin t) - fracBits t)).1 (max k (eMin t) - fracBits t)
    rw [← greatest_eq ht] at hover
    simp only [hb, if_false, false_and, not_false_eq_true, false_imp_iff, true_imp_iff, true_and]
    refine ⟨_, _, h1, h2, And.intro (fun ho => ?_) fun ho => ?_⟩
    · rw [if_pos (hover.2 ho)]
      exact ⟨overflows_overflowBits ht hrm sat s, rfl⟩
    · rw [if_neg (mt hover.1 (not_lt.2 ho))]
      refine ⟨encodes_rounded ht s hhi (by omega) h2 (fun _ => ⟨hb, by omega⟩) ho, fun he => ?_, fun hne hti => ?_, fun hne hti => ?_⟩
      · have : (roundAt rm s m e (max k (eMin t) - fracBits t)).2 = false := by simpa using mt hx2.1 (not_not.2 he)
        simp [this]
      · simp [hx2.2 hne, htiny.2 hti]
      · have : dyLt (roundAt rm s m e (k - fracBits t)).1 (k - fracBits t) 1 (eMin t) = false := by simpa using mt htiny.1 hti
        simp [hx2.2 hne, this]

/-- A number whose highest bit is already set. -/
theorem or_two_pow_of_le {x k : Nat} (hlo : 2 ^ k ≤ x) (hhi : x < 2 ^ (k + 1)) : x ||| 2 ^ k = x := by
  refine Nat.eq_of_testBit_eq fun i => ?_
  rw [Nat.testBit_or, Nat.testBit_two_pow]
  by_cases h : k = i
  · subst h
    simp [Nat.testBit_of_two_pow_le_and_two_pow_add_one_gt hlo hhi]
  · simp [h]

/-- The formats that have infinities and NaN payloads. -/
theorem fdecode_special (ht : t ∈ [Ty.f64, .f32, .f16, .bf16, .e5m2]) (s : Bool) {f : Nat} (hf : f < 2 ^ fracBits t) (h0 : f ≠ 0) :
    fdecode t (packed (fracBits t) (expBits t) s (2 ^ expBits t - 1) f) = .nan s ((f * 2 ^ (52 - fracBits t)) ||| 2 ^ 51) := by
  have he : 2 ^ expBits t - 1 < 2 ^ expBits t := Nat.sub_lt (by positivity) (by decide)
  unfold fdecode
  simp only [packed_mod s hf, packed_exp s hf he, bitOf_packed s hf he]
  simp only [List.mem_cons, List.not_mem_nil, or_false] at ht
  rcases ht with rfl | rfl | rfl | rfl | rfl <;> simp [h0]

/-- The payload's top, as it goes into a fraction field of `F` bits and comes back. -/
theorem quiet_payload {g F : Nat} (hlo : 2 ^ 51 ≤ g) (hhi : g < 2 ^ 52) (h1 : 1 ≤ F) (h52 : F ≤ 52) :
    2 ^ (F - 1) ≤ g / 2 ^ (52 - F) ∧ g / 2 ^ (52 - F) < 2 ^ F ∧ 2 ^ 51 ≤ g / 2 ^ (52 - F) * 2 ^ (52 - F) := by
  have hlow : 2 ^ (F - 1) ≤ g / 2 ^ (52 - F) := by
    rw [Nat.le_div_iff_mul_le (by positivity), ← Nat.pow_add, show F - 1 + (52 - F) = 51 by omega]; exact hlo
  have hhigh : g / 2 ^ (52 - F) < 2 ^ F := by
    rw [Nat.div_lt_iff_lt_mul (by positivity), ← Nat.pow_add, Nat.add_sub_cancel' h52]; exact hhi
  have hback := Nat.mul_le_mul_right (2 ^ (52 - F)) hlow
  rw [← Nat.pow_add, show F - 1 + (52 - F) = 51 by omega] at hback
  exact ⟨hlow, hhigh, hback⟩

theorem encodeNan_eq_packed (ht : t ∈ [Ty.f64, .f32, .f16, .bf16, .e5m2]) (s : Bool) (g : Nat) :
    encodeNan t s g = packed (fracBits t) (expBits t) s (2 ^ expBits t - 1) ((g / 2 ^ (52 - fracBits t)) ||| 2 ^ (fracBits t - 1)) := by
  simp only [List.mem_cons, List.not_mem_nil, or_false] at ht
  rcases ht with rfl | rfl | rfl | rfl | rfl <;> simp only [encodeNan, packed]

/-- A NaN that has been quieted keeps its sign and the top of its payload. -/
theorem fdecode_encodeNan (ht : t ∈ [Ty.f64, .f32, .f16, .bf16, .e5m2]) (s : Bool) {g : Nat} (hlo : 2 ^ 51 ≤ g) (hhi : g < 2 ^ 52) :
    fdecode t (encodeNan t s g) = .nan s (g / 2 ^ (52 - fracBits t) * 2 ^ (52 - fracBits t)) := by
  have hF : 1 ≤ fracBits t ∧ fracBits t ≤ 52 := by revert ht; cases t <;> decide
  obtain ⟨hlow, hhigh, hback⟩ := quiet_payload hlo hhi hF.1 hF.2
  have hsucc : fracBits t - 1 + 1 = fracBits t := Nat.sub_add_cancel hF.1
  rw [encodeNan_eq_packed ht, or_two_pow_of_le hlow (by rw [hsucc]; exact hhigh),
    fdecode_special ht s hhigh ((Nat.two_pow_pos _).trans_le hlow).ne', or_two_pow_of_le hback ((Nat.div_mul_le_self _ _).trans_lt hhi)]

theorem fround_inf (ht : t ∈ [Ty.f64, .f32, .f16, .bf16, .e5m2]) (rm : Nat) (sat s : Bool) :
    fround t rm sat (.inf s) = (if sat then encodeMax t s else encodeInf t s, 0) := by
  simp only [List.mem_cons, List.not_mem_nil, or_false] at ht
  rcases ht with rfl | rfl | rfl | rfl | rfl <;> cases sat <;> simp [fround]

theorem fround_nan (ht : t ∈ [Ty.f64, .f32, .f16, .bf16, .e5m2]) (rm : Nat) (sat s : Bool) (g : Nat) :
    fround t rm sat (.nan s g) = (encodeNan t s g, 0) := by
  simp only [List.mem_cons, List.not_mem_nil, or_false] at ht
  rcases ht with rfl | rfl | rfl | rfl | rfl <;> rfl

/-- Settles O15: a nonzero number is rounded by `rounded_fround`, and the other values are encoded outright. -/
theorem resultsAreCorrectlyRounded : Obligations.ResultsAreCorrectlyRounded := by
  refine ⟨fun t ht rm hrm sat s => ⟨fun m e k hm hlo hhi => ?_, fun e => ⟨?_, rfl⟩, ?_, fun h => ?_, fun h => ?_, fun g hlo hhi => ⟨?_, ?_⟩⟩,
    fun t ht rm hrm sat s => ⟨fun m e k hm hlo hhi => ?_, fun e => ⟨?_, rfl⟩, ?_, ?_, fun g => ⟨?_, ?_⟩⟩⟩
  all_goals have hr : t ∈ resultFormats := by revert ht; simp only [resultFormats, List.mem_cons, List.not_mem_nil]; tauto
  · exact rounded_fround hr hrm sat s hm hlo hhi
  · exact encodes_zero (isFloat_of_result hr) s 0
  · rw [fround_inf ht]
  · rw [fround_inf ht, if_pos h]
    exact encodes_max hr s
  · rw [fround_inf ht, if_neg (by simp [h])]
    exact (fdecode_encodeInf ht s).2
  · rw [fround_nan ht]
  · rw [fround_nan ht, fractionOf_eq hr, fdecode_encodeNan ht s hlo hhi]
  · exact rounded_fround hr hrm sat s hm hlo hhi
  · exact encodes_zero (isFloat_of_result hr) s 0
  · cases sat <;> cases s <;> rfl
  · cases sat <;> cases s <;> rfl
  · cases s <;> rfl
  · rfl

end Sys2Proof.Machine
end

section
/-! PROOFS. Exact products, sums and fused sums, and the values that are no numbers (R47, R50, R118). -/

namespace Sys2Proof.Machine

theorem ratOf_fmul (s : Bool) (m : Nat) (e : Int) (t : Bool) (n : Nat) (d : Int) :
    ratOf (.fin (s != t) (m * n) (e + d)) = ratOf (.fin s m e) * ratOf (.fin t n d) := by
  simp only [ratOf, zpow_add₀ (two_ne_zero' ℚ)]
  cases s <;> cases t <;> simp <;> ring

/-- The exact sum of two numbers is a number, a zero with the sign of the mode. -/
theorem faddExact_fin (rm : Nat) (s : Bool) (m : Nat) (e : Int) (t : Bool) (n : Nat) (d : Int) :
    ∃ u k x, faddExact rm (.fin s m e) (.fin t n d) = (.fin u k x, 0) ∧
      ratOf (.fin u k x) = ratOf (.fin s m e) + ratOf (.fin t n d) ∧
      (k = 0 → u = if m = 0 ∧ n = 0 ∧ s = t then s else decide (rm = 3)) := by
  have h := ratOf_dySum s m e t n d
  simp only [faddExact]
  by_cases hx : (dySum s m e t n d).1 = 0
  · rw [if_pos hx]
    rw [hx, Int.cast_zero, zero_mul] at h
    exact ⟨_, 0, 0, rfl, by rw [← h]; simp [ratOf], fun _ => rfl⟩
  · rw [if_neg hx]
    refine ⟨_, _, _, rfl, ?_, fun hk => absurd (Int.natAbs_eq_zero.1 hk) hx⟩
    rw [← h, ratOf]
    congr 1
    rw [Nat.cast_natAbs]
    split <;> rename_i hs
    · rw [abs_of_neg (of_decide_eq_true hs)]; simp
    · rw [abs_of_nonneg (not_lt.1 (of_decide_eq_false (by simpa using hs)))]

/-- The exact a × b + c of numbers. -/
theorem ffmaExact_fin (rm : Nat) (s : Bool) (m : Nat) (e : Int) (t : Bool) (n : Nat) (d : Int) (u : Bool) (k : Nat) (x : Int) :
    ∃ v l y, ffmaExact rm (.fin s m e) (.fin t n d) (.fin u k x) = (.fin v l y, 0) ∧
      ratOf (.fin v l y) = ratOf (.fin s m e) * ratOf (.fin t n d) + ratOf (.fin u k x) ∧
      (l = 0 → v = if (m = 0 ∨ n = 0) ∧ k = 0 ∧ u = (s != t) then u else decide (rm = 3)) := by
  obtain ⟨v, l, y, hadd, hval, hz⟩ := faddExact_fin rm (s != t) (m * n) (e + d) u k x
  refine ⟨v, l, y, hadd, by rw [hval, ratOf_fmul], fun hl => ?_⟩
  simp only [hz hl, Nat.mul_eq_zero, eq_comm (a := (s != t))]
  split
  · next h => exact h.2.2.symm
  · rfl

/-- The signs and flags of what is no number (R50). -/
theorem fmulExact_inf (s t : Bool) {m : Nat} (e : Int) (hm : m ≠ 0) :
    fmulExact (.inf s) (.inf t) = (.inf (s != t), 0) ∧ fmulExact (.inf s) (.fin t m e) = (.inf (s != t), 0) ∧
      fmulExact (.fin s m e) (.inf t) = (.inf (s != t), 0) ∧ fmulExact (.inf s) (.fin t 0 e) = (canonNan, flagIV) ∧
      fmulExact (.fin s 0 e) (.inf t) = (canonNan, flagIV) := by
  refine ⟨rfl, if_neg hm, ?_, rfl, rfl⟩
  rw [bne_comm]
  exact if_neg hm

/-- A product that is invalid gives the canonical NaN, whatever number or infinity it is added to. -/
theorem ffmaExact_invalid (rm : Nat) {a b c : FVal} (ha : fisNan a = false) (hb : fisNan b = false) (hc : fisNan c = false)
    (h : fmulExact a b = (canonNan, flagIV)) : ffmaExact rm a b c = (canonNan, flagIV) := by
  simp [ffmaExact, ha, hb, hc, h, flagIV]

/-- A valid product is added as any value is. -/
theorem ffmaExact_valid (rm : Nat) {a b c p : FVal} (ha : fisNan a = false) (hb : fisNan b = false) (hc : fisNan c = false)
    (h : fmulExact a b = (p, 0)) : ffmaExact rm a b c = faddExact rm p c := by
  simp [ffmaExact, ha, hb, hc, h]

/-- Beside a NaN as C the product raises its own flag alone. -/
theorem ffmaExact_nan (rm : Nat) {a b : FVal} (ha : fisNan a = false) (hb : fisNan b = false) (s : Bool) (g : Nat) :
    ffmaExact rm a b (.nan s g) = (.nan s g, if fisInf a ∧ fisZero b ∨ fisZero a ∧ fisInf b then flagIV else 0) := by
  have h : ffmaExact rm a b (.nan s g) = (.nan s g, (fmulExact a b).2) := by
    simp only [ffmaExact, ha, hb, Bool.false_eq_true, if_false]
    rfl
  rw [h]
  match a, b, ha, hb with
  | .inf _, .inf _, _, _ => rfl
  | .inf _, .fin _ 0 _, _, _ => rfl
  | .inf _, .fin _ (_ + 1) _, _, _ => rfl
  | .fin _ 0 _, .inf _, _, _ => rfl
  | .fin _ (_ + 1) _, .inf _, _, _ => rfl
  | .fin _ m _, .fin _ n _, _, _ => simp [fisInf, fmulExact]

theorem fintegral_fin {rm : Nat} (hrm : rm < 4) (s : Bool) (m : Nat) (e : Int) :
    ∃ n, fintegral rm (.fin s m e) = .fin s n 0 ∧ RoundsTo rm s ((m : ℝ) * 2 ^ e) 1 n := by
  have h := (roundAt_spec hrm s m e 0).1
  rw [zpow_zero] at h
  by_cases hm : m = 0
  · subst hm
    have h0 := roundsTo_self rm s one_pos 0
    exact ⟨0, by simp [fintegral], by simpa using h0⟩
  · exact ⟨_, by simp [fintegral, hm], h⟩

/-- Every number of a small format is rounded to its own bits, checked bit pattern by bit pattern. -/
theorem fround_fdecode_small : ∀ t ∈ [Ty.e2m1, .e3m2, .e4m3, .e5m2], ∀ x < 2 ^ t.width, ∀ rm < 4, fisNan (fdecode t x) = false →
    fround t rm false (fdecode t x) = (x, 0) := by
  decide +kernel

/-- Settles O11: the exact results by the lemmas above, the roundings by `roundAt_spec`, the small formats pattern by pattern. -/
theorem exactArithmeticAndRounding : Obligations.ExactArithmeticAndRounding := by
  refine ⟨fun s m e t n d => ⟨⟨_, _, _, rfl, ratOf_fmul s m e t n d⟩, fun rm => ?_, flt_fin_iff .., feq_fin_iff ..⟩,
    ⟨fun rm s m e t n d u k x => ffmaExact_fin .., fun rm s m e t n d v l y h hl => ?_, fun rm s g b c => rfl,
      fun rm a s g c ha => ?_, fun rm a b s g ha hb => ffmaExact_nan rm ha hb s g, rfl, fun rm s t m e c hm => ?_,
      fun rm s t m e n d hm => ?_, fun s t m e => ⟨rfl, rfl, rfl, rfl, rfl, rfl⟩, fun rm hrm s m e q => ?_, fun rm s g => ⟨rfl, rfl⟩⟩,
    fround_fdecode_small⟩
  · obtain ⟨u, k, x, h, hv, -⟩ := faddExact_fin rm s m e t n d
    exact ⟨u, k, x, h, hv⟩
  · obtain ⟨u, k, x, h', -, hz⟩ := faddExact_fin rm s m e t n d
    obtain ⟨⟨rfl, rfl, rfl⟩, -⟩ : (u = v ∧ k = l ∧ x = y) ∧ True := by simpa [h] using h'.symm
    exact hz hl
  · simp only [ffmaExact, ha, Bool.false_eq_true, if_false]
    rfl
  · obtain ⟨h1, h2, h3, h4, h5⟩ := fmulExact_inf s t e hm
    exact ⟨h1, h2, h3, h4, h5, fun hc => ⟨ffmaExact_invalid rm rfl rfl hc h4, ffmaExact_invalid rm rfl rfl hc h5⟩⟩
  · refine ⟨rfl, rfl, rfl, fun u => ⟨?_, ?_, ?_⟩⟩
    · rw [ffmaExact_valid rm rfl rfl rfl (fmulExact_inf s t e hm).2.1]
      simp only [faddExact, eq_comm (a := u)]
      split
      · next h => rw [h]
      · rfl
    · exact ffmaExact_valid rm rfl rfl rfl (fmulExact_inf s t e hm).2.1
    · exact ffmaExact_valid rm (a := .fin s n d) (b := .fin t m e) (c := .inf u) rfl rfl rfl rfl
  · obtain ⟨hr, hx⟩ := roundAt_spec hrm s m e q
    exact ⟨hr, hx, fintegral_fin hrm s m e⟩

end Sys2Proof.Machine
end

section
/-! PROOFS. The read-modify-write operations (R189, R193). -/

namespace Sys2Proof.Machine

/-- What the atomic sums make of a NaN source is what the floating instructions make of it. -/
theorem nanFirst_eq_firstNan (rm : Nat) (a b : FVal) :
    (if fisNan a then a else (faddExact rm a b).1) = (firstNan a b (faddExact rm a b)).1 := by
  cases a <;> cases b <;> rfl

theorem toNat_extractLsb'_low (p : DWord) : (p.extractLsb' 0 32).toNat = p.toNat % 2 ^ 32 := by
  simp [BitVec.extractLsb'_toNat]

theorem toNat_extractLsb'_high (p : DWord) : (p.extractLsb' 32 32).toNat = p.toNat / 2 ^ 32 := by
  rw [BitVec.extractLsb'_toNat, Nat.shiftRight_eq_div_pow]
  omega

theorem toSigned_lt_iff_slt (a b : Word) : toSigned 32 a.toNat < toSigned 32 b.toNat ↔ a.slt b = true := by
  rw [toSigned_eq_toInt, toSigned_eq_toInt]
  simp [BitVec.slt]

/-! What a rounding leaves. -/

/-- The bits of a rounded number are those of its format. -/
theorem Rounded.lt {t : Ty} {rm : Nat} {sat s : Bool} {x : ℝ} {k : Int} {r : Nat × Flags} (h : Rounded t rm sat s x k r) :
    r.1 < 2 ^ t.width := by
  obtain ⟨n1, n, -, -, hz, ho, hn⟩ := h
  by_cases hb : t = .bf16 ∧ (n1 : ℝ) * 2 ^ (k - fractionOf t) < 2 ^ leastNormal t
  · exact (hz hb.1 hb.2).1.1
  · rcases lt_or_ge (greatest t : ℝ) (n * if t = .bf16 then 2 ^ (k - fractionOf t) else 2 ^ (max k (leastNormal t) - fractionOf t)) with h | h
    · have hov := (ho hb h).1
      unfold Overflows at hov
      split at hov
      · exact hov.1
      · split at hov
        · next h4 => subst h4; rw [hov]; cases s <;> decide
        · exact hov.1
    · exact (hn hb h).1.1

/-- A rounded number without overflow is a number of the same sign. -/
theorem Rounded.fin_of_noOverflow {t : Ty} {rm : Nat} {sat s : Bool} {x : ℝ} {k : Int} {r : Nat × Flags} (h : Rounded t rm sat s x k r)
    (hf : r.2 &&& flagOF = 0) : ∃ m e, fdecode t r.1 = .fin s m e := by
  obtain ⟨n1, n, -, -, hz, ho, hn⟩ := h
  have num : ∀ y, Encodes t r.1 s y → ∃ m e, fdecode t r.1 = .fin s m e := fun y ⟨_, m, e, hd, _⟩ => ⟨m, e, hd⟩
  by_cases hb : t = .bf16 ∧ (n1 : ℝ) * 2 ^ (k - fractionOf t) < 2 ^ leastNormal t
  · exact num _ (hz hb.1 hb.2).1
  · rcases lt_or_ge (greatest t : ℝ) (n * if t = .bf16 then 2 ^ (k - fractionOf t) else 2 ^ (max k (leastNormal t) - fractionOf t)) with h | h
    · rw [(ho hb h).2] at hf
      exact absurd hf (by decide)
    · exact num _ (hn hb h).1

/-- A nonzero number is rounded, with the power of two of its highest bit. -/
theorem rounded_fround_log2 {t : Ty} (ht : t ∈ resultFormats) {rm : Nat} (hrm : rm < 4) (sat s : Bool) {m : Nat} (e : Int) (hm : m ≠ 0) :
    Rounded t rm sat s (m * 2 ^ e) (m.log2 + e) (fround t rm sat (.fin s m e)) :=
  rounded_fround ht hrm sat s hm (not_lt.1 (mt (log2_add_lt_iff_real m hm e _).2 (lt_irrefl _)))
    ((log2_add_lt_iff_real m hm e _).1 (lt_add_one _))

/-! The compensated sum (R193). -/

/-- The value that the compensated sum rounds. -/
def caddTotal (s e v : FVal) : FVal :=
  if fisNan s then s else if fisNan e then e else if fisNan v then v else (faddExact 0 (faddExact 0 s e).1 v).1

/-- The compensated sum: the rounded total, with a rest where no value is special and the total does not overflow. -/
theorem new_caddF32 (p : DWord) (d : Word) :
    let s := fdecode .f32 (p.extractLsb' 0 32).toNat
    let e := fdecode .f32 (p.extractLsb' 32 32).toNat
    let v := fdecode .f32 d.toNat
    let x := caddTotal s e v
    let r := fround .f32 0 false x
    let rest := (faddExact 0 x (fneg (fdecode .f32 r.1))).1
    AtomOp.new .caddF32 p.toNat d.toNat 0 =
      if (fisNan s || fisNan e || fisNan v || fisInf s || fisInf e || fisInf v) || r.2 &&& flagOF != 0 then r.1
      else if fisZero x then 0
      else r.1 + 2 ^ 32 * if fisZero rest then 0 else (fround .f32 0 false rest).1 := by
  intro s e v x r rest
  have hnew : AtomOp.new .caddF32 p.toNat d.toNat 0 = (atomCadd (p.toNat % 2 ^ 32) (p.toNat / 2 ^ 32) d.toNat).1 +
      2 ^ 32 * (atomCadd (p.toNat % 2 ^ 32) (p.toNat / 2 ^ 32) d.toNat).2 := rfl
  have hcadd : atomCadd (p.toNat % 2 ^ 32) (p.toNat / 2 ^ 32) d.toNat =
      if (fisNan s || fisNan e || fisNan v || fisInf s || fisInf e || fisInf v) || r.2 &&& flagOF != 0 then (r.1, 0)
      else if fisZero x then (0, 0)
      else (r.1, if fisZero rest then 0 else (fround .f32 0 false rest).1) := by
    rw [← toNat_extractLsb'_low, ← toNat_extractLsb'_high]
    rfl
  rw [hnew, hcadd]
  split
  · simp
  · split <;> simp

theorem fisZero_fin_iff (s : Bool) (m : Nat) (e : Int) : fisZero (.fin s m e) = true ↔ m = 0 := by simp [fisZero]

/-- The total of three numbers is the number that they sum to. -/
theorem caddTotal_fin (a : Bool) (m : Nat) (i : Int) (b : Bool) (n : Nat) (j : Int) (g : Bool) (k : Nat) (l : Int) :
    ∃ t y x, caddTotal (.fin a m i) (.fin b n j) (.fin g k l) = .fin t y x ∧
      ratOf (.fin t y x) = ratOf (.fin a m i) + ratOf (.fin b n j) + ratOf (.fin g k l) := by
  obtain ⟨u, q, z, h1, hv1, -⟩ := faddExact_fin 0 a m i b n j
  obtain ⟨t, y, x, h2, hv2, -⟩ := faddExact_fin 0 u q z g k l
  exact ⟨t, y, x, by simp [caddTotal, fisNan, h1, h2], by rw [hv2, hv1]⟩

theorem ratOf_eq_zero_iff (s : Bool) (m : Nat) (e : Int) : ratOf (.fin s m e) = 0 ↔ m = 0 := by
  have h : (2 : ℚ) ^ e ≠ 0 := by positivity
  cases s <;> simp [ratOf, h]

/-- The compensated sum of three numbers. -/
theorem cadd_of_fin {p : DWord} {d : Word} {a b g : Bool} {m n k : Nat} {i j l : Int}
    (ha : fdecode .f32 (p.extractLsb' 0 32).toNat = .fin a m i) (hb : fdecode .f32 (p.extractLsb' 32 32).toNat = .fin b n j)
    (hg : fdecode .f32 d.toNat = .fin g k l) :
    let total := ratOf (.fin a m i) + ratOf (.fin b n j) + ratOf (.fin g k l)
    let r := AtomOp.new .caddF32 p.toNat d.toNat 0
    (total = 0 → r = 0) ∧
    (total ≠ 0 → ∃ t y x, ratOf (.fin t y x) = total ∧
      let s := fround .f32 0 false (.fin t y x)
      r % 2 ^ 32 = s.1 ∧ (s.2 &&& flagOF ≠ 0 → r / 2 ^ 32 = 0) ∧
      (s.2 &&& flagOF = 0 → ∃ z w v, ratOf (.fin z w v) = total - ratOf (fdecode .f32 s.1) ∧
        r / 2 ^ 32 = if w = 0 then 0 else (fround .f32 0 false (.fin z w v)).1)) := by
  intro total r
  obtain ⟨t, y, x, hx, hv⟩ := caddTotal_fin a m i b n j g k l
  have hr := new_caddF32 p d
  simp only [ha, hb, hg, hx, fisNan, fisInf, Bool.or_false, Bool.false_or, fisZero_fin_iff] at hr
  refine ⟨fun h0 => ?_, fun h0 => ⟨t, y, x, hv, ?_⟩⟩
  · obtain rfl : y = 0 := (ratOf_eq_zero_iff t y x).1 (hv.trans h0)
    simpa [fround] using hr
  · have hy : y ≠ 0 := fun h => h0 (hv.symm.trans ((ratOf_eq_zero_iff t y x).2 h))
    have hround := rounded_fround_log2 (t := .f32) (by decide) (by decide : 0 < 4) false t x hy
    have hlt : (fround .f32 0 false (.fin t y x)).1 < 2 ^ 32 := hround.lt
    by_cases hof : (fround .f32 0 false (.fin t y x)).2 &&& flagOF = 0
    · obtain ⟨q, z, hq⟩ := hround.fin_of_noOverflow hof
      obtain ⟨c, w, v, hrest, hval, -⟩ := faddExact_fin 0 t y x (!t) q z
      have hneg : faddExact 0 (.fin t y x) (fneg (fdecode .f32 (fround .f32 0 false (.fin t y x)).1)) = (.fin c w v, 0) := by
        rw [hq]; exact hrest
      simp only [hof, hy, hneg, fisZero_fin_iff, bne_self_eq_false, Bool.false_eq_true, if_false] at hr
      refine ⟨?_, fun h => absurd hof h, fun _ => ⟨c, w, v, ?_, ?_⟩⟩
      · rw [show r = _ from hr, Nat.add_mul_mod_self_left, Nat.mod_eq_of_lt hlt]
      · rw [hval, hq, hv, ratOf_neg, sub_eq_add_neg]
      · rw [show r = _ from hr, Nat.add_mul_div_left _ _ (by decide), Nat.div_eq_of_lt hlt, Nat.zero_add]
    · have hb : ((fround .f32 0 false (.fin t y x)).2 &&& flagOF != 0) = true := by simpa using hof
      rw [hb, if_pos rfl] at hr
      refine ⟨?_, fun _ => ?_, fun h => absurd h hof⟩
      · rw [show r = _ from hr, Nat.mod_eq_of_lt hlt]
      · rw [show r = _ from hr, Nat.div_eq_of_lt hlt]

/-- The compensated sum where a value is no number. -/
theorem cadd_of_special (p : DWord) (d : Word) :
    let u := [fdecode .f32 (p.extractLsb' 0 32).toNat, fdecode .f32 (p.extractLsb' 32 32).toNat, fdecode .f32 d.toNat]
    (u.any fisNan = true ∨ u.any fisInf = true) → AtomOp.new .caddF32 p.toNat d.toNat 0 =
      (fround .f32 0 false (match u.find? fisNan with
        | some v => v
        | none => (faddExact 0 (faddExact 0 (u.getD 0 canonNan) (u.getD 1 canonNan)).1 (u.getD 2 canonNan)).1)).1 := by
  intro u h
  simp only [List.any_cons, List.any_nil, Bool.or_false, u] at h
  refine ((new_caddF32 p d).trans (if_pos (by simp only [Bool.or_eq_true] at h ⊢; tauto))).trans ?_
  congr 2
  simp only [caddTotal, u, List.find?_cons, List.find?_nil, List.getD_cons_zero, List.getD_cons_succ]
  cases fisNan (fdecode .f32 (p.extractLsb' 0 32).toNat) <;> cases fisNan (fdecode .f32 (p.extractLsb' 32 32).toNat) <;>
    cases fisNan (fdecode .f32 d.toNat) <;> rfl

/-- The halves of a word, each with its own sum. -/
theorem new_add2Bf16 (o d : Word) :
    let sum (a b : BitVec 16) : Nat := (fround .bf16 0 false
      (firstNan (fdecode .bf16 a.toNat) (fdecode .bf16 b.toNat) (faddExact 0 (fdecode .bf16 a.toNat) (fdecode .bf16 b.toNat))).1).1
    AtomOp.new .add2Bf16 o.toNat d.toNat 0 =
      sum (o.extractLsb' 0 16) (d.extractLsb' 0 16) + 2 ^ 16 * sum (o.extractLsb' 16 16) (d.extractLsb' 16 16) := by
  have low (a : Word) : (a.extractLsb' 0 16).toNat = a.toNat % 65536 := by simp [BitVec.extractLsb'_toNat]
  have high (a : Word) : (a.extractLsb' 16 16).toNat = a.toNat / 65536 := by
    rw [BitVec.extractLsb'_toNat, Nat.shiftRight_eq_div_pow]; omega
  simp only [low, high, ← nanFirst_eq_firstNan]
  rfl

/-- Settles O25: the integer operations are those on words, the floating ones round the exact results that the instructions round. -/
theorem atomicOperationsAreThoseOfTheTable : Obligations.AtomicOperationsAreThoseOfTheTable := by
  intro o d c p q z
  have hadd : AtomOp.new .addF32 o.toNat d.toNat 0 = (fround .f32 0 false (firstNan (fdecode .f32 o.toNat) (fdecode .f32 d.toNat)
      (faddExact 0 (fdecode .f32 o.toNat) (fdecode .f32 d.toNat))).1).1 := by
    rw [← nanFirst_eq_firstNan]; rfl
  refine ⟨(BitVec.toNat_add o d).symm, (BitVec.toNat_add p q).symm, ?_, ?_, ?_, ?_, (BitVec.toNat_and o d).symm, (BitVec.toNat_or o d).symm,
    (BitVec.toNat_xor o d).symm, ?_, ?_, rfl, rfl, ?_, ?_, ⟨hadd, ?_, ?_⟩, new_add2Bf16 o d,
    fun a b g m n k i j l ha hb hg => cadd_of_fin ha hb hg, cadd_of_special p d⟩
  case refine_1 | refine_2 =>
    simp only [AtomOp.new, toSigned_lt_iff_slt]
    split <;> rfl
  case refine_3 | refine_4 =>
    simp only [AtomOp.new, BitVec.ult]
    split <;> simp_all <;> omega
  case refine_5 | refine_6 =>
    simp only [AtomOp.new, BitVec.ult]
    split <;> split <;> simp_all <;> bv_omega
  case refine_7 | refine_8 =>
    simp only [AtomOp.new, BitVec.toNat_inj]
    split <;> rfl
  case refine_9 | refine_10 => rw [← fminmax_eq_extremeOf]; rfl

end Sys2Proof.Machine
end

section
/-! PROOFS. Loads, stores and atomics issue their access (R179, R183 to R190). -/

namespace Sys2Proof.Machine

/-- The access that an instruction issues. -/
def Issue.perform (x : Issue) (s : State) (a : Access) : Act := x.access s a.pb a.need a.kind a.ld a.sc a.size a.align a.els a.pre

/-- The instruction issues an access. -/
def Issues (i : Fields → Instr) (op : Nat) (a : Begun → Access) : Prop :=
  ∃ body : Fields → Issue → State → Act, (∀ f s, exec (i f) s = issue op f pb0 (body f) s) ∧
    ∀ (f : Fields) (s : State) (b : Begun), s.begun op f pb0 = some b → body f b.y b.t = b.y.perform b.t (a b)

section
variable {b : Begun} {a : Access}

theorem perform_trap {q : TrapReq} (hact : b.y.act ≠ 0) (hcnt : (if a.ld then b.y.r.ldc else b.y.r.stc) < 63)
    (hlog : b.t.logUsed b.y.c b.y.r.quad < 256) (hfence : b.t.fenced b.y.k b.y.r b.y.unit = false)
    (hq : b.y.addrTrap b.t b.memHandle a.need a.sc a.size a.align a.els = some q) : b.y.perform b.t a = .trap q := by
  unfold Issue.perform Issue.access
  rw [show b.t.ropeHandle b.y.r (b.y.f.a.toNat % 16) = b.memHandle from rfl, if_neg hact,
    if_neg (by simp only [not_or, hfence]; exact ⟨by omega, by omega, by simp⟩), hq]

theorem perform_fenced (hact : b.y.act ≠ 0) (hfence : b.t.fenced b.y.k b.y.r b.y.unit = true) : b.y.perform b.t a = .wait := by
  unfold Issue.perform Issue.access
  rw [if_neg hact, if_pos (by simp [hfence])]

theorem perform_idle (hact : b.y.act = 0) : b.y.perform b.t a = .go b.t [] 0 .fall := if_pos hact

/-- An issued access completes, where it may be performed. -/
theorem accessDone_of_body {op : Nat} {f : Fields} {pb : PB} {s : State} {body : Issue → State → Act} (hb : s.begun op f pb = some b)
    (h : body b.y b.t = b.y.perform b.t a) : b.AccessDone (issue op f pb body s) a := by
  intro hmay
  obtain ⟨hnear, hlink⟩ := access_done hmay
  exact ⟨fun hl s1 ws left hp => issue_go hb (h.trans (hnear hl s1 ws left hp)), fun hl => issue_go hb (h.trans (hlink hl))⟩

/-- An issued access traps on a check that fails. -/
theorem accessTraps_of_body {op : Nat} {f : Fields} {pb : PB} {s : State} {body : Issue → State → Act} (hb : s.begun op f pb = some b)
    (h : body b.y b.t = b.y.perform b.t a) : b.AccessTraps (issue op f pb body s) s a :=
  fun _ hact hcnt hlog hfence hq => issue_trap hb (h.trans (perform_trap hact hcnt hlog hfence hq))

end

section
variable {i : Fields → Instr} {op : Nat} {a : Begun → Access}

theorem Issues.completes (h : Issues i op a) : AccessCompletes i op a := by
  obtain ⟨body, hexec, hbody⟩ := h
  intro f s b hb
  rw [hexec]
  exact accessDone_of_body hb (hbody f s b hb)

theorem Issues.traps (h : Issues i op a) (f : Fields) (s : State) (b : Begun) (hb : s.begun op f pb0 = some b) :
    b.AccessTraps (exec (i f) s) s (a b) := by
  obtain ⟨body, hexec, hbody⟩ := h
  rw [hexec]
  exact accessTraps_of_body hb (hbody f s b hb)

theorem Issues.fenced (h : Issues i op a) {f : Fields} {s : State} {b : Begun} (hb : s.begun op f pb0 = some b) (hact : b.y.act ≠ 0)
    (hfence : b.t.fenced b.y.k b.y.r b.y.unit = true) : exec (i f) s = .next s := by
  obtain ⟨body, hexec, hbody⟩ := h
  rw [hexec]
  exact issue_wait hb ((hbody f s b hb).trans (perform_fenced hact hfence))

theorem Issues.idle (h : Issues i op a) {f : Fields} {s : State} {b : Begun} (hb : s.begun op f pb0 = some b) (hact : b.y.act = 0) :
    exec (i f) s = .next (b.after b.t [] 0 .fall) := by
  obtain ⟨body, hexec, hbody⟩ := h
  rw [hexec]
  exact issue_go hb ((hbody f s b hb).trans (perform_idle hact))

end

/-! The loads, stores and atomics. -/

/-- The access of a load of `n` bytes (R186). -/
def loadAccess (n : Nat) (signed : Bool) (b : Begun) : Access :=
  ⟨⟨if n = 4 ∨ n = 8 then [0, 1, 2, 3, 4] else [0, 1, 2, 3], 1, .load⟩, .read, true, b.y.f.c.getLsbD 0, n, n,
    b.y.elems (b.y.f.c.getLsbD 0) (fun l => .load n signed (b.y.f.c.getLsbD 0) b.y.f.d.toNat l), [], pb0⟩

/-- The access of a store of `n` bytes (R186). -/
def storeAccess (n : Nat) (b : Begun) : Access :=
  ⟨⟨if n = 4 ∨ n = 8 then [0, 1, 2, 3, 4] else [0, 1, 2, 3], 2, .store⟩, .write, false, b.y.f.c.getLsbD 0, n, n,
    b.y.elems (b.y.f.c.getLsbD 0) (fun l => .store (storedBytes b.y (b.y.f.c.getLsbD 0) n l)), [], pb0⟩

/-- The access of an ATOM, or of a RED (R189). -/
def atomAccess (red : Bool) (op : AtomOp) (b : Begun) : Access :=
  ⟨⟨if op.isFloat then [0, 1] else [0, 1, 4], if red then 10 else 11, op.ctrl red⟩, .atomic, !red, false, op.size, op.size,
    b.y.elems false (fun l => .atom op (b.y.atomArgs op l).1 (b.y.atomArgs op l).2 (if red then none else some b.y.f.d.toNat) l), [], pb0⟩

theorem storeBytes_eq (y : Issue) (sc : Bool) (n l : Nat) : y.storeBytes sc n l = storedBytes y sc n l := rfl

variable {i : Fields → Instr} {op : Nat}

theorem issues_load {n : Nat} {signed : Bool} (h : ∀ f s, exec (i f) s = loadOp op n signed f s) : Issues i op (loadAccess n signed) :=
  ⟨_, h, fun f s b hb => by rw [← (begun_op hb).2.2.2]; rfl⟩

theorem issues_store {n : Nat} (h : ∀ f s, exec (i f) s = storeOp op n f s) : Issues i op (storeAccess n) :=
  ⟨_, h, fun f s b hb => by rw [← (begun_op hb).2.2.2]; rfl⟩

theorem issues_atom (red : Bool) (o : AtomOp) (h : ∀ f s, exec (i f) s = atomOp op red o f s) : Issues i op (atomAccess red o) :=
  ⟨_, h, fun f s b hb => by rw [← (begun_op hb).2.2.2]; rfl⟩

/-- Settles O23: each load and store issues its access, which completes. -/
theorem loadsAndStoresMoveTheirLanes : Obligations.LoadsAndStoresMoveTheirLanes := by
  refine ⟨⟨?_, ?_, ?_, ?_, ?_, ?_, ?_, fun f pb s b hb => ?ldt⟩, ?_, ?_, ?_, ?_, ?_, fun f pb s b hb => ?stt⟩
  case ldt =>
    rw [show exec (.ldt f pb) s = execLdt f pb s from rfl, execLdt]
    exact accessDone_of_body hb (by simp only [← (begun_op hb).2.2.2]; rfl)
  case stt =>
    rw [show exec (.stt f pb) s = execStt f pb s from rfl, execStt]
    exact accessDone_of_body hb (by simp only [← (begun_op hb).2.2.2]; rfl)
  all_goals first
    | exact (issues_load fun _ _ => rfl).completes
    | exact (issues_store fun _ _ => rfl).completes

/-- Settles O24: each atomic issues its access, which completes. -/
theorem atomicsReadModifyWriteTheirLanes : Obligations.AtomicsReadModifyWriteTheirLanes :=
  ⟨(issues_atom false .addN32 fun _ _ => rfl).completes, (issues_atom false .addN64 fun _ _ => rfl).completes,
    (issues_atom false .addF32 fun _ _ => rfl).completes, (issues_atom false .add2Bf16 fun _ _ => rfl).completes,
    (issues_atom false .minS32 fun _ _ => rfl).completes, (issues_atom false .minN32 fun _ _ => rfl).completes,
    (issues_atom false .minF32 fun _ _ => rfl).completes, (issues_atom false .maxS32 fun _ _ => rfl).completes,
    (issues_atom false .maxN32 fun _ _ => rfl).completes, (issues_atom false .maxF32 fun _ _ => rfl).completes,
    (issues_atom false .andN32 fun _ _ => rfl).completes, (issues_atom false .orN32 fun _ _ => rfl).completes,
    (issues_atom false .xorN32 fun _ _ => rfl).completes, (issues_atom false .incN32 fun _ _ => rfl).completes,
    (issues_atom false .decN32 fun _ _ => rfl).completes, (issues_atom false .caddF32 fun _ _ => rfl).completes,
    (issues_atom false .xchgN32 fun _ _ => rfl).completes, (issues_atom false .xchgN64 fun _ _ => rfl).completes,
    (issues_atom false .casN32 fun _ _ => rfl).completes, (issues_atom false .casN64 fun _ _ => rfl).completes,
    (issues_atom true .addN32 fun _ _ => rfl).completes, (issues_atom true .addN64 fun _ _ => rfl).completes,
    (issues_atom true .addF32 fun _ _ => rfl).completes, (issues_atom true .add2Bf16 fun _ _ => rfl).completes,
    (issues_atom true .minS32 fun _ _ => rfl).completes, (issues_atom true .minN32 fun _ _ => rfl).completes,
    (issues_atom true .minF32 fun _ _ => rfl).completes, (issues_atom true .maxS32 fun _ _ => rfl).completes,
    (issues_atom true .maxN32 fun _ _ => rfl).completes, (issues_atom true .maxF32 fun _ _ => rfl).completes,
    (issues_atom true .andN32 fun _ _ => rfl).completes, (issues_atom true .orN32 fun _ _ => rfl).completes,
    (issues_atom true .xorN32 fun _ _ => rfl).completes, (issues_atom true .incN32 fun _ _ => rfl).completes,
    (issues_atom true .decN32 fun _ _ => rfl).completes, (issues_atom true .caddF32 fun _ _ => rfl).completes⟩

end Sys2Proof.Machine
end

section
/-! PROOFS. The checks of an access, in their order (R179, R222). -/

namespace Sys2Proof.Machine

/-- What is found first among the numbers below a bound. -/
theorem findSome?_range_eq_some {α : Type} {f : Nat → Option α} {n k : Nat} {y : α} (hk : k < n) (hy : f k = some y)
    (hlow : ∀ j < k, f j = none) : (List.range n).findSome? f = some y := by
  induction n with
  | zero => omega
  | succ n ih =>
    rw [List.range_succ, List.findSome?_append]
    rcases Nat.lt_succ_iff_lt_or_eq.1 hk with h | rfl
    · rw [ih h, Option.some_or]
    · rw [List.findSome?_eq_none_iff.2 (by simpa using hlow)]
      simp [hy]

/-! One check over the elements. -/

theorem firstBad_eq_none {els : List MemEl} {p : Int → Bool} (h : ∀ d ∈ els, p d.off = false) : firstBad els p = none := by
  simp only [firstBad, List.findSome?_eq_none_iff, List.find?_eq_none]
  intro l _ d hd
  simp [h d hd]

/-- The first element in the lowest lane. -/
theorem firstBad_eq_some {l r : List MemEl} {e : MemEl} {p : Int → Bool} (he : e.lane < 32) (hp : p e.off = true)
    (hl : ∀ d ∈ l, p d.off = true → e.lane < d.lane) (hr : ∀ d ∈ r, p d.off = true → e.lane ≤ d.lane) :
    firstBad (l ++ e :: r) p = some e := by
  refine findSome?_range_eq_some he ?_ fun j hj => ?_
  · rw [List.find?_append, List.find?_eq_none.2, Option.none_or, List.find?_cons_of_pos (by simp [hp])]
    intro d hd hc
    simp only [Bool.and_eq_true, beq_iff_eq] at hc
    exact absurd hc.1 (hl d hd hc.2).ne'
  · rw [List.find?_eq_none]
    intro d hd hc
    simp only [Bool.and_eq_true, beq_iff_eq] at hc
    rcases List.mem_append.1 hd with hd | hd
    · have := hl d hd hc.2; omega
    · rcases List.mem_cons.1 hd with rfl | hd
      · omega
      · have := hr d hd hc.2; omega

section
variable (x : Issue) (s : State) (h : HRef) (need : MemNeed) (sc : Bool) (size align : Nat)

/-- Whether check `n` fails for an offset, as it is decided. -/
def Issue.failsAt (n : Nat) (o : Int) : Bool :=
  match n with
  | 0 => !h.ent.v
  | 1 => !h.ent.ok || (h.ent.space == spCtrl && (s.ctrlStream h).isNone)
  | 2 => !need.spaces.contains h.ent.space
  | 3 => need.rights &&& h.rights != need.rights
  | 4 => h.addr o % align != 0
  | 5 => decide (o < 0) || decide ((h.ent.len : Int) < o + size)
  | 6 => h.ent.space == spScratch && decide ((x.w.scratchSize : Int) < h.ent.base + o + size)
  | 7 => h.ent.space == spCtrl && (match s.ctrlStream h with | some (_, t) => !ctrlAdmits t need.ctrl size o.toNat | none => true)
  | _ => h.ent.space == spScratch && x.r.frame.isSome

theorem and_ne_iff (a b : BitVec 4) : (a &&& b != a) = true ↔ ∃ i < 4, a.getLsbD i = true ∧ b.getLsbD i = false := by
  revert a b; decide

theorem failsAt_iff {n : Nat} (hn : n < 9) (o : Int) :
    x.failsAt s h need size align n o = true ↔ x.checkFails s h need size align n o := by
  match n, hn with
  | 0, _ => simp [Issue.failsAt, Issue.checkFails]
  | 1, _ => simp [Issue.failsAt, Issue.checkFails, spCtrl]
  | 2, _ => simp [Issue.failsAt, Issue.checkFails]
  | 3, _ => exact and_ne_iff _ _
  | 4, _ => exact bne_iff_ne
  | 5, _ => simp [Issue.failsAt, Issue.checkFails]
  | 6, _ => simp [Issue.failsAt, Issue.checkFails, spScratch]
  | 7, _ =>
    cases hs : s.ctrlStream h with
    | none => simp [Issue.failsAt, Issue.checkFails, spCtrl, hs]
    | some q =>
      obtain ⟨k, t⟩ := q
      simp [Issue.failsAt, Issue.checkFails, spCtrl, hs]
  | 8, _ => simp [Issue.failsAt, Issue.checkFails, spScratch, Option.isSome_iff_ne_none]

/-- The trap of check `n`; the record of the DOMAIN check holds neither handle nor offset (R222). -/
def Issue.trapAt (els : List MemEl) (n : Nat) : Option TrapReq :=
  let t := x.checkTrap h sc els (checkCause n).1 (checkCause n).2 (x.failsAt s h need size align n)
  if n = 8 then t.map (fun t => { t with info := 0, off := 0 }) else t

theorem addrTrap_eq (els : List MemEl) :
    x.addrTrap s h need sc size align els = (List.range 9).findSome? (x.trapAt s h need sc size align els) := by
  rw [show List.range 9 = [0, 1, 2, 3, 4, 5, 6, 7, 8] from rfl]
  rfl

variable {x s h need sc size align} {els : List MemEl} {n : Nat}

theorem trapAt_eq_none (hn : n < 9) (hf : ∀ d ∈ els, ¬ x.checkFails s h need size align n d.off) :
    x.trapAt s h need sc size align els n = none := by
  have hb : firstBad els (x.failsAt s h need size align n) = none :=
    firstBad_eq_none fun d hd => Bool.eq_false_iff.2 (mt (failsAt_iff x s h need size align hn _).1 (hf d hd))
  simp [Issue.trapAt, Issue.checkTrap, hb]

/-- The lanes that a check's record carries (R396). -/
def Issue.trapLanes (x : Issue) (sc : Bool) (els : List MemEl) (p : Int → Bool) : Word :=
  if sc then x.act else maskOf (fun l => els.any (fun d => d.lane == l && p d.off))

theorem trapAt_eq_some {l r : List MemEl} {e : MemEl} (hn : n < 9) (he : e.lane < 32) (hf : x.checkFails s h need size align n e.off)
    (hl : ∀ d ∈ l, x.checkFails s h need size align n d.off → e.lane < d.lane)
    (hr : ∀ d ∈ r, x.checkFails s h need size align n d.off → e.lane ≤ d.lane) :
    x.trapAt s h need sc size align (l ++ e :: r) n =
      some ⟨(checkCause n).1, (checkCause n).2, x.trapLanes sc (l ++ e :: r) (x.failsAt s h need size align n),
        if n = 8 then 0 else h.idx.setWidth 32, if n = 8 then 0 else BitVec.ofInt 32 e.off, 0⟩ := by
  simp only [← failsAt_iff x s h need size align hn] at hf hl hr
  have hb := firstBad_eq_some (p := x.failsAt s h need size align n) he hf hl hr
  simp only [Issue.trapAt, Issue.checkTrap, hb]
  by_cases h8 : n = 8
  · simp only [h8, if_true, Option.map_some]; rfl
  · simp only [h8, if_false]; rfl

/-- The first check that fails gives the trap. -/
theorem addrTrap_eq_some {l r : List MemEl} {e : MemEl} (hn : n < 9) (he : e.lane < 32)
    (hlow : ∀ k < n, ∀ d ∈ l ++ e :: r, ¬ x.checkFails s h need size align k d.off) (hf : x.checkFails s h need size align n e.off)
    (hl : ∀ d ∈ l, x.checkFails s h need size align n d.off → e.lane < d.lane)
    (hr : ∀ d ∈ r, x.checkFails s h need size align n d.off → e.lane ≤ d.lane) :
    x.addrTrap s h need sc size align (l ++ e :: r) =
      some ⟨(checkCause n).1, (checkCause n).2, x.trapLanes sc (l ++ e :: r) (x.failsAt s h need size align n),
        if n = 8 then 0 else h.idx.setWidth 32, if n = 8 then 0 else BitVec.ofInt 32 e.off, 0⟩ := by
  rw [addrTrap_eq]
  exact findSome?_range_eq_some hn (trapAt_eq_some hn he hf hl hr) fun k hk => trapAt_eq_none (hk.trans hn) (hlow k hk)

theorem addrTrap_eq_none (hf : ∀ n < 9, ∀ d ∈ els, ¬ x.checkFails s h need size align n d.off) :
    x.addrTrap s h need sc size align els = none := by
  rw [addrTrap_eq, List.findSome?_eq_none_iff]
  intro k hk
  exact trapAt_eq_none (List.mem_range.1 hk) (hf k (List.mem_range.1 hk))

/-- Outside the scalar form the record carries the lanes that fail the check. -/
theorem getLsbD_trapLanes (hn : n < 9) {j : Nat} (hj : j < 32) :
    (x.trapLanes false els (x.failsAt s h need size align n)).getLsbD j = true ↔
      ∃ d ∈ els, d.lane = j ∧ x.checkFails s h need size align n d.off := by
  simp only [Issue.trapLanes, Bool.false_eq_true, if_false, maskOf_eq_bitsOf, getLsbD_bitsOf _ hj, List.any_eq_true, Bool.and_eq_true,
    beq_iff_eq, failsAt_iff x s h need size align hn]

end

/-! WAITV (R197). -/

/-- The body of WAITV where its unit has no monitor. -/
theorem waitv_trap {f : Fields} {s : State} {b : Begun} {q : TrapReq} (hb : s.begun 0x161 f pb0 = some b)
    (hm : b.y.r.monitorOf b.y.unit = none) (hact : b.y.act ≠ 0) (hfence : b.t.fenced b.y.k b.y.r b.y.unit = false)
    (hlog : b.t.logUsed b.y.c b.y.r.quad < 256)
    (hown : b.t.log.any (fun e => e.rope == b.y.k && e.unit == b.y.unit && e.pc == b.y.pc && e.isWaitv b.y.r) = false)
    (hq : b.y.addrTrap b.t (b.t.ropeHandle b.y.r (f.a.toNat % 16)) ⟨[0, 1, 4], 1, .load⟩ true (if f.d.getLsbD 3 then 8 else 4)
      (if f.d.getLsbD 3 then 8 else 4) (b.y.elems true (fun l => .load (if f.d.getLsbD 3 then 8 else 4) false true 0 l)) = some q) :
    exec (.waitv f) s = .next (b.trapped s q) := by
  rw [show exec (.waitv f) s = execWaitv f s from rfl, execWaitv]
  refine issue_trap hb ?_
  simp only [hm, if_neg hact, hfence, hown, decide_eq_false (not_le.2 hlog), Bool.or_self, Bool.false_eq_true, if_false]
  rw [show ([spGlobal, spScratch, spCtrl] : List Nat) = [0, 1, 4] from rfl, hq]

/-! Tiles (R187). -/

theorem ldt_traps (f : Fields) (pb : PB) (s : State) (b : Begun) (hb : s.begun 0x190 f pb = some b) :
    b.AccessTraps (exec (.ldt f pb) s) s ⟨⟨[0, 1], 1, .other⟩, .read, true, false, 4, 4,
      b.y.tileElems pb (fun k l => .load 4 false false (f.d.toNat + k) l), [], pb⟩ := by
  rw [show exec (.ldt f pb) s = execLdt f pb s from rfl, execLdt]
  exact fun q hact hcnt hlog hfence hq => issue_trap hb (perform_trap (a := ⟨⟨[0, 1], 1, .other⟩, .read, true, false, 4, 4, _, _, pb⟩)
    hact hcnt hlog hfence hq)

theorem stt_traps (f : Fields) (pb : PB) (s : State) (b : Begun) (hb : s.begun 0x191 f pb = some b) :
    b.AccessTraps (exec (.stt f pb) s) s ⟨⟨[0, 1], 2, .other⟩, .write, false, false, 4, 4,
      b.y.tileElems pb (fun k l => .store (leBytes 4 (b.y.r.vr (f.d.toNat + k) l).toNat)), [], pb⟩ := by
  rw [show exec (.stt f pb) s = execStt f pb s from rfl, execStt]
  exact accessTraps_of_body hb rfl

/-- Settles O26: the first check that fails gives the record, and each instruction that issues an access takes its trap. -/
theorem accessesTrapOnTheFirstFailingCheck : Obligations.AccessesTrapOnTheFirstFailingCheck := by
  refine ⟨fun x s h need sc size align l e r n hn he hlow hf hl hr =>
      ⟨_, addrTrap_eq_some hn he hlow hf hl hr, fun hsc => if_pos hsc, fun hsc j hj => hsc ▸ getLsbD_trapLanes hn hj⟩,
    fun x s h need sc size align l hf => addrTrap_eq_none hf,
    (issues_load fun _ _ => rfl).traps, (issues_load fun _ _ => rfl).traps,
    (issues_load fun _ _ => rfl).traps, (issues_load fun _ _ => rfl).traps,
    (issues_load fun _ _ => rfl).traps, (issues_load fun _ _ => rfl).traps,
    (issues_load fun _ _ => rfl).traps, (issues_store fun _ _ => rfl).traps,
    (issues_store fun _ _ => rfl).traps, (issues_store fun _ _ => rfl).traps,
    (issues_store fun _ _ => rfl).traps, (issues_store fun _ _ => rfl).traps,
    ldt_traps, stt_traps,
    (issues_atom false .addN32 fun _ _ => rfl).traps, (issues_atom false .addN64 fun _ _ => rfl).traps,
    (issues_atom false .addF32 fun _ _ => rfl).traps, (issues_atom false .add2Bf16 fun _ _ => rfl).traps,
    (issues_atom false .minS32 fun _ _ => rfl).traps, (issues_atom false .minN32 fun _ _ => rfl).traps,
    (issues_atom false .minF32 fun _ _ => rfl).traps, (issues_atom false .maxS32 fun _ _ => rfl).traps,
    (issues_atom false .maxN32 fun _ _ => rfl).traps, (issues_atom false .maxF32 fun _ _ => rfl).traps,
    (issues_atom false .andN32 fun _ _ => rfl).traps, (issues_atom false .orN32 fun _ _ => rfl).traps,
    (issues_atom false .xorN32 fun _ _ => rfl).traps, (issues_atom false .incN32 fun _ _ => rfl).traps,
    (issues_atom false .decN32 fun _ _ => rfl).traps, (issues_atom false .caddF32 fun _ _ => rfl).traps,
    (issues_atom false .xchgN32 fun _ _ => rfl).traps, (issues_atom false .xchgN64 fun _ _ => rfl).traps,
    (issues_atom false .casN32 fun _ _ => rfl).traps, (issues_atom false .casN64 fun _ _ => rfl).traps,
    (issues_atom true .addN32 fun _ _ => rfl).traps, (issues_atom true .addN64 fun _ _ => rfl).traps,
    (issues_atom true .addF32 fun _ _ => rfl).traps, (issues_atom true .add2Bf16 fun _ _ => rfl).traps,
    (issues_atom true .minS32 fun _ _ => rfl).traps, (issues_atom true .minN32 fun _ _ => rfl).traps,
    (issues_atom true .minF32 fun _ _ => rfl).traps, (issues_atom true .maxS32 fun _ _ => rfl).traps,
    (issues_atom true .maxN32 fun _ _ => rfl).traps, (issues_atom true .maxF32 fun _ _ => rfl).traps,
    (issues_atom true .andN32 fun _ _ => rfl).traps, (issues_atom true .orN32 fun _ _ => rfl).traps,
    (issues_atom true .xorN32 fun _ _ => rfl).traps, (issues_atom true .incN32 fun _ _ => rfl).traps,
    (issues_atom true .decN32 fun _ _ => rfl).traps, (issues_atom true .caddF32 fun _ _ => rfl).traps,
    fun f s b q hb hm hact hfence hlog hown hq => waitv_trap hb hm hact hfence hlog hown hq⟩

end Sys2Proof.Machine
end

section
/-! PROOFS. WAITV (R197). -/

namespace Sys2Proof.Machine

/-- An instruction that starts finds its rope's workgroup in the state. -/
theorem begun_wg {s : State} {op : Nat} {f : Fields} {pb : PB} {b : Begun} (h : s.begun op f pb = some b) :
    tget b.t.wgs b.y.r.wg = some b.y.w := by
  obtain ⟨hi, -, -, hy, ht, -⟩ := begun_spec h
  obtain ⟨-, -, -, -, -, hw, -⟩ := issuing_spec hi
  have hr := b.x.viewed_rope s (b.x.readsOf op b.m f pb)
  rw [ht, hy]
  rw [show (b.x.viewed s (b.x.readsOf op b.m f pb)).r.wg = b.x.r.wg from by rw [hr]]
  exact hw

section
variable {b : Begun} {s1 : State} {t : Target} {m : Monitor}

/-- The state that a WAITV's comparison leaves where it holds. -/
theorem waitvRead_go {s2 : State} {fr : Nat} {bs : List Byte} {op : Nat} {f : Fields} {pb : PB} {s : State} {body : Issue → State → Act}
    (hb : s.begun op f pb = some b) (hread : s1.waitvReads t m = some (s2, fr, bs)) (h : body b.y b.t = b.y.waitvRead s2 m t fr bs) :
    b.WaitvDone (issue op f pb body s) s1 t m := by
  intro s2' fr' bs' hread' hcc
  obtain ⟨rfl, rfl, rfl⟩ : s2' = s2 ∧ fr' = fr ∧ bs' = bs := by simpa [hread'] using hread
  unfold Issue.waitvRead at h
  simp only [icond_eq_intCond] at h ⊢
  generalize intCond _ _ _ = c at h ⊢
  cases c with
  | true => simpa [Rope.setMonitor, FenceHold.add] using issue_go hb h
  | false => exact issue_go hb h

/-- A word that can be read is read. -/
theorem waitvTry_eq {x : Issue} {s s2 : State} {fr : Nat} {bs : List Byte} (hw : tget s.wgs t.wg = some x.w)
    (hread : s.waitvReads t m = some (s2, fr, bs)) : x.waitvTry s m t = x.waitvRead s2 m t fr bs := by
  unfold State.waitvReads at hread
  unfold Issue.waitvTry
  by_cases h1 : t.space = 1
  · simp only [h1, if_true, hw] at hread
    split at hread
    · next hp =>
      obtain ⟨rfl, rfl, rfl⟩ : s = s2 ∧ 0 = fr ∧ s.readAt t 0 (m.addr % 2 ^ 64) m.size = bs := by simpa using hread
      have hpoison : s.ringPoison t (m.lane ((x.active.head?).getD 0)) = false := by simp [State.ringPoison, h1, spCtrl]
      have hown : s.ringOwn t (m.addr % 2 ^ 64) m.size = s := by simp [State.ringOwn, h1, spCtrl]
      rw [if_neg (fun hc => absurd hc.2 (by rw [hp]; decide)), if_neg (by rw [h1]; decide), hpoison, hown]
      rfl
    · cases hread
  · simp only [h1, if_false] at hread
    simp only [spScratch, h1, false_and, if_false, spGlobal]
    by_cases h0 : t.space = 0
    · simp only [h0, if_true] at hread ⊢
      split at hread
      · next hx =>
        split at hread
        · cases hread
        · next hp =>
          obtain ⟨rfl, rfl, rfl⟩ := by simpa using hread
          rw [hx]
          exact if_neg hp
      · cases hread
    · simp only [h0, if_false] at hread ⊢
      rw [show s.ringPoison t (m.lane ((x.active.head?).getD 0)) = s.ringPoison t (m.lane 0) from rfl]
      split at hread
      · cases hread
      · next hp =>
        obtain ⟨rfl, rfl, rfl⟩ : s.ringOwn t (m.addr % 2 ^ 64) m.size = s2 ∧ 0 = fr ∧ s.readAt t 0 (m.addr % 2 ^ 64) m.size = bs := by
          simpa using hread
        rw [if_neg hp]

end

/-- Settles O30: WAITV reads by the monitor that it takes at its issue, or by the one that it slept on. -/
theorem waitvCompletesOrSleeps : Obligations.WaitvCompletesOrSleeps := by
  refine ⟨fun f s b hb hm hact => ?_, fun f s b hb hissue => ?_, fun f s b m hb hm => ?_, fun x s m => ⟨rfl, rfl, rfl, fun h => ?_⟩⟩
  · rw [show exec (.waitv f) s = execWaitv f s from rfl, execWaitv]
    exact issue_go hb (by simp only [hm, if_pos hact])
  · obtain ⟨hm, hact, hfence, hlog, hown, hq, hbehind⟩ := hissue
    have hw := begun_wg hb
    obtain rfl := (begun_op hb).2.2.2
    intro s2 fr bs hread hcc
    rw [show exec (.waitv b.y.f) s = execWaitv b.y.f s from rfl, execWaitv]
    refine waitvRead_go hb hread ?_ s2 fr bs hread hcc
    simp only [hm, if_neg hact, hfence, hown, decide_eq_false (not_le.2 hlog), Bool.or_self, Bool.false_eq_true, if_false]
    rw [show ([spGlobal, spScratch, spCtrl] : List Nat) = [0, 1, 4] from rfl, hq]
    simp only []
    rw [show b.t.behindLog b.y.k (b.y.goal b.t (b.t.ropeHandle b.y.r (b.y.f.a.toNat % 16))) _ _ = false from hbehind, ← waitvTry_eq hw hread]
    rfl
  · intro s2 fr bs hread hcc
    have hw := begun_wg hb
    rw [show exec (.waitv f) s = execWaitv f s from rfl, execWaitv]
    refine waitvRead_go hb hread ?_ s2 fr bs hread hcc
    simp only [hm]
    exact waitvTry_eq hw hread
  · simp only [Issue.watched, h, spGlobal, if_true, BitVec.toNat_ofNat]

end Sys2Proof.Machine
end

section
/-! PROOFS. Waits and fences (R195, R196, R198). -/

namespace Sys2Proof.Machine

theorem limitOk_iff (n : Nat) (lim : BitVec 8) : limitOk n lim = true ↔ lim.toNat = 63 ∨ n ≤ lim.toNat := by simp [limitOk]

/-- What still holds a unit's memory instructions behind a fence (R198, R233, R307). -/
theorem fenced_iff (s : State) (k : Nat) (r : Rope) (u : Nat) : s.fenced k r u = true ↔
    (∃ o ∈ r.outst, o.tok = none ∧ (o.id < r.fence.acq ∨ o.id < r.fence.rel)) ∨
    (∃ m ∈ r.monitors, m.unit ≠ u ∧ (m.id < r.fence.acq ∨ m.id < r.fence.rel)) ∨
    (∃ e ∈ s.log, e.rope = k ∧ e.orphan = false ∧ e.unit ≠ u ∧ e.isWaitv r = true ∧ (e.id < r.fence.acq ∨ e.id < r.fence.rel)) ∨
    (∃ e ∈ s.log, e.rope = k ∧ e.orphan = true ∧ (e.id < r.fence.rel ∨ e.loads = true ∧ e.id < r.fence.acq)) ∨
    (∃ o ∈ r.stores, o.id < r.fence.rel) ∨ (∃ q ∈ s.slots, ∃ l, q.2.fill = some l ∧ l.rope = k ∧ l.id < r.fence.rel) ∨
    (∃ q ∈ s.ctxs, q.2.rope = k ∧ q.2.task = none ∧ q.2.id < r.fence.rel) := by
  simp only [State.fenced, Bool.or_eq_true, or_assoc, List.any_eq_true, Bool.and_eq_true, decide_eq_true_iff, beq_iff_eq, bne_iff_ne,
    Option.isNone_iff_eq_none, Bool.not_eq_true', lt_max_iff, and_assoc]
  refine or_congr Iff.rfl (or_congr Iff.rfl (or_congr ?waitvs (or_congr ?orphans (or_congr Iff.rfl (or_congr ?fills Iff.rfl)))))
  case waitvs =>
    refine exists_congr fun e => and_congr_right fun _ => and_congr_right fun _ => and_congr_right fun _ => and_congr_right fun _ => ?_
    exact and_comm
  case orphans =>
    refine exists_congr fun e => and_congr_right fun _ => and_congr_right fun _ => and_congr_right fun _ => ?_
    cases e.loads <;> simp [or_comm]
  case fills =>
    refine exists_congr fun q => and_congr_right fun _ => ?_
    cases q.2.fill <;> simp

/-- Settles O22: WAITC by its limits, a fence by what it adds, and what is held back waits before anything else is looked at. -/
theorem waitsAndFencesComplete : Obligations.WaitsAndFencesComplete := by
  refine ⟨fun f s b hb hl hs hc => ?waitc, fun f s b hb => ?acq, fun f s b hb => ?rel, fun f s b hb => ?ar, fenced_iff,
    fun f s b hb ha hf => (issues_load fun _ _ => rfl).fenced hb ha hf, fun f s b hb ha hf => (issues_load fun _ _ => rfl).fenced hb ha hf,
    fun f s b hb ha hf => (issues_store fun _ _ => rfl).fenced hb ha hf, fun f s b hb ha hf => (issues_store fun _ _ => rfl).fenced hb ha hf,
    fun f s b hb ha hf => (issues_atom false .addN32 fun _ _ => rfl).fenced hb ha hf,
    fun f s b hb ha hf => (issues_atom true .addN32 fun _ _ => rfl).fenced hb ha hf, fun f s b hb ha hf => ?mapld, fun f s b hb ha hf hsh hd => ?cprun⟩
  case waitc =>
    rw [show exec (.waitc f) s = execWaitc f s from rfl, execWaitc]
    exact issue_go hb (if_pos (by simp only [Bool.and_eq_true, limitOk_iff]; exact ⟨⟨hl, hs⟩, hc⟩))
  case acq =>
    rw [show exec (.fenceAcq f) s = fenceOp 0x162 true false f s from rfl, fenceOp]
    exact issue_go hb rfl
  case rel =>
    rw [show exec (.fenceRel f) s = fenceOp 0x163 false true f s from rfl, fenceOp]
    exact issue_go hb rfl
  case ar =>
    rw [show exec (.fenceAr f) s = fenceOp 0x164 true true f s from rfl, fenceOp]
    exact issue_go hb rfl
  case mapld =>
    rw [show exec (.mapld f) s = execMapld f s from rfl, execMapld]
    exact issue_wait hb (by simp only [if_neg ha, hf, Bool.true_or, if_true])
  case cprun =>
    obtain ⟨h8, hin⟩ := hd
    rw [show exec (.cprun f) s = execCprun f s from rfl, execCprun]
    refine issue_wait hb ?_
    simp only [addInt, if_neg ha, if_neg hsh, h8, hin, Issue.copyWaits, hf, Bool.true_or, if_true]
    simp

end Sys2Proof.Machine
end

section
/-! PROOFS. Lanes moved, matched and voted over; hints, SPLICE and EXIT (R154, R164 to R166, R171 to R173). -/

namespace Sys2Proof.Machine

theorem srcLane_eq (x : Issue) (n j : Nat) : x.srcLane n j = laneOrZero x n j := rfl

theorem laneNum_eq (x : Issue) : x.laneNum = laneArg x := by
  unfold Issue.laneNum laneArg; split <;> rfl

theorem toNat_beq {w : Nat} (a b : BitVec w) : (a.toNat == b.toNat) = (a == b) := by
  rw [Bool.eq_iff_iff, beq_iff_eq, beq_iff_eq, BitVec.toNat_inj]

theorem matchMask_32 (x : Issue) (l : Nat) :
    x.matchMask 32 l = bitsOf (fun j => x.act.getLsbD j && x.r.vr x.f.a.toNat j == x.r.vr x.f.b.toNat l) := by
  rw [Issue.matchMask, maskOf_eq_bitsOf]
  simp only [vecRaw, reduceCtorEq, if_false, if_true, toNat_beq, show (32 : Nat) ≠ 64 by decide]

theorem matchMask_64 (x : Issue) (l : Nat) :
    x.matchMask 64 l = bitsOf (fun j => x.act.getLsbD j && x.r.vpair x.f.a.toNat j == x.r.vpair x.f.b.toNat l) := by
  rw [Issue.matchMask, maskOf_eq_bitsOf]
  simp only [vecRaw, if_true, toNat_beq]

/-! Votes (R171). -/

theorem votes_eq_bitsOf (x : Issue) : x.votes = bitsOf (fun l => x.act.getLsbD l && (x.r.pr (x.f.a.toNat % 8)).getLsbD l) := by
  refine BitVec.eq_of_getLsbD_eq fun i hi => ?_
  rw [getLsbD_bitsOf _ hi, Issue.votes, BitVec.getLsbD_and]

/-- A word is not zero where one of its bits is set. -/
theorem word_ne_zero_iff (w : Word) : (w != 0) = (List.range 32).any (fun l => w.getLsbD l) := by
  rw [Bool.eq_iff_iff, bne_iff_ne, List.any_eq_true]
  constructor
  · intro h
    by_contra hn
    refine h (BitVec.eq_of_getLsbD_eq fun i hi => ?_)
    rw [show (0 : Word).getLsbD i = false from BitVec.getLsbD_zero]
    exact Bool.eq_false_iff.2 fun hb => hn ⟨i, List.mem_range.2 hi, hb⟩
  · rintro ⟨l, -, hb⟩ rfl
    simp at hb

theorem votes_any (x : Issue) :
    (x.votes != 0) = (List.range 32).any (fun l => x.act.getLsbD l && (x.r.pr (x.f.a.toNat % 8)).getLsbD l) := by
  rw [word_ne_zero_iff]
  simp only [Issue.votes, BitVec.getLsbD_and]

theorem votes_all (x : Issue) :
    (x.votes == x.act) = (List.range 32).all (fun l => !x.act.getLsbD l || (x.r.pr (x.f.a.toNat % 8)).getLsbD l) := by
  rw [Bool.eq_iff_iff, beq_iff_eq, List.all_eq_true]
  constructor
  · intro h l _
    have hb := congrArg (·.getLsbD l) h
    simp only [Issue.votes, BitVec.getLsbD_and] at hb
    cases ha : x.act.getLsbD l <;> simp_all
  · intro h
    refine BitVec.eq_of_getLsbD_eq fun i hi => ?_
    have hb := h i (List.mem_range.2 hi)
    rw [Issue.votes, BitVec.getLsbD_and]
    cases ha : x.act.getLsbD i with
    | false => rfl
    | true => simpa [ha] using hb

/-- Settles O18: what each writes is what its lanes read, match or vote. -/
theorem crossLaneMovesMatchesAndVotes : Obligations.CrossLaneMovesMatchesAndVotes := by
  refine ⟨⟨fun f s b hb => ?shfl, fun f s b hb => ?bcast, fun f s b hb => ?rdlane, fun f s b hb => ?wrlane, fun f s b hb => ?match32,
    fun f s b hb => ?match64⟩, fun f s b hb ha => ?any, fun f s b hb ha => ?all, fun f s b hb ha => ?bal⟩
  all_goals obtain rfl := (begun_op hb).2.2.2
  case shfl =>
    rw [show exec (.shfl b.y.f) s = execShfl b.y.f s from rfl, execShfl]
    exact issue_go hb rfl
  case bcast =>
    rw [← laneNum_eq, show exec (.bcast b.y.f) s = execBcast b.y.f s from rfl, execBcast]
    exact issue_go hb rfl
  case rdlane =>
    rw [← laneNum_eq, show exec (.rdlane b.y.f) s = execRdlane b.y.f s from rfl, execRdlane]
    exact issue_go hb rfl
  case wrlane =>
    rw [← laneNum_eq, show exec (.wrlane b.y.f) s = execWrlane b.y.f s from rfl, execWrlane]
    exact issue_go hb rfl
  case match32 =>
    rw [show exec (.matchN32 b.y.f) s = matchOp 0x10C 32 b.y.f s from rfl, matchOp]
    simp only [← matchMask_32]
    exact issue_go hb rfl
  case match64 =>
    rw [show exec (.matchN64 b.y.f) s = matchOp 0x10D 64 b.y.f s from rfl, matchOp]
    simp only [← matchMask_64]
    exact issue_go hb rfl
  case any =>
    rw [← votes_any, show exec (.voteAny b.y.f) s = voteOp 0x158 (fun x => x.votes != 0) b.y.f s from rfl, voteOp]
    exact issue_go hb (by rw [if_neg ha])
  case all =>
    rw [← votes_all, show exec (.voteAll b.y.f) s = voteOp 0x159 (fun x => x.votes == x.act) b.y.f s from rfl, voteOp]
    exact issue_go hb (by rw [if_neg ha])
  case bal =>
    rw [← votes_eq_bitsOf, show exec (.voteBal b.y.f) s = execVoteBal b.y.f s from rfl, execVoteBal]
    exact issue_go hb (by rw [if_neg ha])

end Sys2Proof.Machine
end

section
/-! PROOFS. SPLICE, EXIT and the hints (R164 to R166, R173). -/

namespace Sys2Proof.Machine

section
variable {f : Fields} {s : State} {b : Begun} {r : Rope} {op : Nat} (compact : Bool)

/-- SPLICE of a whole rope falls through (R165, R168). -/
theorem spliceOp_whole (hb : s.begun op f pb0 = some b) (hr : tget b.t.ropes b.y.k = some r) (hw : r.whole = true) :
    spliceOp op compact f s = .next (b.after (b.t.setRope b.y.k { r with
      cand := if compact then some (b.y.pc, if r.countsClear then b.y.core.cyc + 1 else 0) else r.cand, forced := false }) [] 0 .fall) := by
  rw [spliceOp]
  exact issue_go hb (by simp only [hr, hw, if_true])

/-- SPLICE of a frayed rope moves the strands of its unit (R164). -/
theorem spliceOp_frayed (hb : s.begun op f pb0 = some b) (hr : tget b.t.ropes b.y.k = some r) (hw : r.whole = false) :
    spliceOp op compact f s = .next (b.after (b.t.setRope b.y.k (b.y.settle
      { r with strands := mapUnit b.y.unit (fun _ t => t.splice b.y.pc b.y.len compact) 0 r.strands })) [] 0 .done) := by
  rw [spliceOp]
  exact issue_go hb (by simp only [hr, hw, Bool.false_eq_true, if_false])

end

/-! EXIT of a strand's lanes (R166). -/

theorem Strand.exit_some_left {t : Strand} {m : BitVec 4} (fall : DWord) (h : t.active &&& ~~~m ≠ 0) :
    t.exit m fall = { t with retired := t.retired ||| (t.active &&& m), active := t.active &&& ~~~m, pc := fall } :=
  if_pos (bne_iff_ne.2 h)

/-- With none of its active lanes left, all of them have retired. -/
theorem and_eq_of_and_not_eq_zero {a m : BitVec 4} (h : a &&& ~~~m = 0) : a &&& m = a := by
  revert a m; decide

theorem Strand.exit_next_group {t : Strand} {m : BitVec 4} (fall : DWord) {p : DWord} {k : BitVec 4} {r : List (DWord × BitVec 4)}
    (h : t.active &&& ~~~m = 0) (hs : t.stack = (p, k) :: r) :
    t.exit m fall = { t with retired := t.retired ||| t.active, active := k, pc := p, stack := r } := by
  simp [Strand.exit, h, hs, and_eq_of_and_not_eq_zero h]

theorem Strand.exit_no_group {t : Strand} {m : BitVec 4} (fall : DWord) (h : t.active &&& ~~~m = 0) (hs : t.stack = []) :
    t.exit m fall = if t.parked = 0 then { t with retired := t.retired ||| t.active, active := 0 }
      else { t with retired := t.retired ||| t.active, active := t.parked, parked := 0, waiting := true } := by
  simp [Strand.exit, h, hs, and_eq_of_and_not_eq_zero h]

/-- Settles O20: the strands move as their parked lanes and stack say. -/
theorem splicesExitsAndHints : Obligations.SplicesExitsAndHints := by
  refine ⟨⟨fun f s b hb => ?yield, fun f s b hb => ?nop, fun f s b r hb hr hw => spliceOp_whole false hb hr hw,
    fun f s b r hb hr hw => spliceOp_whole true hb hr hw, fun f s b r hb hr hw => spliceOp_frayed false hb hr hw,
    fun f s b r hb hr hw => spliceOp_frayed true hb hr hw, fun f s b hb hg hn => ?exitNone, fun f s b hb hg hfr => ?exit⟩,
    fun t a n c p m r hs => ?group, fun t a n c hs => ?noGroup, fun t m fall h => ?left, fun t m fall p k r h hs => ?next,
    fun t m fall h hs => ?last⟩
  case yield =>
    rw [show exec (.yield f) s = execYield f s from rfl, execYield]
    exact issue_go hb rfl
  case nop =>
    rw [show exec (.nop f) s = execNop f s from rfl, execNop]
    exact issue_go hb rfl
  case exitNone =>
    rw [show exec (.exit f) s = execExit f s from rfl, execExit]
    exact issue_go hb (if_pos ⟨hg, hn⟩)
  case exit =>
    rw [show exec (.exit f) s = execExit f s from rfl, execExit]
    exact issue_go hb (by rw [if_neg hg, hfr]; rfl)
  case group => simp [Strand.splice, hs]
  case noGroup => simp [Strand.splice, hs]
  case left => simp [Strand.exit_some_left fall h]
  case next => simp [Strand.exit_next_group fall h hs]
  case last =>
    rw [Strand.exit_no_group fall h hs]
    by_cases hp : t.parked = 0
    · simp only [if_pos hp, and_self]
    · simp only [if_neg hp, and_self]

end Sys2Proof.Machine
end

section
/-! PROOFS. Map slots and SFU enqueues (R134 to R138, R199 to R203). -/

namespace Sys2Proof.Machine

theorem mapqWord_eq (m : MapSlot) : mapqWord m = match m.state with
    | .empty => 0
    | .pending => 1
    | .valid => 2 + m.wfmt * 2 ^ 3 + m.blk * 2 ^ 8 + m.succe.toNat * 2 ^ 10 + m.succ * 2 ^ 11
    | .failed => 4 := by
  unfold mapqWord
  cases m.state
  case valid => cases m.succe <;> simp <;> ring
  all_goals rfl

/-- Where a range is pinned, so is each of its bytes (R298). -/
theorem pinnedAt_byte {w : Workgroup} {a n i : Nat} (h : w.pinnedAt a n = true) (hi : i < n) : w.pinnedAt (a + i) 1 = true := by
  unfold Workgroup.pinnedAt at h ⊢
  simp only [Bool.or_eq_true, beq_iff_eq, List.all_eq_true, List.mem_range] at h ⊢
  rcases h with (h | h) | h
  · exact .inl (.inl h)
  · omega
  · refine .inr fun j hj => ?_
    have := h ((a + i) / 4096 - a / 4096) (by omega)
    rwa [show a / 4096 + ((a + i) / 4096 - a / 4096) = (a + i) / 4096 + j by omega] at this

/-- The pages of a format block are pinned (R298). -/
theorem blockPinned_of {x : Issue} {a : Nat}
    (h : x.w.pinnedAt a 32 = true ∨ x.core.frames x.r.dslot = 1 ∧ x.w.pinnedAt (a + 31) 1 = true) : x.blockPinned a = true := by
  unfold Issue.blockPinned
  by_cases hf : x.core.frames x.r.dslot = 1
  · rw [if_pos hf, if_pos hf]
    rcases h with h | h
    · exact pinnedAt_byte h (by decide)
    · exact h.2
  · rw [if_neg hf, if_neg hf]
    exact h.resolve_right fun hc => hf hc.1

/-- Settles O17: each check of the map instructions passes, and what is left is the slot. -/
theorem mapSlotsAreLoadedClearedAndRead : Obligations.MapSlotsAreLoadedClearedAndRead := by
  refine ⟨fun f s b k m hb hact hslot hfence hbehind hst hfb hwa hframe hout hpin => ?mapld, fun f s b k hb hact hslot hst => ?mapclr,
    fun f s b k hb hact hslot hst => ?mapq⟩
  case mapld =>
    intro fb s1 hok hm hmout
    rw [show exec (.mapld f) s = execMapld f s from rfl, execMapld]
    refine issue_go hb ?_
    simp only [if_neg hact, hfence, hbehind, Bool.or_self, Bool.false_eq_true, if_false, hslot, if_neg hst]
    rw [if_neg (by omega), hframe]
    simp only [Option.isSome_none, Bool.false_eq_true, if_false, hout, blockPinned_of hpin, Bool.not_true]
    rw [show blockOk (b.t.readScratch b.y.r.wg (b.y.r.sr f.b.toNat).toNat 32) = true from hok]
    simp only [Bool.not_true, Bool.false_eq_true, if_false]
    subst hm
    rw [show (fillOf b.y b.t.drawDelay.2.nextId (b.y.r.sr f.a.toNat).toNat (b.t.readScratch b.y.r.wg (b.y.r.sr f.b.toNat).toNat 32)
      (b.y.core.cyc + 1 + b.t.drawDelay.1)).outside b.y.w.scratchSize = none from hmout]
  case mapclr =>
    rw [show exec (.mapclr f) s = execMapclr f s from rfl, execMapclr]
    exact issue_go hb (by simp only [if_neg hact, hslot, if_neg hst]; rfl)
  case mapq =>
    rw [show exec (.mapq f) s = execMapq f s from rfl, execMapq]
    refine issue_go hb ?_
    simp only [if_neg hact, hslot]
    rw [if_neg (by simpa [imp_iff_not_or] using hst)]
    exact congrArg (fun v => Act.go b.t [.scalar f.d.toNat (BitVec.ofNat 32 v)] 0 .fall) (mapqWord_eq _)

theorem enqueuesWith_of_sfqOp {i : Fields → Instr} {op : Nat} (h : ∀ f s, exec (i f) s = sfqOp op f s) : EnqueuesWith i op (op - 0x1C0) := by
  intro f s b s1 extra hb hm share q n hshare htok hroom hmine
  rw [h, sfqOp]
  refine issue_go hb ?_
  simp only [(begun_spec hb).2.1, mapped_ok hm]
  rw [if_neg hshare, if_neg htok, if_neg (not_or.2 ⟨not_le.2 hroom, not_le.2 hmine⟩)]

/-- Settles O32: the enqueue passes its checks, and what is left is its token and its entry. -/
theorem sfuEnqueuesStartATokenPending : Obligations.SfuEnqueuesStartATokenPending := by
  refine ⟨?_, ?_, ?_, ?_, ?_, ?_, ?_, ?_, ?_, ?_⟩ <;> exact enqueuesWith_of_sfqOp fun _ _ => rfl

end Sys2Proof.Machine
end

section
/-! PROOFS. How the lanes of a unit move (R162). -/

namespace Sys2Proof.Machine

/-! The groups of a strand's lanes. -/

/-- Groups of the active lanes below `n` by next PC, in ascending order of their lowest lane. -/
structure Grouped (nx : Nat → DWord) (i : Nat) (act : BitVec 4) (n : Nat) (gs : List (DWord × BitVec 4)) : Prop where
  bits : ∀ g ∈ gs, ∀ k < 4, g.2.getLsbD k = (decide (k < n) && act.getLsbD k && nx (4 * i + k) == g.1)
  covers : ∀ k < n, act.getLsbD k = true → ∃ g ∈ gs, g.1 = nx (4 * i + k)
  some : ∀ g ∈ gs, ∃ k < n, g.2.getLsbD k = true
  order : gs.Pairwise (fun g h => g.1 ≠ h.1 ∧ ∃ k < n, g.2.getLsbD k = true ∧ ∀ j ≤ k, h.2.getLsbD j = false)

theorem addGroup_of_mem {pc : DWord} {j : Nat} {gs : List (DWord × BitVec 4)} (hp : gs.Pairwise (fun g h => g.1 ≠ h.1))
    (hm : ∃ g ∈ gs, g.1 = pc) : addGroup pc j gs = gs.map (fun g => if g.1 = pc then (g.1, g.2 ||| (1#4 <<< j)) else g) := by
  induction gs with
  | nil => obtain ⟨g, hg, -⟩ := hm; cases hg
  | cons g gs ih =>
    obtain ⟨p, m⟩ := g
    rw [List.pairwise_cons] at hp
    rw [addGroup, List.map_cons]
    by_cases h : p = pc
    · subst h
      rw [if_pos rfl, if_pos rfl]
      congr 1
      refine (List.map_id _).symm.trans (List.map_congr_left fun g hg => ?_)
      rw [if_neg (hp.1 g hg).symm]; rfl
    · rw [if_neg h, if_neg h, ih hp.2]
      obtain ⟨g, hg, he⟩ := hm
      rcases List.mem_cons.1 hg with rfl | hg
      · exact absurd he h
      · exact ⟨g, hg, he⟩

theorem addGroup_of_not_mem {pc : DWord} {j : Nat} {gs : List (DWord × BitVec 4)} (h : ∀ g ∈ gs, g.1 ≠ pc) :
    addGroup pc j gs = gs ++ [(pc, 1#4 <<< j)] := by
  induction gs with
  | nil => rfl
  | cons g gs ih =>
    obtain ⟨p, m⟩ := g
    rw [addGroup, if_neg (h _ List.mem_cons_self), ih fun g hg => h g (List.mem_cons_of_mem _ hg)]
    rfl

theorem getLsbD_one_shiftLeft {j k : Nat} (hj : j < 4) (hk : k < 4) : (1#4 <<< j).getLsbD k = decide (k = j) :=
  (by decide : ∀ j < 4, ∀ k < 4, (1#4 <<< j).getLsbD k = decide (k = j)) j hj k hk

section
variable {nx : Nat → DWord} {i n : Nat} {act : BitVec 4} {gs : List (DWord × BitVec 4)}

theorem Grouped.distinct (h : Grouped nx i act n gs) : gs.Pairwise (fun g h => g.1 ≠ h.1) := h.order.imp fun hgh => hgh.1

/-- A lane that is not active adds nothing. -/
theorem Grouped.skip (h : Grouped nx i act n gs) (ha : act.getLsbD n = false) : Grouped nx i act (n + 1) gs where
  bits g hg k hk := by
    rw [h.bits g hg k hk]
    rcases Nat.lt_trichotomy k n with hlt | rfl | hlt
    · simp [hlt, hlt.trans (Nat.lt_succ_self n)]
    · simp [ha]
    · simp [not_lt.2 hlt.le, show ¬k < n + 1 by omega]
  covers k hk hak := by
    rcases Nat.lt_succ_iff_lt_or_eq.1 hk with hk | rfl
    · exact h.covers k hk hak
    · rw [ha] at hak; cases hak
  some g hg := by
    obtain ⟨k, hk, hb⟩ := h.some g hg
    exact ⟨k, hk.trans (Nat.lt_succ_self n), hb⟩
  order := h.order.imp fun ⟨hne, k, hk, hb⟩ => ⟨hne, k, hk.trans (Nat.lt_succ_self n), hb⟩

/-- A group with the lane `n` added to it, where it is the group of that lane's PC. -/
def withLane (pc : DWord) (n : Nat) (g : DWord × BitVec 4) : DWord × BitVec 4 := if g.1 = pc then (g.1, g.2 ||| (1#4 <<< n)) else g

@[simp] theorem withLane_fst (pc : DWord) (n : Nat) (g : DWord × BitVec 4) : (withLane pc n g).1 = g.1 := by
  unfold withLane; split <;> rfl

theorem withLane_getLsbD {pc : DWord} (g : DWord × BitVec 4) {k : Nat} (hn : n < 4) (hk : k < 4) :
    (withLane pc n g).2.getLsbD k = (g.2.getLsbD k || (decide (k = n) && g.1 == pc)) := by
  unfold withLane
  by_cases h : g.1 = pc
  · rw [if_pos h, BitVec.getLsbD_or, getLsbD_one_shiftLeft hn hk]; simp [h]
  · rw [if_neg h]; simp [h]

theorem Grouped.add_old (h : Grouped nx i act n gs) (hn : n < 4) (ha : act.getLsbD n = true) (hm : ∃ g ∈ gs, g.1 = nx (4 * i + n)) :
    Grouped nx i act (n + 1) (gs.map (withLane (nx (4 * i + n)) n)) where
  bits g' hg' k hk := by
    obtain ⟨g, hg, rfl⟩ := List.mem_map.1 hg'
    rw [withLane_getLsbD g hn hk, withLane_fst, h.bits g hg k hk]
    rcases Nat.lt_trichotomy k n with hlt | rfl | hlt
    · simp [hlt, hlt.ne, hlt.trans (Nat.lt_succ_self n)]
    · simp [ha, BEq.comm]
    · simp [not_lt.2 hlt.le, hlt.ne', show ¬k < n + 1 by omega]
  covers k hk hak := by
    rcases Nat.lt_succ_iff_lt_or_eq.1 hk with hk | rfl
    · obtain ⟨g, hg, he⟩ := h.covers k hk hak
      exact ⟨_, List.mem_map_of_mem hg, by rw [withLane_fst, he]⟩
    · obtain ⟨g, hg, he⟩ := hm
      exact ⟨_, List.mem_map_of_mem hg, by rw [withLane_fst, he]⟩
  some g' hg' := by
    obtain ⟨g, hg, rfl⟩ := List.mem_map.1 hg'
    obtain ⟨k, hk, hb⟩ := h.some g hg
    exact ⟨k, hk.trans (Nat.lt_succ_self n), by rw [withLane_getLsbD g hn (hk.trans hn), hb, Bool.true_or]⟩
  order := by
    refine List.pairwise_map.2 (h.order.imp_of_mem fun hg hh' ⟨hne, k, hk, hb, hlow⟩ => ⟨by simpa using hne, k, hk.trans (Nat.lt_succ_self n), ?_, ?_⟩)
    · rw [withLane_getLsbD _ hn (hk.trans hn), hb, Bool.true_or]
    · intro j hj
      rw [withLane_getLsbD _ hn (by omega), hlow j hj, show decide (j = n) = false by simp; omega]
      rfl

theorem Grouped.add_new (h : Grouped nx i act n gs) (hn : n < 4) (ha : act.getLsbD n = true) (hm : ∀ g ∈ gs, g.1 ≠ nx (4 * i + n)) :
    Grouped nx i act (n + 1) (gs ++ [(nx (4 * i + n), 1#4 <<< n)]) where
  bits g hg' k hk := by
    rcases List.mem_append.1 hg' with hg | hg
    · rw [h.bits g hg k hk]
      rcases Nat.lt_trichotomy k n with hlt | rfl | hlt
      · simp [hlt, hlt.trans (Nat.lt_succ_self n)]
      · simp [ha, (hm g hg).symm]
      · simp [not_lt.2 hlt.le, show ¬k < n + 1 by omega]
    · obtain rfl := List.mem_singleton.1 hg
      rw [getLsbD_one_shiftLeft hn hk]
      rcases Nat.lt_trichotomy k n with hlt | rfl | hlt
      · have : act.getLsbD k = true → nx (4 * i + k) ≠ nx (4 * i + n) := fun hak he => by
          obtain ⟨g, hg, hge⟩ := h.covers k hlt hak
          exact hm g hg (hge.trans he)
        cases hak : act.getLsbD k with
        | false => simp [hlt.ne]
        | true => simp [hlt.ne, this hak]
      · simp [ha]
      · simp [hlt.ne', show ¬k < n + 1 by omega]
  covers k hk hak := by
    rcases Nat.lt_succ_iff_lt_or_eq.1 hk with hk | rfl
    · obtain ⟨g, hg, he⟩ := h.covers k hk hak
      exact ⟨g, List.mem_append_left _ hg, he⟩
    · exact ⟨_, List.mem_append_right _ (List.mem_singleton.2 rfl), rfl⟩
  some g hg' := by
    rcases List.mem_append.1 hg' with hg | hg
    · obtain ⟨k, hk, hb⟩ := h.some g hg
      exact ⟨k, hk.trans (Nat.lt_succ_self n), hb⟩
    · obtain rfl := List.mem_singleton.1 hg
      exact ⟨n, Nat.lt_succ_self n, by rw [getLsbD_one_shiftLeft hn hn]; simp⟩
  order := by
    refine List.pairwise_append.2 ⟨h.order.imp fun ⟨hne, k, hk, hb⟩ => ⟨hne, k, hk.trans (Nat.lt_succ_self n), hb⟩,
      List.pairwise_singleton _ _, fun g hg g' hg' => ?_⟩
    obtain rfl := List.mem_singleton.1 hg'
    obtain ⟨k, hk, hb⟩ := h.some g hg
    refine ⟨hm g hg, k, hk.trans (Nat.lt_succ_self n), hb, fun j hj => ?_⟩
    rw [getLsbD_one_shiftLeft hn (by omega)]
    simp; omega

/-- One lane more. -/
theorem Grouped.step (h : Grouped nx i act n gs) (hn : n < 4) :
    Grouped nx i act (n + 1) (if act.getLsbD n then addGroup (nx (4 * i + n)) n gs else gs) := by
  cases ha : act.getLsbD n with
  | false => simpa using h.skip ha
  | true =>
    rw [if_pos rfl]
    by_cases hm : ∃ g ∈ gs, g.1 = nx (4 * i + n)
    · rw [addGroup_of_mem h.distinct hm]
      exact h.add_old hn ha hm
    · push Not at hm
      rw [addGroup_of_not_mem hm]
      exact h.add_new hn ha hm

theorem laneGroups_grouped (nx : Nat → DWord) (i : Nat) (act : BitVec 4) : Grouped nx i act 4 (laneGroups nx i act) := by
  have h0 : Grouped nx i act 0 [] := ⟨by simp, by simp, by simp, by simp⟩
  exact (((h0.step (by decide)).step (by decide)).step (by decide)).step (by decide)

end

/-! A strand, and the strands of a unit. -/

theorem Strand.move_movesTo {x : Strand} {nx : Nat → DWord} {i : Nat} (ha : x.active ≠ 0) : x.MovesTo (x.move nx i) i nx := by
  have h := laneGroups_grouped nx i x.active
  unfold Strand.move
  cases hg : laneGroups nx i x.active with
  | nil =>
    rw [hg] at h
    refine absurd (BitVec.eq_of_getLsbD_eq fun k hk => ?_) ha
    rw [show (0 : BitVec 4).getLsbD k = false from BitVec.getLsbD_zero, Bool.eq_false_iff]
    intro hb
    obtain ⟨g, hg, -⟩ := h.covers k hk hb
    cases hg
  | cons g rest =>
    obtain ⟨pc, m⟩ := g
    rw [hg] at h
    obtain ⟨hfirst, hrest⟩ := List.pairwise_cons.1 h.order
    have hbits : ∀ g ∈ (pc, m) :: rest, ∀ k < 4, g.2.getLsbD k = (x.active.getLsbD k && nx (4 * i + k) == g.1) :=
      fun g hg k hk => by rw [h.bits g hg k hk]; simp [hk]
    refine ⟨rfl, fun j hj hja hlow => ?_, hbits _ List.mem_cons_self, rest, rfl, fun k hk hka => ?_, fun g hg => ⟨?_, ?_, ?_⟩, ?_⟩
    · obtain ⟨g, hg, he⟩ := h.covers j hj hja
      rcases List.mem_cons.1 hg with rfl | hg
      · exact he
      · -- the lowest lane cannot be in a later group
        obtain ⟨-, k, hk, hb, hno⟩ := hfirst g hg
        have hkj : j ≤ k := by
          by_contra hlt
          have := hlow k (not_le.1 hlt)
          rw [hbits _ List.mem_cons_self k hk, this] at hb
          cases hb
        have hgj := hbits g (List.mem_cons_of_mem _ hg) j hj
        rw [hno j hkj, hja, he] at hgj
        simp at hgj
    · obtain ⟨g, hg, he⟩ := h.covers k hk hka
      rcases List.mem_cons.1 hg with rfl | hg
      · exact .inl he.symm
      · exact .inr ⟨g, hg, he⟩
    · exact (hfirst g hg).1.symm
    · intro h0
      obtain ⟨k, hk, hb⟩ := h.some g (List.mem_cons_of_mem _ hg)
      rw [h0] at hb
      simp at hb
    · exact hbits g (List.mem_cons_of_mem _ hg)
    · exact hrest.imp fun ⟨_, k, hk, hb, hlow⟩ => ⟨k, hk, hb, hlow⟩

theorem mapUnit_length (u : Nat) (g : Nat → Strand → Strand) (n : Nat) (l : List Strand) : (mapUnit u g n l).length = l.length := by
  induction l generalizing n with
  | nil => rfl
  | cons t l ih => rw [mapUnit, List.length_cons, ih, List.length_cons]

theorem mapUnit_getElem? (u : Nat) (g : Nat → Strand → Strand) (n i : Nat) (l : List Strand) :
    (mapUnit u g n l)[i]? = l[i]?.map (fun t => if t.inUnit u then g (n + i) t else t) := by
  induction l generalizing n i with
  | nil => rfl
  | cons t l ih =>
    cases i with
    | zero => rfl
    | succ i =>
      rw [mapUnit, List.getElem?_cons_succ, List.getElem?_cons_succ, ih]
      congr 1
      funext t
      rw [show n + 1 + i = n + (i + 1) by omega]

/-- The positions whose strands a regrouping takes together. -/
def Rope.issues (r : Rope) (st : BitVec 8) (i : Nat) : Bool :=
  let t := r.strands.getD i Strand.none
  st.getLsbD i && t.live && !t.waiting && t.active != 0

/-- The lowest position that a regrouping takes together at a PC. -/
def Rope.firstAt (r : Rope) (st : BitVec 8) (pc : DWord) : Option Nat :=
  (List.range r.strands.length).find? (fun j => r.issues st j && (r.strands.getD j Strand.none).pc == pc)

theorem regroup_length (r : Rope) (st : BitVec 8) : (r.regroup st).strands.length = r.strands.length := by simp [Rope.regroup]

theorem regroup_getElem? (r : Rope) (st : BitVec 8) (i : Nat) :
    (r.regroup st).strands[i]? =
      r.strands[i]?.map (fun t => if r.issues st i then { t with unit := (r.firstAt st t.pc).getD i } else t) := by
  by_cases h : i < r.strands.length
  · have hget : r.strands.getD i Strand.none = r.strands[i] := by simp [h]
    rw [List.getElem?_eq_getElem h, Option.map_some, ← hget]
    rw [Rope.regroup, List.getElem?_map, List.getElem?_range h]
    rfl
  · simp [Rope.regroup, h]

theorem firstAt_spec {r : Rope} {st : BitVec 8} {i : Nat} (hi : i < r.strands.length) (hs : r.issues st i = true) :
    ∃ m, r.firstAt st (r.strands.getD i Strand.none).pc = some m ∧ (r.strands.getD m Strand.none).pc = (r.strands.getD i Strand.none).pc := by
  have hsome : (r.firstAt st (r.strands.getD i Strand.none).pc).isSome = true := by
    rw [Rope.firstAt, List.find?_isSome]
    exact ⟨i, List.mem_range.2 hi, by simp [hs]⟩
  obtain ⟨m, hm⟩ := Option.isSome_iff_exists.1 hsome
  have hp := List.find?_some hm
  rw [Bool.and_eq_true, beq_iff_eq] at hp
  exact ⟨m, hm, hp.2⟩

/-- Strands that are taken together are in one unit where they stand at one PC. -/
theorem firstAt_getD_eq_iff {r : Rope} {st : BitVec 8} {i j : Nat} (hi : i < r.strands.length) (hj : j < r.strands.length)
    (hsi : r.issues st i = true) (hsj : r.issues st j = true) :
    (r.firstAt st (r.strands.getD i Strand.none).pc).getD i = (r.firstAt st (r.strands.getD j Strand.none).pc).getD j ↔
      (r.strands.getD i Strand.none).pc = (r.strands.getD j Strand.none).pc := by
  obtain ⟨m, hm, hp⟩ := firstAt_spec hi hsi
  obtain ⟨m', hm', hp'⟩ := firstAt_spec hj hsj
  constructor
  · intro h
    rw [hm, hm', Option.getD_some, Option.getD_some] at h
    rw [← hp, ← hp', h]
  · intro h
    rw [← h, hm] at hm'
    rw [← h, hm, Option.getD_some, Option.getD_some]

/-! The rope after the lanes of a unit have moved. -/

/-- Adding up the powers of two at the positions of a set gives the number with those bits. -/
theorem testBit_foldl_pow (p : Nat → Bool) (n : Nat) :
    (List.range n).foldl (fun a i => if p i then a + 2 ^ i else a) 0 < 2 ^ n ∧
      ∀ i, ((List.range n).foldl (fun a i => if p i then a + 2 ^ i else a) 0).testBit i = (decide (i < n) && p i) := by
  induction n with
  | zero => exact ⟨Nat.one_pos, fun i => by simp⟩
  | succ n ih =>
    obtain ⟨hlt, hbit⟩ := ih
    rw [List.range_succ, List.foldl_append, List.foldl_cons, List.foldl_nil]
    generalize (List.range n).foldl (fun a i => if p i then a + 2 ^ i else a) 0 = v at hlt hbit
    cases hp : p n with
    | false =>
      refine ⟨hlt.trans (Nat.pow_lt_pow_right (by decide) (by omega)), fun i => ?_⟩
      rw [if_neg (by decide), hbit]
      rcases Nat.lt_trichotomy i n with h | rfl | h
      · simp [h, h.trans (Nat.lt_succ_self n)]
      · simp [hp]
      · simp [not_lt.2 h.le, show ¬i < n + 1 by omega]
    | true =>
      rw [if_pos rfl]
      refine ⟨by rw [pow_succ]; omega, fun i => ?_⟩
      rcases Nat.lt_trichotomy i n with h | rfl | h
      · rw [Nat.add_comm, Nat.testBit_two_pow_add_gt h, hbit]
        simp [h, h.trans (Nat.lt_succ_self n)]
      · rw [Nat.add_comm, Nat.testBit_two_pow_add_eq, hbit]
        simp [hp]
      · rw [Nat.testBit_lt_two_pow (by
          calc v + 2 ^ n < 2 ^ n + 2 ^ n := by omega
            _ = 2 ^ (n + 1) := by rw [pow_succ]; omega
            _ ≤ 2 ^ i := Nat.pow_le_pow_right (by decide) h)]
        simp [show ¬i < n + 1 by omega]

theorem getLsbD_unitStrands (r : Rope) (u i : Nat) :
    (r.unitStrands u).getLsbD i = (decide (i < 8) && (r.strands.getD i Strand.none).inUnit u) := by
  rw [Rope.unitStrands, BitVec.getLsbD_ofNat, (testBit_foldl_pow (fun i => (r.strands.getD i Strand.none).inUnit u) _).2]
  by_cases h : i < r.strands.length
  · simp [h]
  · simp [h, Strand.inUnit, Strand.live, Strand.none]

theorem moveUnit_length (r : Rope) (u : Nat) (nx : Nat → DWord) : (r.moveUnit u nx).strands.length = r.strands.length := by
  rw [Rope.moveUnit, regroup_length, mapUnit_length]

/-- The rope whose unit's lanes have moved, before the units are formed again. -/
def Rope.shifted (r : Rope) (u : Nat) (nx : Nat → DWord) : Rope := { r with strands := mapUnit u (fun i t => t.move nx i) 0 r.strands }

theorem shifted_getElem? (r : Rope) (u : Nat) (nx : Nat → DWord) (i : Nat) :
    (r.shifted u nx).strands[i]? = r.strands[i]?.map (fun t => if t.inUnit u then t.move nx i else t) := by
  rw [Rope.shifted, mapUnit_getElem?]
  simp only [Nat.zero_add]

/-- A strand of a unit still issues after its lanes have moved. -/
theorem Strand.move_issues {x : Strand} {u : Nat} (nx : Nat → DWord) (i : Nat) (h : x.inUnit u = true) :
    (x.move nx i).live = true ∧ (x.move nx i).waiting = false ∧ (x.move nx i).active ≠ 0 := by
  simp only [Strand.inUnit, Bool.and_eq_true, Bool.not_eq_true', bne_iff_ne, beq_iff_eq] at h
  obtain ⟨⟨⟨hl, -⟩, hw⟩, ha⟩ := h
  obtain ⟨heq, hpc, hbits, -⟩ := Strand.move_movesTo (nx := nx) (i := i) ha
  refine ⟨by rw [heq]; exact hl, by rw [heq]; exact hw, fun h0 => ?_⟩
  have hall : ∀ k < 4, x.active.getLsbD k = true → (∀ j < k, x.active.getLsbD j = false) → False := fun k hk hb hlow => by
    have := hbits k hk
    rw [h0, hb, hpc k hk hb hlow] at this
    simp at this
  have hno : ∀ k, k < 4 → x.active.getLsbD k = false := fun k => by
    induction k using Nat.strong_induction_on with
    | _ k ih => exact fun hk => Bool.eq_false_iff.2 fun hb => hall k hk hb fun j hj => ih j hj (by omega)
  exact ha (BitVec.eq_of_getLsbD_eq fun k hk => by rw [hno k hk]; simp)

theorem shifted_issues {r : Rope} {u : Nat} (nx : Nat → DWord) {i : Nat} {x : Strand} (h8 : r.strands.length ≤ 8) (hx : r.strands[i]? = some x) :
    (r.shifted u nx).issues (r.unitStrands u) i = x.inUnit u := by
  have hi : i < 8 := (List.getElem?_eq_some_iff.1 hx).1.trans_le h8
  have hget : r.strands.getD i Strand.none = x := by simp [hx]
  have hs : (r.shifted u nx).strands.getD i Strand.none = if x.inUnit u then x.move nx i else x := by
    rw [List.getD_eq_getElem?_getD, shifted_getElem?, hx]; rfl
  rw [Rope.issues, getLsbD_unitStrands, hget, hs]
  cases hu : x.inUnit u with
  | false => simp
  | true =>
    obtain ⟨hl, hw, ha⟩ := Strand.move_issues nx i hu
    rw [if_pos rfl, hl, hw, bne_iff_ne.2 ha, decide_eq_true hi]
    rfl

/-- Each strand after a move, but for the unit of a strand that has moved. -/
theorem moveUnit_getElem? (r : Rope) (u : Nat) (nx : Nat → DWord) {i : Nat} {x : Strand} (hx : r.strands[i]? = some x) :
    ∃ n, (r.moveUnit u nx).strands[i]? = some (if x.inUnit u then { x.move nx i with unit := n } else x) := by
  have hstep : (r.moveUnit u nx).strands[i]? = _ := regroup_getElem? (r.shifted u nx) (r.unitStrands u) i
  rw [hstep, shifted_getElem?, hx, Option.map_some, Option.map_some]
  cases hu : x.inUnit u with
  | true =>
    by_cases hs : (r.shifted u nx).issues (r.unitStrands u) i = true
    · exact ⟨_, by simp only [if_true, hs]; rfl⟩
    · exact ⟨(x.move nx i).unit, by simp only [if_true, hs]; rfl⟩
  | false =>
    have hs : (r.shifted u nx).issues (r.unitStrands u) i = false := by
      rw [Rope.issues, getLsbD_unitStrands, show r.strands.getD i Strand.none = x by simp [hx], hu]
      simp
    exact ⟨0, by simp [hs]⟩

/-- The strands of a unit whose lanes have moved form units by PC (R162). -/
theorem moveUnit_moved {r : Rope} (u : Nat) (nx : Nat → DWord) (h8 : r.strands.length ≤ 8) : r.Moved (r.moveUnit u nx) u nx := by
  refine ⟨moveUnit_length r u nx, fun i x hx => ?_, fun i j x y hi hj hx hy => ?_⟩
  · obtain ⟨n, hn⟩ := moveUnit_getElem? r u nx hx
    refine ⟨_, hn, ?_⟩
    cases hu : x.inUnit u with
    | false => simp
    | true =>
      simp only [if_true]
      have ha : x.active ≠ 0 := by
        simp only [Strand.inUnit, Bool.and_eq_true, bne_iff_ne] at hu
        exact hu.2
      obtain ⟨heq, hrest⟩ := Strand.move_movesTo (nx := nx) (i := i) ha
      exact ⟨by rw [heq], hrest⟩
  · -- both strands issue, in the unit of the first one at their PC
    have pos : ∀ (i : Nat) (y : Strand), (r.strands.getD i Strand.none).inUnit u = true → (r.moveUnit u nx).strands[i]? = some y →
        i < (r.shifted u nx).strands.length ∧ (r.shifted u nx).issues (r.unitStrands u) i = true ∧
          y.pc = ((r.shifted u nx).strands.getD i Strand.none).pc ∧
          y.unit = ((r.shifted u nx).firstAt (r.unitStrands u) ((r.shifted u nx).strands.getD i Strand.none).pc).getD i := by
      intro i y hi hy
      have hlt : i < r.strands.length := by
        have := (List.getElem?_eq_some_iff.1 hy).1
        rwa [moveUnit_length] at this
      have hget : r.strands[i]? = some (r.strands.getD i Strand.none) := by simp [hlt]
      have hs := shifted_issues (u := u) nx h8 hget
      rw [hi] at hs
      have hlen : i < (r.shifted u nx).strands.length := by rw [Rope.shifted, mapUnit_length]; exact hlt
      have hstep : (r.moveUnit u nx).strands[i]? = _ := regroup_getElem? (r.shifted u nx) (r.unitStrands u) i
      rw [hstep, hs, List.getElem?_eq_getElem hlen, Option.map_some, Option.some.injEq, if_pos rfl] at hy
      rw [show (r.shifted u nx).strands.getD i Strand.none = (r.shifted u nx).strands[i] by simp [hlen]]
      subst hy
      exact ⟨hlen, hs, rfl, rfl⟩
    obtain ⟨hli, hsi, hpi, hui⟩ := pos i x hi hx
    obtain ⟨hlj, hsj, hpj, huj⟩ := pos j y hj hy
    rw [hpi, hpj, hui, huj]
    exact firstAt_getD_eq_iff hli hlj hsi hsj

end Sys2Proof.Machine
end

section
/-! PROOFS. The rope that the issue of an instruction leaves (R73, R160, R162). -/

namespace Sys2Proof.Machine

/-! When the units of a rope may issue. -/

theorem foldl_setReady_strands (l : List Nat) (skip : Nat) (c : DWord → Nat) (r : Rope) :
    (l.foldl (fun (t : Rope) u => t.setReady u (c (t.unitPc u)) skip) r).strands = r.strands := by
  induction l generalizing r with
  | nil => rfl
  | cons u l ih => rw [List.foldl_cons, ih]; rfl

theorem unitPc_congr {r q : Rope} (h : r.strands = q.strands) (u : Nat) : r.unitPc u = q.unitPc u := by
  unfold Rope.unitPc; rw [h]

theorem foldl_setReady_schedOf (l : List Nat) (skip : Nat) (c : DWord → Nat) (r : Rope) (u : Nat) :
    (l.foldl (fun (t : Rope) u => t.setReady u (c (t.unitPc u)) skip) r).schedOf u =
      if u ∈ l then ⟨c (r.unitPc u), 0, skip, 0, false, none⟩ else r.schedOf u := by
  induction l generalizing r with
  | nil => simp
  | cons v l ih =>
    rw [List.foldl_cons, ih, unitPc_congr (show (r.setReady v (c (r.unitPc v)) skip).strands = r.strands from rfl)]
    by_cases hl : u ∈ l
    · simp [hl]
    · by_cases hv : u = v
      · subst hv
        simp [hl, Rope.schedOf, Rope.setReady]
      · simp [hl, hv, Rope.schedOf, Rope.setReady, tget_tset_ne]

@[simp] theorem readyUnits_strands (r : Rope) (st : BitVec 8) (skip : Nat) (c : DWord → Nat) : (r.readyUnits st skip c).strands = r.strands :=
  foldl_setReady_strands ..

theorem readyUnits_schedOf {r : Rope} {st : BitVec 8} {u : Nat} (skip : Nat) (c : DWord → Nat) (hu : u ∈ r.units)
    (hs : r.unitStrands u &&& st ≠ 0) : (r.readyUnits st skip c).schedOf u = ⟨c (r.unitPc u), 0, skip, 0, false, none⟩ := by
  rw [Rope.readyUnits, foldl_setReady_schedOf, if_pos]
  exact List.mem_filter.2 ⟨hu, bne_iff_ne.2 hs⟩

/-! The issue's rope. -/

/-- The rope with the issue's results in flight, before its lanes move. -/
def Issue.flown (x : Issue) (r : Rope) (ws : List RegWrite) (extra id : Nat) : Rope :=
  { (if x.op = 0x1DB then r else r.used (x.r.unitStrands x.unit)) with
    inflight := if ws.isEmpty then r.inflight else r.inflight ++ [⟨x.core.cyc + lamOf x.op + extra, x.r.unitStrands x.unit, ws, id⟩] }

/-- The rope with its lanes moved. -/
def Issue.movedBy (x : Issue) (r : Rope) : Next → Rope
  | .fall => (r.moveUnit x.unit (fun _ => x.fall)).readyUnits (x.r.unitStrands x.unit) x.skip (fun _ => x.core.cyc + 1 + x.stall)
  | .move dest =>
    let moved := (r.moveUnit x.unit (fun l => match lookupNat l dest with | some t => t | none => x.fall)).readyUnits (x.r.unitStrands x.unit) x.skip
      (fun pc => x.core.cyc + (if (dest.map Prod.snd).contains pc then 3 else 1) + x.stall)
    { moved with strands := deferTo r.strands (x.core.cyc + 3 + x.stall) moved.strands }
  | .done => r

/-- The rope as the issue leaves it, but for the cycles that a fenced array holds. -/
def Issue.committed (x : Issue) (r : Rope) (ws : List RegWrite) (extra id : Nat) (nx : Next) : Rope :=
  if r.port && !r.onNative then { x.movedBy (x.flown r ws extra id) nx with portWait := 4 } else x.movedBy (x.flown r ws extra id) nx

variable (x : Issue) (s : State) (ws : List RegWrite) (extra : Nat) (nx : Next) {r : Rope}

/-- The core's clock and issue record after the issue (R74, R117, R325). -/
def Issue.clocked (x : Issue) (k : Core) (extra : Nat) : Core :=
  { k with
    issued := k.issued ||| (1#4 <<< x.r.quad)
    flight := k.flight ++ [⟨x.f.tc.toNat, x.core.cyc, x.core.cyc + (if lamOf x.op = 0 then 1 + extra else lamOf x.op + extra), x.r.quad⟩]
    f64 := if usesF64 x.op then tset k.f64 x.r.quad (x.core.cyc + 4) else k.f64 }

theorem commit_eq (hr : tget s.ropes x.k = some r) : x.commit s ws extra nx =
    { ((((s.setRope x.k (x.committed r ws extra s.nextId nx)).setCore x.c (x.clocked (s.core x.c) extra)).holdQuad x.c x.r.quad).onWg x.r.wg
      (fun w => { w with pro := w.pro.map (· + 1) })) with turn := .choose } := by
  unfold Issue.commit
  simp only [hr]
  cases nx <;> rfl

theorem holdQuad_of_unheld {s : State} {c q : Nat} (h : rget 0 (s.core c).holds q = 0) : s.holdQuad c q = s := if_pos h

/-- The rope of an instruction that has issued, but for the cycles that a fenced array holds. -/
theorem commit_rope (hr : tget s.ropes x.k = some r) :
    ∃ q, tget (x.commit s ws extra nx).ropes x.k = some q ∧ (x.committed r ws extra s.nextId nx).OnlyLater q := by
  have h := (((s.setRope x.k (x.committed r ws extra s.nextId nx)).setCore x.c (x.clocked (s.core x.c) extra)).holdQuad_spec x.c x.r.quad).2.1 x.k
  simp only [State.setCore_ropes, State.setRope_get] at h
  rw [commit_eq x s ws extra nx hr]
  simp only [State.onWg_ropes]
  obtain ⟨-, h⟩ | ⟨r', q, h, hq, ho⟩ := h
  · cases h
  · cases h
    exact ⟨q, hq, ho⟩

theorem commit_rope_of_unheld (hr : tget s.ropes x.k = some r) (hh : rget 0 (s.core x.c).holds x.r.quad = 0) :
    tget (x.commit s ws extra nx).ropes x.k = some (x.committed r ws extra s.nextId nx) := by
  rw [commit_eq x s ws extra nx hr, holdQuad_of_unheld (by rw [State.setCore_core]; exact hh)]
  simp only [State.onWg_ropes, State.setCore_ropes, State.setRope_get]

end Sys2Proof.Machine
end

section
/-! PROOFS. Units that go on at their fall-through (R51, R73, R203). -/

namespace Sys2Proof.Machine

theorem Issue.flown_strands (x : Issue) (r : Rope) (ws : List RegWrite) (extra id : Nat) : (x.flown r ws extra id).strands = r.strands := by
  unfold Issue.flown Rope.used
  split <;> [rfl; split <;> rfl]

/-- The strands of an instruction that falls through. -/
theorem Issue.committed_fall_strands (x : Issue) (r : Rope) (ws : List RegWrite) (extra id : Nat) :
    (x.committed r ws extra id .fall).strands = ((x.flown r ws extra id).moveUnit x.unit (fun _ => x.fall)).strands := by
  unfold Issue.committed Issue.movedBy
  split <;> exact readyUnits_strands ..

/-- The lanes of a strand that go to one PC stay together. -/
theorem Strand.move_const {x : Strand} (p : DWord) (i : Nat) (ha : x.active ≠ 0) :
    (x.move (fun _ => p) i).pc = p ∧ (x.move (fun _ => p) i).active = x.active := by
  obtain ⟨-, hpc, hbits, -⟩ := Strand.move_movesTo (nx := fun _ => p) (i := i) ha
  have h : (x.move (fun _ => p) i).pc = p := by
    by_contra hne
    refine ha (BitVec.eq_of_getLsbD_eq fun k => ?_)
    rw [show (0 : BitVec 4).getLsbD k = false from BitVec.getLsbD_zero]
    induction k using Nat.strong_induction_on with
    | _ k ih => exact fun hk => Bool.eq_false_iff.2 fun hb => hne (hpc k hk hb fun j hj => ih j hj (by omega))
  refine ⟨h, BitVec.eq_of_getLsbD_eq fun k hk => ?_⟩
  rw [hbits k hk, h]
  simp

theorem moveUnit_fall {r : Rope} {u : Nat} (p : DWord) {i : Nat} {x : Strand} (hx : r.strands[i]? = some x) (hu : x.inUnit u = true) :
    ∃ x' : Strand, (r.moveUnit u (fun _ => p)).strands[i]? = some x' ∧ x'.pc = p ∧ x'.active = x.active := by
  obtain ⟨n, hn⟩ := moveUnit_getElem? r u (fun _ => p) hx
  rw [if_pos hu] at hn
  have ha : x.active ≠ 0 := by
    simp only [Strand.inUnit, Bool.and_eq_true, bne_iff_ne] at hu
    exact hu.2
  exact ⟨_, hn, Strand.move_const p i ha⟩

theorem moveUnit_congr {r q : Rope} (h : r.strands = q.strands) (u : Nat) (nx : Nat → DWord) :
    (r.moveUnit u nx).strands = (q.moveUnit u nx).strands := by
  unfold Rope.moveUnit Rope.regroup Rope.unitStrands
  simp only [h]

theorem Rope.OnlyLater.getElem? {r q : Rope} (h : r.OnlyLater q) {i : Nat} {x : Strand} (hx : r.strands[i]? = some x) :
    ∃ x', q.strands[i]? = some x' ∧ x'.pc = x.pc ∧ x'.active = x.active := by
  have hs := congrArg (fun l => l[i]?) h.2.2
  simp only [Rope.standing, List.getElem?_map, hx, Option.map_some] at hs
  obtain ⟨x', hx', he⟩ := Option.map_eq_some_iff.1 hs
  exact ⟨x', hx', (Strand.mk.inj he).2.2.1, (Strand.mk.inj he).2.2.2.1⟩

/-- What the issue leaves of the memories and of the SFU queues is what the instruction's effect has left of them. -/
theorem Begun.after_memories (b : Begun) {s1 : State} {r : Rope} (hr : tget s1.ropes b.x.k = some r) (hk : b.y.k = b.x.k) (ws : List RegWrite)
    (extra : Nat) (nx : Next) : (b.after s1 ws extra nx).mem = s1.mem ∧ (b.after s1 ws extra nx).host = s1.host ∧
      (b.after s1 ws extra nx).peer = s1.peer ∧ (b.after s1 ws extra nx).sfu = s1.sfu := by
  obtain ⟨o1, -, o3⟩ := b.x.overtake_spec s1 ws
  obtain ⟨o, ho⟩ := o3 r hr
  rw [← hk] at ho
  obtain ⟨c1, -⟩ := b.y.commit_spec (b.x.overtake s1 ws) ws extra nx ho
  have hmem : (b.x.overtake s1 ws).mem = s1.mem := (congrArg State.mem o1 :)
  have hhost : (b.x.overtake s1 ws).host = s1.host := (congrArg State.host o1 :)
  have hpeer : (b.x.overtake s1 ws).peer = s1.peer := (congrArg State.peer o1 :)
  have hsfu : (b.x.overtake s1 ws).sfu = s1.sfu := (congrArg State.sfu o1 :)
  exact ⟨(congrArg State.mem c1 :).trans hmem, (congrArg State.host c1 :).trans hhost, (congrArg State.peer c1 :).trans hpeer,
    (congrArg State.sfu c1 :).trans hsfu⟩

/-- The rope of an instruction that has completed has the tokens that the instruction's effect has left it. -/
theorem Begun.after_tokens (b : Begun) {s1 : State} {r : Rope} (hr : tget s1.ropes b.x.k = some r) (hk : b.y.k = b.x.k) (ws : List RegWrite)
    (extra : Nat) (nx : Next) : ∃ q : Rope, tget (b.after s1 ws extra nx).ropes b.x.k = some q ∧ q.k = r.k := by
  obtain ⟨-, -, o3⟩ := b.x.overtake_spec s1 ws
  obtain ⟨o, ho⟩ := o3 r hr
  rw [← hk] at ho
  obtain ⟨-, -, -, -, -, q, hq, hqr, -⟩ := b.y.commit_spec (b.x.overtake s1 ws) ws extra nx ho
  rw [hk] at hq
  exact ⟨q, hq, (congrArg Rope.k hqr :)⟩

/-- An instruction that falls through, and whose effect changes no memory and no strand of its rope, leaves its unit gone on. -/
theorem Begun.goesOn_of {s : State} {op : Nat} {f : Fields} {pb : PB} {b : Begun} (hb : s.begun op f pb = some b) {s1 : State} {r : Rope}
    (hr : tget s1.ropes s.cur = some r) (hs : r.strands = b.x.r.strands) (hm : s1.mem = s.mem) (hh : s1.host = s.host)
    (hp : s1.peer = s.peer) (ws : List RegWrite) (extra : Nat) : b.GoesOn s (b.after s1 ws extra .fall) := by
  obtain ⟨hi, -, -, hy, -⟩ := begun_spec hb
  obtain ⟨-, -, hk, -, -⟩ := issuing_spec hi
  have hyk : b.y.k = s.cur := by rw [hy]; exact hk
  obtain ⟨o1, -, o3⟩ := b.x.overtake_spec s1 ws
  obtain ⟨o, ho⟩ := o3 r (by rwa [hk])
  rw [hk, ← hyk] at ho
  obtain ⟨q, hq, hl⟩ := commit_rope b.y (b.x.overtake s1 ws) ws extra .fall ho
  rw [hyk] at hq
  obtain ⟨gm, gh, gp, -⟩ := b.after_memories (s1 := s1) (r := r) (by rwa [hk]) (hyk.trans hk.symm) ws extra .fall
  refine ⟨gm.trans hm, gh.trans hh, gp.trans hp, q, hq, fun i x hx hu => ?_⟩
  · have hx' : (b.y.flown { r with outst := o } ws extra (b.x.overtake s1 ws).nextId).strands[i]? = some x := by
      rw [Issue.flown_strands]
      exact (congrArg (·[i]?) hs).trans hx
    have hyu : b.y.unit = b.x.unit := by rw [hy]; rfl
    obtain ⟨x', h1, h2, h3⟩ := moveUnit_fall (u := b.y.unit) b.y.fall hx' (by rwa [hyu])
    obtain ⟨x'', g1, g2, g3⟩ := hl.getElem? (by rw [Issue.committed_fall_strands]; exact h1)
    refine ⟨x'', g1, ?_, g3.trans h3⟩
    rw [g2, h2, hy]
    rfl

/-- Where no flag is enabled, no flag traps. -/
theorem Begun.untrapped_of_quiet {b : Begun} (h : b.y.fpxen = 0) (fl : Nat → Flags) : b.untrapped fl = true := by
  have hnone : (maskOf fun l => fl l &&& (0 : Flags) != 0) = 0 := by
    rw [show (fun l => fl l &&& (0 : Flags) != 0) = fun _ => false by funext l; simp]
    decide
  rw [Begun.untrapped, Issue.fpxLanes, h, hnone]
  simp

theorem Begun.dest_of_quiet {b : Begun} (h : b.y.fpxen = 0) (res : Nat → ER) : ∃ ws, b.dest res = some ws := by
  unfold Begun.dest
  split
  · exact ⟨_, rfl⟩
  · split <;> exact ⟨_, if_pos (b.untrapped_of_quiet h _)⟩

/-- An instruction with a destination register completes, whatever its result, where its domain traps on no flag. -/
theorem EndsInD.completesQuietly {i : Fields → Instr} {op : Nat} {res : Begun → Nat → ER} (h : EndsInD i op res) : CompletesQuietly i op := by
  intro f s b hb hm hf
  obtain ⟨⟨s1, extra⟩, hm⟩ := Option.isSome_iff_exists.1 hm
  obtain ⟨ws, hd⟩ := b.dest_of_quiet hf (res b)
  refine ⟨_, h.completesWith f s b s1 extra ws hb hm hd, ?_⟩
  obtain ⟨hi, -, -, -, ht, -⟩ := begun_spec hb
  have hr := (issuing_spec hi).2.2.2.2.1
  have hmaps := (Issue.mapStageIn_only (mapped_ok hm)).1
  exact b.goesOn_of hb (r := b.x.r) (by rw [congrArg State.ropes hmaps, ht]; exact hr) rfl
    (by rw [congrArg State.mem hmaps, ht]; rfl) (by rw [congrArg State.host hmaps, ht]; rfl) (by rw [congrArg State.peer hmaps, ht]; rfl) ws extra

/-- The state with a token of a rope written and an entry queued. -/
def State.enqueue (s : State) (k n : Nat) (tok : Token) (e : SfuEntry) : State :=
  { s.onRope k (fun r => r.setTok n tok) with sfu := (s.onRope k (fun r => r.setTok n tok)).sfu ++ [e] }

/-- An enqueue leaves its unit gone on, its entry queued and its token written. -/
theorem Begun.after_enqueue {s : State} {op : Nat} {f : Fields} {pb : PB} {b : Begun} (hb : s.begun op f pb = some b) {s1 : State}
    (hr : s1.ropes = s.ropes) (hm : s1.mem = s.mem) (hh : s1.host = s.host) (hp : s1.peer = s.peer) (n : Nat) (tok : Token)
    (e : SfuEntry) (extra : Nat) :
    b.GoesOn s (b.after (s1.enqueue b.y.k n tok e) [] extra .fall) ∧ (b.after (s1.enqueue b.y.k n tok e) [] extra .fall).sfu = s1.sfu ++ [e] ∧
      ∃ r : Rope, tget (b.after (s1.enqueue b.y.k n tok e) [] extra .fall).ropes s.cur = some r ∧ r.tok n = tok := by
  obtain ⟨hi, -, -, hy, -⟩ := begun_spec hb
  obtain ⟨-, -, hk, -, hrope, -⟩ := issuing_spec hi
  have hyk : b.y.k = s.cur := by rw [hy]; exact hk
  have hget : tget (s1.enqueue b.y.k n tok e).ropes s.cur = some (b.x.r.setTok n tok) := by
    rw [show (s1.enqueue b.y.k n tok e).ropes = (s1.onRope b.y.k fun r => r.setTok n tok).ropes from rfl, State.onRope_get, if_pos hyk.symm,
      hyk, hr, hrope]
    rfl
  have hget' := hget
  rw [← hk] at hget'
  refine ⟨b.goesOn_of hb hget rfl ((State.onRope_mem ..).trans hm) ((State.onRope_host ..).trans hh) ((State.onRope_peer ..).trans hp) [] extra, ?_, ?_⟩
  · exact (b.after_memories hget' (hyk.trans hk.symm) [] extra .fall).2.2.2.trans (congrArg (· ++ _) (State.onRope_sfu ..))
  · obtain ⟨q, hq, hqk⟩ := b.after_tokens hget' (hyk.trans hk.symm) [] extra .fall
    rw [hk] at hq
    exact ⟨q, hq, (congrArg (rget Token.none · n) hqk).trans (rget_rset_same ..)⟩

/-- Each check of an enqueue passes, and what is left is its token and its entry. -/
theorem enqueuesQuietly_of_sfqOp {i : Fields → Instr} {op : Nat} (h : ∀ f s, exec (i f) s = sfqOp op f s) : EnqueuesQuietly i op := by
  intro f s b hb hm mine htok hroom hmine
  obtain ⟨⟨s1, extra⟩, hm⟩ := Option.isSome_iff_exists.1 hm
  obtain ⟨hi, -, -, hy, ht, -⟩ := begun_spec hb
  have hyk : b.y.k = s.cur := by rw [hy]; exact (issuing_spec hi).2.2.1
  have hmaps : s1 = { s with free := b.t.free, arrays := s1.arrays, cores := s1.cores } := by
    rw [(Issue.mapStageIn_only (mapped_ok hm)).1, ht]; rfl
  obtain ⟨tok, due, hexec, hpend, hdid, hlanes, hdue⟩ : ∃ tok due, exec (i f) s = .next (b.after (s1.drawDelay.2.enqueue b.y.k (f.d.toNat % 16) tok
      ⟨b.y.k, f.d.toNat % 16, b.y.r.dslot, quadKey b.y.c b.y.r.quad, due⟩) [] extra .fall) ∧ tok.state = .pending ∧ tok.did = b.y.r.did ∧
      tok.lanes = b.y.act ∧ b.y.core.cyc + 12 ≤ due :=
    ⟨_, _, enqueuesWith_of_sfqOp h f s b s1 extra hb hm (by omega) htok hroom hmine, rfl, rfl, rfl, Nat.le_add_right _ s1.drawDelay.1⟩
  obtain ⟨hon, hsfu, r, hr, htok⟩ := b.after_enqueue hb (s1 := s1.drawDelay.2) (congrArg State.ropes hmaps :) (congrArg State.mem hmaps :)
    (congrArg State.host hmaps :) (congrArg State.peer hmaps :) (f.d.toNat % 16) tok _ extra
  refine ⟨_, hexec, hon, ⟨_, hsfu.trans (congrArg (· ++ _) (congrArg State.sfu hmaps :)), hyk, rfl, ?_⟩, r, hr, ?_⟩
  · rwa [show b.x.core = b.y.core by rw [hy]; rfl]
  · rw [htok, hdid, hpend, hlanes]
    refine ⟨rfl, ?_, rfl⟩
    have hview := b.x.viewed_rope s (b.x.readsOf op b.m f pb0)
    rw [← hy] at hview
    rw [hview]

/-- Settles O14: the results of the minima, maxima, classes and packs end in D, and the enqueues pass their checks. -/
theorem minimaMaximaClassesPacksAndEnqueuesComplete : Obligations.MinimaMaximaClassesPacksAndEnqueuesComplete := by
  refine ⟨?_, ?_, ?_, ?_, ?_, ?_, ?_, ?_, ?_, ?_, ?_, ?_, ?_, ?_, ?_, ?_, ?_, ?_, ?_, ?_, ?_, ?_, ?_, ?_, ?_, ?_, ?_, ?_, ?_, ?_, ?_, ?_⟩
  iterate 4 exact (endsInD_fmin fun _ _ => rfl).completesQuietly
  iterate 4 exact (endsInD_fmax fun _ _ => rfl).completesQuietly
  iterate 4 exact (endsInD_fclass (fun _ _ => rfl) (by rintro m ⟨⟩; rfl)).completesQuietly
  iterate 10 exact (endsInD_pack (fun _ _ => rfl) (by rintro m ⟨⟩; decide) (by decide)).completesQuietly
  iterate 10 exact enqueuesQuietly_of_sfqOp fun _ _ => rfl

end Sys2Proof.Machine
end

section
/-! PROOFS. SFU results and copy commands (R204 to R210). -/

namespace Sys2Proof.Machine

/-- Settles O34: SFQ.RD by the state of its token, WAITK by the tokens of its mask. -/
theorem sfuResultsAreReadAndAwaited : Obligations.SfuResultsAreReadAndAwaited := by
  refine ⟨fun f s b hb hfree => ?free, ?ready, fun f s b hb hmask => ?waitk⟩
  case free =>
    rw [show exec (.sfqRd f) s = execSfqRd f s from rfl, execSfqRd]
    exact issue_go hb (by simp only [hfree])
  case ready =>
    intro f s b hb n k fl hready hdid hfl
    have hquiet : (b.y.fpxLanes fl != 0 && !b.y.quiet 12) = false := by simpa [Begun.untrapped, or_iff_not_imp_left] using hfl
    rw [show exec (.sfqRd f) s = execSfqRd f s from rfl, execSfqRd]
    refine issue_go hb ?_
    simp only [show (b.y.r.tok (f.a.toNat % 16)).state = .ready from hready, show (b.y.r.tok (f.a.toNat % 16)).did = b.y.r.did from hdid,
      bne_self_eq_false, Bool.false_eq_true, if_false]
    exact if_neg (ne_true_of_eq_false hquiet)
  case waitk =>
    have hmem : ∀ n ∈ waitMask f, n < 16 ∧ (f.c ++ f.b).getLsbD n = true := fun n hn => by simpa [waitMask] using hn
    have hpending : (waitMask f).any (fun n => (b.y.r.tok n).state == .pending || b.y.r.outst.any (fun o => o.tok == some n)) = false := by
      refine List.any_eq_false.2 fun n hn => ?_
      obtain ⟨hlt, hbit⟩ := hmem n hn
      obtain ⟨hp, ho, -⟩ := hmask n hlt hbit
      simpa [hp] using ho
    have hother : (waitMask f).any (fun n => (b.y.r.tok n).state == .ready && (b.y.r.tok n).did != b.y.r.did) = false := by
      refine List.any_eq_false.2 fun n hn => ?_
      obtain ⟨hlt, hbit⟩ := hmem n hn
      simpa using (hmask n hlt hbit).2.2
    rw [show exec (.waitk f) s = execWaitk f s from rfl, execWaitk]
    refine issue_go hb ?_
    simp only [hpending, hother, Bool.false_eq_true, if_false]
    rfl

theorem State.onMarks_sameWgs (s : State) (g : Mark → Mark) : s.SameWgs (s.onMarks g) := by
  intro k
  rw [show (s.onMarks g).wgs = s.wgs.map (fun p => (p.1, { p.2 with marks := p.2.marks.map (fun q => (q.1, q.2.map g)) })) from rfl,
    tget_map_fst (hg := ?fst)]
  case fst => exact fun _ => rfl
  cases tget s.wgs k <;> rfl

theorem Rope.rget_handleRegs (r : Rope) {n : Nat} (hn : n < 16) : rget 0 r.handleRegs n = r.hr n := by
  interval_cases n <;> rfl

/-- What the start of a copy program leaves (R206, R208). -/
theorem Begun.startCopy_go (b : Begun) (start : DWord) (e : Tbl Word) (cmd : Option CpCmd) :
    ∃ t, b.y.startCopy b.t start e cmd = .go t [] 0 .fall ∧ b.StartsCopy t start cmd e := by
  refine ⟨_, rfl, State.onRope_mem .., ?_, State.onRope_nextId ..,
    ⟨_, (congrArg (tget · _) (State.onRope_ctxs ..)).trans (tget_tset_same ..), rfl, rfl, rfl, rfl, rfl, rfl, rfl, fun n hn => b.y.r.rget_handleRegs hn⟩,
    fun r hr => ?_⟩
  · rw [State.SameWgs, State.onRope_wgs]
    exact State.onMarks_sameWgs _ _
  · rw [State.onRope_get, if_pos rfl]
    exact congrArg (Option.map _) hr

/-- Settles O35: each check of the copy commands passes, and what is left is the context that they start, or the count. -/
theorem copyCommandsStartAContext : Obligations.CopyCommandsStartAContext := by
  refine ⟨?cprun, fun f pb s b hb hact hshare hwait => ?cpcmd, fun f s b hb hact hn hframe => ?sem, fun f s b hb hact hn => ?running⟩
  case cprun =>
    intro f s b hb hact hshare dest halign hcopy hwait
    obtain ⟨t, ht, hstart⟩ := b.startCopy_go dest ([0, 1, 2, 3].map (fun n => (n, b.y.r.sr (f.d.toNat + n)))) none
    refine ⟨t, ?_, hstart⟩
    rw [show exec (.cprun f) s = execCprun f s from rfl, execCprun]
    refine issue_go hb ?_
    rw [← ht]
    simp only [if_neg hact, if_neg hshare, hwait]
    exact if_neg (not_or.2 ⟨not_not.2 halign, by rw [show addInt _ _ = dest from rfl, hcopy]; decide⟩)
  case cpcmd =>
    obtain ⟨t, ht, hstart⟩ := b.startCopy_go b.y.pc [(0, (f.cw .n32).imm)] (some ⟨f.a.toNat % 16, f.d.toNat % 16,
      (pb.w0 + b.y.r.sr f.b.toNat).toNat, (pb.w1 + b.y.r.sr f.c.toNat).toNat, true, pb.w2.toNat % 2 ^ 24, pb.w3⟩)
    refine ⟨t, ?_, hstart⟩
    rw [show exec (.cpcmd f pb) s = execCpcmd f pb s from rfl, execCpcmd]
    refine issue_go hb ?_
    rw [← ht]
    simp only [if_neg hact, if_neg hshare, hwait]
    rfl
  case sem =>
    rw [show exec (.cpq f) s = execCpq f s from rfl, execCpq]
    refine issue_go hb ?_
    simp only [if_neg hact, if_pos hn, hframe]
    rfl
  case running =>
    rw [show exec (.cpq f) s = execCpq f s from rfl, execCpq]
    refine issue_go hb ?_
    simp only [if_neg hact, if_neg (not_lt.2 hn)]

end Sys2Proof.Machine
end

section
/-! PROOFS. Empty active sets, barred instructions and the scoreboard (R69, R74 to R76, R87, R16). -/

namespace Sys2Proof.Machine

section
variable {s : State} {op : Nat} {f : Fields} {pb : PB} {b : Begun}

/-- Where ACTIVE is empty a transfer has no target to check (R160). -/
theorem transfer_idle (hact : b.y.act = 0) (perLane : Bool) (target : Nat → DWord) (ws : List RegWrite) :
    b.y.transfer b.t perLane target ws = .go b.t [] 0 .fall := by
  have hnone : b.y.active = [] := by rw [Issue.active, hact]; rfl
  rw [Issue.transfer, hnone, if_pos hact]
  rfl

theorem mapped_plain (ha : b.y.f.mae = false) (hb : b.y.f.mbe = false) : b.mapped = some (b.t, 0) := by
  have h : b.y.mapIn b.t b.m = .ok (b.t, 0) := if_neg (by simp [ha, hb])
  rw [Begun.mapped, h]

/-- Where ACTIVE is empty an instruction with a destination register writes nothing (R69). -/
theorem EndsInD.idle {i : Fields → Instr} {res : Begun → Nat → ER} (h : EndsInD i op res) (hb : s.begun op f pb0 = some b)
    (hact : b.y.act = 0) (ha : f.mae = false) (hbe : f.mbe = false) : exec (i f) s = .next (b.after b.t [] 0 .fall) := by
  have hf := (begun_op hb).2.2.2
  exact h.completesWith f s b b.t 0 [] hb (mapped_plain (by rwa [hf]) (by rwa [hf])) (if_pos hact)

theorem slotWaits_of_pending {x : Issue} {s : State} {name k : Nat} (hk : x.slotCheck s name = .ok k) (hp : (s.slot k).state = .pending) :
    x.slotWaits s name = true := by
  rw [Issue.slotWaits, hk]
  simp [hp]

end

/-- Settles O40: with ACTIVE empty the body of each instruction goes on at once, but for a map instruction that waits. -/
theorem anEmptyActiveSetHasNoEffect : Obligations.AnEmptyActiveSetHasNoEffect := by
  refine ⟨fun f s b hb hact hw => ?mapld, fun f s b hb hact hw => ?mapclr, fun f s b hb hact hw => ?mapq,
    fun f s b hb hact => (show execCprun f s = _ from issue_go hb (if_pos hact)),
    fun f s b hb hact => (show execCpq f s = _ from issue_go hb (if_pos hact)),
    fun f s b hb hact => (show execSread f s = _ from issue_go hb (if_pos hact)),
    fun f s b hb hact => (show execSysrd f s = _ from issue_go hb (if_pos hact)),
    fun f s b hb hact => (show execSyswr f s = _ from issue_go hb (if_pos hact)),
    fun f s b hb hact => (show execPrds f s = _ from issue_go hb (congrArg (Act.go _ · _ _) (if_pos hact))),
    fun f s b hb hact => (show execPwrs f s = _ from issue_go hb (congrArg (Act.go _ · _ _) (if_pos hact))),
    fun f s b hb hact => (show voteOp 0x158 (fun x => x.votes != 0) f s = _ from issue_go hb (congrArg (Act.go _ · _ _) (if_pos hact))),
    fun f s b hb hact => (show voteOp 0x159 (fun x => x.votes == x.act) f s = _ from issue_go hb (congrArg (Act.go _ · _ _) (if_pos hact))),
    fun f s b hb hact => (show execVoteBal f s = _ from issue_go hb (congrArg (Act.go _ · _ _) (if_pos hact))),
    fun f s b hb hact => (show execBra f s = _ from issue_go hb (transfer_idle hact _ _ _)),
    fun f s b hb hact => (show execCall f s = _ from issue_go hb (transfer_idle hact _ _ _)),
    fun f s b hb hact => (show execJmpi f s = _ from issue_go hb (transfer_idle hact _ _ _)),
    fun f s b hb hact => (show execCalli f s = _ from issue_go hb (transfer_idle hact _ _ _)),
    fun f s b hb hact => (show execRet f s = _ from issue_go hb (transfer_idle hact _ _ _)),
    fun f s b hb hact => (issues_load fun _ _ => rfl).idle hb hact,
    fun f s b hb hact => (issues_store fun _ _ => rfl).idle hb hact,
    fun f s b hb hact => (issues_atom false .addN32 fun _ _ => rfl).idle hb hact,
    fun f s b hb hact => (issues_atom true .addN32 fun _ _ => rfl).idle hb hact,
    fun f s b hb hact ha hbe => (endsInD_alu2 (fun _ _ => rfl) fun _ _ _ _ _ => rfl).idle hb hact ha hbe,
    fun f s b hb hact ha hbe => (endsInD_alu1 (fun _ _ => rfl) fun _ _ _ _ => rfl).idle hb hact ha hbe,
    fun f s b hb hact ha hbe => (endsInD_ffma fun _ _ => rfl).idle hb hact ha hbe,
    fun f s b k hb hact hk hp => ?mapldWaits, fun f s b k hb hact hk hp => ?mapclrWaits, fun f s b k hb hact hw hk hp => ?mapqWaits⟩
  case mapld => exact (show execMapld f s = _ from issue_go hb ((if_pos hact).trans (if_neg (ne_true_of_eq_false hw))))
  case mapclr => exact (show execMapclr f s = _ from issue_go hb ((if_pos hact).trans (if_neg (ne_true_of_eq_false hw))))
  case mapq =>
    refine (show execMapq f s = _ from issue_go hb ((if_pos hact).trans (if_neg ?_)))
    cases h : f.c.getLsbD 0 with
    | false => simp
    | true => simp [hw h]
  case mapldWaits => exact (show execMapld f s = _ from issue_wait hb ((if_pos hact).trans (if_pos (slotWaits_of_pending hk hp))))
  case mapclrWaits => exact (show execMapclr f s = _ from issue_wait hb ((if_pos hact).trans (if_pos (slotWaits_of_pending hk hp))))
  case mapqWaits =>
    exact (show execMapq f s = _ from issue_wait hb ((if_pos hact).trans (if_pos (by rw [hw, slotWaits_of_pending hk hp]; rfl))))

/-! Barred instructions (R16, R87). -/

section
variable {s : State} {op : Nat} {f : Fields} {pb : PB} {x : Issue} {m : Meta} (body : Issue → State → Act)

/-- An instruction that its level may not run raises ILL, reason 2. -/
theorem issue_privileged (hx : s.issuing op f = some x) (hm : metaOf op = some m) (hp : x.proFault = none)
    (hr : regsOk op m f pb x.r.regs = true) (hpriv : privOk op x.r.priv = false) :
    issue op f pb body s = .next { x.raise s ⟨1, 2, x.act, 0, 0, 0⟩ with turn := .choose } := by
  unfold issue
  simp only [hx, hm, hp, hr, hpriv, Bool.not_true, Bool.not_false, Bool.false_eq_true, if_false, if_true]
  rfl

/-- An instruction that names a vector register at or above `.regs` raises ILL, reason 1. -/
theorem issue_register (hx : s.issuing op f = some x) (hm : metaOf op = some m) (hp : x.proFault = none)
    (hr : ∃ n, RegRef.vec n ∈ regReads op m f pb ++ regWrites op m f pb ∧ x.r.regs ≤ n) :
    issue op f pb body s = .next { x.raise s ⟨1, 1, x.act, 0, 0, 0⟩ with turn := .choose } := by
  obtain ⟨n, hn, hle⟩ := hr
  have hbad : regsOk op m f pb x.r.regs = false := by
    refine Bool.eq_false_iff.2 fun h => ?_
    have := List.all_eq_true.1 h _ hn
    exact absurd hle (not_le.2 (of_decide_eq_true this))
  unfold issue
  simp only [hx, hm, hp, hbad, Bool.not_false, if_true]
  rfl

/-- An instruction that the scoreboard checks raises STALLCHK with the register in INFO. -/
theorem issue_checked (hx : s.issuing op f = some x) (hm : metaOf op = some m) (hp : x.proFault = none)
    (hr : regsOk op m f pb x.r.regs = true) (hpriv : privOk op x.r.priv = true) (h64 : usesF64 op = false) {y : RegRef}
    (hh : x.hazard (x.readsOf op m f pb) (regWrites op m f pb) = .check y) :
    issue op f pb body s = .next { x.raise s ⟨3, 0, x.act, y.info, 0, 0⟩ with turn := .choose } := by
  unfold issue
  simp only [hx, hm, hp, hr, hpriv, h64, hh, Bool.not_true, Bool.false_and, Bool.false_eq_true, if_false]
  rfl

end

/-- Settles O41: the envelope looks at the registers and at the level before it runs the body. -/
theorem barredInstructionsRaiseIll : Obligations.BarredInstructionsRaiseIll := by
  have notSystem : ∀ {p : Priv}, p ≠ .system → (p == Priv.system) = false := fun h => beq_eq_false_iff_ne.2 h
  have notTask : ∀ {p : Priv}, p = .task → (p != Priv.task) = false := fun h => by rw [h]; rfl
  refine ⟨fun f s x m hx hm hp hr hv => (show execSysrd f s = _ from issue_privileged _ hx hm hp hr (notSystem hv)),
    fun f s x m hx hm hp hr hv => (show execSyswr f s = _ from issue_privileged _ hx hm hp hr (notSystem hv)),
    fun f s x m hx hm hp hr hv => (show execCinv f s = _ from issue_privileged _ hx hm hp hr (notSystem hv)),
    fun f s x m hx hm hp hr hv => (show execHalt f s = _ from issue_privileged _ hx hm hp hr (notSystem hv)),
    fun f s x m hx hm hp hr hv => (show execTret f s = _ from issue_privileged _ hx hm hp hr (notTask hv)),
    fun f s x m hx hm hp hr hv => (show execTrecRd f s = _ from issue_privileged _ hx hm hp hr (notTask hv)),
    fun f s x m hx hm hp hr hv => (show execTrecWr f s = _ from issue_privileged _ hx hm hp hr (notTask hv)),
    fun f s x m hx hm hp hr => (show alu2 0x000 f addElem s = _ from issue_register _ hx hm hp hr),
    fun f s x m hx hm hp hr => (show alu3 0x083 f ffmaElem s = _ from issue_register _ hx hm hp hr),
    fun f s x m hx hm hp hr => (show loadOp 0x184 4 false f s = _ from issue_register _ hx hm hp hr),
    fun f s x m hx hm hp hr => (show atomOp 0x198 false .addN32 f s = _ from issue_register _ hx hm hp hr)⟩

/-! The scoreboard (R74 to R76). -/

theorem pendingOn_eq_none {ws : List (List RegWrite)} {refs : List RegRef} :
    pendingOn ws refs = none ↔ ∀ y ∈ refs, ∀ l ∈ ws, ∀ w ∈ l, w.hits y = false := by
  simp [pendingOn, List.find?_eq_none]

theorem pendingOn_singleton {ws : List (List RegWrite)} {y : RegRef} {l : List RegWrite} {w : RegWrite} (hl : l ∈ ws) (hw : w ∈ l)
    (hh : w.hits y = true) : pendingOn ws [y] = some y := by
  have h : (ws.any fun l => l.any fun w => w.hits y) = true := List.any_eq_true.2 ⟨l, hl, List.any_eq_true.2 ⟨w, hw, hh⟩⟩
  rw [pendingOn, List.find?_cons, h]

/-- The scalars of a list of registers. -/
def scalarsOf (refs : List RegRef) : List RegRef := refs.filter (fun y => match y with | .sca _ => true | _ => false)

theorem mem_scalarsOf {refs : List RegRef} {n : Nat} (h : RegRef.sca n ∈ refs) : RegRef.sca n ∈ scalarsOf refs := List.mem_filter.2 ⟨h, rfl⟩

theorem scalarsOf_eq_nil {refs : List RegRef} (h : ∀ n, RegRef.sca n ∉ refs) : scalarsOf refs = [] := by
  refine List.filter_eq_nil_iff.2 fun y hy => ?_
  cases y with
  | sca n => exact absurd hy (h n)
  | vec n => exact Bool.false_ne_true
  | prd n => exact Bool.false_ne_true

/-- The writes of the results in flight of a unit's strands, and those of other strands. -/
def Issue.ownWrites (x : Issue) : List (List RegWrite) :=
  (x.r.inflight.filter (fun p => p.strands &&& x.r.unitStrands x.unit != 0)).map Pend.writes

/-- The writes of the results in flight of other strands. -/
def Issue.otherWrites (x : Issue) : List (List RegWrite) :=
  (x.r.inflight.filter (fun p => p.strands &&& x.r.unitStrands x.unit == 0)).map Pend.writes

section
variable {x : Issue} {rd wr : List RegRef} {y : RegRef}

theorem hazard_wait (h : (pendingOn x.otherWrites (scalarsOf rd)).isSome = true) : x.hazard rd wr = .wait := if_pos h

/-- The scoreboard of a native instruction that no other strands' scalar result holds up. -/
theorem hazard_native (hcw : ∃ cw, x.f.enc = .native cw) (h : pendingOn x.otherWrites (scalarsOf rd) = none) :
    x.hazard rd wr = if x.chksb then
        match (pendingOn x.ownWrites rd).or (pendingOn (x.r.outst.map (fun o => o.writes ++ o.waits)) (rd ++ wr)) with
        | some y => .check y
        | none => .clear
      else .clear := by
  obtain ⟨cw, hcw⟩ := hcw
  refine (if_neg (ne_true_of_eq_false (congrArg Option.isSome h))).trans ((if_neg (by rw [hcw]; exact Bool.false_ne_true)).trans ?_)
  cases x.chksb with
  | false => rfl
  | true =>
    rw [if_pos rfl, if_pos rfl]
    show (match pendingOn x.ownWrites rd with | some y => _ | none => _) = _
    cases pendingOn x.ownWrites rd with
    | some y => rfl
    | none => cases pendingOn (x.r.outst.map (fun o => o.writes ++ o.waits)) (rd ++ wr) <;> rfl

end

/-- Settles O42: the scoreboard looks for a scalar of other strands, then for results in flight, then for outstanding results. -/
theorem theScoreboardIsChecked : Obligations.TheScoreboardIsChecked := by
  refine ⟨fun f s x m y hx hm hp hr hh => ?checked, fun x rd wr p y w hon hp hw hst hrd hhit hsca hcw => ?inflight,
    fun x rd wr o y w hon hnone ho hw hhit hrd hcw => ?outstanding, fun x rd wr p n w hp hw hst hhit hrd => ?foreign,
    fun x rd wr p n w hon hown hp hw hhit hrd hcw => ?ownScalar, fun x rd wr hoff hsca hcw => ?off⟩
  case checked => exact (show alu2 0x000 f addElem s = _ from issue_checked _ hx hm hp hr rfl rfl hh)
  case inflight =>
    subst hrd
    have hforeign : scalarsOf [y] = [] := scalarsOf_eq_nil fun n hn => hsca n (List.mem_singleton.1 hn).symm
    have hfound : pendingOn x.ownWrites [y] = some y :=
      pendingOn_singleton (List.mem_map_of_mem (List.mem_filter.2 ⟨hp, bne_iff_ne.2 hst⟩)) hw hhit
    rw [hazard_native hcw (by rw [hforeign]; rfl), if_pos hon, hfound]
    rfl
  case outstanding =>
    have hown : pendingOn x.ownWrites rd = none := by
      rw [show x.ownWrites = [] by rw [Issue.ownWrites, hnone]; rfl]
      exact pendingOn_eq_none.2 fun _ _ _ hl => absurd hl List.not_mem_nil
    have hother : pendingOn x.otherWrites (scalarsOf rd) = none := by
      rw [show x.otherWrites = [] by rw [Issue.otherWrites, hnone]; rfl]
      exact pendingOn_eq_none.2 fun _ _ _ hl => absurd hl List.not_mem_nil
    rw [hazard_native hcw hother, if_pos hon, hown, hrd, pendingOn_singleton (List.mem_map_of_mem ho) hw hhit]
    rfl
  case foreign =>
    refine hazard_wait (List.find?_isSome.2 ⟨.sca n, mem_scalarsOf hrd, List.any_eq_true.2 ⟨p.writes, ?_, List.any_eq_true.2 ⟨w, hw, hhit⟩⟩⟩)
    exact List.mem_map_of_mem (List.mem_filter.2 ⟨hp, beq_iff_eq.2 hst⟩)
  case ownScalar =>
    subst hrd
    have hother : x.otherWrites = [] := by
      rw [Issue.otherWrites, List.filter_eq_nil_iff.2 fun q hq => by simpa using hown q hq]
      rfl
    have hfound : pendingOn x.ownWrites [.sca n] = some (.sca n) :=
      pendingOn_singleton (List.mem_map_of_mem (List.mem_filter.2 ⟨hp, bne_iff_ne.2 (hown p hp)⟩)) hw hhit
    rw [hazard_native hcw (by rw [hother]; exact pendingOn_eq_none.2 fun _ _ _ hl => absurd hl List.not_mem_nil), if_pos hon, hfound]
    rfl
  case off =>
    rw [hazard_native hcw (by rw [scalarsOf_eq_nil hsca]; rfl), hoff]
    rfl

end Sys2Proof.Machine
end

section
/-! PROOFS. System instructions (R221, R225 to R227). -/

namespace Sys2Proof.Machine

/-! What a barrier leaves of the ropes' strands (R170). -/

/-- The strands of a rope, and the workgroup that it belongs to. -/
def Rope.standsIn (r : Rope) : List Strand × Nat := (r.strands, r.wg)

/-- A change that leaves the memories, and the strands and the workgroup of every rope. -/
def State.SameStrands (s t : State) : Prop :=
  t.mem = s.mem ∧ t.host = s.host ∧ t.peer = s.peer ∧ ∀ k, (tget t.ropes k).map Rope.standsIn = (tget s.ropes k).map Rope.standsIn

theorem State.sameStrands_refl (s : State) : s.SameStrands s := ⟨rfl, rfl, rfl, fun _ => rfl⟩

theorem State.SameStrands.trans {s t u : State} (h : s.SameStrands t) (h' : t.SameStrands u) : s.SameStrands u :=
  ⟨h'.1.trans h.1, h'.2.1.trans h.2.1, h'.2.2.1.trans h.2.2.1, fun k => (h'.2.2.2 k).trans (h.2.2.2 k)⟩

theorem State.sameStrands_foldl {α : Type} {g : State → α → State} (hg : ∀ (s : State) a, s.SameStrands (g s a)) (l : List α) (s : State) :
    s.SameStrands (l.foldl g s) := by
  induction l generalizing s with
  | nil => exact s.sameStrands_refl
  | cons a l ih => exact (hg s a).trans (ih _)

theorem State.setRope_sameStrands {s : State} {k : Nat} {r q : Rope} (hr : tget s.ropes k = some r) (hq : q.standsIn = r.standsIn) :
    s.SameStrands (s.setRope k q) := by
  refine ⟨rfl, rfl, rfl, fun j => ?_⟩
  by_cases hj : j = k
  · subst hj
    rw [State.setRope_get, hr, Option.map_some, Option.map_some, hq]
  · rw [State.setRope_get_ne s q hj]

theorem State.sameStrands_of {s t : State} (hm : t.mem = s.mem) (hh : t.host = s.host) (hp : t.peer = s.peer) (hr : t.ropes = s.ropes) :
    s.SameStrands t := ⟨hm, hh, hp, fun k => by rw [hr]⟩

theorem State.barTest_sameStrands (s : State) (wg b : Nat) : s.SameStrands (s.barTest wg b) := by
  unfold State.barTest
  split
  · exact s.sameStrands_refl
  · next w hw =>
    simp only []
    split
    · refine State.SameStrands.trans ?_ (State.sameStrands_foldl (fun t p => ?_) _ _)
      · refine ⟨rfl, rfl, rfl, fun k => ?_⟩
        rw [show (State.onMarks _ _).ropes = s.ropes.map (fun p => (p.1,
          if p.2.wg = wg then p.2.barDone b (w.barrier b).phase (s.core w.core).cyc else p.2)) from rfl, tget_map_fst (hg := ?fst)]
        case fst => exact fun _ => rfl
        cases tget s.ropes k with
        | none => rfl
        | some r => exact congrArg some (by simp only []; split <;> rfl)
      · split
        · exact State.sameStrands_of rfl rfl rfl rfl
        · exact t.sameStrands_refl
    · exact s.sameStrands_refl

theorem State.barRope1_sameStrands (s : State) (k b : Nat) : s.SameStrands (s.barRope1 k b) := by
  unfold State.barRope1
  split
  · exact s.sameStrands_refl
  · next r hr =>
    split
    · exact s.sameStrands_refl
    · next w hw =>
      simp only []
      split
      · refine State.SameStrands.trans ?_ (State.barTest_sameStrands _ _ _)
        exact State.SameStrands.trans (t := s.setRope k { r with bars := tset r.bars b { r.bar b with arrived := true, phase := (w.barrier b).phase } })
          (State.setRope_sameStrands hr rfl) (State.sameStrands_of rfl rfl rfl rfl)
      · exact s.sameStrands_refl

theorem State.barLate_sameStrands (s : State) (wg b : Nat) : s.SameStrands (s.barLate wg b) := by
  unfold State.barLate
  exact State.sameStrands_foldl (fun t (p : Nat × Rope) => t.barRope1_sameStrands p.1 b) _ _

theorem State.barEnd_sameStrands (s : State) (k b : Nat) : s.SameStrands (s.barEnd k b) := by
  unfold State.barEnd
  split
  · exact s.sameStrands_refl
  · split
    · exact s.sameStrands_refl
    · simp only []
      refine State.SameStrands.trans (State.SameStrands.trans ?_ (State.barTest_sameStrands _ _ _)) (State.barLate_sameStrands _ _ _)
      exact State.sameStrands_of rfl rfl rfl rfl

theorem State.endRope_sameStrands (s : State) (k : Nat) : s.SameStrands (s.endRope k) :=
  State.sameStrands_foldl (fun t b => t.barEnd_sameStrands k b) _ _

/-! HALT (R227). -/

theorem Rope.exitAll_ended (r : Rope) : r.exitAll.ended = true := by
  refine List.all_eq_true.2 fun t ht => ?_
  obtain ⟨x, -, rfl⟩ := List.mem_map.1 ht
  cases hp : x.present <;> simp [Strand.live, hp]

/-- A rope of a halted workgroup ends, where it has not. -/
def State.haltRope (s : State) (k : Nat) : State :=
  match tget s.ropes k with
  | none => s
  | some r => if r.ended then s else (s.setRope k r.exitAll).endRope k

/-- Whether a rope, where it exists, has ended. -/
def State.EndedAt (s : State) (k : Nat) : Prop := ∀ r, tget s.ropes k = some r → r.ended = true

theorem State.SameStrands.endedAt {s t : State} (h : s.SameStrands t) {k : Nat} (he : s.EndedAt k) : t.EndedAt k := by
  intro r hr
  have hk := h.2.2.2 k
  rw [hr, Option.map_some] at hk
  obtain ⟨q, hq, hqr⟩ := Option.map_eq_some_iff.1 hk.symm
  have := he q hq
  rwa [Rope.ended, show q.strands = r.strands from congrArg Prod.fst hqr] at this

theorem State.haltRope_endedAt (s : State) (k j : Nat) (h : j = k ∨ s.EndedAt j) : (s.haltRope k).EndedAt j := by
  unfold State.haltRope
  cases hr : tget s.ropes k with
  | none =>
    rcases h with rfl | h
    · exact fun r hr' => by rw [hr] at hr'; cases hr'
    · exact h
  | some r =>
    simp only []
    split
    · next he =>
      rcases h with rfl | h
      · exact fun q hq => by rw [hr] at hq; cases hq; exact he
      · exact h
    · refine (State.endRope_sameStrands _ _).endedAt fun q hq => ?_
      by_cases hj : j = k
      · subst hj
        rw [State.setRope_get] at hq
        cases hq
        exact r.exitAll_ended
      · rw [State.setRope_get_ne _ _ hj] at hq
        exact h.resolve_left hj q hq

theorem State.foldl_haltRope_endedAt (l : List Nat) (s : State) (j : Nat) (h : j ∈ l ∨ s.EndedAt j) : (l.foldl State.haltRope s).EndedAt j := by
  induction l generalizing s with
  | nil => exact h.resolve_left List.not_mem_nil
  | cons k l ih =>
    rw [List.foldl_cons]
    rcases h with h | h
    · rcases List.mem_cons.1 h with rfl | h
      · exact ih _ (.inr (s.haltRope_endedAt _ _ (.inl rfl)))
      · exact ih _ (.inl h)
    · exact ih _ (.inr (s.haltRope_endedAt _ _ (.inr h)))

theorem State.haltRope_memories (s : State) (k : Nat) : (s.haltRope k).mem = s.mem ∧ (s.haltRope k).host = s.host := by
  unfold State.haltRope
  split
  · exact ⟨rfl, rfl⟩
  · split
    · exact ⟨rfl, rfl⟩
    · obtain ⟨hm, hh, -⟩ := State.endRope_sameStrands (s.setRope k (Rope.exitAll _)) k
      exact ⟨hm, hh⟩

theorem State.foldl_haltRope_memories (l : List Nat) (s : State) : (l.foldl State.haltRope s).mem = s.mem ∧ (l.foldl State.haltRope s).host = s.host := by
  induction l generalizing s with
  | nil => exact ⟨rfl, rfl⟩
  | cons k l ih =>
    obtain ⟨hm, hh⟩ := s.haltRope_memories k
    obtain ⟨hm', hh'⟩ := ih (s.haltRope k)
    exact ⟨hm'.trans hm, hh'.trans hh⟩

theorem State.haltWg_eq {s : State} {wg : Nat} {w : Workgroup} (hw : tget s.wgs wg = some w) :
    s.haltWg wg = w.ropes.foldl State.haltRope (s.abandonLog (fun e => w.ropes.contains e.rope)) := by
  unfold State.haltWg
  rw [hw]
  rfl

/-! CINV (R226). -/

theorem rdByte_foldl_wrByte (l : List (Nat × Byte)) (m : Tbl Byte) (p : Nat) (h : ∀ e ∈ l, e.1 ≠ p) :
    rdByte (l.foldl (fun m (a, b) => wrByte m a b) m) p = rdByte m p := by
  induction l generalizing m with
  | nil => rfl
  | cons e l ih =>
    rw [List.foldl_cons, ih _ fun e he => h e (List.mem_cons_of_mem _ he), rdByte_wrByte, if_neg (h e List.mem_cons_self).symm]

theorem rdByte_writeBack {l : L2Line} (c : Nat) (m : Tbl Byte) (p : Nat)
    (h : ∀ u ∈ l.uo, ∀ w ∈ u.words, ¬(l.base + 4 * w.1 ≤ p ∧ p < l.base + 4 * w.1 + w.2.1.size)) : rdByte (l.writeBack c m) p = rdByte m p := by
  unfold L2Line.writeBack
  generalize hu : l.uo.filter (fun e => e.core == c) = us
  have hsub : ∀ u ∈ us, u ∈ l.uo := fun u hu' => by rw [← hu] at hu'; exact (List.mem_filter.1 hu').1
  clear hu
  induction us generalizing m with
  | nil => rfl
  | cons u us ih =>
    rw [List.foldl_cons, ih _ fun v hv => hsub v (List.mem_cons_of_mem _ hv)]
    exact u.combine_other _ _ _ (h u (hsub u List.mem_cons_self))

/-- A byte that no line writes reads as before. -/
theorem rdByte_foldl_lines {g : Tbl Byte → L2Line → Tbl Byte} (ls : List L2Line) (m : Tbl Byte) (p : Nat)
    (h : ∀ l ∈ ls, ∀ m, rdByte (g m l) p = rdByte m p) : rdByte (ls.foldl g m) p = rdByte m p := by
  induction ls generalizing m with
  | nil => rfl
  | cons l ls ih => rw [List.foldl_cons, ih _ fun k hk => h k (List.mem_cons_of_mem _ hk), h l List.mem_cons_self]

theorem pendingAt_eq_false {s : State} {p : Nat} (h : s.pendingAt p = false) {l : L2Line} (hl : l ∈ s.l2) :
    ∀ u ∈ l.uo, ∀ w ∈ u.words, ¬(l.base + 4 * w.1 ≤ p ∧ p < l.base + 4 * w.1 + w.2.1.size) := by
  intro u hu w hw hc
  rw [State.pendingAt, List.any_eq_false] at h
  refine h l hl (List.any_eq_true.2 ⟨u, hu, List.any_eq_true.2 ⟨w, hw, ?_⟩⟩)
  simpa using hc

theorem sweepL1_mem_writeBack (s : State) (c : Nat) (asid : BitVec 16) {p : Nat} (h : s.pendingAt p = false) :
    rdByte (s.sweepL1 c asid false).mem p = rdByte s.mem p := by
  refine rdByte_foldl_lines _ _ _ fun l hl m => ?_
  simp only [Bool.false_eq_true, if_false]
  split
  · exact rdByte_writeBack _ _ _ (pendingAt_eq_false h hl)
  · rfl

theorem sweepL1_mem_discard (s : State) (c : Nat) (asid : BitVec 16) {p : Nat}
    (h : ∀ l ∈ s.l2, l.asid = asid → l.dirty = some c → ∀ e ∈ l.old, e.1 ≠ p) : rdByte (s.sweepL1 c asid true).mem p = rdByte s.mem p := by
  refine rdByte_foldl_lines _ _ _ fun l hl m => ?_
  simp only [if_true]
  split
  · next ha =>
    unfold L2Line.discard
    split
    · next hd => exact rdByte_foldl_wrByte _ _ _ (h l hl (beq_iff_eq.1 ha) hd)
    · rfl
  · rfl

theorem sweepL1_l2 (s : State) (c : Nat) (asid : BitVec 16) (discard : Bool) :
    ∀ l ∈ (s.sweepL1 c asid discard).l2, l.asid = asid → l.inL1 c = false ∧ l.uo.all (fun e => e.core != c) = true := by
  intro l hl ha
  obtain ⟨k, hk, rfl⟩ := List.mem_map.1 hl
  have hka : k.asid = asid := by
    by_contra hne
    rw [if_neg (by simpa using hne)] at ha
    exact hne ha
  rw [if_pos (by simpa using hka)]
  simp [L2Line.leaveWays, L2Line.inL1, em]

theorem dropCode_code (s : State) (c : Nat) (asid : BitVec 16) :
    ∀ l ∈ (s.dropCode c (fun l => l.asid == asid)).code, l.asid = asid → c ∉ l.l1i ∧ l.bufs.all (fun q => q / 4 != c) = true := by
  intro l hl ha
  obtain ⟨k, hk, rfl⟩ := List.mem_map.1 hl
  have hka : k.asid = asid := by
    by_contra hne
    rw [if_neg (by simpa using hne)] at ha
    exact hne ha
  rw [if_pos (by simpa using hka)]
  simp

/-- What CINV leaves, by its target (R226). -/
def State.cinv (s : State) (c : Nat) (asid : BitVec 16) (target : Nat) (discard : Bool) : State :=
  let s1 := if target = 1 then s else s.sweepL1 c asid discard
  let s2 := if target = 0 then s1 else s1.dropCode c (fun l => l.asid == asid)
  if target = 2 ∧ discard = true then
    { s2 with asids := tset s2.asids asid.toNat (c :: ((tget s2.asids asid.toNat).getD []).filter (fun c' => c' != c)) }
  else s2

section
variable (s : State) (c : Nat) (asid : BitVec 16) (target : Nat) (discard : Bool)

theorem cinv_eq : ∃ l a, s.cinv c asid target discard =
    { (if target = 1 then s else s.sweepL1 c asid discard) with code := l, asids := a } ∧
      (target ≠ 0 → l = ((if target = 1 then s else s.sweepL1 c asid discard).dropCode c (fun l => l.asid == asid)).code) ∧
      (target = 2 → discard = true → ∃ l, tget a asid.toNat = some l ∧ c ∈ l) := by
  unfold State.cinv
  simp only []
  generalize (if target = 1 then s else s.sweepL1 c asid discard) = u
  by_cases h0 : target = 0
  · subst h0
    exact ⟨u.code, u.asids, rfl, fun h => absurd rfl h, fun h => absurd h (by decide)⟩
  · rw [if_neg h0]
    by_cases h2 : target = 2 ∧ discard = true
    · rw [if_pos h2]
      exact ⟨_, _, rfl, fun _ => rfl, fun _ _ => ⟨_, tget_tset_same .., List.mem_cons_self⟩⟩
    · rw [if_neg h2]
      exact ⟨_, u.asids, rfl, fun _ => rfl, fun h hd => absurd ⟨h, hd⟩ h2⟩

end

theorem scaWrite_pair (d : Nat) (v : DWord) :
    scaWrite 64 d v.toNat = [.scalar d (v.extractLsb' 0 32), .scalar (d + 1) (v.extractLsb' 32 32)] := by
  have hhigh : BitVec.ofNat 32 (v.toNat / 2 ^ 32) = v.extractLsb' 32 32 := BitVec.eq_of_toNat_eq (by simp [Nat.shiftRight_eq_div_pow])
  have hlow : BitVec.ofNat 32 v.toNat = v.extractLsb' 0 32 := BitVec.eq_of_toNat_eq (by simp)
  rw [scaWrite, if_pos rfl, hlow, hhigh]

/-- Settles O39: what each system instruction leaves; an ended rope stays ended while others end. -/
theorem systemInstructionsComplete : Obligations.SystemInstructionsComplete := by
  refine ⟨fun f s b hb hact => ?sysrd, ?syswr, fun f s b hb => ?cinv, fun f s b hb => ?halt⟩
  case sysrd =>
    refine (show execSysrd f s = _ from issue_go hb ((if_neg hact).trans ?_))
    rw [scaWrite_pair]
    rfl
  case syswr =>
    intro f s b hb hact n v k did hnone
    refine (show execSyswr f s = _ from issue_go hb ((if_neg hact).trans ?_))
    rw [show b.t.syswrRefusal b.y.c (sysNum f) (b.y.r.spair f.a.toNat) = none from hnone]
    rfl
  case cinv =>
    intro target asid
    have hgo : exec (.cinv f) s = .next (b.after (b.t.cinv b.y.c asid target (f.d.getLsbD 2)) [] 0 .fall) := by
      rw [show asid = (b.y.r.sr f.a.toNat).setWidth 16 from BitVec.eq_of_toNat_eq (by simp [asid])]
      exact (show execCinv f s = _ from issue_go hb rfl)
    obtain ⟨l, a, hc, hcode, hasid⟩ := cinv_eq b.t b.y.c asid target (f.d.getLsbD 2)
    rw [hc] at hgo
    refine ⟨_, hgo, fun h => ?_, fun h => ?_, fun h => ?_, fun p hd hp => ?_, fun p hd hp => ?_, fun h hd => hasid h hd, ?_⟩
    · rw [if_neg h]
      exact sweepL1_l2 b.t b.y.c asid (f.d.getLsbD 2)
    · rw [hcode h]
      exact dropCode_code _ b.y.c asid
    · rw [if_pos h]
    · by_cases h : target = 1
      · rw [if_pos h]
      · rw [if_neg h, hd]
        exact sweepL1_mem_writeBack _ _ _ hp
    · by_cases h : target = 1
      · rw [if_pos h]
      · rw [if_neg h, hd]
        exact sweepL1_mem_discard _ _ _ hp
    · by_cases h : target = 1
      · rw [if_pos h]
        exact ⟨rfl, rfl, rfl, rfl, rfl, rfl⟩
      · rw [if_neg h]
        exact ⟨rfl, rfl, rfl, rfl, rfl, rfl⟩
  case halt =>
    intro t
    have ht : t.mem = (b.t.haltWg b.y.r.wg).mem ∧ t.host = (b.t.haltWg b.y.r.wg).host ∧ t.ropes = (b.t.haltWg b.y.r.wg).ropes :=
      ⟨State.onStream_mem .., State.onStream_host .., State.onStream_ropes ..⟩
    obtain ⟨hm, hh, hr⟩ := ht
    rw [State.haltWg_eq (begun_wg hb)] at hm hh hr
    obtain ⟨gm, gh⟩ := State.foldl_haltRope_memories b.y.w.ropes (b.t.abandonLog (fun e => b.y.w.ropes.contains e.rope))
    refine ⟨(show execHalt f s = _ from issue_go hb rfl), hm.trans gm, hh.trans gh, fun k hk r hrope => ?_⟩
    rw [hr] at hrope
    exact State.foldl_haltRope_endedAt _ _ k (.inl hk) r hrope

end Sys2Proof.Machine
end

section
/-! PROOFS. Special registers and the trap record (R25, R26, R28, R224, R236, R237). -/

namespace Sys2Proof.Machine

/-! Packed special registers. -/

/-- The digits of a number written out in a base. -/
theorem digits_foldl {B : Nat} {x : Nat → Nat} (hx : ∀ i, x i < B) (n : Nat) :
    (List.range n).foldl (fun a i => a + x i * B ^ i) 0 < B ^ n ∧
      ∀ i < n, (List.range n).foldl (fun a i => a + x i * B ^ i) 0 / B ^ i % B = x i := by
  have hB : 0 < B := (Nat.zero_le _).trans_lt (hx 0)
  induction n with
  | zero => exact ⟨Nat.one_pos, fun i hi => absurd hi (Nat.not_lt_zero i)⟩
  | succ n ih =>
    obtain ⟨hlt, hdigit⟩ := ih
    rw [List.range_succ, List.foldl_append, List.foldl_cons, List.foldl_nil]
    generalize (List.range n).foldl (fun a i => a + x i * B ^ i) 0 = v at hlt hdigit
    refine ⟨?_, fun i hi => ?_⟩
    · calc v + x n * B ^ n < B ^ n + x n * B ^ n := Nat.add_lt_add_right hlt _
        _ = (x n + 1) * B ^ n := by rw [Nat.add_mul, Nat.one_mul, Nat.add_comm]
        _ ≤ B * B ^ n := Nat.mul_le_mul_right _ (hx n)
        _ = B ^ (n + 1) := (pow_succ' B n).symm
    · rcases Nat.lt_succ_iff_lt_or_eq.1 hi with hi | rfl
      · have hpow : x n * B ^ n = B ^ i * (B * (x n * B ^ (n - i - 1))) := by
          rw [show n = i + (n - i - 1) + 1 by omega, show i + (n - i - 1) + 1 - i - 1 = n - i - 1 by omega, pow_succ, pow_add]
          ac_rfl
        rw [hpow, Nat.add_mul_div_left _ _ (Nat.pow_pos hB), Nat.add_mul_mod_self_left, hdigit i hi]
      · rw [Nat.mul_comm, Nat.add_mul_div_left _ _ (Nat.pow_pos hB), Nat.div_eq_of_lt hlt, Nat.zero_add, Nat.mod_eq_of_lt (hx i)]

theorem classMixWord_field (r : Rope) : ∀ i < 4, r.classMixWord / 2 ^ (16 * i) % 2 ^ 16 = r.classMix.getD i 0 % 2 ^ 16 := by
  intro i hi
  obtain ⟨-, hdigit⟩ := digits_foldl (B := 65536) (x := fun j => r.classMix.getD j 0 % 65536) (fun j => Nat.mod_lt _ (by decide)) 4
  rw [pow_mul, show (2 : Nat) ^ 16 = 65536 by norm_num, Rope.classMixWord]
  exact hdigit i hi

theorem corePos_fields {core quad d k c : Nat} (hd : d < 8) (hk : k < 12) (hc : c < 32) (h : core = 384 * d + 32 * k + c) :
    corePos core quad % 8 = d ∧ corePos core quad / 8 % 16 = k ∧ corePos core quad / 128 % 32 = c ∧ corePos core quad / 4096 = quad := by
  have hdie : core / 384 % 8 = d := by omega
  have hcluster : core / 32 % 12 = k := by omega
  have hcore : core % 32 = c := by omega
  rw [corePos, hdie, hcluster, hcore]
  clear hdie hcluster hcore h
  omega

/-- The byte of a strand in the remap table: present, with its slot (R14). -/
def Rope.lrtByte (r : Rope) (i : Nat) : BitVec 8 :=
  match r.strands[i]? with | some t => if t.present then 1#1 ++ t.slot else 0 | none => 0

theorem lrtByte_eq (r : Rope) (i a : Nat) :
    (match r.strands[i]? with | some t => if t.present then a + (128 + t.slot.toNat) * 256 ^ i else a | none => a) =
      a + (r.lrtByte i).toNat * 256 ^ i := by
  unfold Rope.lrtByte
  cases r.strands[i]? with
  | none => exact (Nat.add_zero a).symm.trans (by rw [show (0 : BitVec 8).toNat = 0 from rfl, Nat.zero_mul])
  | some t =>
    have hbyte : (1#1 ++ t.slot).toNat = 128 + t.slot.toNat := by
      rw [BitVec.toNat_append, ← Nat.shiftLeft_add_eq_or_of_lt t.slot.isLt]
      rfl
    show (if t.present then _ else _) = a + BitVec.toNat (if t.present then _ else _) * _
    cases t.present with
    | false => exact (Nat.add_zero a).symm.trans (by rw [if_neg Bool.false_ne_true, show (0 : BitVec 8).toNat = 0 from rfl, Nat.zero_mul])
    | true => rw [if_pos rfl, if_pos rfl, hbyte]

theorem lrt_eq (r : Rope) : r.lrt = BitVec.ofNat 64 ((List.range 8).foldl (fun a i => a + (r.lrtByte i).toNat * 256 ^ i) 0) := by
  refine congrArg (BitVec.ofNat 64) (List.foldl_ext _ _ _ fun a i _ => ?_)
  exact lrtByte_eq r i a

theorem lrt_byte (r : Rope) : ∀ i < 8, r.lrt.extractLsb' (8 * i) 8 = r.lrtByte i := by
  intro i hi
  obtain ⟨hlt, hdigit⟩ := digits_foldl (B := 256) (x := fun j => (r.lrtByte j).toNat) (fun j => (r.lrtByte j).isLt) 8
  refine BitVec.eq_of_toNat_eq ?_
  rw [lrt_eq, BitVec.extractLsb'_toNat, BitVec.toNat_ofNat, Nat.mod_eq_of_lt (b := 2 ^ 64) (hlt.trans_eq (by norm_num)), Nat.shiftRight_eq_div_pow, pow_mul,
    show (2 : Nat) ^ 8 = 256 by norm_num]
  exact hdigit i hi

/-! The end of a cycle. -/

theorem rget_foldl_count (l : List (BitVec 16)) (t : Tbl Nat) (d : BitVec 16) :
    rget 0 (l.foldl (fun t d => rset 0 t d.toNat (rget 0 t d.toNat + 1)) t) d.toNat = rget 0 t d.toNat + l.count d := by
  induction l generalizing t with
  | nil => rfl
  | cons e l ih =>
    rw [List.foldl_cons, ih, rget_rset]
    by_cases h : d = e
    · subst h
      rw [if_pos rfl, List.count_cons_self]
      omega
    · rw [if_neg fun hn => h (BitVec.eq_of_toNat_eq hn), List.count_cons_of_ne (Ne.symm h)]

theorem rget_foldl_nodup {l : List (BitVec 16)} (h : l.Nodup) (t : Tbl Nat) (d : BitVec 16) :
    rget 0 (l.foldl (fun t d => rset 0 t d.toNat (rget 0 t d.toNat + 1)) t) d.toNat = rget 0 t d.toNat + (if d ∈ l then 1 else 0) := by
  rw [rget_foldl_count, List.Nodup.count h]

theorem getD_listSet (l : List Nat) (n i v : Nat) (hi : i < l.length) : (listSet l n v).getD i 0 = if i = n then v else l.getD i 0 := by
  induction l generalizing n i with
  | nil => exact absurd hi (Nat.not_lt_zero i)
  | cons a l ih =>
    cases n with
    | zero => cases i <;> simp [listSet]
    | succ n =>
      cases i with
      | zero => simp [listSet]
      | succ i => simpa [listSet] using ih n i (by simpa using hi)

theorem getD_bump {l : List Nat} {i : Nat} (n : Nat) (hi : i < l.length) : (bump l n).getD i 0 = l.getD i 0 + (if i = n then 1 else 0) := by
  rw [bump, getD_listSet l n i _ hi]
  split
  · next h => rw [h]
  · rfl

theorem setCal_or_not (c : Prop) [Decidable c] (s : State) (p : Nat) (k : Calendar) :
    ∃ cal, (if c then s else s.setCal p k) = { s with calendars := cal } := by
  split
  · exact ⟨s.calendars, rfl⟩
  · exact ⟨_, rfl⟩

theorem enterSlot_eq (s : State) (c : Nat) : ∃ cal, s.enterSlot c = { s with calendars := cal } := by
  unfold State.enterSlot
  split
  · exact ⟨s.calendars, rfl⟩
  · exact setCal_or_not _ _ _ _

/-- The core of a cycle that has ended (R26). -/
noncomputable def State.ticked (s : State) (c : Nat) : Core :=
  { s.core c with
    cyc := (s.core c).cyc + 1, startPs := (s.core c).startPs + (s.cycleOf c).1, issued := 0
    flight := (s.core c).flight.filter (fun e => decide ((s.core c).cyc + 1 < e.till))
    iso := ((((List.range 4).filter (s.core c).slotValid).map (s.core c).slotDid).filter (fun d => (s.core c).isolated d && s.counts c d)).foldl
      (fun t d => rset 0 t d.toNat (rget 0 t d.toNat + 1)) (s.core c).iso }

/-- The end of a cycle in which no array is tested (R26, R28). -/
theorem tick_eq {s : State} {c : Nat} (h : (s.cycleOf c).2 ≠ 2 ∨ s.idleArrays c = []) : ∃ cal, s.tick c =
    { s.setCore c (s.ticked c) with
      etimePs := max s.etimePs ((s.core c).startPs + (s.cycleOf c).1)
      ropes := s.ropes.map (fun p => (p.1, match tget s.wgs p.2.wg with
        | some w => if w.onCore c then s.ropeTick c (s.cycleOf c).2 p.1 p.2 else p.2
        | none => p.2))
      calendars := cal } := by
  have htests : s.selfTests c (s.cycleOf c).2 = s := by
    unfold State.selfTests
    rcases h with h | h
    · rw [if_neg h]
    · rw [h]; simp
  unfold State.tick
  simp only []
  rw [htests]
  split
  · exact ⟨s.calendars, rfl⟩
  · obtain ⟨cal, hcal⟩ := enterSlot_eq { s.setCore c (s.ticked c) with
        etimePs := max s.etimePs ((s.core c).startPs + (s.cycleOf c).1)
        ropes := s.ropes.map (fun p => (p.1, match tget s.wgs p.2.wg with
          | some w => if w.onCore c then s.ropeTick c (s.cycleOf c).2 p.1 p.2 else p.2
          | none => p.2)) } c
    exact ⟨cal, hcal⟩

theorem counts_eq_of_isolated (s : State) (c : Nat) (d : BitVec 16) :
    d ∈ (((List.range 4).filter (s.core c).slotValid).map (s.core c).slotDid).filter (fun d => (s.core c).isolated d && s.counts c d) ↔
      d ∈ ((List.range 4).filter (s.core c).slotValid).map (s.core c).slotDid ∧ (s.core c).isolated d = true ∧ s.counts c d = true := by
  rw [List.mem_filter, Bool.and_eq_true]

theorem put_eq (t : TrapRec) (n : Nat) (v : Word) : t.put n v =
    if n = 0 then { t with action := v.extractLsb' 24 2 }
    else if n = 4 then { t with rpc := t.rpc.extractLsb' 32 32 ++ v }
    else if n = 5 then { t with rpc := v ++ t.rpc.extractLsb' 0 32 }
    else { t with saved := listSet t.saved (n - 12) v } := by
  rcases n with _ | _ | _ | _ | _ | _ | n <;> simp [TrapRec.put]

/-- Settles O38: the words of the record and the special registers by their fields, the end of a cycle by what it counts. -/
theorem specialRegistersAndTheTrapRecord : Obligations.SpecialRegistersAndTheTrapRecord := by
  refine ⟨⟨fun f s b hb hact => ?sread, fun f s b hb => ?rd, fun f s b r hb hr => ?wr, fun f s b hb => ?tret⟩, fun x s l => ?special, fun s c h => ?tick⟩
  case sread =>
    intro v
    refine (show execSread f s = _ from issue_go hb ((if_neg hact).trans ?_))
    by_cases h0 : f.c = 0
    · rw [h0]
      rfl
    · by_cases h1 : f.c = 1
      · rw [h1]
        rfl
      · have h2 : ¬f.c.toNat < 2 := fun hlt => by
          have hc : f.c.toNat = 0 ∨ f.c.toNat = 1 := by omega
          rcases hc with hc | hc
          · exact h0 (BitVec.eq_of_toNat_eq hc)
          · exact h1 (BitVec.eq_of_toNat_eq hc)
        rw [if_neg h2, if_neg h0, if_neg h1]
        obtain ⟨n, hn⟩ := Nat.exists_eq_add_of_le (not_lt.1 h2)
        rw [show f.c.toNat = n + 2 by omega]
        rfl
  case rd => exact (show execTrecRd f s = _ from issue_go hb rfl)
  case wr =>
    intro t n v q
    refine (show execTrecWr f s = _ from issue_go hb ?_)
    rw [show b.t.onRope b.y.k (fun r => r.setRecord (r.recordNow.put (f.b.toNat % 16) (b.y.r.sr f.a.toNat))) =
      b.t.setRope b.y.k (r.setRecord (t.put n v)) by rw [State.onRope, hr]; rfl, put_eq]
    unfold Rope.setRecord
    cases r.trap <;> rfl
  case tret => exact (show execTret f s = _ from issue_go hb rfl)
  case special =>
    refine ⟨rfl, rfl, rfl, rfl, rfl, rfl, rfl, rfl, rfl, ⟨?_, ?_⟩, rfl, classMixWord_field x.r, rfl, fun d k c hd hk hc hx => ?_, fun i hi => ?_⟩
    · show (x.r.did.toNat + 65536 * x.r.dslot) % 2 ^ 16 = _
      have := x.r.did.isLt
      omega
    · show (x.r.did.toNat + 65536 * x.r.dslot) / 2 ^ 16 = _
      have := x.r.did.isLt
      omega
    · exact corePos_fields hd hk hc hx
    · rw [show x.special s 14 l = x.r.lrt.toNat from rfl, BitVec.ofNat_toNat, BitVec.setWidth_eq]
      exact lrt_byte x.r i hi
  case tick =>
    intro u ending
    obtain ⟨cal, hu⟩ := tick_eq h
    have hcore : u.core c = s.ticked c := by
      rw [show u = _ from hu]
      show (tget (tset s.cores c (s.ticked c)) c).getD _ = _
      rw [tget_tset_same]
      rfl
    refine ⟨by rw [hcore]; rfl, by rw [hcore]; rfl, by rw [show u = _ from hu], fun j hj => ?_, fun d hnd => ?_, fun k r w hr hw hlen => ?_⟩
    · rw [show u = _ from hu]
      exact tget_tset_ne _ _ hj
    · rw [hcore, State.ticked, rget_foldl_nodup (hnd.filter _)]
      simp only [counts_eq_of_isolated]
    · have hrope : tget u.ropes k = some (if w.onCore c then s.ropeTick c (s.cycleOf c).2 k r else r) := by
        rw [show u = _ from hu]
        show tget (s.ropes.map _) k = _
        rw [tget_map_fst (hg := ?fst), hr]
        case fst => exact fun _ => rfl
        exact congrArg some (by simp only [hw])
      refine ⟨_, hrope, ?_⟩
      cases w.onCore c with
      | false => rw [if_neg Bool.false_ne_true, if_neg Bool.false_ne_true]
      | true =>
        rw [if_pos rfl, if_pos rfl]
        refine ⟨fun i hi => ?_, rfl, rfl, rfl, rfl, rfl⟩
        rw [show (s.ropeTick c (s.cycleOf c).2 k r).classMix = if s.counts c r.did then bump r.classMix (s.cycleOf c).2 else r.classMix from rfl]
        cases s.counts c r.did with
        | false => simp
        | true =>
          rw [if_pos rfl, getD_bump (s.cycleOf c).2 (hlen ▸ hi)]
          simp only [and_true]

end Sys2Proof.Machine
end

section
/-! PROOFS. Transfers (R157 to R162, R396). -/

namespace Sys2Proof.Machine

/-! The checks on a target (R78, R79, R301). -/

/-- A fault of the code handle is RIGHTS or BOUND. -/
theorem handleFault_cause {s : State} {r : Rope} {pc : DWord} {n : Nat} {q : FetchFault} (h : s.handleFault r pc n = some q) : q.1 = 5 ∨ q.1 = 4 := by
  unfold State.handleFault at h
  simp only [] at h
  split at h
  · cases h; exact .inl rfl
  · split at h
    · cases h; exact .inl rfl
    · split at h
      · cases h; exact .inl rfl
      · split at h
        · cases h; exact .inr rfl
        · cases h

/-- A fault of a byte's translation is ALIAS or a translation fault. -/
theorem fetchByte_cause {s : State} {k u : Nat} {r : Rope} {va : Nat} {q : FetchFault} (h : s.fetchByte k u r va = .fault q) : q.1 = 8 ∨ q.1 = 9 := by
  unfold State.fetchByte at h
  split at h
  · cases h
  · split at h
    · split at h
      · cases h; exact .inr rfl
      · cases h
    · cases h; exact .inl rfl
    · split at h
      · split at h
        · cases h; exact .inr rfl
        · cases h
      · cases h

theorem fetchBytes_cause {s : State} {k u : Nat} {r : Rope} {a n : Nat} {q : FetchFault} (h : s.fetchBytes k u r a n = .fault q) :
    q.1 = 8 ∨ q.1 = 9 := by
  unfold State.fetchBytes at h
  split at h
  · split at h
    · cases h
    · exact fetchByte_cause h
  · exact fetchByte_cause h

theorem startFault_cause {s : State} {r : Rope} {pc : DWord} {q : FetchFault} (h : s.startFault r pc = some q) : q.1 = 2 := by
  unfold State.startFault at h
  split at h
  · cases h; rfl
  · cases h

theorem targetAt_cause {s : State} {k u : Nat} {r : Rope} {pc : DWord} {q : FetchFault} (h : s.targetAt k u r pc = .fault q) :
    q.1 ∈ [2, 4, 5, 8, 9] := by
  have hfetch : ∀ {q}, s.fetchAt k u r pc r.codeUnit = .fault q → q.1 ∈ [2, 4, 5, 8, 9] := fun {q} h => by
    unfold State.fetchAt at h
    split at h
    · cases h
    · split at h
      · next hq =>
        cases h
        rcases handleFault_cause hq with h | h <;> simp [h]
      · rcases fetchBytes_cause h with h | h <;> simp [h]
  unfold State.targetAt at h
  split at h
  · split at h
    · next hq =>
      cases h
      simp [startFault_cause hq]
    · cases h
  · exact hfetch h

/-- The order of the checks, for the causes that a target's fault has. -/
theorem targetRank_eq {q : FetchFault} (h : q.1 ∈ [2, 4, 5, 8, 9]) : targetRank q = targetOrder q.1 := by
  obtain ⟨c, rest⟩ := q
  revert h
  show c ∈ [2, 4, 5, 8, 9] → targetRank (c, rest) = targetOrder c
  intro h
  fin_cases h <;> rfl

/-! The first fault among those of the lanes (R160, R396). -/

/-- The earlier of two faults by the order of their checks. -/
def firstFault (a : Option (Nat × FetchFault)) (b : Nat × FetchFault) : Option (Nat × FetchFault) :=
  match a with
  | none => some b
  | some p => if targetRank b.2 < targetRank p.2 then some b else some p

theorem foldl_firstFault_kept {l : Nat} {q : FetchFault} (bad : List (Nat × FetchFault)) (h : ∀ b ∈ bad, targetRank q ≤ targetRank b.2) :
    bad.foldl firstFault (some (l, q)) = some (l, q) := by
  induction bad with
  | nil => rfl
  | cons b bad ih =>
    rw [List.foldl_cons, firstFault, if_neg (not_lt.2 (h b List.mem_cons_self))]
    exact ih fun b hb => h b (List.mem_cons_of_mem _ hb)

theorem foldl_firstFault {l : Nat} {q : FetchFault} {bad : List (Nat × FetchFault)} (hsorted : bad.Pairwise (fun a b => a.1 < b.1))
    (hmem : (l, q) ∈ bad) (hfirst : ∀ b ∈ bad, if b.1 < l then targetRank q < targetRank b.2 else targetRank q ≤ targetRank b.2)
    (a : Option (Nat × FetchFault)) (ha : ∀ p, a = some p → targetRank q < targetRank p.2) : bad.foldl firstFault a = some (l, q) := by
  induction bad generalizing a with
  | nil => cases hmem
  | cons b bad ih =>
    rw [List.foldl_cons]
    obtain ⟨hb, hsorted⟩ := List.pairwise_cons.1 hsorted
    rcases List.mem_cons.1 hmem with rfl | hmem
    · have hstep : firstFault a (l, q) = some (l, q) := by
        cases a with
        | none => rfl
        | some p => exact if_pos (ha p rfl)
      rw [hstep]
      refine foldl_firstFault_kept _ fun c hc => ?_
      have := hfirst c (List.mem_cons_of_mem _ hc)
      rwa [if_neg (not_lt.2 (hb c hc).le)] at this
    · have hlt : targetRank q < targetRank b.2 := by
        have := hfirst b List.mem_cons_self
        rwa [if_pos (hb _ hmem)] at this
      refine ih hsorted hmem (fun c hc => hfirst c (List.mem_cons_of_mem _ hc)) _ fun p hp => ?_
      cases a with
      | none => cases hp; exact hlt
      | some p' =>
        rw [firstFault] at hp
        split at hp
        · cases hp; exact hlt
        · cases hp; exact ha _ rfl

/-! The targets of the lanes. -/

theorem active_sorted (x : Issue) : x.active.Pairwise (· < ·) := List.Pairwise.filter _ (by decide)

theorem mem_active {x : Issue} {l : Nat} : l ∈ x.active ↔ l < 32 ∧ x.act.getLsbD l = true := by
  rw [Issue.active, lanesOf, List.mem_filter]
  exact and_congr_left fun _ => List.mem_range

theorem active_ne_nil {x : Issue} (h : x.act ≠ 0) : ∃ l ∈ x.active, ∀ j ∈ x.active, l ≤ j := by
  cases hl : x.active with
  | nil =>
    refine absurd (BitVec.eq_of_getLsbD_eq fun l hlt => ?_) h
    rw [show (0 : Word).getLsbD l = false from BitVec.getLsbD_zero]
    refine Bool.eq_false_iff.2 fun hb => ?_
    have := mem_active.2 ⟨hlt, hb⟩
    rw [hl] at this
    cases this
  | cons l ls =>
    have hs := active_sorted x
    rw [hl] at hs
    refine ⟨l, List.mem_cons_self, fun j hj => ?_⟩
    rcases List.mem_cons.1 hj with rfl | hj
    · exact le_rfl
    · exact ((List.pairwise_cons.1 hs).1 j hj).le

/-- The first element of a sorted list at which a function has a value. -/
theorem findSome?_eq_of_sorted {α : Type} {f : Nat → Option α} {ls : List Nat} (hs : ls.Pairwise (· < ·)) {l : Nat} {v : α} (hl : l ∈ ls)
    (hv : f l = some v) (hbefore : ∀ j ∈ ls, j < l → f j = none) : ls.findSome? f = some v := by
  induction ls with
  | nil => cases hl
  | cons a ls ih =>
    obtain ⟨ha, hs⟩ := List.pairwise_cons.1 hs
    rcases List.mem_cons.1 hl with rfl | hl
    · rw [List.findSome?_cons, hv]
    · rw [List.findSome?_cons, hbefore a List.mem_cons_self (ha l hl)]
      exact ih hs hl fun j hj => hbefore j (List.mem_cons_of_mem _ hj)

/-- What the check of a lane's target finds. -/
def Issue.targetRes (x : Issue) (s : State) (target : Nat → DWord) (l : Nat) : FetchRes := s.targetAt x.k x.unit x.r (target l)

/-- The translation that a check asks for. -/
def FetchRes.missing : FetchRes → Option (Nat × Nat)
  | .miss rs va => some (rs, va)
  | _ => none

/-- The fault that a check finds. -/
def FetchRes.faulting : FetchRes → Option FetchFault
  | .fault q => some q
  | _ => none

/-- The faults of the targets of the lanes of ACTIVE. -/
def Issue.badTargets (x : Issue) (s : State) (target : Nat → DWord) : List (Nat × FetchFault) :=
  x.active.filterMap (fun l => (x.targetRes s target l).faulting.map (fun q => (l, q)))

section
variable {x : Issue} {s : State} {perLane : Bool} {target : Nat → DWord} {ws : List RegWrite}

/-- What a transfer does by its targets' checks. -/
def answerTargets (miss : Option (Nat × Nat)) (asked : Bool) (fault : Option TrapReq) (hold : Nat → Nat → Act) (go : Act) : Act :=
  match miss, asked, fault with
  | some (rs, va), _, _ => hold rs va
  | none, true, _ => .wait
  | none, false, some t => .trap t
  | none, false, none => go

theorem transfer_eq (hact : x.act ≠ 0) : x.transfer s perLane target ws =
    answerTargets (x.active.findSome? (fun l => (x.targetRes s target l).missing)) (x.active.any (fun l => x.targetRes s target l == .asked))
      (x.targetsTrap perLane (x.badTargets s target)) (fun rs va => .hold (s.askFetch x.k x.unit x.r rs va))
      (.go s ws 0 (.move (x.active.map (fun l => (l, target l))))) := by
  have hres : (x.active.map (fun l => (l, target l))).map (fun p => (p.1, s.targetAt x.k x.unit x.r p.2)) =
      x.active.map (fun l => (l, x.targetRes s target l)) := List.map_map
  have hmiss : (x.active.map (fun l => (l, x.targetRes s target l))).findSome? (fun p => p.2.missing) =
      x.active.findSome? (fun l => (x.targetRes s target l).missing) := List.findSome?_map
  have hasked : (x.active.map (fun l => (l, x.targetRes s target l))).any (fun p => p.2 == .asked) =
      x.active.any (fun l => x.targetRes s target l == .asked) := List.any_map
  have hbad : (x.active.map (fun l => (l, x.targetRes s target l))).filterMap (fun p => p.2.faulting.map (fun q => (p.1, q))) =
      x.badTargets s target := List.filterMap_map
  rw [← hmiss, ← hasked, ← hbad, ← hres]
  have hm : ∀ p : Nat × FetchRes, p.2.missing = (match p.2 with | .miss rs va => some (rs, va) | _ => none) := fun p => by
    cases p.2 <;> rfl
  have hf : ∀ p : Nat × FetchRes, p.2.faulting.map (fun q => (p.1, q)) = (match p.2 with | .fault q => some (p.1, q) | _ => none) := fun p => by
    cases p.2 <;> rfl
  simp only [hm, hf]
  unfold Issue.transfer Issue.toTargets
  simp only [if_neg hact]
  rfl

theorem transfer_ok (hact : x.act ≠ 0) (hok : ∀ l ∈ x.active, x.targetRes s target l = .ok) :
    x.transfer s perLane target ws = .go s ws 0 (.move (x.active.map (fun l => (l, target l)))) := by
  have hmiss : x.active.findSome? (fun l => (x.targetRes s target l).missing) = none :=
    List.findSome?_eq_none_iff.2 fun l hl => by rw [hok l hl]; rfl
  have hasked : x.active.any (fun l => x.targetRes s target l == .asked) = false :=
    List.any_eq_false.2 fun l hl => by rw [hok l hl]; decide
  have hbad : x.badTargets s target = [] := List.filterMap_eq_nil_iff.2 fun l hl => by rw [hok l hl]; rfl
  rw [transfer_eq hact, hmiss, hasked, hbad]
  rfl

theorem transfer_miss (hact : x.act ≠ 0) {l rs va : Nat} (hl : l ∈ x.active) (hm : x.targetRes s target l = .miss rs va)
    (hbefore : ∀ j ∈ x.active, j < l → ∀ rs va, x.targetRes s target j ≠ .miss rs va) :
    x.transfer s perLane target ws = .hold (s.askFetch x.k x.unit x.r rs va) := by
  have hmiss : x.active.findSome? (fun l => (x.targetRes s target l).missing) = some (rs, va) :=
    findSome?_eq_of_sorted (active_sorted x) hl (by rw [hm]; rfl) fun j hj hlt => by
      cases hr : x.targetRes s target j with
      | miss rs va => exact absurd hr (hbefore j hj hlt rs va)
      | ok => rfl
      | fault q => rfl
      | asked => rfl
  rw [transfer_eq hact, hmiss]
  rfl

theorem missing_none (hno : ∀ j ∈ x.active, ∀ rs va, x.targetRes s target j ≠ .miss rs va) :
    x.active.findSome? (fun l => (x.targetRes s target l).missing) = none :=
  List.findSome?_eq_none_iff.2 fun l hl => by
    cases hr : x.targetRes s target l with
    | miss rs va => exact absurd hr (hno l hl rs va)
    | ok => rfl
    | fault q => rfl
    | asked => rfl

theorem transfer_asked (hact : x.act ≠ 0) {l : Nat} (hl : l ∈ x.active) (ha : x.targetRes s target l = .asked)
    (hno : ∀ j ∈ x.active, ∀ rs va, x.targetRes s target j ≠ .miss rs va) : x.transfer s perLane target ws = .wait := by
  have hasked : x.active.any (fun l => x.targetRes s target l == .asked) = true := List.any_eq_true.2 ⟨l, hl, by rw [ha]; decide⟩
  rw [transfer_eq hact, missing_none hno, hasked]
  rfl

theorem mem_badTargets {l : Nat} {q : FetchFault} : (l, q) ∈ x.badTargets s target ↔ l ∈ x.active ∧ x.targetRes s target l = .fault q := by
  rw [Issue.badTargets, List.mem_filterMap]
  constructor
  · rintro ⟨j, hj, he⟩
    obtain ⟨p, hp, he⟩ := Option.map_eq_some_iff.1 he
    cases he
    refine ⟨hj, ?_⟩
    cases hr : x.targetRes s target l with
    | fault p' => rw [hr] at hp; cases hp; rfl
    | ok => rw [hr] at hp; cases hp
    | miss rs va => rw [hr] at hp; cases hp
    | asked => rw [hr] at hp; cases hp
  · rintro ⟨hl, hr⟩
    exact ⟨l, hl, by rw [hr]; rfl⟩

theorem badTargets_sorted : (x.badTargets s target).Pairwise (fun a b => a.1 < b.1) := by
  refine List.Pairwise.filterMap _ (fun i j hij a ha b hb => ?_) (active_sorted x)
  obtain ⟨-, -, rfl⟩ := Option.map_eq_some_iff.1 ha
  obtain ⟨-, -, rfl⟩ := Option.map_eq_some_iff.1 hb
  exact hij

/-- The lanes that a fault of the targets is recorded for (R396). -/
def Issue.faultLanes (x : Issue) (s : State) (target : Nat → DWord) (perLane : Bool) (q : FetchFault) : Word :=
  if perLane then maskOf (fun j => (x.badTargets s target).any (fun b => b.1 == j && b.2.1 == q.1)) else x.act

theorem targetsTrap_eq (perLane : Bool) : x.targetsTrap perLane (x.badTargets s target) =
    ((x.badTargets s target).foldl firstFault none).bind (fun p =>
      some ⟨p.2.1, p.2.2.1, x.faultLanes s target perLane p.2, p.2.2.2.1, p.2.2.2.2.1, p.2.2.2.2.2⟩) := by
  show (match (x.badTargets s target).foldl firstFault none with
    | none => none
    | some (_, c) => some (TrapReq.mk c.1 c.2.1 (x.faultLanes s target perLane c) c.2.2.1 c.2.2.2.1 c.2.2.2.2)) = _
  cases (x.badTargets s target).foldl firstFault none <;> rfl

theorem transfer_fault (hact : x.act ≠ 0) {l : Nat} {q : FetchFault} (hl : l ∈ x.active) (hq : x.targetRes s target l = .fault q)
    (hfirst : ∀ j ∈ x.active, x.targetRes s target j = .ok ∨ ∃ p, x.targetRes s target j = .fault p ∧
      (if j < l then targetOrder q.1 < targetOrder p.1 else targetOrder q.1 ≤ targetOrder p.1)) :
    x.transfer s perLane target ws = .trap ⟨q.1, q.2.1, x.faultLanes s target perLane q, q.2.2.1, q.2.2.2.1, q.2.2.2.2⟩ := by
  have hno : ∀ j ∈ x.active, ∀ rs va, x.targetRes s target j ≠ .miss rs va := fun j hj rs va hm => by
    rcases hfirst j hj with h | ⟨p, h, -⟩ <;> rw [h] at hm <;> cases hm
  have hasked : x.active.any (fun l => x.targetRes s target l == .asked) = false := List.any_eq_false.2 fun j hj => by
    rcases hfirst j hj with h | ⟨p, h, -⟩ <;> rw [h] <;> simp
  have hfold : (x.badTargets s target).foldl firstFault none = some (l, q) := by
    refine foldl_firstFault badTargets_sorted (mem_badTargets.2 ⟨hl, hq⟩) (fun b hb => ?_) none fun p hp => by cases hp
    obtain ⟨hj, hp⟩ := mem_badTargets.1 hb
    rcases hfirst b.1 hj with h | ⟨p, h, ho⟩
    · rw [h] at hp; cases hp
    · rw [h] at hp
      cases hp
      rwa [targetRank_eq (targetAt_cause hq), targetRank_eq (targetAt_cause h)]
  have htrap : x.targetsTrap perLane (x.badTargets s target) =
      some ⟨q.1, q.2.1, x.faultLanes s target perLane q, q.2.2.1, q.2.2.2.1, q.2.2.2.2⟩ := by
    rw [targetsTrap_eq, hfold]
    rfl
  rw [transfer_eq hact, missing_none hno, hasked, htrap]
  rfl

end

end Sys2Proof.Machine
end

section
/-! PROOFS. Where lanes go on after an instruction (R160, R162). -/

namespace Sys2Proof.Machine

/-! Deferred lanes (R160). -/

/-- A strand after a transfer: it may not issue before cycle `c` where lanes of `o` have gone onto its stack. -/
def Strand.deferred (o t : Strand) (c : Nat) : Strand := if o.stack.length < t.stack.length then { t with after := c } else t

theorem Strand.deferred_after (o t : Strand) (c : Nat) :
    (o.deferred t c).after = if o.stack.length < (o.deferred t c).stack.length then c else t.after := by
  unfold Strand.deferred
  by_cases h : o.stack.length < t.stack.length
  · rw [if_pos h, if_pos h]
  · rw [if_neg h, if_neg h]

theorem deferTo_getElem? (old : List Strand) (c : Nat) (new : List Strand) (i : Nat) {o : Strand} (ho : old[i]? = some o) :
    (deferTo old c new)[i]? = new[i]?.map (fun t => o.deferred t c) := by
  induction new generalizing old i with
  | nil => rfl
  | cons t new ih =>
    cases old with
    | nil => cases ho
    | cons a old =>
      cases i with
      | zero => cases ho; rfl
      | succ i => exact ih old i ho

theorem deferTo_standing (old : List Strand) (c : Nat) (new : List Strand) :
    (deferTo old c new).map (fun t => { t with after := 0 }) = new.map (fun t => { t with after := 0 }) := by
  induction new generalizing old with
  | nil => rfl
  | cons t new ih =>
    refine congrArg₂ List.cons ?_ (ih old.tail)
    cases old with
    | nil => rfl
    | cons o old =>
      show ({ o.deferred t c with after := 0 } : Strand) = _
      unfold Strand.deferred
      split <;> rfl

/-- Whether a strand issues in a unit does not depend on when its deferred lanes may. -/
theorem inUnit_standing (u : Nat) (t : Strand) : ({ t with after := 0 } : Strand).inUnit u = t.inUnit u := rfl

section
variable {q m : Rope} (h : q.standing = m.standing)
include h

theorem units_of_standing : q.units = m.units := by
  have hany : ∀ (r : Rope) u, r.strands.any (Strand.inUnit u) = r.standing.any (Strand.inUnit u) := fun r u => by
    rw [Rope.standing, List.any_map]; rfl
  unfold Rope.units
  simp only [hany, h]

theorem unitPc_of_standing (u : Nat) : q.unitPc u = m.unitPc u := by
  have hfind : ∀ r : Rope, r.unitPc u = ((r.standing.find? (Strand.inUnit u)).map Strand.pc).getD 0 := fun r => by
    have hmap : r.standing.find? (Strand.inUnit u) = (r.strands.find? (Strand.inUnit u)).map (fun t => { t with after := 0 }) := List.find?_map
    rw [hmap, Rope.unitPc]
    cases r.strands.find? (Strand.inUnit u) <;> rfl
  rw [hfind, hfind, h]

theorem unitStrands_of_standing (u : Nat) : q.unitStrands u = m.unitStrands u := by
  have hget : ∀ (r : Rope) i, (r.strands.getD i Strand.none).inUnit u = (r.standing.getD i Strand.none).inUnit u := fun r i => by
    simp only [Rope.standing, List.getD_eq_getElem?_getD, List.getElem?_map]
    cases r.strands[i]? <;> rfl
  refine BitVec.eq_of_getLsbD_eq fun i _ => ?_
  rw [getLsbD_unitStrands, getLsbD_unitStrands, hget, hget, h]

end

/-! The rope of an issue that moves its lanes. -/

theorem lookupNat_eq {α : Type} (k : Nat) (l : List (Nat × α)) : lookupNat k l = (l.find? (fun d => d.1 == k)).map Prod.snd := by
  induction l with
  | nil => rfl
  | cons d l ih =>
    obtain ⟨a, x⟩ := d
    rw [lookupNat, List.find?_cons]
    by_cases h : a = k
    · rw [if_pos h, show (a == k) = true from beq_iff_eq.2 h]
      rfl
    · rw [if_neg h, show (a == k) = false from beq_eq_false_iff_ne.2 h, ih]

/-- The next PC of a lane that a transfer moves, or leaves at the fall-through. -/
def Issue.nextOf (x : Issue) (dest : List (Nat × DWord)) (l : Nat) : DWord := ((dest.find? (fun d => d.1 == l)).map Prod.snd).getD x.fall

variable {x : Issue} {r : Rope} {ws : List RegWrite} {extra id : Nat} {dest : List (Nat × DWord)}

/-- The rope as it stands when the lanes have moved, before units are made ready. -/
def Issue.gone (x : Issue) (r : Rope) (ws : List RegWrite) (extra id : Nat) (dest : List (Nat × DWord)) : Rope :=
  (x.flown r ws extra id).moveUnit x.unit (x.nextOf dest)

theorem committed_strands (nx : Next) : (x.committed r ws extra id nx).strands = (x.movedBy (x.flown r ws extra id) nx).strands := by
  unfold Issue.committed; split <;> rfl

theorem committed_sched (nx : Next) : (x.committed r ws extra id nx).sched = (x.movedBy (x.flown r ws extra id) nx).sched := by
  unfold Issue.committed; split <;> rfl

/-- The moved units, each ready at a target or at the fall-through. -/
def Issue.goneReady (x : Issue) (r : Rope) (ws : List RegWrite) (extra id : Nat) (dest : List (Nat × DWord)) : Rope :=
  (x.gone r ws extra id dest).readyUnits (x.r.unitStrands x.unit) x.skip
    (fun pc => x.core.cyc + (if (dest.map Prod.snd).contains pc then 3 else 1) + x.stall)

theorem movedBy_move : x.movedBy (x.flown r ws extra id) (.move dest) =
    { x.goneReady r ws extra id dest with
      strands := deferTo (x.flown r ws extra id).strands (x.core.cyc + 3 + x.stall) (x.goneReady r ws extra id dest).strands } := by
  have hnext : x.nextOf dest = fun l => match lookupNat l dest with | some t => t | none => x.fall := funext fun l => by
    rw [lookupNat_eq, Issue.nextOf]
    cases dest.find? (fun d => d.1 == l) <;> rfl
  unfold Issue.goneReady Issue.gone
  rw [hnext]
  rfl

theorem committed_move_strands : (x.committed r ws extra id (.move dest)).strands =
    deferTo r.strands (x.core.cyc + 3 + x.stall) (x.gone r ws extra id dest).strands := by
  rw [committed_strands, movedBy_move, ← Issue.flown_strands x r ws extra id, ← readyUnits_strands (x.gone r ws extra id dest)]
  rfl

theorem committed_move_sched (u : Nat) (hu : u ∈ (x.gone r ws extra id dest).units)
    (hs : (x.gone r ws extra id dest).unitStrands u &&& x.r.unitStrands x.unit ≠ 0) :
    (x.committed r ws extra id (.move dest)).schedOf u =
      ⟨if dest.any (fun d => d.2 == (x.gone r ws extra id dest).unitPc u) then x.core.cyc + 3 + x.stall else x.core.cyc + 1 + x.stall,
        0, x.skip, 0, false, none⟩ := by
  have hany : ∀ pc, (dest.map Prod.snd).contains pc = dest.any (fun d => d.2 == pc) := fun pc => by
    rw [List.contains_eq_any_beq, List.any_map]
    exact congrArg _ (funext fun d => BEq.comm)
  have hsched : (x.committed r ws extra id (.move dest)).schedOf u = (x.goneReady r ws extra id dest).schedOf u := by
    rw [Rope.schedOf, committed_sched, movedBy_move]
    rfl
  rw [hsched, Issue.goneReady, readyUnits_schedOf x.skip _ hu hs, hany]
  congr 1
  split <;> rfl

theorem committed_fall_sched (u : Nat) (hu : u ∈ (x.committed r ws extra id .fall).units)
    (hs : (x.committed r ws extra id .fall).unitStrands u &&& x.r.unitStrands x.unit ≠ 0) :
    (x.committed r ws extra id .fall).schedOf u = ⟨x.core.cyc + 1 + x.stall, 0, x.skip, 0, false, none⟩ := by
  have hstand : (x.committed r ws extra id .fall).standing = ((x.flown r ws extra id).moveUnit x.unit (fun _ => x.fall)).standing := by
    rw [Rope.standing, Rope.standing, Issue.committed_fall_strands]
  rw [units_of_standing hstand] at hu
  rw [unitStrands_of_standing hstand] at hs
  have hready := readyUnits_schedOf x.skip (fun _ => x.core.cyc + 1 + x.stall) hu hs
  rw [← hready]
  unfold Issue.committed Issue.movedBy
  split <;> rfl

/-- Whether lanes have moved depends on the strands alone. -/
theorem Rope.Moved.congr {r r' q q' : Rope} {u : Nat} {next : Nat → DWord} (h : r.Moved q u next) (hr : r'.strands = r.strands)
    (hq : q'.strands = q.strands) : r'.Moved q' u next := by
  unfold Rope.Moved at *
  rwa [hr, hq]

theorem Strand.move_after (t : Strand) (next : Nat → DWord) (i : Nat) : (t.move next i).after = t.after := by
  unfold Strand.move
  split <;> rfl

theorem committed_move_after {i : Nat} {t : Strand} (ht : r.strands[i]? = some t) : ∃ y : Strand,
    (x.committed r ws extra id (.move dest)).strands[i]? = some y ∧
      y.after = if t.stack.length < y.stack.length then x.core.cyc + 3 + x.stall else t.after := by
  obtain ⟨n, hn⟩ := moveUnit_getElem? (x.flown r ws extra id) x.unit (x.nextOf dest) (i := i) (x := t) (by rw [Issue.flown_strands]; exact ht)
  rw [committed_move_strands, deferTo_getElem? _ _ _ _ ht, Issue.gone, hn]
  refine ⟨_, rfl, ?_⟩
  have hafter : (if t.inUnit x.unit then { t.move (x.nextOf dest) i with unit := n } else t).after = t.after := by
    split
    · exact t.move_after _ _
    · rfl
  rw [Strand.deferred_after, hafter]

/-! The transfers. -/

section
variable {s : State} {op : Nat} {f : Fields} {b : Begun}

/-- The link pair that a call writes. -/
theorem link_eq (y : Issue) : y.link = linkOf y := scaWrite_pair _ _

theorem branch_eq (hb : s.begun op f pb0 = some b) : addInt b.y.pc (brOffset f) = branchTo b.y := by
  rw [← (begun_op hb).2.2.2]
  rfl

theorem target_eq (y : Issue) : y.target = jumpTo y := rfl

/-- With lanes in ACTIVE and one target, its check is that of each lane. -/
theorem uniform_fault (hact : b.y.act ≠ 0) {pc : DWord} {q : FetchFault} (hq : b.t.targetAt b.y.k b.y.unit b.y.r pc = .fault q)
    (ws : List RegWrite) : b.y.transfer b.t false (fun _ => pc) ws = .trap ⟨q.1, q.2.1, b.y.act, q.2.2.1, q.2.2.2.1, q.2.2.2.2⟩ := by
  obtain ⟨l, hl, hlow⟩ := active_ne_nil hact
  exact transfer_fault (perLane := false) hact hl hq fun j hj => .inr ⟨q, hq, by rw [if_neg (not_lt.2 (hlow j hj))]⟩

theorem uniform_miss (hact : b.y.act ≠ 0) {pc : DWord} {rs va : Nat} (hm : b.t.targetAt b.y.k b.y.unit b.y.r pc = .miss rs va)
    (ws : List RegWrite) : b.y.transfer b.t false (fun _ => pc) ws = .hold (b.t.askFetch b.y.k b.y.unit b.y.r rs va) := by
  obtain ⟨l, hl, hlow⟩ := active_ne_nil hact
  exact transfer_miss hact hl hm fun j hj hlt => absurd hlt (not_lt.2 (hlow j hj))

/-- An instruction that asks for a translation gives its turn back. -/
theorem issue_hold {pb : PB} {body : Issue → State → Act} {s1 : State} (h : s.begun op f pb = some b) (hg : body b.y b.t = .hold s1) :
    issue op f pb body s = .next { s1 with turn := .choose } := by
  rw [issue_begun body h, hg]

theorem act_ne_zero {x : Issue} {l : Nat} (hl : l ∈ x.active) : x.act ≠ 0 := fun h => by
  have := (mem_active.1 hl).2
  rw [h] at this
  simp at this

/-- The lanes of a jump's record: those whose target fails the check, or for a scalar pair those of ACTIVE (R396). -/
theorem jump_lanes (hf : b.y.f = f) {fails : Nat → Bool} {q : FetchFault} (hfails : ∀ j, fails j = true ↔
      ∃ p, b.t.targetAt b.y.k b.y.unit b.y.r (jumpTo b.y j) = .fault p ∧ p.1 = q.1) :
    b.y.faultLanes b.t (jumpTo b.y) (!f.c.getLsbD 0) q =
      if f.c.getLsbD 0 then b.y.act else bitsOf (fun j => b.y.act.getLsbD j && fails j) := by
  unfold Issue.faultLanes
  cases f.c.getLsbD 0 with
  | true => rfl
  | false =>
    rw [if_pos (by decide), if_neg Bool.false_ne_true, maskOf_eq_bitsOf]
    congr 1
    funext j
    rw [Bool.eq_iff_iff, List.any_eq_true, Bool.and_eq_true, hfails]
    constructor
    · rintro ⟨⟨l, p⟩, hmem, hb⟩
      obtain ⟨hl, hp⟩ := mem_badTargets.1 hmem
      rw [Bool.and_eq_true, beq_iff_eq, beq_iff_eq] at hb
      obtain ⟨rfl, hc⟩ := hb
      exact ⟨(mem_active.1 hl).2, p, hp, hc⟩
    · rintro ⟨hbit, p, hp, hc⟩
      have hlt : j < 32 := by
        by_contra hge
        rw [BitVec.getLsbD_of_ge _ _ (not_lt.1 hge)] at hbit
        cases hbit
      exact ⟨(j, p), mem_badTargets.2 ⟨mem_active.2 ⟨hlt, hbit⟩, hp⟩, by simp [hc]⟩

end

/-- A jump whose targets fail takes the trap of the first check that fails (R160, R396). -/
theorem jump_fault {s : State} {op : Nat} {f : Fields} {b : Begun} (hb : s.begun op f pb0 = some b) {l : Nat} {q : FetchFault}
    (hq : b.FaultsFirst (jumpTo b.y) l q) (ws : List RegWrite) {fails : Nat → Bool} (hfails : ∀ j, fails j = true ↔
      ∃ p, b.t.targetAt b.y.k b.y.unit b.y.r (jumpTo b.y j) = .fault p ∧ p.1 = q.1) :
    b.y.transfer b.t (!f.c.getLsbD 0) b.y.target ws =
      .trap ⟨q.1, q.2.1, if f.c.getLsbD 0 then b.y.act else bitsOf (fun j => b.y.act.getLsbD j && fails j), q.2.2.1, q.2.2.2.1, q.2.2.2.2⟩ := by
  obtain ⟨hl, hr, hfirst⟩ := hq
  rw [← jump_lanes (begun_op hb).2.2.2 hfails]
  exact transfer_fault (act_ne_zero hl) hl hr hfirst

/-- Whether the check of a target fails by a cause. -/
theorem fault_cause_iff {z : FetchRes} {c : Nat} : (match z with | .fault p => p.1 == c | _ => false) = true ↔ ∃ p, z = .fault p ∧ p.1 = c := by
  cases z with
  | fault p =>
    rw [beq_iff_eq]
    exact ⟨fun h => ⟨p, rfl, h⟩, fun ⟨p', h, hc⟩ => by cases h; exact hc⟩
  | ok => exact ⟨fun h => absurd h Bool.false_ne_true, fun ⟨_, h, _⟩ => by cases h⟩
  | miss rs va => exact ⟨fun h => absurd h Bool.false_ne_true, fun ⟨_, h, _⟩ => by cases h⟩
  | asked => exact ⟨fun h => absurd h Bool.false_ne_true, fun ⟨_, h, _⟩ => by cases h⟩

/-- The rope of a transfer (R160, R162). -/
theorem after_move (b : Begun) (s1 : State) (ws : List RegWrite) (extra : Nat) (dest : List (Nat × DWord)) {r : Rope}
    (hr : tget (b.x.overtake s1 ws).ropes b.y.k = some r) (h8 : r.strands.length ≤ 8)
    (hh : rget 0 ((b.x.overtake s1 ws).core b.y.c).holds b.y.r.quad = 0) : ∃ q m : Rope,
      tget (b.after s1 ws extra (.move dest)).ropes b.y.k = some q ∧ r.Moved m b.y.unit (b.y.nextOf dest) ∧ q.standing = m.standing ∧
      (∀ (i : Nat) (x : Strand), r.strands[i]? = some x → ∃ y : Strand, q.strands[i]? = some y ∧
        y.after = if x.stack.length < y.stack.length then b.y.core.cyc + 3 + b.y.stall else x.after) ∧
      ∀ u ∈ q.units, q.unitStrands u &&& b.y.r.unitStrands b.y.unit ≠ 0 →
        q.schedOf u = ⟨if dest.any (fun d => d.2 == q.unitPc u) then b.y.core.cyc + 3 + b.y.stall else b.y.core.cyc + 1 + b.y.stall,
          0, b.y.skip, 0, false, none⟩ := by
  have hrope := commit_rope_of_unheld b.y (b.x.overtake s1 ws) ws extra (.move dest) hr hh
  generalize (b.x.overtake s1 ws).nextId = id at hrope
  have hstand : (b.y.committed r ws extra id (.move dest)).standing = (b.y.gone r ws extra id dest).standing := by
    rw [Rope.standing, committed_move_strands]
    exact deferTo_standing ..
  have hmoved : r.Moved (b.y.gone r ws extra id dest) b.y.unit (b.y.nextOf dest) :=
    (moveUnit_moved (r := b.y.flown r ws extra id) _ _ (by rwa [Issue.flown_strands])).congr (Issue.flown_strands ..).symm rfl
  refine ⟨_, _, hrope, hmoved, hstand, fun i x hx => committed_move_after hx, fun u hu hs => ?_⟩
  rw [units_of_standing hstand] at hu
  rw [unitStrands_of_standing hstand] at hs
  rw [committed_move_sched u hu hs, unitPc_of_standing hstand]

/-- Settles O19: a transfer's targets are checked lane by lane; its lanes then move as those of a fall-through do. -/
theorem transfersMoveTheLanesOrTrap : Obligations.TransfersMoveTheLanesOrTrap := by
  refine ⟨⟨fun f s b hb hact hok => ?bra, fun f s b hb hact hok => ?call, fun f s b hb hact hok => ?jmpi, fun f s b hb hact hok => ?calli,
      fun f s b hb hact hok => ?ret⟩,
    ⟨fun f s b q hb hact hq => ?braFault, fun f s b q hb hact hq => ?callFault, fun f s b q hb hact hq => ?retFault,
      fun f s b rs va hb hact hm => ?braMiss, fun f s b rs va hb hact hm => ?callMiss, fun f s b rs va hb hact hm => ?retMiss,
      fun f s b l q hb hq => ?jmpiFault, fun f s b l rs va hb hl hm hbefore => ?jmpiMiss, fun f s b l hb hl ha hno => ?jmpiAsked,
      fun f s b l q hb hq => ?calliFault, fun f s b l rs va hb hl hm hbefore => ?calliMiss, fun f s b l hb hl ha hno => ?calliAsked⟩,
    fun b s1 ws extra dest r hr h8 hh => ?move, fun b s1 ws extra r hr h8 hh => ?fall⟩
  case bra => exact (show execBra f s = _ from issue_go hb (by rw [branch_eq hb]; exact transfer_ok hact hok))
  case call => exact (show execCall f s = _ from issue_go hb (by rw [branch_eq hb, link_eq]; exact transfer_ok hact hok))
  case jmpi => exact (show execJmpi f s = _ from issue_go hb (transfer_ok hact hok))
  case calli => exact (show execCalli f s = _ from issue_go hb (by rw [link_eq]; exact transfer_ok hact hok))
  case ret => exact (show execRet f s = _ from issue_go hb (transfer_ok hact hok))
  case braFault => exact (show execBra f s = _ from issue_trap hb (by rw [branch_eq hb]; exact uniform_fault hact hq _))
  case callFault => exact (show execCall f s = _ from issue_trap hb (by rw [branch_eq hb]; exact uniform_fault hact hq _))
  case retFault => exact (show execRet f s = _ from issue_trap hb (uniform_fault hact hq _))
  case braMiss => exact (show execBra f s = _ from issue_hold hb (by rw [branch_eq hb]; exact uniform_miss hact hm _))
  case callMiss => exact (show execCall f s = _ from issue_hold hb (by rw [branch_eq hb]; exact uniform_miss hact hm _))
  case retMiss => exact (show execRet f s = _ from issue_hold hb (uniform_miss hact hm _))
  case jmpiFault =>
    intro fails
    exact (show execJmpi f s = _ from issue_trap hb (jump_fault hb hq _ fun j => fault_cause_iff))
  case calliFault =>
    intro fails
    exact (show execCalli f s = _ from issue_trap hb (jump_fault hb hq _ fun j => fault_cause_iff))
  case jmpiMiss => exact (show execJmpi f s = _ from issue_hold hb (transfer_miss (act_ne_zero hl) hl hm hbefore))
  case calliMiss => exact (show execCalli f s = _ from issue_hold hb (transfer_miss (act_ne_zero hl) hl hm hbefore))
  case jmpiAsked => exact (show execJmpi f s = _ from issue_wait hb (transfer_asked (act_ne_zero hl) hl ha hno))
  case calliAsked => exact (show execCalli f s = _ from issue_wait hb (transfer_asked (act_ne_zero hl) hl ha hno))
  case move =>
    intro at_ next
    have hnext : next = b.y.nextOf dest := funext fun l => by
      simp only [next, Issue.nextOf]
      cases dest.find? (fun d => d.1 == l) <;> rfl
    rw [hnext]
    exact after_move b s1 ws extra dest hr h8 hh
  case fall =>
    have hrope := commit_rope_of_unheld b.y (b.x.overtake s1 ws) ws extra .fall hr hh
    refine ⟨_, hrope, ?_, fun u hu hs => committed_fall_sched u hu hs⟩
    exact (moveUnit_moved (r := b.y.flown r ws extra _) _ _ (by rwa [Issue.flown_strands])).congr (Issue.flown_strands ..).symm
      (Issue.committed_fall_strands ..)

end Sys2Proof.Machine
end

section
/-! PROOFS. The frame of the instructions that only write registers: their moulds (R8, R35, R66, R69, R124, R139). -/

namespace Sys2Proof.Machine

/-- An act that, where it goes on, has a quiet effect and confines its results, and asks at most for a target's translation. -/
def Begun.OnlyWrites (b : Begun) (a : Act) : Prop :=
  (∀ s1, a = .hold s1 → ∃ reason va, s1 = b.t.askFetch b.y.k b.y.unit b.y.r reason va) ∧ ∀ s1 ws extra nx, a = .go s1 ws extra nx → b.Quiet s1 ∧ b.Confined ws

section
variable {b : Begun}

theorem onlyWrites_wait : b.OnlyWrites .wait := by
  unfold Begun.OnlyWrites
  exact ⟨by simp, by simp⟩

theorem onlyWrites_trap (q : TrapReq) : b.OnlyWrites (.trap q) := by
  unfold Begun.OnlyWrites
  exact ⟨by simp, by simp⟩

theorem onlyWrites_go {s1 : State} {ws : List RegWrite} {extra : Nat} {nx : Next} (hs : b.Quiet s1) (hw : b.Confined ws) :
    b.OnlyWrites (.go s1 ws extra nx) := by
  unfold Begun.OnlyWrites
  refine ⟨by simp, fun _ _ _ _ h => ?_⟩
  rw [Act.go.injEq] at h
  obtain ⟨rfl, rfl, -⟩ := h
  exact ⟨hs, hw⟩

theorem onlyWrites_ite {c : Prop} [Decidable c] {a a' : Act} (h : c → b.OnlyWrites a) (h' : ¬c → b.OnlyWrites a') :
    b.OnlyWrites (if c then a else a') := by
  split
  · next hc => exact h hc
  · next hc => exact h' hc

theorem confined_nil : b.Confined [] := fun _ h => absurd h List.not_mem_nil

theorem confined_append {ws ws' : List RegWrite} (h : b.Confined ws) (h' : b.Confined ws') : b.Confined (ws ++ ws') := fun w hw =>
  (List.mem_append.1 hw).elim (h w) (h' w)

theorem confined_vecs {n : Nat} (hn : RegRef.vec n ∈ b.w) {ls : List Nat} (hl : ∀ l ∈ ls, b.y.act.getLsbD l = true) (v : Nat → Word) :
    b.Confined (ls.map (fun l => .vec n l (v l))) := by
  intro w hw
  obtain ⟨l, hlm, rfl⟩ := List.mem_map.1 hw
  exact ⟨hl l hlm, .inr ⟨_, hn, rfl⟩⟩

theorem confined_vec {n l : Nat} {v : Word} (hn : RegRef.vec n ∈ b.w) (hl : b.y.act.getLsbD l = true) : b.Confined [.vec n l v] := by
  intro w hw
  obtain rfl := List.mem_singleton.1 hw
  exact ⟨hl, .inr ⟨_, hn, rfl⟩⟩

theorem confined_scalar {n : Nat} {v : Word} (hn : RegRef.sca n ∈ b.w) : b.Confined [.scalar n v] := by
  intro w hw
  obtain rfl := List.mem_singleton.1 hw
  exact ⟨rfl, .inr ⟨_, hn, rfl⟩⟩

theorem confined_pred {n : Nat} {v : Word} (hn : RegRef.prd n ∈ b.w) : b.Confined [.pred n b.y.act v] := by
  intro w hw
  obtain rfl := List.mem_singleton.1 hw
  exact ⟨by simp [RegWrite.confinedTo], .inr ⟨_, hn, rfl⟩⟩

theorem confined_ite {c : Prop} [Decidable c] {ws ws' : List RegWrite} (h : c → b.Confined ws) (h' : ¬c → b.Confined ws') :
    b.Confined (if c then ws else ws') := by
  split
  · next hc => exact h hc
  · next hc => exact h' hc

theorem confined_scaWrite {dw d v : Nat} (h : ∀ q ∈ scaRefs d dw, q ∈ b.w) : b.Confined (scaWrite dw d v) := by
  intro w hw
  obtain ⟨hc, q, hq, ht⟩ := scaWrite_confined (act := b.y.act) w hw
  exact ⟨hc, .inr ⟨q, h q hq, ht⟩⟩

/-- The end of an instruction that raises flags traps or has its results. -/
theorem onlyWrites_finish {s1 : State} {fl : Nat → Flags} {cond : Nat → Bool} {ws : List RegWrite} {extra : Nat} (hs : b.Quiet s1)
    (hw : b.Confined ws) : b.OnlyWrites (b.y.finish s1 fl cond ws extra) :=
  onlyWrites_ite (fun _ => onlyWrites_trap _) (fun _ => onlyWrites_go hs (results_confined hw))

end

/-- An instruction each of whose acts only writes changes only registers. -/
theorem changesOnlyRegisters_of {i : Fields → Instr} {op : Nat} {body : Fields → Issue → State → Act}
    (hexec : ∀ f s, exec (i f) s = issue op f pb0 (body f) s)
    (hbody : ∀ (f : Fields) (s : State) (b : Begun), (i f).WellFormed → s.begun op f pb0 = some b → b.OnlyWrites (body f b.y b.t)) :
    ChangesOnlyRegisters i op := by
  intro f s t hwf ht
  rw [hexec] at ht
  exact issue_onlyRegisters (fun b s1 hb h => (hbody f s b hwf hb).1 s1 h)
    (fun b s1 ws extra nx hb h => (hbody f s b hwf hb).2 s1 ws extra nx h) ht

/-! The moulds. -/

section
variable {s : State} {op : Nat} {f : Fields} {b : Begun}

theorem begun_writes (hb : s.begun op f pb0 = some b) {l : List RegRef} (h : ∀ m, metaOf op = some m → regWrites op m f pb0 = l) : b.w = l := by
  obtain ⟨-, hm, -, -, -, hw, -⟩ := begun_spec hb
  rw [hw, h _ hm]

/-- Nothing but registers: no effect at all. -/
theorem quiet_refl (b : Begun) (ho : b.x.op ≠ 0x160) : b.Quiet b.t := (b.t.mapsOnly_refl b.x.c).quiet ho

/-- The map stage stops an instruction with a trap or a wait, or goes on with its arrays taken (R139, R150). -/
theorem onlyWrites_mapStage (hb : s.begun op f pb0 = some b) (ho : op ≠ 0x160) {rowA rowB : Nat} {intA intB facc : Bool} {a : Act}
    (hok : ∀ s1 extra, b.y.mapStageIn b.t rowA rowB intA intB facc = .ok (s1, extra) → b.Quiet s1 → b.OnlyWrites a)
    (herr : ∀ e, b.y.mapStageIn b.t rowA rowB intA intB facc = .error e → a = e) : b.OnlyWrites a := by
  cases h : b.y.mapStageIn b.t rowA rowB intA intB facc with
  | ok p =>
    have hc : b.y.c = b.x.c := by rw [(begun_spec hb).2.2.2.1]; rfl
    refine hok p.1 p.2 h (State.MapsOnly.quiet ?_ (by rwa [(begun_op hb).1]))
    rw [← hc]
    exact Issue.mapStageIn_only h
  | error e =>
    obtain rfl := herr e h
    unfold Issue.mapStageIn at h
    split at h
    · split at h
      · next c hc =>
        cases h
        cases c with
        | wait => exact onlyWrites_wait
        | trap t => exact onlyWrites_trap t
      · simp only [] at h
        split at h
        · cases h; exact onlyWrites_wait
        · cases h
    · cases h

theorem onlyWrites_writeD (hb : s.begun op f pb0 = some b) (hs : b.m.sig = .s1 ∨ b.m.sig = .s2 ∨ b.m.sig = .s3 ∨ b.m.sig = .sp) {s1 : State}
    (hq : b.Quiet s1) (res : Nat → ER) (extra : Nat) : b.OnlyWrites (b.y.writeD s1 b.m res extra) := by
  refine ⟨fun s2 h => ?_, fun s2 ws e nx h => ?_⟩
  · unfold Issue.writeD Issue.finish at h
    split at h
    · cases h
    · split at h <;> simp only [] at h <;> split at h <;> cases h
  · obtain ⟨rfl, hc⟩ := writeD_confined hb hs h
    exact ⟨hq, hc⟩

end

/-- Whether an opcode is one of the arithmetic signatures with a register destination. -/
def writesD (op : Nat) : Bool :=
  (metaOf op).any (fun m => m.sig == .s1 || m.sig == .s2 || m.sig == .s3 || m.sig == .sp) && op != 0x160

theorem writesD_sig {op : Nat} (h : writesD op = true) : op ≠ 0x160 ∧ ∀ m, metaOf op = some m →
    m.sig = .s1 ∨ m.sig = .s2 ∨ m.sig = .s3 ∨ m.sig = .sp := by
  rw [writesD, Bool.and_eq_true, bne_iff_ne] at h
  refine ⟨h.2, fun m hm => ?_⟩
  rw [hm] at h
  simpa [or_assoc] using h.1

/-- The act of an arithmetic instruction (R66, R70): the map stage and the write of D. -/
def Issue.mapThenWrite (x : Issue) (s : State) (op : Nat) (res : Meta → Nat → ER) : Act :=
  match metaOf op with
  | none => .wait
  | some m =>
    match x.mapIn s m with
    | .error a => a
    | .ok (s1, extra) => x.writeD s1 m (res m) extra

/-- An instruction whose act is a map stage and the write of D. -/
theorem changesOnlyRegisters_mapped {i : Fields → Instr} {op : Nat} {res : Fields → Issue → State → Meta → Nat → ER} (hop : writesD op = true)
    (hexec : ∀ f s, exec (i f) s = issue op f pb0 (fun x s => x.mapThenWrite s op (res f x s)) s) : ChangesOnlyRegisters i op := by
  obtain ⟨ho, hsig⟩ := writesD_sig hop
  refine changesOnlyRegisters_of hexec fun f s b _ hb => ?_
  have hm := (begun_spec hb).2.1
  refine onlyWrites_mapStage hb ho (rowA := rowOf b.m b.y.f b.m.aw) (rowB := rowOf b.m b.y.f b.m.bw) (intA := !b.m.ty.isFloat)
    (intB := !b.m.ty.isFloat) (facc := false) (fun s1 extra hok hq => ?_) fun e he => ?_
  · simp only [Issue.mapThenWrite, Issue.mapIn, hm, hok]
    exact onlyWrites_writeD hb (hsig _ hm) hq _ _
  · simp only [Issue.mapThenWrite, Issue.mapIn, hm, he]

section
variable {i : Fields → Instr} {op : Nat}

theorem changesOnlyRegisters_alu1 {g : Meta → CW → EV → ER} (hop : writesD op = true) (h : ∀ f s, exec (i f) s = alu1 op f g s) :
    ChangesOnlyRegisters i op := changesOnlyRegisters_mapped hop h

theorem changesOnlyRegisters_alu2 {g : Meta → CW → EV → EV → ER} (hop : writesD op = true) (h : ∀ f s, exec (i f) s = alu2 op f g s) :
    ChangesOnlyRegisters i op := changesOnlyRegisters_mapped hop h

theorem changesOnlyRegisters_alu3 {g : Meta → CW → EV → EV → EV → ER} (hop : writesD op = true) (h : ∀ f s, exec (i f) s = alu3 op f g s) :
    ChangesOnlyRegisters i op := changesOnlyRegisters_mapped hop h

theorem changesOnlyRegisters_aluCvt {g : Meta → CW → EV → ER} (hop : writesD op = true) (h : ∀ f s, exec (i f) s = aluCvt op f g s) :
    ChangesOnlyRegisters i op := changesOnlyRegisters_mapped hop h

theorem changesOnlyRegisters_aluSel (hop : writesD op = true) (h : ∀ f s, exec (i f) s = aluSel op f s) :
    ChangesOnlyRegisters i op := changesOnlyRegisters_mapped hop h

theorem changesOnlyRegisters_idp (hop : writesD op = true) (h : ∀ f s, exec (i f) s = idp op f s) :
    ChangesOnlyRegisters i op := changesOnlyRegisters_mapped hop h

theorem changesOnlyRegisters_pack {t : Ty} (hop : writesD op = true) (h : ∀ f s, exec (i f) s = pack op t f s) :
    ChangesOnlyRegisters i op := changesOnlyRegisters_mapped hop h

theorem changesOnlyRegisters_divide {rem : Bool} (hop : writesD op = true) (h : ∀ f s, exec (i f) s = divide op rem f s) :
    ChangesOnlyRegisters i op := by
  obtain ⟨ho, hsig⟩ := writesD_sig hop
  refine changesOnlyRegisters_of h fun f s b _ hb => ?_
  have hm := (begun_spec hb).2.1
  simp only [hm]
  split
  · exact onlyWrites_trap _
  · exact onlyWrites_writeD hb (hsig _ hm) (quiet_refl b (by rwa [(begun_op hb).1])) _ _

theorem changesOnlyRegisters_aluCmp {g : Nat → EV → EV → Bool × Flags} (hop : ((metaOf op).any (fun m => m.sig == .cp) && op != 0x160) = true)
    (h : ∀ f s, exec (i f) s = aluCmp op f g s) : ChangesOnlyRegisters i op := by
  rw [Bool.and_eq_true, bne_iff_ne] at hop
  refine changesOnlyRegisters_of h fun f s b _ hb => ?_
  have hm := (begun_spec hb).2.1
  have hw : b.w = [.prd (f.d.toNat % 8)] := begun_writes hb fun m hm' => by
    have hs : m.sig = .cp := by simpa [hm'] using hop.1
    unfold regWrites
    simp only [hs]
  refine onlyWrites_mapStage hb hop.2 (rowA := rowOf b.m b.y.f b.m.aw) (rowB := rowOf b.m b.y.f b.m.bw) (intA := !b.m.ty.isFloat)
    (intB := !b.m.ty.isFloat) (facc := false) (fun s1 extra hok hq => ?_) fun e he => ?_
  · simp only [Issue.mapIn, hm, hok]
    exact onlyWrites_ite (fun _ => onlyWrites_go hq confined_nil) fun _ => onlyWrites_finish hq (confined_pred (by simp [hw]))
  · simp only [Issue.mapIn, hm, he]

/-- FACC writes its run of accumulators (R120). -/
theorem changesOnlyRegisters_facc (hop : op ≠ 0x160) (hl : ∀ f m, metaOf op = some m → regWrites op m f pb0 = runRefs false f.d.toNat (faccCount op))
    (h : ∀ f s, exec (i f) s = facc op f s) : ChangesOnlyRegisters i op := by
  refine changesOnlyRegisters_of h fun f s b _ hb => ?_
  have hw : b.w = runRefs false f.d.toNat (faccCount op) := begun_writes hb (hl f)
  have confined : ∀ v : Nat → Nat → Word, b.Confined (b.y.active.flatMap (fun l => (List.range (faccCount op)).map (fun e =>
      RegWrite.vec (f.d.toNat + e) l (v l e)))) := by
    intro v w hm
    obtain ⟨l, hl, hm⟩ := List.mem_flatMap.1 hm
    obtain ⟨e, he, rfl⟩ := List.mem_map.1 hm
    exact ⟨active_mem hl, .inr ⟨.vec (f.d.toNat + e), by rw [hw]; exact List.mem_map.2 ⟨e, he, rfl⟩, rfl⟩⟩
  refine onlyWrites_mapStage hb hop (rowA := dataRow (faccTy op) false) (rowB := dataRow (faccTy op) false) (intA := !(faccTy op).isFloat)
    (intB := false) (facc := true) (fun s1 extra hok hq => ?_) fun e he => ?_
  · simp only [hok]
    exact onlyWrites_ite (fun _ => onlyWrites_go hq confined_nil) fun _ => onlyWrites_finish hq (confined _)
  · simp only [he]

/-- An instruction with no map stage whose act only writes. -/
theorem changesOnlyRegisters_plain {body : Fields → Issue → State → Act} (l : Fields → List RegRef) (hop : op ≠ 0x160)
    (hl : ∀ f m, metaOf op = some m → regWrites op m f pb0 = l f) (hexec : ∀ f s, exec (i f) s = issue op f pb0 (body f) s)
    (hbody : ∀ (f : Fields) (b : Begun), (i f).WellFormed → b.w = l f → b.Quiet b.t → b.OnlyWrites (body f b.y b.t)) : ChangesOnlyRegisters i op :=
  changesOnlyRegisters_of hexec fun f _ b hwf hb =>
    hbody f b hwf (begun_writes hb (hl f)) (quiet_refl b (by rwa [(begun_op hb).1]))

end

theorem changesOnlyRegisters_plop : ChangesOnlyRegisters .plop 0x01E := by
  refine changesOnlyRegisters_plain (fun f => [.prd (f.d.toNat % 8)]) (by decide) (fun _ _ hm => by cases hm; rfl) (fun f s => by show execPlop f s = _; rw [execPlop]) fun f b _ hw hq => ?_
  exact onlyWrites_go hq (confined_ite (fun _ => confined_nil) fun _ => confined_pred (by simp [hw]))

theorem changesOnlyRegisters_prds : ChangesOnlyRegisters .prds 0x01F := by
  refine changesOnlyRegisters_plain (fun f => [.sca f.d.toNat]) (by decide) (fun _ _ hm => by cases hm; rfl) (fun f s => by show execPrds f s = _; rw [execPrds]) fun f b _ hw hq => ?_
  exact onlyWrites_go hq (confined_ite (fun _ => confined_nil) fun _ => confined_scalar (by simp [hw]))

theorem changesOnlyRegisters_pwrs : ChangesOnlyRegisters .pwrs 0x027 := by
  refine changesOnlyRegisters_plain (fun f => [.prd f.d.toNat]) (by decide) (fun _ _ hm => by cases hm; rfl) (fun f s => by show execPwrs f s = _; rw [execPwrs]) fun f b _ hw hq => ?_
  exact onlyWrites_go hq (confined_ite (fun _ => confined_nil) fun _ => confined_pred (by simp [hw]))

theorem slotCheck_traps {x : Issue} {s : State} {name : Nat} {a : Act} (h : x.slotCheck s name = .error a) : ∃ q, a = .trap q := by
  unfold Issue.slotCheck at h
  split at h
  · cases h; exact ⟨_, rfl⟩
  · split at h <;> cases h
    exact ⟨_, rfl⟩

theorem changesOnlyRegisters_mapq : ChangesOnlyRegisters .mapq 0x102 := by
  refine changesOnlyRegisters_plain (fun f => [.sca f.d.toNat]) (by decide) (fun _ _ hm => by cases hm; rfl) (fun f s => by show execMapq f s = _; rw [execMapq]) fun f b _ hw hq => ?_
  refine onlyWrites_ite (fun _ => onlyWrites_ite (fun _ => onlyWrites_wait) fun _ => onlyWrites_go hq confined_nil) fun _ => ?_
  split
  · next a ha =>
    obtain ⟨q, rfl⟩ := slotCheck_traps ha
    exact onlyWrites_trap q
  · exact onlyWrites_ite (fun _ => onlyWrites_wait) fun _ => onlyWrites_go hq (confined_scalar (by simp [hw]))

/-! Cross-lane moves, MATCH and votes (R154, R171, R172). -/

theorem changesOnlyRegisters_shfl : ChangesOnlyRegisters .shfl 0x108 := by
  refine changesOnlyRegisters_plain (fun f => [.vec f.d.toNat]) (by decide) (fun _ _ hm => by cases hm; rfl) (fun f s => by show execShfl f s = _; rw [execShfl]) fun f b _ hw hq => ?_
  exact onlyWrites_go hq (confined_vecs (by simp [hw]) (fun _ => active_mem) _)

theorem changesOnlyRegisters_bcast : ChangesOnlyRegisters .bcast 0x109 := by
  refine changesOnlyRegisters_plain (fun f => [.vec f.d.toNat]) (by decide) (fun _ _ hm => by cases hm; rfl) (fun f s => by show execBcast f s = _; rw [execBcast]) fun f b _ hw hq => ?_
  exact onlyWrites_go hq (confined_vecs (by simp [hw]) (fun _ => active_mem) _)

theorem changesOnlyRegisters_rdlane : ChangesOnlyRegisters .rdlane 0x10A := by
  refine changesOnlyRegisters_plain (fun f => [.sca f.d.toNat]) (by decide) (fun _ _ hm => by cases hm; rfl) (fun f s => by show execRdlane f s = _; rw [execRdlane]) fun f b _ hw hq => ?_
  exact onlyWrites_go hq (confined_ite (fun _ => confined_nil) fun _ => confined_scalar (by simp [hw]))

theorem changesOnlyRegisters_wrlane : ChangesOnlyRegisters .wrlane 0x10B := by
  refine changesOnlyRegisters_plain (fun f => [.vec f.d.toNat]) (by decide) (fun _ _ hm => by cases hm; rfl) (fun f s => by show execWrlane f s = _; rw [execWrlane]) fun f b _ hw hq => ?_
  exact onlyWrites_go hq (confined_ite (fun h => confined_vec (by simp [hw]) h) fun _ => confined_nil)

theorem changesOnlyRegisters_matchN32 : ChangesOnlyRegisters .matchN32 0x10C := by
  refine changesOnlyRegisters_plain (fun f => [.vec f.d.toNat]) (by decide) (fun _ _ hm => by cases hm; rfl) (fun f s => by show execMatchN32 f s = _; rw [execMatchN32, matchOp]) fun f b _ hw hq => ?_
  exact onlyWrites_go hq (confined_vecs (by simp [hw]) (fun _ => active_mem) _)

theorem changesOnlyRegisters_matchN64 : ChangesOnlyRegisters .matchN64 0x10D := by
  refine changesOnlyRegisters_plain (fun f => [.vec f.d.toNat]) (by decide) (fun _ _ hm => by cases hm; rfl) (fun f s => by show execMatchN64 f s = _; rw [execMatchN64, matchOp]) fun f b _ hw hq => ?_
  exact onlyWrites_go hq (confined_vecs (by simp [hw]) (fun _ => active_mem) _)

/-- The predicate that a vote names exists (R171). -/
theorem vote_predicate {op : Nat} {f : Fields} (ho : op = 0x158 ∨ op = 0x159) (h : wfFields op f pb0 = true) : f.d.toNat % 8 = f.d.toNat := by
  have hd : f.d.toNat < 8 := by
    have he : wfEntry op f pb0 = true := by
      rcases ho with rfl | rfl <;> exact (Bool.and_eq_true_iff.1 h).2
    rcases ho with rfl | rfl
    all_goals
      simp only [wfEntry, Bool.and_eq_true, decide_eq_true_eq] at he
      obtain ⟨⟨⟨⟨-, hd⟩, -⟩, -⟩, -⟩ := he
      exact hd
  exact Nat.mod_eq_of_lt hd

theorem changesOnlyRegisters_voteAny : ChangesOnlyRegisters .voteAny 0x158 := by
  refine changesOnlyRegisters_plain (fun f => [.prd f.d.toNat]) (by decide) (fun _ _ hm => by cases hm; rfl) (fun f s => by show execVoteAny f s = _; rw [execVoteAny, voteOp]) fun f b hwf hw hq => ?_
  exact onlyWrites_go hq (confined_ite (fun _ => confined_nil) fun _ =>
      confined_pred (by rw [hw, vote_predicate (.inl rfl) hwf]; exact List.mem_singleton.2 rfl))

theorem changesOnlyRegisters_voteAll : ChangesOnlyRegisters .voteAll 0x159 := by
  refine changesOnlyRegisters_plain (fun f => [.prd f.d.toNat]) (by decide) (fun _ _ hm => by cases hm; rfl) (fun f s => by show execVoteAll f s = _; rw [execVoteAll, voteOp]) fun f b hwf hw hq => ?_
  exact onlyWrites_go hq (confined_ite (fun _ => confined_nil) fun _ =>
      confined_pred (by rw [hw, vote_predicate (.inr rfl) hwf]; exact List.mem_singleton.2 rfl))

theorem changesOnlyRegisters_voteBal : ChangesOnlyRegisters .voteBal 0x15A := by
  refine changesOnlyRegisters_plain (fun f => [.sca f.d.toNat]) (by decide) (fun _ _ hm => by cases hm; rfl) (fun f s => by show execVoteBal f s = _; rw [execVoteBal]) fun f b _ hw hq => ?_
  exact onlyWrites_go hq (confined_ite (fun _ => confined_nil) fun _ => confined_scalar (by simp [hw]))

/-! Transfers (R158 to R160, R306). -/

theorem onlyWrites_hold {b : Begun} (rs va : Nat) : b.OnlyWrites (.hold (b.t.askFetch b.y.k b.y.unit b.y.r rs va)) := by
  unfold Begun.OnlyWrites
  refine ⟨fun s1 h => ?_, by simp⟩
  rw [Act.hold.injEq] at h
  exact ⟨_, _, h.symm⟩

theorem onlyWrites_transfer {b : Begun} (hq : b.Quiet b.t) {perLane : Bool} {target : Nat → DWord} {ws : List RegWrite} (hw : b.Confined ws) :
    b.OnlyWrites (b.y.transfer b.t perLane target ws) := by
  unfold Issue.transfer Issue.toTargets
  simp only []
  split
  · exact onlyWrites_hold _ _
  · exact onlyWrites_wait
  · exact onlyWrites_trap _
  · exact onlyWrites_ite (fun _ => onlyWrites_go hq confined_nil) fun _ => onlyWrites_go hq hw

/-- A transfer without a link writes nothing. -/
theorem changesOnlyRegisters_jump {i : Fields → Instr} {op : Nat} {perLane : Fields → Bool} {target : Fields → Issue → Nat → DWord}
    (hop : op ≠ 0x160) (h : ∀ f s, exec (i f) s = issue op f pb0 (fun x s => x.transfer s (perLane f) (target f x) []) s) : ChangesOnlyRegisters i op :=
  changesOnlyRegisters_of h fun _ _ b _ hb => onlyWrites_transfer (quiet_refl b (by rwa [(begun_op hb).1])) confined_nil

/-- A call writes its link. -/
theorem changesOnlyRegisters_link {i : Fields → Instr} {op : Nat} {perLane : Fields → Bool} {target : Fields → Issue → Nat → DWord}
    (hop : op ≠ 0x160) (hl : ∀ f m, metaOf op = some m → regWrites op m f pb0 = scaRefs f.d.toNat 64)
    (h : ∀ f s, exec (i f) s = issue op f pb0 (fun x s => x.transfer s (perLane f) (target f x) x.link) s) : ChangesOnlyRegisters i op :=
  changesOnlyRegisters_of h fun f _ b _ hb => onlyWrites_transfer (quiet_refl b (by rwa [(begun_op hb).1]))
    (confined_scaWrite fun q hq => by rwa [begun_writes hb (hl f), ← (begun_op hb).2.2.2])

theorem changesOnlyRegisters_bra : ChangesOnlyRegisters .bra 0x140 :=
  changesOnlyRegisters_jump (by decide) fun f s => by show execBra f s = _; rw [execBra]

theorem changesOnlyRegisters_call : ChangesOnlyRegisters .call 0x141 :=
  changesOnlyRegisters_link (by decide) (fun _ _ hm => by cases hm; rfl) fun f s => by show execCall f s = _; rw [execCall]

theorem changesOnlyRegisters_jmpi : ChangesOnlyRegisters .jmpi 0x142 :=
  changesOnlyRegisters_jump (by decide) fun f s => by show execJmpi f s = _; rw [execJmpi]

theorem changesOnlyRegisters_calli : ChangesOnlyRegisters .calli 0x143 :=
  changesOnlyRegisters_link (by decide) (fun _ _ hm => by cases hm; rfl) fun f s => by show execCalli f s = _; rw [execCalli]

theorem changesOnlyRegisters_ret : ChangesOnlyRegisters .ret 0x144 :=
  changesOnlyRegisters_jump (by decide) fun f s => by show execRet f s = _; rw [execRet]

/-! Hints, WAITC, CPQ and the system reads. -/

theorem changesOnlyRegisters_yield : ChangesOnlyRegisters .yield 0x14A := by
  refine changesOnlyRegisters_plain (fun _ => []) (by decide) (fun _ _ hm => by cases hm; rfl) (fun f s => by show execYield f s = _; rw [execYield]) fun _ _ _ _ hq => ?_
  exact onlyWrites_go hq confined_nil

theorem changesOnlyRegisters_nop : ChangesOnlyRegisters .nop 0x14B := by
  refine changesOnlyRegisters_plain (fun _ => []) (by decide) (fun _ _ hm => by cases hm; rfl) (fun f s => by show execNop f s = _; rw [execNop]) fun _ _ _ _ hq => ?_
  exact onlyWrites_go hq confined_nil

theorem changesOnlyRegisters_waitc : ChangesOnlyRegisters .waitc 0x160 := by
  refine changesOnlyRegisters_of (fun f s => by show execWaitc f s = _; rw [execWaitc]) fun f s b _ hb => ?_
  have hq := State.waitReleases_quiet (begun_op hb).1
  rw [show b.x.f = f from (begun_op hb).2.1, show b.x.k = b.y.k by rw [(begun_spec hb).2.2.2.1]; rfl] at hq
  exact onlyWrites_ite (fun _ => onlyWrites_go hq confined_nil) fun _ => onlyWrites_wait

theorem changesOnlyRegisters_cpq : ChangesOnlyRegisters .cpq 0x1D2 := by
  refine changesOnlyRegisters_plain (fun f => [.sca f.d.toNat]) (by decide) (fun _ _ hm => by cases hm; rfl) (fun f s => by show execCpq f s = _; rw [execCpq]) fun f b _ hw hq => ?_
  exact onlyWrites_ite (fun _ => onlyWrites_go hq confined_nil) fun _ => onlyWrites_ite
      (fun _ => onlyWrites_ite (fun _ => onlyWrites_trap _) fun _ => onlyWrites_go hq (confined_scalar (by simp [hw])))
      fun _ => onlyWrites_go hq (confined_scalar (by simp [hw]))

theorem changesOnlyRegisters_sread : ChangesOnlyRegisters .sread 0x1DA := by
  refine changesOnlyRegisters_of (fun f s => by show execSread f s = _; rw [execSread]) fun f s b _ hb => ?_
  refine onlyWrites_ite (fun _ => onlyWrites_go (quiet_refl b (by rw [(begun_op hb).1]; decide)) confined_nil) fun _ => ?_
  have hq := Issue.isoMark_quiet hb rfl
  have hw : b.w = (match f.c.toNat with | 0 => [.sca f.d.toNat] | 1 => scaRefs f.d.toNat 64 | _ => [.vec f.d.toNat]) :=
    begun_writes hb fun _ hm => by cases hm; rfl
  split
  · next h => exact onlyWrites_go hq (confined_scaWrite fun q hq => by rw [hw, h]; exact hq)
  · next h => exact onlyWrites_go hq (confined_scaWrite fun q hq => by rw [hw, h]; exact hq)
  · next h h' => exact onlyWrites_go (quiet_refl b (by rw [(begun_op hb).1]; decide)) (confined_vecs (by rw [hw]; simp) (fun _ => active_mem) _)

theorem changesOnlyRegisters_trecRd : ChangesOnlyRegisters .trecRd 0x1DC := by
  refine changesOnlyRegisters_plain (fun f => [.sca f.d.toNat]) (by decide) (fun _ _ hm => by cases hm; rfl) (fun f s => by show execTrecRd f s = _; rw [execTrecRd]) fun f b _ hw hq => ?_
  exact onlyWrites_go hq (confined_scalar (by simp [hw]))

theorem changesOnlyRegisters_sysrd : ChangesOnlyRegisters .sysrd 0x1E0 := by
  refine changesOnlyRegisters_plain (fun f => scaRefs f.d.toNat 64) (by decide) (fun _ _ hm => by cases hm; rfl) (fun f s => by show execSysrd f s = _; rw [execSysrd]) fun f b _ hw hq => ?_
  exact onlyWrites_ite (fun _ => onlyWrites_go hq confined_nil) fun _ => onlyWrites_go hq (confined_scaWrite fun q h => by rwa [hw])

/-- Settles O60: what each instruction does is a map stage and a write of its destination, or a write alone. -/
theorem registerInstructionsChangeNothingElse : Obligations.RegisterInstructionsChangeNothingElse := by
  unfold Obligations.RegisterInstructionsChangeNothingElse
  exact ⟨changesOnlyRegisters_alu2 (by decide) fun _ _ => rfl, changesOnlyRegisters_alu2 (by decide) fun _ _ => rfl,
    changesOnlyRegisters_alu2 (by decide) fun _ _ => rfl, changesOnlyRegisters_alu2 (by decide) fun _ _ => rfl,
    changesOnlyRegisters_alu2 (by decide) fun _ _ => rfl, changesOnlyRegisters_alu2 (by decide) fun _ _ => rfl,
    changesOnlyRegisters_alu2 (by decide) fun _ _ => rfl, changesOnlyRegisters_alu2 (by decide) fun _ _ => rfl,
    changesOnlyRegisters_alu2 (by decide) fun _ _ => rfl, changesOnlyRegisters_alu2 (by decide) fun _ _ => rfl,
    changesOnlyRegisters_alu2 (by decide) fun _ _ => rfl, changesOnlyRegisters_alu2 (by decide) fun _ _ => rfl,
    changesOnlyRegisters_alu2 (by decide) fun _ _ => rfl, changesOnlyRegisters_alu2 (by decide) fun _ _ => rfl,
    changesOnlyRegisters_alu2 (by decide) fun _ _ => rfl, changesOnlyRegisters_alu2 (by decide) fun _ _ => rfl,
    changesOnlyRegisters_alu2 (by decide) fun _ _ => rfl, changesOnlyRegisters_alu2 (by decide) fun _ _ => rfl,
    changesOnlyRegisters_alu2 (by decide) fun _ _ => rfl, changesOnlyRegisters_alu2 (by decide) fun _ _ => rfl,
    changesOnlyRegisters_aluCmp (by decide) fun _ _ => rfl, changesOnlyRegisters_aluCmp (by decide) fun _ _ => rfl,
    changesOnlyRegisters_aluCmp (by decide) fun _ _ => rfl, changesOnlyRegisters_aluCmp (by decide) fun _ _ => rfl,
    changesOnlyRegisters_alu2 (by decide) fun _ _ => rfl, changesOnlyRegisters_alu2 (by decide) fun _ _ => rfl,
    changesOnlyRegisters_alu2 (by decide) fun _ _ => rfl, changesOnlyRegisters_alu2 (by decide) fun _ _ => rfl,
    changesOnlyRegisters_alu1 (by decide) fun _ _ => rfl, changesOnlyRegisters_alu3 (by decide) fun _ _ => rfl, changesOnlyRegisters_plop,
    changesOnlyRegisters_prds, changesOnlyRegisters_alu2 (by decide) fun _ _ => rfl, changesOnlyRegisters_alu2 (by decide) fun _ _ => rfl,
    changesOnlyRegisters_alu2 (by decide) fun _ _ => rfl, changesOnlyRegisters_alu2 (by decide) fun _ _ => rfl,
    changesOnlyRegisters_alu2 (by decide) fun _ _ => rfl, changesOnlyRegisters_alu2 (by decide) fun _ _ => rfl,
    changesOnlyRegisters_alu2 (by decide) fun _ _ => rfl, changesOnlyRegisters_pwrs, changesOnlyRegisters_alu1 (by decide) fun _ _ => rfl,
    changesOnlyRegisters_alu1 (by decide) fun _ _ => rfl, changesOnlyRegisters_aluSel (by decide) fun _ _ => rfl,
    changesOnlyRegisters_aluSel (by decide) fun _ _ => rfl, changesOnlyRegisters_alu2 (by decide) fun _ _ => rfl,
    changesOnlyRegisters_alu2 (by decide) fun _ _ => rfl, changesOnlyRegisters_alu2 (by decide) fun _ _ => rfl,
    changesOnlyRegisters_alu2 (by decide) fun _ _ => rfl, changesOnlyRegisters_alu2 (by decide) fun _ _ => rfl,
    changesOnlyRegisters_alu2 (by decide) fun _ _ => rfl, changesOnlyRegisters_alu2 (by decide) fun _ _ => rfl,
    changesOnlyRegisters_alu2 (by decide) fun _ _ => rfl, changesOnlyRegisters_alu2 (by decide) fun _ _ => rfl,
    changesOnlyRegisters_alu2 (by decide) fun _ _ => rfl, changesOnlyRegisters_alu3 (by decide) fun _ _ => rfl,
    changesOnlyRegisters_alu3 (by decide) fun _ _ => rfl, changesOnlyRegisters_alu3 (by decide) fun _ _ => rfl,
    changesOnlyRegisters_alu3 (by decide) fun _ _ => rfl, changesOnlyRegisters_idp (by decide) fun _ _ => rfl,
    changesOnlyRegisters_idp (by decide) fun _ _ => rfl, changesOnlyRegisters_idp (by decide) fun _ _ => rfl,
    changesOnlyRegisters_alu2 (by decide) fun _ _ => rfl, changesOnlyRegisters_alu2 (by decide) fun _ _ => rfl,
    changesOnlyRegisters_alu2 (by decide) fun _ _ => rfl, changesOnlyRegisters_alu2 (by decide) fun _ _ => rfl,
    changesOnlyRegisters_divide (by decide) fun _ _ => rfl, changesOnlyRegisters_divide (by decide) fun _ _ => rfl,
    changesOnlyRegisters_divide (by decide) fun _ _ => rfl, changesOnlyRegisters_divide (by decide) fun _ _ => rfl,
    changesOnlyRegisters_divide (by decide) fun _ _ => rfl, changesOnlyRegisters_divide (by decide) fun _ _ => rfl,
    changesOnlyRegisters_divide (by decide) fun _ _ => rfl, changesOnlyRegisters_divide (by decide) fun _ _ => rfl,
    changesOnlyRegisters_alu1 (by decide) fun _ _ => rfl, changesOnlyRegisters_alu1 (by decide) fun _ _ => rfl,
    changesOnlyRegisters_alu1 (by decide) fun _ _ => rfl, changesOnlyRegisters_alu1 (by decide) fun _ _ => rfl,
    changesOnlyRegisters_alu2 (g := fun m _ => bfeElem m true) (by decide) fun _ _ => rfl,
    changesOnlyRegisters_alu2 (g := fun m _ => bfeElem m false) (by decide) fun _ _ => rfl,
    changesOnlyRegisters_alu3 (by decide) fun _ _ => rfl, changesOnlyRegisters_alu2 (by decide) fun _ _ => rfl,
    changesOnlyRegisters_alu2 (by decide) fun _ _ => rfl, changesOnlyRegisters_alu2 (by decide) fun _ _ => rfl,
    changesOnlyRegisters_alu3 (by decide) fun _ _ => rfl, changesOnlyRegisters_alu2 (by decide) fun _ _ => rfl,
    changesOnlyRegisters_alu2 (by decide) fun _ _ => rfl, changesOnlyRegisters_aluCmp (by decide) fun _ _ => rfl,
    changesOnlyRegisters_alu1 (by decide) fun _ _ => rfl, changesOnlyRegisters_alu2 (by decide) fun _ _ => rfl,
    changesOnlyRegisters_alu2 (by decide) fun _ _ => rfl, changesOnlyRegisters_alu2 (by decide) fun _ _ => rfl,
    changesOnlyRegisters_alu3 (by decide) fun _ _ => rfl, changesOnlyRegisters_alu2 (by decide) fun _ _ => rfl,
    changesOnlyRegisters_alu2 (by decide) fun _ _ => rfl, changesOnlyRegisters_aluCmp (by decide) fun _ _ => rfl,
    changesOnlyRegisters_alu1 (by decide) fun _ _ => rfl, changesOnlyRegisters_alu2 (by decide) fun _ _ => rfl,
    changesOnlyRegisters_alu2 (by decide) fun _ _ => rfl, changesOnlyRegisters_alu2 (by decide) fun _ _ => rfl,
    changesOnlyRegisters_alu3 (by decide) fun _ _ => rfl, changesOnlyRegisters_alu2 (by decide) fun _ _ => rfl,
    changesOnlyRegisters_alu2 (by decide) fun _ _ => rfl, changesOnlyRegisters_aluCmp (by decide) fun _ _ => rfl,
    changesOnlyRegisters_alu1 (by decide) fun _ _ => rfl, changesOnlyRegisters_alu2 (by decide) fun _ _ => rfl,
    changesOnlyRegisters_alu2 (by decide) fun _ _ => rfl, changesOnlyRegisters_alu2 (by decide) fun _ _ => rfl,
    changesOnlyRegisters_alu3 (by decide) fun _ _ => rfl, changesOnlyRegisters_alu2 (by decide) fun _ _ => rfl,
    changesOnlyRegisters_alu2 (by decide) fun _ _ => rfl, changesOnlyRegisters_aluCmp (by decide) fun _ _ => rfl,
    changesOnlyRegisters_alu1 (by decide) fun _ _ => rfl,
    changesOnlyRegisters_facc (by decide) (fun _ _ hm => by cases hm; rfl) fun _ _ => rfl,
    changesOnlyRegisters_facc (by decide) (fun _ _ hm => by cases hm; rfl) fun _ _ => rfl,
    changesOnlyRegisters_facc (by decide) (fun _ _ hm => by cases hm; rfl) fun _ _ => rfl,
    changesOnlyRegisters_facc (by decide) (fun _ _ hm => by cases hm; rfl) fun _ _ => rfl,
    changesOnlyRegisters_facc (by decide) (fun _ _ hm => by cases hm; rfl) fun _ _ => rfl,
    changesOnlyRegisters_facc (by decide) (fun _ _ hm => by cases hm; rfl) fun _ _ => rfl,
    changesOnlyRegisters_aluCvt (by decide) fun _ _ => rfl, changesOnlyRegisters_aluCvt (by decide) fun _ _ => rfl,
    changesOnlyRegisters_aluCvt (by decide) fun _ _ => rfl, changesOnlyRegisters_aluCvt (by decide) fun _ _ => rfl,
    changesOnlyRegisters_aluCvt (by decide) fun _ _ => rfl, changesOnlyRegisters_aluCvt (by decide) fun _ _ => rfl,
    changesOnlyRegisters_aluCvt (by decide) fun _ _ => rfl, changesOnlyRegisters_aluCvt (by decide) fun _ _ => rfl,
    changesOnlyRegisters_aluCvt (by decide) fun _ _ => rfl, changesOnlyRegisters_aluCvt (by decide) fun _ _ => rfl,
    changesOnlyRegisters_aluCvt (by decide) fun _ _ => rfl, changesOnlyRegisters_aluCvt (by decide) fun _ _ => rfl,
    changesOnlyRegisters_aluCvt (by decide) fun _ _ => rfl, changesOnlyRegisters_aluCvt (by decide) fun _ _ => rfl,
    changesOnlyRegisters_aluCvt (by decide) fun _ _ => rfl, changesOnlyRegisters_aluCvt (by decide) fun _ _ => rfl,
    changesOnlyRegisters_aluCvt (by decide) fun _ _ => rfl, changesOnlyRegisters_aluCvt (by decide) fun _ _ => rfl,
    changesOnlyRegisters_aluCvt (by decide) fun _ _ => rfl, changesOnlyRegisters_aluCvt (by decide) fun _ _ => rfl,
    changesOnlyRegisters_aluCvt (by decide) fun _ _ => rfl, changesOnlyRegisters_aluCvt (by decide) fun _ _ => rfl,
    changesOnlyRegisters_aluCvt (by decide) fun _ _ => rfl, changesOnlyRegisters_aluCvt (by decide) fun _ _ => rfl,
    changesOnlyRegisters_pack (by decide) fun _ _ => rfl, changesOnlyRegisters_pack (by decide) fun _ _ => rfl,
    changesOnlyRegisters_pack (by decide) fun _ _ => rfl, changesOnlyRegisters_pack (by decide) fun _ _ => rfl,
    changesOnlyRegisters_pack (by decide) fun _ _ => rfl, changesOnlyRegisters_pack (by decide) fun _ _ => rfl,
    changesOnlyRegisters_pack (by decide) fun _ _ => rfl, changesOnlyRegisters_pack (by decide) fun _ _ => rfl,
    changesOnlyRegisters_pack (by decide) fun _ _ => rfl, changesOnlyRegisters_pack (by decide) fun _ _ => rfl, changesOnlyRegisters_mapq,
    changesOnlyRegisters_shfl, changesOnlyRegisters_bcast, changesOnlyRegisters_rdlane, changesOnlyRegisters_wrlane,
    changesOnlyRegisters_matchN32, changesOnlyRegisters_matchN64, changesOnlyRegisters_bra, changesOnlyRegisters_call,
    changesOnlyRegisters_jmpi, changesOnlyRegisters_calli, changesOnlyRegisters_ret, changesOnlyRegisters_yield, changesOnlyRegisters_nop,
    changesOnlyRegisters_voteAny, changesOnlyRegisters_voteAll, changesOnlyRegisters_voteBal, changesOnlyRegisters_waitc,
    changesOnlyRegisters_cpq, changesOnlyRegisters_sread, changesOnlyRegisters_trecRd, changesOnlyRegisters_sysrd⟩

end Sys2Proof.Machine
end

section
/-! PROOFS. The encodings: decoding undoes encoding, and encoding undoes decoding (R59 to R61, R211, R246, R373). -/

namespace Sys2Proof

/-! The opcode tables. -/

/-- The constructor that a row of the opcode map names keeps the opcode, the fields and, where one is carried, the PB. -/
def RowOk (e : Nat × (Fields → PB → Instr)) : Prop := ∀ f pb, (e.2 f pb).rope? = some (e.1, f, if hasPb e.1 then pb else ⟨0, 0, 0, 0⟩)

theorem lookupNat_mem {α : Type} {k : Nat} {l : List (Nat × α)} {x : α} (h : lookupNat k l = some x) : (k, x) ∈ l := by
  induction l with
  | nil => cases h
  | cons p l ih =>
    unfold lookupNat at h
    split at h
    · next hk => cases h; subst hk; exact List.mem_cons_self
    · exact List.mem_cons_of_mem _ (ih h)

theorem opGroup0_ok : ∀ e ∈ opGroup0, RowOk e := by
  simp only [opGroup0, List.forall_mem_cons, List.not_mem_nil, IsEmpty.forall_iff, implies_true, and_true]
  repeat' apply And.intro
  all_goals exact fun _ _ => rfl

theorem opGroup1_ok : ∀ e ∈ opGroup1, RowOk e := by
  simp only [opGroup1, List.forall_mem_cons, List.not_mem_nil, IsEmpty.forall_iff, implies_true, and_true]
  repeat' apply And.intro
  all_goals exact fun _ _ => rfl

theorem opGroup2_ok : ∀ e ∈ opGroup2, RowOk e := by
  simp only [opGroup2, List.forall_mem_cons, List.not_mem_nil, IsEmpty.forall_iff, implies_true, and_true]
  repeat' apply And.intro
  all_goals exact fun _ _ => rfl

theorem opGroup3_ok : ∀ e ∈ opGroup3, RowOk e := by
  simp only [opGroup3, List.forall_mem_cons, List.not_mem_nil, IsEmpty.forall_iff, implies_true, and_true]
  repeat' apply And.intro
  all_goals exact fun _ _ => rfl

theorem opGroup4_ok : ∀ e ∈ opGroup4, RowOk e := by
  simp only [opGroup4, List.forall_mem_cons, List.not_mem_nil, IsEmpty.forall_iff, implies_true, and_true]
  repeat' apply And.intro
  all_goals exact fun _ _ => rfl

theorem opGroup5_ok : ∀ e ∈ opGroup5, RowOk e := by
  simp only [opGroup5, List.forall_mem_cons, List.not_mem_nil, IsEmpty.forall_iff, implies_true, and_true]
  repeat' apply And.intro
  all_goals exact fun _ _ => rfl

theorem opGroup6_ok : ∀ e ∈ opGroup6, RowOk e := by
  simp only [opGroup6, List.forall_mem_cons, List.not_mem_nil, IsEmpty.forall_iff, implies_true, and_true]
  repeat' apply And.intro
  all_goals exact fun _ _ => rfl

theorem opGroup7_ok : ∀ e ∈ opGroup7, RowOk e := by
  simp only [opGroup7, List.forall_mem_cons, List.not_mem_nil, IsEmpty.forall_iff, implies_true, and_true]
  repeat' apply And.intro
  all_goals exact fun _ _ => rfl

/-- An instruction that an opcode stands for has that opcode, the fields and, where one is carried, the PB. -/
theorem rope_ofOpcode {op : Nat} {f : Fields} {pb : PB} {i : Instr} (h : ofOpcode op f pb = some i) :
    i.rope? = some (op, f, if hasPb op then pb else ⟨0, 0, 0, 0⟩) := by
  have row : ∀ l : List (Nat × (Fields → PB → Instr)), (∀ e ∈ l, RowOk e) → ∀ g, lookupNat op l = some g →
      (g f pb).rope? = some (op, f, if hasPb op then pb else ⟨0, 0, 0, 0⟩) := fun l hl g hg => hl _ (lookupNat_mem hg) f pb
  unfold ofOpcode at h
  simp only [] at h
  split at h
  · next g hg =>
    cases h
    split at hg
    · exact row _ opGroup0_ok g hg
    · exact row _ opGroup1_ok g hg
    · exact row _ opGroup2_ok g hg
    · exact row _ opGroup3_ok g hg
    · exact row _ opGroup4_ok g hg
    · exact row _ opGroup5_ok g hg
    · exact row _ opGroup6_ok g hg
    · exact row _ opGroup7_ok g hg
    · cases hg
  · cases h

/-- An instruction is what its opcode stands for. -/
theorem ofOpcode_rope {op : Nat} {f : Fields} {pb : PB} {i : Instr} (h : i.rope? = some (op, f, pb)) : ofOpcode op f pb = some i := by
  cases i
  all_goals cases h
  all_goals rfl

/-! Fields cut out of the words that hold them (R60, R61). -/

section
variable {v w start len : Nat} {x : BitVec v} {y : BitVec w}

theorem extractLsb'_append_low {z : BitVec len} (h : start + len ≤ w) (hz : y.extractLsb' start len = z) : (x ++ y).extractLsb' start len = z :=
  (BitVec.extractLsb'_append_eq_of_add_le h).trans hz

theorem getLsbD_append_low {b : Bool} (h : start < w) (hb : y.getLsbD start = b) : (x ++ y).getLsbD start = b := by
  rw [BitVec.getLsbD_append, if_pos h, hb]

theorem getLsbD_append_ofBool (b : Bool) : (BitVec.ofBool b ++ y).getLsbD w = b := by
  rw [BitVec.getLsbD_append, if_neg (Nat.lt_irrefl w), Nat.sub_self, BitVec.getLsbD_ofBool]
  rfl

theorem getLsbD_append_zero : (0#1 ++ y).getLsbD w = false := getLsbD_append_ofBool false

end

section
variable (op : Nat) (f : Fields) (c : CW)

theorem iwOp_encodeIw (h : op < 512) : iwOp (encodeIw op f) = op := by
  have he : (encodeIw op f).extractLsb' 0 9 = BitVec.ofNat 9 op := by
    unfold encodeIw
    repeat refine extractLsb'_append_low (by decide) ?_
    exact BitVec.extractLsb'_eq_self
  rw [iwOp, he, BitVec.toNat_ofNat, Nat.mod_eq_of_lt h]

theorem fieldsOfIw_encodeIw (cw : Option CW) : fieldsOfIw (encodeIw op f) cw = { f with enc := .native cw } := by
  simp only [fieldsOfIw, Fields.mk.injEq, and_true]
  unfold encodeIw
  refine ⟨?tc, ?stall, ?d, ?a, ?b, ?c, ?pg, ?pgn, ?ma, ?mae, ?mb, ?mbe, ?y⟩
  case pgn | mae | mbe | y =>
    repeat refine getLsbD_append_low (by decide) ?_
    exact getLsbD_append_ofBool _
  all_goals
    repeat refine extractLsb'_append_low (by decide) ?_
    exact BitVec.extractLsb'_append_eq_left

theorem encodeIw_x : (encodeIw op f).getLsbD 15 = f.hasCw := by
  unfold encodeIw
  repeat refine getLsbD_append_low (by decide) ?_
  exact getLsbD_append_ofBool _

theorem encodeIw_reserved : (encodeIw op f).getLsbD 63 = false := getLsbD_append_zero

theorem cwOfWord_encodeCw : cwOfWord (encodeCw c) = c := by
  obtain ⟨imm, modA, modB, modC, rm, sat, mz⟩ := c
  unfold cwOfWord encodeCw
  simp only [CW.mk.injEq]
  refine ⟨?imm, ?modA, ?modB, ?modC, ?rm, ?sat, ?mz⟩
  case imm =>
    repeat refine extractLsb'_append_low (by decide) ?_
    exact BitVec.extractLsb'_eq_self
  case sat | mz =>
    repeat refine getLsbD_append_low (by decide) ?_
    exact getLsbD_append_ofBool _
  all_goals
    repeat refine extractLsb'_append_low (by decide) ?_
    exact BitVec.extractLsb'_append_eq_left

theorem encodeCw_reserved : (encodeCw c).extractLsb' 60 4 = 0 := BitVec.extractLsb'_append_eq_left

theorem pbOfWords_encodePb (pb : PB) : pbOfWords (pb.w1 ++ pb.w0) (pb.w3 ++ pb.w2) = pb := by
  unfold pbOfWords
  exact congr (congr (congr (congrArg PB.mk BitVec.extractLsb'_append_eq_right) BitVec.extractLsb'_append_eq_left)
    BitVec.extractLsb'_append_eq_right) BitVec.extractLsb'_append_eq_left

end

/-! Words put together again from the fields cut out of them. -/

theorem ofBool_getLsbD {w : Nat} (x : BitVec w) (n : Nat) : BitVec.ofBool (x.getLsbD n) = x.extractLsb' n 1 := by
  refine BitVec.eq_of_getLsbD_eq fun i hi => ?_
  obtain rfl : i = 0 := by omega
  simp

/-- Two neighbouring cuts of a word are one. -/
theorem extractLsb'_append_extractLsb' {n m len start top : Nat} {x : BitVec n} {lo : BitVec m} (h : top = start + m)
    (hlo : lo = x.extractLsb' start m) : x.extractLsb' top len ++ lo = x.extractLsb' start (len + m) := by
  rw [hlo, BitVec.extractLsb'_append_extractLsb'_eq_extractLsb' h]

theorem encodeIw_fieldsOfIw (iw : DWord) (h : iw.getLsbD 63 = false) (cw : Option CW) (hx : iw.getLsbD 15 = cw.isSome) :
    encodeIw (iwOp iw) (fieldsOfIw iw cw) = iw := by
  have hr : (0#1 : BitVec 1) = iw.extractLsb' 63 1 := by rw [← ofBool_getLsbD, h]; rfl
  have hc : (fieldsOfIw iw cw).hasCw = iw.getLsbD 15 := by
    rw [hx]
    cases cw <;> rfl
  have ho : BitVec.ofNat 9 (iwOp iw) = iw.extractLsb' 0 9 := by rw [iwOp, BitVec.ofNat_toNat, BitVec.setWidth_eq]
  simp only [encodeIw, hc, ho, hr]
  simp only [fieldsOfIw, ofBool_getLsbD]
  refine Eq.trans (extractLsb'_append_extractLsb' (by decide) ?_) BitVec.extractLsb'_eq_self
  iterate 14 refine extractLsb'_append_extractLsb' (by decide) ?_
  rfl

theorem encodeCw_cwOfWord (w : DWord) (h : w.extractLsb' 60 4 = 0) : encodeCw (cwOfWord w) = w := by
  rw [encodeCw, show (0#4 : BitVec 4) = w.extractLsb' 60 4 from h.symm]
  simp only [cwOfWord, ofBool_getLsbD]
  refine Eq.trans (extractLsb'_append_extractLsb' (by decide) ?_) BitVec.extractLsb'_eq_self
  iterate 6 refine extractLsb'_append_extractLsb' (by decide) ?_
  rfl

theorem extractLsb'_halves (w : DWord) : w.extractLsb' 32 32 ++ w.extractLsb' 0 32 = w := by
  refine Eq.trans (extractLsb'_append_extractLsb' (by decide) ?_) BitVec.extractLsb'_eq_self
  rfl

theorem encodePb_pbOfWords (lo hi : DWord) : encodePb (pbOfWords lo hi) = [lo, hi] := by
  unfold encodePb pbOfWords
  exact congr (congrArg _ (extractLsb'_halves lo)) (congrArg (· :: []) (extractLsb'_halves hi))

/-! Native words. -/

/-- An assigned opcode has nine bits. -/
theorem metaOf_lt {op : Nat} {m : Meta} (h : metaOf op = some m) : op < 512 := by
  by_contra hn
  have : metaOf op = none := by
    unfold metaOf
    repeat rw [if_neg (by omega)]
  rw [this] at h
  cases h

theorem wf_of_rope {i : Instr} {op : Nat} {f : Fields} {pb : PB} (hr : i.rope? = some (op, f, pb)) : i.wf = wfFields op f pb := by
  unfold Instr.wf
  rw [hr]

theorem wfFields_meta {op : Nat} {f : Fields} {pb : PB} (h : wfFields op f pb = true) : ∃ m, metaOf op = some m := by
  cases hm : metaOf op with
  | none => rw [wfFields, hm] at h; cases h
  | some m => exact ⟨m, rfl⟩

theorem rope_pb {i : Instr} {op : Nat} {f : Fields} {pb : PB} (h : i.rope? = some (op, f, pb)) (hp : hasPb op = false) : pb = ⟨0, 0, 0, 0⟩ := by
  have hr := rope_ofOpcode (ofOpcode_rope h)
  rw [h, hp, if_neg Bool.false_ne_true, Option.some.injEq, Prod.mk.injEq, Prod.mk.injEq] at hr
  exact hr.2.2

/-- Without a PB an instruction is what its opcode stands for with a PB of zeros. -/
theorem ofOpcode_noPb {i : Instr} {op : Nat} {f : Fields} {pb : PB} (h : i.rope? = some (op, f, pb)) (hp : hasPb op = false) :
    ofOpcode op f ⟨0#32, 0#32, 0#32, 0#32⟩ = some i := by
  rw [← ofOpcode_rope h, rope_pb h hp]
  rfl

theorem decodeWords_encode {i : Instr} {ws : List DWord} (hwf : i.WellFormed) (h : encode i = some ws) : decodeWords ws = .ok i := by
  unfold encode at h
  split at h
  · cases h
  · next op f pb hr =>
    split at h
    · cases h
    · next cw henc =>
      cases h
      have hf : ({ f with enc := .native cw } : Fields) = f := by rw [← henc]
      have hx : f.hasCw = cw.isSome := by rw [Fields.hasCw, henc]; cases cw <;> rfl
      obtain ⟨m, hm⟩ := wfFields_meta ((wf_of_rope hr).symm.trans hwf)
      have hwf' : i.wf = true := hwf
      simp only [decodeWords, iwOp_encodeIw op f (metaOf_lt hm), hm, encodeIw_reserved, encodeIw_x, hx, fieldsOfIw_encodeIw]
      cases cw with
      | none =>
        cases hp : hasPb op with
        | false => simp [hf, ofOpcode_noPb hr hp, hwf']
        | true => simp [hf, encodePb, pbOfWords_encodePb, ofOpcode_rope hr, hwf']
      | some c =>
        cases hp : hasPb op with
        | false => simp [hf, ofOpcode_noPb hr hp, hwf', encodeCw_reserved, cwOfWord_encodeCw]
        | true => simp [hf, encodePb, pbOfWords_encodePb, ofOpcode_rope hr, hwf', encodeCw_reserved, cwOfWord_encodeCw]

theorem decodeWords_wf {ws : List DWord} {i : Instr} (h : decodeWords ws = .ok i) : i.WellFormed := by
  unfold decodeWords at h
  simp only [] at h
  repeat' split at h
  all_goals cases h
  all_goals assumption

/-- The words of an instruction that an opcode stands for. -/
theorem encode_ofOpcode {op : Nat} {f : Fields} {cw : Option CW} {pb : PB} {i : Instr} (h : ofOpcode op f pb = some i) (hf : f.enc = .native cw) :
    encode i = some (encodeIw op f :: (cw.toList.map encodeCw ++ if hasPb op then encodePb pb else [])) := by
  unfold encode
  rw [rope_ofOpcode h]
  simp only [hf]
  cases cw <;> cases hasPb op <;> simp

theorem bind_wf {o : Option Instr} {i : Instr} (h : (match o with
    | none => .error DecodeErr.unassigned
    | some i => if i.wf then .ok i else .error .illFormed) = Except.ok i) : o = some i := by
  split at h
  · cases h
  · split at h <;> cases h
    rfl

theorem encode_decodeWords {ws : List DWord} {i : Instr} (h : decodeWords ws = .ok i) :
    encode i = some (ws.take (iwLength (ws.headD 0) / 8)) := by
  cases ws with
  | nil => cases h
  | cons iw rest =>
    simp only [decodeWords] at h
    split at h
    · cases h
    · split at h
      · cases h
      · next h63 =>
        replace h63 := Bool.eq_false_iff.2 h63
        cases hx : iw.getLsbD 15 with
        | false =>
          have hiw := encodeIw_fieldsOfIw iw h63 none hx
          cases hp : hasPb (iwOp iw) with
          | false =>
            simp only [hx, hp, Bool.false_eq_true, if_false] at h
            split at h
            · cases h
            · rw [encode_ofOpcode (bind_wf h) rfl, hiw, iwLength, List.headD_cons, hx, hp]
              rfl
          | true =>
            simp only [hx, hp, Bool.false_eq_true, if_false, if_true] at h
            split at h
            · cases h
            · split at h
              · cases h
              · next pb hpb =>
                split at hpb
                · next lo hi r _ =>
                  cases hpb
                  rw [encode_ofOpcode (bind_wf h) rfl, hiw, encodePb_pbOfWords, iwLength, List.headD_cons, hx, hp]
                  rfl
                · cases hpb
        | true =>
          cases rest with
          | nil => simp only [hx, if_true, List.head?_nil] at h; cases h
          | cons w rest =>
            have hiw := encodeIw_fieldsOfIw iw h63 (some (cwOfWord w)) hx
            cases hp : hasPb (iwOp iw) with
            | false =>
              simp only [hx, hp, Bool.false_eq_true, if_false, if_true, List.head?_cons] at h
              split at h
              · cases h
              · next h60 =>
                have hcw := encodeCw_cwOfWord w (by simpa using h60)
                rw [encode_ofOpcode (bind_wf h) rfl, hiw, iwLength, List.headD_cons, hx, hp, Option.toList_some, List.map_singleton, hcw]
                rfl
            | true =>
              simp only [hx, hp, if_true, List.head?_cons, List.tail_cons] at h
              split at h
              · cases h
              · next h60 =>
                have hcw := encodeCw_cwOfWord w (by simpa using h60)
                split at h
                · cases h
                · next pb hpb =>
                  split at hpb
                  · next lo hi r =>
                    cases hpb
                    rw [encode_ofOpcode (bind_wf h) rfl, hiw, encodePb_pbOfWords, iwLength, List.headD_cons, hx, hp, Option.toList_some,
                      List.map_singleton, hcw]
                    rfl
                  · cases hpb

/-! Choarnif words (R373). -/

section
variable {op : Nat} {br w2 : Bool} {f : Fields} {c : C1}

theorem encodeC0_op (h : op < 512) : ((encodeC0 op br w2 f).extractLsb' 0 9).toNat = op := by
  have he : (encodeC0 op br w2 f).extractLsb' 0 9 = BitVec.ofNat 9 op := by
    unfold encodeC0
    repeat refine extractLsb'_append_low (by decide) ?_
    exact BitVec.extractLsb'_eq_self
  rw [he, BitVec.toNat_ofNat, Nat.mod_eq_of_lt h]

theorem encodeC0_w2 : (encodeC0 op br w2 f).getLsbD 9 = w2 := by
  unfold encodeC0
  repeat refine getLsbD_append_low (by decide) ?_
  exact getLsbD_append_ofBool _

theorem encodeC0_d : (encodeC0 op br w2 f).extractLsb' 10 6 = f.d.setWidth 6 := by
  unfold encodeC0
  repeat refine extractLsb'_append_low (by decide) ?_
  exact BitVec.extractLsb'_append_eq_left

theorem encodeC0_a : (encodeC0 op br w2 f).extractLsb' 16 6 = if br then 0#6 else f.a.setWidth 6 := by
  unfold encodeC0
  repeat refine extractLsb'_append_low (by decide) ?_
  exact BitVec.extractLsb'_append_eq_left

theorem encodeC0_b : (encodeC0 op br w2 f).extractLsb' 22 6 = if br then 0#6 else f.b.setWidth 6 := by
  unfold encodeC0
  repeat refine extractLsb'_append_low (by decide) ?_
  exact BitVec.extractLsb'_append_eq_left

theorem encodeC0_pg : (encodeC0 op br w2 f).extractLsb' 28 3 = f.pg := by
  unfold encodeC0
  repeat refine extractLsb'_append_low (by decide) ?_
  exact BitVec.extractLsb'_append_eq_left

theorem encodeC0_pgn : (encodeC0 op br w2 f).getLsbD 31 = f.pgn := getLsbD_append_ofBool _

/-- In signature BR the bits of A and B are 0. -/
theorem encodeC0_br : (encodeC0 op true w2 f).extractLsb' 16 12 = 0 := by
  have ha : (encodeC0 op true w2 f).extractLsb' 16 6 = 0#6 := encodeC0_a
  have hb : (encodeC0 op true w2 f).extractLsb' 22 6 = 0#6 := encodeC0_b
  have h := extractLsb'_append_extractLsb' (top := 22) (len := 6) rfl ha.symm
  rw [hb] at h
  exact h.symm

/-- The fields of a C1 that holds OFF24. -/
theorem encodeC1_br : (encodeC1 true f c).extractLsb' 0 8 = f.a ∧ (encodeC1 true f c).extractLsb' 8 8 = f.b ∧
    (encodeC1 true f c).extractLsb' 16 8 = f.c ∧ (encodeC1 true f c).extractLsb' 24 8 = 0 := by
  unfold encodeC1
  simp only [if_true]
  refine ⟨?_, ?_, ?_, BitVec.extractLsb'_append_eq_left⟩
  · iterate 2 refine extractLsb'_append_low (by decide) ?_
    exact BitVec.extractLsb'_append_eq_right
  · iterate 1 refine extractLsb'_append_low (by decide) ?_
    exact extractLsb'_append_low (by decide) BitVec.extractLsb'_append_eq_left
  · exact extractLsb'_append_low (by decide) BitVec.extractLsb'_append_eq_left

/-- The fields of a C1 of another signature. -/
theorem encodeC1_plain : ((encodeC1 false f c).extractLsb' 0 8 = f.c ∧ (encodeC1 false f c).extractLsb' 8 4 = f.ma ∧
    (encodeC1 false f c).extractLsb' 13 4 = f.mb ∧ (encodeC1 false f c).extractLsb' 18 2 = c.rm ∧ (encodeC1 false f c).extractLsb' 23 9 = 0) ∧
    (encodeC1 false f c).getLsbD 12 = f.mae ∧ (encodeC1 false f c).getLsbD 17 = f.mbe ∧ (encodeC1 false f c).getLsbD 20 = c.sat ∧
    (encodeC1 false f c).getLsbD 21 = c.mz ∧ (encodeC1 false f c).getLsbD 22 = f.y := by
  unfold encodeC1
  simp only [Bool.false_eq_true, if_false]
  refine ⟨⟨?c, ?ma, ?mb, ?rm, ?rsv⟩, ?mae, ?mbe, ?sat, ?mz, ?y⟩
  case c =>
    iterate 8 refine extractLsb'_append_low (by decide) ?_
    exact BitVec.extractLsb'_append_eq_right
  case ma | mb | rm | rsv =>
    repeat refine extractLsb'_append_low (by decide) ?_
    exact BitVec.extractLsb'_append_eq_left
  all_goals
    repeat refine getLsbD_append_low (by decide) ?_
    exact getLsbD_append_ofBool _

end

theorem setWidth_of_le {x : BitVec 8} (h : x.toNat ≤ 63) : (x.setWidth 6).setWidth 8 = x := by
  refine BitVec.eq_of_toNat_eq ?_
  simp only [BitVec.toNat_setWidth]
  omega

/-- Fields are equal where each is; TC follows from the maps where the class decides it (R373). -/
theorem fields_eq {f g : Fields} {m : Meta} (htc : g.tc = BitVec.ofNat 2 (min 3 (classOf g m))) (htc' : f.tc = BitVec.ofNat 2 (min 3 (classOf f m)))
    (hst : f.stall = g.stall) (hd : f.d = g.d) (hab : f.a = g.a ∧ f.b = g.b ∧ f.c = g.c) (hpg : f.pg = g.pg ∧ f.pgn = g.pgn)
    (hma : f.ma = g.ma ∧ f.mae = g.mae) (hmb : f.mb = g.mb ∧ f.mbe = g.mbe) (hy : f.y = g.y) (he : f.enc = g.enc) : f = g := by
  have hc : classOf f m = classOf g m := by rw [classOf, classOf, hma.2, hmb.2]
  rw [hc, ← htc] at htc'
  obtain ⟨ha, hb, hcc⟩ := hab
  obtain ⟨hpg, hpgn⟩ := hpg
  obtain ⟨hma, hmae⟩ := hma
  obtain ⟨hmb, hmbe⟩ := hmb
  cases f
  cases g
  subst htc' hst hd ha hb hcc hpg hpgn hma hmae hmb hmbe hy he
  rfl

section
variable {op : Nat} {m : Meta} {f : Fields} {cc : Option C1}

/-- What R373 says of every Choarnif instruction. -/
theorem choarnifOk_all (hf : f.enc = .choarnif cc) (h : choarnifOk op m f = true) :
    hasPb op = false ∧ f.d.toNat ≤ 63 ∧ f.tc = BitVec.ofNat 2 (min 3 (classOf f m)) ∧ f.stall = 0 := by
  simp only [choarnifOk, hf, Bool.and_eq_true, decide_eq_true_eq, Bool.not_eq_true', beq_iff_eq] at h
  obtain ⟨⟨⟨⟨⟨hp, hd⟩, htc⟩, hst⟩, -⟩, -⟩ := h
  exact ⟨hp, hd, by rw [← htc, BitVec.ofNat_toNat, BitVec.setWidth_eq], hst⟩

/-- In signature BR there is a C1, and neither maps nor a CW. -/
theorem choarnifOk_br (hf : f.enc = .choarnif cc) (h : choarnifOk op m f = true) (hbr : m.sig = .br) :
    cc = some ⟨0, false, false⟩ ∧ (f.ma = 0 ∧ f.mae = false) ∧ (f.mb = 0 ∧ f.mbe = false) ∧ f.y = false := by
  simp only [choarnifOk, hf, Bool.and_eq_true] at h
  obtain ⟨-, h⟩ := h
  cases cc with
  | none => simp [hbr] at h
  | some c =>
    have hn : noCw f = decide (c = ⟨0, false, false⟩) := by rw [noCw, hf]
    simp [hbr, hn] at h
    obtain ⟨⟨⟨⟨⟨hmae, hmbe⟩, hma⟩, hmb⟩, hy⟩, rfl⟩ := h
    exact ⟨rfl, ⟨hma, hmae⟩, ⟨hmb, hmbe⟩, hy⟩

/-- In another signature A and B have six bits, and without a C1 all that it holds is 0. -/
theorem choarnifOk_plain (hf : f.enc = .choarnif cc) (h : choarnifOk op m f = true) (hbr : m.sig ≠ .br) :
    (f.a.toNat ≤ 63 ∧ f.b.toNat ≤ 63) ∧
      (cc = none → f.c = 0 ∧ (f.ma = 0 ∧ f.mae = false) ∧ (f.mb = 0 ∧ f.mbe = false) ∧ f.y = false) := by
  simp only [choarnifOk, hf, Bool.and_eq_true, Bool.or_eq_true, beq_iff_eq, hbr, false_or, decide_eq_true_eq] at h
  obtain ⟨⟨-, hab⟩, h⟩ := h
  refine ⟨hab, ?_⟩
  rintro rfl
  simp [hbr] at h
  obtain ⟨⟨⟨⟨⟨hc, hmae⟩, hmbe⟩, hma⟩, hmb⟩, hy⟩ := h
  exact ⟨hc, ⟨hma, hmae⟩, ⟨hmb, hmbe⟩, hy⟩

/-- What Choarnif can say of an instruction, it says in its words: the fields come back. -/
theorem fieldsOfChoarnif_encode (hf : f.enc = .choarnif cc) (h : choarnifOk op m f = true) :
    fieldsOfChoarnif m (encodeC0 op (m.sig == .br) cc.isSome f) (cc.map (encodeC1 (m.sig == .br) f)) = f := by
  obtain ⟨-, hd, htc, hst⟩ := choarnifOk_all hf h
  have hd' : ((encodeC0 op (m.sig == .br) cc.isSome f).extractLsb' 10 6).setWidth 8 = f.d := by rw [encodeC0_d, setWidth_of_le hd]
  by_cases hbr : m.sig = .br
  · obtain ⟨rfl, ⟨hma, hmae⟩, ⟨hmb, hmbe⟩, hy⟩ := choarnifOk_br hf h hbr
    have hb : (m.sig == .br) = true := by rw [hbr]; rfl
    rw [hb] at hd' ⊢
    obtain ⟨ea, eb, ec, -⟩ := encodeC1_br (f := f) (c := ⟨0, false, false⟩)
    refine fields_eq (m := m) htc rfl hst.symm hd' ?_ ⟨encodeC0_pg, encodeC0_pgn⟩ ?_ ?_ ?_ ?_ <;>
      simp only [fieldsOfChoarnif, hb, if_true, Option.map_some, Option.getD_some, Bool.not_true, Bool.false_and, ea, eb, ec, hma, hmae, hmb, hmbe, hy,
        hf, and_self]
  · obtain ⟨⟨ha, hb'⟩, hnone⟩ := choarnifOk_plain hf h hbr
    have hb : (m.sig == .br) = false := by simpa using hbr
    rw [hb] at hd' ⊢
    have ea : ((encodeC0 op false cc.isSome f).extractLsb' 16 6).setWidth 8 = f.a := by
      rw [encodeC0_a, if_neg Bool.false_ne_true, setWidth_of_le ha]
    have eb : ((encodeC0 op false cc.isSome f).extractLsb' 22 6).setWidth 8 = f.b := by
      rw [encodeC0_b, if_neg Bool.false_ne_true, setWidth_of_le hb']
    cases cc with
    | none =>
      obtain ⟨hc, ⟨hma, hmae⟩, ⟨hmb, hmbe⟩, hy⟩ := hnone rfl
      refine fields_eq (m := m) htc rfl hst.symm hd' ?_ ⟨encodeC0_pg, encodeC0_pgn⟩ ?_ ?_ ?_ ?_ <;>
        simp only [fieldsOfChoarnif, hb, Bool.false_eq_true, if_false, Option.map_none, Option.getD_none, Bool.not_false, Bool.true_and, ea, eb, hc, hma, hmae, hmb,
          hmbe, hy, hf] <;>
        decide
    | some c =>
      obtain ⟨⟨hc, hma, hmb, hrm, -⟩, hmae, hmbe, hsat, hmz, hy⟩ := encodeC1_plain (f := f) (c := c)
      refine fields_eq (m := m) htc rfl hst.symm hd' ?_ ⟨encodeC0_pg, encodeC0_pgn⟩ ?_ ?_ ?_ ?_ <;>
        simp only [fieldsOfChoarnif, hb, Bool.false_eq_true, if_false, Option.map_some, Option.getD_some, Bool.not_false, Bool.true_and, ea, eb, hc, hma, hmae, hmb,
          hmbe, hrm, hsat, hmz, hy, hf, and_self]

end

/-- The reserved bits of an encoded Choarnif instruction are 0. -/
theorem encodeChoarnif_reserved {op : Nat} {m : Meta} {f : Fields} {cc : Option C1} (hf : f.enc = .choarnif cc) (h : choarnifOk op m f = true) :
    (if m.sig == .br then ((cc.map (encodeC1 (m.sig == .br) f)).getD 0).extractLsb' 24 8 != 0 ||
        (encodeC0 op (m.sig == .br) cc.isSome f).extractLsb' 16 12 != 0
      else ((cc.map (encodeC1 (m.sig == .br) f)).getD 0).extractLsb' 23 9 != 0) = false := by
  cases hb : m.sig == .br with
  | true =>
    obtain ⟨rfl, -⟩ := choarnifOk_br hf h (by simpa using hb)
    rw [if_pos rfl, Option.map_some, Option.getD_some, encodeC1_br.2.2.2, encodeC0_br]
    rfl
  | false =>
    rw [if_neg Bool.false_ne_true]
    cases cc with
    | none =>
      rw [Option.map_none, Option.getD_none]
      decide
    | some c =>
      rw [Option.map_some, Option.getD_some, encodeC1_plain.1.2.2.2.2]
      rfl

theorem decodeChoarnif_encode {i : Instr} {c0 : Word} {c1 : Option Word} (hwf : i.WellFormed) (h : encodeChoarnif i = some (c0, c1)) :
    decodeChoarnif c0 c1 = .ok i := by
  unfold encodeChoarnif at h
  split at h
  · cases h
  · next op f pb hr =>
    have hw : wfFields op f pb = true := (wf_of_rope hr).symm.trans hwf
    have hwf' : i.wf = true := hwf
    split at h
    · next m cc hm henc =>
      cases h
      have hok : choarnifOk op m f = true := by
        rw [wfFields, hm] at hw
        simp only [Bool.and_eq_true] at hw
        exact hw.1.2
      have hfields := fieldsOfChoarnif_encode henc hok
      have hrsv := encodeChoarnif_reserved henc hok
      have hi : ofOpcode op f ⟨0, 0, 0, 0⟩ = some i := ofOpcode_noPb hr (choarnifOk_all henc hok).1
      unfold decodeChoarnif
      simp only [encodeC0_op (metaOf_lt hm), hm, encodeC0_w2]
      cases cc with
      | none =>
        simp only [Option.map_none, Option.isSome_none, Bool.false_eq_true, if_false] at hfields hrsv ⊢
        simp only [hfields, hrsv, hi, hwf', Bool.false_eq_true, if_false, if_true]
      | some c =>
        simp only [Option.map_some, Option.isSome_some, if_true] at hfields hrsv ⊢
        simp only [hfields, hrsv, hi, hwf', Bool.false_eq_true, if_false, if_true]
    · cases h

theorem decodeChoarnif_wf {c0 : Word} {c1 : Option Word} {i : Instr} (h : decodeChoarnif c0 c1 = .ok i) : i.WellFormed := by
  unfold decodeChoarnif at h
  simp only [] at h
  repeat' split at h
  all_goals cases h
  all_goals assumption

section
variable {w : Word} {f : Fields}

theorem setWidth_narrow (x : BitVec 6) : (x.setWidth 8).setWidth 6 = x := by
  rw [BitVec.setWidth_setWidth_of_le _ (by decide), BitVec.setWidth_eq]

/-- A C0 put together again. -/
theorem encodeC0_of {br w2 : Bool} (hw : w2 = w.getLsbD 9) (hd : f.d.setWidth 6 = w.extractLsb' 10 6) (ha : (if br then 0#6 else f.a.setWidth 6) = w.extractLsb' 16 6)
    (hb : (if br then 0#6 else f.b.setWidth 6) = w.extractLsb' 22 6) (hpg : f.pg = w.extractLsb' 28 3) (hpgn : f.pgn = w.getLsbD 31) :
    encodeC0 (w.extractLsb' 0 9).toNat br w2 f = w := by
  have ho : BitVec.ofNat 9 (w.extractLsb' 0 9).toNat = w.extractLsb' 0 9 := by rw [BitVec.ofNat_toNat, BitVec.setWidth_eq]
  simp only [encodeC0, hw, hd, ha, hb, hpg, hpgn, ho, ofBool_getLsbD]
  refine Eq.trans (extractLsb'_append_extractLsb' (by decide) ?_) BitVec.extractLsb'_eq_self
  iterate 5 refine extractLsb'_append_extractLsb' (by decide) ?_
  rfl

/-- A C1 with OFF24 put together again. -/
theorem encodeC1_of_br {c : C1} (hr : w.extractLsb' 24 8 = 0) (ha : f.a = w.extractLsb' 0 8) (hb : f.b = w.extractLsb' 8 8)
    (hc : f.c = w.extractLsb' 16 8) : encodeC1 true f c = w := by
  simp only [encodeC1, if_true, ha, hb, hc, show (0#8 : BitVec 8) = w.extractLsb' 24 8 from hr.symm]
  refine Eq.trans (extractLsb'_append_extractLsb' (by decide) ?_) BitVec.extractLsb'_eq_self
  iterate 2 refine extractLsb'_append_extractLsb' (by decide) ?_
  rfl

/-- A C1 of another signature put together again. -/
theorem encodeC1_of_plain (hr : w.extractLsb' 23 9 = 0) (hc : f.c = w.extractLsb' 0 8) (hma : f.ma = w.extractLsb' 8 4 ∧ f.mae = w.getLsbD 12)
    (hmb : f.mb = w.extractLsb' 13 4 ∧ f.mbe = w.getLsbD 17) (hy : f.y = w.getLsbD 22) :
    encodeC1 false f ⟨w.extractLsb' 18 2, w.getLsbD 20, w.getLsbD 21⟩ = w := by
  simp only [encodeC1, Bool.false_eq_true, if_false, hc, hma, hmb, hy, ofBool_getLsbD, show (0#9 : BitVec 9) = w.extractLsb' 23 9 from hr.symm]
  refine Eq.trans (extractLsb'_append_extractLsb' (by decide) ?_) BitVec.extractLsb'_eq_self
  iterate 8 refine extractLsb'_append_extractLsb' (by decide) ?_
  rfl

end

/-- A cut of bits that are 0. -/
theorem extractLsb'_of_zero {w : Word} (h : w.extractLsb' 16 12 = 0) (j : Nat) (hj : j + 6 ≤ 12) : w.extractLsb' (16 + j) 6 = 0#6 := by
  have he : w.extractLsb' (16 + j) 6 = (w.extractLsb' 16 12).extractLsb' j 6 := by
    refine BitVec.eq_of_getLsbD_eq fun i hi => ?_
    rw [BitVec.getLsbD_extractLsb', BitVec.getLsbD_extractLsb', BitVec.getLsbD_extractLsb', decide_eq_true hi,
      decide_eq_true (show j + i < 12 by omega), Nat.add_assoc, Bool.true_and, Bool.true_and]
  rw [he, h]
  simp

/-- The words of a Choarnif instruction are those that its fields were read from. -/
theorem encodeC_fieldsOfChoarnif {c0 : Word} {c1 : Option Word} {m : Meta} (hw2 : c1.isSome = c0.getLsbD 9)
    (hrsv : (if m.sig == .br then (c1.getD 0).extractLsb' 24 8 != 0 || c0.extractLsb' 16 12 != 0 else (c1.getD 0).extractLsb' 23 9 != 0) = false) :
    ∃ cc, (fieldsOfChoarnif m c0 c1).enc = .choarnif cc ∧
      encodeC0 (c0.extractLsb' 0 9).toNat (m.sig == .br) cc.isSome (fieldsOfChoarnif m c0 c1) = c0 ∧
      cc.map (encodeC1 (m.sig == .br) (fieldsOfChoarnif m c0 c1)) = c1 := by
  cases hb : m.sig == .br with
  | true =>
    rw [hb, if_pos rfl, Bool.or_eq_false_iff, bne_eq_false_iff_eq, bne_eq_false_iff_eq] at hrsv
    obtain ⟨h24, h16⟩ := hrsv
    refine ⟨_, rfl, encodeC0_of (by rw [← hw2]; cases c1 <;> rfl) (setWidth_narrow _) (extractLsb'_of_zero h16 0 (by decide)).symm
      (extractLsb'_of_zero h16 6 (by decide)).symm rfl rfl, ?_⟩
    cases c1 with
    | none => rfl
    | some c =>
      exact congrArg some (encodeC1_of_br h24 (by simp [fieldsOfChoarnif, hb]) (by simp [fieldsOfChoarnif, hb]) (by simp [fieldsOfChoarnif, hb]))
  | false =>
    rw [hb, if_neg Bool.false_ne_true, bne_eq_false_iff_eq] at hrsv
    have hab : (fieldsOfChoarnif m c0 c1).a = (c0.extractLsb' 16 6).setWidth 8 ∧ (fieldsOfChoarnif m c0 c1).b = (c0.extractLsb' 22 6).setWidth 8 := by
      simp [fieldsOfChoarnif, hb]
    refine ⟨_, rfl, encodeC0_of (by rw [← hw2]; cases c1 <;> rfl) (setWidth_narrow _) ?_ ?_ rfl rfl, ?_⟩
    · rw [if_neg Bool.false_ne_true, hab.1, setWidth_narrow]
    · rw [if_neg Bool.false_ne_true, hab.2, setWidth_narrow]
    · cases c1 with
      | none => rfl
      | some c =>
        refine congrArg some ?_
        simp only [hb]
        exact encodeC1_of_plain hrsv (by simp [fieldsOfChoarnif, hb]) (by simp [fieldsOfChoarnif, hb]) (by simp [fieldsOfChoarnif, hb]) (by simp [fieldsOfChoarnif, hb])

theorem encode_decodeChoarnif {c0 : Word} {c1 : Option Word} {i : Instr} (h : decodeChoarnif c0 c1 = .ok i) :
    encodeChoarnif i = some (c0, if c0.getLsbD 9 then c1 else none) := by
  unfold decodeChoarnif at h
  simp only [] at h
  split at h
  · cases h
  · next m hm =>
    split at h
    · cases h
    · next c1 _ _ hw2 =>
      generalize hc : (if c0.getLsbD 9 then c1 else none) = c at h
      have hsome : c.isSome = c0.getLsbD 9 := by
        rw [← hc]
        cases h9 : c0.getLsbD 9 with
        | false => rfl
        | true =>
          cases c1 with
          | none => exact absurd rfl (hw2 h9)
          | some _ => rfl
      by_cases hrsv : (if m.sig == .br then (c.getD 0).extractLsb' 24 8 != 0 || c0.extractLsb' 16 12 != 0 else (c.getD 0).extractLsb' 23 9 != 0) = true
      · rw [if_pos hrsv] at h
        cases h
      · rw [if_neg hrsv] at h
        obtain ⟨cc, he, h0, h1⟩ := encodeC_fieldsOfChoarnif hsome (Bool.eq_false_iff.2 hrsv)
        unfold encodeChoarnif
        rw [rope_ofOpcode (bind_wf h)]
        simp only [hm, he, h0, h1]

/-! Copy words (R211). -/

section
variable {w : DWord} {sh : Shape}

/-- The opcode and the fields of a copy word. -/
theorem copyWord_fields {co : Nat} (h : co < 256) (c : CopyWord) {w : DWord} (hw : w = c.hi ++ (c.mid ++ (c.lo ++ BitVec.ofNat 8 co))) :
    (w.extractLsb' 0 8).toNat = co ∧ (⟨w.extractLsb' 8 12, w.extractLsb' 20 12, w.extractLsb' 32 32⟩ : CopyWord) = c := by
  subst hw
  have hco : (c.hi ++ (c.mid ++ (c.lo ++ BitVec.ofNat 8 co)) : DWord).extractLsb' 0 8 = BitVec.ofNat 8 co := by
    iterate 2 refine extractLsb'_append_low (by decide) ?_
    exact BitVec.extractLsb'_append_eq_right
  have hlo : (c.hi ++ (c.mid ++ (c.lo ++ BitVec.ofNat 8 co)) : DWord).extractLsb' 8 12 = c.lo := by
    iterate 2 refine extractLsb'_append_low (by decide) ?_
    exact BitVec.extractLsb'_append_eq_left
  have hmid : (c.hi ++ (c.mid ++ (c.lo ++ BitVec.ofNat 8 co)) : DWord).extractLsb' 20 12 = c.mid :=
    extractLsb'_append_low (by decide) BitVec.extractLsb'_append_eq_left
  have hhi : (c.hi ++ (c.mid ++ (c.lo ++ BitVec.ofNat 8 co)) : DWord).extractLsb' 32 32 = c.hi := BitVec.extractLsb'_append_eq_left
  rw [hco, BitVec.toNat_ofNat, hlo, hmid, hhi]
  exact ⟨Nat.mod_eq_of_lt h, rfl⟩

/-- The instruction of a copy opcode, a shape record behind XFER and FILL. -/
noncomputable def copyRow (w : CopyWord) (sh : Shape) : Nat → Option Instr
  | 0x01 => some (.copyXfer w sh)
  | 0x02 => some (.copyFill w sh)
  | 0x03 => some (.copySete w)
  | 0x04 => some (.copyAdde w)
  | 0x05 => some (.copyLoop w)
  | 0x06 => some (.copySems w)
  | 0x07 => some (.copySemw w)
  | 0x08 => some (.copyBarr w)
  | 0x09 => some (.copyDone w)
  | 0x0A => some (.copyEnd w)
  | _ => none

theorem decodeCopy_eq (w : DWord) (sh : Shape) : decodeCopy w sh =
    ((copyRow ⟨w.extractLsb' 8 12, w.extractLsb' 20 12, w.extractLsb' 32 32⟩ sh (w.extractLsb' 0 8).toNat).elim (.error .unassigned)
      (fun i => if i.wf then .ok i else .error .illFormed)) := by
  have step : ∀ o : Option Instr, (match o with
      | none => .error DecodeErr.unassigned
      | some i => if i.wf then .ok i else .error .illFormed) = o.elim (Except.error DecodeErr.unassigned) (fun i => if i.wf then .ok i else .error .illFormed) :=
    fun o => by cases o <;> rfl
  exact step _

theorem copyRow_copy {i : Instr} {co : Nat} {c : CopyWord} {s : Option Shape} (h : i.copy? = some (co, c, s)) (hs : s = none ∨ s = some sh) :
    co < 256 ∧ copyRow c sh co = some i := by
  cases i
  all_goals cases h
  case copyXfer | copyFill =>
    obtain hs := hs.resolve_left nofun
    cases hs
    exact ⟨by decide, rfl⟩
  all_goals exact ⟨by decide, rfl⟩

theorem copy_copyRow {i : Instr} {co : Nat} {c : CopyWord} (h : copyRow c sh co = some i) : ∃ s, i.copy? = some (co, c, s) := by
  unfold copyRow at h
  split at h
  all_goals cases h
  all_goals exact ⟨_, rfl⟩

theorem decodeCopy_encode {i : Instr} {co : Nat} {c : CopyWord} {s : Option Shape} (hwf : i.WellFormed) (hc : i.copy? = some (co, c, s))
    (hs : s = none ∨ s = some sh) (h : encodeCopy i = some w) : decodeCopy w sh = .ok i := by
  obtain ⟨hlt, hrow⟩ := copyRow_copy hc hs
  rw [encodeCopy, hc] at h
  obtain ⟨hco, hf⟩ := copyWord_fields hlt c (Option.some.inj h).symm
  rw [decodeCopy_eq, hco, hf, hrow]
  exact if_pos hwf

theorem decode_elim {o : Option Instr} {i : Instr}
    (h : o.elim (.error DecodeErr.unassigned) (fun i => if i.wf then .ok i else .error .illFormed) = Except.ok i) : o = some i ∧ i.WellFormed := by
  cases o with
  | none => cases h
  | some j =>
    simp only [Option.elim_some] at h
    split at h
    · next hwf =>
      cases h
      exact ⟨rfl, hwf⟩
    · cases h

theorem encode_decodeCopy {i : Instr} (h : decodeCopy w sh = .ok i) : i.WellFormed ∧ encodeCopy i = some w := by
  rw [decodeCopy_eq] at h
  obtain ⟨hrow, hwf⟩ := decode_elim h
  obtain ⟨s, hc⟩ := copy_copyRow hrow
  refine ⟨hwf, ?_⟩
  rw [encodeCopy, hc]
  refine congrArg some ?_
  simp only []
  rw [BitVec.ofNat_toNat, BitVec.setWidth_eq]
  refine Eq.trans (extractLsb'_append_extractLsb' (by decide) ?_) BitVec.extractLsb'_eq_self
  iterate 2 refine extractLsb'_append_extractLsb' (by decide) ?_
  rfl

end

/-! Task entries (R246, R247). -/

section
variable {e : BitVec 256}

/-- An entry of eight words. -/
def entryOf (w0 w1 w2 w3 w4 w5 w6 w7 : Word) : BitVec 256 := w7 ++ (w6 ++ (w5 ++ (w4 ++ (w3 ++ (w2 ++ (w1 ++ w0))))))

theorem entryWord_entryOf (w0 w1 w2 w3 w4 w5 w6 w7 : Word) (hz : entryOf w0 w1 w2 w3 w4 w5 w6 w7 = e) :
    entryWord e 0 = w0 ∧ entryWord e 1 = w1 ∧ entryWord e 2 = w2 ∧ entryWord e 3 = w3 ∧ entryWord e 4 = w4 ∧ entryWord e 5 = w5 ∧
      entryWord e 6 = w6 ∧ entryWord e 7 = w7 := by
  subst hz
  unfold entryWord entryOf
  refine ⟨?zero, ?_, ?_, ?_, ?_, ?_, ?_, ?_⟩
  case zero =>
    iterate 6 refine extractLsb'_append_low (by decide) ?_
    exact BitVec.extractLsb'_append_eq_right
  all_goals
    repeat refine extractLsb'_append_low (by decide) ?_
    exact BitVec.extractLsb'_append_eq_left

theorem entryOf_entryWord (e : BitVec 256) : entryOf (entryWord e 0) (entryWord e 1) (entryWord e 2) (entryWord e 3) (entryWord e 4) (entryWord e 5)
    (entryWord e 6) (entryWord e 7) = e := by
  unfold entryOf entryWord
  refine Eq.trans (extractLsb'_append_extractLsb' (by decide) ?_) BitVec.extractLsb'_eq_self
  iterate 6 refine extractLsb'_append_extractLsb' (by decide) ?_
  rfl

/-- A word of a bit and 31 bits. -/
theorem ofBool_append_extractLsb' (w : Word) : (BitVec.ofBool (w.getLsbD 31) ++ w.extractLsb' 0 31 : Word) = w := by
  rw [ofBool_getLsbD]
  refine Eq.trans (extractLsb'_append_extractLsb' (by decide) ?_) BitVec.extractLsb'_eq_self
  rfl

theorem extOfEntry_encodeExt (x : TaskExt) : extOfEntry (encodeExt x) = x := by
  obtain ⟨h0, h1, h2, h3, h4, h5, h6, h7⟩ := entryWord_entryOf (e := encodeExt x) (BitVec.ofBool x.ph ++ x.x0) x.x1 x.x2 x.x3 x.x4 x.x5 x.x6 x.x7 rfl
  rw [extOfEntry, h0, h1, h2, h3, h4, h5, h6, h7]
  have hp : (BitVec.ofBool x.ph ++ x.x0 : Word).getLsbD 31 = x.ph := getLsbD_append_ofBool _
  have hx : (BitVec.ofBool x.ph ++ x.x0 : Word).extractLsb' 0 31 = x.x0 := BitVec.extractLsb'_append_eq_right
  rw [hp, hx]

theorem encodeExt_extOfEntry (e : BitVec 256) : encodeExt (extOfEntry e) = e := by
  refine Eq.trans ?_ (entryOf_entryWord e)
  exact congrArg (fun w => entryOf w (entryWord e 1) (entryWord e 2) (entryWord e 3) (entryWord e 4) (entryWord e 5) (entryWord e 6) (entryWord e 7))
    (ofBool_append_extractLsb' (entryWord e 0))

/-- The first entry of a task. -/
def taskEntry (top : Nat) (t : TaskWord) : BitVec 256 :=
  entryOf (BitVec.ofBool t.ph ++ (t.t0 ++ BitVec.ofNat 8 top)) t.t1 t.t2 t.t3 t.t4 t.t5 t.t6 t.t7

theorem encodeTask_eq {i : Instr} {top : Nat} {t : TaskWord} (h : i.task? = some (top, t)) :
    encodeTask i = some (taskEntry top t :: t.ext.map encodeExt) := by
  rw [encodeTask, h]
  rfl

theorem taskEntry_top {top : Nat} (h : top < 256) (t : TaskWord) : ((entryWord (taskEntry top t) 0).extractLsb' 0 8).toNat = top := by
  obtain ⟨h0, -⟩ := entryWord_entryOf (e := taskEntry top t) _ _ _ _ _ _ _ _ rfl
  have ht : (BitVec.ofBool t.ph ++ (t.t0 ++ BitVec.ofNat 8 top) : Word).extractLsb' 0 8 = BitVec.ofNat 8 top :=
    extractLsb'_append_low (by decide) BitVec.extractLsb'_append_eq_right
  rw [h0, ht, BitVec.toNat_ofNat, Nat.mod_eq_of_lt h]

theorem taskOfEntries_taskEntry (top : Nat) (t : TaskWord) : taskOfEntries (taskEntry top t) (t.ext.map encodeExt) = t := by
  obtain ⟨h0, h1, h2, h3, h4, h5, h6, h7⟩ := entryWord_entryOf (e := taskEntry top t) _ _ _ _ _ _ _ _ rfl
  have hp : (BitVec.ofBool t.ph ++ (t.t0 ++ BitVec.ofNat 8 top) : Word).getLsbD 31 = t.ph := getLsbD_append_ofBool _
  have ht : (BitVec.ofBool t.ph ++ (t.t0 ++ BitVec.ofNat 8 top) : Word).extractLsb' 8 23 = t.t0 :=
    extractLsb'_append_low (by decide) BitVec.extractLsb'_append_eq_left
  have hx : (t.ext.map encodeExt).map extOfEntry = t.ext := by
    rw [List.map_map]
    exact List.map_id'' extOfEntry_encodeExt _
  rw [taskOfEntries, h0, h1, h2, h3, h4, h5, h6, h7, hp, ht, hx]

theorem taskEntry_taskOfEntries (e : BitVec 256) (ext : List (BitVec 256)) :
    taskEntry ((entryWord e 0).extractLsb' 0 8).toNat (taskOfEntries e ext) = e := by
  have hw : (BitVec.ofBool ((entryWord e 0).getLsbD 31) ++ ((entryWord e 0).extractLsb' 8 23 ++ BitVec.ofNat 8 ((entryWord e 0).extractLsb' 0 8).toNat) : Word) =
      entryWord e 0 := by
    rw [ofBool_getLsbD, BitVec.ofNat_toNat, BitVec.setWidth_eq]
    refine Eq.trans (extractLsb'_append_extractLsb' (by decide) ?_) BitVec.extractLsb'_eq_self
    refine extractLsb'_append_extractLsb' (by decide) ?_
    rfl
  refine Eq.trans ?_ (entryOf_entryWord e)
  exact congrArg (fun w => entryOf w (entryWord e 1) (entryWord e 2) (entryWord e 3) (entryWord e 4) (entryWord e 5) (entryWord e 6) (entryWord e 7)) hw

theorem ofTop_task {i : Instr} {top : Nat} {t : TaskWord} (h : i.task? = some (top, t)) : top < 256 ∧ ofTop top t = some i := by
  cases i
  all_goals cases h
  all_goals exact ⟨by decide, rfl⟩

theorem task_ofTop {i : Instr} {top : Nat} {t : TaskWord} (h : ofTop top t = some i) : i.task? = some (top, t) := by
  unfold ofTop at h
  split at h
  all_goals cases h
  all_goals rfl

theorem decodeTask_encode {i : Instr} {ext : List (BitVec 256)} (hwf : i.WellFormed) (h : encodeTask i = some (e :: ext)) : decodeTask e ext = .ok i := by
  cases ht : i.task? with
  | none => rw [encodeTask, ht] at h; cases h
  | some p =>
    rw [encodeTask_eq ht, Option.some.injEq, List.cons.injEq] at h
    obtain ⟨rfl, rfl⟩ := h
    obtain ⟨hlt, hi⟩ := ofTop_task ht
    rw [decodeTask, taskEntry_top hlt, taskOfEntries_taskEntry]
    simp only [hi]
    exact if_pos hwf

theorem encode_decodeTask {i : Instr} {ext : List (BitVec 256)} (h : decodeTask e ext = .ok i) : i.WellFormed ∧ encodeTask i = some (e :: ext) := by
  unfold decodeTask at h
  split at h
  · cases h
  · next j hj =>
    split at h
    · next hwf =>
      cases h
      refine ⟨hwf, ?_⟩
      rw [encodeTask_eq (task_ofTop hj), taskEntry_taskOfEntries]
      refine congrArg (fun l => some (e :: l)) ?_
      show (ext.map extOfEntry).map encodeExt = ext
      rw [List.map_map]
      exact List.map_id'' encodeExt_extOfEntry _
    · cases h

end

/-- Settles O58: each decoder finds the opcode and cuts the fields out of the words that the encoder put together. -/
theorem encodedInstructionsDecodeToThemselves : Obligations.EncodedInstructionsDecodeToThemselves :=
  ⟨fun _ _ => decodeWords_encode, fun _ _ _ => decodeChoarnif_encode, fun _ _ _ _ _ hwf hc => decodeCopy_encode hwf hc (.inr rfl),
    fun _ _ _ _ _ hwf hc => decodeCopy_encode hwf hc (.inl rfl), fun _ _ _ => decodeTask_encode⟩

/-- Settles O59: the fields cut out of the words, put together again, are the words, since the reserved bits are checked. -/
theorem decodingKeepsEveryBit : Obligations.DecodingKeepsEveryBit :=
  ⟨fun _ _ h => ⟨decodeWords_wf h, encode_decodeWords h⟩, fun _ _ _ h => ⟨decodeChoarnif_wf h, encode_decodeChoarnif h⟩,
    fun _ _ _ => encode_decodeCopy, fun _ _ _ => encode_decodeTask⟩

end Sys2Proof
end

section
/-! PROOFS. Barriers (R170, R282). -/

namespace Sys2Proof.Machine

/-! The strands of a unit, past its instruction. -/

theorem stallWait_getElem? (st : BitVec 8) (c : Nat) {l : List Strand} {i : Nat} {x : Strand} (hx : l[i]? = some x) (n : Nat) :
    ∃ c', (stallWait st c n l)[i]? = some { x with after := c' } := by
  induction l generalizing i n with
  | nil => simp at hx
  | cons t r ih =>
    unfold stallWait
    cases i with
    | zero =>
      cases hx
      rw [List.getElem?_cons_zero]
      split
      · exact ⟨_, rfl⟩
      · exact ⟨x.after, rfl⟩
    | succ i => exact ih hx (n + 1)

theorem foldl_setReadyAt_strands (l : List Nat) (c : Rope → Nat → Nat) (skip : Nat) (r : Rope) :
    (l.foldl (fun (t : Rope) u => t.setReady u (c t u) skip) r).strands = r.strands := by
  induction l generalizing r with
  | nil => rfl
  | cons u l ih => rw [List.foldl_cons, ih]; rfl

/-- The units settle: strands keep their PCs and lanes. -/
theorem settle_getElem? (x : Issue) (r : Rope) {i : Nat} {t : Strand} (ht : r.strands[i]? = some t) :
    ∃ t', (x.settle r).strands[i]? = some t' ∧ t'.pc = t.pc ∧ t'.active = t.active := by
  have group : ∃ n, (r.regroup (x.r.unitStrands x.unit)).strands[i]? = some { t with unit := n } := by
    rw [regroup_getElem?, ht, Option.map_some]
    split
    · exact ⟨_, rfl⟩
    · exact ⟨t.unit, rfl⟩
  obtain ⟨n, hn⟩ := group
  obtain ⟨c, hc⟩ := stallWait_getElem? (x.r.unitStrands x.unit) (x.core.cyc + 1 + x.stall) hn 0
  refine ⟨{ t with unit := n, after := c }, ?_, rfl, rfl⟩
  unfold Issue.settle
  simp only []
  rw [foldl_setReadyAt_strands _ (fun t u => max (x.core.cyc + 1 + x.stall) (t.afterOf u))]
  exact hc

theorem settle_moves (x : Issue) (r : Rope) : r.Moves (x.settle r) :=
  Rope.moves_trans (b := { r.regroup (x.r.unitStrands x.unit) with
      strands := stallWait (x.r.unitStrands x.unit) (x.core.cyc + 1 + x.stall) 0 (r.regroup (x.r.unitStrands x.unit)).strands }) rfl
    (Rope.foldl_moves _ (fun r u => (rfl : r.Moves (r.setReady u _ _))) _ _)

/-! Units that wait for a barrier. -/

/-- What a table holds after the keys of a list that meet a condition have been written. -/
theorem tget_foldl_tset {α : Type} (c : Nat → Bool) (g : Nat → α) (l : List Nat) (m : Tbl α) {u : Nat} (hu : u ∈ l) (hc : c u = true) :
    tget (l.foldl (fun t u => if c u then tset t u (g u) else t) m) u = some (g u) := by
  have keep : ∀ (l : List Nat) (m : Tbl α), tget m u = some (g u) →
      tget (l.foldl (fun t u => if c u then tset t u (g u) else t) m) u = some (g u) := by
    intro l
    induction l with
    | nil => exact fun _ h => h
    | cons a l ih =>
      intro m h
      refine ih _ ?_
      simp only []
      split
      · by_cases ha : u = a
        · subst ha; rw [tget_tset_same]
        · rw [tget_tset_ne _ _ ha, h]
      · exact h
  induction l generalizing m with
  | nil => cases hu
  | cons a l ih =>
    rw [List.foldl_cons]
    rcases List.mem_cons.1 hu with rfl | hu
    · refine keep l _ ?_
      rw [if_pos hc, tget_tset_same]
    · exact ih _ hu

theorem waitsNext_sync (n : Nat) (phase sync late : Bool) :
    waitsNext (some (n, phase, sync)) n phase late = if sync && late then some (n, !phase, true) else none := rfl

/-- How a unit of a settled rope waits for a barrier's phase (R170). -/
def Issue.waitSched (x : Issue) (r1 : Rope) (past late : Bool) (n : Nat) (phase sync : Bool) (u : Nat) : UnitSched :=
  let q := r1.schedOf u
  if past then { q with readyAt := max q.readyAt (x.core.cyc + 2), blocked := waitsNext (some (n, phase, sync)) n phase late }
  else { q with blocked := some (n, phase, sync) }

/-- The settled rope of a unit that waits for a barrier's phase. -/
def Issue.waitRope (x : Issue) (r1 : Rope) (past late : Bool) (n : Nat) (phase sync : Bool) : Rope :=
  { r1 with sched := r1.units.foldl (fun t u => if r1.unitStrands u &&& x.r.unitStrands x.unit != 0 then
      tset t u (x.waitSched r1 past late n phase sync u) else t) r1.sched }

theorem waitRope_schedOf {x : Issue} {r1 : Rope} {past late phase sync : Bool} {n u : Nat} (hu : u ∈ r1.units)
    (hst : r1.unitStrands u &&& x.r.unitStrands x.unit ≠ 0) :
    (x.waitRope r1 past late n phase sync).schedOf u = x.waitSched r1 past late n phase sync u := by
  unfold Rope.schedOf Issue.waitRope
  rw [tget_foldl_tset (fun u => r1.unitStrands u &&& x.r.unitStrands x.unit != 0) (x.waitSched r1 past late n phase sync) r1.units r1.sched hu
    (bne_iff_ne.2 hst), Option.getD_some]

theorem afterBarrier_wait {x : Issue} {s : State} {r : Rope} (hr : tget s.ropes x.k = some r) (late : Bool) (n : Nat) (phase sync : Bool) :
    x.afterBarrier s late (some (n, phase, sync)) =
      .go ((if s.phasePast r.wg n phase then s.waited r.wg x.k n else s).setRope x.k
        (x.waitRope (x.settle (r.moveUnit x.unit (fun _ => x.fall))) (s.phasePast r.wg n phase) late n phase sync)) [] 0 .done := by
  unfold Issue.afterBarrier
  rw [hr]
  rfl

/-- Whatever has arrived, the unit goes on past its barrier instruction. -/
theorem Begun.passesBarrier (b : Begun) {s1 : State} {r : Rope} (hr : tget s1.ropes b.y.k = some r) (hwg : r.wg = b.y.r.wg) (late : Bool)
    (wait : Option (Nat × Bool × Bool)) : ∃ t, b.y.afterBarrier s1 late wait = .go t [] 0 .done ∧ b.PassesBarrier s1 t late wait := by
  have hm : r.Moves (b.y.settle (r.moveUnit b.y.unit (fun _ => b.y.fall))) := Rope.moves_trans (r.moveUnit_moves _ _) (settle_moves _ _)
  have strands : ∀ (i : Nat) (x : Strand), r.strands[i]? = some x → x.inUnit b.y.unit = true → x.active ≠ 0 →
      ∃ x' : Strand, (b.y.settle (r.moveUnit b.y.unit (fun _ => b.y.fall))).strands[i]? = some x' ∧ x'.pc = b.y.fall ∧ x'.active = x.active := by
    intro i x hx hu _
    obtain ⟨x1, h1, hpc, hact⟩ := moveUnit_fall b.y.fall hx hu
    obtain ⟨x2, h2, hpc2, hact2⟩ := settle_getElem? b.y _ h1
    exact ⟨x2, h2, hpc2.trans hpc, hact2.trans hact⟩
  cases wait with
  | none =>
    refine ⟨s1.setRope b.y.k (b.y.settle (r.moveUnit b.y.unit (fun _ => b.y.fall))), ?_, rfl, rfl, rfl, fun j hj => State.setRope_get_ne s1 _ hj, r, _,
      hr, State.setRope_get _ _ _, ?_, ?_, ?_, ?_, strands, trivial⟩
    · unfold Issue.afterBarrier
      rw [hr]
    all_goals rw [hm]
  | some q =>
    obtain ⟨n, phase, sync⟩ := q
    have waited : ∀ p : Bool, (if p = true then s1.waited b.y.r.wg b.y.k n else s1).mem = s1.mem ∧
        (if p = true then s1.waited b.y.r.wg b.y.k n else s1).cores = s1.cores ∧
        (if p = true then s1.waited b.y.r.wg b.y.k n else s1).ropes = s1.ropes := by
      intro p
      cases p <;> exact ⟨rfl, rfl, rfl⟩
    obtain ⟨wmem, wcores, wropes⟩ := waited (s1.phasePast b.y.r.wg n phase)
    have hgo := afterBarrier_wait hr late n phase sync
    rw [hwg] at hgo
    refine ⟨_, hgo, rfl, wmem, wcores,
      fun j hj => (State.setRope_get_ne _ _ hj).trans (by rw [wropes]), r, _, hr, State.setRope_get _ _ _, ?_, ?_, ?_, ?_, strands, fun u hu hst => ?sched⟩
    case sched =>
      rw [waitRope_schedOf (r1 := b.y.settle (r.moveUnit b.y.unit (fun _ => b.y.fall))) hu hst]
      change if s1.phasePast b.y.r.wg n phase = true then _ else _
      cases s1.phasePast b.y.r.wg n phase with
      | true =>
        rw [if_pos rfl]
        exact ⟨le_max_right _ _, rfl⟩
      | false =>
        rw [if_neg Bool.false_ne_true]
        rfl
    all_goals
      generalize b.y.settle (r.moveUnit b.y.unit (fun _ => b.y.fall)) = r1 at hm
      unfold Issue.waitRope
      rw [hm]

/-! Arrivals. -/

/-- The rope of an instruction that has started belongs to the issue's workgroup. -/
theorem begun_rope {s : State} {op : Nat} {f : Fields} {pb : PB} {b : Begun} (h : s.begun op f pb = some b) :
    tget b.t.ropes b.y.k = some b.x.r ∧ b.y.r.wg = b.x.r.wg := by
  obtain ⟨hi, -, -, hy, ht, -⟩ := begun_spec h
  obtain ⟨-, -, hk, -, hr, -⟩ := issuing_spec hi
  refine ⟨?_, ?_⟩
  · rw [ht, hy]
    exact (congrArg (tget s.ropes) hk).trans hr
  · rw [hy, b.x.viewed_rope s (b.x.readsOf op b.m f pb)]

theorem State.barRope_sameStrands (s : State) (k b : Nat) : s.SameStrands (s.barRope k b) := by
  unfold State.barRope
  split
  · exact s.sameStrands_refl
  · exact (s.barRope1_sameStrands k b).trans (State.barLate_sameStrands _ _ _)

theorem State.barArrive_sameStrands (s : State) (k b : Nat) (st : BitVec 8) : s.SameStrands (s.barArrive k b st) := by
  unfold State.barArrive
  split
  · exact s.sameStrands_refl
  · next r hr =>
    refine State.SameStrands.trans ?_ (State.barRope_sameStrands _ _ _)
    exact State.setRope_sameStrands hr rfl

theorem State.SameStrands.wg {s t : State} (h : s.SameStrands t) {k : Nat} {r q : Rope} (hr : tget s.ropes k = some r) (hq : tget t.ropes k = some q) :
    q.wg = r.wg := by
  have hk := h.2.2.2 k
  rw [hr, hq, Option.map_some, Option.map_some, Option.some.injEq] at hk
  exact congrArg Prod.snd hk

/-- A barrier instruction outside a gate frame does what its body says. -/
theorem barOp_begun {op : Nat} {f : Fields} {body : Issue → Nat → Barrier → State → Act} {s : State} {b : Begun} (hb : s.begun op f pb0 = some b)
    (hf : b.y.r.frame = none) {t : State} (h : body b.y (f.b.toNat % 16) (b.y.w.barrier (f.b.toNat % 16)) b.t = .go t [] 0 .done) :
    barOp op f body s = .next (b.after t [] 0 .done) := by
  unfold barOp
  refine issue_go hb ?_
  simp only [hf, Option.isSome_none, Bool.false_eq_true, if_false]
  exact h

/-- BAR.SYNC and BAR.ARR of a unit of whose strands some have not arrived. -/
theorem arriveOp_passes {op : Nat} {f : Fields} {sync : Bool} {s : State} {b : Begun} {s1 : State} {n : Nat} (hb : s.begun op f pb0 = some b)
    (hf : b.y.r.frame = none) (hn : n = f.b.toNat % 16)
    (hst : (b.y.r.bar n).strands &&& b.y.r.unitStrands b.y.unit ≠ b.y.r.unitStrands b.y.unit) (hlog : b.t.logs b.y.k = false)
    (hs1 : s1 = b.t.barArrive b.y.k n (b.y.r.unitStrands b.y.unit)) (hex : (tget s1.ropes b.y.k).isSome = true) :
    ∃ t, barOp op f (arriveOp sync) s = .next (b.after t [] 0 .done) ∧ b.PassesBarrier s1 t (b.y.arrived n != 0)
      (if sync || b.y.arrived n != 0 then some (n, (b.y.w.barrier n).phase, sync) else none) := by
  subst hn hs1
  obtain ⟨r, hr⟩ := Option.isSome_iff_exists.1 hex
  obtain ⟨hx, hwg⟩ := begun_rope hb
  have hrwg := ((State.barArrive_sameStrands _ _ _ _).wg hx hr).trans hwg.symm
  obtain ⟨t, ht, hp⟩ := b.passesBarrier hr hrwg (b.y.arrived (f.b.toNat % 16) != 0)
    (if sync || b.y.arrived (f.b.toNat % 16) != 0 then some (f.b.toNat % 16, (b.y.w.barrier (f.b.toNat % 16)).phase, sync) else none)
  refine ⟨t, barOp_begun hb hf ?_, hp⟩
  unfold arriveOp
  have h1 : (b.y.arrived (f.b.toNat % 16) == b.y.r.unitStrands b.y.unit) = false := beq_eq_false_iff_ne.2 hst
  simp only [h1, hlog, Bool.or_false, Bool.false_eq_true, if_false]
  exact ht

/-! When a barrier completes. -/

theorem State.onMarks_wgs_get (s : State) (g : Mark → Mark) {k : Nat} {w : Workgroup} (hw : tget s.wgs k = some w) :
    ∃ u, tget (s.onMarks g).wgs k = some u ∧ u.barriers = w.barriers ∧ u.ropes = w.ropes := by
  rw [show (s.onMarks g).wgs = s.wgs.map (fun p => (p.1, { p.2 with marks := p.2.marks.map (fun q => (q.1, q.2.map g)) })) from rfl,
    tget_map_fst (hg := ?fst)]
  case fst => exact fun _ => rfl
  rw [hw]
  exact ⟨_, rfl, rfl, rfl⟩

/-- Whether a workgroup has a state of a barrier. -/
def State.BarrierIs (s : State) (wg b : Nat) (q : Barrier) : Prop := ∃ u, tget s.wgs wg = some u ∧ u.barrier b = q

theorem State.BarrierIs.onMarks {s : State} {wg b : Nat} {q : Barrier} (h : s.BarrierIs wg b q) (g : Mark → Mark) : (s.onMarks g).BarrierIs wg b q := by
  obtain ⟨u, hu, hq⟩ := h
  obtain ⟨u', hu', hb, hr⟩ := s.onMarks_wgs_get g hu
  refine ⟨u', hu', ?_⟩
  rw [← hq, Workgroup.barrier, Workgroup.barrier, hb, hr]

theorem State.BarrierIs.foldl {α : Type} {wg b : Nat} {q : Barrier} {g : State → α → State}
    (hg : ∀ (s : State) a, s.BarrierIs wg b q → (g s a).BarrierIs wg b q) (l : List α) {s : State} (h : s.BarrierIs wg b q) : (l.foldl g s).BarrierIs wg b q := by
  induction l generalizing s with
  | nil => exact h
  | cons a l ih => exact ih (hg s a h)

theorem State.barTest_completes {s : State} {wg b : Nat} {w : Workgroup} (hw : tget s.wgs wg = some w) (he : (w.barrier b).arrived = (w.barrier b).expected)
    (h0 : (w.barrier b).arrived ≠ 0) :
    (s.barTest wg b).BarrierIs wg b ⟨(w.barrier b).pending.getD (w.barrier b).expected, 0, !(w.barrier b).phase, none⟩ := by
  unfold State.barTest
  rw [hw]
  simp only []
  rw [if_pos ⟨he, h0⟩]
  refine State.BarrierIs.foldl (fun t p h => ?_) _ (State.BarrierIs.onMarks ?_ _)
  · split
    · exact h.onMarks _
    · exact h
  · refine ⟨_, State.setWg_get _ _ _, ?_⟩
    rw [Workgroup.barrier, tget_tset_same, Option.getD_some]

theorem State.barTest_short {s : State} {wg b : Nat} {w : Workgroup} (hw : tget s.wgs wg = some w) (he : (w.barrier b).arrived ≠ (w.barrier b).expected) :
    s.barTest wg b = s := by
  unfold State.barTest
  rw [hw]
  exact if_neg fun h => he h.1

/-! The end of a rope. -/

/-- The barrier of a workgroup has a state, and no rope of the workgroup comes to it. -/
def State.Still (s : State) (wg b : Nat) (q : Barrier) : Prop :=
  s.BarrierIs wg b q ∧ ∀ j r, tget s.ropes j = some r → r.wg = wg → r.comes b = false

theorem State.Still.onMarks {s : State} {wg b : Nat} {q : Barrier} (h : s.Still wg b q) (g : Mark → Mark) : (s.onMarks g).Still wg b q :=
  ⟨h.1.onMarks g, h.2⟩

theorem State.still_foldl {α : Type} {wg b : Nat} {q : Barrier} {g : State → α → State}
    (hg : ∀ (s : State) a, s.Still wg b q → (g s a).Still wg b q) (l : List α) {s : State} (h : s.Still wg b q) : (l.foldl g s).Still wg b q := by
  induction l generalizing s with
  | nil => exact h
  | cons a l ih => exact ih (hg s a h)

theorem State.Still.setWg {s : State} {wg b : Nat} {q : Barrier} (h : s.Still wg b q) {v : Nat} (hv : wg ≠ v) (w : Workgroup) : (s.setWg v w).Still wg b q := by
  obtain ⟨⟨u, hu, hq⟩, hr⟩ := h
  exact ⟨⟨u, (State.setWg_get_ne s w hv).trans hu, hq⟩, hr⟩

theorem State.Still.setRope {s : State} {wg b : Nat} {q : Barrier} (h : s.Still wg b q) (k : Nat) {r : Rope} (hr : r.wg ≠ wg) :
    (s.setRope k r).Still wg b q := by
  refine ⟨h.1, fun j x hx hw => ?_⟩
  by_cases hj : j = k
  · subst hj
    rw [State.setRope_get] at hx
    cases hx
    exact absurd hw hr
  · rw [State.setRope_get_ne _ _ hj] at hx
    exact h.2 j x hx hw

/-- The test of another workgroup's barrier leaves this one's alone. -/
theorem State.Still.barTest {s : State} {wg b : Nat} {q : Barrier} (h : s.Still wg b q) {v : Nat} (hv : wg ≠ v) (c : Nat) :
    (s.barTest v c).Still wg b q := by
  unfold State.barTest
  split
  · exact h
  · next w hw =>
    simp only []
    split
    · refine State.still_foldl (fun t p ht => ?_) _ (State.Still.onMarks ?_ _)
      · split
        · exact ht.onMarks _
        · exact ht
      · refine ⟨(h.setWg hv _).1, fun j x hx hx' => ?_⟩
        simp only [] at hx
        rw [tget_map_fst (hg := ?fst)] at hx
        case fst => exact fun _ => rfl
        obtain ⟨r, hr, he⟩ := Option.map_eq_some_iff.1 hx
        by_cases hrv : r.wg = v
        · simp only [if_pos hrv] at he
          subst he
          exact absurd (hx'.symm.trans hrv) hv
        · simp only [if_neg hrv] at he
          subst he
          exact h.2 j r hr hx'
    · exact h

/-- A rope that comes to no barrier, or belongs to another workgroup, changes nothing of this one. -/
theorem State.Still.barRope1 {s : State} {wg b : Nat} {q : Barrier} (h : s.Still wg b q) (k : Nat) : (s.barRope1 k b).Still wg b q := by
  unfold State.barRope1
  split
  · exact h
  · next r hr =>
    split
    · exact h
    · next w hw =>
      simp only []
      split
      · next hc =>
        have hwg : r.wg ≠ wg := fun e => by
          rw [h.2 k r hr e] at hc
          cases hc
        refine State.Still.barTest (State.Still.onMarks (State.Still.setWg ?_ (Ne.symm hwg) _) _) (Ne.symm hwg) b
        exact State.Still.setRope h k hwg
      · exact h

theorem comes_eq_false {q : Rope} {b : Nat}
    (h : (q.bar b).arrived = true ∨ q.liveStrands = 0 ∨ (q.bar b).strands &&& q.liveStrands ≠ q.liveStrands) : q.comes b = false := by
  unfold Rope.comes
  rcases h with h | h | h
  · rw [h]; rfl
  · simp [h]
  · rw [beq_eq_false_iff_ne.2 h, Bool.and_false]

/-- Settles O21: arrivals, the phase that the last one ends, and the end of a rope. -/
theorem barriersCountArrivals : Obligations.BarriersCountArrivals := by
  refine ⟨⟨?sync, ?arr, ?wait, ?set⟩, ?completes, ?short, ?ends⟩
  case sync =>
    intro f s b s1 n hb hf hn hst hlog hs1 hex
    exact arriveOp_passes (sync := true) hb hf hn hst hlog hs1 hex
  case arr =>
    intro f s b s1 n hb hf hn hst hlog hs1 hex
    obtain ⟨t, ht, hp⟩ := arriveOp_passes (sync := false) hb hf hn hst hlog hs1 hex
    refine ⟨t, ht, ?_⟩
    by_cases ha : b.y.arrived n = 0
    · have hz : (b.y.arrived n != 0) = false := by rw [ha]; rfl
      rw [if_pos ha]
      rw [hz] at hp ⊢
      exact hp
    · have hz : (b.y.arrived n != 0) = true := bne_iff_ne.2 ha
      rw [if_neg ha]
      rw [hz] at hp ⊢
      exact hp
  case wait =>
    intro f s b n hb hf hn _
    subst hn
    obtain ⟨hx, hwg⟩ := begun_rope hb
    by_cases ha : (b.y.r.bar (f.b.toNat % 16)).arrived = true
    · obtain ⟨t, ht, hp⟩ := b.passesBarrier hx hwg.symm false (some (f.b.toNat % 16, (b.y.w.barrier (f.b.toNat % 16)).phase, false))
      refine ⟨t, ?_, by rw [if_pos ha]; exact hp⟩
      show execBarWait f s = _
      exact barOp_begun hb hf (by rw [if_pos ha]; exact ht)
    · obtain ⟨t, ht, hp⟩ := b.passesBarrier (s1 := b.t.waited b.y.r.wg b.y.k (f.b.toNat % 16)) hx hwg.symm false none
      refine ⟨t, ?_, by rw [if_neg ha]; exact hp⟩
      show execBarWait f s = _
      exact barOp_begun hb hf (by rw [if_neg ha]; exact ht)
  case set =>
    intro f s b q n hb hf hn _ hq q1
    subst hn hq
    obtain ⟨hx, hwg⟩ := begun_rope hb
    obtain ⟨t, ht, hp⟩ := b.passesBarrier
      (s1 := b.t.onWg b.y.r.wg (fun w => { w with barriers := tset w.barriers (f.b.toNat % 16) q1 }))
      (by rw [State.onWg_ropes]; exact hx) hwg.symm false none
    refine ⟨t, ?_, hp⟩
    have hq1 : (if (b.y.w.barrier (f.b.toNat % 16)).arrived = 0 then
        { b.y.w.barrier (f.b.toNat % 16) with expected := f.c.toNat, pending := none }
        else { b.y.w.barrier (f.b.toNat % 16) with pending := some f.c.toNat } : Barrier) = q1 := by
      by_cases h0 : (b.y.w.barrier (f.b.toNat % 16)).arrived = 0 <;> simp only [q1, h0, if_true, if_false]
    show execBarSet f s = _
    refine barOp_begun hb hf ?_
    simp only []
    rw [hq1]
    exact ht
  case completes => exact fun s wg b w hw he h0 => State.barTest_completes hw he h0
  case short => exact fun s wg b w hw he => State.barTest_short hw he
  case ends =>
    intro s k b r w hr hw n hn hall
    let q1 : Barrier := ⟨(w.barrier b).expected - 1, n, (w.barrier b).phase, (w.barrier b).pending.map (· - 1)⟩
    let w1 : Workgroup := { w with barriers := tset w.barriers b q1 }
    have hq1 : w1.barrier b = q1 := by rw [Workgroup.barrier, tget_tset_same, Option.getD_some]
    have hshort : (s.setWg r.wg w1).barTest r.wg b = s.setWg r.wg w1 := State.barTest_short (State.setWg_get s r.wg w1) (by rw [hq1]; exact hn)
    have hend : s.barEnd k b = (s.setWg r.wg w1).barLate r.wg b := by
      unfold State.barEnd
      rw [hr]
      simp only [hw]
      exact congrArg (·.barLate r.wg b) hshort
    rw [hend]
    exact (State.still_foldl (fun t p ht => ht.barRope1 p.1) _
      (⟨⟨w1, State.setWg_get _ _ _, hq1⟩, fun j q hq hqw => comes_eq_false (hall j q hq hqw)⟩ : (s.setWg r.wg w1).Still r.wg b q1)).1

end Sys2Proof.Machine
end

section
/-! PROOFS. Taking a trap and returning from it (R234 to R238). -/

namespace Sys2Proof.Machine

/-! The end of a workgroup. -/

theorem State.killWg_gone (s : State) {wg : Nat} {w : Workgroup} (hw : tget s.wgs wg = some w) :
    tget (s.killWg wg).wgs wg = none ∧ (s.killWg wg).faults = s.faults := by
  unfold State.killWg
  rw [hw]
  refine ⟨?_, rfl⟩
  exact (tget_terase _ _ _).trans (if_pos rfl)

/-- A trap that ends in KILL ends the workgroup with a task fault of class ROPE that carries the record (R238, R270). -/
theorem State.killBy_faults {s : State} {k : Nat} {r : Rope} {w : Workgroup} (hr : tget s.ropes k = some r) (hw : tget s.wgs r.wg = some w)
    (hp : w.pro = none) (reason : Nat) (t : TrapRec) :
    tget (s.killBy k reason t).wgs r.wg = none ∧ ∃ q, (s.killBy k reason t).faults = s.faults ++ [q] ∧ q.stream = w.stream ∧ q.task = w.task ∧
      q.fault.cls = 5 ∧ q.fault.reason = BitVec.ofNat 8 reason ∧ q.trap = some t := by
  unfold State.killBy
  rw [hr]
  simp only [hw, hp, Option.isSome_none, Bool.false_eq_true, if_false]
  obtain ⟨hg, hf⟩ := State.killWg_gone (s.raiseFault w 5 reason (t.cause.setWidth 32) (some t)) (wg := r.wg) hw
  exact ⟨hg, _, hf, rfl, rfl, rfl, rfl, rfl⟩

/-! Returning. -/

theorem restore60_sr (r : Rope) (l : List Word) : (r.restore60 l).sr 60 = l.getD 0 0 ∧ (r.restore60 l).sr 61 = l.getD 1 0 ∧
    (r.restore60 l).sr 62 = l.getD 2 0 ∧ (r.restore60 l).sr 63 = l.getD 3 0 ∧ ∀ n, n < 60 → (r.restore60 l).sr n = r.sr n := by
  refine ⟨?_, ?_, ?_, ?_, fun n hn => ?_⟩
  case _ => simp [Rope.restore60]
  case _ => simp [Rope.restore60]
  case _ => simp [Rope.restore60]
  case _ => simp [Rope.restore60]
  case _ => simp [Rope.restore60, show n ≠ 60 by omega, show n ≠ 61 by omega, show n ≠ 62 by omega, show n ≠ 63 by omega]

theorem restore60_keeps (r : Rope) (l : List Word) : (r.restore60 l).strands = r.strands ∧ (r.restore60 l).v = r.v ∧ (r.restore60 l).p = r.p := by
  simp only [Rope.restore60, Rope.setS_strands, Rope.setS_v, Rope.setS_p, and_self]

section
variable (r : Rope) (u : Nat) (c : TrapCtx) (ready skip : Nat) (pc : DWord) (sup : List (BitVec 8 × BitVec 8))

theorem backTo_schedOf : (r.backTo u c ready skip pc sup).schedOf u = ⟨ready, 0, skip, 0, false, c.blocked⟩ := by
  have h : (r.backTo u c ready skip pc sup).sched = tset (r.restore60 c.trap.saved).sched u ⟨ready, 0, skip, 0, false, c.blocked⟩ := by rw [Rope.backTo]
  rw [Rope.schedOf, h, tget_tset_same, Option.getD_some]

theorem backTo_strands : (r.backTo u c ready skip pc sup).strands =
    r.strands.map (fun x => if x.inUnit u then { x with pc := pc } else { x with stopped := false }) := by
  rw [Rope.backTo, (restore60_keeps r c.trap.saved).1]

theorem backTo_sr (n : Nat) : (r.backTo u c ready skip pc sup).sr n = (r.restore60 c.trap.saved).sr n := by
  rw [Rope.backTo]
  rfl

theorem backTo_returnsTo : (r.backTo u c ready skip pc sup).ReturnsTo r c u pc ready skip := by
  obtain ⟨h60, h61, h62, h63, hlow⟩ := restore60_sr r c.trap.saved
  unfold Rope.ReturnsTo
  simp only [backTo_sr, backTo_strands, backTo_schedOf, h60, h61, h62, h63]
  have hfields : (r.backTo u c ready skip pc sup).trap = none ∧ (r.backTo u c ready skip pc sup).lastTrap = c.trap ∧
      (r.backTo u c ready skip pc sup).priv = c.prev ∧ (r.backTo u c ready skip pc sup).v = r.v ∧ (r.backTo u c ready skip pc sup).p = r.p := by
    obtain ⟨-, hv, hp⟩ := restore60_keeps r c.trap.saved
    rw [Rope.backTo]
    exact ⟨rfl, rfl, rfl, hv, hp⟩
  obtain ⟨ht, hl, hp, hv, hpr⟩ := hfields
  refine ⟨ht, hl, hp, trivial, hv, hpr, trivial, trivial, trivial, trivial, hlow, fun i x hx => ?_⟩
  refine ⟨if x.inUnit u then { x with pc := pc } else { x with stopped := false }, ?_, ?_⟩
  · rw [List.getElem?_map, hx, Option.map_some]
  · split <;> rfl

end

section
variable {s : State} {k u st sk : Nat} {r : Rope} {c : TrapCtx}

theorem returnFrom_retry (hr : tget s.ropes k = some r) (hacc : c.access = none) (ha : c.trap.async = false) (hact : c.trap.action = 0)
    (hok : s.returnFails k u r c.trap.fpc false = false) :
    ∃ sup, s.returnFrom k u c st sk = s.setRope k (r.backTo u c (s.cycOf r + max 8 (1 + st)) sk c.trap.fpc sup) := by
  unfold State.returnFrom
  rw [hr]
  simp only [hact, ha, hok, hacc, Bool.false_eq_true, if_false]
  exact ⟨_, rfl⟩

theorem returnFrom_skip (hr : tget s.ropes k = some r) (hacc : c.access = none) (ha : c.trap.async = false) (hact : c.trap.action = 1)
    (hok : s.returnFails k u r c.fall false = false) :
    ∃ sup, s.returnFrom k u c st sk = s.setRope k (r.backTo u c (s.cycOf r + max 8 (1 + st)) sk c.fall sup) := by
  unfold State.returnFrom
  rw [hr]
  simp only [hact, ha, hok, hacc, Bool.false_eq_true, if_false]
  exact ⟨_, rfl⟩

theorem returnFrom_resume (hr : tget s.ropes k = some r) (hacc : c.access = none) (hact : c.trap.action = 2)
    (hok : s.returnFails k u r c.trap.rpc true = false) :
    ∃ sup, s.returnFrom k u c st sk = s.setRope k (r.backTo u c (s.cycOf r + max 8 (1 + st)) sk c.trap.rpc sup) := by
  unfold State.returnFrom
  rw [hr]
  simp only [hact, hok, hacc, Bool.false_eq_true, if_false]
  exact ⟨_, rfl⟩

theorem returnFrom_double (hr : tget s.ropes k = some r) (hact : c.trap.action = 2) (hfail : s.returnFails k u r c.trap.rpc true = true) :
    s.returnFrom k u c st sk = s.killBy k 2 c.trap := by
  unfold State.returnFrom
  rw [hr]
  simp only [hact, hfail, if_true]
  rfl

theorem returnFrom_kill (hr : tget s.ropes k = some r) (hact : c.trap.action = 3) (hf : r.frame = none) :
    s.returnFrom k u c st sk = s.killBy k 1 c.trap := by
  unfold State.returnFrom
  rw [hr]
  simp only [hact, hf]
  rfl

end

/-! Entering the handler. -/

/-- The rope that takes a trap (R235). -/
def Rope.trapped (r : Rope) (u : Nat) (t : TrapRec) (acc : Option Nat) (cyc : Nat) : Rope :=
  { r with
    trap := some ⟨t, u, r.priv, acc, t.rpc, (r.schedOf u).blocked, r.cand, r.monitorOf u⟩
    cand := none
    monitors := r.monitors.filter (fun m => m.unit != u)
    priv := .handler
    strands := r.strands.map (fun x =>
      if x.inUnit u then { x with pc := r.trapH } else if x.live then { x with stopped := true } else x)
    sched := tset r.sched u ⟨max (cyc + 12) (r.schedOf u).readyAt, 0, 0, 0, false, none⟩ }

theorem takeTrap_handler {s : State} {k u n : Nat} {t : TrapRec} {acc : Option Nat} {r : Rope} {w : Workgroup} (hr : tget s.ropes k = some r)
    (hw : tget s.wgs r.wg = some w) (ht : r.trap = none) (hh : r.trapH ≠ 0) (hf : s.handleFault r r.trapH r.codeUnit = none)
    (hs : s.startFault r r.trapH = none) :
    s.takeTrap k u t acc (n + 1) = (s.dropFetch k u).setRope k (r.trapped u t acc (s.core w.core).cyc) := by
  unfold State.takeTrap
  rw [hr]
  simp only [hw, ht, hh, hf, hs, Option.isSome_none, Bool.false_eq_true, Bool.or_self, if_false]
  rfl

theorem trapped_getElem? {r : Rope} {u : Nat} {t : TrapRec} {acc : Option Nat} {cyc i : Nat} {x : Strand} (hx : r.strands[i]? = some x) :
    ∃ y : Strand, (r.trapped u t acc cyc).strands[i]? = some y ∧ y.active = x.active ∧ (x.inUnit u = true → y.pc = r.trapH) ∧
      (x.inUnit u = false → y.pc = x.pc ∧ (x.live = true → y.stopped = true)) := by
  refine ⟨if x.inUnit u then { x with pc := r.trapH } else if x.live then { x with stopped := true } else x, ?_, ?_⟩
  · rw [Rope.trapped, List.getElem?_map, hx, Option.map_some]
  · cases hu : x.inUnit u with
    | true => exact ⟨rfl, fun _ => rfl, nofun⟩
    | false =>
      rw [if_neg Bool.false_ne_true]
      by_cases hl : x.live = true
      · rw [if_pos hl]
        exact ⟨rfl, nofun, fun _ => ⟨rfl, fun _ => rfl⟩⟩
      · rw [if_neg hl]
        exact ⟨rfl, nofun, fun _ => ⟨rfl, fun h => absurd h hl⟩⟩

/-- Settles O43: the rope that enters its handler, the rope that is back from it, and the workgroup that ends. -/
theorem trapsAreTakenAndReturnedFrom : Obligations.TrapsAreTakenAndReturnedFrom := by
  refine ⟨?take, ?retry, ?skip, ?resume, ?double, ?kill⟩
  case take =>
    intro s k u t acc n r w hr hw ht hh hf hs
    refine ⟨_, takeTrap_handler hr hw ht hh hf hs, rfl, rfl, rfl, rfl, rfl, rfl, rfl, rfl, rfl, ?_, rfl, fun i x hx => trapped_getElem? hx⟩
    rw [Rope.schedOf, Rope.trapped, tget_tset_same, Option.getD_some]
  case retry =>
    intro s k u r c st sk hr hacc ha hact hok
    obtain ⟨sup, h⟩ := returnFrom_retry (st := st) (sk := sk) hr hacc ha hact hok
    exact ⟨_, h, backTo_returnsTo ..⟩
  case skip =>
    intro s k u r c st sk hr hacc ha hact hok
    obtain ⟨sup, h⟩ := returnFrom_skip (st := st) (sk := sk) hr hacc ha hact hok
    exact ⟨_, h, backTo_returnsTo ..⟩
  case resume =>
    intro s k u r c st sk hr hacc hact hok
    obtain ⟨sup, h⟩ := returnFrom_resume (st := st) (sk := sk) hr hacc hact hok
    exact ⟨_, h, backTo_returnsTo ..⟩
  case double =>
    intro s k u r c w st sk hr hact hfail hw hp
    rw [returnFrom_double hr hact hfail]
    exact State.killBy_faults hr hw hp 2 c.trap
  case kill =>
    intro s k u r c w st sk hr hact hf hw hp
    rw [returnFrom_kill hr hact hf]
    exact State.killBy_faults hr hw hp 1 c.trap

end Sys2Proof.Machine
end

section
/-! PROOFS. Results in flight, loads, stores and SFU results that land (R13, R74, R76, R184, R203, R204). -/

namespace Sys2Proof.Machine

/-! An issue that falls through. -/

theorem movedBy_fall_moves (x : Issue) (r : Rope) : r.Moves (x.movedBy r .fall) := by
  rw [Issue.movedBy]
  exact Rope.moves_trans (r.moveUnit_moves x.unit (fun _ => x.fall)) (Rope.readyUnits_moves _ _ _ _)

/-- An issue takes the disabled traps of its unit out of `suppress` alone. -/
theorem Rope.used_suppress (r : Rope) (st : BitVec 8) : ∃ sp, r.used st = { r with suppress := sp } := by
  unfold Rope.used
  split
  · exact ⟨_, rfl⟩
  · exact ⟨_, rfl⟩

theorem Issue.flown_suppress (x : Issue) (r : Rope) (ws : List RegWrite) (extra id : Nat) :
    ∃ sp, x.flown r ws extra id = { r with inflight := (x.flown r ws extra id).inflight, suppress := sp } := by
  obtain ⟨sp, hu⟩ := r.used_suppress (x.r.unitStrands x.unit)
  unfold Issue.flown
  split
  · exact ⟨_, rfl⟩
  · rw [hu]
    exact ⟨sp, rfl⟩

/-- What a fall-through leaves of the registers and of the results in flight. -/
theorem committed_fall_regs (x : Issue) (r : Rope) (ws : List RegWrite) (extra id : Nat) :
    ∃ sp st sc w, x.committed r ws extra id .fall =
      { r with inflight := (x.flown r ws extra id).inflight, suppress := sp, strands := st, sched := sc, portWait := w } := by
  have hm : (x.flown r ws extra id).Moves (x.movedBy (x.flown r ws extra id) .fall) := movedBy_fall_moves x _
  obtain ⟨sp, hf⟩ := x.flown_suppress r ws extra id
  unfold Issue.committed
  rw [hm, hf]
  split
  · exact ⟨_, _, _, _, rfl⟩
  · exact ⟨_, _, _, _, rfl⟩

theorem State.onWg_core (s : State) (k c : Nat) (g : Workgroup → Workgroup) : (s.onWg k g).core c = s.core c := by
  simp only [State.core, State.freshCore, State.onWg_cores, State.onWg_etimePs, State.onWg_epochPs]

/-! Results that are due. -/

theorem landDue_of_undue (c : Nat) (kept l : List Pend) (r : Rope) (h : ∀ q ∈ l, c < q.due) :
    landDue c kept l r = { r with inflight := kept ++ l } := by
  induction l generalizing kept with
  | nil => rw [landDue, List.append_nil]
  | cons q l ih =>
    rw [landDue, if_neg (Nat.not_le.2 (h q (by simp))), ih _ (fun p hp => h p (by simp [hp])), List.append_assoc, List.singleton_append]

theorem Rope.land_first {r : Rope} {p : Pend} {l : List Pend} {c : Nat} (hl : r.inflight = p :: l) (hp : p.due ≤ c)
    (h : ∀ q ∈ l, c < q.due) : r.land c = { r.writes p.writes with inflight := l } := by
  rw [Rope.land, hl, landDue, if_pos hp]
  exact landDue_of_undue c [] l _ h

theorem onRope_eq {s : State} {k : Nat} {r : Rope} (h : tget s.ropes k = some r) (g : Rope → Rope) : s.onRope k g = s.setRope k (g r) := by
  unfold State.onRope
  rw [h]

/-! One register write. -/

theorem Rope.setV_vr (r : Rope) (n l : Nat) (v : Word) (m j : Nat) (hl : l < 32) (hj : j < 32) :
    (r.setV n l v).vr m j = if m = n ∧ j = l ∧ r.present.getLsbD l = true then v else r.vr m j := by
  have key : 32 * m + j = 32 * n + l ↔ m = n ∧ j = l := by omega
  rw [Rope.vr, Rope.setV_v]
  by_cases hp : r.present.getLsbD l = true
  · simp only [hp, if_true, rget_rset, key, and_true, Rope.vr]
  · simp only [hp, Bool.false_eq_true, if_false, and_false, Rope.vr]

theorem Rope.setP_pr_bit (r : Rope) (n : Nat) (k v : Word) (m j : Nat) :
    ((r.setP n k v).pr m).getLsbD j =
      if m = n ∧ n ≠ 7 ∧ k.getLsbD j = true ∧ r.present.getLsbD j = true then v.getLsbD j else (r.pr m).getLsbD j := by
  rw [Rope.setP_pr]
  by_cases hm : m = n ∧ n ≠ 7
  · obtain ⟨rfl, h7⟩ := hm
    simp only [h7, ne_eq, not_false_eq_true, and_self, if_true, true_and, BitVec.getLsbD_or, BitVec.getLsbD_and, BitVec.getLsbD_not]
    by_cases hj : j < 32
    · cases k.getLsbD j <;> cases r.present.getLsbD j <;> simp [hj]
    · simp [BitVec.getLsbD_of_ge _ j (Nat.not_lt.1 hj)]
  · rw [if_neg hm, if_neg (fun h => hm ⟨h.1, h.2.1⟩)]

theorem Rope.status_pr_bit (r : Rope) (k : Word) (m j : Nat) :
    ((r.write (.status k)).pr m).getLsbD j = ((r.pr m).getLsbD j || (m == 6 && k.getLsbD j && r.present.getLsbD j)) := by
  rw [Rope.write, Rope.setP_pr_bit]
  by_cases hm : m = 6
  · subst hm
    cases hk : k.getLsbD j <;> cases hp : r.present.getLsbD j <;> simp
  · simp [hm]

/-! Outstanding results that are no destination of what lands. -/

/-- Writes that go nowhere near the outstanding results leave them and draw nothing. -/
theorem raceWrites_of_apart (ws : List RegWrite) (l : List Outst) (n : Nat) (h : ∀ q ∈ l, q.Apart ws) : raceWrites ws l n = (l, n) := by
  induction l generalizing n with
  | nil => rfl
  | cons o l ih =>
    have hit : (o.writes ++ o.waits).any (fun w => RegWrite.less ws 0xFFFFFFFF true w != some w) = false := by
      rw [List.any_eq_false]
      intro w hw
      rw [h o (by simp) w hw]
      simp
    simp only [raceWrites, hit, Bool.false_eq_true, if_false, ih n (fun q hq => h q (by simp [hq]))]

theorem Outst.apart_of_empty {o : Outst} (h : o.writes = []) (h' : o.waits = []) (ws : List RegWrite) : o.Apart ws := by
  intro w hw
  simp [h, h'] at hw

/-- Results that have not arrived, or have not landed, stop the count (R184). -/
theorem countOut_of_stays (c : Nat) (l : List Outst) (h : ∀ q ∈ l, q.tok = none ∧ (q.arrived c = false ∨ q.writes ≠ [])) : countOut c l = l := by
  cases l with
  | nil => rfl
  | cons q l =>
    obtain ⟨ht, hq⟩ := h q (by simp)
    rw [countOut, ht]
    obtain hq | hq := hq <;> simp [hq]

theorem lands_eq {s : State} {k : Nat} {r q : Rope} (hr : tget s.ropes k = some r) (f : Rope → Nat → Rope × Nat) (hf : f r s.free = (q, s.free)) :
    s.lands k f = s.setRope k q := by
  simp only [State.lands, hr, hf]
  rfl

theorem filter_untokened (l : List Outst) (h : ∀ q ∈ l, q.tok = none) : l.filter (fun o => o.tok.isNone) = l :=
  List.filter_eq_self.2 (fun q hq => by simp [h q hq])

/-- The oldest load lands and is counted out. -/
theorem Rope.loadLands_first {r : Rope} {o : Outst} {l : List Outst} {c n : Nat} (hl : r.outst = o :: l) (ht : o.tok = none)
    (ha : o.arrived c = true) (hw : o.writes ≠ []) (hwaits : o.waits = [])
    (h : ∀ q ∈ l, q.Apart o.writes ∧ q.tok = none ∧ (q.arrived c = false ∨ q.writes ≠ [])) :
    r.loadLands c n = ({ (r.lateOver o.id o.writes).writes o.writes with outst := l, ldc := l.length }, n) := by
  have hfirst : landFirst (fun o => o.tok.isNone && o.arrived c && !o.writes.isEmpty) (o :: l) = ({ o with writes := [] } :: l, o.id, o.writes) := by
    rw [landFirst, if_pos (by simp [ht, ha, hw])]
  have hrace : raceWrites o.writes ({ o with writes := [] } :: l) n = ({ o with writes := [] } :: l, n) := by
    refine raceWrites_of_apart _ _ n (fun q hq => ?_)
    obtain he | hq := List.mem_cons.1 hq
    · rw [he]
      exact Outst.apart_of_empty (o := { o with writes := [] }) rfl hwaits _
    · exact (h q hq).1
  have ha' : ({ o with writes := [] } : Outst).arrived c = true := ha
  have hcount : countOut c ({ o with writes := [] } :: l) = l := by
    rw [countOut, if_neg (by simp [ht]), if_pos (by rw [ha']; rfl)]
    exact countOut_of_stays c l (fun q hq => (h q hq).2)
  simp only [Rope.loadLands, hl, hfirst, hrace, hcount, filter_untokened l (fun q hq => (h q hq).2.1)]

/-- A younger load lands while the oldest is out: LDC does not count it yet. -/
theorem Rope.loadLands_second {r : Rope} {o p : Outst} {l : List Outst} {c n : Nat} (hl : r.outst = p :: o :: l)
    (ht : ∀ q ∈ r.outst, q.tok = none) (hp : p.arrived c = false) (ha : o.arrived c = true) (hw : o.writes ≠ []) (hwaits : o.waits = [])
    (h : ∀ q ∈ p :: l, q.Apart o.writes) :
    r.loadLands c n = ({ (r.lateOver o.id o.writes).writes o.writes with outst := p :: { o with writes := [] } :: l, ldc := l.length + 2 }, n) := by
  rw [hl] at ht
  have htp : p.tok = none := ht p (by simp)
  have hto : o.tok = none := ht o (by simp)
  have hfirst : landFirst (fun o => o.tok.isNone && o.arrived c && !o.writes.isEmpty) (p :: o :: l) =
      (p :: { o with writes := [] } :: l, o.id, o.writes) := by
    rw [landFirst, if_neg (by simp [hp]), landFirst, if_pos (by simp [hto, ha, hw])]
  have hrace : raceWrites o.writes (p :: { o with writes := [] } :: l) n = (p :: { o with writes := [] } :: l, n) := by
    refine raceWrites_of_apart _ _ n (fun q hq => ?_)
    simp only [List.mem_cons] at hq
    obtain rfl | he | hq := hq
    · exact h q (by simp)
    · rw [he]
      exact Outst.apart_of_empty (o := { o with writes := [] }) rfl hwaits _
    · exact h q (by simp [hq])
  have hcount : countOut c (p :: { o with writes := [] } :: l) = p :: { o with writes := [] } :: l := by
    rw [countOut, if_neg (by simp [htp]), if_neg (by simp [hp])]
  have hfilter : (p :: { o with writes := [] } :: l).filter (fun o => o.tok.isNone) = p :: { o with writes := [] } :: l := by
    refine filter_untokened _ (fun q hq => ?_)
    simp only [List.mem_cons] at hq
    obtain rfl | he | hq := hq
    · exact htp
    · rw [he]
      exact hto
    · exact ht q (by simp [hq])
  simp only [Rope.loadLands, hl, hfirst, hrace, hcount, hfilter, List.length_cons]

theorem Rope.storesOut_first {r : Rope} {o : StoreOut} {l : List StoreOut} {c : Nat} (hl : r.stores = o :: l) (ho : o.ready = true) (hd : o.due ≤ c)
    (h : ∀ q ∈ l, q.ready = false ∨ c < q.due) : r.storesOut c = { r with stores := l, stc := l.length } := by
  have hdrop : (o :: l).dropWhile (fun o => o.ready && decide (o.due ≤ c)) = l := by
    rw [List.dropWhile_cons_of_pos (by simp [ho, hd])]
    cases l with
    | nil => rfl
    | cons q l =>
      refine List.dropWhile_cons_of_neg ?_
      obtain hq | hq := h q (by simp)
      · simp [hq]
      · simp [Nat.not_le.2 hq]
  simp only [Rope.storesOut, hl, hdrop]

theorem execSfuResultDelivery_ready {s : State} {n : Nat} {e : SfuEntry} {r : Rope} (he : s.sfu[n]? = some e)
    (hd : e.due ≤ (s.core (e.quad / 4)).cyc) (hr : tget s.ropes e.rope = some r) (hp : (r.tok e.tok).state = .pending) :
    execSfuResultDelivery n s = done (({ s with sfu := s.sfu.eraseIdx n } : State).setRope e.rope
      (r.setTok e.tok { r.tok e.tok with state := .ready })) := by
  unfold execSfuResultDelivery
  simp only [he, if_neg (Nat.not_lt.2 hd)]
  rw [onRope_eq (s := { s with sfu := s.sfu.eraseIdx n }) hr, if_pos hp]

theorem Rope.sfqLands_first {r : Rope} {o : Outst} {l : List Outst} {c n : Nat} (hl : r.outst = o :: l) (ht : o.tok.isSome = true)
    (ha : o.arrived c = true) (h : ∀ q ∈ l, q.id ≠ o.id ∧ q.Apart o.writes) :
    r.sfqLands c n = ({ (r.lateOver o.id o.writes).writes o.writes with outst := l }, n) := by
  have hfind : (o :: l).find? (fun o => o.tok.isSome && o.arrived c) = some o := List.find?_cons_of_pos (by simp [ht, ha])
  have hrest : (o :: l).filter (fun q => q.id != o.id) = l := by
    rw [List.filter_cons_of_neg (by simp)]
    exact List.filter_eq_self.2 (fun q hq => by simp [(h q hq).1])
  simp only [Rope.sfqLands, hl, hfind, hrest, raceWrites_of_apart o.writes l n (fun q hq => (h q hq).2)]

/-! A later result that lands first (R13, R74). -/

theorem mem_lateOver_later {r : Rope} {id : Nat} {ws : List RegWrite} {p : Pend} (hp : p ∈ r.inflight) (h : id < p.num) :
    p ∈ (r.lateOver id ws).inflight :=
  List.mem_map.2 ⟨p, hp, if_neg (Nat.not_le.2 h)⟩

theorem mem_lateOver_earlier {r : Rope} {id : Nat} {ws : List RegWrite} {p : Pend} (hp : p ∈ r.inflight) (h : p.num ≤ id) :
    p.overtaken ws ∈ (r.lateOver id ws).inflight :=
  List.mem_map.2 ⟨p, hp, if_pos h⟩

theorem Pend.overtaken_single (p : Pend) {w v : RegWrite} (hw : p.writes = [w]) : p.overtaken [v] = { p with writes := [w.overtaken v] } := by
  simp [Pend.overtaken, hw]

/-- With checking off each lane of a destination that is written again keeps one result or the other (R76). -/
theorem raceWrites_lane {o : Outst} {n l : Nat} {v : Word} (n0 : Nat) (ho : o.writes = [.vec n l v]) (hwaits : o.waits = []) (hl : l < 32) (w : Word) :
    (raceWrites [.vec n l w] [o] n0).1 = [{ o with writes := if (choiceMask n0).getLsbD l then [] else [.vec n l v] }] := by
  have hbit : (1#32 <<< l).getLsbD l = true := by simp [hl]
  have hne : (1#32 <<< l) ≠ 0 := fun h => by rw [h] at hbit; simp at hbit
  have hless (m : Word) (sc : Bool) : RegWrite.less [.vec n l w] m sc (.vec n l v) = if m.getLsbD l then none else some (.vec n l v) := by
    have hhit : ((0 : Word) ||| 1#32 <<< l) = 1#32 <<< l := BitVec.zero_or
    have hne' : (1#32 <<< l != 0) = true := bne_iff_ne.2 hne
    simp only [RegWrite.less, List.foldl_cons, List.foldl_nil, and_self, if_true, hhit, hne',
      RegWrite.within, BitVec.getLsbD_not, BitVec.getLsbD_and, hbit, Bool.true_and, hl, decide_true]
    cases m.getLsbD l
    · simp
    · rfl
  have hit : (o.writes ++ o.waits).any (fun w' => RegWrite.less [.vec n l w] 0xFFFFFFFF true w' != some w') = true := by
    have hall : (0xFFFFFFFF : Word).getLsbD l = true := by
      rw [show (0xFFFFFFFF : Word) = BitVec.allOnes 32 from rfl, BitVec.getLsbD_allOnes]
      simp [hl]
    rw [ho, hwaits, List.append_nil, List.any_cons, hless, if_pos hall]
    rfl
  have hcut (m : Word) (sc : Bool) : [RegWrite.vec n l v].filterMap (RegWrite.less [.vec n l w] m sc) = if m.getLsbD l then [] else [.vec n l v] := by
    rw [List.filterMap_cons, hless]
    cases m.getLsbD l <;> rfl
  rw [raceWrites, raceWrites]
  simp only [hit, if_true]
  rw [ho, hwaits, hcut]
  rfl

/-- Settles O44: by what the issue's rope is, by what each landing event does to its list, and by the rules of one register write. -/
theorem resultsLandWhenTheyAreDue : Obligations.ResultsLandWhenTheyAreDue := by
  unfold Obligations.ResultsLandWhenTheyAreDue
  refine ⟨?_, ?_, ?_, fun r n v m => by rw [Rope.write, Rope.setS_sr], fun r n k v m j => Rope.setP_pr_bit r n k v m j,
    fun r k m j => Rope.status_pr_bit r k m j, ?_, ?_, ?_, ?_, ?_, ?_, ?_⟩
  · intro b s1 ws extra r hr hh
    have hq := commit_rope_of_unheld b.y (b.x.overtake s1 ws) ws extra .fall hr hh
    obtain ⟨sp, st, sc, w, he⟩ := committed_fall_regs b.y r ws extra (b.x.overtake s1 ws).nextId
    refine ⟨_, hq, by rw [he], by rw [he], by rw [he], by rw [he], by rw [he], ?_, ?_, ?_⟩
    · rw [he, Issue.flown]
      cases ws <;> rfl
    · rw [Begun.after, commit_eq b.y (b.x.overtake s1 ws) ws extra .fall hr, holdQuad_of_unheld (by rw [State.setCore_core]; exact hh)]
      show ((State.onWg _ _ _).core _).issued = _
      rw [State.onWg_core, State.setCore_core]
      rfl
    · intro u hu hs
      rw [committed_fall_sched u hu hs]
  · intro s k r p l hr hl hp h
    refine congrArg done ?_
    rw [onRope_eq hr, Rope.land_first hl hp h]
  · intro r n l v m j hl hj
    exact Rope.setV_vr r n l v m j hl hj
  · intro s k r o l hr hl ht ha hw hwaits h
    exact congrArg done (lands_eq hr _ (Rope.loadLands_first hl ht ha hw hwaits h))
  · intro s k r o p l hr hl ht hp ha hw hwaits h
    exact congrArg done (lands_eq hr _ (Rope.loadLands_second hl ht hp ha hw hwaits h))
  · intro s k r o l hr hl ho hd h
    refine congrArg done ?_
    rw [onRope_eq hr, Rope.storesOut_first hl ho hd h]
  · intro s n e r he hd hr hp
    exact execSfuResultDelivery_ready he hd hr hp
  · intro s k r o l hr hl ht ha h
    exact congrArg done (lands_eq hr _ (Rope.sfqLands_first hl ht ha h))
  · intro r id ws p hp
    refine ⟨mem_lateOver_later hp, ?_, ?_, ?_⟩
    · rintro n l v w h hw rfl
      have hm := mem_lateOver_earlier (ws := [.vec n l w]) hp h
      rwa [p.overtaken_single hw, RegWrite.overtaken, if_pos ⟨rfl, rfl⟩] at hm
    · rintro n v w h hw rfl
      have hm := mem_lateOver_earlier (ws := [.scalar n w]) hp h
      rwa [p.overtaken_single hw, RegWrite.overtaken, if_pos rfl] at hm
    · rintro n m v w h hw rfl hne
      have hm := mem_lateOver_earlier (ws := [.scalar m w]) hp h
      rw [p.overtaken_single hw, RegWrite.overtaken, if_neg hne, ← hw] at hm
      exact hm
  · intro o n l v n0 ho hwaits hl w
    exact raceWrites_lane n0 ho hwaits hl w

end Sys2Proof.Machine
end

section
/-! PROOFS. What the caches' own doings leave of the memories and of everything else: touches, recalls, evictions, translations
(R293 to R297, R302, R305). -/

namespace Sys2Proof.Machine

/-- No partial value of a line's update-only copies stands for a byte of the frames. -/
def L2Line.Clear (l : L2Line) (p : Nat) : Prop :=
  ∀ u ∈ l.uo, ∀ w ∈ u.words, ¬(l.base + 4 * w.1 ≤ p ∧ p < l.base + 4 * w.1 + w.2.1.size)

theorem pendingAt_iff_clear {s : State} {p : Nat} : s.pendingAt p = false ↔ ∀ l ∈ s.l2, l.Clear p := by
  refine ⟨fun h l hl => pendingAt_eq_false h hl, fun h => ?_⟩
  rw [State.pendingAt, List.any_eq_false]
  intro l hl hc
  obtain ⟨u, hu, hc⟩ := List.any_eq_true.1 hc
  obtain ⟨w, hw, hc⟩ := List.any_eq_true.1 hc
  exact h l hl u hu w hw (by simpa using hc)

theorem L2Line.clear_of_uo_nil {l : L2Line} (h : l.uo = []) (p : Nat) : l.Clear p := by
  intro u hu
  rw [h] at hu
  cases hu

/-- A line that keeps at most another's copies, on the same bytes. -/
theorem L2Line.Clear.of {l k : L2Line} {p : Nat} (h : l.Clear p) (hb : k.base = l.base) (hu : ∀ u ∈ k.uo, u ∈ l.uo) : k.Clear p := by
  intro u huk
  rw [hb]
  exact h u (hu u huk)

theorem L2Line.Clear.leaveWays {l : L2Line} {p : Nat} (h : l.Clear p) (c : Nat) (g : Nat → Bool) : (l.leaveWays c g).Clear p :=
  h.of rfl fun _ hu => (List.mem_filter.1 hu).1

theorem rdByte_foldl_combine {l : L2Line} {p : Nat} (h : l.Clear p) (us : List UoCopy) (hus : ∀ u ∈ us, u ∈ l.uo) (m : Tbl Byte) :
    rdByte (us.foldl (fun m c => c.combine l.base m) m) p = rdByte m p := by
  induction us generalizing m with
  | nil => rfl
  | cons u us ih =>
    rw [List.foldl_cons, ih (fun v hv => hus v (List.mem_cons_of_mem _ hv))]
    exact u.combine_other _ _ _ (h u (hus u List.mem_cons_self))

theorem L2Line.Clear.rdByte_combined {l : L2Line} {p : Nat} (h : l.Clear p) (m : Tbl Byte) : rdByte (l.combined m) p = rdByte m p :=
  rdByte_foldl_combine h l.uo (fun _ hu => hu) m

/-- The state but for what the caches hold, and but for partial values written home: at byte `p` of the frames, and everywhere else. -/
structure State.Settles (s t : State) (p : Nat) : Prop where
  frames : s.pendingAt p = false → t.pendingAt p = false ∧ rdByte t.mem p = rdByte s.mem p
  host : t.host = s.host
  peer : t.peer = s.peer
  ropes : t.ropes = s.ropes
  wgs : t.wgs = s.wgs
  streams : t.streams = s.streams
  cores : t.cores = s.cores

section
variable {s t u : State} {p : Nat}

theorem State.settles_refl (s : State) (p : Nat) : s.Settles s p := ⟨fun h => ⟨h, rfl⟩, rfl, rfl, rfl, rfl, rfl, rfl⟩

theorem State.Settles.trans (h : s.Settles t p) (h' : t.Settles u p) : s.Settles u p :=
  ⟨fun hp => ⟨(h'.frames (h.frames hp).1).1, (h'.frames (h.frames hp).1).2.trans (h.frames hp).2⟩, h'.host.trans h.host,
    h'.peer.trans h.peer, h'.ropes.trans h.ropes, h'.wgs.trans h.wgs, h'.streams.trans h.streams, h'.cores.trans h.cores⟩

theorem State.settles_foldl {α : Type} (g : State → α → State) (hg : ∀ (s : State) (a : α), s.Settles (g s a) p) (l : List α) (s : State) :
    s.Settles (l.foldl g s) p := by
  induction l generalizing s with
  | nil => exact s.settles_refl p
  | cons a l ih => exact (hg s a).trans (ih _)

/-- The frames as they are, and the lines with no more copies than before. -/
theorem State.settles_frames {m : Tbl Byte} {ls : List L2Line} (hm : s.pendingAt p = false → rdByte m p = rdByte s.mem p)
    (hl : (∀ l ∈ s.l2, l.Clear p) → ∀ l ∈ ls, l.Clear p) :
    s.pendingAt p = false → ({ s with mem := m, l2 := ls } : State).pendingAt p = false ∧ rdByte m p = rdByte s.mem p :=
  fun h => ⟨pendingAt_iff_clear.2 (hl (pendingAt_iff_clear.1 h)), hm h⟩

theorem State.settles_lines (s : State) {m : Tbl Byte} {ls : List L2Line} (hm : s.pendingAt p = false → rdByte m p = rdByte s.mem p)
    (hl : (∀ l ∈ s.l2, l.Clear p) → ∀ l ∈ ls, l.Clear p) : s.Settles { s with mem := m, l2 := ls } p :=
  ⟨State.settles_frames hm hl, rfl, rfl, rfl, rfl, rfl, rfl⟩

/-- A line put in place adds no partial value where its copies are those of a line that is there. -/
theorem State.putLine_settles (s : State) (l : L2Line) (hl : (∀ k ∈ s.l2, k.Clear p) → l.Clear p) : s.Settles (s.putLine l) p := by
  refine s.settles_lines (m := s.mem) (fun _ => rfl) fun hc k hk => ?_
  obtain rfl | hk := List.mem_cons.1 hk
  · exact hl hc
  · exact hc k (List.mem_filter.1 hk).1

theorem State.l2Line_mem {s : State} {asid : BitVec 16} {va : Nat} {l : L2Line} (h : s.l2Line asid va = some l) : l ∈ s.l2 :=
  List.mem_of_find?_eq_some h

/-- A line's partial values go home, and the line is put in place without copies. -/
theorem State.combine_put_settles (s : State) {l k : L2Line} (hl : l ∈ s.l2) (hk : k.uo = []) :
    s.Settles (({ s with mem := l.combined s.mem } : State).putLine k) p := by
  refine State.Settles.trans (t := { s with mem := l.combined s.mem, l2 := s.l2 }) ?_ (State.putLine_settles _ k fun _ => L2Line.clear_of_uo_nil hk p)
  exact s.settles_lines (fun h => (pendingAt_iff_clear.1 h l hl).rdByte_combined _) id

theorem State.recall_settles (s : State) (asid : BitVec 16) (va p : Nat) : s.Settles (s.recall asid va) p := by
  unfold State.recall
  split
  · exact s.settles_refl p
  · next l hl =>
    split
    · exact s.settles_refl p
    · exact s.combine_put_settles (State.l2Line_mem hl) rfl

theorem State.evictLine_settles (s : State) (l : L2Line) (hl : l ∈ s.l2) (p : Nat) : s.Settles (s.evictLine l) p :=
  s.settles_lines (fun h => (pendingAt_iff_clear.1 h l hl).rdByte_combined _) fun h _ hk => h _ (List.mem_filter.1 hk).1

theorem State.recallPhys_settles (s : State) (q n p : Nat) : s.Settles (s.recallPhys q n) p := by
  unfold State.recallPhys
  split
  · refine s.settles_lines (fun h => ?_) fun h l hl => ?_
    · exact rdByte_foldl_lines _ _ _ fun l hl m => (pendingAt_iff_clear.1 h l (List.mem_filter.1 hl).1).rdByte_combined m
    · obtain ⟨k, hk, rfl⟩ := List.mem_map.1 hl
      split
      · exact L2Line.clear_of_uo_nil rfl p
      · exact h k hk
  · exact s.settles_refl p

theorem State.l1Leave_settles (s : State) (c : Nat) (g q : Nat → Bool) (p : Nat) : s.Settles (s.l1Leave c g q) p := by
  refine s.settles_lines (fun h => ?_) fun h l hl => ?_
  · refine rdByte_foldl_lines _ _ _ fun l hl m => ?_
    split
    · exact rdByte_foldl_combine (pendingAt_iff_clear.1 h l hl) _ (fun u hu => (List.mem_filter.1 hu).1) m
    · rfl
  · obtain ⟨k, hk, rfl⟩ := List.mem_map.1 hl
    split
    · exact (h k hk).leaveWays c q
    · exact h k hk

theorem State.draw_settles (s : State) (p : Nat) : s.Settles s.draw.2 p := ⟨fun h => ⟨h, rfl⟩, rfl, rfl, rfl, rfl, rfl, rfl⟩

theorem State.l1Way_settles (s : State) (c line q p : Nat) : s.Settles (s.l1Way c line q).1 p := by
  unfold State.l1Way
  simp only []
  split
  · exact s.settles_refl p
  · refine (s.draw_settles p).trans ?_
    dsimp only
    exact State.l1Leave_settles s.draw.2 c _ _ p

theorem State.evictLines_eq (ls : List L2Line) (s : State) :
    ∃ ks, ls.foldl State.evictLine s = { s with mem := ls.foldl (fun m l => l.combined m) s.mem, l2 := ks } ∧ ∀ k ∈ ks, k ∈ s.l2 := by
  induction ls generalizing s with
  | nil => exact ⟨s.l2, rfl, fun _ hk => hk⟩
  | cons l ls ih =>
    obtain ⟨ks, h, hks⟩ := ih (s.evictLine l)
    exact ⟨ks, h, fun k hk => (List.mem_filter.1 (hks k hk)).1⟩

/-- Evictions of lines that are there, one after the other. -/
theorem State.evictLines_settles (ls : List L2Line) (s : State) (p : Nat) (h : ∀ l ∈ ls, l ∈ s.l2) :
    s.Settles (ls.foldl State.evictLine s) p := by
  obtain ⟨ks, he, hks⟩ := State.evictLines_eq ls s
  rw [he]
  refine s.settles_lines (fun hp => ?_) fun hc k hk => hc k (hks k hk)
  exact rdByte_foldl_lines _ _ _ fun l hl m => (pendingAt_iff_clear.1 hp l (h l hl)).rdByte_combined m

theorem State.allocLine_settles (s : State) (l : L2Line) (mask : BitVec 16) (p : Nat) (hl : l.uo = []) : s.Settles (s.allocLine l mask) p := by
  have hput (t : State) (w : Nat) : t.Settles (t.putLine { l with way := w }) p := t.putLine_settles _ fun _ => L2Line.clear_of_uo_nil hl p
  unfold State.allocLine
  simp only []
  split
  · exact hput s _
  · split
    · exact hput s _
    · refine (s.draw_settles p).trans (State.Settles.trans (State.evictLines_settles _ s.draw.2 p fun k hk => ?_) (hput _ _))
      exact (List.mem_filter.1 (List.mem_filter.1 hk).1).1

theorem State.walkRecall_settles (s : State) (asid : BitVec 16) (va p : Nat) : s.Settles (s.walkRecall asid va) p := by
  unfold State.walkRecall
  split
  · exact s.settles_refl p
  · exact State.settles_foldl _ (fun t q => t.recallPhys_settles q 8 p) _ _

theorem State.own_settles (s : State) (asid : BitVec 16) (va f p : Nat) : s.Settles (s.own asid va f) p := by
  unfold State.own
  split
  · exact ⟨fun h => ⟨h, rfl⟩, rfl, rfl, rfl, rfl, rfl, rfl⟩
  · exact s.settles_refl p

theorem State.hold_settles (s : State) (asid : BitVec 16) (va p : Nat) : s.Settles (s.hold asid va) p := by
  have h1 : s.Settles (if (s.heldStage1 asid va).isNone then s.walkRecall asid va else s) p := by
    split
    · exact s.walkRecall_settles asid va p
    · exact s.settles_refl p
  unfold State.hold
  simp only []
  generalize (if (s.heldStage1 asid va).isNone then s.walkRecall asid va else s) = u at *
  split <;> split <;> exact h1.trans ⟨fun h => ⟨h, rfl⟩, rfl, rfl, rfl, rfl, rfl, rfl⟩

theorem State.fatalFor_settles (s : State) (q p : Nat) : s.Settles (s.fatalFor q) p := by
  unfold State.fatalFor
  split <;> exact ⟨fun h => ⟨h, rfl⟩, rfl, rfl, rfl, rfl, rfl, rfl⟩

theorem State.walked_settles (s : State) (asid : BitVec 16) (va p : Nat) : s.Settles (s.walked asid va) p := by
  refine (s.walkRecall_settles asid va p).trans ?_
  unfold State.walked
  simp only []
  split
  · split
    · exact State.fatalFor_settles _ _ p
    · exact State.settles_refl _ p
  · exact State.settles_refl _ p

theorem State.logRefused_settles (s : State) (v : Requester) (asid : BitVec 16) (line p : Nat) : s.Settles (s.logRefused v asid line) p :=
  ⟨fun h => ⟨h, rfl⟩, rfl, rfl, rfl, rfl, rfl, rfl⟩

theorem State.failed_settles (s : State) (t : Target) (va : Nat) (k : AccKind) (p : Nat) : s.Settles (s.failed t va k) p := by
  unfold State.failed
  split
  · exact s.logRefused_settles _ _ _ p
  · exact s.walked_settles _ _ p

theorem State.settles_ite_snd {α : Type} {a b : α × State} (c : Prop) [Decidable c] (ha : s.Settles a.2 p) (hb : s.Settles b.2 p) :
    s.Settles (if c then a else b).2 p := by
  split
  · exact ha
  · exact hb

/-- A translation only touches caches. -/
theorem State.xlate_settles (s : State) (t : Target) (va : Nat) (k : AccKind) (p : Nat) : s.Settles (s.xlate t va k).2 p := by
  unfold State.xlate
  split
  · next f _ _ _ _ =>
    simp only []
    have h1 := (s.hold_settles t.asid va p).trans (State.own_settles _ t.asid va f p)
    generalize (s.hold t.asid va).own t.asid va f = u at *
    refine State.settles_ite_snd _ (s.settles_refl p) ?_
    · refine h1.trans ?_
      simp only []
      split
      · next l hl => exact u.combine_put_settles (State.l2Line_mem hl) rfl
      · split
        · exact u.settles_refl p
        · exact u.allocLine_settles _ _ p rfl
  · exact s.failed_settles t va k p

/-- A line put in place of one that was there, or is there, with its copies. -/
theorem State.Settles.putLine {l : L2Line} (h : s.Settles u p) (hl : (∀ k ∈ s.l2, k.Clear p) → (∀ k ∈ u.l2, k.Clear p) → l.Clear p) :
    s.Settles (u.putLine l) p := by
  refine ⟨fun hp => ⟨pendingAt_iff_clear.2 fun k hk => ?_, (h.frames hp).2⟩, h.host, h.peer, h.ropes, h.wgs, h.streams, h.cores⟩
  have hu := pendingAt_iff_clear.1 (h.frames hp).1
  obtain rfl | hk := List.mem_cons.1 hk
  · exact hl (pendingAt_iff_clear.1 hp) hu
  · exact hu k (List.mem_filter.1 hk).1

theorem State.l2Line_getD_clear {asid : BitVec 16} {va : Nat} {l0 : L2Line} (hs : l0.Clear p) (hu : ∀ k ∈ u.l2, k.Clear p) :
    ((u.l2Line asid va).getD l0).Clear p := by
  cases h : u.l2Line asid va with
  | none => exact hs
  | some l => exact hu l (State.l2Line_mem h)

/-- A touch of L1, once the line's copies have been recalled. -/
theorem State.recall_l1Touch_settles (s : State) (c : Nat) (al : Bool) (asid : BitVec 16) (va n q : Nat) (wr : Bool) (p : Nat) :
    (s.recall asid va).Settles (s.l1Touch c al asid va n q wr) p := by
  unfold State.l1Touch
  simp only []
  generalize s.recall asid va = u
  split
  · exact u.settles_refl p
  · next l0 hl0 =>
    have h0 : (∀ k ∈ u.l2, k.Clear p) → l0.Clear p := fun h => h l0 (State.l2Line_mem hl0)
    split
    · have hw : u.Settles (if l0.inL1 c = true then (u, 0) else u.l1Way c l0.line l0.policy).1 p := by
        split
        · exact u.settles_refl p
        · exact u.l1Way_settles _ _ _ p
      exact hw.putLine fun hs hu => (State.l2Line_getD_clear (h0 hs) hu).of rfl fun _ hk => hk
    · exact u.putLine_settles _ fun h => (h0 h).of rfl fun _ hk => hk

theorem State.l1Touch_settles (s : State) (c : Nat) (al : Bool) (asid : BitVec 16) (va n q : Nat) (wr : Bool) (p : Nat) :
    s.Settles (s.l1Touch c al asid va n q wr) p :=
  (s.recall_settles asid va p).trans (s.recall_l1Touch_settles c al asid va n q wr p)

/-- An access at a line's home, once the line's copies have been recalled. -/
theorem State.recall_l1Merge_settles (s : State) (asid : BitVec 16) (va p : Nat) : (s.recall asid va).Settles (s.l1Merge asid va) p := by
  unfold State.l1Merge
  simp only []
  split
  · exact State.settles_refl _ p
  · next l hl => exact State.putLine_settles _ _ fun h => (h l (State.l2Line_mem hl)).of rfl fun _ hk => hk

theorem State.l1Merge_settles (s : State) (asid : BitVec 16) (va p : Nat) : s.Settles (s.l1Merge asid va) p :=
  (s.recall_settles asid va p).trans (s.recall_l1Merge_settles asid va p)

theorem State.prefetch_settles (s : State) (l1 : Bool) (t : Target) (va p : Nat) : s.Settles (s.prefetch l1 t va) p := by
  have hx := s.xlate_settles t va .read p
  unfold State.prefetch
  split
  · next f _ _ _ s1 c hx' _ =>
    rw [hx'] at hx
    split
    · exact hx.trans (State.l1Touch_settles _ _ _ _ _ _ _ _ p)
    · exact hx
  · next s1 hx' _ =>
    rw [hx'] at hx
    exact hx

end

end Sys2Proof.Machine
end

section
/-! PROOFS. PREF (R174, R188, R293, R295). -/

namespace Sys2Proof.Machine

section
variable {s : State} {asid : BitVec 16} {va : Nat} {l : L2Line}

/-! Which line of L2 stands for a VA. -/

theorem State.l2Line_tag (h : s.l2Line asid va = some l) : l.asid = asid ∧ l.line = va / 128 := by
  have := List.find?_some h
  simpa using this

theorem State.putLine_l2Line (s : State) (ha : l.asid = asid) (hl : l.line = va / 128) : (s.putLine l).l2Line asid va = some l := by
  unfold State.l2Line State.putLine
  exact List.find?_cons_of_pos (by simp [ha, hl])

theorem State.allocLine_l2Line (s : State) (mask : BitVec 16) (ha : l.asid = asid) (hl : l.line = va / 128) :
    ∃ w, (s.allocLine l mask).l2Line asid va = some { l with way := w } := by
  have hput (t : State) (w : Nat) : (t.putLine { l with way := w }).l2Line asid va = some { l with way := w } := t.putLine_l2Line ha hl
  unfold State.allocLine
  simp only []
  split
  · exact ⟨_, hput _ _⟩
  · split
    · exact ⟨_, hput _ _⟩
    · exact ⟨_, hput _ _⟩

/-- Lines that are changed in place keep their tags. -/
theorem find?_map_tag (ls : List L2Line) (g : L2Line → L2Line) (hg : ∀ l, (g l).asid = l.asid ∧ (g l).line = l.line) :
    (ls.map g).find? (fun l => l.asid == asid && l.line == va / 128) = (ls.find? (fun l => l.asid == asid && l.line == va / 128)).map g := by
  rw [List.find?_map]
  have : ((fun l : L2Line => l.asid == asid && l.line == va / 128) ∘ g) = fun l => l.asid == asid && l.line == va / 128 := by
    funext l
    simp [hg l]
  rw [this]

theorem State.l1Leave_l2Line (c : Nat) (g p : Nat → Bool) (h : s.l2Line asid va = some l) : ∃ k, (s.l1Leave c g p).l2Line asid va = some k := by
  have hm := find?_map_tag (asid := asid) (va := va) s.l2 (fun l => if g (l.line % 512) then l.leaveWays c p else l)
    (fun l => by split <;> exact ⟨rfl, rfl⟩)
  have hl : s.l2.find? (fun l => l.asid == asid && l.line == va / 128) = some l := h
  rw [hl] at hm
  exact ⟨_, hm⟩

theorem State.l1Way_l2Line (c line q : Nat) (h : s.l2Line asid va = some l) : ∃ k, (s.l1Way c line q).1.l2Line asid va = some k := by
  unfold State.l1Way
  simp only []
  split
  · exact ⟨l, h⟩
  · exact State.l1Leave_l2Line (s := s.draw.2) (l := l) c _ _ h

theorem State.recall_l2Line (h : s.l2Line asid va = some l) : ∃ k, (s.recall asid va).l2Line asid va = some k := by
  unfold State.recall
  rw [h]
  simp only []
  split
  · exact ⟨l, h⟩
  · exact ⟨_, State.putLine_l2Line _ (State.l2Line_tag h).1 (State.l2Line_tag h).2⟩

/-- A read that may allocate leaves its line in the core's L1. -/
theorem State.l1Touch_inL1 (c n q : Nat) (h : s.l2Line asid va = some l) :
    ∃ k, (s.l1Touch c true asid va n q false).l2Line asid va = some k ∧ k.inL1 c = true := by
  obtain ⟨l0, h0⟩ := State.recall_l2Line h
  unfold State.l1Touch
  simp only [h0, Bool.or_true, if_true]
  generalize hp : (if l0.inL1 c = true then (s.recall asid va, 0) else (s.recall asid va).l1Way c l0.line l0.policy) = p
  obtain ⟨m, hm⟩ : ∃ m, p.1.l2Line asid va = some m := by
    rw [← hp]
    split
    · exact ⟨l0, h0⟩
    · exact State.l1Way_l2Line c _ _ h0
  rw [hm, Option.getD_some]
  refine ⟨_, State.putLine_l2Line _ (State.l2Line_tag hm).1 (State.l2Line_tag hm).2, ?_⟩
  unfold L2Line.inL1
  simp only [Bool.false_eq_true, if_false]
  split
  · next hin => exact hin
  · next hin =>
    have hnone : m.l1.find? (fun e => e.1 == c) = none := List.find?_eq_none.2 fun e he hc => hin (List.any_eq_true.2 ⟨e, he, hc⟩)
    simp [hnone]

end

/-! A translation, by what it finds. -/

/-- Whether L2 holds a VA's line with the rights that an access needs (R296). -/
def State.hits (s : State) (t : Target) (va : Nat) (k : AccKind) : Bool := (s.l2Line t.asid va).any (fun l => k.fits l.r l.w l.x)

/-- A line that an access has missed enters L2, or takes the frame and the rights that the access has found (R295). -/
def State.entered (u : State) (t : Target) (va f : Nat) (r w x : Bool) : State :=
  match u.l2Line t.asid va with
  | some l => { u with mem := l.combined u.mem }.putLine { l with frame := f, r := r, w := w, x := x, uo := [] }
  | none => if t.policy = 2 then u else
      u.allocLine ⟨t.asid, va / 128, u.homeFor t va, 0, f, r, w, x, t.policy, [], [], none, []⟩ t.mask

section
variable {s s1 : State} {t : Target} {va f : Nat} {r w x : Bool} {k : AccKind}

/-- A translation that succeeds: its line is in L2, or what it has found is held, owned and enters L2. -/
theorem State.xlate_of_ok (h : s.find t va k = .ok f r w x) :
    s.xlate t va k = (.ok f r w x, if s.hits t va k then s else ((s.hold t.asid va).own t.asid va f).entered t va f r w x) := by
  unfold State.xlate
  rw [h]
  cases hl : s.l2Line t.asid va with
  | none =>
    have hh : s.hits t va k = false := by rw [State.hits, hl]; rfl
    simp only [hh, Bool.false_eq_true, if_false]
    rfl
  | some l =>
    have hh : s.hits t va k = k.fits l.r l.w l.x := by rw [State.hits, hl]; rfl
    rw [hh]
    show (if k.fits l.r l.w l.x = true then (Xlated.ok f r w x, s)
      else (Xlated.ok f r w x, ((s.hold t.asid va).own t.asid va f).entered t va f r w x)) = _
    cases k.fits l.r l.w l.x with
    | true => rfl
    | false => rfl

theorem State.xlate_fst (s : State) (t : Target) (va : Nat) (k : AccKind) : (s.xlate t va k).1 = s.find t va k := by
  cases h : s.find t va k with
  | ok f r w x => rw [State.xlate_of_ok h]
  | fault n => unfold State.xlate; rw [h]
  | aliased => unfold State.xlate; rw [h]

/-- What a translation that succeeds leaves. -/
theorem State.xlate_ok (h : s.xlate t va k = (.ok f r w x, s1)) : s.find t va k = .ok f r w x ∧
    s1 = if s.hits t va k then s else ((s.hold t.asid va).own t.asid va f).entered t va f r w x := by
  have hf : s.find t va k = .ok f r w x := by rw [← State.xlate_fst, h]
  rw [State.xlate_of_ok hf] at h
  exact ⟨hf, (congrArg Prod.snd h).symm⟩

theorem State.entered_l2Line (u : State) (t : Target) (va f : Nat) (r w x : Bool) (hp : t.policy ≠ 2) :
    ∃ l, (u.entered t va f r w x).l2Line t.asid va = some l := by
  cases hl : u.l2Line t.asid va with
  | some l =>
    have he : u.entered t va f r w x = ({ u with mem := l.combined u.mem } : State).putLine { l with frame := f, r := r, w := w, x := x, uo := [] } := by
      rw [State.entered, hl]
    rw [he]
    exact ⟨_, State.putLine_l2Line _ (State.l2Line_tag hl).1 (State.l2Line_tag hl).2⟩
  | none =>
    have he : u.entered t va f r w x =
        u.allocLine ⟨t.asid, va / 128, u.homeFor t va, 0, f, r, w, x, t.policy, [], [], none, []⟩ t.mask := by
      rw [State.entered, hl]
      exact if_neg hp
    rw [he]
    obtain ⟨w, hw⟩ := u.allocLine_l2Line (asid := t.asid) (va := va) (l := ⟨t.asid, va / 128, u.homeFor t va, 0, f, r, w, x, t.policy, [], [], none, []⟩)
      t.mask rfl rfl
    exact ⟨_, hw⟩

/-- A translated access leaves its line in L2, unless its policy allocates nothing. -/
theorem State.xlate_l2Line (h : s.xlate t va k = (.ok f r w x, s1)) (hp : t.policy ≠ 2) : ∃ l, s1.l2Line t.asid va = some l := by
  rw [(State.xlate_ok h).2]
  cases hh : s.hits t va k with
  | true =>
    obtain ⟨l, hl, -⟩ := (Option.any_eq_true _ _).1 hh
    exact ⟨l, hl⟩
  | false => exact State.entered_l2Line _ t va f r w x hp

/-- A prefetch of a translated place leaves its line in L2, and in the core's L1 where that is asked for and may be (R188). -/
theorem State.prefetch_l2Line {c : Nat} (l1 : Bool) (hc : t.core = some c)
    (h : s.xlate t va .read = (.ok f r w x, s1)) (hp : t.policy ≠ 2) :
    ∃ l, (s.prefetch l1 t va).l2Line t.asid va = some l ∧ (l1 = true → t.policy < 2 → l.inL1 c = true) := by
  obtain ⟨l, hl⟩ := State.xlate_l2Line h hp
  unfold State.prefetch
  rw [h, hc]
  simp only []
  split
  · obtain ⟨k, hk, hin⟩ := State.l1Touch_inL1 (va := va) c 1 (physOf f va) hl
    exact ⟨k, hk, fun _ _ => hin⟩
  · next hno => exact ⟨l, hl, fun h1 h2 => absurd (by simp [h1, Target.alloc, h2]) hno⟩

end

/-- What PREF does for its lanes (R188): those whose checks pass request their lines. -/
def Begun.prefetched (b : Begun) (els : List MemEl) : State :=
  let f := b.y.f
  let h := b.t.ropeHandle b.y.r (f.a.toNat % 16)
  els.foldl (fun (t : State) e =>
    if h.ent.policy ≠ 2 ∧ (b.y.addrTrap b.t h ⟨[spGlobal], 1, .load⟩ (f.c.getLsbD 0) 1 1 [e]).isNone then
      t.prefetch (f.d.getLsbD 0) (b.y.goal t h) (h.addr e.off).toNat
    else t) b.t

theorem Begun.prefetched_settles (b : Begun) (els : List MemEl) (p : Nat) : b.t.Settles (b.prefetched els) p := by
  refine State.settles_foldl _ (fun s e => ?_) els b.t
  split
  · exact s.prefetch_settles _ _ _ p
  · exact s.settles_refl p

theorem foldl_skips {α β : Type} (p : α → Prop) [DecidablePred p] (g : β → α → β) (l : List α) (s : β) (h : ∀ a ∈ l, ¬ p a) :
    l.foldl (fun s a => if p a then g s a else s) s = s := by
  induction l with
  | nil => rfl
  | cons a l ih => rw [List.foldl_cons, if_neg (h a List.mem_cons_self), ih fun b hb => h b (List.mem_cons_of_mem _ hb)]

/-- Settles O31: PREF's lanes only touch caches, and what a translated lane requests is in L2 afterwards. -/
theorem prefetchesOnlyTouchCaches : Obligations.PrefetchesOnlyTouchCaches := by
  unfold Obligations.PrefetchesOnlyTouchCaches
  intro f s b hb hfree
  have hf := (begun_op hb).2.2.2
  have hexec : exec (.pref f) s = .next (b.after (b.prefetched (if b.y.act = 0 then [] else b.y.elems (f.c.getLsbD 0)
      (fun l => .load 1 false (f.c.getLsbD 0) 0 l))) [] 0 .fall) := by
    show execPref f s = _
    refine issue_go hb ?_
    rw [Begun.prefetched, hf]
    exact if_neg (ne_true_of_eq_false hfree)
  refine ⟨⟨_, hexec, fun p hp => ?_, ?_⟩, fun hno => ?_, fun e c fr x y z s1 hsc hact hels hpass hpol hc hx => ⟨b.prefetched [e], ?_⟩⟩
  · obtain ⟨hpend, hbyte⟩ := (b.prefetched_settles _ p).frames hp
    exact ⟨hbyte, hpend⟩
  · obtain ⟨-, hh, hp, hr, hw, hs, hk⟩ := b.prefetched_settles (if b.y.act = 0 then [] else b.y.elems (f.c.getLsbD 0)
      (fun l => .load 1 false (f.c.getLsbD 0) 0 l)) 0
    exact ⟨hh, hp, hr, hw, hs, hk⟩
  · rw [hexec, Begun.prefetched, hf, foldl_skips]
    rintro e he ⟨hpol, hpass⟩
    split at he
    · cases he
    · next hact =>
      obtain hno | hno | hno := hno
      · exact hact hno
      · exact hpol hno
      · have := hno e he
        simp only [Option.isSome_iff_ne_none, ne_eq] at this
        exact this (Option.isNone_iff_eq_none.1 hpass)
  · rw [if_neg hact, hels] at hexec
    obtain ⟨l, hl, hin⟩ := State.prefetch_l2Line (f.d.getLsbD 0) hc hx hpol
    refine ⟨l, hexec, ?_, hin⟩
    rw [Begun.prefetched, hf]
    simp only [List.foldl_cons, List.foldl_nil]
    rw [if_pos]
    · exact hl
    · exact ⟨hpol, Option.isNone_iff_eq_none.2 (Option.not_isSome_iff_eq_none.1 (ne_true_of_eq_false hpass))⟩

end Sys2Proof.Machine
end

section
/-! PROOFS. Translation in two stages (R302 to R306, R342). -/

namespace Sys2Proof.Machine

/-! The fields of a page-table entry. -/

section
variable {e : Nat}

theorem getLsbD_entry {i : Nat} (hi : i < 64) : (BitVec.ofNat 64 e).getLsbD i = bitOf e i := by
  rw [BitVec.getLsbD_ofNat, decide_eq_true hi, Bool.true_and, bitOf_eq_testBit]

theorem extract_entry {lo w : Nat} (he : e < 2 ^ 64) : ((BitVec.ofNat 64 e).extractLsb' lo w).toNat = e / 2 ^ lo % 2 ^ w := by
  rw [BitVec.extractLsb'_toNat, BitVec.toNat_ofNat, Nat.mod_eq_of_lt he, Nat.shiftRight_eq_div_pow]

theorem extract_entry_eq_zero {lo w : Nat} (he : e < 2 ^ 64) : (BitVec.ofNat 64 e).extractLsb' lo w = 0 ↔ e / 2 ^ lo % 2 ^ w = 0 := by
  rw [← BitVec.toNat_inj, extract_entry he]
  rfl

end

/-! One level of a walk. -/

section
variable {s : State} {va fuel lvl table e : Nat} (hr : s.tableRead (table + 8 * (va / 2 ^ lvlShift lvl % (lvlSize lvl / 8))) = .ok e)
include hr

theorem walk_invalid (h : bitOf e 0 = false) : s.walk va (fuel + 1) lvl table = .error 1 := by
  simp only [State.walk, hr, h, Bool.not_false, if_true]

theorem walk_reserved (h : bitOf e 0 = true) (hz : bits e 7 5 ≠ 0 ∨ bits e 63 52 ≠ 0) : s.walk va (fuel + 1) lvl table = .error 3 := by
  have hz' : (bits e 7 5 != 0 || bits e 63 52 != 0) = true := by simpa using hz
  simp only [State.walk, hr, h, hz', Bool.not_true, Bool.false_eq_true, if_false, if_true]

variable (h : bitOf e 0 = true) (hz : bits e 7 5 = 0) (hz' : bits e 63 52 = 0)
include h hz hz'

theorem walk_leaf (hl : bitOf e 1 = true) : s.walk va (fuel + 1) lvl table =
    if lvl = 0 ∨ e / 256 % 2 ^ 44 * 256 % 2 ^ lvlShift lvl ≠ 0 then .error 3
    else .ok (e / 256 % 2 ^ 44 * 256 + va % 2 ^ lvlShift lvl, bitOf e 2, bitOf e 3, bitOf e 4) := by
  simp only [State.walk, hr, h, hz, hz', hl, Bool.not_true, Bool.false_eq_true, if_false, if_true, bne_self_eq_false, Bool.or_self]

theorem walk_table (hl : bitOf e 1 = false) : s.walk va (fuel + 1) lvl table =
    if lvl = 3 ∨ bits e 4 2 ≠ 0 ∨ e / 256 % 2 ^ 44 * 256 % lvlSize (lvl + 1) ≠ 0 then .error 3
    else s.walk va fuel (lvl + 1) (e / 256 % 2 ^ 44 * 256) := by
  simp only [State.walk, hr, h, hz, hz', hl, Bool.not_true, Bool.false_eq_true, if_false, if_true, bne_self_eq_false, Bool.or_self]

end

/-! The second stage. -/

section
variable {s : State} {asid : BitVec 16} {va key : Nat} {k : AccKind}

theorem stage1Seen_of_unheld (h : s.heldStage1 asid va = none) : s.stage1Seen asid va = s.stage1 asid va := by
  rw [State.stage1Seen, h]

theorem mtlb_far (h : 2 ^ 48 ≤ va) : s.mtlb asid va k (some key) = .fault 4 := if_pos h

theorem mtlb_walkFault (hv : va < 2 ^ 48) {r : Nat} (h : s.stage1Seen asid va = .error r) : s.mtlb asid va k (some key) = .fault (r % 16) := by
  rw [State.mtlb, if_neg (Nat.not_le.2 hv), h]

variable {ipa : Nat} {r w x : Bool} (hv : va < 2 ^ 48) (hs : s.stage1Seen asid va = .ok (ipa, r, w, x))
include hv hs

theorem mtlb_barred (h : k.fits r w x = false) : s.mtlb asid va k (some key) = .fault 2 := by
  rw [State.mtlb, if_neg (Nat.not_le.2 hv), hs]
  simp [h]

variable (hfit : k.fits r w x = true)
include hfit

theorem mtlb_unbacked (h : tget s.stage2 (ipa / 65536) = none) : s.mtlb asid va k (some key) = .fault 5 := by
  rw [State.mtlb, if_neg (Nat.not_le.2 hv), hs]
  simp [hfit, h]

variable {e : S2Entry} (he : tget s.stage2 (ipa / 65536) = some e)
include he

theorem mtlb_refused (h : k.fits true e.w e.x = false ∨ e.key.toNat ≠ key) : s.mtlb asid va k (some key) = .fault 5 := by
  rw [State.mtlb, if_neg (Nat.not_le.2 hv), hs]
  have hc : (!k.fits true e.w e.x || e.key.toNat != key) = true := by simpa using h
  simp [hfit, he, hc]

theorem mtlb_owned (h : k.fits true e.w e.x = true) (hk : e.key.toNat = key) (hw : e.w = true)
    {o : BitVec 16 × Nat} (ho : tget s.owners e.frame = some o) (hne : o ≠ (asid, va / 65536)) : s.mtlb asid va k (some key) = .aliased := by
  rw [State.mtlb, if_neg (Nat.not_le.2 hv), hs]
  rw [hw] at h
  simp [hfit, he, h, hk, hw, ho, hne]

theorem mtlb_frame (h : k.fits true e.w e.x = true) (hk : e.key.toNat = key)
    (ho : ¬(e.w = true ∧ ∃ o, tget s.owners e.frame = some o ∧ o ≠ (asid, va / 65536))) :
    s.mtlb asid va k (some key) = .ok e.frame r (w && e.w) (x && e.x) := by
  rw [State.mtlb, if_neg (Nat.not_le.2 hv), hs]
  cases ho' : tget s.owners e.frame with
  | none => simp [hfit, he, h, hk, ho']
  | some o =>
    have hn : (e.w && (o != (asid, va / 65536))) = false := by
      by_contra hc
      exact ho ⟨(by simpa using hc : _ ∧ _).1, o, ho', (by simpa using hc : _ ∧ _).2⟩
    simp [hfit, he, h, hk, ho', hn]

end

/-! What a translation leaves of the owners (R305). -/

theorem State.walkRecall_owners (s : State) (asid : BitVec 16) (va : Nat) :
    (s.walkRecall asid va).owners = s.owners ∧ (s.walkRecall asid va).stage2 = s.stage2 := by
  have hone (t : State) (p : Nat) : (t.recallPhys p 8).owners = t.owners ∧ (t.recallPhys p 8).stage2 = t.stage2 := by
    unfold State.recallPhys
    split <;> exact ⟨rfl, rfl⟩
  unfold State.walkRecall
  split
  · exact ⟨rfl, rfl⟩
  · next root h =>
    clear h
    generalize s.walkReads va 4 0 root.toNat = l
    induction l generalizing s with
    | nil => exact ⟨rfl, rfl⟩
    | cons p l ih =>
      obtain ⟨ho, hs⟩ := ih (s.recallPhys p 8)
      exact ⟨ho.trans (hone s p).1, hs.trans (hone s p).2⟩

theorem State.hold_owners (s : State) (asid : BitVec 16) (va : Nat) : (s.hold asid va).owners = s.owners ∧ (s.hold asid va).stage2 = s.stage2 := by
  have h1 : (if (s.heldStage1 asid va).isNone then s.walkRecall asid va else s).owners = s.owners ∧
      (if (s.heldStage1 asid va).isNone then s.walkRecall asid va else s).stage2 = s.stage2 := by
    split
    · exact s.walkRecall_owners asid va
    · exact ⟨rfl, rfl⟩
  unfold State.hold
  simp only []
  generalize (if (s.heldStage1 asid va).isNone then s.walkRecall asid va else s) = u at *
  split <;> split <;> exact h1

theorem State.allocLine_owners (s : State) (l : L2Line) (mask : BitVec 16) : (s.allocLine l mask).owners = s.owners := by
  unfold State.allocLine
  simp only []
  split
  · rfl
  · split
    · rfl
    · obtain ⟨ks, he, -⟩ := State.evictLines_eq ((s.l2.filter (fun m => m.sameSet l)).filter (fun m => m.way == _)) s.draw.2
      rw [he]
      rfl

theorem State.entered_owners (u : State) (t : Target) (va f : Nat) (r w x : Bool) : (u.entered t va f r w x).owners = u.owners := by
  unfold State.entered
  split
  · rfl
  · split
    · rfl
    · exact u.allocLine_owners _ _

/-- The first pair to reach a writable frame becomes its owner. -/
theorem State.own_owners (s : State) (asid : BitVec 16) (va f : Nat) : (s.own asid va f).owners =
    if s.stage2.any (fun e => e.2.frame == f && e.2.w) = true ∧ tget s.owners f = none then tset s.owners f (asid, va / 65536) else s.owners := by
  unfold State.own
  simp only [Bool.and_eq_true, Option.isNone_iff_eq_none]
  split <;> rfl

section
variable {s : State} {t : Target} {va : Nat} {k : AccKind} (hr : s.refused t va k = false)
include hr

theorem find_of_miss (hl : s.l2Line t.asid va = none) : s.find t va k = s.mtlb t.asid va k (some t.key) := by
  rw [State.find, if_neg (ne_true_of_eq_false hr), State.lookup, hl]

theorem find_of_hit {l : L2Line} (hl : s.l2Line t.asid va = some l) (hfit : k.fits l.r l.w l.x = true) : s.find t va k = .ok l.frame l.r l.w l.x := by
  rw [State.find, if_neg (ne_true_of_eq_false hr), State.lookup, hl]
  exact if_pos hfit

end

theorem xlate_owners_of_miss {s : State} {t : Target} {va f : Nat} {r w x : Bool} {k : AccKind} (hl : s.l2Line t.asid va = none)
    (h : (s.xlate t va k).1 = .ok f r w x) : (s.xlate t va k).2.owners =
      if s.stage2.any (fun e => e.2.frame == f && e.2.w) = true ∧ tget s.owners f = none then tset s.owners f (t.asid, va / 65536) else s.owners := by
  have hhit : s.hits t va k = false := by rw [State.hits, hl]; rfl
  rw [State.xlate_of_ok ((s.xlate_fst t va k).symm.trans h), if_neg (ne_true_of_eq_false hhit), State.entered_owners, State.own_owners,
    (s.hold_owners t.asid va).1, (s.hold_owners t.asid va).2]

theorem xlate_hit {s : State} {t : Target} {va : Nat} {k : AccKind} {l : L2Line} (hr : s.refused t va k = false)
    (hl : s.l2Line t.asid va = some l) (hfit : k.fits l.r l.w l.x = true) : s.xlate t va k = (.ok l.frame l.r l.w l.x, s) := by
  have hhit : s.hits t va k = true := by rw [State.hits, hl]; exact hfit
  rw [State.xlate_of_ok (find_of_hit hr hl hfit), if_pos hhit]

/-- One level of the walk, by the fields of its entry as R302 prints them. -/
theorem walk_level (s : State) (va fuel lvl table e : Nat) (hlvl : lvl < 4) :
    let shift : Nat := [39, 30, 21, 16].getD lvl 0
    let index : Nat := va / 2 ^ shift % ([512, 512, 512, 32].getD lvl 0)
    let E : DWord := BitVec.ofNat 64 e
    let addr : Nat := (E.extractLsb' 8 44).toNat * 256
    s.tableRead (table + 8 * index) = .ok e → e < 2 ^ 64 →
    let out := s.walk va (fuel + 1) lvl table
    (E.getLsbD 0 = false → out = .error 1) ∧
    (E.getLsbD 0 = true → (E.extractLsb' 5 3 ≠ 0 ∨ E.extractLsb' 52 12 ≠ 0) → out = .error 3) ∧
    (E.getLsbD 0 = true → E.extractLsb' 5 3 = 0 → E.extractLsb' 52 12 = 0 →
      if E.getLsbD 1 then
        (if lvl = 0 ∨ addr % 2 ^ shift ≠ 0 then out = .error 3
          else out = .ok (addr + va % 2 ^ shift, E.getLsbD 2, E.getLsbD 3, E.getLsbD 4))
      else if lvl = 3 ∨ E.extractLsb' 2 3 ≠ 0 ∨ addr % ([4096, 4096, 256].getD lvl 1) ≠ 0 then out = .error 3
      else out = s.walk va fuel (lvl + 1) addr) := by
  have hshift : [39, 30, 21, 16].getD lvl 0 = lvlShift lvl := by interval_cases lvl <;> rfl
  have hsize : [512, 512, 512, 32].getD lvl 0 = lvlSize lvl / 8 := by interval_cases lvl <;> rfl
  have hnext : lvl ≠ 3 → [4096, 4096, 256].getD lvl 1 = lvlSize (lvl + 1) := by intro h; interval_cases lvl <;> simp_all [lvlSize]
  simp only [hshift, hsize]
  intro hr he
  have haddr : ((BitVec.ofNat 64 e).extractLsb' 8 44).toNat = e / 256 % 2 ^ 44 := extract_entry he
  have h53 : (BitVec.ofNat 64 e).extractLsb' 5 3 = 0 ↔ bits e 7 5 = 0 := extract_entry_eq_zero he
  have h5212 : (BitVec.ofNat 64 e).extractLsb' 52 12 = 0 ↔ bits e 63 52 = 0 := extract_entry_eq_zero he
  have h23 : (BitVec.ofNat 64 e).extractLsb' 2 3 = 0 ↔ bits e 4 2 = 0 := extract_entry_eq_zero he
  simp only [getLsbD_entry (e := e) (show 0 < 64 by decide), getLsbD_entry (e := e) (show 1 < 64 by decide),
    getLsbD_entry (e := e) (show 2 < 64 by decide), getLsbD_entry (e := e) (show 3 < 64 by decide),
    getLsbD_entry (e := e) (show 4 < 64 by decide), haddr, ne_eq, h53, h5212, h23]
  refine ⟨walk_invalid hr, walk_reserved hr, fun hv hz hz' => ?_⟩
  cases hl : bitOf e 1 with
  | true =>
    rw [if_pos rfl, walk_leaf hr hv hz hz' hl]
    split <;> rfl
  | false =>
    rw [if_neg (by decide), walk_table hr hv hz hz' hl]
    by_cases h3 : lvl = 3
    · rw [if_pos (Or.inl h3), if_pos (Or.inl h3)]
    · simp only [hnext h3]
      split <;> rfl

/-- Settles O28: by one lemma for each outcome of a level of the walk and of the second stage. -/
theorem translationTakesTwoStages : Obligations.TranslationTakesTwoStages := by
  unfold Obligations.TranslationTakesTwoStages
  refine ⟨fun s ipa => ⟨fun h => ?_, fun e he hp => ?_⟩, fun s va fuel lvl table e hlvl => walk_level s va fuel lvl table e hlvl,
    fun s asid va => ⟨fun h => ?_, fun root h => ?_⟩, fun s asid va k key hheld => ?_, fun s t va k hr hl => ⟨?_, fun f x y z h => ?_⟩,
    fun s t va k l hr hl hfit => ?_⟩
  · rw [State.tableRead, h]
  · rw [State.tableRead, he]
    exact if_neg (ne_true_of_eq_false hp)
  · rw [State.stage1, h]
  · rw [State.stage1, h]
  · have hseen := stage1Seen_of_unheld hheld
    refine ⟨mtlb_far, fun hv => ⟨fun r h => mtlb_walkFault hv (hseen.trans h), fun ipa r w x h => ?_⟩⟩
    have hs := hseen.trans h
    refine ⟨fun hfit => mtlb_barred hv hs ?_, fun hfit => ?_⟩
    · exact Eq.trans (by cases k <;> rfl) hfit
    have hfit' : k.fits r w x = true := Eq.trans (by cases k <;> rfl) hfit
    refine ⟨mtlb_unbacked hv hs hfit', fun e he => ?_⟩
    refine ⟨fun h => mtlb_refused hv hs hfit' he (h.imp_left fun h => ?_), fun h hk => ?_⟩
    · exact Eq.trans (by cases k <;> rfl) h
    have h' : k.fits true e.w e.x = true := Eq.trans (by cases k <;> rfl) h
    split
    · next ho =>
      obtain ⟨hw, o, ho, hne⟩ := ho
      exact mtlb_owned hv hs hfit' he h' hk hw ho hne
    · next ho => exact mtlb_frame hv hs hfit' he h' hk ho
  · rw [State.xlate_fst]
    exact find_of_miss hr hl
  · exact xlate_owners_of_miss hl h
  · refine xlate_hit hr hl ?_
    cases k <;> exact hfit

end Sys2Proof.Machine
end

section
/-! PROOFS. Two stores of different sizes to one word, of which the second reaches into a page that is not pinned (R183, R190, R298).

The lanes of one word stay together: what the first of them finds holds for all. The list of stored addresses asks of each lane anew
whether its pages are pinned, and so leaves out the second store, which is performed all the same. -/

namespace Sys2Proof.Machine

/-- A workgroup of whose scratchpad page 0 alone is pinned. -/
def onePageWg : Workgroup := { bootWg 1 with pinned := [0] }

/-- A state with that workgroup alone. -/
def onePageState : State := { State.reset with wgs := [(0, onePageWg)] }

/-- That workgroup's scratchpad as a target. -/
def onePageTarget : Target := ⟨1, 0, 0, 0, 0, 0, none, .core 0, 0, 0, 0, 0, none, 0⟩

/-- A byte stored at the end of page 0, then two bytes from there on. -/
def overlappingStores : List LaneAcc := [⟨0, 4095, .store [1]⟩, ⟨1, 4095, .store [1, 1]⟩]

theorem overlappingStores_storedAt : onePageState.storedAt onePageTarget overlappingStores = [4095] := by decide +kernel

theorem overlappingStores_scratch :
    (tget (onePageState.performLanes onePageTarget overlappingStores).1.wgs 0).map (fun v => rdByte v.scratch 4096) = some 1 := by decide +kernel

/-- Refutes O27: of a store to the pinned byte 4095 and a store of two bytes from there on, the second writes byte 4096, which lies in a
page that is not pinned and is not among the stored addresses. -/
theorem not_memoryChangesOnlyWhereLanesStore : ¬ Obligations.MemoryChangesOnlyWhereLanesStore := by
  unfold Obligations.MemoryChangesOnlyWhereLanesStore
  rintro ⟨-, hscratch, -⟩
  have hp : 4096 ∉ onePageState.storedAt onePageTarget overlappingStores := by
    rw [overlappingStores_storedAt]
    decide
  obtain ⟨-, -, -, -, hwg⟩ := hscratch onePageState onePageTarget overlappingStores 4096 rfl hp
  obtain ⟨v, hv, hbyte, -⟩ := hwg onePageWg rfl
  have hone := overlappingStores_scratch
  rw [show (0 : Nat) = onePageTarget.wg from rfl, hv, Option.map_some, hbyte] at hone
  exact absurd hone (by decide)

end Sys2Proof.Machine
end

section
/-! PROOFS. What a lane stores is read back (R183, R186, R189, R190, R293). -/

namespace Sys2Proof.Machine

/-! Bytes and the registers that they fill (R2, R186). -/

theorem leNat_append (as bs : List Byte) : leNat (as ++ bs) = leNat as + 256 ^ as.length * leNat bs := by
  induction as with
  | nil => simp [leNat]
  | cons a as ih =>
    rw [List.cons_append, leNat, leNat, ih, List.length_cons, pow_succ]
    ring

theorem leNat_lt (bs : List Byte) : leNat bs < 256 ^ bs.length := by
  induction bs with
  | nil => exact Nat.one_pos
  | cons b bs ih =>
    have hb : b.toNat < 256 := b.isLt
    rw [leNat, List.length_cons, pow_succ]
    omega

theorem leNat_drop (bs : List Byte) (k : Nat) (hk : k ≤ bs.length) : leNat (bs.drop k) = leNat bs / 256 ^ k := by
  have h := leNat_append (bs.take k) (bs.drop k)
  have hlt := leNat_lt (bs.take k)
  rw [List.take_append_drop] at h
  rw [List.length_take, Nat.min_eq_left hk] at h hlt
  rw [h, Nat.add_mul_div_left _ _ (by positivity), Nat.div_eq_of_lt hlt, Nat.zero_add]

theorem leNat_take (bs : List Byte) (k : Nat) (hk : k ≤ bs.length) : leNat (bs.take k) = leNat bs % 256 ^ k := by
  have h := leNat_append (bs.take k) (bs.drop k)
  have hlt := leNat_lt (bs.take k)
  rw [List.take_append_drop] at h
  rw [List.length_take, Nat.min_eq_left hk] at h hlt
  rw [h, Nat.add_mul_mod_self_left, Nat.mod_eq_of_lt hlt]

/-- A word of a run of bytes. -/
theorem ofNat_leNat_word (bs : List Byte) (k : Nat) (hk : 4 * k + 4 ≤ bs.length) :
    BitVec.ofNat 32 (leNat ((bs.drop (4 * k)).take 4)) = BitVec.ofNat 32 (leNat bs / 2 ^ (32 * k)) := by
  rw [leNat_take _ _ (by rw [List.length_drop]; omega), leNat_drop _ _ (by omega)]
  apply BitVec.eq_of_toNat_eq
  rw [BitVec.toNat_ofNat, BitVec.toNat_ofNat, show (256 : Nat) ^ 4 = 2 ^ 32 by norm_num, Nat.mod_mod,
    show (256 : Nat) = 2 ^ 8 by norm_num, ← pow_mul, show 8 * (4 * k) = 32 * k by ring]

/-- The one register of a narrow load, extended by its sign or by zeros. -/
theorem narrow_extended (signed : Bool) (n v : Nat) (hn : 8 * n ≤ 32) (hv : v < 2 ^ (8 * n)) :
    BitVec.ofNat 32 (wrapInt 32 (if signed then toSigned (8 * n) v else (v : Int))) =
      if signed then (BitVec.ofNat (8 * n) v).signExtend 32 else (BitVec.ofNat (8 * n) v).setWidth 32 := by
  have hto : (BitVec.ofNat (8 * n) v).toNat = v := by rw [BitVec.toNat_ofNat, Nat.mod_eq_of_lt hv]
  rw [wrapInt_eq_toNat_ofInt, BitVec.ofNat_toNat, BitVec.setWidth_eq]
  cases signed with
  | true =>
    have h := toSigned_eq_toInt (BitVec.ofNat (8 * n) v)
    rw [hto] at h
    simp only [if_true]
    rw [h]
    rfl
  | false =>
    simp only [Bool.false_eq_true, if_false]
    apply BitVec.eq_of_toNat_eq
    rw [BitVec.toNat_setWidth, hto, BitVec.ofInt_natCast, BitVec.toNat_ofNat]

theorem loadWrites_eq_delivered (sc signed : Bool) (d l : Nat) (bs : List Byte) (h : bs.length ∈ [1, 2, 4, 8, 16]) :
    loadWrites sc signed d l bs = delivered bs.length signed sc d l (leNat bs) := by
  unfold loadWrites delivered
  simp only []
  split
  · next hlt =>
    rw [narrow_extended signed bs.length (leNat bs) (by omega) (by rw [pow_mul]; exact leNat_lt bs)]
  · next hge =>
    refine List.map_congr_left fun k hk => ?_
    rw [ofNat_leNat_word bs k (by simp only [List.mem_range] at hk; omega)]

@[simp] theorem rdBytes_length (m : Tbl Byte) (a n : Nat) : (rdBytes m a n).length = n := by
  induction n generalizing a with
  | zero => rfl
  | succ n ih => rw [rdBytes, List.length_cons, ih]

theorem rdBytes_congr {m m' : Tbl Byte} {a n : Nat} (h : ∀ i < n, rdByte m (a + i) = rdByte m' (a + i)) : rdBytes m a n = rdBytes m' a n := by
  induction n generalizing a with
  | zero => rfl
  | succ n ih =>
    have h0 : rdByte m a = rdByte m' a := h 0 (by omega)
    rw [rdBytes, rdBytes, h0, ih fun i hi => by rw [Nat.add_assoc, Nat.add_comm 1 i]; exact h (i + 1) (by omega)]

/-- Bytes of the frames without a pending partial value are those of the memory. -/
theorem physBytes_of_clear {s : State} {p n : Nat} (h : ∀ i < n, s.pendingAt (p + i) = false) : s.physBytes p n = rdBytes s.mem p n := by
  refine rdBytes_congr fun i hi => rdByte_foldl_lines _ _ _ fun l hl m => ?_
  exact (pendingAt_iff_clear.1 (h i hi) l (List.mem_filter.1 hl).1).rdByte_combined m

/-! The marks of what is ordered hold no value (R288). -/

/-- The state but for what is noted of the order of accesses. -/
structure State.Remarked (s t : State) : Prop where
  mem : t.mem = s.mem
  host : t.host = s.host
  peer : t.peer = s.peer
  l2 : t.l2 = s.l2
  scratch : ∀ k, (tget t.wgs k).map Workgroup.scratch = (tget s.wgs k).map Workgroup.scratch

section
variable {s t u : State}

theorem State.remarked_refl (s : State) : s.Remarked s := ⟨rfl, rfl, rfl, rfl, fun _ => rfl⟩

theorem State.Remarked.trans (h : s.Remarked t) (h' : t.Remarked u) : s.Remarked u :=
  ⟨h'.mem.trans h.mem, h'.host.trans h.host, h'.peer.trans h.peer, h'.l2.trans h.l2, fun k => (h'.scratch k).trans (h.scratch k)⟩

theorem State.onMarks_remarked (s : State) (g : Mark → Mark) : s.Remarked (s.onMarks g) := by
  refine ⟨rfl, rfl, rfl, rfl, fun k => ?_⟩
  have h := congrArg (Option.map Workgroup.scratch) (s.onMarks_sameWgs g k)
  rw [Option.map_map, Option.map_map] at h
  exact h

theorem State.reads_remarked (s : State) (t : Target) (fr a n : Nat) : s.Remarked (s.reads t fr a n) := by
  unfold State.reads
  split
  · exact s.onMarks_remarked _
  · exact s.remarked_refl

theorem State.released_remarked (s : State) (t : Target) (fr a n : Nat) (rmw : Bool) : s.Remarked (s.released t fr a n rmw) := by
  unfold State.released
  split
  · split
    · exact (s.onMarks_remarked _).trans (State.onMarks_remarked _ _)
    · exact s.onMarks_remarked _
  · exact s.onMarks_remarked _

theorem State.Remarked.isSome (h : s.Remarked t) {k : Nat} (hk : (tget s.wgs k).isSome = true) : (tget t.wgs k).isSome = true := by
  have := h.scratch k
  cases hs : tget s.wgs k <;> cases ht : tget t.wgs k <;> simp_all

theorem State.readScratch_eq (s : State) (wg a n : Nat) :
    s.readScratch wg a n = ((tget s.wgs wg).map Workgroup.scratch).elim (List.replicate n 0) (fun m => rdBytes m a n) := by
  unfold State.readScratch
  cases tget s.wgs wg <;> rfl

theorem State.Remarked.readScratch (h : s.Remarked t) (wg a n : Nat) : t.readScratch wg a n = s.readScratch wg a n := by
  rw [State.readScratch_eq, State.readScratch_eq, h.scratch]

theorem State.readScratch_length (s : State) (wg a n : Nat) : (s.readScratch wg a n).length = n := by
  unfold State.readScratch
  split
  · exact rdBytes_length _ _ _
  · exact List.length_replicate

/-! What a write to a scratchpad leaves. -/

theorem State.spoil_wgs (s : State) (k : Nat) : (s.spoil k).wgs = s.wgs := by
  unfold State.spoil
  split
  · rfl
  · split <;> rfl

theorem State.raceFills_wgs (s : State) (wg lo n : Nat) (a : Option Agent) (i : Nat) : (s.raceFills wg lo n a i).wgs = s.wgs := by
  have hfold : ∀ (l : List (Nat × MapSlot)) (g : State → Nat × MapSlot → State), (∀ s e, (g s e).wgs = s.wgs) → ∀ s, (l.foldl g s).wgs = s.wgs := by
    intro l g hg
    induction l with
    | nil => exact fun _ => rfl
    | cons e l ih => exact fun s => (ih _).trans (hg s e)
  unfold State.raceFills
  refine (hfold _ _ (fun t e => ?_) _).trans rfl
  split
  split
  · split
    · exact t.spoil_wgs _
    · rfl
  · rfl

theorem State.writeScratch_read (s : State) (wg : Nat) (ag : Option Agent) (num a : Nat) (bs : List Byte) (h : (tget s.wgs wg).isSome = true) :
    (s.writeScratch wg ag num a bs).readScratch wg a bs.length = bs := by
  obtain ⟨w, hw⟩ := Option.isSome_iff_exists.1 h
  rw [State.readScratch_eq, State.writeScratch, State.wake_wgs, State.raceFills_wgs, State.onWg_get, if_pos rfl, hw]
  exact rdBytes_wrBytes _ _ _

theorem State.writePhys_mem (s : State) (c : Option Nat) (al : Bool) (asid : BitVec 16) (va fr : Nat) (bs : List Byte) :
    rdBytes (s.writePhys c al asid va fr bs).mem (physOf fr va) bs.length = bs := rdBytes_wrBytes _ _ _

/-- A write into a frame only touches caches besides. -/
theorem State.writePhys_pending {s : State} {c : Option Nat} {al : Bool} {asid : BitVec 16} {va fr : Nat} {bs : List Byte} {p : Nat}
    (h : (s.recall asid va).pendingAt p = false) : (s.writePhys c al asid va fr bs).pendingAt p = false := by
  cases c with
  | none => exact ((s.recall_l1Merge_settles asid va p).frames h).1
  | some c => exact ((s.recall_l1Touch_settles c al asid va bs.length (physOf fr va) true p).frames h).1

end

/-! One lane. -/

section
variable {u : State} {t : Target} {fr : Nat} {a : LaneAcc} {before : Nat → List Byte} {rd : State → Nat → List Byte}

/-- What a lane that is performed does to the bytes of its place, however they are read: `rd` reads them, and sees no marks. -/
theorem performLane_done (hring : t.space ≠ spCtrl) (hbefore : u.readAt t fr a.addr a.size = before a.size) (hsame : rd u a.size = before a.size)
    (hlen : (before a.size).length = a.size) (hmarks : ∀ v w : State, v.Remarked w → ∀ n, rd w n = rd v n)
    (hwrite : ∀ v c bs, u.Remarked v → rd (v.writeAt { t with core := c } fr a.addr bs) bs.length = bs) :
    LaneDone a before (rd (u.performLane t fr a).1) (u.performLane t fr a).2 := by
  obtain ⟨lane, addr, act⟩ := a
  cases act with
  | load n signed sc d l =>
    intro hn
    have hno : (u.reads t fr addr n).ringOwn t addr n = u.reads t fr addr n := by
      unfold State.ringOwn
      rw [beq_eq_false_iff_ne.2 hring]
    refine ⟨?_, ?_⟩
    · show loadWrites sc signed d l (u.readAt t fr addr n) = _
      rw [show u.readAt t fr addr n = before n from hbefore]
      have h := loadWrites_eq_delivered sc signed d l (before n) (by rw [show (before n).length = n from hlen]; exact hn)
      rwa [show (before n).length = n from hlen] at h
    · show rd ((u.reads t fr addr n).ringOwn t addr n) n = before n
      rw [hno, hmarks _ _ (u.reads_remarked t fr addr n)]
      exact hsame
  | store bs =>
    refine ⟨rfl, ?_⟩
    show rd ((u.writeAt t fr addr bs).released t fr addr bs.length false) bs.length = bs
    rw [hmarks _ _ (State.released_remarked _ t fr addr _ _)]
    exact hwrite u t.core bs u.remarked_refl
  | atom op x y d l =>
    have hold : u.readAt t fr addr op.size = before op.size := hbefore
    have hnew (v : State) (hv : u.Remarked v) (n : List Byte) (hn : n.length = op.size) :
        rd ((v.writeAt { t with core := none } fr addr n).released t fr addr op.size true) op.size = n := by
      rw [hmarks _ _ (State.released_remarked _ t fr addr _ _), ← hn]
      exact hwrite v none n hv
    cases d with
    | none =>
      refine ⟨?_, rfl⟩
      have h := hnew u u.remarked_refl _ (leBytes_length op.size (op.new (leNat (u.readAt t fr addr op.size)) x.toNat y.toNat))
      rw [hold] at h
      rw [← h, ← hold]
      rfl
    | some d =>
      have hsz : op.size ∈ [1, 2, 4, 8, 16] := by cases op <;> decide
      refine ⟨?_, ?_⟩
      · have h := hnew _ (u.reads_remarked t fr addr op.size) _ (leBytes_length op.size (op.new (leNat (u.readAt t fr addr op.size)) x.toNat y.toNat))
        rw [hold] at h
        rw [← h, ← hold]
        rfl
      · show loadWrites false false d l (u.readAt t fr addr op.size) = _
        rw [hold]
        have h := loadWrites_eq_delivered false false d l (before op.size) (by rw [show (before op.size).length = op.size from hlen]; exact hsz)
        rwa [show (before op.size).length = op.size from hlen] at h

end

section
variable {s s0 : State} {t : Target} {a : LaneAcc}

/-- A lane that is reached is performed, and is not left over. -/
theorem performLanes_one {fr : Nat} (h : s.reachLane t a = (s0, .ok fr)) :
    s.performLanes t [a] = ((s0.performAt t fr a).1, (s0.performAt t fr a).2, []) := by
  unfold State.performLanes State.performFrom
  simp only [List.find?_nil, h]
  rw [State.performFrom]
  exact congrArg (fun l => (_, l, _)) (List.append_nil _)

theorem performLanes_left {n : Nat} (h : s.reachLane t a = (s0, .error n)) : s.performLanes t [a] = (s0, [], [(a, n)]) := by
  unfold State.performLanes State.performFrom
  simp only [List.find?_nil, h]
  rfl

theorem ringPoison_of_noRing (h : t.space ≠ spCtrl) : s.ringPoison t a = false := by
  unfold State.ringPoison
  rw [beq_eq_false_iff_ne.2 h, Bool.false_and]

theorem paged_of_noScratch (h : t.space ≠ spScratch) : s.paged t a = true := by
  rw [State.paged, Bool.or_eq_true]
  exact Or.inl (bne_iff_ne.2 h)

theorem reachLane_scratch (ht : t.space = spScratch) {w : Workgroup} (hw : tget s.wgs t.wg = some w) (hp : w.pinnedAt a.addr a.size = true) :
    s.reachLane t a = (s, .ok 0) := by
  have hpaged : s.paged t a = true := by
    rw [State.paged, hw, Bool.or_eq_true]
    exact Or.inr hp
  have hlink : s.linkTakes t a.addr a.size = (true, s) := by
    unfold State.linkTakes State.linkOk
    rw [ht]
    rfl
  unfold State.reachLane
  rw [if_neg (by rw [ht]; decide), if_neg (ne_true_of_eq_false (ringPoison_of_noRing (by rw [ht]; decide))), hpaged, if_neg (by decide), hlink]

theorem reachLane_global (ht : t.space = spGlobal) {fr : Nat} {x y z : Bool} {s1 : State} (h : s.xlate t a.addr a.kind = (.ok fr x y z, s1))
    (hp : a.kind ≠ .write → s1.poisoned (physOf fr a.addr) = false) : s.reachLane t a = (s1, .ok fr) := by
  have hno : (a.kind != .write && s1.poisoned (physOf fr a.addr)) = false := by
    by_cases hk : a.kind = .write
    · simp [hk]
    · rw [hp hk, Bool.and_false]
  unfold State.reachLane
  rw [if_pos ht, h]
  exact congrArg (Prod.mk s1) (if_neg (ne_true_of_eq_false hno))

theorem reachLane_host (ht : t.space = spHost) (hok : s.linkOk t a.addr a.size = true) :
    s.reachLane t a = (s.draw.2, if (s.linkTakes t a.addr a.size).1 then .ok 0 else .error 6) := by
  have hlink : s.linkTakes t a.addr a.size = (s.draw.1 % 2 == 0, s.draw.2) := if_pos ⟨Or.inl ht, hok⟩
  unfold State.reachLane
  rw [if_neg (by rw [ht]; decide), if_neg (ne_true_of_eq_false (ringPoison_of_noRing (by rw [ht]; decide))),
    paged_of_noScratch (by rw [ht]; decide), if_neg (by decide), hlink]
  cases s.draw.1 % 2 == 0 <;> rfl

/-- What a GLOBAL access leaves before its lane is performed: only caches are touched. -/
theorem performGlobal_eq (fr : Nat) (hg : s.gatherable t a = none) :
    ∃ u : State, s.performGlobal t fr a = u.performLane t fr a ∧ ∀ p, s.Settles u p := by
  unfold State.performGlobal
  split
  · exact ⟨_, rfl, fun p => s.l1Touch_settles _ _ _ _ _ _ _ p⟩
  · exact ⟨_, rfl, fun p => s.l1Merge_settles _ _ p⟩
  · rw [hg]
    exact ⟨_, rfl, fun p => s.l1Merge_settles _ _ p⟩
  · exact ⟨_, rfl, fun p => s.settles_refl p⟩

theorem writeAt_scratch (ht : t.space = spScratch) (fr n : Nat) (bs : List Byte) :
    s.writeAt t fr n bs = s.writeScratch t.wg t.agent t.num n bs := by
  unfold State.writeAt
  rw [if_neg (by rw [ht]; decide), if_pos ht]

theorem writeAt_global (ht : t.space = spGlobal) (fr n : Nat) (bs : List Byte) :
    s.writeAt t fr n bs = s.writePhys t.core t.alloc t.asid n fr bs := if_pos ht

theorem writeAt_host (ht : t.space = spHost) (fr n : Nat) (bs : List Byte) : s.writeAt t fr n bs = { s with host := wrBytes s.host n bs } := by
  unfold State.writeAt
  rw [if_neg (by rw [ht]; decide), if_neg (by rw [ht]; decide), if_pos ht]

theorem readAt_scratch (ht : t.space = spScratch) (fr n m : Nat) : s.readAt t fr n m = s.readScratch t.wg n m := by
  unfold State.readAt
  rw [if_neg (by rw [ht]; decide), if_pos ht]

theorem readAt_global (ht : t.space = spGlobal) (fr n m : Nat) : s.readAt t fr n m = s.physBytes (physOf fr n) m := if_pos ht

theorem readAt_host (ht : t.space = spHost) (fr n m : Nat) : s.readAt t fr n m = rdBytes s.host n m := by
  unfold State.readAt
  rw [if_neg (by rw [ht]; decide), if_neg (by rw [ht]; decide), if_pos ht]

/-- A lane in a pinned page of a scratchpad. -/
theorem performLanes_scratch (ht : t.space = spScratch) {w : Workgroup} (hw : tget s.wgs t.wg = some w) (hp : w.pinnedAt a.addr a.size = true) :
    (s.performLanes t [a]).2.2 = [] ∧ LaneDone a (s.readScratch t.wg a.addr) ((s.performLanes t [a]).1.readScratch t.wg a.addr) (s.performLanes t [a]).2.1 := by
  have hat : s.performAt t 0 a = s.performLane t 0 a := if_neg (by rw [ht]; decide)
  rw [performLanes_one (reachLane_scratch ht hw hp), hat]
  refine ⟨rfl, performLane_done (rd := fun v n => v.readScratch t.wg a.addr n) (by rw [ht]; decide) (readAt_scratch ht _ _ _) rfl
    (s.readScratch_length _ _ _) (fun v w' h n => h.readScratch _ _ _) fun v c bs hv => ?_⟩
  rw [writeAt_scratch (t := { t with core := c }) ht]
  exact v.writeScratch_read _ _ _ _ _ (hv.isSome (by rw [hw]; rfl))

/-- A lane at a translated GLOBAL place. -/
theorem performLanes_global (ht : t.space = spGlobal) {fr : Nat} {x y z : Bool} {s1 : State} (h : s.xlate t a.addr a.kind = (.ok fr x y z, s1))
    (hp : a.kind ≠ .write → s1.poisoned (physOf fr a.addr) = false) (hg : s1.gatherable t a = none)
    (hclear : ∀ i < a.size, s1.pendingAt (physOf fr a.addr + i) = false) :
    (s.performLanes t [a]).2.2 = [] ∧
      LaneDone a (rdBytes s1.mem (physOf fr a.addr)) (rdBytes (s.performLanes t [a]).1.mem (physOf fr a.addr)) (s.performLanes t [a]).2.1 := by
  obtain ⟨u, hu, hset⟩ := performGlobal_eq fr hg
  have hat : s1.performAt t fr a = u.performLane t fr a := (if_pos ht).trans hu
  have hmem : rdBytes u.mem (physOf fr a.addr) a.size = rdBytes s1.mem (physOf fr a.addr) a.size :=
    rdBytes_congr fun i hi => ((hset _).frames (hclear i hi)).2
  rw [performLanes_one (reachLane_global ht h hp), hat]
  refine ⟨rfl, performLane_done (rd := fun v n => rdBytes v.mem (physOf fr a.addr) n) (by rw [ht]; decide) ?_ hmem (rdBytes_length _ _ _)
    (fun v w h n => by rw [h.mem]) fun v c bs _ => ?_⟩
  · rw [readAt_global ht, physBytes_of_clear fun i hi => ((hset _).frames (hclear i hi)).1]
    exact hmem
  · rw [writeAt_global (t := { t with core := c }) ht]
    exact v.writePhys_mem _ _ _ _ _ _

/-- A lane over the link to the host. -/
theorem performLanes_host (ht : t.space = spHost) (hok : s.linkOk t a.addr a.size = true) :
    ((s.linkTakes t a.addr a.size).1 = true → (s.performLanes t [a]).2.2 = [] ∧
      LaneDone a (rdBytes s.host a.addr) (rdBytes (s.performLanes t [a]).1.host a.addr) (s.performLanes t [a]).2.1) ∧
    ((s.linkTakes t a.addr a.size).1 = false → s.performLanes t [a] = (s.draw.2, [], [(a, 6)])) := by
  have hreach := reachLane_host ht hok
  refine ⟨fun hl => ?_, fun hl => ?_⟩
  · rw [hl, if_pos rfl] at hreach
    have hat : s.draw.2.performAt t 0 a = s.draw.2.performLane t 0 a := if_neg (by rw [ht]; decide)
    rw [performLanes_one hreach, hat]
    refine ⟨rfl, performLane_done (rd := fun v n => rdBytes v.host a.addr n) (by rw [ht]; decide) (readAt_host ht _ _ _) rfl (rdBytes_length _ _ _)
      (fun v w h n => by rw [h.host]) fun v c bs _ => ?_⟩
    rw [writeAt_host (t := { t with core := c }) ht]
    exact rdBytes_wrBytes _ _ _
  · rw [hl, if_neg (by decide)] at hreach
    exact performLanes_left hreach

end

/-- Settles O29: a lane that is reached is performed on the bytes of its place, which caches and marks leave alone. -/
theorem aStoreIsReadBack : Obligations.AStoreIsReadBack := by
  unfold Obligations.AStoreIsReadBack
  refine ⟨fun s t fr a bs ht hclear => ?_, fun s t fr a bs ht hw => ?_, fun s t fr a bs ht => ?_,
    fun s t a w ht hw hp => performLanes_scratch ht hw hp, fun s t a fr x y z s1 ht hx hp hg hclear => performLanes_global ht hx hp hg hclear,
    fun s t a ht hok => performLanes_host ht hok⟩
  · rw [writeAt_global ht, readAt_global ht, physBytes_of_clear fun i hi => State.writePhys_pending (hclear i hi)]
    exact s.writePhys_mem _ _ _ _ _ _
  · rw [writeAt_scratch ht, readAt_scratch ht]
    exact s.writeScratch_read _ _ _ _ _ hw
  · rw [writeAt_host ht, readAt_host ht]
    exact rdBytes_wrBytes _ _ _

end Sys2Proof.Machine
end

section
/-! PROOFS. What stops an application of a map slot, and the traps of slots, domains and gates (R139, R204 to R210, R230 to R233). -/

namespace Sys2Proof.Machine

/-! The steps of R139. -/

section
variable {x : Issue} {s : State}

theorem mapChecks_ofA (rowA rowB : Nat) (intA intB facc : Bool) (ha : x.f.mae = true) (hb : x.f.mbe = false) :
    x.mapChecks s rowA rowB intA intB facc = [1, 2, 3, 4, 5, 6].findSome? (fun st => x.mapStep s st x.f.ma.toNat rowA intA facc) := by
  unfold Issue.mapChecks
  congr 1
  funext st
  simp only [ha, hb, if_true, Bool.false_eq_true, if_false]
  cases x.mapStep s st x.f.ma.toNat rowA intA facc <;> rfl

/-- A name at or above the count is stopped at the first step. -/
theorem mapStep_unnamed {n row : Nat} {i facc : Bool} (h : x.slotKey n = none) :
    x.mapStep s 1 n row i facc = some (.trap (x.trap 7 1 (BitVec.ofNat 32 n))) := by
  rw [Issue.mapStep, h]
  rfl

variable {n k row : Nat} {i facc : Bool} (h : x.slotKey n = some k)
include h

theorem mapStep_named : x.mapStep s 1 n row i facc = none := by
  rw [Issue.mapStep, h]
  rfl

theorem mapStep_owner : x.mapStep s 2 n row i facc = if (s.slot k).owner ≠ x.r.did then some (.trap (x.trap 6 3)) else none := by
  rw [Issue.mapStep, h]
  simp only [bne_iff_ne]

theorem mapStep_wait (hs : (s.slot k).state = .pending) : x.mapStep s 3 n row i facc = some .wait := by
  rw [Issue.mapStep, h]
  exact if_pos hs

theorem mapStep_noWait (hs : (s.slot k).state ≠ .pending)
    (hj : (s.slot k).state = .valid → (s.slot k).succe = true → ∀ j, x.slotKey (s.slot k).succ = some j →
      ¬((s.slot j).state = .pending ∧ (s.slot j).owner = x.r.did)) : x.mapStep s 3 n row i facc = none := by
  rw [Issue.mapStep, h]
  simp only [if_neg hs]
  split
  · next hv =>
    cases hk : x.slotKey (s.slot k).succ with
    | none => rfl
    | some j => exact if_neg (hj hv.1 hv.2 j hk)
  · rfl

theorem mapStep_waitSucc (hv : (s.slot k).state = .valid) (he : (s.slot k).succe = true) {j : Nat} (hk : x.slotKey (s.slot k).succ = some j)
    (hj : (s.slot j).state = .pending) (ho : (s.slot j).owner = x.r.did) : x.mapStep s 3 n row i facc = some .wait := by
  rw [Issue.mapStep, h]
  simp only [hv, he, hk, hj, ho, and_self, if_true]
  rfl

theorem mapStep_empty (hs : (s.slot k).state = .empty) : x.mapStep s 4 n row i facc = some (.trap (x.trap 7 2 (BitVec.ofNat 32 n))) := by
  rw [Issue.mapStep, h]
  simp only [hs]

theorem mapStep_failed (hs : (s.slot k).state = .failed) : x.mapStep s 4 n row i facc = some (.trap (x.trap 7 6 (BitVec.ofNat 32 n))) := by
  rw [Issue.mapStep, h]
  simp only [hs]

theorem mapStep_valid (hs : (s.slot k).state = .valid) : x.mapStep s 4 n row i facc = none := by
  rw [Issue.mapStep, h]
  simp only [hs]

theorem mapStep_chain_unnamed (he : (s.slot k).succe = true) (hk : x.slotKey (s.slot k).succ = none) :
    x.mapStep s 5 n row i facc = some (.trap (x.trap 7 1 (BitVec.ofNat 32 (s.slot k).succ))) := by
  rw [Issue.mapStep, h]
  simp only [he, hk, if_true]

theorem mapStep_noChain (he : (s.slot k).succe = false) : x.mapStep s 5 n row i facc = none := by
  rw [Issue.mapStep, h]
  simp only [he, Bool.false_eq_true, if_false]

/-- Whether a successor breaks the chain (R139, R145). -/
def chainBroken (m p : MapSlot) (row : Nat) : Bool :=
  p.state != .valid || p.succe || row == 5 || decide (8 < occupancy row (wfmtGroup m.wfmt) + occupancy row (wfmtGroup p.wfmt))

omit h in
theorem chainBroken_iff (m p : MapSlot) (row : Nat) : chainBroken m p row = true ↔
    p.state ≠ .valid ∨ p.succe = true ∨ row = 5 ∨ 8 < occupancy row (wfmtGroup m.wfmt) + occupancy row (wfmtGroup p.wfmt) := by
  simp only [chainBroken, Bool.or_eq_true, bne_iff_ne, beq_iff_eq, decide_eq_true_eq, or_assoc]

theorem mapStep_chain (he : (s.slot k).succe = true) {j : Nat} (hk : x.slotKey (s.slot k).succ = some j) :
    x.mapStep s 5 n row i facc = if (s.slot j).owner ≠ x.r.did then some (.trap (x.trap 6 3))
      else if chainBroken (s.slot k) (s.slot j) row then some (.trap (x.trap 7 5 (BitVec.ofNat 32 n))) else none := by
  rw [Issue.mapStep, h]
  simp only [he, hk, if_true, bne_iff_ne]
  rfl

theorem mapStep_type (he : (s.slot k).succe = false) : x.mapStep s 6 n row i facc =
    if i = true ∧ facc = false ∧ wfmtInt (s.slot k).wfmt = false then some (.trap (x.trap 7 4 (BitVec.ofNat 32 n))) else none := by
  rw [Issue.mapStep, h]
  simp only [he, Bool.false_eq_true, if_false, Bool.or_false, Bool.and_eq_true, Bool.not_eq_true', and_assoc]

theorem mapStep_typeChained (he : (s.slot k).succe = true) {j : Nat} (hk : x.slotKey (s.slot k).succ = some j) : x.mapStep s 6 n row i facc =
    if i = true ∧ facc = false ∧ (wfmtInt (s.slot k).wfmt = false ∨ wfmtInt (s.slot j).wfmt = false) then
      some (.trap (x.trap 7 4 (BitVec.ofNat 32 n))) else none := by
  rw [Issue.mapStep, h]
  simp only [he, hk, if_true, Option.map_some, Bool.and_eq_true, Bool.or_eq_true, Bool.not_eq_true', and_assoc]

end

/-- The checks of one mapped operand, in the order of R139. -/
theorem mapChecks_one (x : Issue) (s : State) (rowA rowB : Nat) (intA intB facc : Bool) (ha : x.f.mae = true) (hb : x.f.mbe = false) :
    let n := x.f.ma.toNat
    let chk := x.mapChecks s rowA rowB intA intB facc
    let trap (cause reason info : Nat) : Prop := chk = some (.trap ⟨cause, reason, x.act, BitVec.ofNat 32 info, 0, 0⟩)
    (x.slotKey n = none → trap 7 1 n) ∧
    ∀ k, x.slotKey n = some k →
      let m := s.slot k
      (m.owner ≠ x.r.did → trap 6 3 0) ∧
      (m.owner = x.r.did →
        (m.state = .pending → chk = some .wait) ∧ (m.state = .empty → trap 7 2 n) ∧ (m.state = .failed → trap 7 6 n) ∧
        (m.state = .valid → m.succe = true →
          (x.slotKey m.succ = none → trap 7 1 m.succ) ∧
          ∀ j, x.slotKey m.succ = some j →
            let p := s.slot j
            let bad : Prop := p.state ≠ .valid ∨ p.succe = true ∨ rowA = 5 ∨ 8 < occupancy rowA (wfmtGroup m.wfmt) + occupancy rowA (wfmtGroup p.wfmt)
            let real : Prop := intA = true ∧ facc = false ∧ (wfmtInt m.wfmt = false ∨ wfmtInt p.wfmt = false)
            (p.owner ≠ x.r.did → trap 6 3 0) ∧
            (p.owner = x.r.did → (p.state = .pending → chk = some .wait) ∧ (p.state ≠ .pending → bad → trap 7 5 n) ∧
              (¬ bad → real → trap 7 4 n) ∧ (¬ bad → ¬ real → chk = none))) ∧
        (m.state = .valid → m.succe = false →
          if intA = true ∧ facc = false ∧ wfmtInt m.wfmt = false then trap 7 4 n else chk = none)) := by
  intro n chk trap
  have hchk : chk = [1, 2, 3, 4, 5, 6].findSome? (fun st => x.mapStep s st n rowA intA facc) := mapChecks_ofA rowA rowB intA intB facc ha hb
  refine ⟨fun h => ?_, fun k h => ⟨fun ho => ?_, fun ho => ?_⟩⟩
  · show chk = _
    rw [hchk, List.findSome?_cons, mapStep_unnamed h]
    rfl
  · show chk = _
    rw [hchk, List.findSome?_cons, mapStep_named h, List.findSome?_cons, mapStep_owner h, if_pos ho]
    rfl
  have hown : chk = [3, 4, 5, 6].findSome? (fun st => x.mapStep s st n rowA intA facc) := by
    rw [hchk, List.findSome?_cons, mapStep_named h, List.findSome?_cons, mapStep_owner h, if_neg (not_not.2 ho)]
  refine ⟨fun hs => ?_, fun hs => ?_, fun hs => ?_, fun hs he => ?_, fun hs he => ?_⟩
  · rw [hown, List.findSome?_cons, mapStep_wait h hs]
  · show chk = _
    rw [hown, List.findSome?_cons, mapStep_noWait h (by simp [hs]) (by simp [hs]), List.findSome?_cons, mapStep_empty h hs]
    rfl
  · show chk = _
    rw [hown, List.findSome?_cons, mapStep_noWait h (by simp [hs]) (by simp [hs]), List.findSome?_cons, mapStep_failed h hs]
    rfl
  · refine ⟨fun hk => ?_, fun j hk => ?_⟩
    · show chk = _
      rw [hown, List.findSome?_cons, mapStep_noWait h (by simp [hs]) (by simp [hk]), List.findSome?_cons, mapStep_valid h hs,
        List.findSome?_cons, mapStep_chain_unnamed h he hk]
      rfl
    have hgo (hno : ¬((s.slot j).state = .pending ∧ (s.slot j).owner = x.r.did)) :
        chk = [5, 6].findSome? (fun st => x.mapStep s st n rowA intA facc) := by
      rw [hown, List.findSome?_cons, mapStep_noWait h (by simp [hs]) (fun _ _ j' hk' => by rw [hk] at hk'; cases hk'; exact hno),
        List.findSome?_cons, mapStep_valid h hs]
    refine ⟨fun hp => ?_, fun hp => ⟨fun hw => ?_, fun hw hbad => ?_, fun hbad hreal => ?_, fun hbad hreal => ?_⟩⟩
    · show chk = _
      rw [hgo (fun hc => hp hc.2), List.findSome?_cons, mapStep_chain h he hk, if_pos hp]
      rfl
    · rw [hown, List.findSome?_cons, mapStep_waitSucc h hs he hk hw hp]
    · show chk = _
      rw [hgo (fun hc => hw hc.1), List.findSome?_cons, mapStep_chain h he hk, if_neg (not_not.2 hp), if_pos ((chainBroken_iff ..).2 hbad)]
      rfl
    all_goals
      have hv : (s.slot j).state = .valid := not_not.1 fun hc => hbad (Or.inl hc)
      have hrest : chk = [6].findSome? (fun st => x.mapStep s st n rowA intA facc) := by
        rw [hgo (fun hc => by rw [hv] at hc; cases hc.1), List.findSome?_cons, mapStep_chain h he hk, if_neg (not_not.2 hp),
          if_neg (fun hc => hbad ((chainBroken_iff ..).1 hc))]
    · show chk = _
      rw [hrest, List.findSome?_cons, mapStep_typeChained h he hk, if_pos hreal]
      rfl
    · rw [hrest, List.findSome?_cons, mapStep_typeChained h he hk, if_neg hreal]
      rfl
  · have hrest : chk = [6].findSome? (fun st => x.mapStep s st n rowA intA facc) := by
      rw [hown, List.findSome?_cons, mapStep_noWait h (by simp [hs]) (by simp [he]), List.findSome?_cons, mapStep_valid h hs,
        List.findSome?_cons, mapStep_noChain h he]
    split
    · next hreal =>
      show chk = _
      rw [hrest, List.findSome?_cons, mapStep_type h he, if_pos hreal]
      rfl
    · next hreal =>
      rw [hrest, List.findSome?_cons, mapStep_type h he, if_neg hreal]
      rfl

/-- The first step that fails decides, that of A before that of B. -/
theorem mapChecks_first (x : Issue) (s : State) (rowA rowB : Nat) (intA intB facc : Bool) (st : Nat) (c : MapCheck)
    (ha : x.f.mae = true) (hb : x.f.mbe = true) (h1 : 1 ≤ st) (h6 : st ≤ 6) :
    let a (i : Nat) := x.mapStep s i x.f.ma.toNat rowA intA facc
    let b (i : Nat) := x.mapStep s i x.f.mb.toNat rowB intB facc
    (∀ i < st, 1 ≤ i → a i = none ∧ b i = none) → (a st = some c ∨ a st = none ∧ b st = some c) →
    x.mapChecks s rowA rowB intA intB facc = some c := by
  intro a b hbefore hst
  have hstep : x.mapChecks s rowA rowB intA intB facc = [1, 2, 3, 4, 5, 6].findSome? (fun i => (a i).or (b i)) := by
    unfold Issue.mapChecks
    congr 1
    funext i
    simp only [ha, hb, if_true]
    show (match a i with | some c => some c | none => b i) = _
    cases a i <;> rfl
  have hnone : ∀ i < st, 1 ≤ i → (a i).or (b i) = none := fun i hi h1 => by rw [(hbefore i hi h1).1, (hbefore i hi h1).2]; rfl
  have hsome : (a st).or (b st) = some c := by
    obtain h | ⟨h, h'⟩ := hst
    · rw [h]; rfl
    · rw [h, h']; rfl
  have hsplit : [1, 2, 3, 4, 5, 6] = List.range' 1 (st - 1) ++ st :: List.range' (st + 1) (6 - st) := by interval_cases st <;> rfl
  rw [hstep, hsplit, List.findSome?_append, List.findSome?_eq_none_iff.2, List.findSome?_cons, hsome]
  · rfl
  · intro i hi
    have := List.mem_range'_1.1 hi
    exact hnone i (by omega) this.1

theorem slotKey_cases (x : Issue) (n : Nat) : (x.r.maps ≤ n → x.slotKey n = none) ∧
    (n < x.r.maps → ∀ fr, x.r.frame = some fr → x.slotKey n = some (16 * (4 * x.c + x.r.quad) + (fr.entry.extractLsb' 48 4).toNat + n)) := by
  refine ⟨fun h => if_pos h, fun h fr hf => ?_⟩
  rw [Issue.slotKey, if_neg (Nat.not_le.2 h), hf]
  rfl

/-! Instructions that a check stops. -/

section
variable {i : Fields → Instr} {op : Nat}

theorem stopsAtItsMaps_of {body : Fields → Issue → State → Act} (hexec : ∀ f s, exec (i f) s = issue op f pb0 (body f) s)
    (hbody : ∀ (f : Fields) (s : State) (b : Begun) (c : Act), s.begun op f pb0 = some b → b.y.mapIn b.t b.m = .error c → body f b.y b.t = c) :
    StopsAtItsMaps i op := by
  intro f s b hb
  have hf := (begun_op hb).2.2.2
  have hstop {c : MapCheck} (hc : b.y.mapChecks b.t (rowOf b.m f b.m.aw) (rowOf b.m f b.m.bw) (!b.m.ty.isFloat) (!b.m.ty.isFloat) false = some c) :
      body f b.y b.t = c.act := by
    refine hbody f s b c.act hb ?_
    unfold Issue.mapIn
    rw [hf]
    exact mapStageIn_stops hc
  refine ⟨fun q hq => ?_, fun hw => ?_⟩
  · rw [hexec]
    exact issue_trap hb (hstop hq)
  · rw [hexec]
    exact issue_wait hb (hstop hw)

theorem stopsAtItsMaps_mapped {res : Fields → Issue → State → Meta → Nat → ER}
    (hexec : ∀ f s, exec (i f) s = issue op f pb0 (fun x s => x.mapThenWrite s op (res f x s)) s) : StopsAtItsMaps i op :=
  stopsAtItsMaps_of hexec fun f s b c hb he => by
    simp only [Issue.mapThenWrite, (begun_spec hb).2.1, he]

theorem stopsAtItsMaps_alu1 {g : Meta → CW → EV → ER} (h : ∀ f s, exec (i f) s = alu1 op f g s) : StopsAtItsMaps i op := stopsAtItsMaps_mapped h
theorem stopsAtItsMaps_alu2 {g : Meta → CW → EV → EV → ER} (h : ∀ f s, exec (i f) s = alu2 op f g s) : StopsAtItsMaps i op := stopsAtItsMaps_mapped h
theorem stopsAtItsMaps_alu3 {g : Meta → CW → EV → EV → EV → ER} (h : ∀ f s, exec (i f) s = alu3 op f g s) : StopsAtItsMaps i op := stopsAtItsMaps_mapped h
theorem stopsAtItsMaps_aluCvt {g : Meta → CW → EV → ER} (h : ∀ f s, exec (i f) s = aluCvt op f g s) : StopsAtItsMaps i op := stopsAtItsMaps_mapped h
theorem stopsAtItsMaps_aluSel (h : ∀ f s, exec (i f) s = aluSel op f s) : StopsAtItsMaps i op := stopsAtItsMaps_mapped h
theorem stopsAtItsMaps_idp (h : ∀ f s, exec (i f) s = idp op f s) : StopsAtItsMaps i op := stopsAtItsMaps_mapped h
theorem stopsAtItsMaps_pack {t : Ty} (h : ∀ f s, exec (i f) s = pack op t f s) : StopsAtItsMaps i op := stopsAtItsMaps_mapped h

theorem stopsAtItsMaps_aluCmp {g : Nat → EV → EV → Bool × Flags} (h : ∀ f s, exec (i f) s = aluCmp op f g s) : StopsAtItsMaps i op :=
  stopsAtItsMaps_of h fun f s b c hb he => by
    simp only [(begun_spec hb).2.1, he]

theorem stopsAtItsMaps_facc (hexec : ∀ f s, exec (i f) s = facc op f s) (f : Fields) (s : State) (b : Begun) (hb : s.begun op f pb0 = some b) :
    let row := dataRow (faccTy op) false
    let chk := b.y.mapChecks b.t row row (!(faccTy op).isFloat) false true
    (∀ q, chk = some (.trap q) → exec (i f) s = .next (b.trapped s q)) ∧ (chk = some .wait → exec (i f) s = .next s) := by
  intro row chk
  refine ⟨fun q hq => ?_, fun hw => ?_⟩
  · have he : b.y.mapStageIn b.t (dataRow (faccTy op) false) (dataRow (faccTy op) false) (!(faccTy op).isFloat) false true = .error (.trap q) :=
      mapStageIn_stops hq
    rw [hexec]
    refine issue_trap hb ?_
    simp only [he]
  · have he : b.y.mapStageIn b.t (dataRow (faccTy op) false) (dataRow (faccTy op) false) (!(faccTy op).isFloat) false true = .error .wait :=
      mapStageIn_stops hw
    rw [hexec]
    refine issue_wait hb ?_
    simp only [he]

end

section
variable {s : State} {f : Fields} {b : Begun}

theorem slotCheck_unnamed {x : Issue} {s : State} {n : Nat} (h : x.slotKey n = none) :
    x.slotCheck s n = .error (.trap (x.trap 7 1 (BitVec.ofNat 32 n))) := by
  rw [Issue.slotCheck, h]

theorem slotCheck_foreign {x : Issue} {s : State} {n k : Nat} (h : x.slotKey n = some k) (ho : (s.slot k).owner ≠ x.r.did) :
    x.slotCheck s n = .error (.trap (x.trap 6 3)) := by
  rw [Issue.slotCheck, h]
  exact if_pos (bne_iff_ne.2 ho)

/-- A slot check that fails is what the instruction answers. -/
theorem slotTraps {i : Fields → Instr} {n : Nat} (h : ∀ a, b.y.slotCheck b.t n = .error (.trap a) → exec (i f) s = .next (b.trapped s a)) :
    (b.y.slotKey n = none → exec (i f) s = .next (b.trapped s ⟨7, 1, b.y.act, BitVec.ofNat 32 n, 0, 0⟩)) ∧
    ∀ k, b.y.slotKey n = some k → (b.t.slot k).owner ≠ b.y.r.did → exec (i f) s = .next (b.trapped s ⟨6, 3, b.y.act, 0, 0, 0⟩) :=
  ⟨fun hn => h _ (slotCheck_unnamed hn), fun _ hk ho => h _ (slotCheck_foreign hk ho)⟩

theorem mapld_slotTraps (f : Fields) (s : State) (b : Begun) (hb : s.begun 0x100 f pb0 = some b) (hact : b.y.act ≠ 0)
    (hfree : b.t.fenced b.y.k b.y.r b.y.unit = false) (hlog : b.t.mapldBehind b.y.k = false) :
    (b.y.slotKey (f.d.toNat % 16) = none → exec (.mapld f) s = .next (b.trapped s ⟨7, 1, b.y.act, BitVec.ofNat 32 (f.d.toNat % 16), 0, 0⟩)) ∧
    ∀ k, b.y.slotKey (f.d.toNat % 16) = some k → (b.t.slot k).owner ≠ b.y.r.did → exec (.mapld f) s = .next (b.trapped s ⟨6, 3, b.y.act, 0, 0, 0⟩) := by
  refine slotTraps fun a ha => ?_
  show execMapld f s = _
  refine issue_trap hb ?_
  simp only [if_neg hact, hfree, hlog, ha, Bool.or_self, Bool.false_eq_true, if_false]

theorem mapclr_slotTraps (f : Fields) (s : State) (b : Begun) (hb : s.begun 0x101 f pb0 = some b) (hact : b.y.act ≠ 0) :
    (b.y.slotKey (f.d.toNat % 16) = none → exec (.mapclr f) s = .next (b.trapped s ⟨7, 1, b.y.act, BitVec.ofNat 32 (f.d.toNat % 16), 0, 0⟩)) ∧
    ∀ k, b.y.slotKey (f.d.toNat % 16) = some k → (b.t.slot k).owner ≠ b.y.r.did → exec (.mapclr f) s = .next (b.trapped s ⟨6, 3, b.y.act, 0, 0, 0⟩) := by
  refine slotTraps fun a ha => ?_
  show execMapclr f s = _
  refine issue_trap hb ?_
  simp only [if_neg hact, ha]

theorem mapq_slotTraps (f : Fields) (s : State) (b : Begun) (hb : s.begun 0x102 f pb0 = some b) (hact : b.y.act ≠ 0) :
    (b.y.slotKey (f.a.toNat % 16) = none → exec (.mapq f) s = .next (b.trapped s ⟨7, 1, b.y.act, BitVec.ofNat 32 (f.a.toNat % 16), 0, 0⟩)) ∧
    ∀ k, b.y.slotKey (f.a.toNat % 16) = some k → (b.t.slot k).owner ≠ b.y.r.did → exec (.mapq f) s = .next (b.trapped s ⟨6, 3, b.y.act, 0, 0, 0⟩) := by
  refine slotTraps fun a ha => ?_
  show execMapq f s = _
  refine issue_trap hb ?_
  simp only [if_neg hact, ha]

/-! Tokens, shares and frames. -/

theorem sfqRd_otherDomain (f : Fields) (s : State) (b : Begun) (hb : s.begun 0x1CA f pb0 = some b) (hs : (b.y.r.tok (f.a.toNat % 16)).state = .ready)
    (hd : (b.y.r.tok (f.a.toNat % 16)).did ≠ b.y.r.did) : exec (.sfqRd f) s = .next (b.trapped s ⟨6, 4, b.y.act, 0, 0, 0⟩) := by
  show execSfqRd f s = _
  refine issue_trap hb ?_
  simp only [hs]
  exact if_pos (bne_iff_ne.2 hd)

theorem waitk_otherDomain (f : Fields) (s : State) (b : Begun) (n : Nat) (hb : s.begun 0x1CB f pb0 = some b) (hn : n < 16) (hbit : (f.c ++ f.b).getLsbD n = true)
    (hs : (b.y.r.tok n).state = .ready) (hd : (b.y.r.tok n).did ≠ b.y.r.did)
    (hfree : ∀ i < 16, (f.c ++ f.b).getLsbD i = true → (b.y.r.tok i).state ≠ .pending ∧ b.y.r.outst.all (fun o => o.tok != some i) = true) :
    exec (.waitk f) s = .next (b.trapped s ⟨6, 4, b.y.act, 0, 0, 0⟩) := by
  have hno : (waitMask f).any (fun n => (b.y.r.tok n).state == .pending || b.y.r.outst.any (fun o => o.tok == some n)) = false := by
    refine List.any_eq_false.2 fun i hi => ?_
    obtain ⟨hlt, hbit⟩ := List.mem_filter.1 hi
    obtain ⟨hp, ho⟩ := hfree i (List.mem_range.1 hlt) hbit
    have ho' : b.y.r.outst.any (fun o => o.tok == some i) = false := by
      refine List.any_eq_false.2 fun o ho' => ?_
      have := List.all_eq_true.1 ho o ho'
      simpa using this
    simp [hp, ho']
  have hany : (waitMask f).any (fun n => (b.y.r.tok n).state == .ready && (b.y.r.tok n).did != b.y.r.did) = true :=
    List.any_eq_true.2 ⟨n, List.mem_filter.2 ⟨List.mem_range.2 hn, hbit⟩, by simp [hs, hd]⟩
  show execWaitk f s = _
  refine issue_trap hb ?_
  simp only [hno, hany, Bool.false_eq_true, if_false, if_true]
  rfl

theorem noShare {i : Fields → Instr} {op : Nat} (hexec : ∀ f s, exec (i f) s = sfqOp op f s) (f : Fields) (s : State) (b : Begun)
    (hb : s.begun op f pb0 = some b) (h : b.y.core.sfuShare b.y.r.dslot = 0) : exec (i f) s = .next (b.trapped s ⟨6, 4, b.y.act, 0, 0, 0⟩) := by
  rw [hexec]
  refine issue_trap hb ?_
  simp only [(begun_spec hb).2.1, h, if_true]
  rfl

theorem cprun_noShare (f : Fields) (s : State) (b : Begun) (hb : s.begun 0x1D0 f pb0 = some b) (hact : b.y.act ≠ 0)
    (h : b.y.core.copyShare b.y.r.dslot = 0) : exec (.cprun f) s = .next (b.trapped s ⟨6, 5, b.y.act, 0, 0, 0⟩) :=
  show execCprun f s = _ from issue_trap hb ((if_neg hact).trans (if_pos h))

theorem cpcmd_noShare (f : Fields) (pb : PB) (s : State) (b : Begun) (hb : s.begun 0x1D1 f pb = some b) (hact : b.y.act ≠ 0)
    (h : b.y.core.copyShare b.y.r.dslot = 0) : exec (.cpcmd f pb) s = .next (b.trapped s ⟨6, 5, b.y.act, 0, 0, 0⟩) :=
  show execCpcmd f pb s = _ from issue_trap hb ((if_neg hact).trans (if_pos h))

theorem cpq_inFrame (f : Fields) (s : State) (b : Begun) (hb : s.begun 0x1D2 f pb0 = some b) (hact : b.y.act ≠ 0) (hn : f.b.toNat < 8)
    (hfr : b.y.r.frame ≠ none) : exec (.cpq f) s = .next (b.trapped s ⟨6, 6, b.y.act, 0, 0, 0⟩) :=
  show execCpq f s = _ from issue_trap hb ((if_neg hact).trans ((if_pos hn).trans (if_pos (Option.isSome_iff_ne_none.2 hfr))))

theorem barrier_inFrame {i : Fields → Instr} {op : Nat} {body : Fields → Issue → Nat → Barrier → State → Act} (hexec : ∀ f s, exec (i f) s = barOp op f (body f) s)
    (f : Fields) (s : State) (b : Begun) (hb : s.begun op f pb0 = some b) (hfr : b.y.r.frame ≠ none) :
    exec (i f) s = .next (b.trapped s ⟨6, 6, b.y.act, 0, 0, 0⟩) := by
  rw [hexec]
  exact issue_trap hb (if_pos (Option.isSome_iff_ne_none.2 hfr))

theorem exit_inFrame (f : Fields) (s : State) (b : Begun) (fr : Frame) (hb : s.begun 0x14C f pb0 = some b) (hg : ¬(f.pg = 7 ∧ f.pgn = true))
    (hfr : b.y.r.frame = some fr) : exec (.exit f) s = .next (b.trapped s ⟨14, 8, b.y.act, fr.gate.setWidth 32, 0, 0⟩) := by
  show execExit f s = _
  refine issue_trap hb ?_
  simp only [if_neg hg, hfr]
  rfl

theorem gret_noFrame (f : Fields) (s : State) (b : Begun) (hb : s.begun 0x1D9 f pb0 = some b) (hfr : b.y.r.frame = none) :
    exec (.gret f) s = .next (b.trapped s ⟨14, 7, b.y.act, 0, 0, 0⟩) := by
  show execGret f s = _
  refine issue_trap hb ?_
  simp only [hfr]
  rfl

theorem gret_frayed (f : Fields) (s : State) (b : Begun) (fr : Frame) (hb : s.begun 0x1D9 f pb0 = some b) (hfr : b.y.r.frame = some fr)
    (hq : b.y.r.quiescent = false) : exec (.gret f) s = .next (b.trapped s ⟨14, 2, b.y.act, fr.gate.setWidth 32, 0, 0⟩) := by
  show execGret f s = _
  refine issue_trap hb ?_
  simp only [hfr, hq]
  rfl

theorem gcall_refused (f : Fields) (s : State) (b : Begun) (n : Nat) (hb : s.begun 0x1D8 f pb0 = some b)
    (h : b.y.gateRefusal b.t (rget 0 (b.t.domain b.y.r.did).gates f.b.toNat) = some n) :
    exec (.gcall f) s = .next (b.trapped s ⟨14, n, b.y.act, f.b.setWidth 32, 0, 0⟩) := by
  show execGcall f s = _
  refine issue_trap hb ?_
  simp only [h]
  rfl

/-! The checks of a gate call (R229, R230). -/

theorem toNat_extract_eq_zero (e : BitVec 512) (lo w : Nat) : (e.extractLsb' lo w).toNat ≠ 0 ↔ e.extractLsb' lo w ≠ 0 := by
  rw [ne_eq, ne_eq, not_iff_not, ← BitVec.toNat_inj]
  rfl

theorem extract_eq_zero (e : BitVec 512) (lo w : Nat) : e.extractLsb' lo w = 0 ↔ e.toNat / 2 ^ lo % 2 ^ w = 0 := by
  rw [← BitVec.toNat_inj, BitVec.extractLsb'_toNat, Nat.shiftRight_eq_div_pow]
  rfl

theorem extract_tail_eq_zero (e : BitVec 512) : e.extractLsb' 332 180 = 0 ↔ e.extractLsb' 332 20 = 0 ∧ e.extractLsb' 352 160 = 0 := by
  have hdiv : e.toNat / 2 ^ 352 = e.toNat / 2 ^ 332 / 2 ^ 20 := by rw [Nat.div_div_eq_div_mul, ← pow_add]
  have hmod : e.toNat / 2 ^ 332 % 2 ^ 180 = e.toNat / 2 ^ 332 % 2 ^ 20 + 2 ^ 20 * (e.toNat / 2 ^ 332 / 2 ^ 20 % 2 ^ 160) := by
    rw [show (2 : Nat) ^ 180 = 2 ^ 20 * 2 ^ 160 by rw [← pow_add], Nat.mod_mul]
  rw [extract_eq_zero, extract_eq_zero, extract_eq_zero, hdiv, hmod, Nat.add_eq_zero_iff, Nat.mul_eq_zero, or_iff_right (by norm_num)]

/-- Whether an entry is barred by its own fields (R229). -/
theorem gateOk_iff (e : BitVec 512) : gateOk e = false ↔ e.getLsbD 16 = false ∨
    (∃ r ∈ [(17, 15), (46, 2), (57, 7), (216, 8), (248, 8), (265, 7), (281, 7), (332, 180)], (e.extractLsb' r.1 r.2).toNat ≠ 0) ∨
    8 < gateNat e 32 4 ∨ 8 < gateNat e 36 4 ∨ gateNat e 40 6 = 0 ∨ 32 < gateNat e 40 6 ∨ 16 < gateNat e 48 4 + gateNat e 52 5 := by
  rw [← not_iff_not, Bool.not_eq_false]
  simp only [gateOk, Bool.and_eq_true, beq_iff_eq, decide_eq_true_eq, toNat_extract_eq_zero, List.mem_cons, List.not_mem_nil, or_false,
    exists_eq_or_imp, exists_eq_left, not_or, not_not, Bool.not_eq_false, ne_eq, extract_tail_eq_zero, not_lt, Nat.one_le_iff_ne_zero, and_assoc]

end

section
variable {x : Issue} {s : State} {e : BitVec 512}

/-- Whether a handle that an entry delegates may be (R230). -/
def Issue.delegates (x : Issue) (s : State) (e : BitVec 512) (lo : Nat) : Bool :=
  if e.getLsbD (lo + 4) then
    let h := s.handle x.r.did x.r.asid (x.r.hr (gateNat e lo 4))
    h.ent.v && (h.ent.space == spGlobal || h.ent.space == spHost || h.ent.space == spPeer)
  else true

theorem FetchRes.faults_iff (r : FetchRes) : r.faults = true ↔ ∃ q, r = .fault q := by
  cases r <;> simp [FetchRes.faults]

/-- The reasons of a refusal, in order, as R230 prints them. -/
theorem gateRefusal_eq : x.gateRefusal s e =
    if x.r.frame.isSome ∨ x.r.priv = .handler then some 1
    else if !x.r.quiescent then some 2
    else if !gateOk e || (s.targetAt x.k x.unit (x.asCallee s e) (e.extractLsb' 64 64)).faults then some 3
    else if x.r.regs < x.f.a.toNat + max (gateNat e 32 4) (gateNat e 36 4) then some 4
    else if !x.delegates s e 256 || !x.delegates s e 272 then some 5
    else (x.core.slotOf (e.extractLsb' 0 16)).elim (some 6) (fun slot =>
      if x.core.rfBytes slot < s.rfUsed x.c x.r.quad slot + 16 * 8 * gateNat e 40 6 * x.r.presentStrands then some 6 else none) := by
  unfold Issue.gateRefusal Issue.delegates
  dsimp only
  cases x.core.slotOf (e.extractLsb' 0 16) <;> rfl

theorem delegates_iff (lo : Nat) : x.delegates s e lo = false ↔ e.getLsbD (lo + 4) = true ∧
    ((s.handle x.r.did x.r.asid (x.r.hr (gateNat e lo 4))).ent.v = false ∨ (s.handle x.r.did x.r.asid (x.r.hr (gateNat e lo 4))).ent.space ∉ [0, 2, 3]) := by
  unfold Issue.delegates
  cases e.getLsbD (lo + 4) with
  | false => simp
  | true =>
    cases hv : (s.handle x.r.did x.r.asid (x.r.hr (gateNat e lo 4))).ent.v <;> simp [hv, spGlobal, spHost, spPeer, and_assoc]

theorem gateFails_one : x.gateFails s e 1 ↔ (x.r.frame.isSome = true ∨ x.r.priv = .handler) := by
  show (x.r.frame ≠ none ∨ x.r.priv = .handler) ↔ _
  rw [Option.isSome_iff_ne_none]

theorem gateFails_two : x.gateFails s e 2 ↔ (!x.r.quiescent) = true := by
  show x.r.quiescent = false ↔ _
  rw [Bool.not_eq_true']

theorem gateFails_three : x.gateFails s e 3 ↔ (!gateOk e || (s.targetAt x.k x.unit (x.asCallee s e) (e.extractLsb' 64 64)).faults) = true := by
  rw [Bool.or_eq_true, Bool.not_eq_true', gateOk_iff, FetchRes.faults_iff]
  show (_ ∨ _ ∨ _ ∨ _ ∨ _ ∨ _ ∨ _ ∨ _) ↔ _
  simp only [or_assoc]
  rfl

theorem gateFails_four : x.gateFails s e 4 ↔ x.r.regs < x.f.a.toNat + max (gateNat e 32 4) (gateNat e 36 4) := Iff.rfl

theorem gateFails_five : x.gateFails s e 5 ↔ (!x.delegates s e 256 || !x.delegates s e 272) = true := by
  rw [Bool.or_eq_true, Bool.not_eq_true', Bool.not_eq_true', delegates_iff, delegates_iff]
  exact Iff.rfl

theorem gateFails_six : x.gateFails s e 6 ↔ ∀ slot, x.core.slotOf (e.extractLsb' 0 16) = some slot →
    x.core.rfBytes slot < s.rfUsed x.c x.r.quad slot + 16 * 8 * gateNat e 40 6 * x.r.presentStrands := Iff.rfl

/-- A gate call is refused for the first reason that holds. -/
theorem gateRefusal_first (x : Issue) (s : State) (e : BitVec 512) :
    (∀ n, 1 ≤ n → n ≤ 6 → (∀ k, 1 ≤ k → k < n → ¬ x.gateFails s e k) → x.gateFails s e n → x.gateRefusal s e = some n) ∧
    ((∀ n, 1 ≤ n → n ≤ 6 → ¬ x.gateFails s e n) → x.gateRefusal s e = none) := by
  refine ⟨fun n h1 h6 hbefore hn => ?_, fun h => ?_⟩
  · rw [gateRefusal_eq]
    have hno (k : Nat) (h1 : 1 ≤ k) (hk : k < n) := hbefore k h1 hk
    interval_cases n
    · rw [if_pos (gateFails_one.1 hn)]
    · rw [if_neg (gateFails_one.not.1 (hno 1 (by decide) (by decide))), if_pos (gateFails_two.1 hn)]
    · rw [if_neg (gateFails_one.not.1 (hno 1 (by decide) (by decide))), if_neg (gateFails_two.not.1 (hno 2 (by decide) (by decide))),
        if_pos (gateFails_three.1 hn)]
    · rw [if_neg (gateFails_one.not.1 (hno 1 (by decide) (by decide))), if_neg (gateFails_two.not.1 (hno 2 (by decide) (by decide))),
        if_neg (gateFails_three.not.1 (hno 3 (by decide) (by decide))), if_pos (gateFails_four.1 hn)]
    · rw [if_neg (gateFails_one.not.1 (hno 1 (by decide) (by decide))), if_neg (gateFails_two.not.1 (hno 2 (by decide) (by decide))),
        if_neg (gateFails_three.not.1 (hno 3 (by decide) (by decide))), if_neg (gateFails_four.not.1 (hno 4 (by decide) (by decide))),
        if_pos (gateFails_five.1 hn)]
    · rw [if_neg (gateFails_one.not.1 (hno 1 (by decide) (by decide))), if_neg (gateFails_two.not.1 (hno 2 (by decide) (by decide))),
        if_neg (gateFails_three.not.1 (hno 3 (by decide) (by decide))), if_neg (gateFails_four.not.1 (hno 4 (by decide) (by decide))),
        if_neg (gateFails_five.not.1 (hno 5 (by decide) (by decide)))]
      cases hs : x.core.slotOf (e.extractLsb' 0 16) with
      | none => rfl
      | some slot => exact if_pos (gateFails_six.1 hn slot hs)
  · rw [gateRefusal_eq, if_neg (gateFails_one.not.1 (h 1 (by decide) (by decide))), if_neg (gateFails_two.not.1 (h 2 (by decide) (by decide))),
      if_neg (gateFails_three.not.1 (h 3 (by decide) (by decide))), if_neg (gateFails_four.not.1 (h 4 (by decide) (by decide))),
      if_neg (gateFails_five.not.1 (h 5 (by decide) (by decide)))]
    have h6 := gateFails_six.not.1 (h 6 (by decide) (by decide))
    push_neg at h6
    obtain ⟨slot, hs, hle⟩ := h6
    rw [hs]
    exact if_neg (Nat.not_lt.2 hle)

end

/-- Settles O37: R139's steps one by one, and for each instruction that its body answers the check that fails. -/
theorem slotsDomainsAndGatesTrap : Obligations.SlotsDomainsAndGatesTrap := by
  unfold Obligations.SlotsDomainsAndGatesTrap
  exact ⟨mapChecks_one, mapChecks_first, slotKey_cases,
    stopsAtItsMaps_alu2 fun _ _ => rfl, stopsAtItsMaps_alu2 fun _ _ => rfl, stopsAtItsMaps_alu2 fun _ _ => rfl,
    stopsAtItsMaps_alu2 fun _ _ => rfl, stopsAtItsMaps_alu2 fun _ _ => rfl, stopsAtItsMaps_alu2 fun _ _ => rfl,
    stopsAtItsMaps_alu2 fun _ _ => rfl, stopsAtItsMaps_alu2 fun _ _ => rfl, stopsAtItsMaps_alu2 fun _ _ => rfl,
    stopsAtItsMaps_alu2 fun _ _ => rfl, stopsAtItsMaps_alu2 fun _ _ => rfl, stopsAtItsMaps_alu2 fun _ _ => rfl,
    stopsAtItsMaps_alu2 fun _ _ => rfl, stopsAtItsMaps_alu2 fun _ _ => rfl, stopsAtItsMaps_alu2 fun _ _ => rfl,
    stopsAtItsMaps_alu2 fun _ _ => rfl, stopsAtItsMaps_alu2 fun _ _ => rfl, stopsAtItsMaps_alu2 fun _ _ => rfl,
    stopsAtItsMaps_alu2 fun _ _ => rfl, stopsAtItsMaps_alu2 fun _ _ => rfl, stopsAtItsMaps_aluCmp fun _ _ => rfl,
    stopsAtItsMaps_aluCmp fun _ _ => rfl, stopsAtItsMaps_aluCmp fun _ _ => rfl, stopsAtItsMaps_aluCmp fun _ _ => rfl,
    stopsAtItsMaps_alu2 fun _ _ => rfl, stopsAtItsMaps_alu2 fun _ _ => rfl, stopsAtItsMaps_alu2 fun _ _ => rfl,
    stopsAtItsMaps_alu2 fun _ _ => rfl, stopsAtItsMaps_alu1 fun _ _ => rfl, stopsAtItsMaps_alu3 fun _ _ => rfl,
    stopsAtItsMaps_alu2 fun _ _ => rfl, stopsAtItsMaps_alu2 fun _ _ => rfl, stopsAtItsMaps_alu2 fun _ _ => rfl,
    stopsAtItsMaps_alu2 fun _ _ => rfl, stopsAtItsMaps_alu2 fun _ _ => rfl, stopsAtItsMaps_alu2 fun _ _ => rfl,
    stopsAtItsMaps_alu2 fun _ _ => rfl, stopsAtItsMaps_alu1 fun _ _ => rfl, stopsAtItsMaps_alu1 fun _ _ => rfl,
    stopsAtItsMaps_aluSel fun _ _ => rfl, stopsAtItsMaps_aluSel fun _ _ => rfl, stopsAtItsMaps_alu2 fun _ _ => rfl,
    stopsAtItsMaps_alu2 fun _ _ => rfl, stopsAtItsMaps_alu2 fun _ _ => rfl, stopsAtItsMaps_alu2 fun _ _ => rfl,
    stopsAtItsMaps_alu2 fun _ _ => rfl, stopsAtItsMaps_alu2 fun _ _ => rfl, stopsAtItsMaps_alu2 fun _ _ => rfl,
    stopsAtItsMaps_alu2 fun _ _ => rfl, stopsAtItsMaps_alu2 fun _ _ => rfl, stopsAtItsMaps_alu2 fun _ _ => rfl,
    stopsAtItsMaps_alu3 fun _ _ => rfl, stopsAtItsMaps_alu3 fun _ _ => rfl, stopsAtItsMaps_alu3 fun _ _ => rfl,
    stopsAtItsMaps_alu3 fun _ _ => rfl, stopsAtItsMaps_idp fun _ _ => rfl, stopsAtItsMaps_idp fun _ _ => rfl,
    stopsAtItsMaps_idp fun _ _ => rfl, stopsAtItsMaps_alu2 fun _ _ => rfl, stopsAtItsMaps_alu2 fun _ _ => rfl,
    stopsAtItsMaps_alu2 fun _ _ => rfl, stopsAtItsMaps_alu2 fun _ _ => rfl, stopsAtItsMaps_alu1 fun _ _ => rfl,
    stopsAtItsMaps_alu1 fun _ _ => rfl, stopsAtItsMaps_alu1 fun _ _ => rfl, stopsAtItsMaps_alu1 fun _ _ => rfl,
    stopsAtItsMaps_alu2 (g := fun m _ => bfeElem m true) fun _ _ => rfl,
    stopsAtItsMaps_alu2 (g := fun m _ => bfeElem m false) fun _ _ => rfl, stopsAtItsMaps_alu3 fun _ _ => rfl,
    stopsAtItsMaps_aluCvt fun _ _ => rfl, stopsAtItsMaps_aluCvt fun _ _ => rfl, stopsAtItsMaps_aluCvt fun _ _ => rfl,
    stopsAtItsMaps_aluCvt fun _ _ => rfl, stopsAtItsMaps_aluCvt fun _ _ => rfl, stopsAtItsMaps_aluCvt fun _ _ => rfl,
    stopsAtItsMaps_aluCvt fun _ _ => rfl, stopsAtItsMaps_aluCvt fun _ _ => rfl, stopsAtItsMaps_aluCvt fun _ _ => rfl,
    stopsAtItsMaps_aluCvt fun _ _ => rfl, stopsAtItsMaps_aluCvt fun _ _ => rfl, stopsAtItsMaps_aluCvt fun _ _ => rfl,
    stopsAtItsMaps_aluCvt fun _ _ => rfl, stopsAtItsMaps_aluCvt fun _ _ => rfl, stopsAtItsMaps_aluCvt fun _ _ => rfl,
    stopsAtItsMaps_aluCvt fun _ _ => rfl, stopsAtItsMaps_aluCvt fun _ _ => rfl, stopsAtItsMaps_aluCvt fun _ _ => rfl,
    stopsAtItsMaps_aluCvt fun _ _ => rfl, stopsAtItsMaps_aluCvt fun _ _ => rfl, stopsAtItsMaps_aluCvt fun _ _ => rfl,
    stopsAtItsMaps_aluCvt fun _ _ => rfl, stopsAtItsMaps_aluCvt fun _ _ => rfl, stopsAtItsMaps_aluCvt fun _ _ => rfl,
    stopsAtItsMaps_pack fun _ _ => rfl, stopsAtItsMaps_pack fun _ _ => rfl, stopsAtItsMaps_pack fun _ _ => rfl,
    stopsAtItsMaps_pack fun _ _ => rfl, stopsAtItsMaps_pack fun _ _ => rfl, stopsAtItsMaps_pack fun _ _ => rfl,
    stopsAtItsMaps_pack fun _ _ => rfl, stopsAtItsMaps_pack fun _ _ => rfl, stopsAtItsMaps_pack fun _ _ => rfl,
    stopsAtItsMaps_pack fun _ _ => rfl, stopsAtItsMaps_alu2 fun _ _ => rfl, stopsAtItsMaps_alu2 fun _ _ => rfl,
    stopsAtItsMaps_alu2 fun _ _ => rfl, stopsAtItsMaps_alu3 fun _ _ => rfl, stopsAtItsMaps_alu2 fun _ _ => rfl,
    stopsAtItsMaps_alu2 fun _ _ => rfl, stopsAtItsMaps_aluCmp fun _ _ => rfl, stopsAtItsMaps_alu1 fun _ _ => rfl,
    stopsAtItsMaps_alu2 fun _ _ => rfl, stopsAtItsMaps_alu2 fun _ _ => rfl, stopsAtItsMaps_alu2 fun _ _ => rfl,
    stopsAtItsMaps_alu3 fun _ _ => rfl, stopsAtItsMaps_alu2 fun _ _ => rfl, stopsAtItsMaps_alu2 fun _ _ => rfl,
    stopsAtItsMaps_aluCmp fun _ _ => rfl, stopsAtItsMaps_alu1 fun _ _ => rfl, stopsAtItsMaps_alu2 fun _ _ => rfl,
    stopsAtItsMaps_alu2 fun _ _ => rfl, stopsAtItsMaps_alu2 fun _ _ => rfl, stopsAtItsMaps_alu3 fun _ _ => rfl,
    stopsAtItsMaps_alu2 fun _ _ => rfl, stopsAtItsMaps_alu2 fun _ _ => rfl, stopsAtItsMaps_aluCmp fun _ _ => rfl,
    stopsAtItsMaps_alu1 fun _ _ => rfl, stopsAtItsMaps_alu2 fun _ _ => rfl, stopsAtItsMaps_alu2 fun _ _ => rfl,
    stopsAtItsMaps_alu2 fun _ _ => rfl, stopsAtItsMaps_alu3 fun _ _ => rfl, stopsAtItsMaps_alu2 fun _ _ => rfl,
    stopsAtItsMaps_alu2 fun _ _ => rfl, stopsAtItsMaps_aluCmp fun _ _ => rfl, stopsAtItsMaps_alu1 fun _ _ => rfl,
    stopsAtItsMaps_facc fun _ _ => rfl, stopsAtItsMaps_facc fun _ _ => rfl, stopsAtItsMaps_facc fun _ _ => rfl,
    stopsAtItsMaps_facc fun _ _ => rfl, stopsAtItsMaps_facc fun _ _ => rfl, stopsAtItsMaps_facc fun _ _ => rfl, mapld_slotTraps,
    mapclr_slotTraps, mapq_slotTraps, sfqRd_otherDomain, waitk_otherDomain, noShare fun _ _ => rfl, noShare fun _ _ => rfl,
    noShare fun _ _ => rfl, noShare fun _ _ => rfl, noShare fun _ _ => rfl, noShare fun _ _ => rfl, noShare fun _ _ => rfl,
    noShare fun _ _ => rfl, noShare fun _ _ => rfl, noShare fun _ _ => rfl, cprun_noShare, cpcmd_noShare, cpq_inFrame,
    barrier_inFrame fun _ _ => rfl, barrier_inFrame fun _ _ => rfl,
    barrier_inFrame (fun f s => by show execBarWait f s = _; rw [execBarWait]),
    barrier_inFrame (fun f s => by show execBarSet f s = _; rw [execBarSet]), gateRefusal_first, gcall_refused, gret_noFrame, gret_frayed,
    exit_inFrame⟩

end Sys2Proof.Machine
end

section
/-! PROOFS. Gate calls and returns (R230 to R232). -/

namespace Sys2Proof.Machine

/-! Registers written lane by lane. -/

/-- Registers of a table filled by lanes with the values of a function. -/
theorem rget_foldl_lanes (g : Nat → Nat → Word) (l : List (Nat × Nat × Word)) (t : Tbl Word) (h : ∀ e ∈ l, e.2.1 < 32 ∧ e.2.2 = g e.1 e.2.1)
    {n j : Nat} (hj : j < 32) : rget 0 (l.foldl (fun t e => rset 0 t (32 * e.1 + e.2.1) e.2.2) t) (32 * n + j) =
      if ∃ e ∈ l, e.1 = n ∧ e.2.1 = j then g n j else rget 0 t (32 * n + j) := by
  induction l generalizing t with
  | nil => simp
  | cons e l ih =>
    obtain ⟨hlt, hval⟩ := h e List.mem_cons_self
    have hkey : 32 * n + j = 32 * e.1 + e.2.1 ↔ e.1 = n ∧ e.2.1 = j := by omega
    rw [List.foldl_cons, ih _ (fun e he => h e (List.mem_cons_of_mem _ he)), rget_rset]
    by_cases hin : ∃ e ∈ l, e.1 = n ∧ e.2.1 = j
    · obtain ⟨e', he', hk⟩ := hin
      rw [if_pos ⟨e', he', hk⟩, if_pos ⟨e', List.mem_cons_of_mem _ he', hk⟩]
    · rw [if_neg hin]
      by_cases hk : e.1 = n ∧ e.2.1 = j
      · rw [if_pos (hkey.2 hk), if_pos ⟨e, List.mem_cons_self, hk⟩, hval, hk.1, hk.2]
      · rw [if_neg (fun hc => hk (hkey.1 hc)), if_neg]
        rintro ⟨e', he', hk'⟩
        obtain rfl | he' := List.mem_cons.1 he'
        · exact hk hk'
        · exact hin ⟨e', he', hk'⟩

theorem tget_of_unlisted {α : Type} (l : Tbl α) (k : Nat) (h : k ∉ l.map Prod.fst) : tget l k = none := by
  induction l with
  | nil => rfl
  | cons e l ih =>
    obtain ⟨j, v⟩ := e
    rw [List.map_cons, List.mem_cons, not_or] at h
    rw [tget, if_neg (Ne.symm h.1), ih h.2]

theorem rget_cons {α : Type} (d : α) (j : Nat) (v : α) (l : Tbl α) (k : Nat) : rget d ((j, v) :: l) k = if j = k then v else rget d l k := by
  rw [rget, tget]
  split <;> rfl

/-- A table without its default values. -/
theorem rget_filter_ne {α : Type} [DecidableEq α] (d : α) (l : Tbl α) (h : (l.map Prod.fst).Nodup) (k : Nat) :
    rget d (l.filter (fun q => q.2 != d)) k = rget d l k := by
  induction l with
  | nil => rfl
  | cons e l ih =>
    obtain ⟨j, v⟩ := e
    rw [List.map_cons, List.nodup_cons] at h
    have ih := ih h.2
    by_cases hv : v = d
    · rw [List.filter_cons_of_neg (by simp [hv]), ih, rget_cons]
      split
      · next hj =>
        rw [rget, tget_of_unlisted l k (hj ▸ h.1), hv]
        rfl
      · rfl
    · rw [List.filter_cons_of_pos (by simp [hv]), rget_cons, rget_cons, ih]

theorem mem_lanesOf {m : Word} {l : Nat} : l ∈ lanesOf m ↔ l < 32 ∧ m.getLsbD l = true := by
  rw [lanesOf, List.mem_filter, lanes32, List.mem_range]

theorem Rope.setV_present (r : Rope) (n l : Nat) (v : Word) : (r.setV n l v).present = r.present := by
  rw [Rope.present, Rope.lanes, Rope.setV_strands]
  rfl

/-- A register written in some lanes. -/
theorem foldl_setV_lanes (w : Nat → Word) (n0 : Nat) (ls : List Nat) (hls : ∀ l ∈ ls, l < 32) (c : Rope) :
    (ls.foldl (fun (d : Rope) l => d.setV n0 l (w l)) c).present = c.present ∧
    ∀ n j, j < 32 → (ls.foldl (fun (d : Rope) l => d.setV n0 l (w l)) c).vr n j =
      if n = n0 ∧ j ∈ ls ∧ c.present.getLsbD j = true then w j else c.vr n j := by
  induction ls generalizing c with
  | nil => simp
  | cons l ls ih =>
    obtain ⟨hp, hv⟩ := ih (fun l hl => hls l (List.mem_cons_of_mem _ hl)) (c.setV n0 l (w l))
    refine ⟨hp.trans (c.setV_present _ _ _), fun n j hj => ?_⟩
    rw [List.foldl_cons, hv n j hj, c.setV_present, Rope.setV_vr _ _ _ _ _ _ (hls l List.mem_cons_self) hj]
    by_cases hrest : n = n0 ∧ j ∈ ls ∧ c.present.getLsbD j = true
    · rw [if_pos hrest, if_pos ⟨hrest.1, List.mem_cons_of_mem _ hrest.2.1, hrest.2.2⟩]
    · rw [if_neg hrest]
      by_cases hhead : n = n0 ∧ j = l ∧ c.present.getLsbD l = true
      · obtain ⟨rfl, rfl, hpr⟩ := hhead
        rw [if_pos ⟨rfl, rfl, hpr⟩, if_pos ⟨rfl, List.mem_cons_self, hpr⟩]
      · rw [if_neg hhead, if_neg]
        rintro ⟨hn, hmem, hpr⟩
        obtain rfl | hmem := List.mem_cons.1 hmem
        · exact hhead ⟨hn, rfl, hpr⟩
        · exact hrest ⟨hn, hmem, hpr⟩

/-- The results of a gate call in the caller's registers (R232). -/
theorem gateResults_vr (r : Rope) (fr : Frame) (c : Rope) (hc : c.present = r.present) (n j : Nat) (hj : j < 32) :
    (gateResults r fr c).vr n j =
      if fr.base ≤ n ∧ n < fr.base + gateNat fr.entry 36 4 ∧ (r.present &&& ~~~r.retired).getLsbD j = true then r.vr (n - fr.base) j
      else c.vr n j := by
  unfold gateResults
  simp only []
  generalize hm : gateNat fr.entry 36 4 = m
  clear hm
  have key : ∀ m, ((List.range m).foldl (fun (c : Rope) i =>
      (lanesOf (r.present &&& ~~~r.retired)).foldl (fun (d : Rope) l => d.setV (fr.base + i) l (r.vr i l)) c) c).present = r.present ∧
      ((List.range m).foldl (fun (c : Rope) i =>
        (lanesOf (r.present &&& ~~~r.retired)).foldl (fun (d : Rope) l => d.setV (fr.base + i) l (r.vr i l)) c) c).vr n j =
      if fr.base ≤ n ∧ n < fr.base + m ∧ (r.present &&& ~~~r.retired).getLsbD j = true then r.vr (n - fr.base) j else c.vr n j := by
    intro m
    induction m with
    | zero => exact ⟨hc, by simp; omega⟩
    | succ m ih =>
      obtain ⟨hp, hv⟩ := ih
      rw [List.range_succ, List.foldl_append, List.foldl_cons, List.foldl_nil]
      obtain ⟨hp', hv'⟩ := foldl_setV_lanes (fun l => r.vr m l) (fr.base + m) (lanesOf (r.present &&& ~~~r.retired)) (fun l hl => (mem_lanesOf.1 hl).1)
        ((List.range m).foldl (fun (c : Rope) i =>
          (lanesOf (r.present &&& ~~~r.retired)).foldl (fun (d : Rope) l => d.setV (fr.base + i) l (r.vr i l)) c) c)
      refine ⟨hp'.trans hp, ?_⟩
      rw [hv' n j hj, hv, hp]
      by_cases hL : (r.present &&& ~~~r.retired).getLsbD j = true
      · have hpj : r.present.getLsbD j = true := (Bool.and_eq_true_iff.1 ((BitVec.getLsbD_and ..).symm.trans hL)).1
        by_cases hn : n = fr.base + m
        · rw [if_pos ⟨hn, mem_lanesOf.2 ⟨hj, hL⟩, hpj⟩, if_pos ⟨by omega, by omega, hL⟩, hn, Nat.add_sub_cancel_left]
        · rw [if_neg (fun h => hn h.1)]
          by_cases hin : fr.base ≤ n ∧ n < fr.base + m
          · rw [if_pos ⟨hin.1, hin.2, hL⟩, if_pos ⟨hin.1, by omega, hL⟩]
          · rw [if_neg (fun h => hin ⟨h.1, h.2.1⟩), if_neg (fun h => hin ⟨h.1, by omega⟩)]
      · rw [if_neg (fun h => hL (mem_lanesOf.1 h.2.1).2), if_neg (fun h => hL h.2.2), if_neg (fun h => hL h.2.2)]
  exact (key m).2

/-- A change of a rope's registers alone leaves every other field. -/
theorem gateResults_regs (r : Rope) (fr : Frame) (c : Rope) : ∃ v, gateResults r fr c = { c with v := v } := by
  have hone (d : Rope) (n l : Nat) (w : Word) : ∃ v, d.setV n l w = { d with v := v } := by
    unfold Rope.setV
    split
    · exact ⟨_, rfl⟩
    · exact ⟨d.v, rfl⟩
  have hfold {α : Type} (g : Rope → α → Rope) (hg : ∀ d a, ∃ v, g d a = { d with v := v }) (l : List α) (d : Rope) : ∃ v, l.foldl g d = { d with v := v } := by
    induction l generalizing d with
    | nil => exact ⟨d.v, rfl⟩
    | cons a l ih =>
      obtain ⟨v, hv⟩ := hg d a
      obtain ⟨v', hv'⟩ := ih (g d a)
      exact ⟨v', by rw [List.foldl_cons, hv', hv]⟩
  exact hfold _ (fun d i => hfold _ (fun d l => hone d _ l _) _ d) _ c

/-! GCALL. -/

section
variable {s : State} {f : Fields} {b : Begun}

theorem toTarget_ok {x : Issue} {s : State} {r : Rope} {pc : DWord} {act : Act} (h : s.targetAt x.k x.unit r pc = .ok) : x.toTarget s r pc act = act := by
  rw [Issue.toTarget, h]

/-- The arguments of a gate call in the callee's registers, the others 0 (R230). -/
theorem enterFrame_vr (x : Issue) (s : State) (e : BitVec 512) (slot n l : Nat) (hl : l < 32) :
    (x.enterFrame s e slot).vr n l = if n < gateNat e 32 4 ∧ x.r.present.getLsbD l = true then x.r.vr (x.f.a.toNat + n) l else 0 := by
  show rget 0 (((List.range (gateNat e 32 4)).flatMap (fun i => (lanesOf x.r.present).map (fun l => (i, l, x.r.vr (x.f.a.toNat + i) l)))).foldl
    (fun t e => rset 0 t (32 * e.1 + e.2.1) e.2.2) []) (32 * n + l) = _
  rw [rget_foldl_lanes (fun i l => x.r.vr (x.f.a.toNat + i) l) _ _ ?_ hl]
  · refine if_congr ⟨?_, ?_⟩ rfl rfl
    · rintro ⟨e', he', rfl, rfl⟩
      obtain ⟨i, hi, he'⟩ := List.mem_flatMap.1 he'
      obtain ⟨l', hl', rfl⟩ := List.mem_map.1 he'
      exact ⟨List.mem_range.1 hi, (mem_lanesOf.1 hl').2⟩
    · rintro ⟨hn, hp⟩
      exact ⟨(n, l, _), List.mem_flatMap.2 ⟨n, List.mem_range.2 hn, List.mem_map.2 ⟨l, mem_lanesOf.2 ⟨hl, hp⟩, rfl⟩⟩, rfl, rfl⟩
  · intro e' he'
    obtain ⟨i, hi, he'⟩ := List.mem_flatMap.1 he'
    obtain ⟨l', hl', rfl⟩ := List.mem_map.1 he'
    exact ⟨(mem_lanesOf.1 hl').1, rfl⟩

/-- The handles of a callee: those of its entry, and those that the caller delegates (R230). -/
def Issue.calleeHandles (x : Issue) (e : BitVec 512) : Tbl (BitVec 12) :=
  [(0, e.extractLsb' 192 12), (1, e.extractLsb' 204 12), (2, e.extractLsb' 224 12),
    (3, e.extractLsb' 236 12), (14, if e.getLsbD 260 then x.r.hr (gateNat e 256 4) else 0),
    (15, if e.getLsbD 276 then x.r.hr (gateNat e 272 4) else 0)]

theorem enterFrame_hr (x : Issue) (s : State) (e : BitVec 512) (slot n : Nat) : (x.enterFrame s e slot).hr n = rget 0 (x.calleeHandles e) n :=
  rget_filter_ne 0 (x.calleeHandles e) (show ([0, 1, 2, 3, 14, 15] : List Nat).Nodup by decide) n

theorem calleeHandles_none (x : Issue) (e : BitVec 512) {n : Nat} (h4 : 4 ≤ n) (h14 : n < 14) : rget 0 (x.calleeHandles e) n = 0 := by
  interval_cases n <;> rfl

/-- A strand list whose live strands are sent to an address. -/
theorem live_pc_of_sent {l : List Strand} {g : Strand → Strand} {pc : DWord} (hlive : ∀ t, (g t).live = true → t.live = true ∧ (g t).pc = pc) :
    ∀ t ∈ l.map g, t.live = true → t.pc = pc := by
  intro t ht hl
  obtain ⟨u, -, rfl⟩ := List.mem_map.1 ht
  exact (hlive u hl).2

/-- The callee inside its frame, field by field (R230). -/
theorem enterFrame_fields (x : Issue) (s : State) (e : BitVec 512) (slot : Nat) :
    let q := x.enterFrame s e slot
    q.did = e.extractLsb' 0 16 ∧ q.dslot = slot ∧ q.asid = (s.domain (e.extractLsb' 0 16)).asid ∧
      q.regs = 8 * (e.extractLsb' 40 6).toNat ∧ q.maps = (e.extractLsb' 52 5).toNat ∧ q.codeh = e.extractLsb' 320 12 ∧
      q.trapH = e.extractLsb' 128 64 ∧ q.s = [] ∧ q.p = [] ∧ q.k = [] ∧ q.ldc = 0 ∧ q.stc = 0 ∧ q.cpc = 0 :=
  ⟨rfl, rfl, rfl, rfl, rfl, rfl, rfl, rfl, rfl, rfl, rfl, rfl, rfl⟩

theorem enterFrame_frame (x : Issue) (s : State) (e : BitVec 512) (slot : Nat) :
    ∃ fr, (x.enterFrame s e slot).frame = some fr ∧ fr.gate = x.f.b ∧ fr.ret = x.fall ∧ fr.pc = x.pc ∧ fr.v = x.r.v ∧ fr.s = x.r.s ∧
      fr.p = x.r.p ∧ fr.h = x.r.h ∧ fr.k = x.r.k ∧ fr.did = x.r.did ∧ fr.asid = x.r.asid :=
  ⟨_, rfl, rfl, rfl, rfl, rfl, rfl, rfl, rfl, rfl, rfl, rfl⟩

theorem enterFrame_live_pc (x : Issue) (s : State) (e : BitVec 512) (slot : Nat) :
    ∀ t ∈ (x.enterFrame s e slot).strands, t.live = true → t.pc = e.extractLsb' 64 64 := by
  refine live_pc_of_sent fun t hl => ?_
  by_cases hlive : t.live = true
  · rw [if_pos hlive]
    exact ⟨hlive, rfl⟩
  · rw [if_neg hlive] at hl
    exact absurd hl hlive

theorem gcall_enters (hb : s.begun 0x1D8 f pb0 = some b) {slot : Nat}
    (hno : b.y.gateRefusal b.t (rget 0 (b.t.domain b.y.r.did).gates f.b.toNat) = none)
    (hslot : b.y.core.slotOf ((rget 0 (b.t.domain b.y.r.did).gates f.b.toNat).extractLsb' 0 16) = some slot)
    (hfree : b.t.gateBusy b.y.k b.y.r = false)
    (hok : b.t.targetAt b.y.k b.y.unit (b.y.asCallee b.t (rget 0 (b.t.domain b.y.r.did).gates f.b.toNat))
      ((rget 0 (b.t.domain b.y.r.did).gates f.b.toNat).extractLsb' 64 64) = .ok) :
    exec (.gcall f) s = .next (b.after (b.t.setRope b.y.k (b.y.enterFrame b.t (rget 0 (b.t.domain b.y.r.did).gates f.b.toNat) slot)) [] 0 .done) := by
  show execGcall f s = _
  refine issue_go hb ?_
  simp only [hno, hslot, toTarget_ok hok, hfree, Bool.false_eq_true, if_false]

end

/-! GRET. -/

/-- The caller as a GRET finds it again, before its next issue is set (R232). -/
def Rope.gateReturn (r : Rope) (fr : Frame) : Rope :=
  let r1 := (gateResults r.landAll fr (r.landAll.leaveFrame fr)).oneUnit
  match r.landAll.trap with
  | some c => { r1 with trap := none, priv := c.prev }
  | none => r1

section
variable {s : State} {f : Fields} {b : Begun} {fr : Frame}

theorem oneUnit_live_pc (r : Rope) {pc : DWord} (h : ∀ t ∈ r.strands, t.live = true → t.pc = pc) : ∀ t ∈ r.oneUnit.strands, t.live = true → t.pc = pc := by
  intro t ht hl
  obtain ⟨u, hu, rfl⟩ := List.mem_map.1 ht
  by_cases hul : u.live = true
  · rw [if_pos hul]
    exact h u hu hul
  · rw [if_neg hul] at hl
    exact absurd hl hul

theorem leaveFrame_live_pc (r : Rope) (fr : Frame) : ∀ t ∈ (r.leaveFrame fr).strands, t.live = true → t.pc = fr.ret := by
  refine live_pc_of_sent fun t hl => ?_
  by_cases hlive : t.live = true
  · rw [if_pos hlive]
    exact ⟨hlive, rfl⟩
  · rw [if_neg hlive] at hl
    exact absurd hl hlive

theorem leaveFrame_present (r : Rope) (fr : Frame) : (r.leaveFrame fr).present = r.present := by
  have hmap : ∀ (l : List Strand) (i : Nat), laneNat (fun t => if t.present then 15 else 0) i (l.map (fun t =>
      if t.live then { t with pc := fr.ret, active := ~~~t.retired, stack := [], parked := 0, waiting := false, unit := 0, stopped := false } else t)) =
      laneNat (fun t => if t.present then 15 else 0) i l := by
    intro l
    induction l with
    | nil => exact fun _ => rfl
    | cons t l ih =>
      intro i
      rw [List.map_cons, laneNat, laneNat, ih]
      split <;> rfl
  rw [Rope.present, Rope.lanes, Rope.present, Rope.lanes]
  exact congrArg (BitVec.ofNat 32) (hmap _ _)

/-- What is back of the caller: its own registers with the results, its lanes at the return address. -/
theorem gateReturn_eq (r : Rope) (fr : Frame) : ∃ sts t p, r.gateReturn fr =
    { r.landAll.leaveFrame fr with v := (gateResults r.landAll fr (r.landAll.leaveFrame fr)).v, strands := sts, trap := t, priv := p } ∧
    ∀ t ∈ sts, t.live = true → t.pc = fr.ret := by
  obtain ⟨v, hv⟩ := gateResults_regs r.landAll fr (r.landAll.leaveFrame fr)
  have hst : ∀ t ∈ (gateResults r.landAll fr (r.landAll.leaveFrame fr)).oneUnit.strands, t.live = true → t.pc = fr.ret := by
    refine oneUnit_live_pc _ ?_
    rw [hv]
    exact leaveFrame_live_pc _ _
  unfold Rope.gateReturn
  rw [hv] at hst ⊢
  dsimp only
  split
  · exact ⟨_, _, _, rfl, hst⟩
  · exact ⟨_, _, _, rfl, hst⟩

theorem gateReturn_vr (r : Rope) (fr : Frame) (n l : Nat) (hl : l < 32) : rget 0 (gateResults r.landAll fr (r.landAll.leaveFrame fr)).v (32 * n + l) =
    if fr.base ≤ n ∧ n < fr.base + gateNat fr.entry 36 4 ∧ (r.landAll.present &&& ~~~r.landAll.retired).getLsbD l = true
      then r.landAll.vr (n - fr.base) l else rget 0 fr.v (32 * n + l) :=
  gateResults_vr r.landAll fr (r.landAll.leaveFrame fr) (leaveFrame_present _ _) n l hl

theorem landAll_regsOnly (r : Rope) : r.landAll = { r with v := r.landAll.v, s := r.landAll.s, p := r.landAll.p, inflight := [] } := by
  have h := r.writes_regsOnly (r.inflight.flatMap Pend.writes)
  unfold Rope.landAll
  rw [h]

theorem landAll_strands (r : Rope) : r.landAll.strands = r.strands := by rw [landAll_regsOnly]
theorem landAll_wg (r : Rope) : r.landAll.wg = r.wg := by rw [landAll_regsOnly]

theorem landAll_present (r : Rope) : r.landAll.present = r.present := by
  rw [Rope.present, Rope.lanes, landAll_strands]
  rfl

theorem landAll_retired (r : Rope) : r.landAll.retired = r.retired := by
  rw [Rope.retired, Rope.lanes, landAll_strands]
  rfl

theorem gret_returns (hb : s.begun 0x1D9 f pb0 = some b) (hfr : b.y.r.frame = some fr) (hq : b.y.r.quiescent = true)
    (hfree : b.t.gretWaits b.y.k b.y.r = false) (hok : b.t.targetAt b.y.k b.y.unit (b.y.r.gateReturn fr) fr.ret = .ok) :
    exec (.gret f) s = .next (b.after (b.t.setRope b.y.k { b.y.r.gateReturn fr with
      sched := tset (b.y.r.gateReturn fr).sched (b.y.r.gateReturn fr).headUnit ⟨b.y.core.cyc + 3 + b.y.stall, 0, b.y.skip, 0, false, none⟩ }) [] 0 .done) := by
  show execGret f s = _
  refine issue_go hb ?_
  simp only [hfr, hq, hfree, Bool.not_true, Bool.false_eq_true, if_false]
  exact toTarget_ok hok

end

/-- Settles O36: a gate call that passes enters the frame, and a return that waits for nothing leaves it. -/
theorem gateCallsEnterAndLeaveTheCallee : Obligations.GateCallsEnterAndLeaveTheCallee := by
  unfold Obligations.GateCallsEnterAndLeaveTheCallee
  refine ⟨fun f s b slot hb => ?_, fun f s b fr hb hfr hq hldc hstc hout hcop hsfu htok htarget => ?_⟩
  · intro e hno hslot hfree hok
    obtain rfl := (begun_op hb).2.2.2
    have hh (n : Nat) := enterFrame_hr b.y b.t e slot n
    obtain ⟨hdid, hds, hasid, hregs, hmaps, hcode, htrap, hs, hp, hk, hldc, hstc, hcpc⟩ := enterFrame_fields b.y b.t e slot
    exact ⟨b.y.enterFrame b.t e slot, gcall_enters hb hno hslot hfree hok, hdid, hds, hasid, hregs, hmaps, hcode, htrap, hs, hp, hk, hldc, hstc, hcpc,
      fun n l hl => enterFrame_vr b.y b.t e slot n l hl, hh 0, hh 1, hh 2, hh 3, fun n h4 h14 => (hh n).trans (calleeHandles_none _ _ h4 h14),
      hh 14, hh 15, enterFrame_live_pc b.y b.t e slot, enterFrame_frame b.y b.t e slot⟩
  · have hwait : b.t.gretWaits b.y.k b.y.r = false := by
      unfold State.gretWaits
      rw [hldc, hstc, hout, hcop, hsfu, htok]
      rfl
    obtain ⟨sts, t, p, hback, hpc⟩ := gateReturn_eq b.y.r fr
    have hok := htarget (b.y.r.gateReturn fr) (by rw [hback]; rfl) (by rw [hback]; rfl) (by rw [hback]; rfl)
      (by rw [hback]; exact landAll_wg b.y.r) (by rw [hback]; rfl) (by rw [hback]; rfl)
    refine ⟨_, gret_returns hb hfr hq hwait hok, ?_⟩
    rw [hback]
    refine ⟨rfl, rfl, rfl, rfl, rfl, rfl, rfl, rfl, rfl, rfl, rfl, fun n l hl => ?_, hpc⟩
    have hv := gateReturn_vr b.y.r fr n l hl
    rwa [landAll_present, landAll_retired] at hv

end Sys2Proof.Machine
end

section
/-! PROOFS. The rope phase, compaction and the steps of the scheduler (R165, R168, R169, R197, R323, R324, R376). -/

namespace Sys2Proof.Machine

/-! The rope phase. -/

/-- Earliest cycles set for units one after the other. -/
theorem foldl_setReady (g : Rope → Nat → Nat) (hg : ∀ (q : Rope) t u, g { q with sched := t } u = g q u) (us : List Nat) (q : Rope) :
    ∃ t, us.foldl (fun (q : Rope) u => q.setReady u (g q u) 0) q = { q with sched := t } ∧
      ∀ u, (tget t u).getD UnitSched.none = if u ∈ us then ⟨g q u, 0, 0, 0, false, none⟩ else q.schedOf u := by
  induction us generalizing q with
  | nil => exact ⟨q.sched, rfl, fun u => by simp [Rope.schedOf]⟩
  | cons v us ih =>
    obtain ⟨t, hfold, hget⟩ := ih (q.setReady v (g q v) 0)
    refine ⟨t, hfold, fun u => ?_⟩
    have hgu : g (q.setReady v (g q v) 0) u = g q u := hg q _ u
    rw [hget u, hgu]
    by_cases hin : u ∈ us
    · rw [if_pos hin, if_pos (List.mem_cons_of_mem _ hin)]
    · rw [if_neg hin, Rope.schedOf, Rope.setReady, tget_tset]
      by_cases hv : u = v
      · subst hv
        simp
      · simp [hv, hin, Rope.schedOf]

/-- The strand of a rope whose join PC names the unit that goes on at it. -/
def Rope.joinFirst (r : Rope) (pc : DWord) : Nat :=
  ((List.range r.strands.length).find? (fun i => (r.strands.getD i Strand.none).live && (r.strands.getD i Strand.none).joinPc == pc)).getD 0

/-- A live strand behind its SPLICE. -/
def Rope.joined (r : Rope) (t : Strand) : Strand :=
  if t.live then { t with waiting := false, pc := t.joinPc + BitVec.ofNat 64 t.joinLen, unit := r.joinFirst t.joinPc } else t

theorem Rope.joined_of_live {r : Rope} {t : Strand} (h : t.live = true) :
    r.joined t = { t with waiting := false, pc := t.joinPc + BitVec.ofNat 64 t.joinLen, unit := r.joinFirst t.joinPc } := if_pos h

theorem Rope.joined_live (r : Rope) (t : Strand) : (r.joined t).live = t.live := by
  unfold Rope.joined
  split <;> rfl

/-- The rope phase sets the strands behind their SPLICE, their units' cycles, and nothing of the registers. -/
theorem Rope.phase_eq (r : Rope) (cyc : Nat) : ∃ t fo c, r.phase cyc = { r with strands := r.strands.map r.joined, sched := t, forced := fo, cand := c } ∧
    ∀ u, (tget t u).getD UnitSched.none = if u ∈ ({ r with strands := r.strands.map r.joined } : Rope).units then
      ⟨max (cyc + 2) (({ r with strands := r.strands.map r.joined } : Rope).afterOf u), 0, 0, 0, false, none⟩ else r.schedOf u := by
  obtain ⟨t, hfold, hget⟩ := foldl_setReady (fun q u => max (cyc + 2) (q.afterOf u)) (fun _ _ _ => rfl)
    ({ r with strands := r.strands.map r.joined } : Rope).units { r with strands := r.strands.map r.joined }
  have hphase : r.phase cyc = match r.strands.filter Strand.live with
      | x :: _ => if ({ r with strands := r.strands.map r.joined } : Rope).whole then
          { ({ r with strands := r.strands.map r.joined, sched := t } : Rope) with forced := false, cand := if x.compact then some (x.joinPc,
            if ({ r with strands := r.strands.map r.joined, sched := t } : Rope).countsClear then cyc + 1 else 0) else r.cand }
          else { r with strands := r.strands.map r.joined, sched := t }
      | [] => { r with strands := r.strands.map r.joined, sched := t } := by
    rw [Rope.phase]
    exact congrArg (fun q : Rope => match r.strands.filter Strand.live with
      | x :: _ => if ({ r with strands := r.strands.map r.joined } : Rope).whole then
          { q with forced := false, cand := if x.compact then some (x.joinPc, if q.countsClear then cyc + 1 else 0) else q.cand }
          else q
      | [] => q) hfold
  cases hl : r.strands.filter Strand.live with
  | nil =>
    rw [hl] at hphase
    exact ⟨t, r.forced, r.cand, hphase, hget⟩
  | cons x xs =>
    rw [hl] at hphase
    cases hw : ({ r with strands := r.strands.map r.joined } : Rope).whole with
    | true =>
      simp only [hw, if_true] at hphase
      exact ⟨t, _, _, hphase, hget⟩
    | false =>
      simp only [hw, Bool.false_eq_true, if_false] at hphase
      exact ⟨t, r.forced, r.cand, hphase, hget⟩

theorem Rope.joinFirst_spec (r : Rope) {i : Nat} {x : Strand} (hx : r.strands[i]? = some x) (hlive : x.live = true) :
    r.joinFirst x.joinPc ≤ i ∧ (∃ z : Strand, r.strands[r.joinFirst x.joinPc]? = some z ∧ z.live = true ∧ z.joinPc = x.joinPc) ∧
      ∀ (j : Nat) (z : Strand), j < r.joinFirst x.joinPc → r.strands[j]? = some z → ¬(z.live = true ∧ z.joinPc = x.joinPc) := by
  have hi : i < r.strands.length := (List.getElem?_eq_some_iff.1 hx).1
  have hget : r.strands.getD i Strand.none = x := by simp [hx]
  have hsome : ((List.range r.strands.length).find? (fun i =>
      (r.strands.getD i Strand.none).live && (r.strands.getD i Strand.none).joinPc == x.joinPc)).isSome = true :=
    List.find?_isSome.2 ⟨i, List.mem_range.2 hi, by rw [hget, hlive]; simp⟩
  obtain ⟨n, hn⟩ := Option.isSome_iff_exists.1 hsome
  have hfirst : r.joinFirst x.joinPc = n := by rw [Rope.joinFirst, hn]; rfl
  obtain ⟨hlt, hsat, hbefore⟩ := List.find?_range_eq_some.1 hn
  rw [hfirst]
  refine ⟨?_, ?_, ?_⟩
  · by_contra hc
    have h := hbefore i (Nat.lt_of_not_le hc)
    rw [hget, hlive] at h
    simp at h
  · rw [List.mem_range] at hsat
    refine ⟨r.strands[n], List.getElem?_eq_getElem hsat, ?_⟩
    simpa [hsat] using hlt
  · intro j z hj hz hc
    have h := hbefore j hj
    simp [hz, hc.1, hc.2] at h

theorem le_foldl_max {α : Type} (g : α → Nat) (l : List α) (n : Nat) :
    n ≤ l.foldl (fun a t => max a (g t)) n ∧ ∀ t ∈ l, g t ≤ l.foldl (fun a t => max a (g t)) n := by
  induction l generalizing n with
  | nil => simp
  | cons x l ih =>
    obtain ⟨hle, hall⟩ := ih (max n (g x))
    rw [List.foldl_cons]
    refine ⟨(Nat.le_max_left _ _).trans hle, fun t ht => ?_⟩
    obtain rfl | ht := List.mem_cons.1 ht
    · exact (Nat.le_max_right _ _).trans hle
    · exact hall t ht

/-- The rope phase (R165): the groups by join PC go on as units. -/
theorem Rope.phase_goes_on (r : Rope) (cyc : Nat) :
    (r.phase cyc).v = r.v ∧ (r.phase cyc).s = r.s ∧ (r.phase cyc).p = r.p ∧ (r.phase cyc).inflight = r.inflight ∧
      (∀ (i : Nat) (x : Strand), r.strands[i]? = some x → x.live = true → ∃ y : Strand, (r.phase cyc).strands[i]? = some y ∧ y.waiting = false ∧
        y.pc = x.joinPc + BitVec.ofNat 64 x.joinLen ∧ y.active = x.active ∧
        (∃ z : Strand, r.strands[y.unit]? = some z ∧ z.live = true ∧ z.joinPc = x.joinPc ∧
          ∀ (j : Nat) (z' : Strand), j < y.unit → r.strands[j]? = some z' → ¬(z'.live = true ∧ z'.joinPc = x.joinPc))) ∧
      (∀ u ∈ (r.phase cyc).units, ((r.phase cyc).schedOf u).readyAt = max (cyc + 2) ((r.phase cyc).afterOf u)) ∧
      ∀ (i : Nat) (x y : Strand), r.strands.length ≤ 8 → r.strands[i]? = some x → x.live = true → x.active ≠ 0 →
        (r.phase cyc).strands[i]? = some y → x.after ≤ ((r.phase cyc).schedOf y.unit).readyAt := by
  obtain ⟨t, fo, c, hphase, hget⟩ := r.phase_eq cyc
  rw [hphase]
  have hready : ∀ u ∈ ({ r with strands := r.strands.map r.joined, sched := t, forced := fo, cand := c } : Rope).units,
      (({ r with strands := r.strands.map r.joined, sched := t, forced := fo, cand := c } : Rope).schedOf u).readyAt = max (cyc + 2)
        (({ r with strands := r.strands.map r.joined, sched := t, forced := fo, cand := c } : Rope).afterOf u) := fun u hu => by
    rw [Rope.schedOf, hget u, if_pos (show u ∈ ({ r with strands := r.strands.map r.joined } : Rope).units from hu)]
    rfl
  refine ⟨rfl, rfl, rfl, rfl, fun i x hx hlive => ?_, hready, fun i x y hlen hx hlive hact hy => ?_⟩
  · obtain ⟨-, ⟨z, hz, hzlive, hzpc⟩, hfirst⟩ := r.joinFirst_spec hx hlive
    refine ⟨r.joined x, by simp [hx], ?_⟩
    rw [Rope.joined_of_live hlive]
    exact ⟨rfl, rfl, rfl, z, hz, hzlive, hzpc, hfirst⟩
  · obtain ⟨hle, -, -⟩ := r.joinFirst_spec hx hlive
    have hi : i < r.strands.length := (List.getElem?_eq_some_iff.1 hx).1
    have hyx : y = r.joined x := by simpa [hx] using hy.symm
    have hunit : y.unit = r.joinFirst x.joinPc := by rw [hyx, Rope.joined_of_live hlive]
    have hafter : y.after = x.after := by rw [hyx, Rope.joined_of_live hlive]
    have hin : y.inUnit y.unit = true := by
      have hl : y.live = true := by rw [hyx, r.joined_live, hlive]
      have hw : y.waiting = false := by rw [hyx, Rope.joined_of_live hlive]
      have ha : y.active = x.active := by rw [hyx, Rope.joined_of_live hlive]
      rw [Strand.inUnit, hl, hw, ha, beq_self_eq_true, bne_iff_ne.2 hact]
      rfl
    have hmem : y ∈ r.strands.map r.joined := List.mem_of_getElem? hy
    rw [hready y.unit (List.mem_filter.2 ⟨List.mem_range.2 (by omega), List.any_eq_true.2 ⟨y, hmem, hin⟩⟩), ← hafter]
    exact ((le_foldl_max Strand.after _ 0).2 y (List.mem_filter.2 ⟨hmem, hin⟩)).trans (Nat.le_max_right _ _)

/-! Compaction. -/

theorem mem_packedStrands (cs : List Rope) (p : Packed) :
    p ∈ packedStrands cs ↔ p.rope ∈ cs ∧ p.rope.strands[p.pos]? = some p.strand ∧ p.strand.live = true := by
  rw [packedStrands, List.mem_flatMap]
  constructor
  · rintro ⟨r, hr, hp⟩
    obtain ⟨⟨t, i⟩, hti, hsome⟩ := List.mem_filterMap.1 hp
    cases hl : t.live with
    | true =>
      simp only [hl, if_true, Option.some.injEq] at hsome
      subst hsome
      exact ⟨hr, List.mem_zipIdx_iff_getElem?.1 hti, hl⟩
    | false => simp [hl] at hsome
  · rintro ⟨hr, hget, hlive⟩
    exact ⟨p.rope, hr, List.mem_filterMap.2 ⟨(p.strand, p.pos), List.mem_zipIdx_iff_getElem?.2 hget, by simp [hlive]⟩⟩

/-- What a fold over numbered entries leaves where the entry numbered `j` sets it and the others keep it. -/
theorem foldl_zipIdx_at {α β : Type} (f : β → α × Nat → β) (P Q : β → Prop) {l : List α} {j : Nat} {a : α} (hj : l[j]? = some a) (b : β)
    (hb : P b) (hbefore : ∀ b c i, c ∈ l → i < l.length → i ≠ j → P b → P (f b (c, i))) (hat : ∀ b, P b → Q (f b (a, j)))
    (hafter : ∀ b c i, c ∈ l → i < l.length → i ≠ j → Q b → Q (f b (c, i))) : Q (l.zipIdx.foldl f b) := by
  obtain ⟨hlt, rfl⟩ := List.getElem?_eq_some_iff.1 hj
  have hkeep (R : β → Prop) (hR : ∀ b c i, c ∈ l → i < l.length → i ≠ j → R b → R (f b (c, i))) :
      ∀ m : List (α × Nat), (∀ q ∈ m, q ∈ l.zipIdx ∧ q.2 ≠ j) → ∀ b, R b → R (m.foldl f b) := by
    intro m
    induction m with
    | nil => exact fun _ b h => h
    | cons q m ih =>
      intro hm b h
      obtain ⟨hq, hne⟩ := hm q List.mem_cons_self
      obtain ⟨c, i⟩ := q
      have hget := List.mem_zipIdx_iff_getElem?.1 hq
      exact ih (fun q hq => hm q (List.mem_cons_of_mem _ hq)) _
        (hR b c i (List.mem_of_getElem? hget) (List.getElem?_eq_some_iff.1 hget).1 hne h)
  have hsplit : l.zipIdx = l.zipIdx.take j ++ (l[j], j) :: l.zipIdx.drop (j + 1) := by
    conv_lhs => rw [← List.take_append_drop j l.zipIdx, List.drop_eq_getElem_cons (by simpa using hlt)]
    simp
  have hat' : ∀ (n : Nat) (q : α × Nat), l.zipIdx[n]? = some q → q.2 = n := fun n q hq => by
    rw [List.getElem?_zipIdx] at hq
    obtain ⟨c, -, rfl⟩ := Option.map_eq_some_iff.1 hq
    simp
  rw [hsplit, List.foldl_append, List.foldl_cons]
  refine hkeep Q hafter _ (fun q hq => ⟨List.mem_of_mem_drop hq, ?_⟩) _ (hat _ (hkeep P hbefore _ (fun q hq => ⟨List.mem_of_mem_take hq, ?_⟩) _ hb))
  · obtain ⟨n, hn⟩ := List.mem_iff_getElem?.1 hq
    rw [List.getElem?_drop] at hn
    have := hat' _ q hn
    omega
  · obtain ⟨n, hn⟩ := List.mem_iff_getElem?.1 hq
    rw [List.getElem?_take] at hn
    split at hn
    · have := hat' _ q hn
      omega
    · exact absurd hn (by simp)

theorem tget_none_of_above {α : Type} {t : Tbl α} {lo k : Nat} (h : tsortedAbove lo t = true) (hk : k ≤ lo) : tget t k = none := by
  induction t generalizing lo with
  | nil => rfl
  | cons c t ih =>
    obtain ⟨a, v⟩ := c
    obtain ⟨hlo, hrest⟩ := Bool.and_eq_true_iff.1 h
    have hlt := of_decide_eq_true hlo
    rw [tget, if_neg (by omega), ih hrest (by omega)]

/-- One strand's registers put at its new position. -/
def packOne (T : Tbl Word) (pos j : Nat) (t : Tbl Word) : Tbl Word :=
  T.foldl (fun t e => if e.1 % 32 / 4 = pos then tset t (e.1 / 32 * 32 + 4 * j + e.1 % 4) e.2 else t) t

theorem rget_packOne_ne (T t : Tbl Word) (pos : Nat) {i j n e : Nat} (hj : j < 8) (hi : i < 8) (he : e < 4) (hne : i ≠ j) :
    rget 0 (packOne T pos i t) (32 * n + 4 * j + e) = rget 0 t (32 * n + 4 * j + e) := by
  induction T generalizing t with
  | nil => rfl
  | cons c T ih =>
    simp only [packOne, List.foldl_cons] at ih ⊢
    rw [ih]
    split
    · rw [rget, rget, tget_tset_ne _ _ (by omega)]
    · rfl

theorem rget_packOne (T t : Tbl Word) (hT : tsorted T = true) {pos j n e : Nat} (hj : j < 8) (hpos : pos < 8) (he : e < 4) :
    rget 0 (packOne T pos j t) (32 * n + 4 * j + e) =
      if (tget T (32 * n + 4 * pos + e)).isSome then rget 0 T (32 * n + 4 * pos + e) else rget 0 t (32 * n + 4 * j + e) := by
  induction T generalizing t with
  | nil => rfl
  | cons c T ih =>
    obtain ⟨a, v⟩ := c
    have hTs : tsorted T = true := tsorted_of_above hT
    have ih := fun t => ih t hTs
    simp only [packOne, List.foldl_cons] at ih ⊢
    rw [ih]
    by_cases ha : a = 32 * n + 4 * pos + e
    · have hnone : tget T (32 * n + 4 * pos + e) = none := by
        rw [← ha]
        exact tget_none_of_above hT le_rfl
      have hdiv : a % 32 / 4 = pos := by omega
      have hkey : a / 32 * 32 + 4 * j + a % 4 = 32 * n + 4 * j + e := by omega
      simp only [hnone, Option.isSome_none, Bool.false_eq_true, if_false, hdiv, if_true, hkey]
      rw [rget, tget_tset_same, rget_cons, if_pos ha, tget, if_pos ha]
      rfl
    · rw [rget_cons, if_neg ha, tget, if_neg ha]
      congr 1
      split
      · rw [rget, rget, tget_tset_ne _ _ (by omega)]
      · rfl

/-- Packed registers (R169): those of each strand at its new position. -/
theorem rget_packV {ps : List Packed} (v : Rope → Tbl Word) (hs : ∀ q ∈ ps, tsorted (v q.rope) = true) (hlen : ps.length ≤ 8) {j : Nat} {p : Packed}
    (hp : ps[j]? = some p) (hpos : p.pos < 8) (n : Nat) {e : Nat} (he : e < 4) :
    rget 0 (packV ps.zipIdx v) (32 * n + 4 * j + e) = rget 0 (v p.rope) (32 * n + 4 * p.pos + e) := by
  have hj : j < 8 := ((List.getElem?_eq_some_iff.1 hp).1).trans_le hlen
  refine foldl_zipIdx_at _ (fun t => rget 0 t (32 * n + 4 * j + e) = 0)
    (fun t => rget 0 t (32 * n + 4 * j + e) = rget 0 (v p.rope) (32 * n + 4 * p.pos + e)) hp [] rfl ?_ ?_ ?_
  · exact fun t c i _ hi hne ht => (rget_packOne_ne (v c.rope) t c.pos hj (by omega) he hne).trans ht
  · intro t ht
    refine (rget_packOne (v p.rope) t (hs p (List.mem_of_getElem? hp)) hj hpos he).trans ?_
    split
    · rfl
    · next hno =>
      rw [ht, rget, Option.not_isSome_iff_eq_none.1 hno]
      rfl
  · exact fun t c i _ hi hne ht => (rget_packOne_ne (v c.rope) t c.pos hj (by omega) he hne).trans ht

theorem getLsbD_moveBits (m : Word) (i : Nat) {j k e : Nat} (hj : j < 8) (hk : k < 8) (he : e < 4) :
    (moveBits m i j).getLsbD (4 * k + e) = (decide (k = j) && m.getLsbD (4 * i + e)) := by
  have h15 : ∀ x : Nat, (15 : Word).getLsbD x = decide (x < 4) := fun x => by
    by_cases hx : x < 4
    · interval_cases x <;> rfl
    · rw [decide_eq_false hx]
      exact Nat.testBit_lt_two_pow ((show (15 : Word).toNat < 2 ^ 4 by decide).trans_le (Nat.pow_le_pow_right (by decide) (by omega)))
  rw [moveBits, BitVec.getLsbD_shiftLeft, BitVec.getLsbD_and, BitVec.getLsbD_ushiftRight, h15]
  by_cases hkj : k = j
  · subst hkj
    simp [show 4 * k + e < 32 by omega, he]
  · by_cases hlt : 4 * k + e < 4 * j
    · simp [hkj, hlt]
    · simp [hkj, show ¬4 * k + e - 4 * j < 4 by omega]

theorem rget_foldl_range {α : Type} [DecidableEq α] (d : α) (f : Nat → α) (m n : Nat) :
    rget d ((List.range m).foldl (fun t i => rset d t i (f i)) []) n = if n < m then f n else d := by
  induction m with
  | zero => rfl
  | succ m ih =>
    rw [List.range_succ, List.foldl_append, List.foldl_cons, List.foldl_nil, rget_rset, ih]
    by_cases h : n = m
    · simp [h]
    · rw [if_neg h]
      by_cases hlt : n < m
      · rw [if_pos hlt, if_pos (by omega)]
      · rw [if_neg hlt, if_neg (by omega)]

/-- Packed predicates (R169). -/
theorem getLsbD_packP {ps : List Packed} (pr : Rope → Nat → Word) (hlen : ps.length ≤ 8) {j : Nat} {p : Packed} (hp : ps[j]? = some p)
    {n e : Nat} (hn : n < 7) (he : e < 4) :
    (rget 0 (packP ps.zipIdx pr) n).getLsbD (4 * j + e) = (pr p.rope n).getLsbD (4 * p.pos + e) := by
  have hj : j < 8 := ((List.getElem?_eq_some_iff.1 hp).1).trans_le hlen
  rw [packP, rget_foldl_range, if_pos hn]
  refine foldl_zipIdx_at _ (fun m : Word => m.getLsbD (4 * j + e) = false)
    (fun m : Word => m.getLsbD (4 * j + e) = (pr p.rope n).getLsbD (4 * p.pos + e)) hp 0 BitVec.getLsbD_zero ?_ ?_ ?_
  · intro m c i _ hi hne hm
    rw [BitVec.getLsbD_or, hm, getLsbD_moveBits _ _ (by omega) hj he, decide_eq_false (Ne.symm hne)]
    rfl
  · intro m hm
    rw [BitVec.getLsbD_or, hm, getLsbD_moveBits _ _ hj hj he, decide_eq_true rfl]
    rfl
  · intro m c i _ hi hne hm
    rw [BitVec.getLsbD_or, hm, getLsbD_moveBits _ _ (by omega) hj he, decide_eq_false (Ne.symm hne)]
    simp

theorem testBit_packed (g : Packed → Bool) (ps : List Packed) (k n : Nat) (hn : n < 2 ^ k) (i : Nat) :
    ((ps.zipIdx k).foldl (fun n q => if g q.1 then n + 2 ^ q.2 else n) n).testBit i =
      if i < k then n.testBit i else (ps[i - k]?).elim false g := by
  induction ps generalizing k n with
  | nil =>
    by_cases hi : i < k
    · simp [hi]
    · simp [hi, Nat.testBit_lt_two_pow (hn.trans_le (Nat.pow_le_pow_right (by decide) (Nat.le_of_not_lt hi)))]
  | cons p ps ih =>
    rw [List.zipIdx_cons, List.foldl_cons]
    have hbit : (if g p then n + 2 ^ k else n).testBit i = if i < k then n.testBit i else (decide (i = k) && g p) := by
      have hoff : ∀ h : k ≤ i, n.testBit i = false := fun h => Nat.testBit_lt_two_pow (hn.trans_le (Nat.pow_le_pow_right (by decide) h))
      cases hg : g p with
      | false =>
        by_cases hi : i < k
        · simp [hi]
        · simp [hi, hoff (Nat.le_of_not_lt hi)]
      | true =>
        rw [if_pos rfl, Nat.add_comm]
        obtain hi | rfl | hi := lt_trichotomy i k
        · rw [Nat.testBit_two_pow_add_gt hi, if_pos hi]
        · rw [Nat.testBit_two_pow_add_eq, hoff le_rfl]
          simp
        · rw [if_neg (by omega), decide_eq_false (by omega), Nat.testBit_lt_two_pow]
          · rfl
          · calc 2 ^ k + n < 2 ^ k + 2 ^ k := by omega
              _ = 2 ^ (k + 1) := by rw [pow_succ]; omega
              _ ≤ 2 ^ i := Nat.pow_le_pow_right (by decide) hi
    have hlt : (if g p then n + 2 ^ k else n) < 2 ^ (k + 1) := by
      rw [pow_succ]
      split <;> omega
    rw [ih (k + 1) _ hlt, hbit]
    obtain hi | rfl | hi := lt_trichotomy i k
    · rw [if_pos (by omega), if_pos hi, if_pos hi]
    · simp
    · rw [if_neg (by omega), if_neg (by omega), show i - k = (i - (k + 1)) + 1 by omega, List.getElem?_cons_succ]

/-- Packed bits by strand position (R169). -/
theorem getLsbD_packStrands {ps : List Packed} (g : Rope → BitVec 8) (hlen : ps.length ≤ 8) {j : Nat} {p : Packed} (hp : ps[j]? = some p) :
    (packStrands ps.zipIdx g).getLsbD j = (g p.rope).getLsbD p.pos := by
  have hj : j < 8 := ((List.getElem?_eq_some_iff.1 hp).1).trans_le hlen
  have h := testBit_packed (fun p => (g p.rope).getLsbD p.pos) ps 0 0 (by decide) j
  rw [packStrands, BitVec.getLsbD_ofNat, decide_eq_true hj, Bool.true_and]
  refine h.trans ?_
  rw [if_neg (Nat.not_lt_zero j), Nat.sub_zero, hp]
  rfl

theorem bar_packBars (at_ : List (Packed × Nat)) (r : Rope) {b : Nat} (hb : b < 16) : (tget (packBars at_ r) b).getD BarRec.none =
    { r.bar b with
      strands := if (r.bar b).arrived then 0xFF else packStrands at_ (fun q => (q.bar b).strands)
      late := packStrands at_ (fun q => (q.bar b).late) } :=
  (rget_foldl_range BarRec.none _ 16 b).trans (if_pos hb)

/-- What a compaction makes of a strand (R169). -/
theorem freshRope_packs (r : Rope) (ps : List Packed) (cyc : Nat) {j : Nat} {p : Packed} (hlen : ps.length ≤ 8)
    (hs : ∀ q ∈ ps, tsorted q.rope.v = true ∧ ∀ g, q.rope.frame = some g → tsorted g.v = true) (hp : ps[j]? = some p) (hpos : p.pos < 8) :
    (∀ n e, e < 4 → (freshRope r ps cyc).vr n (4 * j + e) = p.rope.vr n (4 * p.pos + e)) ∧
      (∀ n e, n < 7 → e < 4 → ((freshRope r ps cyc).pr n).getLsbD (4 * j + e) = (p.rope.pr n).getLsbD (4 * p.pos + e)) ∧
      (∀ b, b < 16 → ((freshRope r ps cyc).bar b).arrived = (r.bar b).arrived ∧
        ((r.bar b).arrived = false → ((freshRope r ps cyc).bar b).strands.getLsbD j = (p.rope.bar b).strands.getLsbD p.pos) ∧
        ((freshRope r ps cyc).bar b).late.getLsbD j = (p.rope.bar b).late.getLsbD p.pos) ∧
      (∀ f g, r.frame = some f → p.rope.frame = some g → ∃ f', (freshRope r ps cyc).frame = some f' ∧ f'.ret = f.ret ∧ f'.s = f.s ∧
        (∀ n e, e < 4 → rget 0 f'.v (32 * n + 4 * j + e) = rget 0 g.v (32 * n + 4 * p.pos + e)) ∧
        ∀ n e, n < 7 → e < 4 → (rget 0 f'.p n).getLsbD (4 * j + e) = (rget 0 g.p n).getLsbD (4 * p.pos + e)) := by
  refine ⟨fun n e he => ?_, fun n e hn he => ?_, fun b hb => ?_, fun f g hf hg => ?_⟩
  · rw [Rope.vr, Rope.vr, ← Nat.add_assoc, ← Nat.add_assoc]
    exact rget_packV Rope.v (fun q hq => (hs q hq).1) hlen hp hpos n he
  · rw [Rope.pr, if_neg (by omega)]
    exact getLsbD_packP Rope.pr hlen hp hn he
  · rw [show (freshRope r ps cyc).bar b = _ from bar_packBars ps.zipIdx r hb]
    refine ⟨rfl, fun hno => ?_, getLsbD_packStrands (fun q => (q.bar b).late) hlen hp⟩
    simp only [hno, Bool.false_eq_true, if_false]
    exact getLsbD_packStrands (fun q => (q.bar b).strands) hlen hp
  · have hframes : ∀ q ∈ ps, tsorted (q.rope.frame.elim [] Frame.v) = true := fun q hq => by
      cases hq' : q.rope.frame with
      | none => rfl
      | some g => exact (hs q hq).2 g hq'
    refine ⟨{ f with v := packV ps.zipIdx (fun q => q.frame.elim [] Frame.v)
                     p := packP ps.zipIdx (fun q n => q.frame.elim 0 (fun g => rget 0 g.p n)) }, ?_, rfl, rfl, fun n e he => ?_, fun n e hn he => ?_⟩
    · rw [show (freshRope r ps cyc).frame = r.frame.map _ from rfl, hf]
      rfl
    · refine (rget_packV (fun q => q.frame.elim [] Frame.v) hframes hlen hp hpos n he).trans ?_
      rw [hg]
      rfl
    · refine (getLsbD_packP (fun q n => q.frame.elim 0 (fun g => rget 0 g.p n)) hlen hp hn he).trans ?_
      rw [hg]
      rfl

theorem freshRope_readyAt (r : Rope) (ps : List Packed) (cyc : Nat) : cyc < ((freshRope r ps cyc).schedOf 0).readyAt ∧
    ∀ z ∈ ps, z.rope.readyAt ≤ ((freshRope r ps cyc).schedOf 0).readyAt := by
  obtain ⟨hle, hall⟩ := le_foldl_max (fun p : Packed => p.rope.readyAt) ps (max (cyc + 1) r.readyAt)
  exact ⟨(Nat.le_max_left _ _).trans hle, hall⟩

/-! The rope and the scheduler go on. -/

theorem done_onRope {s : State} {k : Nat} {r : Rope} (h : tget s.ropes k = some r) (g : Rope → Rope) :
    done (s.onRope k g) = .next { s.setRope k (g r) with turn := .choose } := by
  rw [onRope_eq h, done]

/-- Settles O45: the rope phase by its strands, compaction strand by strand, the other steps by the rope they change. -/
theorem strandsJoinCompactAndWake : Obligations.StrandsJoinCompactAndWake := by
  refine ⟨fun s k r hr hphase => ⟨r.phase (s.cycOf r), ?_, r.phase_goes_on _⟩, fun s wg quad a r0 hdue => ?_,
    fun r ps cyc j p hlen hs hp hpos => ⟨?_, ?_, rfl, rfl, rfl, (freshRope_readyAt r ps cyc).1, (freshRope_readyAt r ps cyc).2,
      freshRope_packs r ps cyc hlen hs hp hpos⟩, mem_packedStrands,
    fun s k r hr => ⟨done_onRope hr _, fun w hw hst => ?_⟩, fun s k u r hr hstarve => ?_, fun s k u r hr => done_onRope hr _,
    fun s k r hr hport hnat hq hfl htr => ?_⟩
  · exact (done_onRope hr _).trans (by rw [if_pos hphase])
  · rw [show exec (.gatherTimeout wg quad) s = execGatherTimeout wg quad s from rfl, execGatherTimeout, hdue]
    rfl
  · simp [freshRope, hp]
  · simp [freshRope]
  · refine (done_onRope hr _).trans ?_
    rw [hw]
    exact congrArg (fun q => done (s.setRope k q)) (if_neg hst)
  · exact (done_onRope hr _).trans (congrArg (fun q => done (s.setRope k q)) (if_pos hstarve))
  · exact (done_onRope hr _).trans (by simp [hport, hnat, hq, hfl, htr])

end Sys2Proof.Machine
end

section
/-! PROOFS. A page pinned where no frame is left, in a state whose workgroup table lists a number twice (R298).

The page that is unpinned first is looked for in every entry of the table, the second ones of a number among them; the entry it is found
in then takes the place of both. -/

namespace Sys2Proof.Machine

/-- A resident workgroup without a pinned page, whose scratchpad reads zeros. -/
def unpinnedWg : Workgroup := { bootWg 1 with state := .resident, core := 0, dslot := 0, scratchSize := 4096, scratch := [], pinned := [] }

/-- A workgroup of the same place with a pinned page and another scratchpad. -/
def shadowedWg : Workgroup := { unpinnedWg with scratch := [(0, 1)], pinned := [1] }

/-- A state whose table lists the second workgroup behind the first, under its number. -/
def twiceListed : State := { State.reset with wgs := [(0, unpinnedWg), (0, shadowedWg)] }

theorem twiceListed_pin : exec (.pagePin 0 0) twiceListed =
    .next { (twiceListed.setWg 0 { shadowedWg with pinned := [] }).pin 0 0 with turn := .choose } := by
  have hfull : ¬ twiceListed.pagesPinned unpinnedWg.core unpinnedWg.dslot <
      (twiceListed.core unpinnedWg.core).frames unpinnedWg.dslot := by decide +kernel
  rw [show exec (.pagePin 0 0) twiceListed = execPagePin 0 0 twiceListed from rfl, execPagePin]
  rw [show tget twiceListed.wgs 0 = some unpinnedWg from rfl]
  dsimp only
  rw [if_neg (by decide), if_neg hfull]
  rfl

/-- Refutes O46: of a workgroup that is listed twice, the entry that a page is unpinned of is not the one that the page is pinned for, and
leaves its own scratchpad in the other's place. -/
theorem not_engineTranslationAndTrapEvents : ¬ Obligations.EngineTranslationAndTrapEvents := by
  unfold Obligations.EngineTranslationAndTrapEvents
  rintro ⟨-, -, -, -, -, -, -, -, -, -, -, -, -, -, hpin, -⟩
  obtain ⟨t, v, hexec, -, hv, -, hscratch, -⟩ := hpin twiceListed 0 0 unpinnedWg rfl rfl (by decide) (by decide)
  rw [twiceListed_pin, Host.Outcome.next.injEq] at hexec
  subst hexec
  rw [← Option.some.inj hv] at hscratch
  exact absurd hscratch (by decide)

end Sys2Proof.Machine
end

section
/-! PROOFS. What traffic of the memories leaves alone: everything but the memories, the caches, the translations' bookkeeping and the
marks of what is ordered. -/

namespace Sys2Proof.Machine

/-- A state without the memories, the caches, what they record, the free values drawn, ropes, workgroups and slots. -/
def State.outside (s : State) : State :=
  { s with mem := [], host := [], peer := [], l2 := [], owners := [], tlb := [], poison := [], blackBox := [], fatals := [], free := 0
           undef := [], ropes := [], wgs := [], slots := [] }

theorem State.outside_foldl {α : Type} {g : State → α → State} (hg : ∀ (u : State) a, (g u a).outside = u.outside) (l : List α) (s : State) :
    (l.foldl g s).outside = s.outside := by
  induction l generalizing s with
  | nil => rfl
  | cons a l ih => exact (ih _).trans (hg s a)

theorem State.outside_snd_ite {α : Type} {s : State} {a b : α × State} (c : Prop) [Decidable c] (ha : a.2.outside = s.outside)
    (hb : b.2.outside = s.outside) : (if c then a else b).2.outside = s.outside := by
  split
  · exact ha
  · exact hb

section
variable (s : State)

theorem State.wake_outside (space addr n : Nat) : (s.wake space addr n).outside = s.outside := rfl

theorem State.onMarks_outside (g : Mark → Mark) : (s.onMarks g).outside = s.outside := rfl

theorem State.clobbers_outside (p : Place) : (s.clobbers p).outside = s.outside := rfl

theorem State.publishes_outside (a : Agent) (i : Nat) (p : Place) (rel : Option Nat) (rmw : Bool) :
    (s.publishes a i p rel rmw).outside = s.outside := rfl

theorem State.putLine_outside (l : L2Line) : (s.putLine l).outside = s.outside := rfl

theorem State.evictLine_outside (l : L2Line) : (s.evictLine l).outside = s.outside := rfl

theorem State.l1Leave_outside (c : Nat) (g q : Nat → Bool) : (s.l1Leave c g q).outside = s.outside := rfl

theorem State.logRefused_outside (v : Requester) (asid : BitVec 16) (line : Nat) : (s.logRefused v asid line).outside = s.outside := rfl

theorem State.recall_outside (asid : BitVec 16) (va : Nat) : (s.recall asid va).outside = s.outside := by
  unfold State.recall
  split
  · rfl
  · split <;> rfl

theorem State.recallPhys_outside (q n : Nat) : (s.recallPhys q n).outside = s.outside := by
  unfold State.recallPhys
  split <;> rfl

theorem State.l1Way_outside (c line q : Nat) : (s.l1Way c line q).1.outside = s.outside := by
  unfold State.l1Way
  simp only []
  split <;> rfl

theorem State.allocLine_outside (l : L2Line) (mask : BitVec 16) : (s.allocLine l mask).outside = s.outside := by
  unfold State.allocLine
  simp only []
  split
  · rfl
  · split
    · rfl
    · exact (State.putLine_outside _ _).trans (State.outside_foldl (fun u l => u.evictLine_outside l) _ s.draw.2)

theorem State.walkRecall_outside (asid : BitVec 16) (va : Nat) : (s.walkRecall asid va).outside = s.outside := by
  unfold State.walkRecall
  split
  · rfl
  · exact State.outside_foldl (fun u q => u.recallPhys_outside q 8) _ s

theorem State.own_outside (asid : BitVec 16) (va f : Nat) : (s.own asid va f).outside = s.outside := by
  unfold State.own
  split <;> rfl

theorem State.hold_outside (asid : BitVec 16) (va : Nat) : (s.hold asid va).outside = s.outside := by
  have h1 : (if (s.heldStage1 asid va).isNone then s.walkRecall asid va else s).outside = s.outside := by
    split
    · exact s.walkRecall_outside asid va
    · rfl
  unfold State.hold
  simp only []
  generalize (if (s.heldStage1 asid va).isNone then s.walkRecall asid va else s) = u at *
  split <;> split <;> exact h1

theorem State.fatalFor_outside (p : Nat) : (s.fatalFor p).outside = s.outside := by
  unfold State.fatalFor
  split <;> rfl

theorem State.walked_outside (asid : BitVec 16) (va : Nat) : (s.walked asid va).outside = s.outside := by
  refine Eq.trans ?_ (s.walkRecall_outside asid va)
  unfold State.walked
  simp only []
  split
  · split
    · exact State.fatalFor_outside _ _
    · rfl
  · rfl

theorem State.failed_outside (t : Target) (va : Nat) (k : AccKind) : (s.failed t va k).outside = s.outside := by
  unfold State.failed
  split
  · rfl
  · exact s.walked_outside _ _

theorem State.xlate_outside (t : Target) (va : Nat) (k : AccKind) : (s.xlate t va k).2.outside = s.outside := by
  unfold State.xlate
  split
  · next f _ _ _ _ =>
    simp only []
    have h1 := (State.own_outside (s.hold t.asid va) t.asid va f).trans (s.hold_outside t.asid va)
    generalize (s.hold t.asid va).own t.asid va f = u at *
    refine State.outside_snd_ite _ rfl (Eq.trans ?_ h1)
    simp only []
    split
    · rfl
    · split
      · rfl
      · exact State.allocLine_outside _ _ _
  · exact s.failed_outside t va k

theorem State.l1Touch_outside (c : Nat) (al : Bool) (asid : BitVec 16) (va n q : Nat) (wr : Bool) :
    (s.l1Touch c al asid va n q wr).outside = s.outside := by
  refine Eq.trans ?_ (s.recall_outside asid va)
  unfold State.l1Touch
  simp only []
  generalize s.recall asid va = u
  split
  · rfl
  · next l0 _ =>
    split
    · refine (State.putLine_outside _ _).trans ?_
      split
      · rfl
      · exact u.l1Way_outside _ _ _
    · rfl

theorem State.l1Merge_outside (asid : BitVec 16) (va : Nat) : (s.l1Merge asid va).outside = s.outside := by
  refine Eq.trans ?_ (s.recall_outside asid va)
  unfold State.l1Merge
  simp only []
  split <;> rfl

theorem State.writePhys_outside (core : Option Nat) (al : Bool) (asid : BitVec 16) (va f : Nat) (bs : List Byte) :
    (s.writePhys core al asid va f bs).outside = s.outside := by
  cases core with
  | none => exact s.l1Merge_outside asid va
  | some c => exact s.l1Touch_outside c al asid va _ _ true

theorem State.spoil_outside (k : Nat) : (s.spoil k).outside = s.outside := by
  unfold State.spoil
  split
  · rfl
  · split <;> rfl

theorem State.raceFills_outside (wg lo n : Nat) (a : Option Agent) (i : Nat) : (s.raceFills wg lo n a i).outside = s.outside := by
  unfold State.raceFills
  refine (State.outside_foldl (fun u (e : Nat × MapSlot) => ?_) _ _).trans rfl
  dsimp only
  split
  · split
    · exact u.spoil_outside _
    · rfl
  · rfl

theorem State.onWg_outside (k : Nat) (g : Workgroup → Workgroup) : (s.onWg k g).outside = s.outside := by
  unfold State.onWg
  split <;> rfl

theorem State.writeScratch_outside (wg : Nat) (a : Option Agent) (num addr : Nat) (bs : List Byte) :
    (s.writeScratch wg a num addr bs).outside = s.outside :=
  (State.raceFills_outside _ _ _ _ _ _).trans (s.onWg_outside wg _)

theorem State.writeAt_outside {t : Target} (ht : t.space ≠ spCtrl) (hs : t.space < 5) (f addr : Nat) (bs : List Byte) :
    (s.writeAt t f addr bs).outside = s.outside := by
  unfold State.writeAt
  split
  · exact s.writePhys_outside _ _ _ _ _ _
  · split
    · exact s.writeScratch_outside _ _ _ _ _
    · split
      · rfl
      · split
        · rfl
        · next h0 h1 h2 h3 =>
          exfalso
          simp only [spGlobal, spScratch, spHost, spPeer, spCtrl] at *
          omega

theorem State.sysTouch_outside (hub : Nat) (asid : BitVec 16) (va n : Nat) (k : AccKind) : (s.sysTouch hub asid va n k).outside = s.outside := by
  unfold State.sysTouch
  refine (State.outside_foldl (fun u p => ?_) _ _).trans (State.outside_foldl (fun u l => u.logRefused_outside _ _ _) _ s)
  split
  · split
    · rfl
    · exact (State.recallPhys_outside _ _ _).trans (u.own_outside _ _ _)
  · exact u.walked_outside _ _

theorem State.sysStore_outside (hub : Nat) (asid : BitVec 16) (va : Nat) (bs : List Byte) {note : State → Place → State}
    (hn : ∀ u p, (note u p).outside = u.outside) : (s.sysStore hub asid va bs note).outside = s.outside := by
  unfold State.sysStore
  refine (State.outside_foldl (fun u i => ?_) _ _).trans ((State.outside_foldl (fun u p => ?_) _ _).trans (s.sysTouch_outside _ _ _ _ _))
  · split
    · rfl
    · split
      · exact u.writePhys_outside _ _ _ _ _ _
      · rfl
  · split
    · exact hn _ _
    · rfl

theorem State.sysWrite_outside (hub : Nat) (asid : BitVec 16) (va : Nat) (bs : List Byte) : (s.sysWrite hub asid va bs).outside = s.outside :=
  s.sysStore_outside hub asid va bs (fun u p => u.clobbers_outside p)

theorem State.released_outside (t : Target) (f addr n : Nat) (rmw : Bool) : (s.released t f addr n rmw).outside = s.outside := by
  unfold State.released
  split
  · split <;> rfl
  · rfl

theorem State.reads_outside (t : Target) (f addr n : Nat) : (s.reads t f addr n).outside = s.outside := by
  unfold State.reads
  split <;> rfl

theorem State.touch_outside (t : Target) (l : List Nat) : (s.touch t l).outside = s.outside := by
  unfold State.touch
  split
  · exact State.outside_foldl (fun u l => (State.recall_outside _ _ _).trans (u.xlate_outside _ _ _)) _ s
  · rfl

theorem State.poke_outside {t : Target} (ht : t.space ≠ spCtrl) (hs : t.space < 5) (addr : Nat) (b : Byte) :
    (s.poke t addr b).outside = s.outside := by
  unfold State.poke
  split
  · have h := s.xlate_outside t addr .write
    split
    · next heq =>
      rw [heq] at h
      exact (State.writeAt_outside _ ht hs _ _ _).trans h
    · next heq =>
      rw [heq] at h
      exact h
  · exact s.writeAt_outside ht hs _ _ _

theorem State.poked_outside (t : Target) (l : List Nat) (rmw : Bool) : (s.poked t l rmw).outside = s.outside := by
  unfold State.poked
  refine State.outside_foldl (fun u r => ?_) _ s
  split
  · refine State.outside_foldl (fun v p => ?_) _ u
    split
    · exact v.released_outside _ _ _ _ _
    · rfl
  · exact u.released_outside _ _ _ _ _

theorem State.healLines_outside (t : Target) (l : List Nat) : (s.healLines t l).outside = s.outside := by
  unfold State.healLines
  split <;> rfl

theorem State.healRange_outside (asid : BitVec 16) (va n : Nat) : (s.healRange asid va n).outside = s.outside := rfl

theorem State.linkTakes_outside (t : Target) (addr n : Nat) : (s.linkTakes t addr n).2.outside = s.outside := by
  unfold State.linkTakes
  split <;> rfl

theorem State.fatal_outside (t : Stream) : (s.fatal t).outside = s.outside := s.fatalFor_outside _

theorem State.writeOpen_outside (t : Stream) (va : DWord) (n : Nat) : (s.writeOpen t va n).outside = s.outside :=
  State.sysWrite_outside _ _ _ _ _

theorem State.wakeCtrl_outside (key : Nat) : (s.wakeCtrl key).outside = s.outside := rfl

theorem State.doMove_outside (c : CopyCtx) (hs hd : HRef) (srcs : List Int) {l : List (Nat × Byte)}
    (hl : l ≠ [] → hd.ent.space ≠ spCtrl ∧ hd.ent.space < 5) : (s.doMove c hs hd srcs l).outside = s.outside := by
  have ht := s.touch_outside (s.ctxGoal c hs) (srcs.map (fun o => ((hs.ent.base : Int) + o).toNat))
  refine (State.healLines_outside _ _ _).trans ((State.poked_outside _ _ _ _).trans (Eq.trans ?_ ht))
  cases l with
  | nil => rfl
  | cons p l =>
    obtain ⟨h4, h5⟩ := hl (List.cons_ne_nil p l)
    exact State.outside_foldl (fun u q => u.poke_outside h4 h5 _ _) _ _

theorem State.partMove_outside (c : CopyCtx) (hd : HRef) {l : List (Nat × Byte)} (ok : Bool)
    (hl : l ≠ [] → hd.ent.space ≠ spCtrl ∧ hd.ent.space < 5) : (s.partMove c hd l ok).outside = s.outside := by
  unfold State.partMove
  refine State.outside_foldl (fun u ch => ?_) _ s
  dsimp only
  split
  · refine (State.healLines_outside _ _ _).trans ((State.poked_outside _ _ _ _).trans (Eq.trans ?_ (rfl : u.draw.2.outside = u.outside)))
    cases l with
    | nil => rfl
    | cons p l =>
      obtain ⟨h4, h5⟩ := hl (List.cons_ne_nil p l)
      exact State.outside_foldl (fun u q => u.poke_outside h4 h5 _ _) _ _
  · rfl

end

end Sys2Proof.Machine
end

section
/-! PROOFS. Tables, stage 2, sweeps, calendars and registers (R175, R229, R309 to R312, R326, R337). -/

namespace Sys2Proof.Machine

/-! Tables of the domains. -/

theorem State.domain_setDomain (s : State) (did d : BitVec 16) (x : Domain) : (s.setDomain did x).domain d = if d = did then x else s.domain d := by
  rw [State.domain, State.setDomain, tget_tset]
  by_cases h : d = did
  · rw [if_pos (by rw [h]), if_pos h]
    rfl
  · rw [if_neg (fun hc => h (BitVec.eq_of_toNat_eq hc)), if_neg h]
    rfl

/-- An entry of a table of one domain written. -/
theorem rget_setDomain_entry {α : Type} [DecidableEq α] (z : α) (s : State) (did d : BitVec 16) (x : Domain) (f : Domain → Tbl α) (i j : Nat) (e : α)
    (hx : f x = rset z (f (s.domain did)) i e) :
    rget z (f ((s.setDomain did x).domain d)) j = if d = did ∧ j = i then e else rget z (f (s.domain d)) j := by
  rw [s.domain_setDomain]
  by_cases hd : d = did
  · rw [if_pos hd, hx, rget_rset, hd]
    simp
  · rw [if_neg hd, if_neg (fun hc => hd hc.1)]

/-! Frames. -/

theorem tget_filter_key {α : Type} (p : Nat → Bool) (t : Tbl α) (k : Nat) : tget (t.filter (fun c => p c.1)) k = if p k then tget t k else none := by
  induction t with
  | nil => simp [tget]
  | cons c t ih =>
    obtain ⟨a, v⟩ := c
    cases hp : p a with
    | true =>
      rw [List.filter_cons_of_pos (by simpa using hp), tget, tget, ih]
      by_cases ha : a = k
      · rw [if_pos ha, if_pos ha, if_pos (ha ▸ hp)]
      · rw [if_neg ha, if_neg ha]
    | false =>
      rw [List.filter_cons_of_neg (by simp [hp]), ih, tget]
      by_cases ha : a = k
      · rw [if_neg (by simp [← ha, hp]), if_neg (by simp [← ha, hp])]
      · rw [if_neg ha]

theorem rdByte_filter_key (p : Nat → Bool) (m : Tbl Byte) (a : Nat) : rdByte (m.filter (fun c => p c.1)) a = if p a then rdByte m a else 0 := by
  rw [rdByte, rget, tget_filter_key]
  split <;> rfl

theorem rdByte_dropRange (m : Tbl Byte) (lo n a : Nat) : rdByte (dropRange m lo n) a = if lo ≤ a ∧ a < lo + n then 0 else rdByte m a := by
  rw [dropRange, rdByte_filter_key (fun c => decide (c < lo) || decide (lo + n ≤ c))]
  by_cases h : lo ≤ a ∧ a < lo + n
  · rw [if_pos h, if_neg (by simp; omega)]
  · rw [if_neg h, if_pos (by simp; omega)]

theorem rdByte_unscrubbed (m : Tbl Byte) (f a : Nat) : rdByte (dropRange m (65536 * f) 65536) a = if a / 65536 = f then 0 else rdByte m a := by
  rw [rdByte_dropRange]
  exact if_congr (by omega) rfl rfl

theorem rdByte_cons (k : Nat) (v : Byte) (l : Tbl Byte) (a : Nat) : rdByte ((k, v) :: l) a = if k = a then v else rdByte l a := rget_cons 0 k v l a

/-- Bytes of one frame written into another, from a memory that lists each address once. -/
theorem rdByte_foldl_copied {src dst : Nat} (l : List (Nat × Byte)) (hs : tsorted l = true) (m : Tbl Byte) (a : Nat) :
    rdByte ((l.filter (fun c => c.1 / 65536 == src)).foldl (fun t c => wrByte t (65536 * dst + c.1 % 65536) c.2) m) a =
      if a / 65536 = dst ∧ (tget l (65536 * src + a % 65536)).isSome then rdByte l (65536 * src + a % 65536) else rdByte m a := by
  induction l generalizing m with
  | nil => simp [tget]
  | cons c l ih =>
    obtain ⟨k, v⟩ := c
    have ih := fun m => ih (tsorted_of_above hs) m
    cases hk : k / 65536 == src with
    | false =>
      rw [beq_eq_false_iff_ne] at hk
      rw [List.filter_cons_of_neg (by simpa using hk), ih]
      have hne : k ≠ 65536 * src + a % 65536 := by omega
      rw [tget, if_neg hne, rdByte_cons, if_neg hne]
    | true =>
      rw [beq_iff_eq] at hk
      rw [List.filter_cons_of_pos (by simpa using hk), List.foldl_cons, ih, rdByte_wrByte]
      by_cases hka : k = 65536 * src + a % 65536
      · have hnone : tget l (65536 * src + a % 65536) = none := tget_none_of_above hs hka.ge
        rw [hnone, tget, if_pos hka, rdByte_cons, if_pos hka]
        dsimp only
        by_cases had : a / 65536 = dst
        · rw [if_neg (by simp), if_pos (by omega), if_pos ⟨had, rfl⟩]
        · rw [if_neg (by simp), if_neg (by omega), if_neg (fun hc => had hc.1)]
      · rw [tget, if_neg hka, rdByte_cons, if_neg hka]
        dsimp only
        by_cases hin : a / 65536 = dst ∧ (tget l (65536 * src + a % 65536)).isSome
        · rw [if_pos hin, if_pos hin]
        · rw [if_neg hin, if_neg hin, if_neg (by omega)]

theorem rdByte_copyFrame {m : Tbl Byte} (hs : tsorted m = true) (src dst a : Nat) :
    rdByte (copyFrame m src dst) a = if a / 65536 = dst then rdByte m (65536 * src + a % 65536) else rdByte m a := by
  rw [copyFrame, rdByte_foldl_copied m hs, rdByte_unscrubbed]
  by_cases ha : a / 65536 = dst
  · rw [if_pos ha]
    by_cases hsome : (tget m (65536 * src + a % 65536)).isSome
    · rw [if_pos ⟨ha, hsome⟩, if_pos ha]
    · rw [if_neg (fun hc => hsome hc.2), if_pos ha, rdByte, rget, Option.not_isSome_iff_eq_none.1 hsome]
      rfl
  · rw [if_neg ha, if_neg (fun hc => ha hc.1), if_neg ha]

theorem tsorted_wrBytes {m : Tbl Byte} (h : tsorted m = true) (a : Nat) (bs : List Byte) : tsorted (wrBytes m a bs) = true := by
  induction bs generalizing m a with
  | nil => exact h
  | cons b bs ih =>
    refine ih ?_ _
    unfold wrByte rset
    split
    · exact tsorted_terase h a
    · exact tsorted_tset h a b

theorem tsorted_foldl {α : Type} {g : Tbl Byte → α → Tbl Byte} (hg : ∀ m a, tsorted m = true → tsorted (g m a) = true) (l : List α) (m : Tbl Byte)
    (h : tsorted m = true) : tsorted (l.foldl g m) = true := by
  induction l generalizing m with
  | nil => exact h
  | cons a l ih => exact ih _ (hg m a h)

theorem tsorted_combined (l : L2Line) (m : Tbl Byte) (h : tsorted m = true) : tsorted (l.combined m) = true :=
  tsorted_foldl (fun _ _ hm => tsorted_foldl (fun _ _ hm => tsorted_wrBytes hm _ _) _ _ hm) _ _ h

theorem State.flushFrame_sorted (s : State) (f : Nat) (h : tsorted s.mem = true) : tsorted (s.flushFrame f).mem = true := by
  obtain ⟨ks, he, -⟩ := State.evictLines_eq (s.l2.filter (fun l => l.frame == f)) s
  rw [State.flushFrame, he]
  exact tsorted_foldl (fun m l hm => tsorted_combined l m hm) _ _ h

/-! Stage 2 (R309). -/

section
variable {s : State} {p : Nat} {o : S2Entry}

theorem stage2Change_refused {n : S2Entry} {m : Bool} (hbad : n.w = true ∧ n.x = true ∨
    s.keyUsable n.key.toNat n.frame (if m then tget s.stage2 p else none) = false) :
    exec (.stage2Change p (some n) m) s = .next { s with turn := .choose } := by
  show execStage2Change p (some n) m s = _
  unfold execStage2Change
  have hb : (n.w && n.x || !s.keyUsable n.key.toNat n.frame (if m then tget s.stage2 p else none)) = true := by
    obtain ⟨hw, hx⟩ | hk := hbad
    · rw [hw, hx]
      rfl
    · rw [hk]
      simp
  simp only [hb, if_true]
  rfl

theorem stage2Change_removes (ho : tget s.stage2 p = some o) : ∃ u, exec (.stage2Change p none false) s = .next u ∧ tget u.stage2 p = none ∧
    ∀ a, rdByte u.mem a = if a / 65536 = o.frame then 0 else rdByte s.mem a := by
  have hexec : exec (.stage2Change p none false) s = .next { s.release p with turn := .choose } := by
    show execStage2Change p none false s = _
    unfold execStage2Change
    rw [ho]
    rfl
  have hrel : s.release p = (({ s with stage2 := terase s.stage2 p, tlb := s.tlb.filter (fun t => t.ipa != p) } : State).freeFrame o.frame).unscrub
      o.frame := by
    rw [State.release, ho]
  refine ⟨_, hexec, ?_, fun a => ?_⟩
  · rw [show ({ s.release p with turn := .choose } : State).stage2 = (s.release p).stage2 from rfl, hrel]
    exact (tget_terase _ _ _).trans (if_pos rfl)
  · rw [show ({ s.release p with turn := .choose } : State).mem = (s.release p).mem from rfl, hrel]
    exact rdByte_unscrubbed s.mem o.frame a

theorem stage2Change_moves (ho : tget s.stage2 p = some o) (hs : tsorted s.mem = true) {n : S2Entry} (hwx : n.w = false ∨ n.x = false)
    (hkey : s.keyUsable n.key.toNat n.frame (some o) = true) (hne : n.frame ≠ o.frame) :
    ∃ u, exec (.stage2Change p (some n) true) s = .next u ∧ tget u.stage2 p = some n ∧ (∀ e ∈ u.tlb, e.ipa ≠ p) ∧
      ∀ a, rdByte u.mem a = if a / 65536 = n.frame then rdByte (s.flushFrame o.frame).mem (65536 * o.frame + a % 65536)
        else if a / 65536 = o.frame then 0 else rdByte (s.flushFrame o.frame).mem a := by
  let u1 : State := { s.flushFrame o.frame with stage2 := terase s.stage2 p, tlb := s.tlb.filter (fun t => t.ipa != p) }.freeFrame o.frame
  let u2 : State := ({ u1 with mem := copyFrame u1.mem o.frame n.frame } : State).unscrub o.frame
  have hb : (n.w && n.x || !s.keyUsable n.key.toNat n.frame (some o)) = false := by
    rw [hkey]
    obtain hw | hx := hwx
    · rw [hw]
      rfl
    · rw [hx]
      simp
  have hexec : exec (.stage2Change p (some n) true) s = .next { u2 with stage2 := tset u2.stage2 p n, turn := .choose } := by
    show execStage2Change p (some n) true s = _
    unfold execStage2Change
    rw [ho]
    refine (if_neg (show ¬(n.w && n.x || !s.keyUsable n.key.toNat n.frame (some o)) = true by rw [hb]; simp)).trans ?_
    show done { (if n.frame = o.frame then u1 else u2) with stage2 := tset (if n.frame = o.frame then u1 else u2).stage2 p n } = _
    rw [if_neg hne]
    rfl
  refine ⟨_, hexec, tget_tset_same _ _ _, fun e he => ?_, fun a => ?_⟩
  · simpa using (List.mem_filter.1 he).2
  · refine (rdByte_unscrubbed _ _ _).trans ?_
    rw [rdByte_copyFrame (show tsorted u1.mem = true from s.flushFrame_sorted o.frame hs)]
    by_cases hn : a / 65536 = n.frame
    · rw [if_pos hn, if_neg (by omega), if_pos hn]
      rfl
    · rw [if_neg hn, if_neg hn]
      rfl

end

/-! The placement test and the measurements leave registers and calendars alone. -/

theorem foldl_keeps {α β : Type} (proj : State → β) {g : State → α → State} (hg : ∀ u a, proj (g u a) = proj u) (l : List α) (s : State) :
    proj (l.foldl g s) = proj s := by
  induction l generalizing s with
  | nil => rfl
  | cons a l ih => exact (ih _).trans (hg s a)

theorem State.retest_eq (s : State) (did : BitVec 16) : ∃ f, s.retest did = { s with faults := f } := by
  unfold State.retest
  simp only []
  generalize s.wgs.filterMap _ = l
  induction l generalizing s with
  | nil => exact ⟨s.faults, rfl⟩
  | cons e l ih =>
    rw [List.foldl_cons]
    split
    · exact ih s
    · obtain ⟨f, hf⟩ := ih { s with faults := s.faults ++ [⟨e.1.stream, e.1.task, ⟨11, BitVec.ofNat 8 e.2, 0, 0⟩, 0xFFFFFFFF, none, s.etime⟩] }
      exact ⟨f, hf⟩

theorem State.retests_eq (l : Tbl Domain) (s : State) :
    ∃ f, l.foldl (fun (t : State) (e : Nat × Domain) => t.retest (BitVec.ofNat 16 e.1)) s = { s with faults := f } := by
  induction l generalizing s with
  | nil => exact ⟨s.faults, rfl⟩
  | cons e l ih =>
    obtain ⟨f, hf⟩ := s.retest_eq (BitVec.ofNat 16 e.1)
    obtain ⟨g, hg⟩ := ih (s.retest (BitVec.ofNat 16 e.1))
    exact ⟨g, by rw [List.foldl_cons, hg, hf]⟩

theorem State.retestAll_eq (s : State) : ∃ f, s.retestAll = { s with faults := f } := State.retests_eq s.domains s

/-- The partition registers and the calendars. -/
def State.settings (s : State) : Tbl Word × Tbl Calendar := (s.partRegs, s.calendars)

theorem State.killWg_settings (s : State) (k : Nat) : (s.killWg k).settings = s.settings := by
  unfold State.killWg
  split <;> rfl

theorem State.dropWg_settings (s : State) (k : Nat) (w : Workgroup) : (s.dropWg k w).settings = s.settings := by
  unfold State.dropWg
  split
  · exact s.killWg_settings k
  · rfl

theorem State.discardWg_settings (s : State) (k : Nat) : (s.discardWg k).settings = s.settings := by
  unfold State.discardWg
  split <;> rfl

theorem State.release_settings (s : State) (p : Nat) : (s.release p).settings = s.settings := by
  unfold State.release
  split <;> rfl

theorem State.revoke_settings (s : State) (did : BitVec 16) : (s.revoke did).settings = s.settings := by
  unfold State.revoke
  refine Eq.trans (b := State.settings (List.foldl _ _ _)) rfl ?_
  refine (foldl_keeps State.settings (fun u e => u.release_settings _) _ _).trans ((foldl_keeps State.settings (fun u e => ?_) _ _).trans rfl)
  dsimp only
  split
  · exact u.discardWg_settings _
  · exact u.dropWg_settings _ _

theorem State.measure_settings (s : State) (i : Nat) (did : BitVec 16) (v : BitVec 256) : (s.measure i did v).settings = s.settings := by
  unfold State.measure
  split
  · rfl
  · exact (foldl_keeps State.settings (fun u d => u.revoke_settings d) _ _).trans rfl

theorem State.remeasure_settings (s : State) : s.remeasure.settings = s.settings := s.measure_settings _ _ _

theorem State.remeasure_cal (s : State) (p : Nat) (h : (tget s.calendars p).isSome = true) : s.remeasure.cal p = s.cal p := by
  rw [State.cal, State.cal, show s.remeasure.calendars = s.calendars from congrArg Prod.snd s.remeasure_settings]
  obtain ⟨c, hc⟩ := Option.isSome_iff_exists.1 h
  rw [hc]
  rfl

theorem State.setCal_cal (s : State) (p : Nat) (c : Calendar) : (s.setCal p c).cal p = c := by
  rw [State.cal, State.setCal, tget_tset_same]
  rfl

end Sys2Proof.Machine
end

section
/-! PROOFS. Resets of partitions, of the package and of dies (R339, R360, R361). -/

namespace Sys2Proof.Machine

/-! Workgroups that end. -/

theorem mem_terase {α : Type} (t : Tbl α) (k : Nat) (e : Nat × α) : e ∈ terase t k ↔ e ∈ t ∧ e.1 ≠ k := by
  induction t with
  | nil => simp [terase]
  | cons c t ih =>
    obtain ⟨a, v⟩ := c
    rw [terase]
    by_cases ha : a = k
    · rw [if_pos ha, ih, List.mem_cons]
      constructor
      · exact fun h => ⟨Or.inr h.1, h.2⟩
      · rintro ⟨rfl | h, hne⟩
        · exact absurd ha hne
        · exact ⟨h, hne⟩
    · rw [if_neg ha, List.mem_cons, ih, List.mem_cons]
      constructor
      · rintro (rfl | h)
        · exact ⟨Or.inl rfl, ha⟩
        · exact ⟨Or.inr h.1, h.2⟩
      · rintro ⟨rfl | h, hne⟩
        · exact Or.inl rfl
        · exact Or.inr ⟨h, hne⟩

theorem ne_of_tget_none {α : Type} {t : Tbl α} {k : Nat} (h : tget t k = none) {e : Nat × α} (he : e ∈ t) : e.1 ≠ k := by
  induction t with
  | nil => cases he
  | cons c t ih =>
    obtain ⟨a, v⟩ := c
    rw [tget] at h
    split at h
    · cases h
    · next ha =>
      obtain rfl | he := List.mem_cons.1 he
      · exact ha
      · exact ih h he

theorem State.mem_killWg {s : State} {k : Nat} {e : Nat × Workgroup} (he : e ∈ (s.killWg k).wgs) : e ∈ s.wgs ∧ e.1 ≠ k := by
  unfold State.killWg at he
  split at he
  · next hnone => exact ⟨he, ne_of_tget_none hnone he⟩
  · exact (mem_terase s.wgs k e).1 he

/-- What the end of a workgroup, and of a prologue's, leaves alone. -/
def State.beyondGrid (s : State) : State :=
  { s with wgs := [], ropes := [], slots := [], sfu := [], ctxs := [], log := [], cores := [] }

theorem State.killWg_beyondGrid (s : State) (k : Nat) : (s.killWg k).beyondGrid = s.beyondGrid := by
  unfold State.killWg
  split <;> rfl

theorem State.killWg_cores (s : State) (k : Nat) : (s.killWg k).cores = s.cores := by
  unfold State.killWg
  split <;> rfl

/-- A workgroup gone, a prologue's with its core. -/
def State.ends (s : State) (e : Nat × Workgroup) : State := if e.2.pro.isSome then s.dropPro e.1 e.2 else s.killWg e.1

theorem State.ends_beyondGrid (s : State) (e : Nat × Workgroup) : (s.ends e).beyondGrid = s.beyondGrid := by
  unfold State.ends
  split
  · exact s.killWg_beyondGrid e.1
  · exact s.killWg_beyondGrid e.1

theorem State.mem_ends {s : State} {e q : Nat × Workgroup} (hq : q ∈ (s.ends e).wgs) : q ∈ s.wgs ∧ q.1 ≠ e.1 := by
  unfold State.ends at hq
  split at hq
  · exact State.mem_killWg hq
  · exact State.mem_killWg hq

theorem State.ends_core (s : State) (e : Nat × Workgroup) {c : Nat} (h : e.2.pro.isSome = true → e.2.core ≠ c) :
    tget (s.ends e).cores c = tget s.cores c := by
  unfold State.ends
  split
  · next hp =>
    refine (tget_terase _ _ _).trans ((if_neg (fun hc => h hp hc.symm)).trans ?_)
    rw [s.killWg_cores]
  · rw [s.killWg_cores]

theorem State.mem_foldl_ends {l : List (Nat × Workgroup)} {s : State} {q : Nat × Workgroup} (hq : q ∈ (l.foldl State.ends s).wgs) :
    q ∈ s.wgs ∧ ∀ e ∈ l, q.1 ≠ e.1 := by
  induction l generalizing s with
  | nil => exact ⟨hq, by simp⟩
  | cons e l ih =>
    obtain ⟨hin, hne⟩ := ih hq
    obtain ⟨hs, hk⟩ := State.mem_ends hin
    refine ⟨hs, fun e' he' => ?_⟩
    obtain rfl | he' := List.mem_cons.1 he'
    · exact hk
    · exact hne e' he'

/-! Domains cleared (R339). -/

/-- The state before the lines of the domains go. -/
def State.cleared (s : State) (p : BitVec 16 → Bool) : State := (s.wgs.filter (fun e => p e.2.did)).foldl State.ends s

theorem State.cleared_beyondGrid (s : State) (p : BitVec 16 → Bool) : (s.cleared p).beyondGrid = s.beyondGrid :=
  foldl_keeps State.beyondGrid (fun u e => u.ends_beyondGrid e) _ s

theorem State.cleared_wgs (s : State) (p : BitVec 16 → Bool) {q : Nat × Workgroup} (hq : q ∈ (s.cleared p).wgs) : q ∈ s.wgs ∧ p q.2.did = false := by
  obtain ⟨hin, hne⟩ := State.mem_foldl_ends hq
  refine ⟨hin, ?_⟩
  cases hp : p q.2.did with
  | false => rfl
  | true => exact absurd rfl (hne q (List.mem_filter.2 ⟨hin, hp⟩))

theorem State.cleared_core (s : State) (p : BitVec 16 → Bool) {c : Nat} (h : ∀ e ∈ s.wgs, e.2.pro.isSome = true → e.2.core ≠ c) :
    tget (s.cleared p).cores c = tget s.cores c := by
  have hgen : ∀ (l : List (Nat × Workgroup)), (∀ e ∈ l, e ∈ s.wgs) → ∀ u : State, tget (l.foldl State.ends u).cores c = tget u.cores c := by
    intro l
    induction l with
    | nil => exact fun _ _ => rfl
    | cons e l ih =>
      intro hl u
      exact (ih (fun e he => hl e (List.mem_cons_of_mem _ he)) _).trans (u.ends_core e (h e (hl e List.mem_cons_self)))
  exact hgen _ (fun e he => (List.mem_filter.1 he).1) s

theorem State.clearDomains_eq (s : State) (p : BitVec 16 → Bool) : ∃ f x l m ls, s.clearDomains p = { s.cleared p with
    streams := (s.cleared p).streams.map (fun e => (e.1, if p e.2.did then e.2.cleared else e.2)), faults := f, ctxs := x, log := l, mem := m, l2 := ls } :=
  ⟨_, _, _, _, _, rfl⟩

/-! Cores reset (R361). -/

theorem State.foldl_resetCore (cs : List Nat) (s : State) : ∃ k, cs.foldl State.resetCore s = { s with cores := k } ∧
    (∀ c ∈ cs, tget k c = some ⟨0, s.etimePs, 0, [], [], [], [], 4, false, (s.core c).dpe, []⟩) ∧ ∀ c, c ∉ cs → tget k c = tget s.cores c := by
  induction cs generalizing s with
  | nil => exact ⟨s.cores, rfl, by simp, fun _ _ => rfl⟩
  | cons d cs ih =>
    obtain ⟨k, hk, hin, hout⟩ := ih (s.resetCore d)
    have hdpe : ∀ c, ((s.resetCore d).core c).dpe = (s.core c).dpe := fun c => by
      rw [State.core, State.resetCore, State.setCore, tget_tset]
      by_cases hc : c = d
      · rw [if_pos hc, hc]
        rfl
      · rw [if_neg hc]
        rfl
    refine ⟨k, hk, fun c hc => ?_, fun c hc => ?_⟩
    · by_cases hcs : c ∈ cs
      · rw [hin c hcs, hdpe]
        rfl
      · obtain rfl | hc := List.mem_cons.1 hc
        · rw [hout c hcs]
          exact tget_tset_same _ _ _
        · exact absurd hc hcs
    · rw [List.mem_cons, not_or] at hc
      rw [hout c hc.2]
      exact (tget_tset _ _ _ _).trans (if_neg hc.1)

theorem State.resetCores_eq (s : State) (cs : List Nat) : ∃ m ls co sl sf ar k, s.resetCores cs = { s with
    mem := m, l2 := ls, code := co, slots := sl, sfu := sf, arrays := ar, cores := k } ∧
    (∀ c ∈ cs, tget k c = some ⟨0, s.etimePs, 0, [], [], [], [], 4, false, (s.core c).dpe, []⟩) ∧ ∀ c, c ∉ cs → tget k c = tget s.cores c := by
  obtain ⟨k, hk, hin, hout⟩ := State.foldl_resetCore cs { s with
    mem := s.undirty (fun _ c => cs.contains c)
    l2 := s.l2.map (fun l => l.without cs)
    code := s.code.map (fun l =>
      { l with l1i := l.l1i.filter (fun c => !cs.contains c), bufs := l.bufs.filter (fun q => !cs.contains (q / 4)) })
    slots := s.slots.filter (fun (k, _) => !cs.contains (k / 64))
    sfu := s.sfu.filter (fun e => !cs.contains (e.quad / 4))
    arrays := s.arrays.map (fun (k, a) => (k, if cs.contains (k / 8) then { a with busy := 0, users := [], retries := [], faulty := 0 } else a)) }
  exact ⟨_, _, _, _, _, _, k, hk, hin, hout⟩

/-! Frames and ASIDs of a partition. -/

/-- What the release of frames and the sweep of ASIDs leave alone. -/
def State.beyondFrames (s : State) : State :=
  { s with stage2 := [], tlb := [], l2 := [], owners := [], poison := [], mem := [], scrubbed := [], code := [], asids := [], roots := [] }

theorem State.release_beyondFrames (s : State) (p : Nat) : (s.release p).beyondFrames = s.beyondFrames := by
  unfold State.release
  split <;> rfl

theorem State.releases_beyondFrames (l : List Nat) (s : State) : (l.foldl (fun u k => u.release k) s).beyondFrames = s.beyondFrames :=
  foldl_keeps State.beyondFrames (fun u k => u.release_beyondFrames k) l s

theorem State.sweeps_beyondFrames (l : List (BitVec 16)) (s : State) : (l.foldl (fun u a => u.sweep a) s).beyondFrames = s.beyondFrames :=
  foldl_keeps State.beyondFrames (fun u a => (rfl : (u.sweep a).beyondFrames = u.beyondFrames)) l s

theorem State.sweeps_mem (l : List (BitVec 16)) (s : State) : (l.foldl (fun u a => u.sweep a) s).mem = s.mem :=
  foldl_keeps State.mem (fun u a => (rfl : (u.sweep a).mem = u.mem)) l s

/-- A partition reset, step by step (R339, R361). -/
theorem State.resetPart_eq (s : State) (p : Nat) : ∃ (gone : List Nat) (asids : List (BitVec 16)) (u : State),
    u = asids.foldl (fun u a => u.sweep a) ((gone.foldl (fun u k => u.release k) ((s.clearDomains (fun d =>
      tget s.domains d.toNat |>.any (fun q => q.part == p))).resetCores (s.partCores p))).keepFrames (fun f => !s.behindPorts p f)) ∧
    s.resetPart p = { u with
      live := u.live.filter (fun q => q != p)
      domains := u.domains.map (fun e => (e.1, if e.2.part = p then { e.2 with tdi := .unlocked } else e.2)) } :=
  ⟨_, _, _, rfl, rfl⟩

/-- What a partition reset leaves (R339). -/
theorem State.resetPart_leaves (s : State) (p : Nat) :
    (s.resetPart p).streams = s.streams.map (fun e => (e.1, if (tget s.domains e.2.did.toNat).any (fun q => q.part == p) then e.2.cleared else e.2)) ∧
    (∀ e ∈ (s.resetPart p).wgs, (tget s.domains e.2.did.toNat).any (fun d => d.part == p) = false) ∧ p ∉ (s.resetPart p).live ∧
    (∀ a, s.behindPorts p (a / 65536) = true → rdByte (s.resetPart p).mem a = 0) ∧ (s.resetPart p).dump = s.dump ∧
    (s.resetPart p).replies = s.replies ∧ (s.resetPart p).dieOff = s.dieOff ∧ ∀ c ∈ s.partCores p, (∀ e ∈ s.wgs, e.2.pro.isSome = true → e.2.core ≠ c) →
      (s.resetPart p).core c = ⟨0, s.etimePs, 0, [], [], [], [], 4, false, (s.core c).dpe, []⟩ := by
  obtain ⟨gone, asids, u, hu, hres⟩ := s.resetPart_eq p
  generalize hmine : (fun d : BitVec 16 => tget s.domains d.toNat |>.any (fun q => q.part == p)) = mine at hu
  obtain ⟨f, x, lg, m0, ls0, hclear⟩ := s.clearDomains_eq mine
  obtain ⟨m, ls, co, sl, sf, ar, k, hcores, hin, -⟩ := State.resetCores_eq (s.clearDomains mine) (s.partCores p)
  have hgrid := s.cleared_beyondGrid mine
  have hbeyond : u.beyondFrames = ((s.clearDomains mine).resetCores (s.partCores p)).beyondFrames := by
    rw [hu]
    exact (State.sweeps_beyondFrames _ _).trans (State.releases_beyondFrames _ _)
  rw [hcores] at hbeyond
  have hst := congrArg State.streams hbeyond
  have hwg := congrArg State.wgs hbeyond
  have hdump := congrArg State.dump hbeyond
  have hrep := congrArg State.replies hbeyond
  have hdie := congrArg State.dieOff hbeyond
  have hco : u.cores = k := congrArg State.cores hbeyond
  rw [hclear] at hst hwg hdump hrep hdie
  rw [hres]
  refine ⟨?_, fun e he => ?_, by simp, fun a ha => ?_, ?_, ?_, ?_, fun c hc hpro => ?_⟩
  · have hs0 : (s.cleared mine).streams = s.streams := (congrArg State.streams hgrid :)
    refine Eq.trans hst ?_
    subst hmine
    exact congrArg (fun l : Tbl Stream => l.map _) hs0
  · have h := (s.cleared_wgs mine (q := e) (hwg ▸ he)).2
    rw [← hmine] at h
    exact h
  · show rdByte u.mem a = 0
    rw [hu, State.sweeps_mem]
    exact (rdByte_filter_key (fun c => !s.behindPorts p (c / 65536)) _ a).trans (if_neg (by simp [ha]))
  · exact Eq.trans hdump (congrArg State.dump hgrid :)
  · exact Eq.trans hrep (congrArg State.replies hgrid :)
  · exact Eq.trans hdie (congrArg State.dieOff hgrid :)
  · have hcore : (s.clearDomains mine).core c = s.core c := by
      have hfresh : (s.cleared mine).freshCore = s.freshCore := (congrArg State.freshCore hgrid :)
      rw [hclear]
      show (tget (s.cleared mine).cores c).getD (s.cleared mine).freshCore = (tget s.cores c).getD s.freshCore
      rw [s.cleared_core mine hpro, hfresh]
    have htime : (s.clearDomains mine).etimePs = s.etimePs := by
      rw [hclear]
      exact (congrArg State.etimePs hgrid :)
    rw [State.core]
    refine Eq.trans (congrArg (fun z => (tget z c).getD _) hco) ?_
    rw [hin c hc, hcore, htime]
    rfl

end Sys2Proof.Machine
end

section
/-! PROOFS. Tables, calendars, registers and resets (R175, R229, R309, R311, R312, R326, R337, R339, R361). -/

namespace Sys2Proof.Machine

theorem sweepLeaves (s : State) (a : BitVec 16) : (∀ l ∈ (s.sweep a).l2, l.asid ≠ a) ∧ (∀ l ∈ (s.sweep a).code, l.asid ≠ a) ∧
    (∀ e ∈ (s.sweep a).tlb, e.asid ≠ a) ∧ tget (s.sweep a).roots a.toNat = none ∧ (s.sweep a).mem = s.mem := by
  refine ⟨fun l hl => ?_, fun l hl => ?_, fun e he => ?_, (tget_terase _ _ _).trans (if_pos rfl), rfl⟩
  · simpa using (List.mem_filter.1 hl).2
  · simpa using (List.mem_filter.1 hl).2
  · simpa using (List.mem_filter.1 he).2

/-- A table with its values mapped. -/
theorem tget_map_values {α β : Type} (t : Tbl α) (g : α → β) (k : Nat) : tget (t.map (fun e => (e.1, g e.2))) k = (tget t k).map g :=
  tget_map_fst t (fun e => (e.1, g e.2)) (fun _ => rfl) k

/-! Calendars (R326). -/

/-- Whether a write that waits is one of CAL_CTL. -/
def isHoldWrite (w : SysReg × Word × Nat) : Bool :=
  match w.1 with
  | .calSlot _ 64 => true
  | _ => false

theorem isHoldWrite_eq_false {w : SysReg × Word × Nat} (h : ∀ q, w.1 ≠ .calSlot q 64) : isHoldWrite w = false := by
  unfold isHoldWrite
  split
  · next q hq => exact absurd hq (h q)
  · rfl

/-- A calendar at a period's start before the writes that HOLD keeps back. -/
def Calendar.controlled (c : Calendar) (m : Nat) : Calendar :=
  { (c.waiting.filter (fun w => isHoldWrite w && decide (w.2.2 < m))).foldl Calendar.apply c with
    waiting := c.waiting.filter (fun w => !(isHoldWrite w && decide (w.2.2 < m))) }

theorem Calendar.started_eq (c : Calendar) (m : Nat) : c.started m = if (c.controlled m).ctl.getLsbD 0 then c.controlled m else
    { ((c.controlled m).waiting.filter (fun w => decide (w.2.2 < m))).foldl Calendar.apply (c.controlled m) with
      waiting := (c.controlled m).waiting.filter (fun w => !decide (w.2.2 < m)) } := rfl

theorem Calendar.controlled_of_none (c : Calendar) (m : Nat) (h : ∀ w ∈ c.waiting, (isHoldWrite w && decide (w.2.2 < m)) = false) : c.controlled m = c := by
  unfold Calendar.controlled
  rw [List.filter_eq_nil_iff.2 (fun e he => by rw [h e he]; simp), List.filter_eq_self.2 (fun e he => by rw [h e he]; rfl)]
  rfl

/-- The calendar that a period's start leaves, with the one write that waits. -/
theorem Calendar.started_single (c : Calendar) (m : Nat) (w : SysReg × Word × Nat) (hw : c.waiting = [w]) :
    (m ≤ w.2.2 → (c.started m).waiting = [w] ∧ (c.started m).slot = c.slot ∧ (c.started m).ctl = c.ctl) ∧
    (w.2.2 < m → (∃ q, w.1 = .calSlot q 64) → (c.started m).waiting = [] ∧ (c.started m).slot = c.slot ∧ (c.started m).ctl = w.2.1) ∧
    (w.2.2 < m → ∀ q k, k < 64 → w.1 = .calSlot q k → c.ctl.getLsbD 0 = false →
      (c.started m).waiting = [] ∧ (c.started m).slot = rset 0 c.slot k w.2.1) := by
  obtain ⟨r, v, n⟩ := w
  dsimp only
  refine ⟨fun h => ?_, fun h => ?_, fun h => ?_⟩
  · have hn : decide (n < m) = false := by simpa using h
    rw [c.started_eq, c.controlled_of_none m (by rw [hw]; simpa using fun _ => h), hw]
    split
    · exact ⟨hw, rfl, rfl⟩
    · simp [hn]
  · rintro ⟨q, rfl⟩
    have hctl : c.controlled m = { c with ctl := v, waiting := [] } := by
      unfold Calendar.controlled
      rw [hw]
      simp [isHoldWrite, h, Calendar.apply]
    rw [c.started_eq, hctl]
    simp
  · rintro q k hk rfl hhold
    have hno : isHoldWrite (.calSlot q k, v, n) = false := isHoldWrite_eq_false (fun q' hq => by
      injection hq with _ h64
      omega)
    rw [c.started_eq, c.controlled_of_none m (by simp [hw, hno]), hhold, hw]
    simp [h, Calendar.apply, Nat.mod_eq_of_lt hk, show k ≠ 64 by omega]

theorem Calendar.started_held (c : Calendar) (m : Nat) (hhold : c.ctl.getLsbD 0 = true) (hw : ∀ e ∈ c.waiting, ∀ q, e.1 ≠ .calSlot q 64) :
    c.started m = c := by
  rw [c.started_eq, c.controlled_of_none m (fun e he => by rw [isHoldWrite_eq_false (hw e he)]; rfl)]
  exact if_pos hhold

/-- A write of a calendar register waits (R326). -/
theorem calWrite_next {i : Instr} {s : State} {p : Nat} {r : SysReg} {v : Word} (h : exec i s = done (s.calWrite p r v)) : ∃ u, exec i s = .next u ∧
    u.cal p = { s.cal p with waiting := (s.cal p).waiting ++ [(r, v, s.etime / 2048)] } := by
  obtain ⟨u, hu, hcal⟩ : ∃ u, exec i s = .next u ∧ u.calendars = (s.calWrite p r v).calendars := ⟨_, h, rfl⟩
  refine ⟨u, hu, ?_⟩
  rw [State.cal, hcal, State.calWrite, State.setCal, tget_tset_same]
  rfl

theorem calendarPeriodStart_next (s : State) (p : Nat) (h : (s.cal p).now / 64 < s.etime / 2048) : ∃ u, exec (.calendarPeriodStart p) s = .next u ∧
    u.cal p = { (s.cal p).started (s.etime / 2048) with now := 64 * (s.etime / 2048) } := by
  have hexec : exec (.calendarPeriodStart p) s =
      done (s.beginSlot p (64 * (s.etime / 2048)) ((s.cal p).started (s.etime / 2048))).remeasure := by
    show execCalendarPeriodStart p s = _
    unfold execCalendarPeriodStart
    exact if_neg (Nat.not_le.2 h)
  refine ⟨_, hexec, ?_⟩
  show (State.remeasure _).cal p = _
  rw [State.remeasure_cal]
  · exact s.setCal_cal p _
  · show (tget (tset s.calendars p _) p).isSome = true
    rw [tget_tset_same]
    rfl

theorem calendarSlotBoundary_next (s : State) (p : Nat) (hsame : s.etime / 2048 = (s.cal p).now / 64) (h : (s.cal p).now < s.etime / 32) :
    ∃ u, exec (.calendarSlotBoundary p (s.etime / 32 % 64)) s = .next u ∧ u.cal p = { s.cal p with now := s.etime / 32 } := by
  have hn : 64 * ((s.cal p).now / 64) + s.etime / 32 % 64 % 64 = s.etime / 32 := by omega
  have hexec : exec (.calendarSlotBoundary p (s.etime / 32 % 64)) s = done (s.beginSlot p (s.etime / 32) (s.cal p)) := by
    show execCalendarSlotBoundary p (s.etime / 32 % 64) s = _
    unfold execCalendarSlotBoundary
    simp only []
    rw [hn]
    exact if_pos ⟨h, Nat.le_refl _⟩
  exact ⟨_, hexec, s.setCal_cal p _⟩

/-! Partition registers (R337). -/

theorem registerWrite_refused (s : State) (r : SysReg) (v : Word) (h : regValueOk r v = false) :
    exec (.registerWrite r v) s = .next { s with replies := s.replies ++ [.refusedWrite r], turn := .choose } := by
  show execRegisterWrite r v s = _
  unfold execRegisterWrite
  exact if_pos (by rw [h]; rfl)

theorem registerWrite_calendar (s : State) {r : SysReg} (v : Word) (p k : Nat) (h : regValueOk r v = true) (hr : r = .calSlot p k ∨ r = .calShare p k) :
    exec (.registerWrite r v) s = done (s.calWrite p r v) := by
  show execRegisterWrite r v s = _
  unfold execRegisterWrite
  rw [if_neg (by rw [h]; simp)]
  obtain rfl | rfl := hr <;> rfl

theorem registerWrite_partition (s : State) {r : SysReg} (v : Word) (h : regValueOk r v = true) (hs : ∀ p k, r ≠ .calSlot p k) (hc : ∀ p k, r ≠ .calShare p k) :
    ∃ u, exec (.registerWrite r v) s = .next u ∧
      if (s.regParts r v).all s.inReset = true then u.reg r = v else u.partRegs = s.partRegs ∧ u.replies = s.replies ++ [.refusedWrite r] := by
  have hexec : exec (.registerWrite r v) s = if (s.regParts r v).all s.inReset = true then
      done ({ s with partRegs := rset 0 s.partRegs (regKey r) v }.remeasure).retestAll else done { s with replies := s.replies ++ [.refusedWrite r] } := by
    show execRegisterWrite r v s = _
    unfold execRegisterWrite
    rw [if_neg (by rw [h]; simp)]
    cases r with
    | calSlot p k => exact absurd rfl (hs p k)
    | calShare p k => exact absurd rfl (hc p k)
    | _ => rfl
  by_cases hr : (s.regParts r v).all s.inReset = true
  · rw [if_pos hr] at hexec
    refine ⟨_, hexec, ?_⟩
    rw [if_pos hr]
    obtain ⟨f, hf⟩ := (State.remeasure { s with partRegs := rset 0 s.partRegs (regKey r) v }).retestAll_eq
    have hset : (State.remeasure { s with partRegs := rset 0 s.partRegs (regKey r) v }).partRegs = rset 0 s.partRegs (regKey r) v :=
      congrArg Prod.fst (State.remeasure_settings { s with partRegs := rset 0 s.partRegs (regKey r) v })
    rw [hf]
    show rget 0 (State.remeasure { s with partRegs := rset 0 s.partRegs (regKey r) v }).partRegs (regKey r) = v
    rw [hset, rget_rset_same]
  · rw [if_neg hr] at hexec
    refine ⟨_, hexec, ?_⟩
    rw [if_neg hr]
    exact ⟨rfl, rfl⟩

/-! Resets (R339, R360, R361). -/

theorem partCores_lt {s : State} {p c : Nat} (h : c ∈ s.partCores p) : c < 3072 := List.mem_range.1 (List.mem_filter.1 h).1

theorem partitionReset_next (s : State) (p key : Nat) (t : Stream) (ht : tget s.streams key = some t)
    (hp : (tget s.domains t.did.toNat).any (fun d => d.part == p) = true) (hpro : ∀ e ∈ s.wgs, e.2.pro.isSome = true → 3072 ≤ e.2.core) :
    ∃ u q, exec (.partitionReset p) s = .next u ∧ tget u.streams key = some q ∧ q.state = .stopped ∧ q.window = [] ∧ q.decode = t.head ∧
      (∀ e ∈ u.wgs, (tget s.domains e.2.did.toNat).any (fun d => d.part == p) = false) ∧ p ∉ u.live ∧
      (∀ c ∈ s.partCores p, u.core c = ⟨0, s.etimePs, 0, [], [], [], [], 4, false, (s.core c).dpe, []⟩) ∧
      ∀ a, s.behindPorts p (a / 65536) = true → rdByte u.mem a = 0 := by
  obtain ⟨hst, hwg, hlive, hmem, -, -, -, hcores⟩ := s.resetPart_leaves p
  refine ⟨{ s.resetPart p with turn := .choose }, t.cleared, rfl, ?_, rfl, rfl, rfl, hwg, hlive, fun c hc => ?_, hmem⟩
  · refine (congrArg (fun m => tget m key) hst).trans ((tget_map_values s.streams
      (fun t => if (tget s.domains t.did.toNat).any (fun d => d.part == p) then t.cleared else t) key).trans ?_)
    rw [ht]
    exact congrArg some (if_pos hp)
  · refine hcores c hc (fun e he hpr hec => ?_)
    have h1 := hpro e he hpr
    have h2 := partCores_lt hc
    omega

theorem coldReset_arrays (r : Tbl (BitVec 4)) {k : Nat} {b : BitVec 4} (h : tget r k = some b) :
    tget (r.map (fun e => (e.1, (⟨0, e.2, e.2, [], 0, [], [], 0⟩ : MapArray)))) k = some ⟨0, b, b, [], 0, [], [], 0⟩ := by
  rw [tget_map_values r (fun b => (⟨0, b, b, [], 0, [], [], 0⟩ : MapArray)), h]
  rfl

/-- A warm reset, step by step (R361). -/
theorem State.warm_eq (s : State) : ∃ (u : State) (a : Tbl MapArray), u.beyondFrames = (s.clearDomains (fun _ => true)).beyondFrames ∧ u.l2 = [] ∧
    s.warm = { u with
      epochPs := u.etimePs, ropes := [], wgs := [], slots := [], arrays := a
      cores := [], sfu := [], ctxs := [], log := [], faults := [], tlb := [], code := [], asids := [], partRegs := [], calendars := []
      images := [], preempts := [], rotors := [], fatals := [], stale := [], repaired := false, live := []
      keys := u.keys.filter (fun e => e.1 == 0), digests := bootDigests u.repairs, spdm := [], ide := []
      domains := u.domains.map (fun e => (e.1, { e.2 with tdi := .unlocked })) } := by
  refine ⟨_, _, ?_, ?_, rfl⟩
  · refine (foldl_keeps State.beyondFrames (fun (u : State) (e : Nat × Domain) => (rfl : (u.sweep e.2.asid).beyondFrames = u.beyondFrames)) _ _).trans ?_
    exact (State.releases_beyondFrames _ _).trans rfl
  · have hsweep : ∀ (l : Tbl Domain) (u : State), u.l2 = [] → (l.foldl (fun (u : State) (e : Nat × Domain) => u.sweep e.2.asid) u).l2 = [] := by
      intro l
      induction l with
      | nil => exact fun _ h => h
      | cons e l ih => exact fun u h => ih (u.sweep e.2.asid) (by unfold State.sweep; rw [h]; rfl)
    have hrel : ∀ (l : List Nat) (u : State), u.l2 = [] → (l.foldl (fun (u : State) k => u.release k) u).l2 = [] := by
      intro l
      induction l with
      | nil => exact fun _ h => h
      | cons k l ih =>
        refine fun u h => ih (u.release k) ?_
        unfold State.release
        split
        · exact h
        · rw [State.unscrub, State.freeFrame, h]
          rfl
    refine hsweep _ _ (hrel _ _ ?_)
    simp [State.dropLines]

theorem warmReset_next (s : State) : ∃ u, exec .warmReset s = .next u ∧ u.ropes = [] ∧ u.wgs = [] ∧ u.l2 = [] ∧ u.etimePs = s.etimePs ∧
    u.partRegs = [] ∧ u.blackBox = s.blackBox ∧ u.dump = s.dump ∧ tget u.keys 0 = tget s.keys 0 ∧
    (∀ key t, tget u.streams key = some t → t.window = [] ∧ t.state = .stopped) ∧ ∀ k d, tget u.domains k = some d → d.tdi = .unlocked := by
  obtain ⟨u, a, hu, hl2, hwarm⟩ := s.warm_eq
  obtain ⟨f, x, lg, m, ls, hclear⟩ := s.clearDomains_eq (fun _ => true)
  have hgrid := s.cleared_beyondGrid (fun _ => true)
  have htime := congrArg State.etimePs hu
  have hbox := congrArg State.blackBox hu
  have hdump := congrArg State.dump hu
  have hkeys := congrArg State.keys hu
  have hstr := congrArg State.streams hu
  rw [hclear] at htime hbox hdump hkeys hstr
  refine ⟨{ s.warm with turn := .choose }, rfl, ?_⟩
  rw [hwarm]
  refine ⟨rfl, rfl, hl2, ?_, rfl, ?_, ?_, ?_, fun key t h => ?_, fun k d h => ?_⟩
  · exact Eq.trans htime (congrArg State.etimePs hgrid :)
  · exact Eq.trans hbox (congrArg State.blackBox hgrid :)
  · exact Eq.trans hdump (congrArg State.dump hgrid :)
  · refine (tget_filter_key (fun k => k == 0) u.keys 0).trans ((if_pos rfl).trans ?_)
    exact congrArg (fun t => tget t 0) (Eq.trans hkeys (congrArg State.keys hgrid :) : u.keys = s.keys)
  · have hm := (congrArg (fun z => tget z key) hstr).symm.trans h
    obtain ⟨t0, -, rfl⟩ := Option.map_eq_some_iff.1 ((tget_map_values (s.cleared (fun _ => true)).streams
      (fun t => if true = true then t.cleared else t) key).symm.trans hm)
    exact ⟨rfl, rfl⟩
  · obtain ⟨d0, -, rfl⟩ := Option.map_eq_some_iff.1 ((tget_map_values u.domains (fun d => { d with tdi := .unlocked }) k).symm.trans h)
    rfl

theorem dieOffline_next (s : State) {die c : Nat} (hlo : 384 * die ≤ c) (hhi : c < 384 * die + 384) :
    ∃ u, exec (.dieOffline die) s = .next u ∧ die ∈ u.dieOff ∧ ∀ did, c ∉ u.coresOf did := by
  obtain ⟨u0, hu0⟩ : ∃ u0 : State, exec (.dieOffline die) s = done ({ u0 with dieOff := die :: u0.dieOff.filter (fun d => d != die) } : State).retestAll :=
    ⟨_, rfl⟩
  obtain ⟨f, hf⟩ := State.retestAll_eq { u0 with dieOff := die :: u0.dieOff.filter (fun d => d != die) }
  rw [hf] at hu0
  refine ⟨_, hu0, List.mem_cons_self, fun did hc => ?_⟩
  have hdie : c / 384 = die := by omega
  have hin := (List.mem_filter.1 hc).2
  rw [hdie] at hin
  simp at hin

theorem dieReturn_next (s : State) {die c : Nat} (hlo : 384 * die ≤ c) (hhi : c < 384 * die + 384) :
    ∃ u, exec (.dieReturn die) s = .next u ∧ die ∉ u.dieOff ∧ (u.core c).cyc = 0 ∧ (u.core c).dpe = (s.core c).dpe := by
  obtain ⟨m, ls, co, sl, sf, ar, k, hcores, hin, -⟩ := s.resetCores_eq (dieCores die)
  have hc : c ∈ dieCores die := List.mem_map.2 ⟨c - 384 * die, List.mem_range.2 (by omega), by omega⟩
  obtain ⟨r, hr⟩ : ∃ r, r = s.resetCores (dieCores die) := ⟨_, rfl⟩
  rw [← hr] at hcores
  have hexec : exec (.dieReturn die) s = done (State.retestAll { r with dieOff := r.dieOff.filter (fun d => d != die) }) := by
    rw [hr]
    rfl
  obtain ⟨f, hf⟩ := State.retestAll_eq { r with dieOff := r.dieOff.filter (fun d => d != die) }
  rw [hf] at hexec
  obtain ⟨u, hu, hoff, huk⟩ : ∃ u, exec (.dieReturn die) s = .next u ∧ u.dieOff = r.dieOff.filter (fun d => d != die) ∧
      u.cores = r.cores := ⟨_, hexec, rfl, rfl⟩
  have hcore : u.core c = ⟨0, s.etimePs, 0, [], [], [], [], 4, false, (s.core c).dpe, []⟩ := by
    rw [State.core, huk, hcores]
    dsimp only
    rw [hin c hc]
    rfl
  exact ⟨u, hu, by rw [hoff]; simp, by rw [hcore], by rw [hcore]⟩

/-- Settles O52: each event replaces its entry, its frame, its calendar or its register, or discards what its reset names. -/
theorem tablesMemoryCalendarsAndResets : Obligations.TablesMemoryCalendarsAndResets := by
  unfold Obligations.TablesMemoryCalendarsAndResets
  refine ⟨fun s did i e => ?_, fun s did g e => ?_, fun s p o ho hs => ⟨stage2Change_removes ho, fun n hwx hk hne => stage2Change_moves ho hs hwx hk hne,
    fun n m hk => stage2Change_refused (Or.inr (by rw [ho]; exact hk)), fun n m hw hx => stage2Change_refused (Or.inl ⟨hw, hx⟩)⟩, fun s f => ?_,
    fun s a => ⟨fun h => ?_, fun h => ?_⟩, fun s p v hv => ?_, fun s p h => ?_, fun s p hsame h => ?_, fun s r v h => ?_,
    fun s r v h => registerWrite_refused s r v h, fun s p key t ht hp hpro => partitionReset_next s p key t ht hp hpro, fun s => ?_,
    fun s => warmReset_next s, fun s die c hlo hhi => ⟨dieOffline_next s hlo hhi, dieReturn_next s hlo hhi⟩⟩
  · exact ⟨_, rfl, rfl, fun d j => rget_setDomain_entry 0 s did d _ Domain.handles i.toNat j e rfl⟩
  · exact ⟨_, rfl, rfl, fun d j => rget_setDomain_entry 0 s did d _ Domain.gates g.toNat j e rfl⟩
  · by_cases hf : s.scrubbed.contains f = true
    · exact ⟨_, congrArg done (if_pos hf), by simpa using hf, rfl⟩
    · exact ⟨_, congrArg done (if_neg hf), by simp, rfl⟩
  · exact ⟨_, congrArg done (if_pos h), sweepLeaves s a⟩
  · exact congrArg done (if_neg (by rw [h]; simp))
  · obtain ⟨u, hu, hcal⟩ := calWrite_next (i := .calCtl p v) (if_pos hv)
    exact ⟨u, hu, by rw [hcal], by rw [hcal], by rw [hcal]⟩
  · obtain ⟨u, hu, hcal⟩ := calendarPeriodStart_next s p h
    refine ⟨u, hu, by rw [hcal], fun q v n hw => ?_, fun hhold hw => ?_, fun hhold q k v n hk hw => ?_⟩
    · obtain ⟨hlate, hctl, -⟩ := (s.cal p).started_single (s.etime / 2048) _ hw
      rw [hcal, hw]
      by_cases hn : n < s.etime / 2048
      · obtain ⟨h1, h2, h3⟩ := hctl hn ⟨q, rfl⟩
        exact ⟨h2, fun _ => ⟨h3, h1⟩, fun hge => absurd hn (by omega)⟩
      · obtain ⟨h1, h2, h3⟩ := hlate (Nat.not_lt.1 hn)
        exact ⟨h2, fun hlt => absurd hlt hn, fun _ => ⟨h3, h1⟩⟩
    · rw [hcal, (s.cal p).started_held _ hhold hw]
      exact ⟨rfl, rfl⟩
    · obtain ⟨hlate, -, hslot⟩ := (s.cal p).started_single (s.etime / 2048) _ hw
      rw [hcal, hw]
      refine ⟨fun hn => ?_, fun hn => ?_⟩
      · obtain ⟨h1, h2⟩ := hslot hn q k hk rfl hhold
        exact ⟨h1, by rw [h2]; exact rget_rset_same _ _ _ _⟩
      · obtain ⟨h1, h2, -⟩ := hlate hn
        exact ⟨h1, h2⟩
  · obtain ⟨u, hu, hcal⟩ := calendarSlotBoundary_next s p hsame h
    exact ⟨u, hu, by rw [hcal], by rw [hcal]⟩
  · cases r with
    | calSlot p k =>
      obtain ⟨u, hu, hcal⟩ := calWrite_next (registerWrite_calendar s v p k h (Or.inl rfl))
      exact ⟨u, hu, by rw [hcal], by rw [hcal]⟩
    | calShare p k =>
      obtain ⟨u, hu, hcal⟩ := calWrite_next (registerWrite_calendar s v p k h (Or.inr rfl))
      exact ⟨u, hu, by rw [hcal], by rw [hcal]⟩
    | _ => exact registerWrite_partition s v h (fun _ _ h => SysReg.noConfusion h) (fun _ _ h => SysReg.noConfusion h)
  · refine ⟨_, rfl, rfl, rfl, rfl, rfl, rfl, rfl, rfl, rfl, rfl, rfl, rfl, rfl, rfl, rfl, fun k b hb => coldReset_arrays s.repairs hb, rfl⟩

end Sys2Proof.Machine
end

section
/-! PROOFS. Workgroups placed, aged, pre-empted and saved (R24, R317, R319, R320, R331, R332). -/

namespace Sys2Proof.Machine

theorem mem_tset {α : Type} {t : Tbl α} {k : Nat} {v : α} {e : Nat × α} (h : e ∈ tset t k v) : e = (k, v) ∨ e ∈ t := by
  have hins : ∀ u : Tbl α, e ∈ tins k v u → e = (k, v) ∨ e ∈ u := by
    intro u
    induction u with
    | nil => exact fun h => Or.inl (List.mem_singleton.1 h)
    | cons p u ih =>
      obtain ⟨a, b⟩ := p
      intro h
      rw [tins] at h
      split at h
      · exact List.mem_cons.1 h
      · obtain rfl | h := List.mem_cons.1 h
        · exact Or.inr List.mem_cons_self
        · exact (ih h).imp_right (List.mem_cons_of_mem _)
  exact (hins _ h).imp_right (fun h => ((mem_terase t k e).1 h).1)

/-! Map slots given to a workgroup (R20). -/

/-- A state without its workgroups and map slots. -/
def State.beside (s : State) : State := { s with wgs := [], slots := [] }

/-- Whether the slot that an entry of a slot map names is EMPTY and a domain's. -/
def State.freshSlot (s : State) (c : Nat) (did : BitVec 16) (e : Nat × Nat) : Prop :=
  (s.slot (16 * quadKey c (e.1 / 16) + e.2)).state = .empty ∧ (s.slot (16 * quadKey c (e.1 / 16) + e.2)).owner = did

theorem State.slot_setSlot (s : State) (k j : Nat) (m : MapSlot) : (s.setSlot k m).slot j = if j = k then m else s.slot j := by
  rw [State.slot, State.setSlot, tget_tset]
  by_cases h : j = k
  · rw [if_pos h, if_pos h]
    rfl
  · rw [if_neg h, if_neg h]
    rfl

theorem State.freshSlot_setSlot {s : State} {c : Nat} {did : BitVec 16} {e : Nat × Nat} (k : Nat)
    (h : s.freshSlot c did e ∨ 16 * quadKey c (e.1 / 16) + e.2 = k) : (s.setSlot k (MapSlot.empty did)).freshSlot c did e := by
  unfold State.freshSlot
  rw [s.slot_setSlot]
  split
  · exact ⟨rfl, rfl⟩
  · next hne => exact h.resolve_right hne

theorem State.onMarks_slot (s : State) (g : Mark → Mark) (k : Nat) : ((s.onMarks g).slot k).state = (s.slot k).state ∧ ((s.onMarks g).slot k).owner = (s.slot k).owner := by
  have h := tget_map_values s.slots (fun sl : MapSlot => { sl with
    fill := sl.fill.map (fun f : MapFill => { f with mark := g f.mark }), loaded := sl.loaded.map (fun f : MapFill => { f with mark := g f.mark }) }) k
  rw [State.slot, State.slot, show tget (s.onMarks g).slots k = _ from h]
  cases tget s.slots k <;> exact ⟨rfl, rfl⟩

/-- One physical slot given under a name. -/
def State.giveOne (wg quad c : Nat) (did : BitVec 16) (t : State) (e : Nat × Nat) : State :=
  (t.onWg wg (fun q => { q with slotMap := tset q.slotMap (16 * quad + e.2) e.1 })).setSlot (16 * quadKey c quad + e.1) (MapSlot.empty did)

theorem State.onWg_at {s : State} {k : Nat} {w : Workgroup} (h : tget s.wgs k = some w) (g : Workgroup → Workgroup) : s.onWg k g = s.setWg k (g w) := by
  unfold State.onWg
  rw [h]

theorem State.foldl_giveOne {wg quad c : Nat} {did : BitVec 16} (l : List (Nat × Nat)) (hl : ∀ e ∈ l, e.2 < 16) {s : State} {w : Workgroup}
    (hw : tget s.wgs wg = some w) : ∃ m, (l.foldl (State.giveOne wg quad c did) s).beside = s.beside ∧
      tget (l.foldl (State.giveOne wg quad c did) s).wgs wg = some { w with slotMap := m } ∧
      (∀ e ∈ m, e ∈ w.slotMap ∨ (l.foldl (State.giveOne wg quad c did) s).freshSlot c did e) ∧
      ∀ e, s.freshSlot c did e → (l.foldl (State.giveOne wg quad c did) s).freshSlot c did e := by
  induction l generalizing s w with
  | nil => exact ⟨w.slotMap, rfl, hw, fun e he => Or.inl he, fun e he => he⟩
  | cons a l ih =>
    have hstep : s.giveOne wg quad c did a = (s.setWg wg { w with slotMap := tset w.slotMap (16 * quad + a.2) a.1 }).setSlot
        (16 * quadKey c quad + a.1) (MapSlot.empty did) := by
      rw [State.giveOne, State.onWg_at hw]
    have hw1 : tget (s.giveOne wg quad c did a).wgs wg = some { w with slotMap := tset w.slotMap (16 * quad + a.2) a.1 } := by
      rw [hstep]
      exact tget_tset_same _ _ _
    have hkeep : ∀ e, s.freshSlot c did e ∨ 16 * quadKey c (e.1 / 16) + e.2 = 16 * quadKey c quad + a.1 →
        (s.giveOne wg quad c did a).freshSlot c did e := by
      intro e he
      rw [hstep]
      exact State.freshSlot_setSlot _ he
    obtain ⟨m, hb, hget, hm, hfresh⟩ := ih (fun e he => hl e (List.mem_cons_of_mem _ he)) hw1
    refine ⟨m, hb.trans (by rw [hstep]; rfl), hget, fun e he => ?_, fun e he => hfresh e (hkeep e (Or.inl he))⟩
    obtain hin | h := hm e he
    · obtain rfl | h := mem_tset hin
      · have h16 := hl a List.mem_cons_self
        refine Or.inr (hfresh _ (hkeep _ (Or.inr ?_)))
        rw [show (16 * quad + a.2) / 16 = quad by omega]
      · exact Or.inl h
    · exact Or.inr h

theorem Core.freeSlots_length (k : Core) (slot : Nat) (pin : Bool) (maps : Nat) (used : List Nat) : (k.freeSlots slot pin maps used).length ≤ 16 := by
  have hsub : k.freeSlots slot pin maps used ⊆ List.range 16 := by
    intro i hi
    have hbit := (List.mem_filter.1 hi).2
    rw [Bool.and_eq_true] at hbit
    exact List.mem_range.2 (BitVec.lt_of_getLsbD hbit.1)
  have hnodup : (k.freeSlots slot pin maps used).Nodup := List.nodup_range.filter _
  exact (List.length_range (n := 16)) ▸ (List.subperm_of_subset hnodup hsub).length_le

theorem State.giveSlots_spec {s : State} {wg quad : Nat} {w : Workgroup} (hw : tget s.wgs wg = some w) : ∃ m, (s.giveSlots wg quad).beside = s.beside ∧
    tget (s.giveSlots wg quad).wgs wg = some { w with slotMap := m } ∧
    (∀ e ∈ m, e ∈ w.slotMap ∨ (s.giveSlots wg quad).freshSlot w.core w.did e) ∧
    ∀ e, s.freshSlot w.core w.did e → (s.giveSlots wg quad).freshSlot w.core w.did e := by
  have heq : s.giveSlots wg quad = ((((s.core w.core).freeSlots w.dslot w.pin w.maps (s.mapSlotsUsed w.core quad)).take w.maps).zipIdx).foldl
      (State.giveOne wg quad w.core w.did) s := by
    unfold State.giveSlots
    rw [hw]
    rfl
  rw [heq]
  refine State.foldl_giveOne _ (fun e he => ?_) hw
  have hlt := List.snd_lt_of_mem_zipIdx he
  have hlen := (s.core w.core).freeSlots_length w.dslot w.pin w.maps (s.mapSlotsUsed w.core quad)
  rw [List.length_take] at hlt
  omega

theorem State.foldl_giveSlots {wg : Nat} (qs : List Nat) {s : State} {w : Workgroup} (hw : tget s.wgs wg = some w) : ∃ m,
    (qs.foldl (fun (t : State) q => t.giveSlots wg q) s).beside = s.beside ∧
    tget (qs.foldl (fun (t : State) q => t.giveSlots wg q) s).wgs wg = some { w with slotMap := m } ∧
    ((∀ e ∈ w.slotMap, s.freshSlot w.core w.did e) → ∀ e ∈ m, (qs.foldl (fun (t : State) q => t.giveSlots wg q) s).freshSlot w.core w.did e) := by
  induction qs generalizing s w with
  | nil => exact ⟨w.slotMap, rfl, hw, fun h => h⟩
  | cons q qs ih =>
    obtain ⟨m, hb, hget, hm, hfresh⟩ := State.giveSlots_spec (quad := q) hw
    obtain ⟨m', hb', hget', hm'⟩ := ih hget
    refine ⟨m', hb'.trans hb, hget', fun h => hm' (fun e he => ?_)⟩
    exact (hm e he).elim (fun hin => hfresh e (h e hin)) id

/-! Ropes at launch (R24). -/

theorem State.addRope_spec {s : State} {wg : Nat} {w : Workgroup} (r : Nat) (hw : tget s.wgs wg = some w) : ∃ sl on cyc,
    tget (s.addRope wg r).wgs wg = some { w with ropes := w.ropes ++ [s.nextId] } ∧
    (s.addRope wg r).ropes = tset s.ropes s.nextId (w.freshRope wg r w.asid sl on cyc) ∧ (s.addRope wg r).nextId = s.nextId + 1 ∧
    (s.addRope wg r).mem = s.mem ∧ ∀ e, s.freshSlot w.core w.did e → (s.addRope wg r).freshSlot w.core w.did e := by
  have heq : s.addRope wg r = { ((s.passesOn (.stream w.stream) (.rope s.nextId)).setRope s.nextId (w.freshRope wg r w.asid
      (s.freeStrands w.core (r % 4)) (!w.port || s.translated w.did (kdEntry w.kdesc)) (s.core w.core).cyc)).setWg wg
        { w with ropes := w.ropes ++ [s.nextId] } with nextId := s.nextId + 1 } := by
    unfold State.addRope
    rw [hw]
  rw [heq]
  refine ⟨_, _, _, tget_tset_same _ _ _, rfl, rfl, rfl, fun e he => ?_⟩
  obtain ⟨h1, h2⟩ := s.onMarks_slot (fun m => m.passOn (.stream w.stream) s.nextId (.rope s.nextId) s.nextId) (16 * quadKey w.core (e.1 / 16) + e.2)
  exact ⟨Eq.trans h1 he.1, Eq.trans h2 he.2⟩

theorem State.addRopes_spec {s : State} {wg : Nat} {w : Workgroup} (n : Nat) (hw : tget s.wgs wg = some w) (t : State)
    (ht : t = (List.range n).foldl (fun (t : State) r => t.addRope wg r) s) :
    tget t.wgs wg = some { w with ropes := w.ropes ++ (List.range n).map (s.nextId + ·) } ∧ t.nextId = s.nextId + n ∧ t.mem = s.mem ∧
    (∀ i < n, ∃ sl on cyc, tget t.ropes (s.nextId + i) = some (w.freshRope wg i w.asid sl on cyc)) ∧
    ∀ e, s.freshSlot w.core w.did e → t.freshSlot w.core w.did e := by
  induction n generalizing t with
  | zero =>
    subst ht
    exact ⟨by simpa using hw, rfl, rfl, fun i hi => absurd hi (Nat.not_lt_zero _), fun _ h => h⟩
  | succ n ih =>
    obtain ⟨hget, hid, hmem, hropes, hfresh⟩ := ih _ rfl
    rw [List.range_succ, List.foldl_append, List.foldl_cons, List.foldl_nil] at ht
    obtain ⟨sl, on, cyc, hget1, hropes1, hid1, hmem1, hfresh1⟩ := State.addRope_spec n hget
    rw [← ht] at hget1 hropes1 hid1 hmem1 hfresh1
    refine ⟨?_, by omega, hmem1.trans hmem, fun i hi => ?_, fun e he => hfresh1 e (hfresh e he)⟩
    · rw [hget1, hid, List.range_succ, List.map_append, List.append_assoc]
      rfl
    · rw [hropes1, hid, tget_tset]
      by_cases hin : i = n
      · rw [if_pos (by omega), hin]
        exact ⟨sl, on, cyc, rfl⟩
      · rw [if_neg (by omega)]
        exact hropes i (by omega)

theorem Workgroup.freshRope_live (w : Workgroup) (wg r asid) (sl : List (BitVec 7)) (on cyc) :
    ((w.freshRope wg r asid sl on cyc).strands.filter Strand.live).length = strandsOf w.strands r := by
  have hle : strandsOf w.strands r ≤ 8 := Nat.min_le_left _ _
  have hlive : ∀ i, (if i < strandsOf w.strands r then Strand.start (sl.getD i 0) (kdEntry w.kdesc) else Strand.none).live = decide (i < strandsOf w.strands r) := by
    intro i
    split
    · next h =>
      rw [decide_eq_true h]
      rfl
    · next h =>
      rw [decide_eq_false h]
      rfl
  have hstrands : (w.freshRope wg r asid sl on cyc).strands =
      (List.range 8).map (fun i => if i < strandsOf w.strands r then Strand.start (sl.getD i 0) (kdEntry w.kdesc) else Strand.none) := rfl
  rw [hstrands, List.filter_map, List.length_map, show (Strand.live ∘ fun i => if i < strandsOf w.strands r then Strand.start (sl.getD i 0) (kdEntry w.kdesc) else Strand.none) =
    fun i => decide (i < strandsOf w.strands r) from funext hlive]
  generalize strandsOf w.strands r = n at hle
  interval_cases n <;> rfl

theorem Workgroup.freshRope_strands (w : Workgroup) (wg r asid) (sl : List (BitVec 7)) (on cyc) {x : Strand}
    (hx : x ∈ (w.freshRope wg r asid sl on cyc).strands) (hlive : x.live = true) : x.pc = kdEntry w.kdesc ∧ x.active = 15 ∧ x.stack = [] := by
  obtain ⟨i, -, rfl⟩ := List.mem_map.1 hx
  split at hlive
  · next h =>
    rw [if_pos h]
    exact ⟨rfl, rfl, rfl⟩
  · exact absurd hlive (by decide)

/-- What a placement leaves (R24, R317). -/
theorem workgroupPlace_next {s : State} {wg : Nat} {w : Workgroup} {c slot : Nat} (hw : tget s.wgs wg = some w) (hwaits : s.waits w = true)
    (hlow : s.lowerUnplaced w = false) (hc : s.chooseCore w (fun c => (s.placeOn w c).isSome) = some c) (hs : s.placeOn w c = some slot) :
    ∃ t v, exec (.workgroupPlace wg) s = .next t ∧ t.mem = s.mem ∧ tget t.wgs wg = some v ∧ v.state = .resident ∧ v.core = c ∧ v.dslot = slot ∧
      v.ropes = (List.range (ropeCount w.strands)).map (s.nextId + ·) ∧ v.barriers = [] ∧ v.sems = [] ∧ (∀ e ∈ v.slotMap, t.freshSlot c w.did e) ∧
      ∀ i < ropeCount w.strands, ∃ asid sl on cyc, tget t.ropes (s.nextId + i) =
        some (({ w with core := c, dslot := slot } : Workgroup).freshRope wg i asid sl on cyc) := by
  have hexec : exec (.workgroupPlace wg) s = done ((s.placeAt wg c slot).served w c) := by
    show execWorkgroupPlace wg s = _
    unfold execWorkgroupPlace
    rw [hw]
    refine (if_neg (by rw [hwaits, hlow]; simp)).trans ?_
    rw [hc]
    dsimp only
    rw [hs]
  let w1 : Workgroup := { w with
    core := c, dslot := slot, asid := (s.domain w.did).asid, state := .resident, again := false, ropes := [], scratch := [], marks := [], pinned := []
    barriers := [], sems := [], slotMap := [], marked := [], slotImg := [] }
  obtain ⟨m, hb, hget, hm⟩ := State.foldl_giveSlots (quadsOf w.strands) (s := s.setWg wg w1) (tget_tset_same s.wgs wg w1)
  obtain ⟨hget', hid, hmem, hropes, hfresh⟩ := State.addRopes_spec (ropeCount w.strands) hget _ rfl
  have heq : s.placeAt wg c slot = (List.range (ropeCount w.strands)).foldl (fun (t : State) r => t.addRope wg r)
      ((quadsOf w.strands).foldl (fun (t : State) q => t.giveSlots wg q) (s.setWg wg w1)) := by
    unfold State.placeAt
    rw [hw]
  rw [← heq] at hget' hid hmem hropes hfresh
  have hid0 : ((quadsOf w.strands).foldl (fun (t : State) q => t.giveSlots wg q) (s.setWg wg w1)).nextId = s.nextId := (congrArg State.nextId hb :)
  have hmem0 : ((quadsOf w.strands).foldl (fun (t : State) q => t.giveSlots wg q) (s.setWg wg w1)).mem = s.mem := (congrArg State.mem hb :)
  rw [hid0] at hget' hropes
  refine ⟨_, _, hexec, hmem.trans hmem0, hget', rfl, rfl, rfl, rfl, rfl, rfl, fun e he => ?_, fun i hi => ?_⟩
  · exact hfresh e (hm (fun e he => absurd he List.not_mem_nil) e he)
  · obtain ⟨sl, on, cyc, h⟩ := hropes i hi
    exact ⟨_, sl, on, cyc, h⟩

theorem wgPriorityAging_next {s : State} {wg : Nat} {w : Workgroup} {st : Stream} (hw : tget s.wgs wg = some w) (hstate : w.state = .unplaced)
    (hsince : w.since + 1000000 ≤ s.etime) (hst : tget s.streams w.stream = some st) (hprio : w.prio < max st.mprio st.mcap) :
    exec (.wgPriorityAging wg) s = .next { s.setWg wg { w with prio := w.prio + 1, since := w.since + 1000000 } with turn := .choose } := by
  show execWgPriorityAging wg s = _
  unfold execWgPriorityAging
  rw [hw]
  dsimp only
  rw [hst]
  exact if_neg (not_or.2 ⟨fun h => h hstate, not_or.2 ⟨Nat.not_lt.2 hsince, Nat.not_le.2 hprio⟩⟩)

/-! Pre-emption (R331, R332). -/

theorem State.settlePreempts_eq (s : State) : ∃ p r, s.settlePreempts = { s with preempts := p, replies := r } := ⟨_, _, rfl⟩

theorem preemptRequest_next {s : State} {did : BitVec 16} {cores : List Nat} {wg : Nat} {w : Workgroup} (hwgs : s.wgs = [(wg, w)]) (hdid : w.did = did)
    (hcore : w.core ∈ cores) (hres : w.state = .resident) (hpro : w.pro = none) :
    ∃ t v, exec (.preemptRequest did cores) s = .next t ∧ (t.domain did).cores = (s.domain did).cores.filter (fun c => !cores.contains c) ∧
      tget t.wgs wg = some v ∧
      (w.idem = true → v.state = .unplaced ∧ v.again = true ∧ v.ropes = [] ∧ t.ropes = s.ropes.filter (fun e => e.2.wg != wg)) ∧
      (w.idem = false → v = { w with state := .saving, saveAt := s.etime, saveFor := did } ∧ t.ropes = s.ropes) := by
  obtain ⟨s1, hs1⟩ : ∃ s1, s1 = s.setDomain did { s.domain did with cores := (s.domain did).cores.filter (fun c => !cores.contains c) } := ⟨_, rfl⟩
  have hwgs1 : s1.wgs = [(wg, w)] := by rw [hs1]; exact hwgs
  have hget : tget s1.wgs wg = some w := by rw [hwgs1]; exact if_pos rfl
  have hdom : (s1.domain did).cores = (s.domain did).cores.filter (fun c => !cores.contains c) := by
    rw [hs1, State.domain_setDomain, if_pos rfl]
  obtain ⟨p, r, hset⟩ := ({ s1.vacate wg did false with preempts := (s1.vacate wg did false).preempts ++ [(did, cores)] } : State).settlePreempts_eq
  obtain ⟨f, hf⟩ := ({ s1.vacate wg did false with preempts := (s1.vacate wg did false).preempts ++ [(did, cores)] } : State).settlePreempts.retest_eq did
  have hexec : exec (.preemptRequest did cores) s =
      done (({ s1.vacate wg did false with preempts := (s1.vacate wg did false).preempts ++ [(did, cores)] } : State).settlePreempts.retest did) := by
    show execPreemptRequest did cores s = _
    unfold execPreemptRequest
    simp only []
    rw [← hs1, hwgs1, List.foldl_cons, List.foldl_nil]
    dsimp only
    rw [if_neg (by simpa using hcore), if_pos (by simpa using hdid)]
  rw [hf, hset] at hexec
  have hvac : s1.vacate wg did false = if w.idem then s1.discardWg wg else s1.setWg wg { w with state := .saving, saveAt := s1.etime, saveFor := did } := by
    unfold State.vacate
    rw [hget]
    refine (if_neg (by simp [hres, hpro])).trans ?_
    cases w.idem <;> rfl
  rw [hvac] at hexec
  by_cases hidem : w.idem = true
  · rw [if_pos hidem] at hexec
    have hdis : s1.discardWg wg = ({ s1.stripWg wg w with log := (s1.stripWg wg w).log.filter (fun e => !(e.wg == wg && (hent e.handle).space == spScratch)) } :
        State).setWg wg { w with
          state := .unplaced, again := true, ropes := [], scratch := [], marks := [], pinned := [], barriers := [], sems := [], slotMap := []
          marked := [], slotImg := [], since := (s1.stripWg wg w).etime } := by
      unfold State.discardWg
      rw [hget]
      rfl
    rw [hdis] at hexec
    refine ⟨_, _, hexec, hdom, tget_tset_same _ _ _, fun _ => ⟨rfl, rfl, rfl, ?_⟩, fun h => absurd (h.symm.trans hidem) (by decide)⟩
    rw [hs1]
    rfl
  · rw [if_neg hidem] at hexec
    refine ⟨_, _, hexec, hdom, tget_tset_same _ _ _, fun h => absurd h hidem, fun _ => ⟨?_, ?_⟩⟩
    · rw [hs1]
      rfl
    · rw [hs1]
      rfl

theorem coreMaskAdd_next (s : State) (did : BitVec 16) (cores : List Nat) : ∃ t, exec (.coreMaskAdd did cores) s = .next t ∧
    ∀ c, c ∈ (t.domain did).cores ↔ c ∈ (s.domain did).cores ∨ c ∈ cores := by
  obtain ⟨f, hf⟩ := (s.setDomain did { s.domain did with cores := (s.domain did).cores ++ cores.filter (fun c => !(s.domain did).cores.contains c) }).retest_eq did
  have hexec : exec (.coreMaskAdd did cores) s = done _ := congrArg done hf
  refine ⟨_, hexec, fun c => ?_⟩
  show c ∈ ((s.setDomain did _).domain did).cores ↔ _
  rw [State.domain_setDomain, if_pos rfl, List.mem_append, List.mem_filter]
  by_cases h : c ∈ (s.domain did).cores <;> simp [h]

end Sys2Proof.Machine
end

section
/-! PROOFS. Workgroups saved, their images, and their return (R33, R141, R332 to R334). -/

namespace Sys2Proof.Machine

/-! Saving (R332). -/

theorem Rope.saved_ended (r : Rope) (now : Nat) (forced : Bool) : (r.saved now forced).ended = r.ended := by
  show r.landAll.strands.all _ = r.strands.all _
  rw [landAll_strands]

/-- Whether nothing of a workgroup is in flight but the rope that is being saved (R332). -/
def State.lastToSave (s : State) (k wg : Nat) (w : Workgroup) : Bool :=
  w.ropes.any (fun j => (tget s.ropes j).any (fun q => !q.ended)) &&
    w.ropes.all (fun j => j == k || w.marked.contains j || (tget s.ropes j).all (fun q => q.ended && s.idle j q)) &&
    s.slots.all (fun e => e.2.fill.all (fun l => l.wg != wg))

theorem State.allSaved_eq {s : State} {k : Nat} {r : Rope} {w : Workgroup} (hk : tget s.ropes k = some r) (forced : Bool) :
    ((s.setRope k (r.saved s.etime forced)).setWg r.wg { w with marked := w.marked ++ [k] }).allSaved r.wg { w with marked := w.marked ++ [k] } =
      s.lastToSave k r.wg w := by
  unfold State.allSaved State.lastToSave
  refine congrArg₂ and (congrArg₂ and ?_ ?_) ?_
  · unfold State.past
    rw [List.not_all_eq_any_not]
    refine congrArg w.ropes.any (funext fun j => ?_)
    show (!(match tget (tset s.ropes k _) j with | some r => r.ended | none => true)) = _
    rw [tget_tset]
    by_cases hj : j = k
    · rw [if_pos hj, hj, hk]
      exact congrArg not (r.saved_ended _ _)
    · rw [if_neg hj]
      cases tget s.ropes j <;> rfl
  · refine congrArg w.ropes.all (funext fun j => ?_)
    show ((w.marked ++ [k]).contains j || (match tget (tset s.ropes k _) j with | some r => r.ended && s.idle j r | none => true)) = _
    rw [tget_tset]
    by_cases hj : j = k
    · subst hj
      simp
    · rw [if_neg hj]
      have hc : (w.marked ++ [k]).contains j = (j == k || w.marked.contains j) := by simp [hj]
      rw [hc]
      cases tget s.ropes j <;> rfl
  · refine congrArg s.slots.all (funext fun e => ?_)
    obtain ⟨i, m⟩ := e
    dsimp only
    cases m.fill <;> rfl

theorem State.saveRope_spec {s : State} {k : Nat} {r : Rope} {w : Workgroup} (hk : tget s.ropes k = some r) (forced : Bool) :
    ∃ v, tget (s.saveRope k r w forced).ropes k = some (r.saved s.etime forced) ∧ tget (s.saveRope k r w forced).wgs r.wg = some v ∧
      v.marked = w.marked ++ [k] ∧ v.scratch = w.scratch ∧ v.sems = w.sems ∧ v.state = if s.lastToSave k r.wg w then .saved else w.state := by
  obtain ⟨w1, hw1⟩ : ∃ w1 : Workgroup, w1 = { w with marked := w.marked ++ [k] } := ⟨_, rfl⟩
  obtain ⟨s1, hs1⟩ : ∃ s1, s1 = (s.setRope k (r.saved s.etime forced)).setWg r.wg w1 := ⟨_, rfl⟩
  have hget : tget s1.wgs r.wg = some w1 := by
    rw [hs1]
    exact tget_tset_same _ _ _
  have hrope : tget s1.ropes k = some (r.saved s.etime forced) := by
    rw [hs1]
    exact tget_tset_same _ _ _
  have hall : s1.allSaved r.wg w1 = s.lastToSave k r.wg w := by
    rw [hs1, hw1]
    exact State.allSaved_eq hk forced
  have heq : s.saveRope k r w forced = (if s1.allSaved r.wg w1 then s1.toImage r.wg else s1).settlePreempts := by
    rw [State.saveRope, ← hw1, ← hs1, hget]
  have himage : s1.toImage r.wg = (s1.freeSlots w1).setWg r.wg { w1 with
      state := .saved, pinned := [], slotMap := [], slotImg := w1.slotMap.map (fun e => (e.1, s1.slot (16 * quadKey w1.core (e.1 / 16) + e.2))) } := by
    unfold State.toImage
    rw [hget]
  rw [heq, hall]
  by_cases h : s.lastToSave k r.wg w = true
  · rw [if_pos h, if_pos h, himage]
    refine ⟨_, hrope, tget_tset_same _ _ _, ?_⟩
    rw [hw1]
    exact ⟨rfl, rfl, rfl, rfl⟩
  · rw [if_neg h, if_neg h]
    refine ⟨w1, hrope, hget, ?_⟩
    rw [hw1]
    exact ⟨rfl, rfl, rfl, rfl⟩

section
variable {s : State} {k : Nat} {r : Rope} {w : Workgroup}

theorem ropeSave_next (hk : tget s.ropes k = some r) (hw : tget s.wgs r.wg = some w) (hst : w.state = .saving) (hm : k ∉ w.marked)
    (hidle : s.idle k r = true) (hq : r.quiescent = true) : exec (.ropeSave k) s = done (s.saveRope k r w false) := by
  show execRopeSave k s = _
  unfold execRopeSave
  rw [hk]
  dsimp only
  rw [hw]
  exact if_pos (by simp [hst, hm, hidle, hq])

theorem forcedSave_next (hk : tget s.ropes k = some r) (hw : tget s.wgs r.wg = some w) (hst : w.state = .saving) (hm : k ∉ w.marked)
    (hidle : s.idle k r = true) {slot : Nat} (hslot : (s.core w.core).slotOf w.saveFor = some slot)
    (hdue : w.saveAt + (s.core w.core).ptoNs slot ≤ s.etime) : exec (.forcedSave k) s = done (s.saveRope k r w true) := by
  have hd : s.saveDue w = true := by
    unfold State.saveDue
    dsimp only
    rw [hslot]
    exact decide_eq_true hdue
  show execForcedSave k s = _
  unfold execForcedSave
  rw [hk]
  dsimp only
  rw [hw]
  exact if_pos (by simp [hst, hm, hidle, hd])

end

/-! Images (R333). -/

theorem State.spoil_mem (s : State) (k : Nat) : (s.spoil k).mem = s.mem := by
  unfold State.spoil
  split
  · rfl
  · split <;> rfl

theorem State.writeScratch_mem (s : State) (wg : Nat) (a : Option Agent) (num addr : Nat) (bs : List Byte) :
    (s.writeScratch wg a num addr bs).mem = s.mem := by
  unfold State.writeScratch State.raceFills
  refine Eq.trans (foldl_keeps State.mem (fun u e => ?_) _ _) (s.onWg_mem _ _)
  dsimp only
  split
  · split
    · exact u.spoil_mem _
    · rfl
  · rfl

theorem State.writeScratch_wg {s : State} {wg : Nat} {w : Workgroup} (hw : tget s.wgs wg = some w) (a : Option Agent) (num addr : Nat) (bs : List Byte) :
    ∃ m, tget (s.writeScratch wg a num addr bs).wgs wg = some { w with scratch := wrBytes w.scratch addr bs, marks := m } := by
  rw [State.writeScratch, State.wake_wgs, State.raceFills_wgs, State.onWg_get, if_pos rfl, hw]
  exact ⟨_, rfl⟩

section
variable {s : State} {wg : Nat} {w : Workgroup}

theorem imageEvent_sems (hw : tget s.wgs wg = some w) (hst : w.state = .saved) {n : Nat} (hn : n < 8) : exec (.imageEvent wg (.sems n)) s =
    .next { s.setWg wg { w with sems := rset 0 w.sems n (if w.sem n = 0xFFFF then 0xFFFF else w.sem n + 1) } with turn := .choose } := by
  show execImageEvent wg (.sems n) s = _
  unfold execImageEvent
  rw [hw]
  refine (if_neg (not_not.2 hst)).trans ?_
  dsimp only
  rw [Nat.mod_eq_of_lt hn]
  rfl

theorem imageEvent_semw (hw : tget s.wgs wg = some w) (hst : w.state = .saved) {n : Nat} (hn : n < 8) (h0 : w.sem n ≠ 0) :
    exec (.imageEvent wg (.semw n)) s = .next { s.setWg wg { w with sems := rset 0 w.sems n (w.sem n - 1) } with turn := .choose } := by
  show execImageEvent wg (.semw n) s = _
  unfold execImageEvent
  rw [hw]
  refine (if_neg (not_not.2 hst)).trans ?_
  dsimp only
  rw [Nat.mod_eq_of_lt hn]
  exact if_neg h0

theorem imageEvent_scratchWrite (hw : tget s.wgs wg = some w) (hst : w.state = .saved) {a : Nat} {bs : List Byte} (ha : a + bs.length ≤ w.scratchSize) :
    ∃ t v, exec (.imageEvent wg (.scratchWrite a bs)) s = .next t ∧ tget t.wgs wg = some v ∧ v.scratch = wrBytes w.scratch a bs ∧ t.mem = s.mem := by
  have hexec : exec (.imageEvent wg (.scratchWrite a bs)) s =
      done ((s.writeScratch wg none s.nextId a bs).clobbers ⟨spScratch, place wg a, bs.length⟩) := by
    show execImageEvent wg (.scratchWrite a bs) s = _
    unfold execImageEvent
    rw [hw]
    exact (if_neg (not_not.2 hst)).trans (if_pos ha)
  obtain ⟨m, hm⟩ := State.writeScratch_wg hw none s.nextId a bs
  have hget := tget_map_values (s.writeScratch wg none s.nextId a bs).wgs (fun w : Workgroup =>
    { w with marks := w.marks.map (fun (e : Nat × List Mark) => (e.1, e.2.map (fun m : Mark => m.clobber ⟨spScratch, place wg a, bs.length⟩))) }) wg
  rw [hm] at hget
  exact ⟨_, _, hexec, hget, rfl, s.writeScratch_mem _ _ _ _ _⟩

theorem imageEvent_monitorWrite (hw : tget s.wgs wg = some w) (hst : w.state = .saved) {k : Nat} {r : Rope} (hk : k ∈ w.ropes)
    (hr : tget s.ropes k = some r) : exec (.imageEvent wg (.monitorWrite k)) s =
      .next { s.setRope k { r with monitors := r.monitors.map (fun m => { m with woken := true }) } with turn := .choose } := by
  show execImageEvent wg (.monitorWrite k) s = _
  unfold execImageEvent
  rw [hw]
  refine (if_neg (not_not.2 hst)).trans ((if_pos (List.contains_iff_mem.2 hk)).trans ?_)
  rw [onRope_eq hr]
  rfl

end

/-! Restoring (R334). -/

/-- What a rope keeps when its image returns to a core: its registers, its trap and where its strands stand. -/
def Rope.SameImage (r q : Rope) : Prop :=
  q.v = r.v ∧ q.s = r.s ∧ q.p = r.p ∧ q.h = r.h ∧ q.k = r.k ∧ q.trap = r.trap ∧
    q.strands.map (fun x => (x.pc, x.active, x.stack, x.parked, x.retired)) = r.strands.map (fun x => (x.pc, x.active, x.stack, x.parked, x.retired))

theorem Rope.SameImage.trans {r q p : Rope} (h : r.SameImage q) (h' : q.SameImage p) : r.SameImage p := by
  obtain ⟨h1, h2, h3, h4, h5, h6, h7⟩ := h
  obtain ⟨g1, g2, g3, g4, g5, g6, g7⟩ := h'
  exact ⟨g1.trans h1, g2.trans h2, g3.trans h3, g4.trans h4, g5.trans h5, g6.trans h6, g7.trans h7⟩

/-- Whether every rope of a state is one of another with the same image. -/
def State.KeepsRopes (s t : State) : Prop := ∀ k r, tget s.ropes k = some r → ∃ q, tget t.ropes k = some q ∧ r.SameImage q

theorem State.reseat_keeps (s : State) (k c slot : Nat) (before : List Nat) :
    s.KeepsRopes (s.reseat k c slot before) ∧ (s.reseat k c slot before).wgs = s.wgs ∧ (s.reseat k c slot before).mem = s.mem := by
  cases hk : tget s.ropes k with
  | none =>
    have heq : s.reseat k c slot before = s := by
      unfold State.reseat
      rw [hk]
    rw [heq]
    exact ⟨fun j r h => ⟨r, h, rfl, rfl, rfl, rfl, rfl, rfl, rfl⟩, rfl, rfl⟩
  | some r =>
    obtain ⟨q, hq, hsame⟩ : ∃ q, s.reseat k c slot before = s.setRope k q ∧ r.SameImage q := by
      unfold State.reseat
      rw [hk]
      refine ⟨_, rfl, rfl, rfl, rfl, rfl, rfl, rfl, ?_⟩
      rw [List.map_map]
      conv_rhs => rw [← List.zipIdx_map_fst 0 r.strands, List.map_map]
      refine List.map_congr_left (fun e _ => ?_)
      obtain ⟨x, i⟩ := e
      dsimp only [Function.comp]
      split <;> rfl
    rw [hq]
    refine ⟨fun j r' h => ?_, rfl, rfl⟩
    rw [State.setRope, tget_tset]
    by_cases hj : j = k
    · subst hj
      rw [if_pos rfl]
      obtain rfl : r = r' := Option.some.inj (hk.symm.trans h)
      exact ⟨q, rfl, hsame⟩
    · rw [if_neg hj]
      exact ⟨r', h, rfl, rfl, rfl, rfl, rfl, rfl, rfl⟩

theorem State.foldl_reseat_keeps (c slot : Nat) (rs : List Nat) (l : List (Nat × Nat)) (s : State) :
    s.KeepsRopes (l.foldl (fun (t : State) e => t.reseat e.1 c slot (rs.take e.2)) s) ∧
    (l.foldl (fun (t : State) e => t.reseat e.1 c slot (rs.take e.2)) s).wgs = s.wgs ∧
    (l.foldl (fun (t : State) e => t.reseat e.1 c slot (rs.take e.2)) s).mem = s.mem := by
  induction l generalizing s with
  | nil => exact ⟨fun j r h => ⟨r, h, rfl, rfl, rfl, rfl, rfl, rfl, rfl⟩, rfl, rfl⟩
  | cons e l ih =>
    obtain ⟨h1, h2, h3⟩ := s.reseat_keeps e.1 c slot (rs.take e.2)
    obtain ⟨g1, g2, g3⟩ := ih (s.reseat e.1 c slot (rs.take e.2))
    refine ⟨fun j r h => ?_, g2.trans h2, g3.trans h3⟩
    obtain ⟨q, hq, hrq⟩ := h1 j r h
    obtain ⟨p, hp, hqp⟩ := g1 j q hq
    exact ⟨p, hp, hrq.trans hqp⟩

/-- Slots back in the places that a slot map gives their names (R141). -/
def State.backSlots (c : Nat) (img : Tbl MapSlot) (mp : Tbl Nat) (s : State) : State :=
  img.foldl (fun (t : State) (e : Nat × MapSlot) =>
    match tget mp e.1 with
    | some p => t.setSlot (16 * quadKey c (e.1 / 16) + p) e.2
    | none => t) s

theorem State.backSlots_eq (c : Nat) (img : Tbl MapSlot) (mp : Tbl Nat) (s : State) : ∃ sl, s.backSlots c img mp = { s with slots := sl } := by
  unfold State.backSlots
  induction img generalizing s with
  | nil => exact ⟨s.slots, rfl⟩
  | cons e l ih =>
    rw [List.foldl_cons]
    cases tget mp e.1 with
    | none => exact ih s
    | some p =>
      obtain ⟨sl, h⟩ := ih (s.setSlot (16 * quadKey c (e.1 / 16) + p) e.2)
      exact ⟨sl, h⟩

/-- The ropes of an image on another core, with their logged accesses. -/
def State.reseated (s : State) (wg c slot : Nat) (w : Workgroup) : State :=
  let s1 := w.ropes.zipIdx.foldl (fun (t : State) e => t.reseat e.1 c slot (w.ropes.take e.2)) (s.setWg wg { w with core := c, dslot := slot })
  { s1 with log := s1.log.map (fun (e : LogEntry) => if w.ropes.contains e.rope then { e with core := c } else e) }

/-- A workgroup's image on another core, its slots EMPTY yet. -/
def State.rehoused (s : State) (wg c slot : Nat) (w : Workgroup) : State :=
  (quadsOf w.strands).foldl (fun (t : State) q => t.giveSlots wg q)
    ((s.reseated wg c slot w).onWg wg (fun q => { q with state := .resident, marked := [], slotMap := [], slotImg := [] }))

theorem State.reseated_keeps (s : State) (wg c slot : Nat) (w : Workgroup) : s.KeepsRopes (s.reseated wg c slot w) ∧
    tget (s.reseated wg c slot w).wgs wg = some { w with core := c, dslot := slot } ∧ (s.reseated wg c slot w).mem = s.mem := by
  obtain ⟨hr, hw, hm⟩ := State.foldl_reseat_keeps c slot w.ropes w.ropes.zipIdx (s.setWg wg { w with core := c, dslot := slot })
  exact ⟨hr, (congrArg (fun t => tget t wg) hw).trans (tget_tset_same _ _ _), hm⟩

theorem State.rehoused_keeps (s : State) (wg c slot : Nat) (w : Workgroup) : s.KeepsRopes (s.rehoused wg c slot w) ∧
    (s.rehoused wg c slot w).mem = s.mem ∧ ∃ m, tget (s.rehoused wg c slot w).wgs wg =
      some { w with core := c, dslot := slot, state := .resident, marked := [], slotMap := m, slotImg := [] } := by
  obtain ⟨hr, hw, hm⟩ := s.reseated_keeps wg c slot w
  have heq : (s.reseated wg c slot w).onWg wg (fun q => { q with state := .resident, marked := [], slotMap := [], slotImg := [] }) =
      (s.reseated wg c slot w).setWg wg { w with core := c, dslot := slot, state := .resident, marked := [], slotMap := [], slotImg := [] } :=
    State.onWg_at hw _
  obtain ⟨m, hb, hget, -⟩ := State.foldl_giveSlots (quadsOf w.strands) (s := (s.reseated wg c slot w).setWg wg
    { w with core := c, dslot := slot, state := .resident, marked := [], slotMap := [], slotImg := [] }) (tget_tset_same _ _ _)
  have hset : s.rehoused wg c slot w = (quadsOf w.strands).foldl (fun (t : State) q => t.giveSlots wg q) ((s.reseated wg c slot w).setWg wg
      { w with core := c, dslot := slot, state := .resident, marked := [], slotMap := [], slotImg := [] }) := by
    rw [State.rehoused, heq]
  rw [← hset] at hb hget
  have hropes : (s.rehoused wg c slot w).ropes = (s.reseated wg c slot w).ropes := (congrArg State.ropes hb :)
  refine ⟨fun k r h => ?_, (congrArg State.mem hb :).trans hm, m, hget⟩
  rw [hropes]
  exact hr k r h

theorem State.restoreAt_keeps {s : State} {wg : Nat} {w : Workgroup} (hw : tget s.wgs wg = some w) (c slot : Nat) :
    s.KeepsRopes (s.restoreAt wg c slot) ∧ (s.restoreAt wg c slot).mem = s.mem ∧ ∃ m, tget (s.restoreAt wg c slot).wgs wg =
      some { w with core := c, dslot := slot, state := .resident, marked := [], slotMap := m, slotImg := [] } := by
  obtain ⟨hr, hmem, m, hget⟩ := s.rehoused_keeps wg c slot w
  have heq : s.restoreAt wg c slot = (s.rehoused wg c slot w).backSlots c w.slotImg m := by
    unfold State.restoreAt
    rw [hw]
    dsimp only
    split
    · next h => cases (show tget (s.rehoused wg c slot w).wgs wg = none from h).symm.trans hget
    · next w3 h =>
      obtain rfl := Option.some.inj ((show tget (s.rehoused wg c slot w).wgs wg = some w3 from h).symm.trans hget)
      rfl
  obtain ⟨sl, hsl⟩ := (s.rehoused wg c slot w).backSlots_eq c w.slotImg m
  rw [heq, hsl]
  exact ⟨hr, hmem, m, hget⟩

theorem workgroupRestore_next {s : State} {wg c slot : Nat} {w : Workgroup} (hw : tget s.wgs wg = some w) (hel : s.eligible w = true)
    (hon : s.restoreOn w c = some slot) : exec (.workgroupRestore wg c) s = done ((s.restoreAt wg c slot).served w c) := by
  show execWorkgroupRestore wg c s = _
  unfold execWorkgroupRestore
  rw [hw]
  refine (if_neg (by rw [hel]; simp)).trans ?_
  rw [hon]

/-- Settles O47: each event replaces the workgroup's entry, and of the ropes what the placement, the save or the return says. -/
theorem workgroupsArePlacedSavedAndRestored : Obligations.WorkgroupsArePlacedSavedAndRestored := by
  unfold Obligations.WorkgroupsArePlacedSavedAndRestored
  refine ⟨fun s wg w c slot hw hwaits hlow hc hs => ?_, fun s wg w st hw h1 h2 hst h3 => wgPriorityAging_next hw h1 h2 hst h3,
    fun s did cores wg w h1 h2 h3 h4 h5 => preemptRequest_next h1 h2 h3 h4 h5, fun s did cores => coreMaskAdd_next s did cores,
    fun s k r w hk hw hst hm hidle => ⟨fun hq => ?_, fun slot hslot hdue => ?_⟩,
    fun s wg w n hw hst hn => ⟨imageEvent_sems hw hst hn, fun h0 => imageEvent_semw hw hst hn h0, fun a bs ha => imageEvent_scratchWrite hw hst ha,
      fun k r hk hr => imageEvent_monitorWrite hw hst hk hr⟩, fun s wg w c slot hw hel hon hnd => ?_⟩
  · obtain ⟨t, v, hexec, hmem, hget, h1, h2, h3, h4, h5, h6, hslots, hropes⟩ := workgroupPlace_next hw hwaits hlow hc hs
    refine ⟨t, v, hexec, hmem, hget, h1, h2, h3, h4, h5, h6, hslots, fun i hi => ?_⟩
    obtain ⟨asid, sl, on, cyc, hr⟩ := hropes i hi
    exact ⟨_, hr, rfl, rfl, rfl, rfl, rfl, rfl, rfl, fun _ => rfl, rfl, rfl, rfl, rfl, rfl, Workgroup.freshRope_live _ wg i asid sl on cyc,
      fun x hx hlive => Workgroup.freshRope_strands _ wg i asid sl on cyc hx hlive⟩
  · obtain ⟨v, hr, hv, h1, h2, h3, h4⟩ := State.saveRope_spec hk (w := w) false
    refine ⟨_, v, ropeSave_next hk hw hst hm hidle hq, hr, hv, h1, h2, h3, h4.trans ?_⟩
    rw [hst]
    refine if_congr (iff_of_eq (congrArg (· = true) (congrArg₂ and (congrArg₂ and (congrArg w.ropes.any (funext fun j => ?_))
      (congrArg w.ropes.all (funext fun j => ?_))) (congrArg s.slots.all (funext fun e => ?_))))) rfl rfl
    · cases tget s.ropes j <;> rfl
    · cases tget s.ropes j <;> rfl
    · obtain ⟨i, m⟩ := e
      dsimp only
      cases m.fill <;> rfl
  · obtain ⟨v, hr, hv, h1, -⟩ := State.saveRope_spec hk (w := w) true
    exact ⟨_, v, forcedSave_next hk hw hst hm hidle hslot hdue, hr, hv, h1⟩
  · obtain ⟨hr, hmem, m, hget⟩ := State.restoreAt_keeps hw c slot
    exact ⟨_, _, workgroupRestore_next hw hel hon, hmem, hget, rfl, rfl, rfl, rfl, rfl, rfl, rfl, fun k _ r h => hr k r h⟩

end Sys2Proof.Machine
end

section
/-! PROOFS. A host write whose line is combined first, where that undoes the translation of its own page (R291, R297, R302).

The homes combine what is gathered for the lines of a range before the bytes are written, and each byte is then translated anew. A
gathered word that lies beyond its line is combined with it, and here it clears the page-table entry through which the write goes. -/

namespace Sys2Proof.Machine

/-- A line of frame 1 of another ASID, for which AND with 0 has been gathered at the word where frame 2 begins. -/
def strayLine : L2Line := ⟨9, 0, ((0, 0), 0), 0, 1, true, true, false, 0, [], [⟨0, 0, [(16384, .andN32, 0)]⟩], none, []⟩

/-- A state with that line, whose ASID 0 has its root table in frame 2: entry 0 names the table of level 1 at 0x11000, whose entry 0
is a leaf of IPA 0, that is frame 1, with the rights R and W. Partition 0 has memory port 0 and the bridge of hub die 0. -/
def strayState : State := { State.reset with
  roots := [(0, 65536)], stage2 := [(0, ⟨1, true, false, 0⟩), (1, ⟨2, true, false, 0⟩)]
  mem := [(131072, 1), (131073, 16), (131074, 1), (135168, 15)]
  l2 := [strayLine], partRegs := [(12, 16), (64, 16), (140, 1), (192, 1)] }

theorem strayState_lookup : strayState.lookup 0 0 .write = .ok 1 true true false := by decide +kernel

theorem strayState_hubRefused : strayState.hubRefused (strayState.hostHub 0 0 1) 0 0 1 = [] := by decide +kernel

/-- The state after the host has written bytes of a domain. -/
def State.hostWritten (s : State) (asid : BitVec 16) (a : DWord) (bs : List Byte) : State :=
  (s.sysWrite (s.hostHub asid a.toNat bs.length) asid a.toNat bs).healRange asid a.toNat bs.length

theorem strayState_dropped : rdByte (strayState.hostWritten 0 0 [1]).mem 65536 = 0 := by decide +kernel

theorem hostWrite_device (s : State) (asid : BitVec 16) (a : DWord) (bs : List Byte) : exec (.hostWrite (.device asid) a bs) s =
    .next { s.hostWritten asid a bs with turn := .choose } := rfl

theorem hostWrite_device_mem {s u : State} {asid : BitVec 16} {a : DWord} {bs : List Byte} (h : exec (.hostWrite (.device asid) a bs) s = .next u) :
    u.mem = (s.hostWritten asid a bs).mem := by
  rw [hostWrite_device] at h
  rw [← Host.Outcome.next.inj h]

/-- Refutes O53: a byte that the host writes at a translated address is dropped, since what is combined before it clears the entry that
translates the address; frame 1 keeps the 0 that it held. -/
theorem not_attestationKeysHostAndErrors : ¬ Obligations.AttestationKeysHostAndErrors := by
  unfold Obligations.AttestationKeysHostAndErrors
  rintro ⟨-, -, -, -, -, -, -, -, -, -, -, -, hdevice, -⟩
  obtain ⟨u, hu, hread, -⟩ := hdevice strayState 0 0 1 1 true true false strayState_lookup strayState_hubRefused
  have hzero : rdByte u.mem 65536 = 0 := by
    rw [hostWrite_device_mem hu]
    exact strayState_dropped
  exact absurd (hread.symm.trans hzero) (by decide)

end Sys2Proof.Machine
end

section
/-! PROOFS. The words of a copy program (R209 to R218). -/

namespace Sys2Proof.Machine

section
variable {s : State} {c : CopyCtx}

/-- A copy word acts on the running context, or waits. -/
theorem copyOp_at (hc : tget s.ctxs s.curCtx = some c) (body : Nat → CopyCtx → State → Option State) :
    copyOp body s = (body s.curCtx c s).elim (.next s) (fun u => .next { u with turn := .choose }) := by
  rw [copyOp, hc]
  dsimp only
  cases body s.curCtx c s <;> rfl

theorem copyOp_goes (hc : tget s.ctxs s.curCtx = some c) (body : Nat → CopyCtx → State → Option State) (u : State) (hb : body s.curCtx c s = some u) :
    copyOp body s = done u := by
  rw [copyOp_at hc, hb]
  rfl

theorem copyOp_waits (hc : tget s.ctxs s.curCtx = some c) (body : Nat → CopyCtx → State → Option State) (hb : body s.curCtx c s = none) :
    copyOp body s = .next s := by
  rw [copyOp_at hc, hb]
  rfl

/-- A context goes on where its next word is a start, or no program is behind it (R211). -/
theorem State.copyGo_on {u : State} {k : Nat} {d : CopyCtx} {dest : DWord}
    (h : d.cmd.isSome = true ∨ d.own.isSome = true ∨ u.inCopy d.did d.start.toNat dest.toNat = true) :
    u.copyGo k d dest = { u with ctxs := tset u.ctxs k { d with pc := dest, pages := (tget u.wgs d.wg).elim [] Workgroup.pinned } } := by
  unfold State.copyGo
  refine if_pos ?_
  obtain h | h | h := h
  · rw [h]
    rfl
  · rw [h, Bool.or_true]
    rfl
  · rw [h, Bool.or_true]

theorem State.copyGo_fault {u : State} {k : Nat} {d : CopyCtx} {dest : DWord} (hcmd : d.cmd = none) (hown : d.own = none)
    (h : u.inCopy d.did d.start.toNat dest.toNat = false) : u.copyGo k d dest = u.copyFault k 2 0 dest := by
  unfold State.copyGo
  rw [hcmd, hown, h]
  exact if_neg (by simp)

/-! Words without a move (R211). -/

theorem copySete_next (w : CopyWord) (hc : tget s.ctxs s.curCtx = some c) (h : s.inCopy c.did c.start.toNat (c.pc + 8).toNat = true) :
    exec (.copySete w) s = .next { s with
      ctxs := tset s.ctxs s.curCtx { c.setE (w.lo.toNat % 8) w.hi with pc := c.pc + 8, pages := (tget s.wgs c.wg).elim [] Workgroup.pinned }, turn := .choose } := by
  have hgo := State.copyGo_on (k := s.curCtx) (d := c.setE (cwNum w) w.hi) (Or.inr (Or.inr h))
  have hexec : exec (.copySete w) s = done _ := copyOp_goes hc (fun k c s => some (s.copyGo k (c.setE (cwNum w) w.hi) (c.pc + 8))) _ rfl
  rw [hexec, hgo]
  rfl

theorem copyAdde_next (w : CopyWord) (hc : tget s.ctxs s.curCtx = some c) (h : s.inCopy c.did c.start.toNat (c.pc + 8).toNat = true) :
    exec (.copyAdde w) s = .next { s with
      ctxs := tset s.ctxs s.curCtx { c.setE (w.lo.toNat % 8) (c.er (w.lo.toNat % 8) + w.hi) with
        pc := c.pc + 8, pages := (tget s.wgs c.wg).elim [] Workgroup.pinned }, turn := .choose } := by
  have hgo := State.copyGo_on (k := s.curCtx) (d := c.setE (cwNum w) (c.er (cwNum w) + w.hi)) (Or.inr (Or.inr h))
  have hexec : exec (.copyAdde w) s = done _ := copyOp_goes hc (fun k c s => some (s.copyGo k (c.setE (cwNum w) (c.er (cwNum w) + w.hi)) (c.pc + 8))) _ rfl
  rw [hexec, hgo]
  rfl

theorem copyLoop_taken (w : CopyWord) (hc : tget s.ctxs s.curCtx = some c) (hne : c.er (w.lo.toNat % 8) ≠ 0)
    (h : s.inCopy c.did c.start.toNat (addInt c.pc (8 * (w.mid ++ w.lo.extractLsb' 8 4).toInt)).toNat = true) :
    exec (.copyLoop w) s = .next { s with
      ctxs := tset s.ctxs s.curCtx { c.setE (w.lo.toNat % 8) (c.er (w.lo.toNat % 8) - 1) with
        pc := addInt c.pc (8 * (w.mid ++ w.lo.extractLsb' 8 4).toInt), pages := (tget s.wgs c.wg).elim [] Workgroup.pinned }, turn := .choose } := by
  have hgo := State.copyGo_on (k := s.curCtx) (d := c.setE (cwNum w) (c.er (cwNum w) - 1)) (dest := addInt c.pc (8 * cwLoop w)) (Or.inr (Or.inr h))
  have hexec : exec (.copyLoop w) s = done _ := copyOp_goes hc (fun k c s => if c.er (cwNum w) ≠ 0 then some (s.copyGo k (c.setE (cwNum w) (c.er (cwNum w) - 1)) (addInt c.pc (8 * cwLoop w)))
    else some (s.copyGo k c (c.pc + 8))) _ (if_pos hne)
  rw [hexec, hgo]
  rfl

theorem copyLoop_done (w : CopyWord) (hc : tget s.ctxs s.curCtx = some c) (h0 : c.er (w.lo.toNat % 8) = 0)
    (h : s.inCopy c.did c.start.toNat (c.pc + 8).toNat = true) :
    exec (.copyLoop w) s = .next { s with
      ctxs := tset s.ctxs s.curCtx { c with pc := c.pc + 8, pages := (tget s.wgs c.wg).elim [] Workgroup.pinned }, turn := .choose } := by
  have hgo := State.copyGo_on (k := s.curCtx) (d := c) (Or.inr (Or.inr h))
  have hexec : exec (.copyLoop w) s = done _ := copyOp_goes hc (fun k c s => if c.er (cwNum w) ≠ 0 then some (s.copyGo k (c.setE (cwNum w) (c.er (cwNum w) - 1)) (addInt c.pc (8 * cwLoop w)))
    else some (s.copyGo k c (c.pc + 8))) _ (if_neg (not_not.2 h0))
  rw [hexec, hgo]
  rfl

theorem copyBarr_next (w : CopyWord) (hc : tget s.ctxs s.curCtx = some c) (h : s.inCopy c.did c.start.toNat (c.pc + 8).toNat = true) :
    exec (.copyBarr w) s = .next { s with
      ctxs := tset s.ctxs s.curCtx { c with pc := c.pc + 8, pages := (tget s.wgs c.wg).elim [] Workgroup.pinned }, turn := .choose } := by
  have hgo := State.copyGo_on (k := s.curCtx) (d := c) (Or.inr (Or.inr h))
  have hexec : exec (.copyBarr w) s = done _ := copyOp_goes hc (fun k c s => some (s.copyGo k c (c.pc + 8))) _ rfl
  rw [hexec, hgo]
  rfl

theorem copyBarr_fault (w : CopyWord) (hc : tget s.ctxs s.curCtx = some c) (hcmd : c.cmd = none) (hown : c.own = none)
    (h : s.inCopy c.did c.start.toNat (c.pc + 8).toNat = false) :
    exec (.copyBarr w) s = .next { s.copyFault s.curCtx 2 0 (c.pc + 8) with turn := .choose } := by
  have hgo := State.copyGo_fault (k := s.curCtx) hcmd hown h
  have hexec : exec (.copyBarr w) s = done _ := copyOp_goes hc (fun k c s => some (s.copyGo k c (c.pc + 8))) _ rfl
  rw [hexec, hgo]
  rfl

theorem copyEnd_next (w : CopyWord) {r : Rope} (hc : tget s.ctxs s.curCtx = some c) (hr : tget s.ropes c.rope = some r) (hf : r.frame = none) :
    exec (.copyEnd w) s = .next { s with
      ctxs := terase s.ctxs s.curCtx, turn := .choose, ropes := tset s.ropes c.rope { r with copies := endIn r.copies c.id, cpc := (endIn r.copies c.id).length } } := by
  have hend : r.endCopy c = { r with copies := endIn r.copies c.id, cpc := (endIn r.copies c.id).length } := by
    unfold Rope.endCopy
    rw [hf]
  have hexec : exec (.copyEnd w) s = done _ := copyOp_goes hc (fun k c s => some (s.endCtx k c)) _ rfl
  rw [hexec, State.endCtx, onRope_eq (s := { s with ctxs := terase s.ctxs s.curCtx }) hr, hend]
  rfl

/-! Semaphores (R211). -/

theorem State.onMarks_wg {k : Nat} {w : Workgroup} (mk : Mark → Mark) (h : tget s.wgs k = some w) :
    ∃ m, tget (s.onMarks mk).wgs k = some { w with marks := m } := by
  have hm := tget_map_values s.wgs (fun w : Workgroup => { w with marks := w.marks.map (fun e : Nat × List Mark => (e.1, e.2.map mk)) }) k
  rw [h] at hm
  exact ⟨_, hm⟩

theorem semOp_next {w : CopyWord} {f : BitVec 16 → Option (BitVec 16)} {sync : State → Agent → Place → State} {g : Workgroup} {v : BitVec 16} {mk : Mark → Mark}
    (hc : tget s.ctxs s.curCtx = some c) (hg : tget s.wgs c.wg = some g) (hframe : c.inFrame = false) (hv : f (g.sem (cwNum w)) = some v)
    (hsync : sync (s.setWg c.wg { g with sems := rset 0 g.sems (cwNum w) v }) (.copy c.id) (semPlace c.wg (cwNum w)) =
      (s.setWg c.wg { g with sems := rset 0 g.sems (cwNum w) v }).onMarks mk)
    (h : s.inCopy c.did c.start.toNat (c.pc + 8).toNat = true) :
    semOp w f sync s = .next { (s.setWg c.wg { g with sems := rset 0 g.sems (cwNum w) v }).onMarks mk with
      ctxs := tset s.ctxs s.curCtx { c with pc := c.pc + 8, pages := g.pinned }, turn := .choose } := by
  obtain ⟨u, hu⟩ : ∃ u, u = (s.setWg c.wg { g with sems := rset 0 g.sems (cwNum w) v }).onMarks mk := ⟨_, rfl⟩
  obtain ⟨m, hm⟩ := State.onMarks_wg (s := s.setWg c.wg { g with sems := rset 0 g.sems (cwNum w) v }) mk (tget_tset_same _ _ _)
  rw [← hu] at hsync hm ⊢
  have hgo : u.copyGo s.curCtx c (c.pc + 8) = { u with ctxs := tset u.ctxs s.curCtx { c with
      pc := c.pc + 8, pages := (tget u.wgs c.wg).elim [] Workgroup.pinned } } := by
    refine State.copyGo_on (Or.inr (Or.inr ?_))
    rw [hu]
    exact h
  have hexec : semOp w f sync s = done (u.copyGo s.curCtx c (c.pc + 8)) := by
    unfold semOp
    refine copyOp_goes hc _ _ ?_
    rw [if_neg (by rw [hframe]; simp), hg]
    dsimp only
    rw [hv]
    dsimp only
    rw [hsync]
  rw [hexec, hgo, hm]
  rw [hu]
  rfl

theorem copySemw_waits {w : CopyWord} {g : Workgroup} (hc : tget s.ctxs s.curCtx = some c) (hg : tget s.wgs c.wg = some g) (hframe : c.inFrame = false)
    (h0 : g.sem (cwNum w) = 0) : exec (.copySemw w) s = .next s := by
  show execCopySemw w s = _
  unfold execCopySemw semOp
  refine copyOp_waits hc _ ?_
  rw [if_neg (by rw [hframe]; simp), hg]
  dsimp only
  rw [if_pos h0]

/-! The completion word (R211). -/

theorem State.spoil_host (s : State) (k : Nat) : (s.spoil k).host = s.host := by
  unfold State.spoil
  split
  · rfl
  · split <;> rfl

theorem State.writeScratch_host (s : State) (wg : Nat) (a : Option Agent) (num addr : Nat) (bs : List Byte) :
    (s.writeScratch wg a num addr bs).host = s.host := by
  unfold State.writeScratch State.raceFills
  refine Eq.trans (foldl_keeps State.host (fun u e => ?_) _ _) (s.onWg_host _ _)
  dsimp only
  split
  · split
    · exact u.spoil_host _
    · rfl
  · rfl

theorem copyDone_waits {w : CopyWord} {g : Workgroup} (hc : tget s.ctxs s.curCtx = some c) (hg : tget s.wgs c.wg = some g) (hframe : c.inFrame = false)
    (hin : w.hi.toNat + 4 ≤ g.scratchSize) (h : g.pinnedAt w.hi.toNat 4 = false ∨ s.behindRope c c.doneGoal w.hi.toNat = true) :
    exec (.copyDone w) s = .next s := by
  show execCopyDone w s = _
  unfold execCopyDone
  refine copyOp_waits hc _ ?_
  rw [hg]
  refine (if_neg (Nat.not_lt.2 hin)).trans ((if_neg (by rw [hframe]; simp)).trans (if_pos ?_))
  obtain h | h := h
  · rw [h]
    rfl
  · rw [h, Bool.or_true]

theorem State.behindRope_of {t : Target} {ad : Nat} (h : ∃ l ∈ s.log, l.rope = c.rope ∧ c.task = none ∧ l.kind ≠ 3 ∧ l.id < c.id ∧
    ∃ x ∈ l.lanes, s.storageLine (l.target s) x.addr = s.storageLine t ad) : s.behindRope c t ad = true := by
  obtain ⟨l, hl, hrope, htask, hkind, hid, x, hx, hline⟩ := h
  refine List.any_eq_true.2 ⟨l, hl, ?_⟩
  have hany : l.lanes.any (fun x => s.storageLine (l.target s) x.addr == s.storageLine t ad) = true :=
    List.any_eq_true.2 ⟨x, hx, beq_iff_eq.2 hline⟩
  rw [hany, hrope, htask, decide_eq_true hid]
  simp [hkind]

theorem copyDone_next {w : CopyWord} {g : Workgroup} (hc : tget s.ctxs s.curCtx = some c) (hg : tget s.wgs c.wg = some g) (hframe : c.inFrame = false)
    (hin : w.hi.toNat + 4 ≤ g.scratchSize) (hpin : g.pinnedAt w.hi.toNat 4 = true) (hbehind : s.behindRope c c.doneGoal w.hi.toNat = false)
    (hgo : c.cmd.isSome = true ∨ c.own.isSome = true ∨ s.inCopy c.did c.start.toNat (c.pc + 8).toNat = true) :
    ∃ t v, exec (.copyDone w) s = .next t ∧ tget t.wgs c.wg = some v ∧
      v.scratch = wrBytes g.scratch w.hi.toNat (leBytes 4 (c.er (w.lo.toNat % 8)).toNat) ∧ t.mem = s.mem ∧ t.host = s.host ∧
      tget t.ctxs s.curCtx = some { c with pc := c.pc + 8, pages := g.pinned } := by
  obtain ⟨u, hu⟩ : ∃ u, u = (s.writeScratch c.wg (some (.copy c.id)) s.nextId w.hi.toNat (leBytes 4 (c.er (cwNum w)).toNat)).publishes (.copy c.id) s.nextId
    ⟨spScratch, place c.wg w.hi.toNat, 4⟩ (some 3) false := ⟨_, rfl⟩
  have hexec : exec (.copyDone w) s = done (u.copyGo s.curCtx c (c.pc + 8)) := by
    show execCopyDone w s = _
    unfold execCopyDone
    refine copyOp_goes hc _ _ ?_
    rw [hg]
    refine (if_neg (Nat.not_lt.2 hin)).trans ((if_neg (by rw [hframe]; simp)).trans ((if_neg (by rw [hpin, hbehind]; simp)).trans ?_))
    rw [hu]
  have hout : u.outside = s.outside := by
    rw [hu]
    exact (State.publishes_outside _ _ _ _ _ _).trans (State.writeScratch_outside _ _ _ _ _ _)
  have hctxs : u.ctxs = s.ctxs := (congrArg State.ctxs hout :)
  have himages : u.images = s.images := (congrArg State.images hout :)
  obtain ⟨m, hm⟩ := State.writeScratch_wg hg (some (.copy c.id)) s.nextId w.hi.toNat (leBytes 4 (c.er (cwNum w)).toNat)
  obtain ⟨v, hv, hvs, hvp⟩ : ∃ v, tget u.wgs c.wg = some v ∧ v.scratch = wrBytes g.scratch w.hi.toNat (leBytes 4 (c.er (cwNum w)).toNat) ∧ v.pinned = g.pinned := by
    rw [hu]
    rw [State.publishes]
    generalize (fun q : Mark => _) = mk
    obtain ⟨m', hm'⟩ := State.onMarks_wg mk hm
    exact ⟨_, hm', rfl, rfl⟩
  have hmem : u.mem = s.mem := by
    rw [hu]
    exact State.writeScratch_mem _ _ _ _ _ _
  have hhost : u.host = s.host := by
    rw [hu]
    exact State.writeScratch_host _ _ _ _ _ _
  have hgo' : c.cmd.isSome = true ∨ c.own.isSome = true ∨ u.inCopy c.did c.start.toNat (c.pc + 8).toNat = true := by
    rw [State.inCopy, himages]
    exact hgo
  rw [State.copyGo_on hgo'] at hexec
  refine ⟨_, v, hexec, hv, hvs, hmem, hhost, (tget_tset_same _ _ _).trans ?_⟩
  rw [hv, ← hvp]
  rfl

end

end Sys2Proof.Machine
end

section
/-! PROOFS. The moves of a copy program (R209, R212 to R218). -/

namespace Sys2Proof.Machine

/-! Where a command writes. -/

theorem Move.bytes_of_noDst {m : Move} (h : m.dstOffs = []) (hd : HRef) (rd : Int → List Byte) : m.bytes hd rd = [] := by
  have hrows : ∀ p ∈ m.rows, m.n0 = 0 := by
    intro p hp
    have := List.flatMap_eq_nil_iff.1 h p hp
    simpa using this
  have hw : m.writes rd = [] := by
    unfold Move.writes
    split
    · have hruns : m.rows.flatMap (fun p => (List.range (m.n0 / 32)).map (fun b => (p.1, p.2, 32 * b))) = [] :=
        List.flatMap_eq_nil_iff.2 (fun p hp => by simp [hrows p hp])
      simp only [hruns]
      rfl
    · exact List.flatMap_eq_nil_iff.2 (fun p hp => by simp [hrows p hp])
  rw [Move.bytes, hw]
  rfl

theorem State.moveBytes_of_noDst (s : State) (c : CopyCtx) {m : Move} (h : m.dstOffs = []) (fill : Bool) (v : Word) (hs hd : HRef) :
    (s.moveBytes c m fill v hs hd).1 = [] := by
  unfold State.moveBytes
  simp only [Move.bytes_of_noDst h]
  split <;> rfl

theorem State.moveBytes_outside (s : State) (c : CopyCtx) (m : Move) (fill : Bool) (v : Word) (hs hd : HRef) :
    (s.moveBytes c m fill v hs hd).2.outside = s.outside := by
  unfold State.moveBytes
  exact State.outside_snd_ite _ rfl rfl

theorem State.moveRefused_outside (s : State) (args : List CopyArg) : (s.moveRefused args).2.outside = s.outside := by
  unfold State.moveRefused
  split <;> rfl

theorem hent_space {e : BitVec 256} (h : (hent e).ok = true) : (hent e).space < 5 := by
  simp only [hent, Bool.and_eq_true, decide_eq_true_eq] at h ⊢
  omega

theorem State.ctxHandle_ent (s : State) (c : CopyCtx) (n : Nat) : ∃ e, (s.ctxHandle c n).ent = hent e := by
  unfold State.ctxHandle
  split
  · simp only []
    split
    · exact ⟨_, rfl⟩
    · split <;> exact ⟨_, rfl⟩
  · exact ⟨_, rfl⟩

theorem copyStep_of_checks {s : State} {c : CopyCtx} {args : List CopyArg} (h : s.copyChecks c args = none) {n : Nat} (hn : n ∈ [1, 2, 3, 4, 5, 6, 7, 8])
    {a : CopyArg} (ha : a ∈ args) : s.copyStep c n a = none :=
  List.findSome?_eq_none_iff.1 (List.findSome?_eq_none_iff.1 h n hn) a ha

/-- A command that passes its checks writes in no CTRL space. -/
theorem dstSpace_of_checks {s : State} {c : CopyCtx} {m : Move} {fill : Bool} {hs : HRef} (h : s.copyChecks c (m.args fill hs (s.ctxHandle c m.dstH)) = none)
    (hne : m.dstOffs ≠ []) : (s.ctxHandle c m.dstH).ent.space ≠ spCtrl ∧ (s.ctxHandle c m.dstH).ent.space < 5 := by
  obtain ⟨e, he⟩ := s.ctxHandle_ent c m.dstH
  have hmem : (⟨s.ctxHandle c m.dstH, 2, max 1 (m.dbits / 8), m.dbits != 4 || (m.dst % 16 == 0 && m.ds1 % 16 == 0 && m.ds2 % 16 == 0), m.dstOffs⟩ : CopyArg) ∈
      m.args fill hs (s.ctxHandle c m.dstH) := List.mem_append_right _ List.mem_cons_self
  obtain ⟨o, ho⟩ := List.exists_mem_of_ne_nil _ hne
  have hany : ∀ (p : Int → Bool) r, (if m.dstOffs.any p then some r else none : Option (Nat × Nat)) = none → p o = false := by
    intro p r hp
    by_contra hc
    rw [if_pos (List.any_eq_true.2 ⟨o, ho, by simpa using hc⟩)] at hp
    cases hp
  have hok := hany _ _ (copyStep_of_checks h (n := 2) (by decide) hmem)
  have hctrl := hany _ _ (copyStep_of_checks h (n := 3) (by decide) hmem)
  rw [Bool.or_eq_false_iff, Bool.not_eq_false'] at hok
  refine ⟨by simpa using hctrl, ?_⟩
  rw [he] at hok ⊢
  exact hent_space hok.1

/-! XFER and FILL (R212 to R215). -/

/-- The move that a context's command stands for. -/
def CopyCtx.moveHere (c : CopyCtx) (fill : Bool) (w : CopyWord) (sh : Shape) : Option Move :=
  match c.cmd with
  | some d => some d.move
  | none => if (c.marked w.lo sh).2 then moveOf fill (c.marked w.lo sh).1 else none

section
variable {s : State} {c : CopyCtx} {w : CopyWord} {sh : Shape} {m : Move} {fill : Bool}

theorem exec_move (fill : Bool) (w : CopyWord) (sh : Shape) (s : State) : exec (if fill then .copyFill w sh else .copyXfer w sh) s = moveOp fill w sh s := by
  cases fill <;> rfl

/-- The move of a command that is let through. -/
theorem moveOp_lets (hc : tget s.ctxs s.curCtx = some c) (hm : c.moveHere fill w sh = some m)
    (hchecks : s.copyChecks c (m.args fill (s.ctxHandle c m.srcH) (s.ctxHandle c m.dstH)) = none)
    (hwaits : s.moveWaits c (m.args fill (s.ctxHandle c m.srcH) (s.ctxHandle c m.dstH)) = false)
    (hfault : s.moveFault c (m.args fill (s.ctxHandle c m.srcH) (s.ctxHandle c m.dstH)) = none)
    (hpoison : s.movePoisoned c (m.args fill (s.ctxHandle c m.srcH) (s.ctxHandle c m.dstH)) = none) {bytes : List (Nat × Byte)} {s0 s1 : State} {no : Bool}
    (hbytes : s.moveBytes c m fill w.hi (s.ctxHandle c m.srcH) (s.ctxHandle c m.dstH) = (bytes, s0))
    (href : s0.moveRefused (m.args fill (s.ctxHandle c m.srcH) (s.ctxHandle c m.dstH)) = (no, s1)) :
    moveOp fill w sh s = done (if no then (s1.partMove c (s.ctxHandle c m.dstH) bytes true).copyFault s.curCtx 9 6
        (BitVec.ofNat 64 (linkAddr (m.args fill (s.ctxHandle c m.srcH) (s.ctxHandle c m.dstH))))
      else (s1.doMove c (s.ctxHandle c m.srcH) (s.ctxHandle c m.dstH) (if fill then [] else m.srcOffs) bytes).copyGo s.curCtx c (c.pc + 56)) := by
  unfold moveOp
  refine copyOp_goes hc _ _ ?_
  dsimp only
  split
  · next hnone => cases (show c.moveHere fill w sh = none from hnone).symm.trans hm
  · next m' hm' =>
    obtain rfl := Option.some.inj ((show c.moveHere fill w sh = some m' from hm').symm.trans hm)
    rw [hchecks]
    refine (if_neg (by rw [hwaits, hfault]; simp)).trans ?_
    rw [hpoison]
    dsimp only
    rw [hbytes]
    dsimp only
    rw [href]
    cases no <;> rfl

theorem move_next (hc : tget s.ctxs s.curCtx = some c) (hcmd : c.cmd = none) (hok : (c.marked w.lo sh).2 = true)
    (hm : moveOf fill (c.marked w.lo sh).1 = some m)
    (hchecks : s.copyChecks c (m.args fill (s.ctxHandle c m.srcH) (s.ctxHandle c m.dstH)) = none)
    (hwaits : s.moveWaits c (m.args fill (s.ctxHandle c m.srcH) (s.ctxHandle c m.dstH)) = false)
    (hfault : s.moveFault c (m.args fill (s.ctxHandle c m.srcH) (s.ctxHandle c m.dstH)) = none)
    (hpoison : s.movePoisoned c (m.args fill (s.ctxHandle c m.srcH) (s.ctxHandle c m.dstH)) = none) {bytes : List (Nat × Byte)} {s0 s1 : State}
    (hbytes : s.moveBytes c m fill w.hi (s.ctxHandle c m.srcH) (s.ctxHandle c m.dstH) = (bytes, s0))
    (href : s0.moveRefused (m.args fill (s.ctxHandle c m.srcH) (s.ctxHandle c m.dstH)) = (false, s1))
    (hgo : c.own.isSome = true ∨ s.inCopy c.did c.start.toNat (c.pc + 56).toNat = true) {t : State}
    (ht : t = s1.doMove c (s.ctxHandle c m.srcH) (s.ctxHandle c m.dstH) (if fill then [] else m.srcOffs) bytes) :
    exec (if fill then .copyFill w sh else .copyXfer w sh) s =
      .next { t with ctxs := tset t.ctxs s.curCtx { c with pc := c.pc + 56, pages := (tget t.wgs c.wg).elim [] Workgroup.pinned }, turn := .choose } := by
  have hmove : c.moveHere fill w sh = some m := by
    unfold CopyCtx.moveHere
    rw [hcmd]
    exact (if_pos hok).trans hm
  have hout : t.outside = s.outside := by
    have h0 := s.moveBytes_outside c m fill w.hi (s.ctxHandle c m.srcH) (s.ctxHandle c m.dstH)
    have h1 := s0.moveRefused_outside (m.args fill (s.ctxHandle c m.srcH) (s.ctxHandle c m.dstH))
    rw [hbytes] at h0
    rw [href] at h1
    rw [ht]
    refine (State.doMove_outside _ _ _ _ _ (fun hne => dstSpace_of_checks hchecks (fun hnil => hne ?_))).trans (h1.trans h0)
    have := s.moveBytes_of_noDst c hnil fill w.hi (s.ctxHandle c m.srcH) (s.ctxHandle c m.dstH)
    rwa [hbytes] at this
  have himages : t.images = s.images := (congrArg State.images hout :)
  have hgo' : c.cmd.isSome = true ∨ c.own.isSome = true ∨ t.inCopy c.did c.start.toNat (c.pc + 56).toNat = true := by
    refine Or.inr (hgo.imp_right (fun h => ?_))
    rw [State.inCopy, himages]
    exact h
  rw [exec_move, moveOp_lets hc hmove hchecks hwaits hfault hpoison hbytes href, if_neg (by simp), ← ht, State.copyGo_on hgo']
  rfl

end

end Sys2Proof.Machine
end

section
/-! PROOFS. A byte run between places of HOST memory (R209, R215), and the words of a copy program together. -/

namespace Sys2Proof.Machine

/-! Copy faults and HOST places. -/

theorem State.onRope_shape (s : State) (k : Nat) (g : Rope → Rope) : ∃ r, s.onRope k g = { s with ropes := r } := by
  unfold State.onRope
  split
  · exact ⟨_, rfl⟩
  · exact ⟨s.ropes, rfl⟩

theorem State.copyFault_shape {s : State} {k : Nat} {c : CopyCtx} (hc : tget s.ctxs k = some c) (cause reason : Nat) (addr : DWord) :
    ∃ r f, s.copyFault k cause reason addr = { s with ctxs := terase s.ctxs k, ropes := r, faults := f } := by
  unfold State.copyFault
  rw [hc]
  dsimp only
  split
  · exact ⟨_, _, rfl⟩
  · obtain ⟨r, hr⟩ := State.onRope_shape { s with ctxs := terase s.ctxs k } c.rope (fun r => r.endCopy c)
    rw [State.endCtx, hr]
    split
    · split
      · split
        · exact ⟨_, _, rfl⟩
        · exact ⟨_, _, rfl⟩
      · obtain ⟨r', hr'⟩ := State.onRope_shape { s with ctxs := terase s.ctxs k, ropes := r } c.rope
          (fun q => { q with held := q.held ++ [⟨copyTrap c cause reason addr, none, none⟩] })
        exact ⟨r', _, hr'⟩
    · exact ⟨_, _, rfl⟩

/-- The memories and the contexts. -/
def State.held (s : State) : Tbl Byte × Tbl Byte × Tbl Byte × Tbl CopyCtx := (s.mem, s.host, s.peer, s.ctxs)

theorem State.released_held (s : State) (t : Target) (fr a n : Nat) (rmw : Bool) : (s.released t fr a n rmw).held = s.held := by
  unfold State.released
  split
  · split <;> rfl
  · rfl

theorem State.poked_held (s : State) (t : Target) (l : List Nat) (rmw : Bool) : (s.poked t l rmw).held = s.held := by
  unfold State.poked
  refine foldl_keeps State.held (fun u r => ?_) _ s
  split
  · refine foldl_keeps State.held (fun v p => ?_) _ u
    split
    · exact v.released_held _ _ _ _ _
    · rfl
  · exact u.released_held _ _ _ _ _

theorem State.healLines_held (s : State) (t : Target) (l : List Nat) : (s.healLines t l).held = s.held := by
  unfold State.healLines
  split <;> rfl

section
variable {t : Target}

theorem poke_host (ht : t.space = spHost) (s : State) (a : Nat) (b : Byte) : s.poke t a b = { s with host := wrBytes s.host a [b] } := by
  unfold State.poke
  rw [if_neg (by rw [ht]; decide), writeAt_host ht]

theorem peek_host (ht : t.space = spHost) (s : State) (a n : Nat) : s.peek t a n = rdBytes s.host a n := by
  unfold State.peek
  split <;> exact readAt_host ht _ _ _

theorem storage_host (ht : t.space = spHost) (s : State) (a : Nat) : s.storage t a = (2, 0, a) := by
  unfold State.storage
  rw [ht]
  rfl

theorem foldl_poke_host (ht : t.space = spHost) (l : List (Nat × Byte)) (s : State) :
    l.foldl (fun (u : State) p => u.poke t p.1 p.2) s = { s with host := l.foldl (fun h p => wrBytes h p.1 [p.2]) s.host } := by
  induction l generalizing s with
  | nil => rfl
  | cons p l ih =>
    rw [List.foldl_cons, ih, poke_host ht]
    rfl

end

/-- What a move between HOST places leaves alone. -/
def State.offHost (s : State) : Tbl Byte × Tbl Byte × Tbl CopyCtx := (s.mem, s.peer, s.ctxs)

theorem offHost_of_held {s t : State} (h : s.held = t.held) : s.offHost = t.offHost := by
  simp only [State.held, Prod.mk.injEq] at h
  obtain ⟨h1, -, h3, h4⟩ := h
  rw [State.offHost, State.offHost, h1, h3, h4]

section
variable {hd hs : HRef}

theorem partMove_offHost (hh : hd.ent.space = spHost) (s : State) (c : CopyCtx) (l : List (Nat × Byte)) (ok : Bool) :
    (s.partMove c hd l ok).offHost = s.offHost := by
  unfold State.partMove
  refine foldl_keeps State.offHost (fun u ch => ?_) _ s
  dsimp only
  split
  · refine (offHost_of_held ((State.healLines_held _ _ _).trans (State.poked_held _ _ _ _))).trans ?_
    rw [foldl_poke_host (t := s.ctxGoal c hd) hh]
    rfl
  · rfl

theorem doMove_host (hh : hd.ent.space = spHost) (hh' : hs.ent.space = spHost) (s : State) (c : CopyCtx) (srcs : List Int) (l : List (Nat × Byte)) :
    (s.doMove c hs hd srcs l).held = (s.mem, l.foldl (fun h p => wrBytes h p.1 [p.2]) s.host, s.peer, s.ctxs) := by
  have htouch : s.touch (s.ctxGoal c hs) (srcs.map (fun o => ((hs.ent.base : Int) + o).toNat)) = s := by
    unfold State.touch
    exact if_neg (show ¬ hs.ent.space = spGlobal by rw [hh']; decide)
  unfold State.doMove
  refine (State.healLines_held _ _ _).trans ((State.poked_held _ _ _ _).trans ?_)
  rw [htouch, foldl_poke_host (t := s.ctxGoal c hd) hh]
  rfl

/-! The byte run (R209). -/

theorem rdByte_foldl_run (f : Nat → Byte) (lo n : Nat) (m : Tbl Byte) (a : Nat) :
    rdByte (((List.range n).map (fun i => (lo + i, f i))).foldl (fun h p => wrBytes h p.1 [p.2]) m) a =
      if lo ≤ a ∧ a < lo + n then f (a - lo) else rdByte m a := by
  induction n with
  | zero => simp
  | succ n ih =>
    rw [List.range_succ, List.map_append, List.foldl_append]
    show rdByte (wrByte _ (lo + n) (f n)) a = _
    rw [rdByte_wrByte, ih]
    by_cases ha : a = lo + n
    · rw [if_pos ha, if_pos (by omega), ha, Nat.add_sub_cancel_left]
    · rw [if_neg ha]
      exact if_congr (by omega) rfl rfl

theorem CpCmd.run_srcOffs {d : CpCmd} (hw : d.wrap = false) : d.move.srcOffs = (List.range d.len).map (fun i => ((d.src + i : Nat) : Int)) := by
  show (List.range d.len).map (fun i => d.move.so 0 0 i) ++ [] = _
  rw [List.append_nil]
  refine List.map_congr_left (fun i _ => ?_)
  show (if d.wrap then _ else ((d.src : Int) + (0 : Nat) * 0 + (0 : Nat) * 0 + (i : Nat) * (1 : Nat))) = _
  rw [hw, if_neg (by simp)]
  push_cast
  ring

theorem CpCmd.run_bytes {d : CpCmd} (hw : d.wrap = false) (hd hs : HRef) (h : Tbl Byte) :
    d.move.bytes hd (fun o => rdBytes h ((hs.ent.base : Int) + o).toNat 1) =
      (List.range d.len).map (fun i => (hd.ent.base + d.dst + i, rdByte h (hs.ent.base + d.src + i))) := by
  have hso : ∀ i, d.move.so 0 0 i = ((d.src + i : Nat) : Int) := fun i => by
    show (if d.wrap then _ else ((d.src : Int) + (0 : Nat) * 0 + (0 : Nat) * 0 + (i : Nat) * (1 : Nat))) = _
    rw [hw, if_neg (by simp)]
    push_cast
    ring
  have hdo : ∀ i, d.move.dof 0 0 i = ((d.dst + i : Nat) : Int) := fun i => by
    show (if d.wrap then _ else ((d.dst : Int) + (0 : Nat) * 0 + (0 : Nat) * 0 + ((i * (8 * 1) / 8 : Nat) : Int))) = _
    rw [hw, if_neg (by simp), Nat.mul_one, Nat.mul_div_cancel _ (by decide)]
    push_cast
    ring
  have hwrites : d.move.writes (fun o => rdBytes h ((hs.ent.base : Int) + o).toNat 1) =
      (List.range d.len).map (fun i => (false, d.move.dof 0 0 i, rdBytes h ((hs.ent.base : Int) + d.move.so 0 0 i).toNat 1)) := by
    show (List.range d.len).map _ ++ [] = _
    rw [List.append_nil]
    rfl
  rw [Move.bytes, hwrites, List.flatMap_map, List.map_eq_flatMap]
  refine congrArg (fun f => (List.range d.len).flatMap f) (funext fun i => ?_)
  dsimp only
  rw [hso, hdo]
  show [((((hd.ent.base : Int) + ((d.dst + i : Nat) : Int)).toNat + 0), rdByte h (((hs.ent.base : Int) + ((d.src + i : Nat) : Int)).toNat + 0))] = _
  rw [← Int.natCast_add, ← Int.natCast_add, Int.toNat_natCast, Int.toNat_natCast, Nat.add_zero, Nat.add_zero, Nat.add_assoc, Nat.add_assoc]

end

section
variable {s : State} {c : CopyCtx} {d : CpCmd} {w : CopyWord} {sh : Shape}

/-- The bytes of a byte run between HOST places of which neither meets the other. -/
theorem moveBytes_run (hcmd : d.wrap = false) {hs hd : HRef} (h1 : hs.ent.space = spHost) (h2 : hd.ent.space = spHost)
    (hapart : ∀ i < d.len, hs.ent.base + d.src + d.len ≤ hd.ent.base + d.dst + i ∨ hd.ent.base + d.dst + i < hs.ent.base + d.src) (v : Word) :
    s.moveBytes c d.move false v hs hd =
      ((List.range d.len).map (fun i => (hd.ent.base + d.dst + i, rdByte s.host (hs.ent.base + d.src + i))), s) := by
  have hrd : (fun o : Int => s.peek (s.ctxGoal c hs) ((hs.ent.base : Int) + o).toNat d.move.esize) = fun o => rdBytes s.host ((hs.ent.base : Int) + o).toNat 1 :=
    funext fun o => peek_host (t := s.ctxGoal c hs) h1 s _ _
  have hl : d.move.bytes hd (fun o : Int => s.peek (s.ctxGoal c hs) ((hs.ent.base : Int) + o).toNat d.move.esize) =
      (List.range d.len).map (fun i => (hd.ent.base + d.dst + i, rdByte s.host (hs.ent.base + d.src + i))) := by
    rw [hrd]
    exact CpCmd.run_bytes hcmd hd hs s.host
  unfold State.moveBytes
  simp only [Bool.false_eq_true, if_false]
  rw [hl]
  refine if_pos (List.all_eq_true.2 (fun p hp => ?_))
  obtain ⟨i, hi, rfl⟩ := List.mem_map.1 hp
  have hi := hapart i (List.mem_range.1 hi)
  rw [Bool.not_eq_true', ← Bool.not_eq_true, List.contains_iff_mem, List.mem_flatMap]
  rintro ⟨o, ho, hin⟩
  rw [CpCmd.run_srcOffs hcmd] at ho
  obtain ⟨j, hj, rfl⟩ := List.mem_map.1 ho
  obtain ⟨k, hk, heq⟩ := List.mem_map.1 hin
  have hj := List.mem_range.1 hj
  have hk : k < 1 := List.mem_range.1 hk
  rw [storage_host (t := s.ctxGoal c hs) h1, storage_host (t := s.ctxGoal c hd) h2] at heq
  have hat : ((hs.ent.base : Int) + ((d.src + j : Nat) : Int)).toNat + k = hd.ent.base + d.dst + i := congrArg (fun x : Nat × Nat × Nat => x.2.2) heq
  omega

theorem copyXfer_run (hc : tget s.ctxs s.curCtx = some c) (hcmd : c.cmd = some d)
    (h1 : (s.ctxHandle c d.move.srcH).ent.space = 2) (h2 : (s.ctxHandle c d.move.dstH).ent.space = 2) (hw : d.wrap = false)
    (hchecks : s.copyChecks c (d.move.args false (s.ctxHandle c d.move.srcH) (s.ctxHandle c d.move.dstH)) = none)
    (hwaits : s.moveWaits c (d.move.args false (s.ctxHandle c d.move.srcH) (s.ctxHandle c d.move.dstH)) = false)
    (hfault : s.moveFault c (d.move.args false (s.ctxHandle c d.move.srcH) (s.ctxHandle c d.move.dstH)) = none)
    (hpoison : s.movePoisoned c (d.move.args false (s.ctxHandle c d.move.srcH) (s.ctxHandle c d.move.dstH)) = none)
    (hapart : ∀ i < d.len, (s.ctxHandle c d.move.srcH).ent.base + d.src + d.len ≤ (s.ctxHandle c d.move.dstH).ent.base + d.dst + i ∨
      (s.ctxHandle c d.move.dstH).ent.base + d.dst + i < (s.ctxHandle c d.move.srcH).ent.base + d.src) :
    ∃ t, exec (.copyXfer w sh) s = .next t ∧ t.mem = s.mem ∧ t.peer = s.peer ∧
      ((s.moveRefused (d.move.args false (s.ctxHandle c d.move.srcH) (s.ctxHandle c d.move.dstH))).1 = true → tget t.ctxs s.curCtx = none) ∧
      ((s.moveRefused (d.move.args false (s.ctxHandle c d.move.srcH) (s.ctxHandle c d.move.dstH))).1 = false → ∀ a, rdByte t.host a =
        if (s.ctxHandle c d.move.dstH).ent.base + d.dst ≤ a ∧ a < (s.ctxHandle c d.move.dstH).ent.base + d.dst + d.len
        then rdByte s.host ((s.ctxHandle c d.move.srcH).ent.base + d.src + (a - ((s.ctxHandle c d.move.dstH).ent.base + d.dst))) else rdByte s.host a) := by
  generalize hhs : s.ctxHandle c d.move.srcH = hs at *
  generalize hhd : s.ctxHandle c d.move.dstH = hd at *
  have hmove : c.moveHere false w sh = some d.move := by
    unfold CopyCtx.moveHere
    rw [hcmd]
  have hbytes := moveBytes_run (s := s) (c := c) hw h1 h2 hapart w.hi
  cases href : s.moveRefused (d.move.args false hs hd) with
  | mk no s1 =>
    have hlets := moveOp_lets (fill := false) (s0 := s) (s1 := s1) (no := no)
      (bytes := (List.range d.len).map (fun i => (hd.ent.base + d.dst + i, rdByte s.host (hs.ent.base + d.src + i)))) hc hmove
      (by rw [hhs, hhd]; exact hchecks) (by rw [hhs, hhd]; exact hwaits) (by rw [hhs, hhd]; exact hfault)
      (by rw [hhs, hhd]; exact hpoison) (by rw [hhs, hhd]; exact hbytes) (by rw [hhs, hhd]; exact href)
    rw [hhs, hhd] at hlets
    have hexec : exec (.copyXfer w sh) s = moveOp false w sh s := rfl
    have hheld : s1.held = s.held := by
      have h : (s.moveRefused (d.move.args false hs hd)).2.held = s.held := by
        unfold State.moveRefused
        split <;> rfl
      rw [href] at h
      exact h
    cases no with
    | true =>
      rw [if_pos rfl] at hlets
      have hoff := (partMove_offHost h2 s1 c ((List.range d.len).map (fun i => (hd.ent.base + d.dst + i, rdByte s.host (hs.ent.base + d.src + i)))) true).trans
        (offHost_of_held hheld)
      generalize s1.partMove c hd _ true = v at hlets hoff
      have hvc : tget v.ctxs s.curCtx = some c := by
        rw [show v.ctxs = s.ctxs from congrArg (fun x => x.2.2) hoff]
        exact hc
      obtain ⟨r, f, hshape⟩ := State.copyFault_shape hvc 9 6 (BitVec.ofNat 64 (linkAddr (d.move.args false hs hd)))
      rw [hshape] at hlets
      exact ⟨_, hexec.trans hlets, congrArg (fun x => x.1) hoff, congrArg (fun x => x.2.1) hoff,
        fun _ => (tget_terase _ _ _).trans (if_pos rfl), fun h => by cases h⟩
    | false =>
      rw [if_neg (by simp)] at hlets
      have hdone := doMove_host h2 h1 s1 c d.move.srcOffs ((List.range d.len).map (fun i => (hd.ent.base + d.dst + i, rdByte s.host (hs.ent.base + d.src + i))))
      simp only [Bool.false_eq_true, if_false] at hlets
      generalize s1.doMove c hs hd _ _ = v at hlets hdone
      rw [State.copyGo_on (Or.inl (show c.cmd.isSome = true by rw [hcmd]; rfl))] at hlets
      have hmem : v.mem = s.mem := (congrArg (fun x => x.1) hdone).trans (congrArg (fun x => x.1) hheld)
      have hpeer : v.peer = s.peer := (congrArg (fun x => x.2.2.1) hdone).trans (congrArg (fun x => x.2.2.1) hheld)
      have hhost : v.host = _ := congrArg (fun x => x.2.1) hdone
      rw [show s1.host = s.host from congrArg (fun x => x.2.1) hheld] at hhost
      refine ⟨_, hexec.trans hlets, hmem, hpeer, (fun h => by cases h), fun _ a => ?_⟩
      show rdByte v.host a = _
      rw [hhost]
      exact rdByte_foldl_run (fun i => rdByte s.host (hs.ent.base + d.src + i)) _ _ _ _

theorem copySems_next {g : Workgroup} (hc : tget s.ctxs s.curCtx = some c) (hg : tget s.wgs c.wg = some g) (hf : c.inFrame = false)
    (h : s.inCopy c.did c.start.toNat (c.pc + 8).toNat = true) :
    exec (.copySems w) s = .next { (s.setWg c.wg { g with sems := rset 0 g.sems (cwNum w) (if g.sem (cwNum w) = 0xFFFF then 0xFFFF else g.sem (cwNum w) + 1) }).publishes
        (.copy c.id) s.nextId (semPlace c.wg (cwNum w)) (some 1) true with ctxs := tset s.ctxs s.curCtx { c with pc := c.pc + 8, pages := g.pinned }, turn := .choose } := by
  generalize hv : (if g.sem (cwNum w) = 0xFFFF then (0xFFFF : BitVec 16) else g.sem (cwNum w) + 1) = v
  obtain ⟨u, hu⟩ : ∃ u, u = s.setWg c.wg { g with sems := rset 0 g.sems (cwNum w) v } := ⟨_, rfl⟩
  have hsync : (fun (t : State) a p => t.publishes a t.nextId p (some 1) true) u (.copy c.id) (semPlace c.wg (cwNum w)) =
      u.onMarks (fun m => m.publish (.copy c.id) (u.agentAt (.copy c.id)) u.nextId (semPlace c.wg (cwNum w)) (some 1) true) := rfl
  rw [hu] at hsync
  refine semOp_next (f := fun v => some (if v = 0xFFFF then v else v + 1)) (sync := fun (t : State) a p => t.publishes a t.nextId p (some 1) true) (w := w) hc hg hf ?_ hsync h
  rw [← hv]
  refine congrArg some ?_
  split
  · next h1 => exact h1
  · rfl

theorem copySemw_next {g : Workgroup} (hc : tget s.ctxs s.curCtx = some c) (hg : tget s.wgs c.wg = some g) (hf : c.inFrame = false) (h0 : g.sem (cwNum w) ≠ 0)
    (h : s.inCopy c.did c.start.toNat (c.pc + 8).toNat = true) :
    exec (.copySemw w) s = .next { (s.setWg c.wg { g with sems := rset 0 g.sems (cwNum w) (g.sem (cwNum w) - 1) }).observes
        (.copy c.id) s.nextId (semPlace c.wg (cwNum w)) (some 1) with ctxs := tset s.ctxs s.curCtx { c with pc := c.pc + 8, pages := g.pinned }, turn := .choose } := by
  obtain ⟨u, hu⟩ : ∃ u, u = s.setWg c.wg { g with sems := rset 0 g.sems (cwNum w) (g.sem (cwNum w) - 1) } := ⟨_, rfl⟩
  have hsync : (fun (t : State) a p => t.observes a t.nextId p (some 1)) u (.copy c.id) (semPlace c.wg (cwNum w)) =
      u.onMarks (fun m => m.observe u (.copy c.id) u.nextId (semPlace c.wg (cwNum w)) (some 1)) := rfl
  rw [hu] at hsync
  exact semOp_next (f := fun v => if v = 0 then none else some (v - 1)) (sync := fun (t : State) a p => t.observes a t.nextId p (some 1)) (w := w) hc hg hf (if_neg h0) hsync h

end

/-- Settles O48: each word by what the running context does, moves by the bytes that they write in order. -/
theorem copyWordsRun : Obligations.CopyWordsRun := by
  unfold Obligations.CopyWordsRun
  refine ⟨fun s c w hc _ _ h => copySete_next w hc h, fun s c w hc _ _ h => copyAdde_next w hc h, fun s c w hc _ _ h0 h => copyLoop_taken w hc h0 h,
    fun s c w hc _ _ h0 h => copyLoop_done w hc h0 h, fun s c w g hc _ _ hf hg h => ⟨?_, fun h0 => ?_, fun h0 => ?_⟩,
    fun s c w hc _ _ h => copyBarr_next w hc h, fun s c w g hc hg hf h1 h2 h3 h4 => copyDone_next hc hg hf h1 h2 h3 h4,
    fun s c w g hc hg hf h1 h2 => copyDone_waits hc hg hf h1 (h2.imp_right State.behindRope_of), fun s c w r hc hr hf => copyEnd_next w hc hr hf,
    fun s c w hc hcmd hown h => copyBarr_fault w hc hcmd hown h,
    fun s c w sh m fill bytes s0 s1 hc hcmd hok hm h1 h2 h3 h4 h5 h6 h7 => move_next hc hcmd hok hm h1 h2 h3 h4 h5 h6 h7 rfl,
    fun s c w sh d hc hcmd h1 h2 hw h3 h4 h5 h6 h7 => copyXfer_run hc hcmd h1 h2 hw h3 h4 h5 h6 h7⟩
  · exact copySems_next hc hg hf h
  · exact copySemw_next hc hg hf h0 h
  · exact copySemw_waits hc hg hf h0

end Sys2Proof.Machine
end

section
/-! PROOFS. A read of a logical buffer puts the version with its new reader among the renames (R250, R251). -/

namespace Sys2Proof.Machine

/-- A bound version of a logical buffer. -/
def boundVersion : Version := ⟨0, true, 0, 0, []⟩

/-- A stream with logical buffer 0 bound. -/
def boundStream : Stream :=
  { did := 1, num := 0, valid := true, ring := 0, log2n := 6, prioOv := false, prio := 0, pcap := 0, budOv := false, fhOv := false, hub := 0
    slotMask := 1, budget := 0, fhrec := 0, fhsig := 0, lbmap := 0, save := 0, resvd := false, head := 1, tail := 2, decode := 1
    state := .running, mapped := true, slot := 0, window := [], dmap := [(0, boundVersion)], rmap := [(0, boundVersion)], ended := false, resv := 0
    pending := false, since := 0, mappedAt := 0, eff := 0, mprio := 0, mcap := 0, mbudget := 0, mfhrec := 0, mfhsig := 0, faultIdx := 0
    faultN := 0, faultTop := 0, recorded := false, got := [], heldCtl := none }

/-- The decode of a TCOPY by that stream. -/
def boundDecode : Dc := ⟨State.reset, boundStream, Task.fresh 1 1 3 ⟨3, false, 0, 0, 0, 0, 0, 0, 0, []⟩⟩

theorem useLb_read_renames :
    (boundDecode.useLb 0 .r 0).toOption.map (fun e => e.1.k.renames) = some [(0, some { boundVersion with readers := [1] })] := rfl

/-- Refutes O49: a task that reads a bound logical buffer has its version, with itself as a reader, among its renames, which were none. -/
theorem not_tasksAreDecodedIntoTheWindow : ¬ Obligations.TasksAreDecodedIntoTheWindow := by
  unfold Obligations.TasksAreDecodedIntoTheWindow
  rintro ⟨-, -, -, -, -, -, -, -, -, -, -, -, -, huse, -⟩
  obtain ⟨⟨e, he, -, -, hrenames, -⟩, -⟩ := huse boundDecode 0 boundVersion 0 rfl
  have hsome := useLb_read_renames
  rw [he] at hsome
  have hnone : e.k.renames = [] := hrenames
  have hone : e.k.renames = [(0, some { boundVersion with readers := [1] })] := Option.some.inj hsome
  cases hone.symm.trans hnone

end Sys2Proof.Machine
end

section
/-! PROOFS. A result that is cut off, with a last bit that says whether something was cut, is rounded as the exact result is; reciprocals
and square roots are such (R202). -/

namespace Sys2Proof.Machine

/-! Numbers that no multiple of a unit tells apart. -/

/-- Two numbers lie alike to every multiple of `g`. -/
def SameCell (g x y : ℝ) : Prop := ∀ b : ℤ, ((b : ℝ) * g < x ↔ (b : ℝ) * g < y) ∧ (x < b * g ↔ y < b * g)

theorem SameCell.refl (g x : ℝ) : SameCell g x x := fun _ => ⟨Iff.rfl, Iff.rfl⟩

/-- Two numbers strictly between a multiple of `g` and the next one. -/
theorem sameCell_of_between {g x y : ℝ} (hg : 0 < g) {a : ℤ} (hx0 : a * g < x) (hx1 : x < (a + 1) * g) (hy0 : a * g < y) (hy1 : y < (a + 1) * g) :
    SameCell g x y := by
  have hlow : ∀ {z : ℝ} (b : ℤ), a * g < z → z < (a + 1) * g → (b * g < z ↔ b ≤ a) ∧ (z < b * g ↔ a < b) := by
    intro z b h0 h1
    rcases le_or_gt b a with hb | hb
    · have hba : (b : ℝ) * g ≤ a * g := mul_le_mul_of_nonneg_right (by exact_mod_cast hb) hg.le
      exact ⟨iff_of_true (by linarith) hb, iff_of_false (by linarith) (not_lt.2 hb)⟩
    · have hab : ((a : ℝ) + 1) * g ≤ b * g := mul_le_mul_of_nonneg_right (by exact_mod_cast hb) hg.le
      exact ⟨iff_of_false (by linarith) (not_le.2 hb), iff_of_true (by linarith) hb⟩
  intro b
  obtain ⟨hx, hx'⟩ := hlow b hx0 hx1
  obtain ⟨hy, hy'⟩ := hlow b hy0 hy1
  exact ⟨hx.trans hy.symm, hx'.trans hy'.symm⟩

section
variable {g x y : ℝ} (h : SameCell g x y)
include h

theorem SameCell.le (b : ℤ) : (b * g ≤ x ↔ b * g ≤ y) ∧ (x ≤ b * g ↔ y ≤ b * g) :=
  ⟨by rw [← not_lt, (h b).2, not_lt], by rw [← not_lt, (h b).1, not_lt]⟩

theorem SameCell.eq (b : ℤ) : b * g = x ↔ b * g = y := by
  rw [le_antisymm_iff, le_antisymm_iff, (h.le b).1, (h.le b).2]

/-- A quantum of which `g` divides the half rounds both to the same multiple. -/
theorem SameCell.roundsTo {rm : Nat} {s : Bool} {q : ℝ} {N n : Nat} (hq : q = 2 * (N * g)) (hr : RoundsTo rm s y q n) : RoundsTo rm s x q n := by
  have hmid : ∀ d : ℤ, ∃ b : ℤ, n * q + d * (q / 2) = b * g := fun d => ⟨2 * n * N + d * N, by rw [hq]; push_cast; ring⟩
  obtain ⟨bl, hlo⟩ := hmid (-1)
  obtain ⟨bm, hmid0⟩ := hmid 0
  obtain ⟨bh, hhi⟩ := hmid 1
  obtain ⟨bu, hup⟩ := hmid 2
  obtain ⟨bd, hdown⟩ := hmid (-2)
  push_cast at hlo hmid0 hhi hup hdown
  unfold RoundsTo at hr ⊢
  have habs : ∀ z : ℝ, (|z - n * q| ≤ q / 2 ↔ n * q + -1 * (q / 2) ≤ z ∧ z ≤ n * q + 1 * (q / 2)) := fun z => by
    rw [abs_le]
    constructor <;> rintro ⟨h1, h2⟩ <;> constructor <;> linarith
  have htie : ∀ z : ℝ, |z - n * q| = q / 2 → n * q + 1 * (q / 2) = z ∨ n * q + -1 * (q / 2) = z := fun z hz => by
    rcases abs_choice (z - n * q) with h | h <;> rw [h] at hz
    · exact .inl (by linarith)
    · exact .inr (by linarith)
  split at hr
  · next h0 =>
    rw [if_pos h0]
    obtain ⟨hle, heven⟩ := hr
    refine ⟨?_, fun ht => heven ?_⟩
    · rw [habs, hlo, hhi] at hle ⊢
      exact ⟨(h.le _).1.2 hle.1, (h.le _).2.2 hle.2⟩
    · rcases htie x ht with hx | hx
      · rw [hhi] at hx
        rw [← (h.eq _).1 hx, ← hhi]
        have hq0 : 0 ≤ q := by
          have := abs_nonneg (x - n * q)
          linarith
        rw [add_sub_cancel_left, one_mul, abs_of_nonneg (by linarith)]
      · rw [hlo] at hx
        rw [← (h.eq _).1 hx, ← hlo]
        have hq0 : 0 ≤ q := by
          have := abs_nonneg (x - n * q)
          linarith
        rw [add_sub_cancel_left, neg_one_mul, abs_neg, abs_of_nonneg (by linarith)]
  · next h0 =>
    rw [if_neg h0]
    split at hr
    · next h1 =>
      rw [if_pos h1]
      rw [show (n : ℝ) * q = n * q + 0 * (q / 2) by ring, show n * q + 0 * (q / 2) + q = n * q + 2 * (q / 2) by ring, hmid0, hup] at hr ⊢
      exact ⟨(h.le _).1.2 hr.1, (h _).2.2 hr.2⟩
    · next h1 =>
      rw [if_neg h1]
      have hback : ∀ z : ℝ, (n * q < z + q ∧ z ≤ n * q) ↔ (n * q + -2 * (q / 2) < z ∧ z ≤ n * q + 0 * (q / 2)) := fun z => by
        constructor <;> rintro ⟨h1, h2⟩ <;> constructor <;> linarith
      rw [hback, hmid0, hdown] at hr ⊢
      exact ⟨(h _).1.2 hr.1, (h.le _).2.2 hr.2⟩

/-- Both are rounded alike into a format, where `g` divides half the unit of its last place. -/
theorem SameCell.rounded {t : Ty} {rm : Nat} {sat s : Bool} {k j : Int} {r : Nat × Flags} (hg : g = 2 ^ j) (hj : j < k - fractionOf t)
    (hr : Rounded t rm sat s y k r) : Rounded t rm sat s x k r := by
  have hhalf : ∀ p : Int, k - fractionOf t ≤ p → ∃ N : Nat, (2 : ℝ) ^ p = 2 * (N * g) := fun p hp => by
    refine ⟨2 ^ (p - 1 - j).toNat, ?_⟩
    rw [hg]
    push_cast
    rw [← zpow_natCast, Int.toNat_of_nonneg (by omega), ← zpow_add₀ (by norm_num), ← zpow_one_add₀ (by norm_num)]
    congr 1
    ring
  obtain ⟨N1, hN1⟩ := hhalf _ le_rfl
  obtain ⟨N2, hN2⟩ := hhalf (max k (leastNormal t) - fractionOf t) (by omega)
  have hq : ∃ N : Nat, (if t = .bf16 then (2 : ℝ) ^ (k - fractionOf t) else 2 ^ (max k (leastNormal t) - fractionOf t)) = 2 * (N * g) := by
    split
    · exact ⟨N1, hN1⟩
    · exact ⟨N2, hN2⟩
  unfold Rounded at hr ⊢
  dsimp only at hr ⊢
  revert hr hq
  generalize (if t = .bf16 then (2 : ℝ) ^ (k - fractionOf t) else 2 ^ (max k (leastNormal t) - fractionOf t)) = q
  rintro ⟨n1, n, h1, h2, h3, h4, h5⟩ ⟨N, hN⟩
  have heq : n * q = x ↔ n * q = y := by
    rw [show n * q = ((2 * n * N : ℤ) : ℝ) * g by rw [hN]; push_cast; ring]
    exact h.eq _
  refine ⟨n1, n, h.roundsTo hN1 h1, h.roundsTo hN h2, h3, h4, fun hb ho => ?_⟩
  obtain ⟨he, hex, hti, hnt⟩ := h5 hb ho
  exact ⟨he, fun hx => hex (heq.1 hx), fun hx => hti (mt heq.2 hx), fun hx => hnt (mt heq.2 hx)⟩

end

/-- The last bit of a result that has been cut off: 1 where something was. -/
def lastBit (exact : Bool) : Nat := if exact then 0 else 1

/-- A result cut off to a multiple of 2^j with more bits than the format keeps, and a last bit for the rest, is rounded as the exact one. -/
theorem rounded_cut {t : Ty} (ht : t ∈ resultFormats) {rm : Nat} (hrm : rm < 4) (sat s : Bool) {a : Nat} {j k : Int} {x : ℝ} {exact : Bool}
    (hlo : (2 : ℝ) ^ k ≤ x) (hhi : x < 2 ^ (k + 1)) (ha : 2 ^ (fractionOf t + 2) ≤ a) (hexact : exact = true → x = a * 2 ^ j)
    (hcut : exact = false → a * 2 ^ j < x ∧ x < (a + 1) * 2 ^ j) :
    Rounded t rm sat s x k (fround t rm sat (.fin s (2 * a + lastBit exact) (j - 1))) := by
  have hg : (0 : ℝ) < 2 ^ j := by positivity
  have hhalf : (2 : ℝ) ^ (j - 1) = 2 ^ j / 2 := by rw [zpow_sub_one₀ (by norm_num)]; rfl
  have hle : (a : ℝ) * 2 ^ j ≤ x := by
    cases exact with
    | true => exact (hexact rfl).ge
    | false => exact (hcut rfl).1.le
  have hj : j < k - fractionOf t := by
    have h1 : (2 : ℝ) ^ ((fractionOf t : Int) + 2 + j) < 2 ^ (k + 1) := by
      refine lt_of_le_of_lt ?_ hhi
      refine le_trans ?_ hle
      rw [zpow_add₀ (by norm_num)]
      refine mul_le_mul_of_nonneg_right ?_ hg.le
      exact_mod_cast ha
    have h2 := (zpow_lt_zpow_iff_right₀ (by norm_num : (1 : ℝ) < 2)).1 h1
    omega
  have hcell : SameCell (2 ^ j) x (((2 * a + lastBit exact : Nat) : ℝ) * 2 ^ (j - 1)) := by
    cases exact with
    | true =>
      have hy : ((2 * a + lastBit true : Nat) : ℝ) * 2 ^ (j - 1) = x := by
        rw [hexact rfl, hhalf]
        show ((2 * a + 0 : Nat) : ℝ) * (2 ^ j / 2) = a * 2 ^ j
        push_cast
        ring
      rw [hy]
      exact SameCell.refl _ _
    | false =>
      obtain ⟨hx0, hx1⟩ := hcut rfl
      have hy : ((2 * a + lastBit false : Nat) : ℝ) * 2 ^ (j - 1) = a * 2 ^ j + 2 ^ j / 2 := by
        rw [hhalf]
        show ((2 * a + 1 : Nat) : ℝ) * (2 ^ j / 2) = _
        push_cast
        ring
      rw [hy]
      exact sameCell_of_between (a := (a : ℤ)) hg (by exact_mod_cast hx0) (by exact_mod_cast hx1) (by push_cast; linarith) (by push_cast; linarith)
  have hpow : ∀ p : Int, j ≤ p → (2 : ℝ) ^ p = ((2 ^ (p - j).toNat : ℤ) : ℝ) * 2 ^ j := fun p hp => by
    push_cast
    rw [← zpow_natCast, Int.toNat_of_nonneg (by omega), ← zpow_add₀ (by norm_num), Int.sub_add_cancel]
  have hm : 2 * a + lastBit exact ≠ 0 := by
    have := Nat.two_pow_pos (fractionOf t + 2)
    omega
  refine hcell.rounded rfl hj (rounded_fround ht hrm sat s hm ?_ ?_)
  · rw [hpow k (by omega)] at hlo ⊢
    exact (hcell.le _).1.1 hlo
  · rw [hpow (k + 1) (by omega)] at hhi ⊢
    exact (hcell _).2.1 hhi

/-! Square roots rounded down. -/

/-- The bits found so far, and one more of each of the lower places. -/
theorem isqrtFrom_eq_sqrt (n k r : Nat) (hlo : r * r ≤ n) (hhi : n < (r + 2 ^ k) * (r + 2 ^ k)) : isqrtFrom n k r = Nat.sqrt n := by
  induction k generalizing r with
  | zero => exact Nat.eq_sqrt.2 ⟨hlo, hhi⟩
  | succ k ih =>
    rw [isqrtFrom]
    split
    · next h =>
      refine ih _ h ?_
      rwa [Nat.add_assoc, ← Nat.two_mul, ← Nat.pow_succ']
    · next h => exact ih _ hlo (not_le.1 h)

theorem isqrt_eq_sqrt (n : Nat) : isqrt n = Nat.sqrt n := by
  refine isqrtFrom_eq_sqrt n _ 0 (Nat.zero_le _) ?_
  rw [Nat.zero_add, ← Nat.pow_add]
  exact Nat.lt_log2_self.trans_le (Nat.pow_le_pow_right (by decide) (by omega))

end Sys2Proof.Machine
end

section
/-! PROOFS. RCP, SQRT and RSQ (R202). -/

namespace Sys2Proof.Machine

theorem fdecode_f32 (x : Nat) : fdecode .f32 x =
    if x / 2 ^ 23 % 2 ^ 8 = 2 ^ 8 - 1 then
      (if x % 2 ^ 23 = 0 then .inf (bitOf x 31) else .nan (bitOf x 31) ((x % 2 ^ 23 * 2 ^ 29) ||| 2 ^ 51))
    else if x / 2 ^ 23 % 2 ^ 8 = 0 then .fin (bitOf x 31) (x % 2 ^ 23) (-149)
    else .fin (bitOf x 31) (2 ^ 23 + x % 2 ^ 23) (((x / 2 ^ 23 % 2 ^ 8 : Nat) : Int) - 127 - 23) := rfl

/-- The significand and exponent of an F32 number. -/
theorem fdecode_f32_fin {x : Nat} {s : Bool} {m : Nat} {e : Int} (h : fdecode .f32 x = .fin s m e) : m < 2 ^ 24 ∧ -149 ≤ e ∧ e ≤ 104 := by
  have hf : x % 2 ^ 23 < 2 ^ 23 := Nat.mod_lt _ (by decide)
  rw [fdecode_f32] at h
  by_cases hspecial : x / 2 ^ 23 % 2 ^ 8 = 2 ^ 8 - 1
  · rw [if_pos hspecial] at h
    by_cases h0 : x % 2 ^ 23 = 0
    · rw [if_pos h0] at h
      cases h
    · rw [if_neg h0] at h
      cases h
  · rw [if_neg hspecial] at h
    by_cases h0 : x / 2 ^ 23 % 2 ^ 8 = 0
    · rw [if_pos h0] at h
      simp only [FVal.fin.injEq] at h
      obtain ⟨-, rfl, rfl⟩ := h
      exact ⟨hf.trans (by decide), by decide, by decide⟩
    · rw [if_neg h0] at h
      simp only [FVal.fin.injEq] at h
      obtain ⟨-, rfl, rfl⟩ := h
      have hexp : x / 2 ^ 23 % 2 ^ 8 < 2 ^ 8 := Nat.mod_lt _ (by decide)
      exact ⟨by omega, by omega, by omega⟩

/-- A result X·2^j cut off to a·2^j is rounded as the exact one. -/
theorem rounded_floor {sat s exact : Bool} {a : Nat} {j k : Int} {x X : ℝ} (hX : x = X * 2 ^ j) (hlo : (2 : ℝ) ^ k ≤ x) (hhi : x < 2 ^ (k + 1))
    (ha : 2 ^ 25 ≤ a) (hexact : exact = true → X = a) (hcut : exact = false → a < X ∧ X < a + 1) :
    Rounded .f32 0 sat s x k (fround .f32 0 sat (.fin s (2 * a + lastBit exact) (j - 1))) := by
  have hg : (0 : ℝ) < 2 ^ j := by positivity
  refine rounded_cut (by decide) (by decide) sat s hlo hhi ha (fun h => by rw [hX, hexact h]) (fun h => ?_)
  obtain ⟨h0, h1⟩ := hcut h
  rw [hX]
  exact ⟨mul_lt_mul_of_pos_right h0 hg, mul_lt_mul_of_pos_right h1 hg⟩

section
variable {x m : Nat} {e : Int} {s : Bool}

/-! Reciprocals. -/

theorem sfFn_rcp (h : fdecode .f32 x = .fin s m e) (hm : m ≠ 0) : sfFn 2 x = sfRatio s 1 m (-e) := by
  unfold sfFn
  rw [h]
  exact if_neg hm

theorem sfRatio_one (s : Bool) (m : Nat) (e : Int) :
    sfRatio s 1 m e = fround .f32 0 false (.fin s (2 * (2 ^ 80 / m) + lastBit (decide (2 ^ 80 % m = 0))) (e - 80 - 1)) := by
  unfold sfRatio lastBit
  rw [one_mul, Int.sub_sub]
  simp only [decide_eq_true_eq]
  rfl

theorem reciprocal_rounded (h : fdecode .f32 x = .fin s m e) (hm : m ≠ 0) {k : Int} (hlo : (2 : ℝ) ^ k ≤ 1 / (m * 2 ^ e))
    (hhi : 1 / ((m : ℝ) * 2 ^ e) < 2 ^ (k + 1)) : Rounded .f32 0 false s (1 / (m * 2 ^ e)) k (sfFn 2 x) := by
  obtain ⟨hm24, -, -⟩ := fdecode_f32_fin h
  have hm0 : (0 : ℝ) < m := by exact_mod_cast Nat.pos_of_ne_zero hm
  have hX : 1 / ((m : ℝ) * 2 ^ e) = (2 : ℝ) ^ 80 / m * 2 ^ (-e - 80) := by
    rw [sub_eq_add_neg, zpow_add₀ (by norm_num), zpow_neg, zpow_neg]
    norm_num
    field_simp
  have hdiv := Nat.div_add_mod (2 ^ 80) m
  have hmod := Nat.mod_lt (2 ^ 80) (Nat.pos_of_ne_zero hm)
  rw [sfFn_rcp h hm, sfRatio_one]
  refine rounded_floor hX hlo hhi ?_ (fun hex => ?_) (fun hcut => ?_)
  · rw [Nat.le_div_iff_mul_le (Nat.pos_of_ne_zero hm)]
    exact (Nat.mul_le_mul_left _ hm24.le).trans (by decide)
  · rw [of_decide_eq_true hex, Nat.add_zero] at hdiv
    rw [div_eq_iff hm0.ne', mul_comm]
    exact_mod_cast hdiv.symm
  · have hr : 2 ^ 80 % m ≠ 0 := of_decide_eq_false hcut
    constructor
    · rw [lt_div_iff₀ hm0, mul_comm]
      exact_mod_cast (by omega : m * (2 ^ 80 / m) < 2 ^ 80)
    · rw [div_lt_iff₀ hm0, mul_comm]
      have : 2 ^ 80 < m * (2 ^ 80 / m + 1) := by rw [Nat.mul_add, Nat.mul_one]; omega
      exact_mod_cast this

/-! Roots. -/

/-- The significand of a number with an even exponent. -/
def evenSig (m : Nat) (e : Int) : Nat := if e % 2 = 0 then m else 2 * m
/-- That exponent. -/
def evenExp (e : Int) : Int := if e % 2 = 0 then e else e - 1

theorem evenSig_mul (m : Nat) (e : Int) : (evenSig m e : ℝ) * 2 ^ evenExp e = m * 2 ^ e := by
  unfold evenSig evenExp
  split
  · rfl
  · rw [zpow_sub_one₀ (by norm_num)]
    push_cast
    ring

theorem two_mul_half_evenExp (e : Int) : 2 * (evenExp e / 2) = evenExp e := by
  unfold evenExp
  split <;> omega

theorem evenSig_pos (hm : m ≠ 0) (e : Int) : 0 < evenSig m e := by
  unfold evenSig
  split <;> omega

theorem evenSig_lt (hm : m < 2 ^ 24) (e : Int) : evenSig m e < 2 ^ 25 := by
  unfold evenSig
  split <;> omega

/-- The root of a power of four taken out. -/
theorem sqrt_mul_zpow {y : ℝ} (hy : 0 ≤ y) (i : Int) : Real.sqrt (y * 2 ^ (2 * i)) = Real.sqrt y * 2 ^ i := by
  rw [Real.sqrt_mul hy, two_mul, zpow_add₀ (by norm_num), Real.sqrt_mul_self (by positivity)]

/-- A root between two natural numbers. -/
theorem sqrt_between {y : ℝ} {a : Nat} (hlo : (a * a : ℝ) < y) (hhi : y < (a + 1) * (a + 1)) : a < Real.sqrt y ∧ Real.sqrt y < a + 1 :=
  ⟨Real.lt_sqrt_of_sq_lt (by rw [sq]; exact hlo), (Real.sqrt_lt' (by positivity)).2 (by rw [sq]; exact hhi)⟩

theorem sfFn_sqrt (h : fdecode .f32 x = .fin false m e) (hm : m ≠ 0) : sfFn 4 x = sfSqrt false m e := by
  simp only [sfFn, h, if_neg hm, Bool.false_eq_true, if_false]

theorem sfFn_rsq (h : fdecode .f32 x = .fin false m e) (hm : m ≠ 0) : sfFn 3 x = sfSqrt true m e := by
  simp only [sfFn, h, if_neg hm, Bool.false_eq_true, if_false]

theorem sfSqrt_root (m : Nat) (e : Int) : sfSqrt false m e = fround .f32 0 false (.fin false
    (2 * Nat.sqrt (evenSig m e * 2 ^ 200) + lastBit (decide (Nat.sqrt (evenSig m e * 2 ^ 200) * Nat.sqrt (evenSig m e * 2 ^ 200) = evenSig m e * 2 ^ 200)))
    (evenExp e / 2 - 100 - 1)) := by
  unfold sfSqrt evenSig evenExp lastBit
  simp only [isqrt_eq_sqrt, Bool.false_eq_true, if_false, decide_eq_true_eq, Int.sub_sub]
  rfl

theorem sfSqrt_inv (m : Nat) (e : Int) : sfSqrt true m e = fround .f32 0 false (.fin false
    (2 * Nat.sqrt (2 ^ 260 / evenSig m e) + lastBit (2 ^ 260 / evenSig m e * evenSig m e == 2 ^ 260 &&
      Nat.sqrt (2 ^ 260 / evenSig m e) * Nat.sqrt (2 ^ 260 / evenSig m e) == 2 ^ 260 / evenSig m e))
    (-130 - evenExp e / 2 - 1)) := by
  rw [← isqrt_eq_sqrt, sub_right_comm]
  rfl

theorem root_rounded (h : fdecode .f32 x = .fin false m e) (hm : m ≠ 0) {k : Int} (hlo : (2 : ℝ) ^ k ≤ Real.sqrt (m * 2 ^ e))
    (hhi : Real.sqrt ((m : ℝ) * 2 ^ e) < 2 ^ (k + 1)) : Rounded .f32 0 false false (Real.sqrt (m * 2 ^ e)) k (sfFn 4 x) := by
  have hpos := evenSig_pos hm e
  have hX : Real.sqrt ((m : ℝ) * 2 ^ e) = Real.sqrt ((evenSig m e * 2 ^ 200 : Nat) : ℝ) * 2 ^ (evenExp e / 2 - 100) := by
    rw [← sqrt_mul_zpow (by positivity), mul_sub, two_mul_half_evenExp, ← evenSig_mul]
    rw [Nat.cast_mul, Nat.cast_pow, Nat.cast_ofNat, mul_assoc, ← zpow_natCast, ← zpow_add₀ (by norm_num)]
    congr 3
    push_cast
    ring
  rw [sfFn_sqrt h hm, sfSqrt_root]
  generalize hN : evenSig m e * 2 ^ 200 = N at hX ⊢
  refine rounded_floor hX hlo hhi ?_ (fun hex => ?_) (fun hcut => ?_)
  · rw [Nat.le_sqrt, ← hN]
    exact le_trans (by decide) (Nat.mul_le_mul_right (2 ^ 200) hpos)
  · have hsq : ((Nat.sqrt N : ℝ)) * Nat.sqrt N = N := by exact_mod_cast of_decide_eq_true hex
    rw [← hsq, Real.sqrt_mul_self (by positivity)]
  · have hne := of_decide_eq_false hcut
    exact sqrt_between (by exact_mod_cast lt_of_le_of_ne (Nat.sqrt_le N) hne) (by exact_mod_cast Nat.lt_succ_sqrt N)

theorem reciprocalRoot_rounded (h : fdecode .f32 x = .fin false m e) (hm : m ≠ 0) {k : Int} (hlo : (2 : ℝ) ^ k ≤ 1 / Real.sqrt (m * 2 ^ e))
    (hhi : 1 / Real.sqrt ((m : ℝ) * 2 ^ e) < 2 ^ (k + 1)) : Rounded .f32 0 false false (1 / Real.sqrt (m * 2 ^ e)) k (sfFn 3 x) := by
  obtain ⟨hm24, -, -⟩ := fdecode_f32_fin h
  have hpos := evenSig_pos hm e
  have hlt := evenSig_lt hm24 e
  have hpos' : (0 : ℝ) < evenSig m e := by exact_mod_cast hpos
  have hX : 1 / Real.sqrt ((m : ℝ) * 2 ^ e) = Real.sqrt (2 ^ 260 / (evenSig m e : ℝ)) * 2 ^ (-130 - evenExp e / 2) := by
    rw [← sqrt_mul_zpow (by positivity), mul_sub, two_mul_half_evenExp, one_div, ← Real.sqrt_inv, ← evenSig_mul, zpow_sub₀ (by norm_num)]
    congr 1
    norm_num
    field_simp
  rw [sfFn_rsq h hm, sfSqrt_inv]
  generalize evenSig m e = M at *
  have hdiv := Nat.div_add_mod (2 ^ 260) M
  have hmod := Nat.mod_lt (2 ^ 260) hpos
  have hle : 2 ^ 260 / M * M ≤ 2 ^ 260 := Nat.div_mul_le_self _ _
  have hN : 2 ^ 60 ≤ 2 ^ 260 / M := by
    rw [Nat.le_div_iff_mul_le hpos]
    exact (Nat.mul_le_mul_left _ hlt.le).trans (by decide)
  have hnext : 2 ^ 260 < (2 ^ 260 / M + 1) * M := by
    rw [Nat.add_mul, Nat.one_mul, Nat.mul_comm]
    omega
  generalize 2 ^ 260 / M = N at *
  refine rounded_floor hX hlo hhi ?_ (fun hex => ?_) (fun hcut => ?_)
  · rw [Nat.le_sqrt]
    exact le_trans (by decide) hN
  · rw [Bool.and_eq_true, beq_iff_eq, beq_iff_eq] at hex
    obtain ⟨hNM, hsq⟩ := hex
    have hy : (2 : ℝ) ^ 260 / M = Nat.sqrt N * Nat.sqrt N := by
      rw [div_eq_iff hpos'.ne']
      exact_mod_cast (hsq ▸ hNM).symm
    rw [hy, Real.sqrt_mul_self (by positivity)]
  · refine sqrt_between ?_ ?_
    · rw [lt_div_iff₀ hpos']
      have hne : ¬ (N * M = 2 ^ 260 ∧ Nat.sqrt N * Nat.sqrt N = N) := fun hc => by
        rw [hc.1, hc.2] at hcut
        simp at hcut
      have hsqM : Nat.sqrt N * Nat.sqrt N * M ≤ N * M := Nat.mul_le_mul_right M (Nat.sqrt_le N)
      have : Nat.sqrt N * Nat.sqrt N * M < 2 ^ 260 := by
        refine lt_of_le_of_ne (hsqM.trans hle) (fun heq => hne ?_)
        have hNM : N * M = 2 ^ 260 := le_antisymm hle (heq ▸ hsqM)
        exact ⟨hNM, Nat.eq_of_mul_eq_mul_right hpos (heq.trans hNM.symm)⟩
      exact_mod_cast this
    · rw [div_lt_iff₀ hpos']
      have hs : N + 1 ≤ (Nat.sqrt N + 1) * (Nat.sqrt N + 1) := Nat.lt_succ_sqrt N
      have := hnext.trans_le (Nat.mul_le_mul_right M hs)
      exact_mod_cast this

end

end Sys2Proof.Machine
end

section
/-! PROOFS. Where EXP2, LOG2, SIN and COS are exact, where EXP2 overflows, and the values of the special functions together (R202). -/

namespace Sys2Proof.Machine

/-! Exact results. -/

/-- A multiple of the quantum is rounded to itself alone. -/
theorem RoundsTo.eq_of_mul {rm : Nat} {s : Bool} {q : ℝ} {a n : Nat} (hq : 0 < q) (h : RoundsTo rm s (a * q) q n) : n = a := by
  have hsub : |(a : ℝ) * q - n * q| < q → n = a := fun hlt => by
    rw [← sub_mul, abs_mul, abs_of_pos hq, mul_lt_iff_lt_one_left hq] at hlt
    have : |(a : ℤ) - n| < 1 := by exact_mod_cast hlt
    rw [Int.abs_lt_one_iff] at this
    omega
  unfold RoundsTo at h
  split at h
  · exact hsub (by linarith [h.1])
  · split at h
    · exact hsub (abs_lt.2 ⟨by linarith [h.1], by linarith [h.2]⟩)
    · exact hsub (abs_lt.2 ⟨by linarith [h.1], by linarith [h.2]⟩)

/-- What is at least a multiple of the quantum is not rounded below it. -/
theorem RoundsTo.le_of_le {rm : Nat} {s : Bool} {x q : ℝ} {n N : Nat} (hq : 0 < q) (h : RoundsTo rm s x q n) (hx : N * q ≤ x) : N ≤ n := by
  by_contra hn
  have hstep : (n : ℝ) * q + q ≤ N * q := by
    rw [← add_one_mul]
    exact mul_le_mul_of_nonneg_right (by exact_mod_cast not_le.1 hn) hq.le
  unfold RoundsTo at h
  split at h
  · have := (abs_le.1 h.1).2
    linarith
  · split at h
    · linarith [h.2]
    · linarith [h.2]

theorem greatest_f32 : (greatest .f32 : ℝ) = ((2 ^ 24 - 1 : Nat) : ℝ) * 2 ^ (104 : Int) := by
  simp only [greatest]
  push_cast
  norm_num

/-- A number that F32 holds is encoded as it is, without a flag. -/
theorem fround_f32_exact (s : Bool) {m : Nat} {e : Int} (hm : m ≠ 0) (hbits : m < 2 ^ 24) (he : -149 ≤ e) (hmax : (m.log2 : Int) + e ≤ 127) :
    Encodes .f32 (fround .f32 0 false (.fin s m e)).1 s (m * 2 ^ e) ∧ (fround .f32 0 false (.fin s m e)).2 = 0 := by
  obtain ⟨k, hk⟩ : ∃ k : Int, k = m.log2 + e := ⟨_, rfl⟩
  have hlo : (2 : ℝ) ^ k ≤ m * 2 ^ e := not_lt.1 (mt (log2_add_lt_iff_real m hm e k).2 (by omega))
  have hhi : (m : ℝ) * 2 ^ e < 2 ^ (k + 1) := (log2_add_lt_iff_real m hm e (k + 1)).1 (by omega)
  have hlog : m.log2 < 24 := (Nat.log2_lt hm).2 hbits
  have hr := rounded_fround (t := .f32) (by decide) (rm := 0) (by decide) false s hm hlo hhi
  obtain ⟨q, hq⟩ : ∃ q : Int, q = max k (-126) - 23 := ⟨_, rfl⟩
  have hqe : q ≤ e := by omega
  have hx : (m : ℝ) * 2 ^ e = ((m * 2 ^ (e - q).toNat : Nat) : ℝ) * 2 ^ q := (natMul_zpow_of_le_real m hqe).symm
  generalize fround .f32 0 false (.fin s m e) = r at hr ⊢
  obtain ⟨n1, n, -, h2, -, -, hfin⟩ := hr
  have h2 : RoundsTo 0 s (m * 2 ^ e) (2 ^ q) n := by
    rw [hq]
    exact h2
  have hn : n * (2 : ℝ) ^ q = m * 2 ^ e := by
    rw [hx] at h2 ⊢
    rw [h2.eq_of_mul (by positivity)]
  have hle : (n : ℝ) * 2 ^ q ≤ greatest .f32 := by
    rw [greatest_f32]
    rcases le_or_gt k 126 with h126 | h126
    · rw [hn]
      refine hhi.le.trans ((zpow_le_zpow_right₀ (by norm_num) (by omega : k + 1 ≤ 127)).trans ?_)
      rw [show (127 : Int) = 23 + 104 by norm_num, zpow_add₀ (by norm_num)]
      exact mul_le_mul_of_nonneg_right (by norm_num) (by positivity)
    · rw [show q = 104 by omega] at hn ⊢
      refine mul_le_mul_of_nonneg_right ?_ (by positivity)
      have hlt : (n : ℝ) * 2 ^ (104 : Int) < 2 ^ (24 : Int) * 2 ^ (104 : Int) := by
        rw [hn, ← zpow_add₀ (by norm_num)]
        exact hhi.trans_le (zpow_le_zpow_right₀ (by norm_num) (by omega))
      have hn24 : n < 2 ^ 24 := by exact_mod_cast lt_of_mul_lt_mul_right hlt (by positivity)
      exact_mod_cast Nat.le_sub_one_of_lt hn24
  obtain ⟨henc, hexact, -⟩ := hfin (fun h => by cases h.1) (by rw [hq] at hle; exact hle)
  have hn' : (n : ℝ) * 2 ^ (max k (leastNormal .f32) - fractionOf .f32) = m * 2 ^ e := by
    rw [hq] at hn
    exact hn
  exact ⟨hn' ▸ henc, hexact hn'⟩

/-- A positive number of 2^128 or more overflows to +∞. -/
theorem fround_f32_over {m : Nat} {e : Int} (h : (2 : ℝ) ^ (128 : Int) ≤ m * 2 ^ e) :
    fround .f32 0 false (.fin false m e) = (0x7F800000, flagOF ||| flagNX) := by
  have hm : m ≠ 0 := fun h0 => absurd h (by rw [h0, Nat.cast_zero, zero_mul]; exact not_le.2 (by positivity))
  obtain ⟨k, hk⟩ : ∃ k : Int, (m.log2 : Int) + e = k := ⟨_, rfl⟩
  have h128 : (128 : Int) ≤ k := not_lt.1 (fun hlt => absurd ((log2_add_lt_iff_real m hm e 128).1 (hk ▸ hlt)) (not_lt.2 h))
  have hlo : (2 : ℝ) ^ k ≤ m * 2 ^ e := not_lt.1 (mt (log2_add_lt_iff_real m hm e k).2 (by omega))
  obtain ⟨hr, -⟩ := roundAt_spec (rm := 0) (by decide) false m e (k - 23)
  have hq : (0 : ℝ) < 2 ^ (k - 23) := by positivity
  have hn : 2 ^ 23 ≤ (roundAt 0 false m e (k - 23)).1 := by
    refine hr.le_of_le hq (le_trans (le_of_eq ?_) hlo)
    rw [Nat.cast_pow, Nat.cast_ofNat, ← zpow_natCast, ← zpow_add₀ (by norm_num)]
    congr 1
    push_cast
    ring
  have hover : dyLt (maxFin .f32).1 (maxFin .f32).2 (roundAt 0 false m e (k - 23)).1 (k - 23) = true := by
    rw [dyLt_iff, ← greatest_eq (by decide : Ty.f32 ∈ resultFormats), greatest_f32]
    calc ((2 ^ 24 - 1 : Nat) : ℝ) * 2 ^ (104 : Int) < 2 ^ (24 : Int) * 2 ^ (104 : Int) := mul_lt_mul_of_pos_right (by norm_num) (by positivity)
      _ = ((2 ^ 23 : Nat) : ℝ) * 2 ^ (105 : Int) := by norm_num
      _ ≤ ((2 ^ 23 : Nat) : ℝ) * 2 ^ (k - 23) := mul_le_mul_of_nonneg_left (zpow_le_zpow_right₀ (by norm_num) (by omega)) (by positivity)
      _ ≤ _ := mul_le_mul_of_nonneg_right (by exact_mod_cast hn) hq.le
  rw [fround_fin .f32 0 false false hm hk]
  have hmax : max (k - (fracBits .f32 : Int)) (eMin .f32 - (fracBits .f32 : Int)) = k - 23 := by
    show max (k - 23) (-126 - 23) = k - 23
    omega
  dsimp only
  rw [if_neg (by decide), hmax, if_pos hover]
  rfl

/-! EXP2. -/

theorem sfSeries_le {next : Nat → Int → Int} (hnext : ∀ k t, 0 ≤ t → 0 ≤ next k t) (fuel k : Nat) {t : Int} (ht : 0 ≤ t) (acc : Int) :
    acc ≤ sfSeries next fuel k t acc := by
  induction fuel generalizing k t acc with
  | zero => exact le_rfl
  | succ fuel ih => exact (le_add_of_nonneg_right ht).trans (ih (k + 1) (hnext k t ht) (acc + t))

theorem sfOne_pos : 0 < sfOne := by decide +kernel

theorem sfLn2_nonneg : 0 ≤ sfLn2 := by decide +kernel

theorem sfMul_nonneg {a b : Int} (ha : 0 ≤ a) (hb : 0 ≤ b) : 0 ≤ sfMul a b := Int.ediv_nonneg (mul_nonneg ha hb) sfOne_pos.le

theorem sfOne_le_sfExp1 {x : Int} (hx : 0 ≤ x) : sfOne ≤ sfExp1 x := by
  have hnext : ∀ (k : Nat) (t : Int), 0 ≤ t → 0 ≤ sfMul t x / (k + 1) := fun k t ht => Int.ediv_nonneg (sfMul_nonneg ht hx) (by omega)
  have h := sfSeries_le hnext 89 1 (hnext 0 sfOne sfOne_pos.le) (0 + sfOne)
  rw [zero_add] at h
  unfold sfExp1
  rw [sfSeries, zero_add]
  exact h

theorem sfRound_over {v n : Int} (hv : sfOne ≤ v) (hn : 128 ≤ n) : sfRound false v n = (0x7F800000, flagOF ||| flagNX) := by
  refine fround_f32_over ?_
  have hv' : 2 ^ 320 ≤ v.toNat := by
    have : ((2 ^ 320 : Nat) : Int) ≤ v := hv
    omega
  calc (2 : ℝ) ^ (128 : Int) ≤ 2 ^ n := zpow_le_zpow_right₀ (by norm_num) hn
    _ = ((2 * 2 ^ 320 : Nat) : ℝ) * 2 ^ (n - sfP - 1) := by
      rw [← pow_succ', Nat.cast_pow, Nat.cast_ofNat, ← zpow_natCast, ← zpow_add₀ (by norm_num)]
      congr 1
      show n = 321 + (n - 320 - 1)
      ring
    _ ≤ _ := mul_le_mul_of_nonneg_right (by exact_mod_cast (by omega : 2 * 2 ^ 320 ≤ 2 * v.toNat + 1)) (by positivity)

section
variable {x m : Nat} {e : Int} {s : Bool}

/-- A number with a natural value. -/
theorem natural_value {n : Nat} (h : (m : ℚ) * 2 ^ e = n) : (0 ≤ e → m * 2 ^ e.toNat = n) ∧ (e < 0 → m = n * 2 ^ (-e).toNat) := by
  constructor
  · intro he
    rw [← Int.toNat_of_nonneg he, zpow_natCast] at h
    exact_mod_cast h
  · intro he
    have hp : (2 : ℚ) ^ e * 2 ^ (-e).toNat = 1 := by
      rw [← zpow_natCast, Int.toNat_of_nonneg (by omega), ← zpow_add₀ (by norm_num), add_neg_cancel, zpow_zero]
    have h2 := congrArg (· * (2 : ℚ) ^ (-e).toNat) h
    simp only [mul_assoc, hp, mul_one] at h2
    exact_mod_cast h2

theorem sfFn_exp2 (h : fdecode .f32 x = .fin s m e) (hm : m ≠ 0) : sfFn 0 x = sfExp2 s m e := by
  simp only [sfFn, h, if_neg hm]

theorem sfExp2_natural {n : Nat} (hm : m ≠ 0) (h : (m : ℚ) * 2 ^ e = n) (hn : n ≤ 149) :
    sfExp2 s m e = fround .f32 0 false (.fin false 1 (if s then -(n : Int) else n)) := by
  obtain ⟨hpos, hneg⟩ := natural_value h
  have hmin : min (n : Int) 400 = n := by omega
  unfold sfExp2
  rcases le_or_gt 0 e with he | he
  · rw [if_pos (.inl he), if_pos he]
    have hmn := hpos he
    have he8 : e.toNat < 8 := by
      by_contra h8
      have := Nat.mul_le_mul (Nat.pos_of_ne_zero hm) (Nat.pow_le_pow_right (by decide : 0 < 2) (not_lt.1 h8))
      omega
    have : ((m : Int) * 2 ^ (min e 20).toNat) = n := by
      rw [min_eq_left (by omega)]
      exact_mod_cast hmn
    dsimp only
    rw [this, hmin]
  · have hmn := hneg he
    have hmod : m % 2 ^ (-e).toNat = 0 := by rw [hmn, Nat.mul_mod_left]
    have hdiv : ((m / 2 ^ (-e).toNat : Nat) : Int) = n := by rw [hmn, Nat.mul_div_cancel _ (by positivity)]
    rw [if_pos (.inr hmod), if_neg (by omega)]
    dsimp only
    rw [show (m : Int) / 2 ^ (-e).toNat = n by exact_mod_cast hdiv, hmin]

theorem exp2_natural (h : fdecode .f32 x = .fin s m e) {n : Nat} (hy : (m : ℚ) * 2 ^ e = n) (hlo : -149 ≤ (if s then -(n : Int) else n))
    (hhi : (if s then -(n : Int) else n) ≤ 127) :
    Encodes .f32 (sfFn 0 x).1 false ((2 : ℝ) ^ (if s then -(n : Int) else n)) ∧ (sfFn 0 x).2 = 0 := by
  by_cases hm : m = 0
  · have hn : n = 0 := by
      rw [hm, Nat.cast_zero, zero_mul] at hy
      exact_mod_cast hy.symm
    have hval : sfFn 0 x = (0x3F800000, 0) := by simp only [sfFn, h, hm, if_true]
    rw [hval, hn]
    refine ⟨⟨by decide, 2 ^ 23, -23, by decide, ?_⟩, rfl⟩
    cases s <;> norm_num
  · rw [sfFn_exp2 h hm, sfExp2_natural hm hy (by cases s <;> simp only [if_true, if_false, Bool.false_eq_true] at hlo hhi <;> omega)]
    have hex := fround_f32_exact false (m := 1) one_ne_zero (by decide) hlo (by rw [show Nat.log2 1 = 0 by decide, Nat.cast_zero, zero_add]; exact hhi)
    rwa [Nat.cast_one, one_mul] at hex

theorem exp2_over (h : fdecode .f32 x = .fin false m e) (hy : (128 : ℚ) ≤ m * 2 ^ e) : sfFn 0 x = (0x7F800000, flagOF ||| flagNX) := by
  have hm : m ≠ 0 := fun h0 => absurd hy (by rw [h0]; norm_num)
  have hm1 := Nat.pos_of_ne_zero hm
  obtain ⟨-, he149, -⟩ := fdecode_f32_fin h
  have hbig : ∀ i : Int, 128 ≤ i → fround .f32 0 false (.fin false 1 i) = (0x7F800000, flagOF ||| flagNX) := fun i hi =>
    fround_f32_over (by rw [Nat.cast_one, one_mul]; exact zpow_le_zpow_right₀ (by norm_num) hi)
  rw [sfFn_exp2 h hm]
  unfold sfExp2
  rcases le_or_gt 0 e with he | he
  · rw [if_pos (.inl he), if_pos he]
    refine hbig _ ?_
    have hn : (128 : Int) ≤ m * 2 ^ (min e 20).toNat := by
      rcases le_or_gt e 20 with h20 | h20
      · rw [min_eq_left h20]
        rw [← Int.toNat_of_nonneg he, zpow_natCast] at hy
        exact_mod_cast hy
      · rw [min_eq_right h20.le]
        have : 1 * 2 ^ 20 ≤ m * 2 ^ 20 := Nat.mul_le_mul_right _ hm1
        show (128 : Int) ≤ (m : Int) * 2 ^ 20
        omega
    simp only [Bool.false_eq_true, if_false]
    omega
  · obtain ⟨p, hp⟩ : ∃ p : Nat, e = -(p : Int) := ⟨(-e).toNat, by omega⟩
    subst hp
    have hmp : 128 * 2 ^ p ≤ m := by
      rw [zpow_neg, zpow_natCast, ← div_eq_mul_inv, le_div_iff₀ (by positivity)] at hy
      exact_mod_cast hy
    have hdiv : 128 ≤ m / 2 ^ p := (Nat.le_div_iff_mul_le (by positivity)).2 hmp
    by_cases hmod : m % 2 ^ p = 0
    · rw [if_pos (.inr (by rw [neg_neg, Int.toNat_natCast]; exact hmod)), if_neg (by omega)]
      refine hbig _ ?_
      simp only [neg_neg, Int.toNat_natCast, Bool.false_eq_true, if_false]
      have : (128 : Int) ≤ (m : Int) / 2 ^ p := by exact_mod_cast hdiv
      omega
    · rw [if_neg (by rw [neg_neg, Int.toNat_natCast]; omega)]
      have hx : sfOfFin false m (-(p : Int)) = m * 2 ^ (320 - p) := by
        have hexp : -(p : Int) + (sfP : Nat) = (320 - p : Nat) := by
          show -(p : Int) + 320 = _
          omega
        unfold sfOfFin
        simp only [Bool.false_eq_true, if_false]
        rw [hexp, if_pos (Int.natCast_nonneg _), Int.toNat_natCast]
      have hsplit : sfOne = 2 ^ p * 2 ^ (320 - p) := by
        show (2 : Int) ^ 320 = _
        rw [← pow_add]
        congr 1
        omega
      have hn : (128 : Int) ≤ sfOfFin false m (-(p : Int)) / sfOne := by
        rw [hx, hsplit, Int.mul_ediv_mul_of_pos_left _ _ (by positivity)]
        exact_mod_cast hdiv
      dsimp only
      generalize sfOfFin false m (-(p : Int)) = X at hn
      refine sfRound_over (sfOne_le_sfExp1 (sfMul_nonneg ?_ sfLn2_nonneg)) ?_
      · have := Int.ediv_mul_le X sfOne_pos.ne'
        omega
      · split
        · omega
        · split <;> omega

/-! LOG2. -/

theorem sfFn_log2 (h : fdecode .f32 x = .fin false m e) (hm : m ≠ 0) : sfFn 1 x = sfLog2 m e := by
  simp only [sfFn, h, if_neg hm, Bool.false_eq_true, if_false]

theorem log2_power (h : fdecode .f32 x = .fin false m e) {j : Int} (hy : (m : ℚ) * 2 ^ e = 2 ^ j) :
    Encodes .f32 (sfFn 1 x).1 (decide (j < 0)) j.natAbs ∧ (sfFn 1 x).2 = 0 := by
  obtain ⟨hm24, he149, he104⟩ := fdecode_f32_fin h
  have hm : m ≠ 0 := fun h0 => absurd hy (by rw [h0, Nat.cast_zero, zero_mul]; exact (by positivity : (0 : ℚ) < 2 ^ j).ne)
  have hyR : (m : ℝ) * 2 ^ e = 2 ^ j := by
    have := congrArg (Rat.cast (K := ℝ)) hy
    push_cast at this
    exact this
  have hlog : (m.log2 : Int) + e = j := log2_add_eq m hm e j hyR.ge (hyR.trans_lt (zpow_lt_zpow_right₀ (by norm_num) (by omega)))
  have hpow : m = 2 ^ m.log2 := by
    have : (m : ℝ) * 2 ^ e = 2 ^ m.log2 * 2 ^ e := by rw [hyR, ← hlog, zpow_add₀ (by norm_num), zpow_natCast]
    exact_mod_cast mul_right_cancel₀ (by positivity : (2 : ℝ) ^ e ≠ 0) this
  have hval : sfFn 1 x = fround .f32 0 false (.fin (decide (j < 0)) j.natAbs 0) := by
    rw [sfFn_log2 h hm]
    unfold sfLog2
    dsimp only
    rw [if_pos hpow, hlog]
    rfl
  have hl24 : m.log2 < 24 := (Nat.log2_lt hm).2 hm24
  rw [hval]
  by_cases h0 : j = 0
  · subst h0
    have hzero : Encodes .f32 (fround .f32 0 false (.fin false 0 0)).1 false 0 := encodes_zero rfl false 0
    simpa using And.intro hzero (show (fround .f32 0 false (.fin false 0 0)).2 = 0 from rfl)
  · have hsmall : j.natAbs < 2 ^ 24 := by omega
    have hex := fround_f32_exact (decide (j < 0)) (m := j.natAbs) (e := 0) (by omega) hsmall (by decide)
      (by have := (Nat.log2_lt (by omega : j.natAbs ≠ 0)).2 hsmall; omega)
    simpa using hex

end

end Sys2Proof.Machine
end

section
/-! PROOFS. Where SIN and COS are exact, NaNs, and the values of the special functions together (R202). -/

namespace Sys2Proof.Machine

section
variable {x m : Nat} {e : Int} {s : Bool}

/-! SIN and COS. -/

theorem fround_f32_zero (s : Bool) : fround .f32 0 false (.fin s 0 0) = (if s then 0x80000000 else 0, 0) := by
  cases s <;> decide

theorem fround_f32_one (s : Bool) : fround .f32 0 false (.fin s 1 0) = (if s then 0xBF800000 else 0x3F800000, 0) := by
  cases s <;> decide

theorem sfFn_sin (h : fdecode .f32 x = .fin s m e) (hm : m ≠ 0) : sfFn 5 x = sfTrig false s m e := by
  simp only [sfFn, h, if_neg hm]

theorem sfFn_cos (h : fdecode .f32 x = .fin s m e) (hm : m ≠ 0) : sfFn 6 x = sfTrig true s m e := by
  simp only [sfFn, h, if_neg hm]

/-- Of a number that is a natural number of quarter turns, the quarter turns beyond whole turns decide. -/
theorem sfTrig_quarters (cos s : Bool) (m p q : Nat) (hp : p ≠ 0) (h : 2 * m + (if cos then 2 ^ p else 0) = q * 2 ^ p) :
    (q % 4 = 1 → sfTrig cos s m (-(p : Int)) = fround .f32 0 false (.fin (!cos && s) 1 0)) ∧
    (q % 4 = 3 → sfTrig cos s m (-(p : Int)) = fround .f32 0 false (.fin (if cos then true else !s) 1 0)) ∧
    (q % 2 = 0 → sfTrig cos s m (-(p : Int)) = fround .f32 0 false (.fin (!cos && s) 0 0)) := by
  have hturn : (2 * m + (if cos then 2 ^ (p + 1 - 1) else 0)) % 2 ^ (p + 1 + 1) = q % 4 * 2 ^ p := by
    rw [Nat.add_sub_cancel, h, show 2 ^ (p + 1 + 1) = 4 * 2 ^ p by rw [pow_succ, pow_succ]; ring, Nat.mul_mod_mul_right]
  have hk : (-(-(p : Int))).toNat + 1 = p + 1 := by rw [neg_neg, Int.toNat_natCast]
  have hval : ∀ r : Nat, r * 2 ^ p % 2 ^ (p + 1 - 1) = 0 ∧ r * 2 ^ p / 2 ^ (p + 1 - 1) = r := fun r => by
    rw [Nat.add_sub_cancel]
    exact ⟨Nat.mul_mod_left _ _, Nat.mul_div_cancel _ (by positivity)⟩
  have hlt : ¬ (0 : Int) ≤ -(p : Int) := by omega
  unfold sfTrig
  simp only [if_neg hlt, hk, hturn]
  generalize fround .f32 0 false = round
  refine ⟨fun h1 => ?_, fun h3 => ?_, fun h2 => ?_⟩
  · obtain ⟨hmod, hdiv⟩ := hval 1
    rw [h1, if_pos hmod, hdiv]
    simp only
  · obtain ⟨hmod, hdiv⟩ := hval 3
    rw [h3, if_pos hmod, hdiv]
    simp only
  · rcases (by omega : q % 4 = 0 ∨ q % 4 = 2) with h0 | h0
    · obtain ⟨hmod, hdiv⟩ := hval 0
      rw [h0, if_pos hmod, hdiv]
      simp only
    · obtain ⟨hmod, hdiv⟩ := hval 2
      rw [h0, if_pos hmod, hdiv]
      simp only

/-- An integer has sine zero, of its sign, and cosine 1 or −1. -/
theorem trig_natural (h : fdecode .f32 x = .fin s m e) (hm : m ≠ 0) {n : Nat} (hy : (m : ℚ) * 2 ^ e = n) :
    sfFn 5 x = (if s then 0x80000000 else 0, 0) ∧ sfFn 6 x = (if n % 2 = 1 then 0xBF800000 else 0x3F800000, 0) := by
  obtain ⟨hpos, hneg⟩ := natural_value hy
  rw [sfFn_sin h hm, sfFn_cos h hm]
  rcases le_or_gt 0 e with he | he
  · have hmn := hpos he
    have hodd : (decide (e = 0) && m % 2 == 1) = decide (n % 2 = 1) := by
      obtain ⟨p, rfl⟩ := Int.eq_ofNat_of_zero_le he
      cases p with
      | zero =>
        have hn : m = n := by
          rw [← hmn]
          exact (Nat.mul_one m).symm
        rw [hn]
        exact beq_eq_decide _ _
      | succ p =>
        have : n % 2 = 0 := by
          rw [← hmn, Int.toNat_natCast, pow_succ, ← mul_assoc]
          exact Nat.mul_mod_left _ _
        rw [this]
        rfl
    unfold sfTrig
    rw [if_pos he, if_pos he, if_neg (by decide), if_pos rfl, hodd, fround_f32_zero, fround_f32_one]
    simp only [decide_eq_true_eq, and_self]
  · have hmn := hneg he
    obtain ⟨p, rfl⟩ : ∃ p : Nat, e = -(p : Int) := ⟨(-e).toNat, by omega⟩
    rw [neg_neg, Int.toNat_natCast] at hmn
    have hp : p ≠ 0 := by omega
    obtain ⟨-, -, hsin⟩ := sfTrig_quarters false s m p (2 * n) hp (by rw [hmn]; simp only [Bool.false_eq_true, if_false]; ring)
    obtain ⟨hcos1, hcos3, -⟩ := sfTrig_quarters true s m p (2 * n + 1) hp (by rw [hmn]; simp only [if_true]; ring)
    rw [hsin (by omega), Bool.not_false, Bool.true_and, fround_f32_zero]
    refine ⟨rfl, ?_⟩
    by_cases h1 : n % 2 = 1
    · rw [hcos3 (by omega), if_pos h1, if_pos rfl, fround_f32_one, if_pos rfl]
    · rw [hcos1 (by omega), if_neg h1, Bool.not_true, Bool.false_and, fround_f32_one, if_neg (by decide)]

/-- Half an odd integer has sine 1 or −1, and cosine +0. -/
theorem trig_half (h : fdecode .f32 x = .fin s m e) {n : Nat} (hy : (m : ℚ) * 2 ^ e = n + 1 / 2) :
    sfFn 5 x = (if s = decide (n % 2 = 1) then 0x3F800000 else 0xBF800000, 0) ∧ sfFn 6 x = (0, 0) := by
  have hm : m ≠ 0 := fun h0 => absurd hy (by rw [h0, Nat.cast_zero, zero_mul]; exact (by positivity : (0 : ℚ) < n + 1 / 2).ne)
  have hdouble : ((2 * m : Nat) : ℚ) * 2 ^ e = (2 * n + 1 : Nat) := by
    push_cast
    rw [mul_assoc, hy]
    ring
  obtain ⟨hpos, hneg⟩ := natural_value hdouble
  have he : e < 0 := by
    by_contra hge
    have := hpos (not_lt.1 hge)
    rw [mul_assoc] at this
    omega
  have hmn := hneg he
  obtain ⟨p, rfl⟩ : ∃ p : Nat, e = -(p : Int) := ⟨(-e).toNat, by omega⟩
  rw [neg_neg, Int.toNat_natCast] at hmn
  have hp : p ≠ 0 := by omega
  rw [sfFn_sin h hm, sfFn_cos h hm]
  obtain ⟨hsin1, hsin3, -⟩ := sfTrig_quarters false s m p (2 * n + 1) hp (by rw [hmn]; simp only [Bool.false_eq_true, if_false, Nat.add_zero])
  obtain ⟨-, -, hcos⟩ := sfTrig_quarters true s m p (2 * n + 2) hp (by rw [hmn]; simp only [if_true]; ring)
  rw [hcos (by omega), Bool.not_true, Bool.false_and, fround_f32_zero]
  refine ⟨?_, rfl⟩
  by_cases h1 : n % 2 = 1
  · rw [hsin3 (by omega), decide_eq_true h1, fround_f32_one]
    cases s <;> rfl
  · rw [hsin1 (by omega), decide_eq_false h1, fround_f32_one]
    cases s <;> rfl

theorem sfFn_negative (h : fdecode .f32 x = .fin true m e) (hm : m ≠ 0) {fn : Nat} (hfn : fn ∈ [1, 3, 4]) : sfFn fn x = (0x7FC00000, flagIV) := by
  simp only [List.mem_cons, List.not_mem_nil, or_false] at hfn
  rcases hfn with rfl | rfl | rfl <;> simp only [sfFn, h, if_neg hm, if_true]

/-! NaNs. -/

/-- The payload of an F32 NaN, quieted. -/
theorem fdecode_f32_nan {g : Nat} (h : fdecode .f32 x = .nan s g) : 2 ^ 51 ≤ g ∧ g < 2 ^ 52 ∧ g / 2 ^ 29 * 2 ^ 29 = g := by
  have hf : x % 2 ^ 23 < 2 ^ 23 := Nat.mod_lt _ (by decide)
  rw [fdecode_f32] at h
  have hg : g = (x % 2 ^ 23 * 2 ^ 29) ||| 2 ^ 51 := by
    split at h
    · split at h
      · cases h
      · cases h
        rfl
    · split at h <;> cases h
  have hshift : (x % 2 ^ 23 * 2 ^ 29) ||| 2 ^ 51 = (x % 2 ^ 23 ||| 2 ^ 22) * 2 ^ 29 := by
    rw [show (2 : Nat) ^ 51 = 2 ^ 22 * 2 ^ 29 by decide, ← Nat.shiftLeft_eq, ← Nat.shiftLeft_eq, ← Nat.shiftLeft_eq, Nat.shiftLeft_or_distrib]
  have hlo : 2 ^ 22 ≤ x % 2 ^ 23 ||| 2 ^ 22 := Nat.right_le_or
  have hhi : x % 2 ^ 23 ||| 2 ^ 22 < 2 ^ 23 := Nat.or_lt_two_pow hf (by decide)
  rw [hg, hshift]
  refine ⟨?_, ?_, ?_⟩
  · omega
  · omega
  · rw [Nat.mul_div_cancel _ (by decide)]

theorem sfFn_nan {g : Nat} (h : fdecode .f32 x = .nan s g) (fn : Nat) : fdecode .f32 (sfFn fn x).1 = .nan s g ∧ (sfFn fn x).2 = 0 := by
  obtain ⟨hlo, hhi, hg⟩ := fdecode_f32_nan h
  have hval : sfFn fn x = (encodeNan .f32 s g, 0) := by simp only [sfFn, h]
  rw [hval]
  refine ⟨(fdecode_encodeNan (by decide) s hlo hhi).trans ?_, rfl⟩
  rw [show g / 2 ^ (52 - fracBits .f32) * 2 ^ (52 - fracBits .f32) = g from hg]

end

/-- Settles O33: what is cut off rounds as the exact result, exact points by their quarter turns and powers, the table by evaluation. -/
theorem specialFunctionsHaveTheirValues : Obligations.SpecialFunctionsHaveTheirValues := by
  unfold Obligations.SpecialFunctionsHaveTheirValues
  refine ⟨fun x s m e k _ h hm => reciprocal_rounded h hm, fun x m e k _ h hm => root_rounded h hm, fun x m e k _ h hm => reciprocalRoot_rounded h hm,
    fun x s m e _ h n => ⟨fun hy hlo hhi => exp2_natural h hy hlo hhi, fun hs hy => ?_, fun j hs hy => ?_, fun hm hy => trig_natural h hm hy,
      fun hy => trig_half h hy, fun hs hm fn hfn => ?_⟩, fun fn _ x _ s g h => sfFn_nan h fn, by decide +kernel, by decide +kernel, by decide +kernel⟩
  · subst hs
    exact exp2_over h hy
  · subst hs
    exact log2_power h hy
  · subst hs
    exact sfFn_negative h hm hfn

end Sys2Proof.Machine
end

section
/-! PROOFS. The value of a mapped operand (R54, R55, R143 to R146). -/

namespace Sys2Proof.Machine

/-! MapRound. -/

theorem ratOf_fin (s : Bool) (m : Nat) (e : Int) : ratOf (.fin s m e) = if s then -((m : ℚ) * 2 ^ e) else (m : ℚ) * 2 ^ e := by
  cases s
  · rfl
  · exact neg_mul _ _

theorem abs_ratOf_fin (s : Bool) (m : Nat) (e : Int) : |ratOf (.fin s m e)| = (m : ℚ) * 2 ^ e := by
  have h : (0 : ℚ) ≤ (m : ℚ) * 2 ^ e := by positivity
  rw [ratOf_fin]
  cases s
  · exact abs_of_nonneg h
  · exact (abs_neg _).trans (abs_of_nonneg h)

/-- A value that is neither a NaN nor an infinity. -/
theorem eq_fin_of_finite {p : FVal} (h : fisNan p = false ∧ fisInf p = false) : ∃ s m e, p = .fin s m e := by
  cases p with
  | nan s f => cases h.1
  | inf s => cases h.2
  | fin s m e => exact ⟨s, m, e, rfl⟩

theorem fisZero_iff_ratOf {p : FVal} (h : fisNan p = false ∧ fisInf p = false) : fisZero p = true ↔ ratOf p = 0 := by
  obtain ⟨s, m, e, rfl⟩ := eq_fin_of_finite h
  rw [← abs_eq_zero, abs_ratOf_fin, mul_eq_zero_iff_right (by positivity), Nat.cast_eq_zero]
  exact beq_iff_eq

/-- A magnitude cut to a multiple of the quantum, toward zero. -/
theorem roundAt_toward (s : Bool) (m : Nat) (e q : Int) : ((roundAt 1 s m e q).1 : Int) = ⌊(m : ℚ) * 2 ^ e / 2 ^ q⌋ := by
  obtain ⟨⟨hlo, hhi⟩, -⟩ := roundAt_spec (rm := 1) (by decide) s m e q
  symm
  rw [Int.floor_eq_iff, le_div_iff₀ (by positivity), div_lt_iff₀ (by positivity), add_one_mul]
  refine ⟨(Rat.cast_le (K := ℝ)).1 ?_, (Rat.cast_lt (K := ℝ)).1 ?_⟩
  · push_cast
    exact hlo
  · push_cast
    exact hhi

/-- A product in units of the quantum. -/
def cutProduct (q : Int) : FVal → Int
  | .fin s m e => if s then -((roundAt 1 s m e q).1 : Int) else (roundAt 1 s m e q).1
  | _ => 0

theorem cutProduct_eq {p : FVal} (h : fisNan p = false ∧ fisInf p = false) (q : Int) : cutProduct q p = cutTo (2 ^ q) (ratOf p) := by
  obtain ⟨s, m, e, rfl⟩ := eq_fin_of_finite h
  have hx : (0 : ℚ) ≤ (m : ℚ) * 2 ^ e := by positivity
  rw [ratOf_fin]
  unfold cutProduct cutTo
  simp only [roundAt_toward]
  cases s with
  | false =>
    simp only [Bool.false_eq_true, if_false]
    rw [if_neg (not_lt.2 hx)]
  | true =>
    rw [if_pos rfl, if_pos rfl]
    rcases hx.eq_or_lt with h0 | hpos
    · rw [← h0]
      simp
    · rw [if_pos (neg_neg_of_pos hpos), neg_neg]

/-- A sum of what each element adds. -/
theorem foldl_adds {f : Int → FVal → Int} {g : FVal → Int} (hf : ∀ acc x, f acc x = acc + g x) (l : List FVal) (a : Int) :
    l.foldl f a = a + (l.map g).sum := by
  induction l generalizing a with
  | nil => simp
  | cons p l ih => rw [List.foldl_cons, ih, hf, List.map_cons, List.sum_cons, add_assoc]

theorem foldl_max_le_iff (f : FVal → Int) (l : List FVal) (a b : Int) : l.foldl (fun m x => max m (f x)) a ≤ b ↔ a ≤ b ∧ ∀ x ∈ l, f x ≤ b := by
  induction l generalizing a with
  | nil => simp
  | cons p l ih =>
    rw [List.foldl_cons, ih, max_le_iff, List.forall_mem_cons, and_assoc]

/-- The sum of the products, cut 63 bits below the largest, rounded to F32 once. -/
def summedProducts (q total : Int) : Nat × Flags :=
  if total = 0 then (0, 0)
  else ((fround .f32 0 false (.fin (decide (total < 0)) total.natAbs q)).1,
    (fround .f32 0 false (.fin (decide (total < 0)) total.natAbs q)).2 &&& (flagIV ||| flagOF ||| flagUF))

/-- MapRound of finite products that are not all zero. -/
theorem mapRound_finite {ps : List FVal} (hfin : ∀ p ∈ ps, fisNan p = false ∧ fisInf p = false) {p : FVal} {r : List FVal}
    (hnz : ps.filter (fun p => !fisZero p) = p :: r) :
    mapRound ps = summedProducts (r.foldl (fun m x => max m (flog2 x)) (flog2 p) - 63)
      (((p :: r).map (cutProduct (r.foldl (fun m x => max m (flog2 x)) (flog2 p) - 63))).sum) := by
  have hnan : ps.any fisNan = false := by
    rw [List.any_eq_false]
    exact fun p hp => by simp [(hfin p hp).1]
  have hinf : ∀ s, ps.contains (.inf s) = false := fun s => by
    rw [← Bool.not_eq_true, List.contains_iff_mem]
    exact fun hm => by cases (hfin _ hm).2
  unfold mapRound
  rw [hnan, hinf, hinf, hnz]
  simp only [Bool.false_or, Bool.false_and, Bool.false_eq_true, if_false]
  generalize r.foldl (fun m x => max m (flog2 x)) (flog2 p) - 63 = q
  rw [foldl_adds (g := cutProduct q) (fun acc x => ?_) (p :: r), zero_add]
  · rfl
  · cases x with
    | nan s f => exact (add_zero acc).symm
    | inf s => exact (add_zero acc).symm
    | fin s m e =>
      cases s
      · rfl
      · exact sub_eq_add_neg _ _

theorem mapRound_zeros {ps : List FVal} (hfin : ∀ p ∈ ps, fisNan p = false ∧ fisInf p = false) (hnz : ps.filter (fun p => !fisZero p) = []) :
    mapRound ps = (0, 0) := by
  have hnan : ps.any fisNan = false := by
    rw [List.any_eq_false]
    exact fun p hp => by simp [(hfin p hp).1]
  have hinf : ∀ s, ps.contains (.inf s) = false := fun s => by
    rw [← Bool.not_eq_true, List.contains_iff_mem]
    exact fun hm => by cases (hfin _ hm).2
  unfold mapRound
  rw [hnan, hinf, hinf, hnz]
  rfl

theorem sum_map_filter_of_zero {α : Type} (c : α → Bool) (g : α → Int) (l : List α) (h : ∀ x ∈ l, c x = false → g x = 0) :
    ((l.filter c).map g).sum = (l.map g).sum := by
  induction l with
  | nil => rfl
  | cons x l ih =>
    have ih := ih (fun y hy => h y (List.mem_cons_of_mem _ hy))
    rw [List.filter_cons, List.map_cons, List.sum_cons, ← ih]
    split
    · rw [List.map_cons, List.sum_cons]
    · next hx => rw [h x List.mem_cons_self (by simpa using hx), zero_add]

/-- The exponent of a value's highest bit. -/
theorem flog2_lt_iff {p : FVal} (h : fisNan p = false ∧ fisInf p = false) (h0 : fisZero p = false) (k : Int) : flog2 p < k ↔ |ratOf p| < 2 ^ k := by
  obtain ⟨s, m, e, rfl⟩ := eq_fin_of_finite h
  rw [abs_ratOf_fin]
  exact log2_add_lt_iff m (by simpa [fisZero] using h0) e k

theorem ratOf_total {t : Int} (q : Int) : ratOf (.fin (decide (t < 0)) t.natAbs q) = t * 2 ^ q := by
  rw [ratOf_fin]
  rcases lt_or_ge t 0 with h | h
  · rw [decide_eq_true h, if_pos rfl, ← neg_mul]
    congr 1
    rw [Nat.cast_natAbs, Int.cast_abs, abs_of_neg (by exact_mod_cast h), neg_neg]
  · rw [decide_eq_false (not_lt.2 h), if_neg (by decide)]
    congr 1
    rw [Nat.cast_natAbs, abs_of_nonneg h]

theorem mapRounds_mapRound (ps : List FVal) : MapRounds ps (mapRound ps) := by
  have hnan : (ps.any fisNan || (ps.contains (.inf false) && ps.contains (.inf true))) = true ↔
      ps.any fisNan = true ∨ .inf false ∈ ps ∧ .inf true ∈ ps := by
    rw [Bool.or_eq_true, Bool.and_eq_true, List.contains_iff_mem, List.contains_iff_mem]
  refine ⟨fun h => ?_, fun h hp => ?_, fun h hn => ?_, fun hfin => ⟨fun hz => ?_, fun k hk hmax => ?_⟩⟩
  · unfold mapRound
    rw [if_pos (hnan.2 h)]
  · unfold mapRound
    rw [if_neg (mt hnan.1 h), if_pos (List.contains_iff_mem.2 hp)]
  · have hp : ¬ ps.contains (.inf false) = true := fun hc => h (.inr ⟨List.contains_iff_mem.1 hc, hn⟩)
    unfold mapRound
    rw [if_neg (mt hnan.1 h), if_neg hp, if_pos (List.contains_iff_mem.2 hn)]
  · refine mapRound_zeros hfin (List.filter_eq_nil_iff.2 (fun p hp => ?_))
    rw [(fisZero_iff_ratOf (hfin p hp)).2 (hz p hp)]
    decide
  · obtain ⟨p0, hp0, hk0⟩ := hk
    have hz0 : fisZero p0 = false := by
      rw [← Bool.not_eq_true, fisZero_iff_ratOf (hfin p0 hp0)]
      intro h0
      rw [h0, abs_zero] at hk0
      exact absurd hk0 (not_le.2 (by positivity))
    have hmem0 : p0 ∈ ps.filter (fun p => !fisZero p) := List.mem_filter.2 ⟨hp0, by rw [hz0]; rfl⟩
    cases hnz : ps.filter (fun p => !fisZero p) with
    | nil => rw [hnz] at hmem0; cases hmem0
    | cons p r =>
      have hall : ∀ x ∈ p :: r, (fisNan x = false ∧ fisInf x = false) ∧ fisZero x = false ∧ |ratOf x| < 2 ^ (k + 1) := fun x hx => by
        rw [← hnz] at hx
        obtain ⟨hxm, hxz⟩ := List.mem_filter.1 hx
        exact ⟨hfin x hxm, by simpa using hxz, hmax x hxm⟩
      have hle : ∀ x ∈ p :: r, flog2 x ≤ k := fun x hx => by
        obtain ⟨h1, h2, h3⟩ := hall x hx
        exact Int.lt_add_one_iff.1 ((flog2_lt_iff h1 h2 (k + 1)).2 h3)
      have htop : r.foldl (fun m x => max m (flog2 x)) (flog2 p) = k := by
        refine le_antisymm ((foldl_max_le_iff flog2 r _ _).2 ⟨hle p List.mem_cons_self, fun x hx => hle x (List.mem_cons_of_mem _ hx)⟩) ?_
        by_contra hlt
        obtain ⟨hp, hr⟩ := (foldl_max_le_iff flog2 r (flog2 p) (k - 1)).1 (by omega)
        have hlast : flog2 p0 ≤ k - 1 := by
          rw [hnz] at hmem0
          rcases List.mem_cons.1 hmem0 with rfl | hm
          · exact hp
          · exact hr p0 hm
        exact absurd ((flog2_lt_iff (hfin p0 hp0) hz0 k).1 (by omega)) (not_lt.2 hk0)
      have htotal : ((p :: r).map (cutProduct (k - 63))).sum = (ps.map (fun x => cutTo (2 ^ (k - 63)) (ratOf x))).sum := by
        rw [← hnz, sum_map_filter_of_zero]
        · exact congrArg List.sum (List.map_congr_left (fun x hx => cutProduct_eq (hfin x hx) _))
        · intro x hx hzx
          rw [cutProduct_eq (hfin x hx), (fisZero_iff_ratOf (hfin x hx)).1 (by simpa using hzx)]
          simp [cutTo]
      rw [mapRound_finite hfin hnz, htop, htotal]
      exact ⟨fun h0 => if_pos h0, fun h0 => ⟨_, k - 63, Int.natAbs_ne_zero.2 h0, ratOf_total _, if_neg h0⟩⟩

/-! Stages. -/

/-- Whether an element is an integer. -/
def EV.isInt : EV → Bool
  | .i _ => true
  | .f _ => false

theorem fisZero_weight {m : MapSlot} (h : m.wfmt = 0) (i j : Nat) : fisZero (m.weight i j) = true ↔ m.weightInt i j = 0 := by
  unfold MapSlot.weight MapSlot.weightInt
  simp only [h, if_true]
  split <;> simp [fisZero]

theorem mapProd_eq_productOf (m : MapSlot) (i j : Nat) (d : EV) : mapProd m (m.weight i j) d = productOf m i j d := by
  unfold mapProd productOf
  by_cases h : m.wfmt = 0
  · simp only [h, true_and, fisZero_weight h]
  · rw [if_neg (fun hc => h hc.1), if_neg (fun hc => h hc.1)]

theorem foldl_add_eq_sum {α : Type} (g : α → Int) (l : List α) (a : Int) : l.foldl (fun a j => a + g j) a = a + (l.map g).sum := by
  induction l generalizing a with
  | nil => simp
  | cons p l ih => rw [List.foldl_cons, ih, List.map_cons, List.sum_cons, add_assoc]

/-- A stage, output by output. -/
theorem mapStage_eq (m : MapSlot) (facc wide sx : Bool) (n : Nat) (data : List (List EV)) :
    mapStage m facc wide sx n data = (List.range 32).map (fun i => (List.range n).map (fun e =>
      stageOf m (wfmtInt m.wfmt && !facc && data.all (fun l => l.all EV.isInt)) (if wide then 64 else 32) sx
        (fun j e => (data.getD j []).getD e (.i 0)) i e)) := by
  unfold mapStage
  refine List.map_congr_left (fun i _ => List.map_congr_left (fun e _ => ?_))
  unfold stageOf
  cases hint : (wfmtInt m.wfmt && !facc && data.all (fun l => l.all EV.isInt)) with
  | true =>
    refine (if_pos hint).trans ?_
    rw [if_pos rfl]
    dsimp only
    rw [foldl_add_eq_sum, zero_add, wrapInt_eq_toNat_ofInt, toSigned_eq_toInt]
  | false =>
    refine (if_neg (Bool.eq_false_iff.1 hint)).trans ?_
    simp only [Bool.false_eq_true, if_false, mapProd_eq_productOf]

end Sys2Proof.Machine
end

section
/-! PROOFS. A mapped operand is the chain of its stages on what the lanes contribute (R142 to R146). -/

namespace Sys2Proof.Machine

/-! Values by lane and position. -/

/-- Values for 32 lanes and `n` positions. -/
def byLane {α : Type} (n : Nat) (F : Nat → Nat → α) : List (List α) := (List.range 32).map (fun i => (List.range n).map (F i))

section
variable {α β : Type} {n i e : Nat} {F G : Nat → Nat → α}

theorem byLane_getD (hi : i < 32) (he : e < n) (d : α) : ((byLane n F).getD i []).getD e d = F i e := by
  unfold byLane
  simp [hi, he, List.getD_eq_getElem?_getD]

theorem byLane_map (g : α → β) : (byLane n F).map (fun l => l.map g) = byLane n (fun i e => g (F i e)) := by
  unfold byLane
  rw [List.map_map]
  exact List.map_congr_left (fun i _ => List.map_map)

theorem byLane_congr (h : ∀ i < 32, ∀ e < n, F i e = G i e) : byLane n F = byLane n G :=
  List.map_congr_left (fun i hi => List.map_congr_left (fun e he => h i (List.mem_range.1 hi) e (List.mem_range.1 he)))

theorem byLane_all (p : α → Bool) : (byLane n F).all (fun l => l.all p) = true ↔ ∀ i < 32, ∀ e < n, p (F i e) = true := by
  unfold byLane
  simp [List.all_eq_true]

theorem byLane_foldl (g : β → α → β) (b : β) :
    (byLane n F).foldl (fun b l => l.foldl g b) b = ((List.range 32).flatMap (fun i => (List.range n).map (F i))).foldl g b := by
  unfold byLane
  rw [List.foldl_flatMap, List.foldl_map]

end

/-! Stages on equal data. -/

theorem stageOf_congr (m : MapSlot) (int : Bool) (w : Nat) (sx : Bool) {d d' : Nat → Nat → EV} (i : Nat) {e : Nat}
    (h : ∀ j < 32, (d j e).int = (d' j e).int ∧ (d j e).flt = (d' j e).flt) : stageOf m int w sx d i e = stageOf m int w sx d' i e := by
  have hsum : (List.range 32).map (fun j => m.weightInt i j * (d j e).int) = (List.range 32).map (fun j => m.weightInt i j * (d' j e).int) :=
    List.map_congr_left (fun j hj => by rw [(h j (List.mem_range.1 hj)).1])
  have hprod : (List.range 32).map (fun j => productOf m i j (d j e)) = (List.range 32).map (fun j => productOf m i j (d' j e)) :=
    List.map_congr_left (fun j hj => by unfold productOf; rw [(h j (List.mem_range.1 hj)).2])
  unfold stageOf
  rw [hsum, hprod]

theorem stageOf_isInt (m : MapSlot) (int : Bool) (w : Nat) (sx : Bool) (d : Nat → Nat → EV) (i e : Nat) : (stageOf m int w sx d i e).1.isInt = int := by
  cases int <;> rfl

/-! What a lane puts in. -/

/-- The zero of a lane that contributes nothing, of the kind of lane 0's elements. -/
def zeroLike (l : List EV) : EV :=
  match l with
  | .f _ :: _ => .f (.fin false 0 0)
  | _ => .i 0

theorem zeroLike_value (l : List EV) : (zeroLike l).int = 0 ∧ (zeroLike l).flt = .fin false 0 0 := by
  unfold zeroLike
  split <;> exact ⟨rfl, rfl⟩

section
variable {x : Issue} {s : State} {name row n : Nat} {facc sx mz : Bool} {rd : Nat → List EV} {m : MapSlot} {succ : Option MapSlot} {o : Nat}

/-- Whether a lane contributes (R143). -/
def Issue.contributes (x : Issue) (mz : Bool) (j : Nat) : Bool := x.act.getLsbD j || (mz && x.r.present.getLsbD j)

/-- The data of a map application, by lane. -/
def Issue.mapData (x : Issue) (mz : Bool) (n : Nat) (rd : Nat → List EV) : List (List EV) :=
  lanes32.map (fun j => if x.contributes mz j then rd j else List.replicate n (zeroLike (rd 0)))

theorem mapData_lane {j : Nat} (hj : j < 32) :
    (x.mapData mz n rd).getD j [] = if x.contributes mz j then rd j else List.replicate n (zeroLike (rd 0)) := by
  unfold Issue.mapData lanes32
  simp [hj, List.getD_eq_getElem?_getD]

/-- An element of the data has the value that the lane contributes. -/
theorem mapData_value {j e : Nat} (hj : j < 32) (he : e < n) :
    (((x.mapData mz n rd).getD j []).getD e (.i 0)).int = (contribution x mz rd j e).int ∧
    (((x.mapData mz n rd).getD j []).getD e (.i 0)).flt = (contribution x mz rd j e).flt := by
  have hcond : x.contributes mz j = true ↔ x.act.getLsbD j = true ∨ mz = true ∧ x.r.present.getLsbD j = true := by
    unfold Issue.contributes
    rw [Bool.or_eq_true, Bool.and_eq_true]
  rw [mapData_lane hj]
  unfold contribution
  by_cases hc : x.contributes mz j = true
  · rw [if_pos hc, if_pos (hcond.1 hc)]
    exact ⟨rfl, rfl⟩
  · rw [if_neg hc, if_neg (mt hcond.2 hc), List.getD_replicate _ he]
    exact zeroLike_value _

/-- The data is integer where every lane's is. -/
theorem mapData_ints (h : ∀ j, ∀ v ∈ rd j, ∃ z, v = .i z) : (x.mapData mz n rd).all (fun l => l.all EV.isInt) = true := by
  have hzero : zeroLike (rd 0) = .i 0 := by
    unfold zeroLike
    split
    · next v l heq =>
      obtain ⟨z, hz⟩ := h 0 (.f v) (by rw [heq]; exact List.mem_cons_self)
      cases hz
    · rfl
  unfold Issue.mapData
  rw [hzero]
  simp only [List.all_map, List.all_eq_true, Function.comp_apply]
  intro j _ v hv
  split at hv
  · obtain ⟨z, rfl⟩ := h j v hv
    rfl
  · rw [List.eq_of_mem_replicate hv]
    rfl

/-- It is not where every lane's is floating. -/
theorem mapData_floats (hn : 0 < n) (h : ∀ j, rd j ≠ [] ∧ ∀ v ∈ rd j, ∃ z, v = .f z) : (x.mapData mz n rd).all (fun l => l.all EV.isInt) = false := by
  obtain ⟨hne, hall⟩ := h 0
  obtain ⟨v, l, hrd⟩ := List.exists_cons_of_ne_nil hne
  obtain ⟨z, rfl⟩ := hall v (by rw [hrd]; exact List.mem_cons_self)
  have hlane : (if x.contributes mz 0 then rd 0 else List.replicate n (zeroLike (rd 0))).all EV.isInt = false := by
    split
    · rw [hrd]
      rfl
    · obtain ⟨n, rfl⟩ := Nat.exists_eq_succ_of_ne_zero hn.ne'
      rw [hrd]
      rfl
  rw [List.all_eq_false]
  refine ⟨_, List.mem_map.2 ⟨0, by decide, rfl⟩, ?_⟩
  rw [hlane]
  decide

/-! The operand. -/

theorem operand_mapped (huse : x.mapUse s name row = (m, succ, o)) :
    x.operand s true name row n facc sx mz rd = (mapApply m succ facc (row == 5) sx n (x.mapData mz n rd)).1.map
      (fun l => l.map (fun e => (e.1, e.2 ||| (mapApply m succ facc (row == 5) sx n (x.mapData mz n rd)).2))) := by
  unfold Issue.operand
  rw [if_pos rfl, huse]
  rfl

/-- The first stage, output by output. -/
theorem mapStage_contribution {int : Bool} (hint : (wfmtInt m.wfmt && !facc && (x.mapData mz n rd).all (fun l => l.all EV.isInt)) = int) (wide : Bool) :
    mapStage m facc wide sx n (x.mapData mz n rd) = byLane n (stageOf m int (if wide then 64 else 32) sx (contribution x mz rd)) := by
  rw [mapStage_eq, hint]
  exact byLane_congr (fun i _ e he => stageOf_congr m int _ sx i (fun j hj => mapData_value hj he))

/-- The second stage, on the outputs of the first. -/
theorem mapStage_outputs (m2 : MapSlot) {int : Bool} {one : Nat → Nat → EV × Flags} (hn : 0 < n) (hone : ∀ i e, (one i e).1.isInt = int)
    (hfacc : int = true → facc = false) (wide : Bool) :
    mapStage m2 facc wide sx n ((byLane n one).map (fun l => l.map (fun e => e.1))) =
      byLane n (stageOf m2 (int && wfmtInt m2.wfmt) (if wide then 64 else 32) sx (fun j e => (one j e).1)) := by
  rw [byLane_map, mapStage_eq]
  have hall : (byLane n (fun i e => (one i e).1)).all (fun l => l.all EV.isInt) = int := by
    cases int with
    | true => exact (byLane_all _).2 (fun i _ e _ => hone i e)
    | false =>
      rw [← Bool.not_eq_true, byLane_all]
      intro h
      cases (h 0 (by decide) 0 hn).symm.trans (hone 0 0)
  have hint : (wfmtInt m2.wfmt && !facc && int) = (int && wfmtInt m2.wfmt) := by
    cases int with
    | true => rw [hfacc rfl, Bool.not_false, Bool.and_true, Bool.and_true, Bool.true_and]
    | false => rw [Bool.and_false, Bool.false_and]
  rw [hall, hint]
  refine byLane_congr (fun i _ e he => stageOf_congr m2 _ _ sx i (fun j hj => ?_))
  rw [byLane_getD hj he]
  exact ⟨rfl, rfl⟩

theorem operand_chain (huse : x.mapUse s name row = (m, succ, o)) {int : Bool}
    (hint : (wfmtInt m.wfmt && !facc && (x.mapData mz n rd).all (fun l => l.all EV.isInt)) = int) {i e : Nat} (hi : i < 32) (he : e < n) :
    (x.operand s true name row n facc sx mz rd).at_ i e = chainOf m succ int (if row = 5 then 64 else 32) sx n (contribution x mz rd) i e := by
  have hfacc : int = true → facc = false := fun h => by
    rw [h, Bool.and_eq_true, Bool.and_eq_true, Bool.not_eq_true'] at hint
    exact hint.1.2
  have hwide : (if (row == 5) = true then 64 else 32) = if row = 5 then 64 else 32 := by simp only [beq_iff_eq]
  have hone := mapStage_contribution (sx := sx) hint (row == 5)
  rw [hwide] at hone
  rw [operand_mapped huse]
  unfold OpVals.at_ chainOf
  cases succ with
  | none =>
    unfold mapApply
    dsimp only
    rw [hone, byLane_map, byLane_getD hi he]
    exact Prod.ext rfl (by simp)
  | some m2 =>
    have htwo := mapStage_outputs (sx := sx) m2 (Nat.zero_lt_of_lt he) (fun i e => stageOf_isInt m int (if row = 5 then 64 else 32) sx (contribution x mz rd) i e)
      hfacc (row == 5)
    rw [hwide] at htwo
    unfold mapApply
    dsimp only
    rw [hone, htwo, byLane_map, byLane_getD hi he, byLane_foldl (fun a (e : EV × Flags) => a ||| e.2)]
    simp only [List.foldl_flatMap, List.foldl_map]

end

/-- Settles O16: a map application is a chain of stages on what the lanes contribute, and MapRound sums the products cut to units. -/
theorem mapApplicationsSumTheirProducts : Obligations.MapApplicationsSumTheirProducts := by
  unfold Obligations.MapApplicationsSumTheirProducts
  refine ⟨fun x s name row n facc sx mz rd m succ o i e huse hi he => ⟨fun hints => ?_, fun hfloats => ?_⟩, mapRounds_mapRound⟩
  · refine operand_chain huse ?_ hi he
    rw [mapData_ints hints, Bool.and_true]
  · refine operand_chain huse ?_ hi he
    rw [mapData_floats (Nat.zero_lt_of_lt he) hfloats, Bool.and_false]

end Sys2Proof.Machine
end

section
/-! PROOFS. Streams and their windows: kicks, the reading of entries, and the issue of a task (R242, R243, R253 to R259, R267). -/

namespace Sys2Proof.Machine

/-! A window entry changed. -/

section
variable {s : State} {key idx : Nat} {t : Stream} {k : Task}

theorem Stream.task_idx (h : t.task idx = some k) : k.idx = idx := by
  have := List.find?_some h
  exact beq_iff_eq.1 this

/-- A map of the window that keeps the indices. -/
theorem task_map {g : Task → Task} (hg : ∀ j, (g j).idx = j.idx) (i : Nat) :
    ({ t with window := t.window.map g } : Stream).task i = (t.task i).map g := by
  show (t.window.map g).find? _ = _
  rw [List.find?_map]
  have hsame : ((fun j : Task => j.idx == i) ∘ g) = fun j => j.idx == i := funext fun j => by rw [Function.comp_apply, hg]
  rw [hsame]
  rfl

theorem Stream.onTask_task {f : Task → Task} (hf : ∀ j, (f j).idx = j.idx) : (t.onTask idx f).task idx = (t.task idx).map f := by
  unfold Stream.onTask
  rw [task_map (fun j => by split; exacts [hf j, rfl])]
  cases h : t.task idx with
  | none => rfl
  | some k => exact congrArg some (if_pos (Stream.task_idx h))

/-- An entry after a change that keeps the indices comes from the entry of its index. -/
theorem Stream.of_onTask {f : Task → Task} {j : Task} (h : (t.onTask idx f).task idx = some j) (hf : ∀ j, (f j).idx = j.idx := by exact fun _ => rfl) :
    ∃ k, t.task idx = some k ∧ f k = j := by
  rw [Stream.onTask_task hf] at h
  exact Option.map_eq_some_iff.1 h

/-- What the stamp of a moment leaves alone. -/
theorem Stream.stamp_task {now : Nat} {j : Task} (h : (t.stamp now).task idx = some j) :
    ∃ k, t.task idx = some k ∧ j.state = k.state ∧ j.issueNs = k.issueNs ∧ j.idx = k.idx := by
  unfold Stream.stamp at h
  rw [task_map (fun j => by split <;> rfl)] at h
  obtain ⟨k, hk, rfl⟩ := Option.map_eq_some_iff.1 h
  refine ⟨k, hk, ?_⟩
  split <;> exact ⟨rfl, rfl, rfl⟩

theorem State.onStream_eq (ht : tget s.streams key = some t) (f : Stream → Stream) : s.onStream key f = s.setStream key (f t) := by
  unfold State.onStream
  rw [ht]

/-- The task is COMPLETE. -/
theorem State.complete_eq (ht : tget s.streams key = some t) (idx : Nat) : ∃ q, s.complete key idx = s.setStream key q ∧
    ∀ j, q.task idx = some j → j.state = .complete ∧ ∃ k, t.task idx = some k ∧ j.issueNs = k.issueNs := by
  refine ⟨_, State.onStream_eq ht _, fun j hj => ?_⟩
  obtain ⟨k, hk, hstate, hns, -⟩ := Stream.stamp_task hj
  obtain ⟨k0, hk0, rfl⟩ := Stream.of_onTask hk
  exact ⟨hstate, k0, hk0, hns⟩

/-- The task is ISSUED. -/
theorem State.markIssued_eq (ht : tget s.streams key = some t) (idx p : Nat) : ∃ q, s.markIssued key idx p = s.setStream key q ∧
    ∀ j, q.task idx = some j → j.state = .issued ∧ j.issueNs = s.etime := by
  refine ⟨_, State.onStream_eq ht _, fun j hj => ?_⟩
  obtain ⟨k0, -, rfl⟩ := Stream.of_onTask hj
  exact ⟨rfl, rfl⟩

theorem taskIssue_next (ht : tget s.streams key = some t) (hk : t.task idx = some k) (hc : t.canIssue k = true) :
    exec (.taskIssue key idx) s = done (s.issueTask key t k) := by
  show execTaskIssue key idx s = _
  unfold execTaskIssue
  rw [ht]
  dsimp only
  rw [hk]
  exact if_pos hc

/-! Kicks and the reading of entries. -/

theorem State.pend_same (s : State) (t : Stream) : (s.pend t).tail = t.tail ∧ (s.pend t).window = t.window ∧ (s.pend t).head = t.head ∧
    (s.pend t).decode = t.decode ∧ (s.pend t).state = t.state := by
  unfold State.pend
  split <;> exact ⟨rfl, rfl, rfl, rfl, rfl⟩

theorem kick_next (ht : tget s.streams key = some t) (v : DWord) : ∃ u q, exec (.kick key v) s = .next u ∧ u.mem = s.mem ∧
    tget u.streams key = some q ∧ q.tail = max t.tail v.toNat ∧ q.window = t.window ∧ q.head = t.head ∧ q.decode = t.decode ∧
    (t.state = .idle → t.decode < v.toNat → q.state = .running) := by
  obtain ⟨q, hkick, htail, hwin, hhead, hdec, hrun⟩ : ∃ q, s.kick key v.toNat = s.setStream key q ∧ q.tail = max t.tail v.toNat ∧
      q.window = t.window ∧ q.head = t.head ∧ q.decode = t.decode ∧ (t.state = .idle → t.decode < v.toNat → q.state = .running) := by
    unfold State.kick
    rw [ht]
    dsimp only
    refine ⟨_, rfl, ?_⟩
    split
    · next hs => exact ⟨rfl, rfl, rfl, rfl, fun h => by rw [hs] at h; cases h⟩
    · next hs =>
      obtain ⟨h1, h2, h3, h4, -⟩ := s.pend_same { t with tail := max t.tail v.toNat, ended := false }
      exact ⟨h1, h2, h3, h4, fun h => by rw [hs] at h; cases h⟩
    · obtain ⟨h1, h2, h3, h4, h5⟩ := s.pend_same { t with
        tail := max t.tail v.toNat, ended := false, state := if t.decode < max t.tail v.toNat then .running else t.state }
      exact ⟨h1, h2, h3, h4, fun _ hv => h5.trans (if_pos (lt_max_of_lt_right hv))⟩
  have hexec : exec (.kick key v) s = done ((s.kick key v.toNat).wake spCtrl (place key 0) 20) := rfl
  rw [hkick] at hexec
  exact ⟨_, q, hexec, rfl, tget_tset_same _ _ _, htail, hwin, hhead, hdec, hrun⟩

theorem State.sysTouch_settles (s : State) (hub : Nat) (asid : BitVec 16) (va n : Nat) (a : AccKind) (p : Nat) : s.Settles (s.sysTouch hub asid va n a) p := by
  unfold State.sysTouch
  refine (State.settles_foldl _ (fun u l => u.logRefused_settles _ _ _ p) _ s).trans (State.settles_foldl _ (fun u r => ?_) _ _)
  split
  · split
    · exact u.settles_refl p
    · exact (u.own_settles _ _ _ p).trans (State.recallPhys_settles _ _ _ p)
  · exact u.walked_settles _ _ p

/-- Units that are read once each: those that were there stay, and the others are those of memory. -/
theorem tget_readUnits (f : Nat → Bool) (v : Nat → DWord) (l : List Nat) (m : Tbl DWord) (i : Nat) :
    (∀ x, tget m i = some x → tget (l.foldl (fun m i => if (tget m i).isSome || f i then m else tset m i (v i)) m) i = some x) ∧
    (∀ x, tget (l.foldl (fun m i => if (tget m i).isSome || f i then m else tset m i (v i)) m) i = some x → tget m i = some x ∨ x = v i) := by
  induction l generalizing m with
  | nil => exact ⟨fun x h => h, fun x h => .inl h⟩
  | cons a l ih =>
    obtain ⟨hkeep, honly⟩ := ih (if (tget m a).isSome || f a then m else tset m a (v a))
    rw [List.foldl_cons]
    by_cases ha : ((tget m a).isSome || f a) = true
    · rw [if_pos ha] at hkeep honly ⊢
      exact ⟨hkeep, honly⟩
    · rw [if_neg ha] at hkeep honly ⊢
      have hnone : tget m a = none := by
        rw [Bool.or_eq_true, not_or, Bool.not_eq_true, Option.isSome_eq_false_iff, Option.isNone_iff_eq_none] at ha
        exact ha.1
      constructor
      · intro x h
        refine hkeep x ?_
        rw [tget_tset, if_neg (fun hi => by rw [hi, hnone] at h; cases h)]
        exact h
      · intro x h
        rcases honly x h with h1 | h1
        · rw [tget_tset] at h1
          split at h1
          · next hi =>
            subst hi
            exact .inr (Option.some.inj h1).symm
          · exact .inl h1
        · exact .inr h1

/-- Where every unit has been read, none is read. -/
theorem readUnits_of_all (h : ∀ i < 4 * (1 + s.extAt t), (tget t.got i).isSome = true) : s.readUnits t = t := by
  have hfold : ∀ (f : Nat → Bool) (l : List Nat) (m : Tbl DWord), (∀ i ∈ l, (tget m i).isSome = true) →
      l.foldl (fun m i => if (tget m i).isSome || f i then m else tset m i (s.memUnit t i)) m = m := fun f l => by
    induction l with
    | nil => exact fun _ _ => rfl
    | cons a l ih =>
      intro m hm
      rw [List.foldl_cons, hm a List.mem_cons_self, Bool.true_or, if_pos rfl]
      exact ih m (fun i hi => hm i (List.mem_cons_of_mem _ hi))
  have hgot : (s.readUnits t).got = t.got := hfold _ _ _ (fun i hi => h i (List.mem_range.1 hi))
  have hsame : s.readUnits t = { t with got := (s.readUnits t).got } := rfl
  rw [hsame, hgot]

theorem decodeRecheck_next (ht : tget s.streams key = some t) (hd : s.decodable t key = true)
    (hp : (List.range (1 + s.extAt t)).any (fun i => s.sysPoison t.hub (s.domain t.did).asid (t.entryVa (t.decode + i)) 32) = false) :
    ∃ u q, exec (.decodeRecheck key) s = .next u ∧ tget u.streams key = some q ∧ (∀ p, s.pendingAt p = false → rdByte u.mem p = rdByte s.mem p) ∧
      q = { t with got := q.got } ∧ (∀ i v, tget t.got i = some v → tget q.got i = some v) ∧
      (∀ i v, tget q.got i = some v → tget t.got i = some v ∨ v = s.memUnit t i) ∧
      (u.turn = .stream → u.curStream = key ∧ ∀ i < 4 * (1 + s.extAt q), (tget q.got i).isSome = true) ∧
      ((∀ i < 4 * (1 + s.extAt t), (tget t.got i).isSome = true) → u.turn = .stream) := by
  obtain ⟨hlooks, -⟩ := Bool.and_eq_true_iff.1 hd
  obtain ⟨s0, hs0⟩ : ∃ s0, s0 = (List.range (1 + s.extAt t)).foldl (fun (u : State) i =>
    u.sysTouch t.hub (s.domain t.did).asid (t.entryVa (t.decode + i)) 32 .read) s := ⟨_, rfl⟩
  have hmem : ∀ p, s.pendingAt p = false → rdByte s0.mem p = rdByte s.mem p := fun p hpend => by
    rw [hs0]
    exact ((State.settles_foldl _ (fun u i => u.sysTouch_settles _ _ _ _ _ p) _ s).frames hpend).2
  obtain ⟨q, hq⟩ : ∃ q, q = s.readUnits t := ⟨_, rfl⟩
  have hexec : exec (.decodeRecheck key) s =
      if (List.range (4 * (1 + s.extAt q))).all (fun i => (tget q.got i).isSome) then
        .next { s0.setStream key q with free := s.free + 16, turn := .stream, curStream := key }
      else done { s0.setStream key q with free := s.free + 16 } := by
    show execDecodeRecheck key s = _
    unfold execDecodeRecheck
    rw [ht, hs0, hq]
    dsimp only
    rw [hlooks, hp, hd]
    rfl
  have hkeep : ∀ i v, tget t.got i = some v → tget q.got i = some v := fun i v h => by
    rw [hq]
    exact (tget_readUnits _ _ _ _ i).1 v h
  have honly : ∀ i v, tget q.got i = some v → tget t.got i = some v ∨ v = s.memUnit t i := fun i v h => by
    rw [hq] at h
    exact (tget_readUnits _ _ _ _ i).2 v h
  have hfields : q = { t with got := q.got } := by
    rw [hq]
    rfl
  by_cases hall : (List.range (4 * (1 + s.extAt q))).all (fun i => (tget q.got i).isSome) = true
  · rw [if_pos hall] at hexec
    exact ⟨_, q, hexec, tget_tset_same _ _ _, hmem, hfields, hkeep, honly,
      fun _ => ⟨rfl, fun i hi => List.all_eq_true.1 hall i (List.mem_range.2 hi)⟩, fun _ => rfl⟩
  · rw [if_neg hall] at hexec
    refine ⟨_, q, hexec, tget_tset_same _ _ _, hmem, hfields, hkeep, honly, (fun h => by cases h), fun h => absurd ?_ hall⟩
    rw [hq, readUnits_of_all h]
    exact List.all_eq_true.2 (fun i hi => h i (List.mem_range.1 hi))

end

end Sys2Proof.Machine
end

section
/-! PROOFS. What a task does when it issues (R253 to R259, R263, R266). -/

namespace Sys2Proof.Machine

section
variable {s : State} {key idx : Nat} {t : Stream} {k : Task}

/-- The effects of the task opcodes once the task has been marked as ISSUED. -/
theorem issueTask_run {k : Task} (h : k.top = 1) (hw : k.wgcount ≠ 0)
    (hp : (s.markIssued key k.idx t.eff).placeTest ((s.markIssued key k.idx t.eff).newWg key t k 0) = none) :
    s.issueTask key t k = (s.markIssued key k.idx t.eff).addGrid key t k := by
  unfold State.issueTask
  rw [h]
  dsimp only
  rw [if_neg (fun hc => hw hc.2), hp]
  exact if_pos rfl

theorem issueTask_prologue {k : Task} (h : k.top = 2)
    (hp : (s.markIssued key k.idx t.eff).placeTest ((s.markIssued key k.idx t.eff).newWg key t k 0) = none) :
    s.issueTask key t k = (s.markIssued key k.idx t.eff).startPro key t k := by
  unfold State.issueTask
  rw [h]
  dsimp only
  rw [if_neg (fun hc => by cases hc.1), hp]
  exact if_neg (by decide)

theorem issueTask_complete {k : Task} (h : k.top = 0 ∨ k.top = 5 ∨ k.top = 7 ∨ k.top = 15 ∨ (k.top = 1 ∧ k.wgcount = 0)) :
    s.issueTask key t k = (s.markIssued key k.idx t.eff).complete key k.idx := by
  unfold State.issueTask
  obtain h | h | h | h | ⟨h, hw⟩ := h
  · rw [h]
    rfl
  · rw [h]
    rfl
  · rw [h]
    rfl
  · rw [h]
    rfl
  · rw [h]
    exact if_pos ⟨rfl, hw⟩

/-- A task without work is COMPLETE at once. -/
theorem State.issued_complete (ht : tget s.streams key = some t) (i p : Nat) : ∃ q1 q, (s.markIssued key i p).complete key i = (s.setStream key q1).setStream key q ∧
    ∀ j, q.task i = some j → j.state = .complete ∧ j.issueNs = s.etime := by
  obtain ⟨q1, h1, hns⟩ := State.markIssued_eq ht i p
  obtain ⟨q2, h2, hdone⟩ := State.complete_eq (s := s.setStream key q1) (tget_tset_same s.streams key q1) i
  refine ⟨q1, q2, ?_, fun j hj => ?_⟩
  · rw [h1, h2]
  · obtain ⟨hstate, k0, hk0, hj⟩ := hdone j hj
    exact ⟨hstate, hj.trans (hns k0 hk0).2⟩

theorem taskIssue_complete (ht : tget s.streams key = some t) (hk : t.task idx = some k) (hc : t.canIssue k = true)
    (h : k.top = 0 ∨ k.top = 5 ∨ k.top = 7 ∨ k.top = 15 ∨ (k.top = 1 ∧ k.wgcount = 0)) :
    ∃ u q, exec (.taskIssue key idx) s = .next u ∧ tget u.streams key = some q ∧ u.mem = s.mem ∧
      ∀ j, q.task idx = some j → j.state = .complete ∧ j.issueNs = s.etime := by
  have hexec := taskIssue_next ht hk hc
  obtain ⟨q1, q, hq, hdone⟩ := State.issued_complete ht idx t.eff
  rw [issueTask_complete h, Stream.task_idx hk, hq] at hexec
  exact ⟨_, q, hexec, tget_tset_same _ _ _, rfl, hdone⟩

/-! Grids. -/

/-- The workgroups of a grid, numbered from the next number on. -/
theorem State.addWgs_eq (s : State) (key : Nat) (t : Stream) (k : Task) (n : Nat) :
    ∃ W, (List.range n).foldl (fun (u : State) i => { u.setWg u.nextId (u.newWg key t k i) with nextId := u.nextId + 1 }) s =
      { s with wgs := W, nextId := s.nextId + n } ∧ ∀ i < n, tget W (s.nextId + i) = some (s.newWg key t k i) := by
  induction n with
  | zero => exact ⟨s.wgs, rfl, fun i hi => absurd hi (Nat.not_lt_zero i)⟩
  | succ n ih =>
    obtain ⟨W, hW, hget⟩ := ih
    refine ⟨tset W (s.nextId + n) (s.newWg key t k n), ?_, fun i hi => ?_⟩
    · rw [List.range_succ, List.foldl_append, hW]
      rfl
    · rw [tget_tset]
      split
      · next h => rw [Nat.add_left_cancel h]
      · next h => exact hget i (by omega)

theorem taskIssue_run (ht : tget s.streams key = some t) (hk : t.task idx = some k) (hc : t.canIssue k = true) (h : k.top = 1) (hw : k.wgcount ≠ 0)
    (hp : (s.markIssued key k.idx t.eff).placeTest ((s.markIssued key k.idx t.eff).newWg key t k 0) = none) :
    ∃ u q, exec (.taskIssue key idx) s = .next u ∧ tget u.streams key = some q ∧ (∀ j, q.task idx = some j → j.state = .issued) ∧
      ∀ i < k.wgcount, ∃ w, tget u.wgs (s.nextId + i) = some w ∧ w.wgid = i ∧ w.state = .unplaced ∧ w.task = idx ∧ w.stream = key ∧
        w.kdesc = k.kdesc ∧ w.did = t.did ∧ w.wgcount = k.wgcount := by
  have hexec := taskIssue_next ht hk hc
  rw [issueTask_run h hw hp] at hexec
  obtain ⟨q, hq, hissued⟩ := State.markIssued_eq ht k.idx t.eff
  have hidx := Stream.task_idx hk
  obtain ⟨W, hW, hget⟩ := State.addWgs_eq { s.setStream key q with
    images := s.images.map (fun (n, i) => (n, i.launched t.did k.kdesc)) } key t k k.wgcount
  have hgrid : (s.markIssued key k.idx t.eff).addGrid key t k = _ := (congrArg (fun u : State => u.addGrid key t k) hq).trans hW
  rw [hgrid] at hexec
  refine ⟨_, q, hexec, tget_tset_same _ _ _, fun j hj => (hissued j (hidx.symm ▸ hj)).1, fun i hi => ⟨_, hget i hi, rfl, rfl, hidx, rfl, rfl, rfl, rfl⟩⟩

/-! Prologues. -/

theorem tget_filter_value {α : Type} (p : Nat × α → Bool) (m : Tbl α) (i : Nat) {v : α} (h : tget m i = some v) (hp : p (i, v) = true) :
    tget (m.filter p) i = some v := by
  induction m with
  | nil => cases h
  | cons a m ih =>
    obtain ⟨j, w⟩ := a
    rw [List.filter_cons]
    by_cases hj : j = i
    · subst hj
      rw [tget, if_pos rfl] at h
      cases h
      rw [if_pos hp, tget, if_pos rfl]
    · rw [tget, if_neg hj] at h
      split
      · rw [tget, if_neg hj]
        exact ih h
      · exact ih h

theorem tget_filter_none {α : Type} (p : Nat × α → Bool) (m : Tbl α) (i : Nat) (h : tget m i = none) : tget (m.filter p) i = none := by
  induction m with
  | nil => rfl
  | cons a m ih =>
    obtain ⟨j, w⟩ := a
    rw [tget] at h
    split at h
    · cases h
    · next hj =>
      rw [List.filter_cons]
      split
      · rw [tget, if_neg hj]
        exact ih h
      · exact ih h

/-- s10 of a prologue's rope is the number of the run. -/
theorem proArgs_run (k : Task) : rget 0 (k.proArgs.filter (fun e => decide (e.1 < 64) && e.2 != 0)) 10 = BitVec.ofNat 32 k.run := by
  unfold Task.proArgs
  generalize (if k.run = 0 then rset 0 (rset 0 k.args 8 (BitVec.ofNat 32 k.wgcount)) 9 0 else k.args) = m
  unfold rget rset
  by_cases h0 : BitVec.ofNat 32 k.run = 0
  · rw [if_pos h0, tget_filter_none _ _ _ (by rw [tget_terase, if_pos rfl]), h0]
    rfl
  · rw [if_neg h0, tget_filter_value _ _ _ (tget_tset_same _ _ _) (by simpa using h0)]
    rfl

/-- A prologue's workgroup and its rope, as they start. -/
theorem State.startPro_spec (s : State) (key : Nat) (t : Stream) (k : Task) : ∃ w r, tget (s.startPro key t k).wgs s.nextId = some w ∧ w.pro = some 0 ∧
    w.state = .resident ∧ w.ropes = [s.nextId + 1] ∧ tget (s.startPro key t k).ropes (s.nextId + 1) = some r ∧ r.priv = .task ∧
    (∃ x, r.strands = [x] ∧ x.pc = kdPro k.kdesc ∧ x.active = 1) ∧ r.sr 10 = BitVec.ofNat 32 k.run := by
  refine ⟨_, _, tget_tset_same _ _ _, rfl, rfl, rfl, tget_tset_same _ _ _, rfl, ⟨_, rfl, rfl, rfl⟩, ?_⟩
  exact proArgs_run k

theorem taskIssue_prologue (ht : tget s.streams key = some t) (hk : t.task idx = some k) (hc : t.canIssue k = true) (h : k.top = 2)
    (hp : (s.markIssued key k.idx t.eff).placeTest ((s.markIssued key k.idx t.eff).newWg key t k 0) = none) :
    ∃ u w r, exec (.taskIssue key idx) s = .next u ∧ tget u.wgs s.nextId = some w ∧ w.pro = some 0 ∧ w.state = .resident ∧
      w.ropes = [s.nextId + 1] ∧ tget u.ropes (s.nextId + 1) = some r ∧ r.priv = .task ∧ (∃ x, r.strands = [x] ∧ x.pc = kdPro k.kdesc ∧ x.active = 1) ∧
      r.sr 10 = BitVec.ofNat 32 k.run := by
  have hexec := taskIssue_next ht hk hc
  rw [issueTask_prologue h hp] at hexec
  obtain ⟨q, hq, -⟩ := State.markIssued_eq ht k.idx t.eff
  rw [hq] at hexec
  obtain ⟨w, r, hw⟩ := (s.setStream key q).startPro_spec key t k
  exact ⟨_, w, r, hexec, hw⟩

/-! Copies, fences and invalidations. -/

theorem State.startCopy_spec (s : State) (key : Nat) (t : Stream) (k : Task) (cmd : Option CpCmd) (own : Option (Nat × Word × Shape)) :
    ∃ c, tget (s.startCopy key t k cmd own).ctxs s.nextId = some c ∧ c.task = some (key, k.idx) ∧ c.did = t.did ∧ c.pc = 0 ∧
      rget 0 c.h 0 = k.src ∧ rget 0 c.h 1 = k.dst ∧ c.own = own ∧ c.cmd = cmd :=
  ⟨_, tget_tset_same _ _ _, rfl, rfl, rfl, rfl, rfl, rfl, rfl⟩

theorem issueTask_copy {k : Task} (h : k.top = 3 ∨ k.top = 4 ∨ k.top = 6) : ∃ cmd own,
    s.issueTask key t k = (s.markIssued key k.idx t.eff).startCopy key t k cmd own ∧ (k.top = 6 → own = none ∧ cmd.isSome = true) ∧
      (k.top ≠ 6 → own.isSome = true) := by
  unfold State.issueTask
  obtain h | h | h := h
  · rw [h]
    exact ⟨_, _, rfl, fun h => absurd h (by decide), fun _ => rfl⟩
  · rw [h]
    exact ⟨_, _, rfl, fun h => absurd h (by decide), fun _ => rfl⟩
  · rw [h]
    exact ⟨_, _, rfl, fun _ => ⟨rfl, rfl⟩, fun h => absurd rfl h⟩

theorem taskIssue_copy (ht : tget s.streams key = some t) (hk : t.task idx = some k) (hc : t.canIssue k = true) (h : k.top = 3 ∨ k.top = 4 ∨ k.top = 6) :
    ∃ u c, exec (.taskIssue key idx) s = .next u ∧ tget u.ctxs s.nextId = some c ∧ c.task = some (key, idx) ∧ c.did = t.did ∧ c.pc = 0 ∧
      rget 0 c.h 0 = k.src ∧ rget 0 c.h 1 = k.dst ∧ (k.top = 6 → c.own = none ∧ c.cmd.isSome = true) ∧ (k.top ≠ 6 → c.own.isSome = true) := by
  have hexec := taskIssue_next ht hk hc
  obtain ⟨cmd, own, hissue, h6, hne⟩ := issueTask_copy (s := s) (key := key) (t := t) h
  obtain ⟨q, hq, -⟩ := State.markIssued_eq ht k.idx t.eff
  rw [hissue, hq] at hexec
  obtain ⟨c, hget, htask, hdid, hpc, h0, h1, hown, hcmd⟩ := (s.setStream key q).startCopy_spec key t k cmd own
  rw [Stream.task_idx hk] at htask
  refine ⟨_, c, hexec, hget, htask, hdid, hpc, h0, h1, ?_, ?_⟩
  · rw [hown, hcmd]
    exact h6
  · rw [hown]
    exact hne

theorem taskIssue_waits (ht : tget s.streams key = some t) (hk : t.task idx = some k) (hc : t.canIssue k = true) (h : k.top = 9 ∨ k.top = 10) :
    ∃ u q, exec (.taskIssue key idx) s = .next u ∧ tget u.streams key = some q ∧ u.mem = s.mem ∧ ∀ j, q.task idx = some j → j.state = .issued := by
  have hexec := taskIssue_next ht hk hc
  have hissue : s.issueTask key t k = s.markIssued key k.idx t.eff := by
    unfold State.issueTask
    obtain h | h := h <;> rw [h] <;> rfl
  obtain ⟨q, hq, hissued⟩ := State.markIssued_eq ht k.idx t.eff
  rw [hissue, hq] at hexec
  exact ⟨_, q, hexec, tget_tset_same _ _ _, rfl, fun j hj => (hissued j ((Stream.task_idx hk).symm ▸ hj)).1⟩

/-- Lines that are evicted are gone, with the lines of their tags. -/
theorem State.evictLines_mem (ls : List L2Line) (s : State) (l : L2Line) :
    l ∈ (ls.foldl State.evictLine s).l2 ↔ l ∈ s.l2 ∧ ∀ m ∈ ls, ¬ (l.asid = m.asid ∧ l.line = m.line) := by
  induction ls generalizing s with
  | nil => simp
  | cons m ls ih =>
    rw [List.foldl_cons, ih, List.forall_mem_cons, ← and_assoc]
    refine and_congr_left' ?_
    show l ∈ s.l2.filter _ ↔ _
    rw [List.mem_filter, Bool.not_eq_true', ← Bool.not_eq_true, Bool.and_eq_true, beq_iff_eq, beq_iff_eq]

/-- The places that a TINVAL hits. -/
def invalHits (w : TaskWord) (lo n : Nat) : Bool :=
  t0Bits w 10 1 == 1 || (decide (0 < w.t3.toNat) && decide (lo < (w.t2 ++ w.t1).toNat + w.t3.toNat) && decide ((w.t2 ++ w.t1).toNat < lo + n))

theorem invalHits_iff (w : TaskWord) (lo n : Nat) : invalHits w lo n = true ↔
    t0Bits w 10 1 = 1 ∨ 0 < w.t3.toNat ∧ lo < (w.t2 ++ w.t1).toNat + w.t3.toNat ∧ (w.t2 ++ w.t1).toNat < lo + n := by
  unfold invalHits
  rw [Bool.or_eq_true, Bool.and_eq_true, Bool.and_eq_true, beq_iff_eq, decide_eq_true_eq, decide_eq_true_eq, decide_eq_true_eq, and_assoc]

theorem State.inval_eq (s : State) (asid : BitVec 16) (w : TaskWord) : ∃ m ls, s.inval asid w = { s with
      mem := m, l2 := ls
      tlb := s.tlb.filter (fun e => !(e.asid == asid && invalHits w (65536 * e.page) 65536))
      code := s.code.filter (fun l => !(l.asid == asid && invalHits w (128 * l.line) 128))
      owners := s.owners.filter (fun e => !(e.2.1 == asid && invalHits w (65536 * e.2.2) 65536)) } ∧
    (∀ l, l ∈ ls ↔ l ∈ s.l2 ∧ ¬ (l.asid = asid ∧ invalHits w (128 * l.line) 128 = true)) ∧
    ∀ p, s.pendingAt p = false → rdByte m p = rdByte s.mem p := by
  obtain ⟨hit, hhit⟩ : ∃ hit, hit = s.l2.filter (fun l => l.asid == asid && invalHits w (128 * l.line) 128) := ⟨_, rfl⟩
  obtain ⟨ks, hev, -⟩ := State.evictLines_eq hit s
  have hmem := State.evictLines_mem hit s
  have hsettles := fun p => State.evictLines_settles hit s p (fun l hl => by rw [hhit] at hl; exact (List.mem_filter.1 hl).1)
  rw [hev] at hmem hsettles
  refine ⟨hit.foldl (fun m l => l.combined m) s.mem, ks, ?_, fun l => ?_, fun p hp => ((hsettles p).frames hp).2⟩
  · have hinval : s.inval asid w = { hit.foldl State.evictLine s with
        tlb := (hit.foldl State.evictLine s).tlb.filter (fun e => !(e.asid == asid && invalHits w (65536 * e.page) 65536))
        code := (hit.foldl State.evictLine s).code.filter (fun l => !(l.asid == asid && invalHits w (128 * l.line) 128))
        owners := (hit.foldl State.evictLine s).owners.filter (fun e => !(e.2.1 == asid && invalHits w (65536 * e.2.2) 65536)) } := by
      rw [hhit]
      rfl
    rw [hinval, hev]
  · refine (hmem l).trans (and_congr_right fun hl => ?_)
    constructor
    · rintro h ⟨ha, hh⟩
      refine h l ?_ ⟨rfl, rfl⟩
      rw [hhit]
      exact List.mem_filter.2 ⟨hl, by rw [hh, ha, Bool.and_true]; exact beq_iff_eq.2 rfl⟩
    · rintro h m hm ⟨ha, hline⟩
      rw [hhit] at hm
      obtain ⟨-, hm⟩ := List.mem_filter.1 hm
      rw [Bool.and_eq_true, beq_iff_eq, ← ha, ← hline] at hm
      exact h hm

theorem taskIssue_inval (ht : tget s.streams key = some t) (hk : t.task idx = some k) (hc : t.canIssue k = true) (h : k.top = 11) :
    ∃ u q, exec (.taskIssue key idx) s = .next u ∧
      (∀ e, e ∈ u.tlb ↔ e ∈ s.tlb ∧ ¬ (e.asid = (s.domain t.did).asid ∧ invalHits k.w (65536 * e.page) 65536 = true)) ∧
      (∀ l, l ∈ u.l2 ↔ l ∈ s.l2 ∧ ¬ (l.asid = (s.domain t.did).asid ∧ invalHits k.w (128 * l.line) 128 = true)) ∧
      (∀ l, l ∈ u.code ↔ l ∈ s.code ∧ ¬ (l.asid = (s.domain t.did).asid ∧ invalHits k.w (128 * l.line) 128 = true)) ∧
      (∀ e, e ∈ u.owners ↔ e ∈ s.owners ∧ ¬ (e.2.1 = (s.domain t.did).asid ∧ invalHits k.w (65536 * e.2.2) 65536 = true)) ∧
      (∀ p, s.pendingAt p = false → rdByte u.mem p = rdByte s.mem p) ∧ tget u.streams key = some q ∧
      ∀ j, q.task idx = some j → j.state = .complete ∧ j.issueNs = s.etime := by
  have hexec := taskIssue_next ht hk hc
  have hissue : s.issueTask key t k = ((s.markIssued key k.idx t.eff).inval (s.domain t.did).asid k.w).complete key k.idx := by
    unfold State.issueTask
    rw [h]
    rfl
  obtain ⟨q1, hq1, hissued⟩ := State.markIssued_eq ht k.idx t.eff
  obtain ⟨m, ls, hinval, hlines, hbytes⟩ := (s.setStream key q1).inval_eq (s.domain t.did).asid k.w
  rw [hissue, hq1, hinval] at hexec
  obtain ⟨v, hv⟩ : ∃ v, v = (s.setStream key q1).inval (s.domain t.did).asid k.w := ⟨_, rfl⟩
  obtain ⟨q2, hq2, hdone⟩ := State.complete_eq (s := v) (key := key) (t := q1) (by rw [hv, hinval]; exact tget_tset_same _ _ _) k.idx
  rw [hv, hinval] at hq2
  rw [hq2] at hexec
  have hfilter : ∀ {α : Type} (l : List α) (a : α → BitVec 16) (b : α → Bool) (e : α),
      e ∈ l.filter (fun e => !(a e == (s.domain t.did).asid && b e)) ↔ e ∈ l ∧ ¬ (a e = (s.domain t.did).asid ∧ b e = true) := by
    intro α l a b e
    rw [List.mem_filter, Bool.not_eq_true', ← Bool.not_eq_true, Bool.and_eq_true, beq_iff_eq]
  refine ⟨_, q2, hexec, fun e => hfilter s.tlb _ _ e, hlines, fun l => hfilter s.code _ _ l, fun e => hfilter s.owners _ _ e, hbytes,
    tget_tset_same _ _ _, fun j hj => ?_⟩
  obtain ⟨hstate, k0, hk0, hns⟩ := hdone j ((Stream.task_idx hk).symm ▸ hj)
  exact ⟨hstate, hns.trans (hissued k0 hk0).2⟩

end

end Sys2Proof.Machine
end

section
/-! PROOFS. Signals and delegations at issue, the ends of prologues and tasks, retirement (R255, R256, R260, R264, R269). -/

namespace Sys2Proof.Machine

section
variable {s : State} {key idx : Nat} {t : Stream} {k : Task}

/-! Signals. -/

theorem foldl_zipIdx_wrBytes (bs : List Byte) (m : Tbl Byte) (a n : Nat) :
    (bs.zipIdx n).foldl (fun m p => wrBytes m (a + p.2) [p.1]) m = wrBytes m (a + n) bs := by
  induction bs generalizing m n with
  | nil => rfl
  | cons b bs ih =>
    rw [List.zipIdx_cons, List.foldl_cons, ih]
    rfl

theorem putBytes_host {g : Target} (hg : g.space = spHost) (s : State) (a : Nat) (bs : List Byte) (rmw : Bool) :
    ∃ u, s.putBytes g a bs rmw = u ∧ u.held = (s.mem, wrBytes s.host a bs, s.peer, s.ctxs) ∧ u.outside = s.outside := by
  have hfold : ∀ (l : List (Byte × Nat)) (v : State), l.foldl (fun (u : State) p => u.poke g (a + p.2) p.1) v =
      { v with host := l.foldl (fun h p => wrBytes h (a + p.2) [p.1]) v.host } := fun l => by
    induction l with
    | nil => exact fun _ => rfl
    | cons p l ih =>
      intro v
      rw [List.foldl_cons, ih, poke_host hg]
      rfl
  refine ⟨_, rfl, ?_, ?_⟩
  · unfold State.putBytes
    rw [State.poked_held, hfold, foldl_zipIdx_wrBytes]
    rfl
  · unfold State.putBytes
    rw [State.poked_outside, hfold]
    rfl

/-- The word of a signal through a HOST handle, without a record. -/
theorem signal_host {x : Stream} (hx : tget s.streams key = some x) {r : Region} (hr : k.regions = [r]) {w : Target}
    (hw : (s.handle t.did (s.domain t.did).asid (rdIdx k.w.t1)).taskTarget t key s.nextId true = w) (hspace : w.space = 2)
    (hk : k.idx = idx) :
    ((s.linkTakes w r.base 8).1 = true → ∃ u, s.signal key t k = u ∧ u.mem = s.mem ∧ u.host = wrBytes s.host r.base (leBytes 8
      (if t0Bits k.w 10 2 = 1 then (leNat (rdBytes s.host r.base 8) + (k.w.t5 ++ k.w.t4).toNat) % 2 ^ 64 else (k.w.t5 ++ k.w.t4).toNat))) ∧
    ((s.linkTakes w r.base 8).1 = false → ∃ u, s.signal key t k = u ∧ u.host = s.host ∧
      u.faults = s.faults ++ [⟨key, idx, ⟨2, 5, 0, 0⟩, 0xFFFFFFFF, none, s.etime⟩]) := by
  have hhost : w.space = spHost := hspace
  have hglobal : (w.space == spGlobal) = false := by rw [hspace]; rfl
  have hwaits : s.signalWaits key t k = false := by
    unfold State.signalWaits
    rw [hr]
    dsimp only
    rw [hw, Bool.or_false]
    unfold State.sigWaits
    rw [hglobal, Bool.false_and]
  have hadd : (t0Bits k.w 10 2 == 1) = decide (t0Bits k.w 10 2 = 1) := beq_eq_decide _ _
  have hsignal : s.signal key t k = s.sigWord key k w r.base (if t0Bits k.w 10 2 = 1 then
      (leNat (rdBytes s.host r.base 8) + (k.w.t5 ++ k.w.t4).toNat) % 2 ^ 64 else (k.w.t5 ++ k.w.t4).toNat) (t0Bits k.w 10 2 == 1) := by
    unfold State.signal
    rw [hr]
    dsimp only
    rw [hw, hwaits, hglobal, Bool.and_false, Bool.false_and, peek_host hhost, hadd]
    simp only [Bool.false_eq_true, if_false, decide_eq_true_eq]
    rfl
  have htakes : s.sigTakes w r.base 8 = s.linkTakes w r.base 8 := if_neg (by rw [hspace]; decide)
  rw [hsignal]
  generalize (if t0Bits k.w 10 2 = 1 then (leNat (rdBytes s.host r.base 8) + (k.w.t5 ++ k.w.t4).toNat) % 2 ^ 64 else (k.w.t5 ++ k.w.t4).toNat) = new
  have hlink : (s.linkTakes w r.base 8).2.held = s.held ∧ (s.linkTakes w r.base 8).2.outside = s.outside := by
    refine ⟨?_, s.linkTakes_outside _ _ _⟩
    unfold State.linkTakes
    split <;> rfl
  unfold State.sigWord
  rw [htakes]
  revert hlink
  cases s.linkTakes w r.base 8 with
  | mk ok s1 =>
    rintro ⟨hheld, hout⟩
    have hstreams : s1.streams = s.streams := (congrArg State.streams hout :)
    have hfaults : s1.faults = s.faults := (congrArg State.faults hout :)
    have hetime : s1.etime = s.etime := (congrArg (fun x : State => x.etime) hout :)
    refine ⟨fun hok => ?_, fun hno => ?_⟩
    · cases hok
      obtain ⟨u, hu, huheld, huout⟩ := putBytes_host hhost s1 r.base (leBytes 8 new) (t0Bits k.w 10 2 == 1)
      dsimp only
      rw [hu]
      have husame : tget u.streams key = some x := by
        rw [show u.streams = s1.streams from (congrArg State.streams huout :), hstreams]
        exact hx
      obtain ⟨q, hq, -⟩ := State.complete_eq husame k.idx
      rw [hq]
      refine ⟨_, rfl, ?_, ?_⟩
      · exact (congrArg (fun x => x.1) huheld).trans (congrArg (fun x => x.1) hheld)
      · refine (congrArg (fun x => x.2.1) huheld).trans ?_
        rw [show s1.host = s.host from congrArg (fun x => x.2.1) hheld]
    · cases hno
      refine ⟨_, rfl, congrArg (fun x => x.2.1) hheld, ?_⟩
      show s1.faults ++ [⟨key, k.idx, ⟨2, 5, 0, 0⟩, 0xFFFFFFFF, none, s1.etime⟩] = _
      rw [hfaults, hetime, hk]

theorem taskIssue_signal (ht : tget s.streams key = some t) (hk : t.task idx = some k) (hc : t.canIssue k = true) (h : k.top = 8) {r : Region}
    (hr : k.regions = [r]) {w : Target} (hw : (s.handle t.did (s.domain t.did).asid (rdIdx k.w.t1)).taskTarget t key s.nextId true = w)
    (hspace : w.space = 2) :
    ((s.linkTakes w r.base 8).1 = true → ∃ u, exec (.taskIssue key idx) s = .next u ∧ u.mem = s.mem ∧ rdBytes u.host r.base 8 = leBytes 8
      (if t0Bits k.w 10 2 = 1 then (leNat (rdBytes s.host r.base 8) + (k.w.t5 ++ k.w.t4).toNat) % 2 ^ 64 else (k.w.t5 ++ k.w.t4).toNat)) ∧
    ((s.linkTakes w r.base 8).1 = false → ∃ u, exec (.taskIssue key idx) s = .next u ∧ u.host = s.host ∧
      u.faults = s.faults ++ [⟨key, idx, ⟨2, 5, 0, 0⟩, 0xFFFFFFFF, none, s.etime⟩]) := by
  have hexec := taskIssue_next ht hk hc
  have hissue : s.issueTask key t k = (s.markIssued key k.idx t.eff).signal key t k := by
    unfold State.issueTask
    rw [h]
    rfl
  obtain ⟨q, hq, -⟩ := State.markIssued_eq ht k.idx t.eff
  rw [hissue, hq] at hexec
  obtain ⟨htake, hrefuse⟩ := signal_host (s := s.setStream key q) (key := key) (t := t) (k := k) (tget_tset_same _ _ _) hr hw hspace (Stream.task_idx hk)
  have hlink : ((s.setStream key q).linkTakes w r.base 8).1 = (s.linkTakes w r.base 8).1 := by
    unfold State.linkTakes
    rw [show (s.setStream key q).linkOk w r.base 8 = s.linkOk w r.base 8 from rfl]
    split <;> rfl
  rw [hlink] at htake hrefuse
  refine ⟨fun hok => ?_, fun hno => ?_⟩
  · obtain ⟨u, hu, hmem, hhost⟩ := htake hok
    rw [hu] at hexec
    refine ⟨_, hexec, hmem, ?_⟩
    show rdBytes u.host r.base 8 = _
    rw [hhost]
    have h8 : ∀ (m : Tbl Byte) (v : Nat), rdBytes (wrBytes m r.base (leBytes 8 v)) r.base 8 = leBytes 8 v := fun m v => by
      have h := rdBytes_wrBytes m r.base (leBytes 8 v)
      rwa [leBytes_length] at h
    exact h8 _ _
  · obtain ⟨u, hu, hhost, hfaults⟩ := hrefuse hno
    rw [hu] at hexec
    exact ⟨_, hexec, hhost, hfaults⟩

/-! Delegations. -/

/-- The streams of a state with a task marked as ISSUED. -/
theorem State.markIssued_get (ht : tget s.streams key = some t) (i p n : Nat) :
    (∀ y, tget s.streams n = some y → ∃ z, tget (s.markIssued key i p).streams n = some z ∧ z.valid = y.valid ∧ ctrlEntry z = ctrlEntry y) ∧
    (tget s.streams n = none → tget (s.markIssued key i p).streams n = none) := by
  have heq : s.markIssued key i p = s.setStream key (t.onTask i (fun k => { k with state := .issued, issueNs := s.etime, prio := p })) :=
    State.onStream_eq ht _
  rw [heq]
  refine ⟨fun y hy => ?_, fun hnone => ?_⟩
  · by_cases hn : n = key
    · subst hn
      rw [ht] at hy
      cases hy
      exact ⟨_, tget_tset_same _ _ _, rfl, rfl⟩
    · exact ⟨y, (tget_tset_ne _ _ hn).trans hy, rfl, rfl⟩
  · refine (tget_tset_ne _ _ (fun hn => ?_)).trans hnone
    rw [hn, ht] at hnone
    cases hnone

theorem issueTask_gate {k : Task} (h : k.top = 12) :
    (∀ v, (s.markIssued key k.idx t.eff).delegate t k.w = some v → s.issueTask key t k = v.complete key k.idx) ∧
    ((s.markIssued key k.idx t.eff).delegate t k.w = none → s.issueTask key t k = (s.markIssued key k.idx t.eff).taskFault key k.idx 9 1 0) := by
  have hissue : s.issueTask key t k = ((s.markIssued key k.idx t.eff).delegate t k.w).elim
      ((s.markIssued key k.idx t.eff).taskFault key k.idx 9 1 0) (fun v => v.complete key k.idx) := by
    unfold State.issueTask
    rw [h]
    dsimp only
    cases (s.markIssued key k.idx t.eff).delegate t k.w <;> rfl
  rw [hissue]
  exact ⟨fun v hv => by rw [hv]; rfl, fun hv => by rw [hv]; rfl⟩

/-- A delegation that is made completes its task. -/
theorem taskIssue_delegates (ht : tget s.streams key = some t) (hk : t.task idx = some k) (hc : t.canIssue k = true) (h : k.top = 12) {v : State}
    (hv : (s.markIssued key k.idx t.eff).delegate t k.w = some v)
    (hsame : v.streams = (s.markIssued key k.idx t.eff).streams ∧ v.faults = (s.markIssued key k.idx t.eff).faults) :
    ∃ u q, exec (.taskIssue key idx) s = .next u ∧ u.faults = s.faults ∧ tget u.streams key = some q ∧ (∀ j, q.task idx = some j → j.state = .complete) ∧
      ∀ x, u.domain x = v.domain x := by
  have hexec := taskIssue_next ht hk hc
  obtain ⟨q1, hq1, -⟩ := State.markIssued_eq ht k.idx t.eff
  obtain ⟨hstreams, hfaults⟩ := hsame
  rw [hq1] at hstreams hfaults
  obtain ⟨q, hq, hdone⟩ := State.complete_eq (s := v) (key := key) (t := q1) (by rw [hstreams]; exact tget_tset_same _ _ _) k.idx
  rw [(issueTask_gate h).1 v hv, hq] at hexec
  exact ⟨_, q, hexec, hfaults, tget_tset_same _ _ _, fun j hj => (hdone j ((Stream.task_idx hk).symm ▸ hj)).1, fun _ => rfl⟩

theorem taskIssue_refused (ht : tget s.streams key = some t) (hk : t.task idx = some k) (hc : t.canIssue k = true) (h : k.top = 12)
    (hv : (s.markIssued key k.idx t.eff).delegate t k.w = none) :
    ∃ u, exec (.taskIssue key idx) s = .next u ∧ u.domains = s.domains ∧
      u.faults = s.faults ++ [⟨key, k.idx, ⟨9, 1, 0, 0⟩, 0xFFFFFFFF, none, s.etime⟩] := by
  have hexec := taskIssue_next ht hk hc
  obtain ⟨q1, hq1, -⟩ := State.markIssued_eq ht k.idx t.eff
  rw [(issueTask_gate h).2 hv, hq1] at hexec
  exact ⟨_, hexec, rfl, rfl⟩

/-- What a delegation changes: one handle entry of a domain. -/
structure State.PutsEntry (s v : State) (did : BitVec 16) (tgt : Nat) (e : BitVec 256) : Prop where
  streams : v.streams = s.streams
  faults : v.faults = s.faults
  entry : rget 0 (v.domain did).handles tgt = e
  others : ∀ n, n ≠ tgt → rget 0 (v.domain did).handles n = rget 0 (s.domain did).handles n
  domains : ∀ x, x ≠ did → v.domain x = s.domain x

theorem State.setDomain_putsEntry (s : State) (did : BitVec 16) (x : Domain) (tgt : Nat) (e : BitVec 256)
    (hx : x.handles = rset 0 (s.domain did).handles tgt e) : s.PutsEntry (s.setDomain did x) did tgt e := by
  refine ⟨rfl, rfl, ?_, fun n hn => ?_, fun d hd => ?_⟩
  · rw [State.domain_setDomain, if_pos rfl, hx, rget_rset, if_pos rfl]
  · rw [State.domain_setDomain, if_pos rfl, hx, rget_rset, if_neg hn]
  · rw [State.domain_setDomain, if_neg hd]

/-- The fields of the handle entry that reaches a stream (R241, R264). -/
theorem ctrlEntry_fields {y : Stream} (h : y.ringN < 2 ^ 40) : (ctrlEntry y).extractLsb' 0 64 = y.num.setWidth 64 ∧
    ((ctrlEntry y).extractLsb' 64 48).toNat = 4096 + 32 * y.ringN ∧ (ctrlEntry y).getLsbD 128 = true ∧
    ((ctrlEntry y).extractLsb' 129 3).toNat = 4 ∧ (ctrlEntry y).extractLsb' 134 4 = 0b1011 := by
  have hnum := y.num.isLt
  have hval : (ctrlEntry y).toNat = y.num.toNat + (4096 + 32 * y.ringN) * 2 ^ 64 + 713 * 2 ^ 128 := by
    unfold ctrlEntry
    rw [BitVec.toNat_ofNat, Nat.mod_eq_of_lt]
    · rfl
    · show y.num.toNat + (4096 + 32 * y.ringN) * 2 ^ 64 + 713 * 2 ^ 128 < 2 ^ 256
      omega
  generalize y.ringN = N at *
  refine ⟨BitVec.eq_of_toNat_eq ?_, ?_, ?_, ?_, BitVec.eq_of_toNat_eq ?_⟩
  · rw [BitVec.extractLsb'_toNat, hval, BitVec.toNat_setWidth, Nat.shiftRight_zero]
    omega
  · rw [BitVec.extractLsb'_toNat, hval, Nat.shiftRight_eq_div_pow]
    omega
  · rw [BitVec.getLsbD, hval, Nat.testBit_eq_decide_div_mod_eq, decide_eq_true_eq]
    omega
  · rw [BitVec.extractLsb'_toNat, hval, Nat.shiftRight_eq_div_pow]
    omega
  · rw [BitVec.extractLsb'_toNat, hval, Nat.shiftRight_eq_div_pow]
    show _ = 11
    omega

/-- A handle entry with its rights masked. -/
def maskedRights (e : BitVec 256) (m : BitVec 4) : BitVec 256 := e &&& ~~~(((~~~m).setWidth 256) <<< 134)

theorem maskedRights_fields (e : BitVec 256) (m : BitVec 4) : (maskedRights e m).extractLsb' 134 4 = e.extractLsb' 134 4 &&& m ∧
    ∀ i, i < 134 ∨ 138 ≤ i → (maskedRights e m).getLsbD i = e.getLsbD i := by
  unfold maskedRights
  constructor
  · ext i hi
    have h1 : 134 + i < 256 := by omega
    have h2 : i < 256 := by omega
    simp [hi, h1, h2]
  · intro i hi
    simp only [BitVec.getLsbD_and, BitVec.getLsbD_not, BitVec.getLsbD_shiftLeft, BitVec.getLsbD_setWidth]
    cases he : e.getLsbD i with
    | false => rfl
    | true =>
      have h256 := BitVec.lt_of_getLsbD he
      obtain hi | hi := hi
      · simp [h256, hi]
      · have h4 : ¬ i - 134 < 4 := by omega
        simp [h256, h4]

/-- The conditions of a delegation, one after the other (R264). -/
def State.gateAdmits (s : State) (t : Stream) (w : TaskWord) : Bool :=
  (s.domain (w.t1.extractLsb' 0 16)).valid && Config.policyAdmits t.did (w.t1.extractLsb' 0 16) (gateRequest w)

theorem delegate_refused {w : TaskWord} (h : s.gateAdmits t w = false) : s.delegate t w = none := by
  unfold State.delegate
  refine if_pos ?_
  rw [← Bool.not_and]
  exact congrArg Bool.not h

section
variable {w : TaskWord} (h : s.gateAdmits t w = true)
include h

theorem gateAdmits_goes : ¬ (!(s.domain (w.t1.extractLsb' 0 16)).valid || !Config.policyAdmits t.did (w.t1.extractLsb' 0 16) (gateRequest w)) = true := by
  rw [← Bool.not_and, show (_ && _) = true from h]
  decide

theorem delegate_withdraws (hr : t0Bits w 11 1 = 1) : ∃ v, s.delegate t w = some v ∧ s.PutsEntry v (w.t1.extractLsb' 0 16) (w.t3.extractLsb' 0 12).toNat
    (if tget (s.domain (w.t1.extractLsb' 0 16)).given (w.t3.extractLsb' 0 12).toNat = some t.did then 0
      else rget 0 (s.domain (w.t1.extractLsb' 0 16)).handles (w.t3.extractLsb' 0 12).toNat) := by
  by_cases hg : tget (s.domain (w.t1.extractLsb' 0 16)).given (w.t3.extractLsb' 0 12).toNat = some t.did
  · refine ⟨_, (if_neg (gateAdmits_goes h)).trans ((if_pos hr).trans (congrArg some (if_pos hg))), ?_⟩
    rw [if_pos hg]
    exact State.setDomain_putsEntry s _ _ _ 0 rfl
  · refine ⟨s, (if_neg (gateAdmits_goes h)).trans ((if_pos hr).trans (congrArg some (if_neg hg))), ?_⟩
    rw [if_neg hg]
    exact ⟨rfl, rfl, rfl, fun _ _ => rfl, fun _ _ => rfl⟩

theorem delegate_stream (hr : t0Bits w 11 1 = 0) (hkind : t0Bits w 10 1 = 0) {y : Stream}
    (hy : tget s.streams (streamKey t.did (w.t2.extractLsb' 0 12).toNat) = some y) (hv : y.valid = true) :
    ∃ v, s.delegate t w = some v ∧ s.PutsEntry v (w.t1.extractLsb' 0 16) (w.t3.extractLsb' 0 12).toNat (ctrlEntry y) := by
  have hgo : s.delegate t w = _ := (if_neg (gateAdmits_goes h)).trans ((if_neg (by rw [hr]; decide)).trans (if_pos hkind))
  rw [hy] at hgo
  refine ⟨_, hgo.trans (if_pos hv), ?_⟩
  generalize ctrlEntry y = e
  exact State.setDomain_putsEntry s _ _ _ _ rfl

theorem delegate_noStream (hr : t0Bits w 11 1 = 0) (hkind : t0Bits w 10 1 = 0)
    (hy : ∀ y, tget s.streams (streamKey t.did (w.t2.extractLsb' 0 12).toNat) = some y → y.valid = false) : s.delegate t w = none := by
  have hgo : s.delegate t w = _ := (if_neg (gateAdmits_goes h)).trans ((if_neg (by rw [hr]; decide)).trans (if_pos hkind))
  rw [hgo]
  split
  · next y heq => exact if_neg (by rw [hy y heq]; decide)
  · rfl

theorem delegate_handle (hr : t0Bits w 11 1 = 0) (hkind : t0Bits w 10 1 = 1)
    (hv : (s.handle t.did (s.domain t.did).asid (w.t2.extractLsb' 0 12)).ent.v = true) :
    ∃ v, s.delegate t w = some v ∧ s.PutsEntry v (w.t1.extractLsb' 0 16) (w.t3.extractLsb' 0 12).toNat
      (maskedRights (s.handle t.did (s.domain t.did).asid (w.t2.extractLsb' 0 12)).raw (w.t4.extractLsb' 0 4)) := by
  have hgo : s.delegate t w = _ := (if_neg (gateAdmits_goes h)).trans ((if_neg (by rw [hr]; decide)).trans ((if_neg (by rw [hkind]; decide)).trans
    (if_neg (by rw [hv]; decide))))
  exact ⟨_, hgo, State.setDomain_putsEntry s _ _ _ _ rfl⟩

theorem delegate_noHandle (hr : t0Bits w 11 1 = 0) (hkind : t0Bits w 10 1 = 1)
    (hv : (s.handle t.did (s.domain t.did).asid (w.t2.extractLsb' 0 12)).ent.v = false) : s.delegate t w = none :=
  (if_neg (gateAdmits_goes h)).trans ((if_neg (by rw [hr]; decide)).trans ((if_neg (by rw [hkind]; decide)).trans (if_pos (by rw [hv]; rfl))))

end

/-- A delegation that is made, in terms of the state before. -/
theorem taskIssue_gives (ht : tget s.streams key = some t) (hk : t.task idx = some k) (hc : t.canIssue k = true) (h : k.top = 12) {did : BitVec 16}
    {tgt : Nat} {e : BitVec 256} (hd : ∃ v, (s.markIssued key k.idx t.eff).delegate t k.w = some v ∧ (s.markIssued key k.idx t.eff).PutsEntry v did tgt e) :
    ∃ u q, exec (.taskIssue key idx) s = .next u ∧ u.faults = s.faults ∧ tget u.streams key = some q ∧ (∀ j, q.task idx = some j → j.state = .complete) ∧
      rget 0 (u.domain did).handles tgt = e ∧ (∀ n, n ≠ tgt → rget 0 (u.domain did).handles n = rget 0 (s.domain did).handles n) ∧
      ∀ x, x ≠ did → u.domain x = s.domain x := by
  obtain ⟨v, hv, hput⟩ := hd
  obtain ⟨u, q, hexec, hfaults, hq, hdone, hdom⟩ := taskIssue_delegates ht hk hc h hv ⟨hput.streams, hput.faults⟩
  have hbefore : ∀ x, (s.markIssued key k.idx t.eff).domain x = s.domain x := fun x => by
    obtain ⟨q1, hq1, -⟩ := State.markIssued_eq ht k.idx t.eff
    rw [hq1]
    rfl
  refine ⟨u, q, hexec, hfaults, hq, hdone, ?_, fun n hn => ?_, fun x hx => ?_⟩
  · rw [hdom]
    exact hput.entry
  · rw [hdom, hput.others n hn, hbefore]
  · rw [hdom, hput.domains x hx, hbefore]

end

end Sys2Proof.Machine
end

section
/-! PROOFS. Prologues that run again, completion and retirement (R255, R256, R269), and the life of a task together. -/

namespace Sys2Proof.Machine

/-- What the sequencers and the system software see of a state. -/
def State.queues (s : State) : Tbl Stream × List FaultReq × Nat × List Reply × Tbl Domain × Nat :=
  (s.streams, s.faults, s.nextId, s.replies, s.domains, s.etimePs)

theorem State.queues_of_outside {s u : State} (h : u.outside = s.outside) : u.queues = s.queues := by
  have hstreams : u.streams = s.streams := (congrArg State.streams h :)
  have hfaults : u.faults = s.faults := (congrArg State.faults h :)
  have hnext : u.nextId = s.nextId := (congrArg State.nextId h :)
  have hreplies : u.replies = s.replies := (congrArg State.replies h :)
  have hdomains : u.domains = s.domains := (congrArg State.domains h :)
  have hetime : u.etimePs = s.etimePs := (congrArg State.etimePs h :)
  unfold State.queues
  rw [hstreams, hfaults, hnext, hreplies, hdomains, hetime]

theorem State.killWg_queues (s : State) (k : Nat) : (s.killWg k).queues = s.queues := by
  unfold State.killWg
  split <;> rfl

theorem State.clearGrid_queues (s : State) (key idx : Nat) : (s.clearGrid key idx).queues = s.queues := by
  unfold State.clearGrid
  exact foldl_keeps State.queues (fun u (a : Nat × Workgroup) => u.killWg_queues a.1) _ s

section
variable {s u : State} (h : u.queues = s.queues)
include h

theorem streams_of_queues : u.streams = s.streams := congrArg (fun x => x.1) h
theorem faults_of_queues : u.faults = s.faults := congrArg (fun x => x.2.1) h
theorem nextId_of_queues : u.nextId = s.nextId := congrArg (fun x => x.2.2.1) h
theorem replies_of_queues : u.replies = s.replies := congrArg (fun x => x.2.2.2.1) h
theorem domain_of_queues (d : BitVec 16) : u.domain d = s.domain d := by
  unfold State.domain
  rw [show u.domains = s.domains from congrArg (fun x => x.2.2.2.2.1) h]
theorem etime_of_queues : u.etime = s.etime := by
  unfold State.etime
  rw [show u.etimePs = s.etimePs from congrArg (fun x => x.2.2.2.2.2) h]

end

section
variable {s : State} {key idx : Nat} {t : Stream} {k : Task}

theorem prologueRepeat_next (ht : tget s.streams key = some t) (hk : t.task idx = some k) (h2 : k.top = 2) (hissued : k.state = .issued)
    (hv : k.verdict = 2) (hf : s.faulting key idx = false) (hg : s.gridDone key idx = true) (hrun : k.run < 65535) :
    ∃ u w r, exec (.prologueRepeat key idx) s = .next u ∧ tget u.wgs s.nextId = some w ∧ w.pro = some 0 ∧ tget u.ropes (s.nextId + 1) = some r ∧
      r.sr 10 = BitVec.ofNat 32 (k.run + 1) := by
  have hexec : exec (.prologueRepeat key idx) s = done (((s.clearGrid key idx).onTask key idx (fun _ => { k with run := k.run + 1, verdict := 0 })).startPro
      key t { k with run := k.run + 1, verdict := 0 }) := by
    show execPrologueRepeat key idx s = _
    unfold execPrologueRepeat
    rw [ht]
    dsimp only
    rw [hk]
    dsimp only
    rw [if_neg (by simp [h2, hissued, hv, hf, hg]), if_neg (by omega)]
  have hq := s.clearGrid_queues key idx
  rw [State.onTask, State.onStream_eq ((congrArg (fun m => tget m key) (streams_of_queues hq)).trans ht)] at hexec
  generalize s.clearGrid key idx = v at hq hexec
  obtain ⟨w, r, hw, hpro, -, -, hr, -, -, hsr⟩ := State.startPro_spec
    (v.setStream key (t.onTask idx (fun _ => { k with run := k.run + 1, verdict := 0 }))) key t { k with run := k.run + 1, verdict := 0 }
  have hnext : v.nextId = s.nextId := nextId_of_queues hq
  rw [State.setStream_nextId, hnext] at hw hr
  exact ⟨_, w, r, hexec, hw, hpro, hr, hsr⟩

theorem taskComplete_next (ht : tget s.streams key = some t) (hk : t.task idx = some k) (hfin : s.finished key t k = true) (hm : k.mapints = 0) :
    ∃ u q, exec (.taskComplete key idx) s = .next u ∧ tget u.streams key = some q ∧ (∀ j, q.task idx = some j → j.state = .complete) ∧
      u.replies = s.replies ++ k.halted.toList.map (Reply.halt key idx) := by
  have hq := s.clearGrid_queues key idx
  obtain ⟨v, hv⟩ : ∃ v, v = s.clearGrid key idx := ⟨_, rfl⟩
  rw [← hv] at hq
  obtain ⟨q, hcomplete, hdone⟩ := State.complete_eq (s := v) ((congrArg (fun m => tget m key) (streams_of_queues hq)).trans ht) idx
  have hexec : exec (.taskComplete key idx) s = done { v.setStream key q with replies := v.replies ++ k.halted.toList.map (Reply.halt key idx) } := by
    show execTaskComplete key idx s = _
    unfold execTaskComplete
    rw [ht]
    dsimp only
    rw [hk]
    dsimp only
    rw [if_neg (by simp [hfin, hm]), ← hv, hcomplete]
    cases k.halted with
    | none => exact congrArg (fun l => done { v.setStream key q with replies := l }) (List.append_nil v.replies).symm
    | some c => rfl
  refine ⟨_, q, hexec, tget_tset_same _ _ _, fun j hj => (hdone j hj).1, ?_⟩
  show v.replies ++ _ = _
  rw [replies_of_queues hq]

/-! Retirement. -/

theorem State.pushFree_streams (s : State) (hub : Nat) (did : BitVec 16) (r : Nat × BitVec 12) : (s.pushFree hub did r).streams = s.streams := by
  unfold State.pushFree
  dsimp only
  split
  · rfl
  · exact (congrArg State.streams (State.sysWrite_outside _ _ _ _ _) :)

theorem State.pushAll_streams (s : State) (hub : Nat) (did : BitVec 16) (l : List (Nat × BitVec 12)) : (s.pushAll hub did l).streams = s.streams :=
  foldl_keeps State.streams (fun u r => u.pushFree_streams hub did r) l s

/-- A buffer that its free list takes. -/
theorem State.pushFree_eq (s : State) (hub : Nat) (did : BitVec 16) (c : Nat) (i : BitVec 12) (h : rget 0 (s.domain did).flCnt c < rget 0 (s.domain did).flCap c) :
    s.pushFree hub did (c, i) = (s.setDomain did { s.domain did with flCnt := rset 0 (s.domain did).flCnt c (rget 0 (s.domain did).flCnt c + 1) }).sysWrite hub
      (s.domain did).asid ((rget 0 (s.domain did).flBase c).toNat + 2 * rget 0 (s.domain did).flCnt c) (leBytes 2 i.toNat) := by
  unfold State.pushFree
  exact if_neg (not_le.2 h)

theorem taskRetire_next (ht : tget s.streams key = some t) {l : List Task} (hw : t.window = k :: l) (hc : k.state = .complete) (hm : t.mapped = true) :
    ∃ u q, exec (.taskRetire key) s = .next u ∧ tget u.streams key = some q ∧ q.window = l ∧ q.decode = t.decode ∧
      q.head = (l.head?.map Task.idx).getD t.decode ∧ q.rmap = applyRenames t.rmap k.renames ∧
      ∀ c i, k.releases = [(c, i)] → rget 0 (s.domain t.did).flCnt c < rget 0 (s.domain t.did).flCap c →
        rget 0 (u.domain t.did).flCnt c = rget 0 (s.domain t.did).flCnt c + 1 ∧
        u.mem = (((s.setStream key q).setDomain t.did { s.domain t.did with
          flCnt := rset 0 (s.domain t.did).flCnt c (rget 0 (s.domain t.did).flCnt c + 1) }).sysWrite t.hub (s.domain t.did).asid
            ((rget 0 (s.domain t.did).flBase c).toNat + 2 * rget 0 (s.domain t.did).flCnt c) (leBytes 2 i.toNat)).mem := by
  obtain ⟨q, hexec, hq⟩ : ∃ q, exec (.taskRetire key) s = done (((s.setStream key q).pushAll t.hub t.did k.releases).wakeCtrl key) ∧
      (q.window = l ∧ q.decode = t.decode ∧ q.head = (l.head?.map Task.idx).getD t.decode ∧ q.rmap = applyRenames t.rmap k.renames) := by
    refine ⟨{ t with
      window := l
      head := (l.head?.map Task.idx).getD t.decode
      rmap := applyRenames t.rmap k.renames
      state := if k.top = 15 ∧ l.isEmpty ∧ t.decode = k.idx + k.n ∧ t.state = .running then .idle else t.state }, ?_, rfl, rfl, rfl, rfl⟩
    show execTaskRetire key s = _
    unfold execTaskRetire
    rw [ht]
    dsimp only
    rw [hw]
    dsimp only
    rw [if_neg (by simp [hc, hm])]
    cases l <;> rfl
  obtain ⟨hwin, hdec, hhead, hrmap⟩ := hq
  refine ⟨_, q, hexec, ?_, hwin, hdec, hhead, hrmap, fun c i hrel hcap => ?_⟩
  · show tget ((s.setStream key q).pushAll t.hub t.did k.releases).streams key = some q
    rw [State.pushAll_streams]
    exact tget_tset_same _ _ _
  · rw [hrel]
    have hpush : (s.setStream key q).pushAll t.hub t.did [(c, i)] = _ := (s.setStream key q).pushFree_eq t.hub t.did c i hcap
    refine ⟨?_, ?_⟩
    swap
    · show ((s.setStream key q).pushAll t.hub t.did [(c, i)]).mem = _
      rw [hpush]
      rfl
    have hdom := domain_of_queues (State.queues_of_outside (congrArg State.outside hpush |>.trans (State.sysWrite_outside _ _ _ _ _))) t.did
    show rget 0 (((s.setStream key q).pushAll t.hub t.did [(c, i)]).domain t.did).flCnt c = _
    rw [hdom, State.domain_setDomain, if_pos rfl]
    show rget 0 (rset 0 (s.domain t.did).flCnt c (rget 0 (s.domain t.did).flCnt c + 1)) c = _
    rw [rget_rset, if_pos rfl]

end

/-- Settles O50: kicks and reads by their streams, a task by what its opcode does once it is ISSUED, ends by what leaves the window. -/
theorem tasksAreIssuedCompletedAndRetired : Obligations.TasksAreIssuedCompletedAndRetired := by
  unfold Obligations.TasksAreIssuedCompletedAndRetired
  refine ⟨fun s key t ht v => kick_next ht v, fun s key t ht hd hp => decodeRecheck_next ht hd hp, fun s key t idx k ht hk hc h => ?_,
    fun s key t idx k ht hk hc h hw hp => taskIssue_run ht hk hc h hw hp, fun s key t idx k ht hk hc h hp => taskIssue_prologue ht hk hc h hp,
    fun s key t idx k ht hk hc h => taskIssue_copy ht hk hc h, fun s key t idx k ht hk hc h => taskIssue_waits ht hk hc h,
    fun s key t idx k ht hk hc h r hr hspace => taskIssue_signal ht hk hc h hr rfl hspace, fun s key t idx k ht hk hc h => ?_,
    fun s key t idx k ht hk hc h => ?_, fun s key t idx k ht hk h2 hi hv hf hg hr => prologueRepeat_next ht hk h2 hi hv hf hg hr,
    fun s key t idx k ht hk hfin hm => ?_, fun s key t ht k l hw hc hm => ?_⟩
  · by_cases h11 : k.top = 11
    · obtain ⟨u, q, hexec, -, -, -, -, -, hq, hdone⟩ := taskIssue_inval ht hk hc h11
      exact ⟨u, q, hexec, hq, fun hne => absurd h11 hne, hdone⟩
    · obtain ⟨u, q, hexec, hq, hmem, hdone⟩ := taskIssue_complete ht hk hc (by tauto)
      exact ⟨u, q, hexec, hq, fun _ => hmem, hdone⟩
  · obtain ⟨u, q, hexec, htlb, hl2, hcode, howners, hmem, hq, hdone⟩ := taskIssue_inval ht hk hc h
    simp only [invalHits_iff] at htlb hl2 hcode howners
    exact ⟨u, hexec, htlb, hl2, hcode, howners, hmem, q, hq, fun j hj => (hdone j hj).1⟩
  · have hadmits : ∀ b, ((s.domain (k.w.t1.extractLsb' 0 16)).valid && Config.policyAdmits t.did (k.w.t1.extractLsb' 0 16) (gateRequest k.w)) = b →
        (s.markIssued key k.idx t.eff).gateAdmits t k.w = b := fun b hb => by
      obtain ⟨q1, hq1, -⟩ := State.markIssued_eq ht k.idx t.eff
      rw [hq1]
      exact hb
    have hsame : ∀ n, (s.markIssued key k.idx t.eff).handle t.did ((s.markIssued key k.idx t.eff).domain t.did).asid n =
        s.handle t.did (s.domain t.did).asid n ∧ ∀ d, (s.markIssued key k.idx t.eff).domain d = s.domain d := fun n => by
      obtain ⟨q1, hq1, -⟩ := State.markIssued_eq ht k.idx t.eff
      rw [hq1]
      exact ⟨rfl, fun _ => rfl⟩
    have hstream := State.markIssued_get ht k.idx t.eff (streamKey t.did (k.w.t2.extractLsb' 0 12).toNat)
    refine ⟨fun ha => taskIssue_refused ht hk hc h (delegate_refused (hadmits _ ha)), fun ha hr => ?_, fun ha hr hkind => ⟨fun y hy hv hn => ?_, fun hy => ?_⟩,
      fun ha hr hkind => ⟨fun hv => ?_, fun hv => ?_⟩⟩
    · have hgives := taskIssue_gives ht hk hc h (delegate_withdraws (hadmits _ ha) hr)
      rw [(hsame 0).2] at hgives
      exact hgives
    · obtain ⟨z, hz, hvalid, hentry⟩ := hstream.1 y hy
      obtain ⟨u, q, hexec, hfaults, hq, hdone, he, hothers, hdoms⟩ := taskIssue_gives ht hk hc h
        (delegate_stream (hadmits _ ha) hr hkind hz (hvalid.trans hv))
      have hfields := ctrlEntry_fields hn
      rw [← hentry] at hfields
      generalize ctrlEntry z = e at he hfields
      rw [← he] at hfields
      exact ⟨u, q, hexec, hfaults, hq, hdone, hfields, hothers, hdoms⟩
    · refine taskIssue_refused ht hk hc h (delegate_noStream (hadmits _ ha) hr hkind (fun z hz => ?_))
      cases hget : tget s.streams (streamKey t.did (k.w.t2.extractLsb' 0 12).toNat) with
      | none =>
        rw [hstream.2 hget] at hz
        cases hz
      | some y =>
        obtain ⟨z', hz', hvalid, -⟩ := hstream.1 y hget
        rw [hz] at hz'
        cases hz'
        rw [hget] at hy
        rw [hvalid]
        simpa using hy
    · obtain ⟨u, q, hexec, hfaults, hq, hdone, he, hothers, hdoms⟩ := taskIssue_gives ht hk hc h
        (delegate_handle (hadmits _ ha) hr hkind (by rw [(hsame _).1]; exact hv))
      rw [(hsame _).1] at he
      exact ⟨u, q, hexec, hfaults, hq, hdone, he ▸ maskedRights_fields _ _, hothers, hdoms⟩
    · exact taskIssue_refused ht hk hc h (delegate_noHandle (hadmits _ ha) hr hkind (by rw [(hsame _).1]; exact hv))
  · obtain ⟨u, q, hexec, hq, hdone, hrep⟩ := taskComplete_next ht hk hfin hm
    refine ⟨u, q, hexec, hq, hdone, hrep.trans ?_⟩
    cases k.halted <;> rfl
  · obtain ⟨u, q, hexec, hq, hwin, hdec, hhead, hrmap, hfree⟩ := taskRetire_next ht hw hc hm
    refine ⟨u, q, hexec, hq, hwin, hdec, hhead.trans ?_, hrmap, hfree⟩
    cases l <;> rfl

end Sys2Proof.Machine
end

section
/-! PROOFS. Task faults (R270 to R273): what ends with a faulting task, what is owed for it, and the record. -/

namespace Sys2Proof.Machine

/-! What ends with a task. -/

/-- What the end of workgroups and copy contexts leaves: what the sequencers see, and the orphans of the operand log. -/
structure State.Halts (s u : State) : Prop where
  queues : u.queues = s.queues
  logged : ∀ e ∈ u.log, ∃ d ∈ s.log, d.stream = e.stream
  orphans : ∀ e ∈ s.log, e.orphan = true → e.kind = 1 → e.state = .ready → e ∈ u.log

theorem State.halts_refl (s : State) : s.Halts s := ⟨rfl, fun e he => ⟨e, he, rfl⟩, fun _ he _ _ _ => he⟩

theorem State.Halts.trans {s u v : State} (h : s.Halts u) (g : u.Halts v) : s.Halts v :=
  ⟨g.queues.trans h.queues, fun e he => by
    obtain ⟨d, hd, hde⟩ := g.logged e he
    obtain ⟨b, hb, hbd⟩ := h.logged d hd
    exact ⟨b, hb, hbd.trans hde⟩, fun e he ho hk hr => g.orphans e (h.orphans e he ho hk hr) ho hk hr⟩

theorem State.halts_foldl {α : Type} {g : State → α → State} (hg : ∀ (u : State) a, u.Halts (g u a)) (l : List α) (s : State) :
    s.Halts (l.foldl g s) := by
  induction l generalizing s with
  | nil => exact s.halts_refl
  | cons a l ih => exact (hg s a).trans (ih (g s a))

/-- A state that looks the same but for its workgroups, ropes, slots and contexts. -/
theorem State.halts_of_same {s u : State} (hq : u.queues = s.queues) (hl : u.log = s.log) : s.Halts u :=
  ⟨hq, fun e he => ⟨e, hl ▸ he, rfl⟩, fun _ he _ _ _ => hl ▸ he⟩

theorem LogEntry.abandon_stream {e d : LogEntry} (h : e.abandon = some d) : d.stream = e.stream := by
  unfold LogEntry.abandon at h
  split at h
  · obtain rfl := Option.some.inj h
    rfl
  · cases h

/-- A store of an orphan that is ready stays as it is. -/
theorem LogEntry.abandon_orphan {e : LogEntry} (ho : e.orphan = true) (hk : e.kind = 1) (hr : e.state = .ready) : e.abandon = some e := by
  refine (if_pos ⟨Or.inl hk, by rw [hr]; rfl⟩).trans (congrArg some ?_)
  rw [← ho]

theorem State.killWg_halts (s : State) (k : Nat) : s.Halts (s.killWg k) := by
  unfold State.killWg
  split
  · exact s.halts_refl
  · refine ⟨rfl, fun e he => ?_, fun e he ho hk hr => ?_⟩
    · obtain ⟨d, hd, hde⟩ := List.mem_filterMap.1 he
      split at hde
      · exact ⟨d, hd, (LogEntry.abandon_stream hde).symm⟩
      · exact ⟨d, hd, congrArg LogEntry.stream (Option.some.inj hde)⟩
    · refine List.mem_filterMap.2 ⟨e, he, ?_⟩
      split
      · exact LogEntry.abandon_orphan ho hk hr
      · rfl

theorem State.dropPro_halts (s : State) (k : Nat) (w : Workgroup) : s.Halts (s.dropPro k w) :=
  (s.killWg_halts k).trans (State.halts_of_same rfl rfl)

theorem State.haltMove_outside (s : State) (c : CopyCtx) : (s.haltMove c).outside = s.outside := by
  unfold State.haltMove
  split
  · rfl
  · next fill v m _ =>
    dsimp only
    split
    · rfl
    · next hgo =>
      have hchecks : s.copyChecks c (m.args fill (s.ctxHandle c m.srcH) (s.ctxHandle c m.dstH)) = none := by
        rw [Bool.or_eq_true, not_or, Bool.not_eq_true, Option.isSome_eq_false_iff, Option.isNone_iff_eq_none] at hgo
        exact hgo.1
      refine (State.partMove_outside _ _ _ _ (fun hne => dstSpace_of_checks hchecks (fun hnil => hne ?_))).trans (s.moveBytes_outside c m fill v _ _)
      exact s.moveBytes_of_noDst c hnil fill v _ _

theorem State.haltCtx_halts (s : State) (i : Nat) (c : CopyCtx) : s.Halts (s.haltCtx i c) := by
  have hout := s.haltMove_outside c
  have hq : (s.haltCtx i c).queues = (s.haltMove c).queues := rfl
  have hlog : (s.haltCtx i c).log = (s.haltMove c).log := rfl
  exact State.halts_of_same (hq.trans (State.queues_of_outside hout)) (hlog.trans (congrArg State.log hout :))

/-- What ends with a task and the younger ones. -/
theorem State.haltFrom_halts (s : State) (key idx : Nat) (hi : Option Nat) : s.Halts (s.haltFrom key idx hi) := by
  unfold State.haltFrom
  refine (State.halts_foldl (fun u e => ?_) _ s).trans (State.halts_foldl (fun u e => u.haltCtx_halts _ _) _ _)
  dsimp only
  split
  · exact u.dropPro_halts _ _
  · exact u.killWg_halts _

/-! The record and the discard. -/

/-- A write by a unit whose writes are published changes no stream. -/
theorem State.sysStore_streams (s : State) (hub : Nat) (asid : BitVec 16) (va : Nat) (bs : List Byte) {note : State → Place → State}
    (hn : ∀ u p, (note u p).outside = u.outside) : (s.sysStore hub asid va bs note).streams = s.streams := by
  have h := s.sysStore_outside hub asid va bs hn
  exact (congrArg State.streams h :)

/-- The record of a task fault, where it goes (R273). -/
def State.putRecord (s : State) (t : Stream) (ws : List Word) (key : Nat) : State :=
  if t.mfhrec = 0 then { s with replies := s.replies ++ [.record key ws] }
  else s.sysStore t.hub (s.domain t.did).asid t.mfhrec.toNat (ws.flatMap (fun w => leBytes 4 w.toNat))
    (fun u p => u.publishes (.stream key) u.nextId p none false)

/-- The signal word of a record raised (R273, R357). -/
def State.signalRecord (s : State) (t : Stream) (asid : BitVec 16) (key : Nat) : State :=
  if t.mfhsig = 0 then s
  else if s.sysPoison t.hub asid t.mfhsig.toNat 8 then s.fatal t
  else s.sysStore t.hub asid t.mfhsig.toNat (leBytes 8 (leNat (s.sysRead t.hub asid t.mfhsig.toNat 8) + 1))
    (fun u p => u.publishes (.stream key) u.nextId p (some 4) true)

theorem State.recordFault_eq (s : State) (t : Stream) (ws : List Word) (key : Nat) :
    s.recordFault t ws key = (s.putRecord t ws key).signalRecord t (s.domain t.did).asid key := rfl

theorem State.putRecord_streams (s : State) (t : Stream) (ws : List Word) (key : Nat) : (s.putRecord t ws key).streams = s.streams := by
  unfold State.putRecord
  split
  · rfl
  · exact s.sysStore_streams _ _ _ _ (fun u p => u.publishes_outside _ _ _ _ _)

theorem State.signalRecord_streams (s : State) (t : Stream) (asid : BitVec 16) (key : Nat) : (s.signalRecord t asid key).streams = s.streams := by
  unfold State.signalRecord
  split
  · rfl
  · split
    · have h := s.fatal_outside t
      exact (congrArg State.streams h :)
    · exact s.sysStore_streams _ _ _ _ (fun u p => u.publishes_outside _ _ _ _ _)

theorem State.recordFault_streams (s : State) (t : Stream) (ws : List Word) (key : Nat) : (s.recordFault t ws key).streams = s.streams := by
  rw [State.recordFault_eq, State.signalRecord_streams, State.putRecord_streams]

/-- A stream whose faulting task and younger ones have been discarded, with no FCTL held. -/
theorem State.discard_stream (s : State) (key : Nat) (t : Stream) (q : FaultReq) (hc : t.heldCtl = none) : ∃ x, tget (s.discard key t q).streams key = some x ∧
    x.state = t.state ∧ x.faultIdx = t.faultIdx ∧ x.recorded = true ∧ x.decode = q.task ∧ x.window = t.window.filter (fun k => decide (k.idx < q.task)) := by
  obtain ⟨x, l, ws, hdiscard, hx⟩ : ∃ (x : Stream) (l : List (Nat × BitVec 12)) (ws : List Word),
      s.discard key t q = ((((s.setStream key x).pushAll t.hub t.did l).dropFaults key q.task).recordFault t ws key).wakeCtrl key ∧
      x.state = t.state ∧ x.faultIdx = t.faultIdx ∧ x.recorded = true ∧ x.decode = q.task ∧ x.window = t.window.filter (fun k => decide (k.idx < q.task)) := by
    unfold State.discard
    dsimp only
    rw [hc]
    exact ⟨_, _, _, rfl, rfl, rfl, rfl, rfl, rfl⟩
  have hstreams : (s.discard key t q).streams = (s.setStream key x).streams := by
    rw [hdiscard]
    exact (State.recordFault_streams _ _ _ _).trans (State.pushAll_streams _ _ _ _)
  exact ⟨x, by rw [hstreams]; exact tget_tset_same _ _ _, hx⟩

section
variable {s : State} {key idx : Nat} {t : Stream}

/-- A stream FAULTED at a task. -/
def Stream.faultedAt (t : Stream) (idx : Nat) : Stream := { t with state := .faulted, faultIdx := idx, recorded := false }

/-- The state in which a fault has been taken: its stream FAULTED, the fault awaited. -/
def State.taken (s : State) (key idx : Nat) (t : Stream) (f : TaskFault) : State :=
  { s.setStream key (t.faultedAt idx) with faults := [⟨key, idx, f, 0xFFFFFFFF, none, s.etime⟩] }

theorem taskFault_next (ht : tget s.streams key = some t) {f : TaskFault} (hf : s.faults = []) (hn : t.names idx = true) (hs : t.state ≠ .faulted) :
    exec (.taskFault key idx f) s = done (
      if t.mapped && t.window.any (fun k => decide (k.idx < idx)) then (s.taken key idx t f).wakeCtrl key
      else if ((s.taken key idx t f).haltFrom key idx none).owes key (fun i => decide (idx ≤ i)) then
        ((s.taken key idx t f).haltFrom key idx none).wakeCtrl key
      else ((s.taken key idx t f).haltFrom key idx none).discard key
        ((tget ((s.taken key idx t f).haltFrom key idx none).streams key).getD (t.faultedAt idx)) ⟨key, idx, f, 0xFFFFFFFF, none, s.etime⟩) := by
  have hstate : (t.state == StreamState.faulted) = false := beq_eq_false_iff_ne.2 hs
  show execTaskFault key idx f s = _
  unfold execTaskFault
  rw [ht]
  refine (if_neg (by simp [hn, hs])).trans ?_
  have htaken : ({ (s.setStream key { t with state := .faulted, faultIdx := idx, recorded := if t.state = .faulted ∧ t.faultIdx = idx then t.recorded else false }) with
      faults := ((s.faults.find? (fun q => q.stream == key && q.task == idx)).getD ⟨key, idx, f, 0xFFFFFFFF, none, s.etime⟩) ::
        s.faults.filter (fun p => !(p.stream == key && decide (idx ≤ p.task))) } : State) = s.taken key idx t f := by
    rw [hf, if_neg (fun h => hs h.1)]
    rfl
  dsimp only
  rw [htaken, hf, if_neg (show ¬ (t.state = .faulted ∧ t.faultIdx = idx) from fun h => hs h.1)]
  split
  · rfl
  · split <;> rfl

theorem taskFault_takes (ht : tget s.streams key = some t) {f : TaskFault} (hf : s.faults = []) (hn : t.names idx = true) (hs : t.state ≠ .faulted)
    (hheld : t.heldCtl = none) : ∃ u q, exec (.taskFault key idx f) s = .next u ∧ tget u.streams key = some q ∧ q.state = .faulted ∧ q.faultIdx = idx ∧
      ((t.mapped = false ∨ ∀ k ∈ t.window, idx ≤ k.idx) →
        ((∀ e ∈ s.log, e.stream ≠ key) → q.recorded = true ∧ q.decode = idx ∧ (∀ k ∈ q.window, k.idx < idx)) ∧
        ((∃ e ∈ s.log, e.stream = key ∧ idx ≤ e.task ∧ e.orphan = true ∧ e.kind = 1 ∧ e.state = .ready) →
          q.recorded = false ∧ q.window = t.window)) ∧
      ((t.mapped = true ∧ ∃ k ∈ t.window, k.idx < idx) → q.recorded = false ∧ q.window = t.window ∧ u.faults.length = 1) := by
  have hexec := taskFault_next ht (f := f) hf hn hs
  have hmet : (t.mapped && t.window.any (fun k => decide (k.idx < idx))) = true ↔ t.mapped = true ∧ ∃ k ∈ t.window, k.idx < idx := by
    simp
  have hget : tget (s.taken key idx t f).streams key = some (t.faultedAt idx) := tget_tset_same _ _ _
  by_cases hc : t.mapped = true ∧ ∃ k ∈ t.window, k.idx < idx
  · rw [if_pos (hmet.2 hc)] at hexec
    refine ⟨_, t.faultedAt idx, hexec, hget, rfl, rfl, fun h => absurd hc ?_, fun _ => ⟨rfl, rfl, rfl⟩⟩
    rintro ⟨hm, k, hk, hlt⟩
    rcases h with h | h
    · rw [hm] at h
      cases h
    · exact absurd (h k hk) (by omega)
  · rw [if_neg (fun h => hc (hmet.1 h))] at hexec
    have hhalts := (s.taken key idx t f).haltFrom_halts key idx none
    obtain ⟨v, hv⟩ : ∃ v, v = (s.taken key idx t f).haltFrom key idx none := ⟨_, rfl⟩
    rw [← hv] at hexec hhalts
    have hvget : tget v.streams key = some (t.faultedAt idx) := by rw [streams_of_queues hhalts.queues, hget]
    by_cases howes : v.owes key (fun i => decide (idx ≤ i)) = true
    · rw [if_pos howes] at hexec
      refine ⟨_, t.faultedAt idx, hexec, hvget, rfl, rfl, fun _ => ⟨fun hno => ?_, fun _ => ⟨rfl, rfl⟩⟩, fun h => absurd h hc⟩
      obtain ⟨e, he, hsel⟩ := List.any_eq_true.1 howes
      obtain ⟨d, hd, hde⟩ := hhalts.logged e he
      simp only [Bool.and_eq_true, beq_iff_eq] at hsel
      exact absurd (hde.trans hsel.1.2) (hno d hd)
    · rw [if_neg howes, hvget, Option.getD_some] at hexec
      obtain ⟨q, hq, hstate, hidx, hrec, hdec, hwin⟩ := v.discard_stream key (t.faultedAt idx) ⟨key, idx, f, 0xFFFFFFFF, none, s.etime⟩ hheld
      refine ⟨_, q, hexec, hq, hstate, hidx, fun _ => ⟨fun _ => ⟨hrec, hdec, fun k hk => ?_⟩, fun h => absurd ?_ howes⟩, fun h => absurd h hc⟩
      · rw [hwin] at hk
        exact of_decide_eq_true (List.mem_filter.1 hk).2
      · obtain ⟨e, he, hstream, hle, ho, hk, hr⟩ := h
        refine List.any_eq_true.2 ⟨e, hhalts.orphans e he ho hk hr, ?_⟩
        simp [ho, hstream, hle]

end

end Sys2Proof.Machine
end

section
/-! PROOFS. FCTL, the waits of a TWAIT, limits and budgets (R241, R261, R262, R273, R321). -/

namespace Sys2Proof.Machine

section
variable {s : State} {key idx : Nat} {t : Stream} {k : Task}

/-! FCTL. -/

theorem execFctl_eq (ht : tget s.streams key = some t) (v : Word) : exec (.fctl key v) s = done (s.fctl key t v) := by
  show execFctl key v s = _
  unfold execFctl
  rw [ht]

theorem fctl_ignored (ht : tget s.streams key = some t) {v : Word} (h : t.state ≠ .faulted ∨ v.toNat % 4 = 3) :
    exec (.fctl key v) s = .next { s with turn := .choose } :=
  (execFctl_eq ht v).trans (congrArg done (if_pos h))

theorem fctl_held (ht : tget s.streams key = some t) {v : Word} (hs : t.state = .faulted) (hr : t.recorded = false) (hv : v.toNat % 4 ≠ 3) :
    exec (.fctl key v) s = .next { s.setStream key { t with heldCtl := some v } with turn := .choose } := by
  refine (execFctl_eq ht v).trans (congrArg done ((if_neg (fun h => h.elim (fun h => h hs) hv)).trans (if_pos ?_)))
  rw [hr]
  rfl

theorem Stream.resume_fields (t : Stream) {a : Nat} (ha : a < 4) (h3 : a ≠ 3) : (t.resume a).recorded = false ∧ (t.resume a).heldCtl = none ∧
    (t.resume a).decode = (if a = 1 then t.decode + t.faultN else if a = 2 then max t.decode t.tail else t.decode) ∧
    ((t.resume a).state = .running ∨ (t.resume a).state = .idle) := by
  refine ⟨rfl, rfl, ?_, ?_⟩
  · obtain rfl | rfl | rfl : a = 0 ∨ a = 1 ∨ a = 2 := by omega
    · rfl
    · rfl
    · rfl
  · by_cases hgoes : (t.resume a).decode < t.tail ∨ (!t.window.isEmpty) = true
    · exact .inl (if_pos hgoes)
    · exact .inr (if_neg hgoes)

theorem State.pend_ctl (s : State) (t : Stream) : (s.pend t).recorded = t.recorded ∧ (s.pend t).heldCtl = t.heldCtl := by
  unfold State.pend
  split <;> exact ⟨rfl, rfl⟩

theorem fctl_resumes (ht : tget s.streams key = some t) {v : Word} (hs : t.state = .faulted) (hr : t.recorded = true) (hv : v.toNat % 4 ≠ 3) :
    ∃ u q, exec (.fctl key v) s = .next u ∧ tget u.streams key = some q ∧ q.recorded = false ∧ q.heldCtl = none ∧
      q.decode = (if v.toNat % 4 = 1 then t.decode + t.faultN else if v.toNat % 4 = 2 then max t.decode t.tail else t.decode) ∧
      (q.state = .running ∨ q.state = .idle) := by
  obtain ⟨-, -, -, hdec, hstate⟩ := s.pend_same (t.resume (v.toNat % 4))
  obtain ⟨hrec, hctl⟩ := s.pend_ctl (t.resume (v.toNat % 4))
  obtain ⟨hrec', hctl', hdec', hstate'⟩ := t.resume_fields (Nat.mod_lt v.toNat (by decide : 0 < 4)) hv
  refine ⟨_, _, (execFctl_eq ht v).trans (congrArg done ((if_neg (fun h => h.elim (fun h => h hs) hv)).trans (if_neg ?_))), tget_tset_same _ _ _,
    hrec.trans hrec', hctl.trans hctl', hdec.trans hdec', ?_⟩
  · rw [hr]
    exact Bool.false_ne_true
  · rw [hstate]
    exact hstate'

/-! TWAIT. -/

theorem twaitStep_next (ht : tget s.streams key = some t) (hk : t.task idx = some k) (h9 : k.top = 9) (hi : k.state = .issued)
    (hf : s.faulting key idx = false) (f : Stream → Task → State) : twaitStep key idx f s = done (f t k) := by
  unfold twaitStep
  rw [ht]
  dsimp only
  rw [hk]
  exact if_pos ⟨h9, hi, by rw [hf]; rfl⟩

/-- What becomes of a TWAIT that reads a word of HOST memory. -/
theorem State.twaitRead_host (hk : t.task idx = some k) {r : Region} (hr : k.regions = [r]) {w : Target}
    (hw : w = (s.handle t.did (s.domain t.did).asid (rdIdx k.w.t1)).taskTarget t key s.nextId true) (hspace : w.space = 2) {s1 : State}
    (hs1 : s1 = s.onTask key idx (fun q => { q with pollNs := s.etime })) :
    s.twaitRead key t k = (if (s1.linkTakes w r.base 8).1 = true then
      (if twaitHolds k.w (leNat (rdBytes s.host r.base 8)) then ((s1.linkTakes w r.base 8).2.acquired w r.base).complete key idx
        else (s1.linkTakes w r.base 8).2)
      else (s1.linkTakes w r.base 8).2.taskFault key idx 2 5 0) := by
  have hglobal : w.space ≠ spGlobal := by rw [hspace]; decide
  have hhost : (s1.linkTakes w r.base 8).2.host = s.host := by
    have h1 : s1.host = s.host := by
      rw [hs1]
      unfold State.onTask State.onStream
      split <;> rfl
    unfold State.linkTakes
    split <;> exact h1
  have htakes : s1.sigTakes w r.base 8 = s1.linkTakes w r.base 8 := if_neg hglobal
  unfold State.twaitRead
  rw [hr, Stream.task_idx hk]
  dsimp only
  rw [← hw, ← hs1, if_neg (by simp [State.sigWaits, hglobal]), htakes]
  obtain ⟨b, s2, hlink⟩ : ∃ b s2, s1.linkTakes w r.base 8 = (b, s2) := ⟨_, _, rfl⟩
  rw [hlink] at hhost ⊢
  cases b with
  | false => rfl
  | true =>
    have htouch : s2.touch w [r.base] = s2 := if_neg hglobal
    dsimp only
    rw [if_neg (fun h => hglobal h.1), htouch, peek_host hspace, hhost]
    rfl

theorem State.acquired_streams (s : State) (w : Target) (a : Nat) : (s.acquired w a).streams = s.streams := by
  unfold State.acquired
  split <;> exact (congrArg State.streams (s.reads_outside _ _ _ _) :)

theorem State.onTask_streams (ht : tget s.streams key = some t) (f : Task → Task) :
    tget (s.onTask key idx f).streams key = some (t.onTask idx f) := by
  rw [State.onTask, State.onStream_eq ht]
  exact tget_tset_same _ _ _

theorem twait_completes (ht : tget s.streams key = some t) (hk : t.task idx = some k) {r : Region} (hr : k.regions = [r]) {w : Target}
    (hw : w = (s.handle t.did (s.domain t.did).asid (rdIdx k.w.t1)).taskTarget t key s.nextId true) (hspace : w.space = 2) {s1 : State}
    (hs1 : s1 = s.onTask key idx (fun q => { q with pollNs := s.etime })) (htakes : (s1.linkTakes w r.base 8).1 = true)
    (hholds : twaitHolds k.w (leNat (rdBytes s.host r.base 8)) = true) :
    ∃ q, tget (s.twaitRead key t k).streams key = some q ∧ ∀ j, q.task idx = some j → j.state = .complete := by
  rw [State.twaitRead_host hk hr hw hspace hs1, if_pos htakes, if_pos hholds]
  have hlink := s1.linkTakes_outside w r.base 8
  generalize (s1.linkTakes w r.base 8).2 = s2 at hlink
  have hget : tget (s2.acquired w r.base).streams key = some (t.onTask idx (fun q => { q with pollNs := s.etime })) := by
    rw [State.acquired_streams, show s2.streams = s1.streams from (congrArg State.streams hlink :), hs1]
    exact State.onTask_streams ht _
  obtain ⟨q, hq, hdone⟩ := State.complete_eq hget idx
  exact ⟨q, by rw [hq]; exact tget_tset_same _ _ _, fun j hj => (hdone j hj).1⟩

theorem twaitLimit_next (ht : tget s.streams key = some t) (hk : t.task idx = some k) (h9 : k.top = 9) (hi : k.state = .issued)
    (hf : s.faulting key idx = false) (h6 : k.w.t6 ≠ 0) (hlate : k.issueNs + 1000 * k.w.t6.toNat ≤ s.etime) :
    exec (.twaitLimit key idx) s = .next { s.taskFault key idx 8 1 0 with turn := .choose } := by
  refine (twaitStep_next ht hk h9 hi hf _).trans (congrArg done (if_pos ⟨h6, hlate⟩))

theorem taskBudgetExpiry_next (ht : tget s.streams key = some t) (hk : t.task idx = some k) (hi : k.state = .issued)
    (hf : s.faulting key idx = false) (hb : t.mbudget ≠ 0) (hlate : k.issueNs + 1000 * t.mbudget.toNat < s.etime) :
    exec (.taskBudgetExpiry key idx) s = .next { s.taskFault key idx 8 2 0 with turn := .choose } := by
  show execTaskBudgetExpiry key idx s = _
  unfold execTaskBudgetExpiry
  rw [ht]
  dsimp only
  rw [hk]
  exact if_pos ⟨hi, hb, hlate, by rw [hf]; rfl⟩

end

/-! The condition of a TWAIT. -/

theorem toSigned64_inj {a b : Nat} (ha : a < 2 ^ 64) (hb : b < 2 ^ 64) : toSigned 64 a = toSigned 64 b ↔ a = b := by
  refine ⟨fun h => ?_, fun h => by rw [h]⟩
  have hof : ∀ {n : Nat}, n < 2 ^ 64 → toSigned 64 n = (BitVec.ofNat 64 n).toInt := fun {n} hn => by
    rw [← toSigned_eq_toInt, BitVec.toNat_ofNat, Nat.mod_eq_of_lt hn]
  rw [hof ha, hof hb] at h
  have := congrArg BitVec.toNat (BitVec.eq_of_toInt_eq h)
  rwa [BitVec.toNat_ofNat, BitVec.toNat_ofNat, Nat.mod_eq_of_lt ha, Nat.mod_eq_of_lt hb] at this

/-- The comparisons of a TWAIT in terms of "less" and "equal". -/
def condOf (lt eq : Bool) (n : Nat) : Bool :=
  if n = 0 then eq else if n = 1 then !eq else if n = 2 then lt else if n = 3 then lt || eq else if n = 4 then !(lt || eq) else !lt

theorem intCond_eq (n : Nat) (x y : Int) : intCond n x y = condOf (decide (x < y)) (x == y) n := by
  have hle : ∀ a b : Int, decide (a ≤ b) = !decide (b < a) := fun a b => by rw [← decide_not, decide_eq_decide, not_lt]
  have heq : (x == y) = decide (x = y) := rfl
  unfold intCond condOf
  split
  · rfl
  · rfl
  · rfl
  · rw [if_neg (by decide), if_neg (by decide), if_neg (by decide), if_pos rfl, heq, ← Bool.decide_or, decide_eq_decide]
    omega
  · rw [if_neg (by decide), if_neg (by decide), if_neg (by decide), if_neg (by decide), if_pos rfl, heq, ← Bool.decide_or, ← decide_not, decide_eq_decide]
    omega
  · next h0 h1 h2 h3 h4 => rw [if_neg h0, if_neg h1, if_neg h2, if_neg h3, if_neg h4, hle]

theorem twaitHolds_eq (w : TaskWord) (v : Nat) : twaitHolds w v = condOf
    (if t0Bits w 13 1 = 1 then decide (toSigned 64 v < toSigned 64 (w.t5 ++ w.t4).toNat) else decide (v < (w.t5 ++ w.t4).toNat))
    (v == (w.t5 ++ w.t4).toNat) (t0Bits w 10 3) := by
  unfold twaitHolds condOf
  simp only [beq_iff_eq]
  split
  · next h => rw [h, if_pos rfl]
  · next h => rw [h]; rfl
  · next h => rw [h]; rfl
  · next h => rw [h]; rfl
  · next h => rw [h]; rfl
  · next h0 h1 h2 h3 h4 => rw [if_neg h0, if_neg h1, if_neg h2, if_neg h3, if_neg h4]

theorem twaitHolds_intCond (w : TaskWord) {v : Nat} (hv : v < 2 ^ 64) :
    twaitHolds w v = intCond (t0Bits w 10 3) (if t0Bits w 13 1 = 1 then toSigned 64 v else v)
      (if t0Bits w 13 1 = 1 then toSigned 64 (w.t5 ++ w.t4).toNat else (w.t5 ++ w.t4).toNat) := by
  have hc : (w.t5 ++ w.t4).toNat < 2 ^ 64 := (w.t5 ++ w.t4).isLt
  rw [twaitHolds_eq, intCond_eq]
  generalize (w.t5 ++ w.t4).toNat = c at hc ⊢
  split
  · rw [show (toSigned 64 v == toSigned 64 c) = (v == c) from Bool.eq_iff_iff.2 (by rw [beq_iff_eq, beq_iff_eq]; exact toSigned64_inj hv hc)]
  · rw [show decide ((v : Int) < c) = decide (v < c) from decide_eq_decide.2 Int.ofNat_lt,
      show ((v : Int) == c) = (v == c) from Bool.eq_iff_iff.2 (by rw [beq_iff_eq, beq_iff_eq]; exact Int.ofNat_inj)]

end Sys2Proof.Machine
end

section
/-! PROOFS. Retries of tasks, the mapping of streams, and the faults of streams together (R244, R245, R270 to R274, R314 to R318). -/

namespace Sys2Proof.Machine

section
variable {s : State} {key idx : Nat} {t : Stream} {k : Task}

/-! Retries. -/

theorem mapintRetry_again (ht : tget s.streams key = some t) (hk : t.task idx = some k) (hfin : s.finished key t k = true) (hm : k.mapints ≠ 0)
    (hr : k.retried = true) : exec (.mapintRetry key idx) s = .next { s.taskFault key idx 6 1 0 with turn := .choose } := by
  show execMapintRetry key idx s = _
  unfold execMapintRetry
  rw [ht]
  dsimp only
  rw [hk]
  dsimp only
  rw [if_neg (by simp [hfin, hm]), if_pos hr]
  rfl

theorem mapintRetry_irrevocable (ht : tget s.streams key = some t) (hk : t.task idx = some k) (hfin : s.finished key t k = true) (hm : k.mapints ≠ 0)
    (hr : k.retried = false) (hi : k.irrev = true) (hd : kdIdem k.kdesc = false) :
    exec (.mapintRetry key idx) s = .next { s.taskFault key idx 6 2 0 with turn := .choose } := by
  show execMapintRetry key idx s = _
  unfold execMapintRetry
  rw [ht]
  dsimp only
  rw [hk]
  dsimp only
  rw [if_neg (by simp [hfin, hm]), if_neg (by simp [hr]), if_pos ⟨hi, by rw [hd]; rfl⟩]
  rfl

/-- A task as it issues once more after a MAPINT (R274). -/
def Task.again (k : Task) : Task :=
  { k with
    mapints := 0, retried := true, halted := none, run := 0, verdict := 0, wgcount := k.w.t3.toNat
    args := (List.range 7).map (fun n => (n, xWord k.w 1 (n + 1))), proV := [] }

theorem State.addGrid_next (s : State) (key : Nat) (t : Stream) (k : Task) :
    (s.addGrid key t k).nextId = s.nextId + k.wgcount ∧ (s.addGrid key t k).streams = s.streams := by
  obtain ⟨W, hW, -⟩ := State.addWgs_eq { s with images := s.images.map (fun e => (e.1, e.2.launched t.did k.kdesc)) } key t k k.wgcount
  have hadd : s.addGrid key t k = _ := hW
  rw [hadd]
  exact ⟨rfl, rfl⟩

/-- The start of a task that issues once more: placed again, or PLACE raised (R318). -/
def State.startAgain (s : State) (key idx : Nat) (t : Stream) (k : Task) : State :=
  match s.placeTest (s.newWg key t k 0) with
  | some r => s.taskFault key idx 11 r 0
  | none => if k.top = 2 then s.startPro key t k else s.addGrid key t k

theorem State.startAgain_spec (s : State) (key idx : Nat) (t : Stream) (k : Task) : (s.startAgain key idx t k).streams = s.streams ∧
    ((s.startAgain key idx t k).nextId = s.nextId + (if k.top = 2 then 2 else k.wgcount) ∨
      ∃ r, (⟨key, idx, ⟨11, r, 0, 0⟩, 0xFFFFFFFF, none, s.etime⟩ : FaultReq) ∈ (s.startAgain key idx t k).faults) := by
  unfold State.startAgain
  split
  · next r _ => exact ⟨rfl, .inr ⟨BitVec.ofNat 8 r, List.mem_append_right _ List.mem_cons_self⟩⟩
  · split
    · exact ⟨rfl, .inl rfl⟩
    · obtain ⟨hn, hstreams⟩ := s.addGrid_next key t k
      exact ⟨hstreams, .inl hn⟩

/-- The entry that a window entry has been replaced by. -/
theorem Stream.onTask_const {a j : Task} (ha : a.idx = idx) (h : (t.onTask idx (fun _ => a)).task idx = some j) : j = a := by
  have hidx : j.idx = idx := Stream.task_idx h
  obtain ⟨d, -, hd⟩ := List.mem_map.1 (List.mem_of_find?_eq_some h)
  split at hd
  · exact hd.symm
  · next hne => exact absurd (hd ▸ hidx) hne

theorem mapintRetry_issues (ht : tget s.streams key = some t) (hk : t.task idx = some k) (hfin : s.finished key t k = true) (hm : k.mapints ≠ 0)
    (hr : k.retried = false) (hi : k.irrev = false ∨ kdIdem k.kdesc = true) :
    ∃ u q, exec (.mapintRetry key idx) s = .next u ∧ tget u.streams key = some q ∧
      (u.nextId = s.nextId + (if k.top = 2 then 2 else k.w.t3.toNat) ∨
        ∃ r, (⟨key, idx, ⟨11, r, 0, 0⟩, 0xFFFFFFFF, none, s.etime⟩ : FaultReq) ∈ u.faults) ∧
      ∀ j, q.task idx = some j → j.retried = true ∧ j.mapints = 0 ∧ j.state = .issued := by
  have hissued : k.state = .issued := by
    unfold State.finished at hfin
    simp only [Bool.and_eq_true, beq_iff_eq] at hfin
    exact hfin.1.1.1
  have hq := (s.haltFrom_halts key idx (some idx)).queues
  obtain ⟨v, hv⟩ : ∃ v, v = s.haltFrom key idx (some idx) := ⟨_, rfl⟩
  have hexec : exec (.mapintRetry key idx) s = done ((v.onTask key idx (fun _ => k.again)).startAgain key idx t k.again) := by
    show execMapintRetry key idx s = _
    unfold execMapintRetry
    rw [ht]
    dsimp only
    rw [hk]
    dsimp only
    rw [if_neg (by simp [hfin, hm]), if_neg (by simp [hr]), if_neg (fun h => by rcases hi with hi | hi <;> simp [hi] at h), ← hv]
    unfold State.startAgain
    show (match (v.onTask key idx (fun _ => k.again)).placeTest ((v.onTask key idx (fun _ => k.again)).newWg key t k.again 0) with | some _ => _ | none => _) = _
    split
    · rfl
    · rfl
  rw [← hv] at hq
  have hvt : tget v.streams key = some t := by rw [streams_of_queues hq, ht]
  rw [State.onTask, State.onStream_eq hvt] at hexec
  obtain ⟨hstreams, hnew⟩ := (v.setStream key (t.onTask idx (fun _ => k.again))).startAgain_spec key idx t k.again
  have hnow : (v.setStream key (t.onTask idx (fun _ => k.again))).etime = s.etime := (rfl : _ = v.etime).trans (etime_of_queues hq)
  rw [hnow, State.setStream_nextId, nextId_of_queues hq] at hnew
  refine ⟨_, t.onTask idx (fun _ => k.again), hexec, ?_, hnew, fun j hj => ?_⟩
  · show tget (State.startAgain _ _ _ _ _).streams key = _
    rw [hstreams]
    exact tget_tset_same _ _ _
  · obtain rfl := Stream.onTask_const (a := k.again) (show k.idx = idx from Stream.task_idx hk) hj
    exact ⟨rfl, rfl, hissued⟩

/-! Mapping. -/

theorem streamMap_first (ht : tget s.streams key = some t) (hp : s.firstPending key t = true) {j : Nat} {displaced : Bool}
    (h : (s.easySlot t = some j ∧ displaced = false) ∨ (s.easySlot t = none ∧ s.victimSlot t = some j ∧ displaced = true)) :
    exec (.streamMap key) s = done (s.takeSlot key t j displaced) := by
  have hmap : s.mappable t = true := by
    unfold State.firstPending at hp
    simp only [Bool.and_eq_true] at hp
    exact hp.1.2
  show execStreamMap key s = _
  unfold execStreamMap
  rw [ht]
  refine (if_neg (by simp [hmap])).trans ((if_neg (by simp [hp])).trans ?_)
  rcases h with ⟨heasy, rfl⟩ | ⟨heasy, hvictim, rfl⟩
  · rw [heasy]
  · rw [heasy, hvictim]

theorem State.enliven_streams (s : State) (p : Nat) : (s.enliven p).streams = s.streams := by
  unfold State.enliven
  split <;> rfl

theorem State.writeOpen_streams (s : State) (t : Stream) (va : DWord) (n : Nat) : (s.writeOpen t va n).streams = s.streams := by
  have h := s.writeOpen_outside t va n
  exact (congrArg State.streams h :)

/-- The stream that takes a slot. -/
theorem State.mapTo_spec (ht : tget s.streams key = some t) (j : Nat) : ∃ q, s.mapTo key j = s.setStream key q ∧ q.mapped = true ∧ q.slot = j ∧
    q.pending = false ∧ q.mappedAt = s.etime ∧ q.window = t.window ∧ q.mbudget = (if t.budOv then t.budget else (s.domain t.did).budget) :=
  ⟨_, State.onStream_eq ht _, rfl, rfl, rfl, rfl, rfl, rfl⟩

theorem streamMap_free (ht : tget s.streams key = some t) (hp : s.firstPending key t = true) {j : Nat} (heasy : s.easySlot t = some j)
    (hfree : (s.onSlot t.hub j).isNone = true) :
    ∃ u q, exec (.streamMap key) s = .next u ∧ tget u.streams key = some q ∧ q.mapped = true ∧ q.slot = j ∧ q.pending = false ∧
      q.mappedAt = s.etime ∧ q.window = t.window ∧ q.mbudget = (if t.budOv then t.budget else (s.domain t.did).budget) := by
  obtain ⟨q, hmap, hq⟩ := State.mapTo_spec ht j
  have hexec := streamMap_first ht hp (.inl ⟨heasy, rfl⟩)
  unfold State.takeSlot at hexec
  rw [Option.isNone_iff_eq_none.1 hfree] at hexec
  dsimp only at hexec
  rw [hmap] at hexec
  refine ⟨_, q, hexec, ?_, hq⟩
  show tget (State.enliven _ _).streams key = _
  rw [State.enliven_streams]
  exact tget_tset_same _ _ _

/-- A displaced stream is unmapped and pending. -/
theorem State.unmap_spec {i : Nat} {o : Stream} (ho : tget s.streams i = some o) : ∃ v, (s.unmap i true).streams = tset s.streams i v ∧
    v.mapped = false ∧ v.pending = true := by
  unfold State.unmap
  rw [ho]
  exact ⟨_, (State.writeOpen_streams _ _ _ _).trans (State.writeOpen_streams _ _ _ _), rfl, rfl⟩

theorem tget_of_mem {α : Type} {m : Tbl α} {i : Nat} {v : α} (h : (i, v) ∈ m) : ∃ x, tget m i = some x := by
  induction m with
  | nil => cases h
  | cons e m ih =>
    obtain ⟨j, x⟩ := e
    unfold tget
    split
    · exact ⟨x, rfl⟩
    · next hne =>
      rcases List.mem_cons.1 h with heq | h
      · cases heq
        exact absurd rfl hne
      · exact ih h

theorem streamMap_victim (ht : tget s.streams key = some t) {j i : Nat} {o : Stream} (hp : s.firstPending key t = true) (heasy : s.easySlot t = none)
    (hvictim : s.victimSlot t = some j) (hon : s.onSlot t.hub j = some (i, o)) (hne : i ≠ key) :
    ∃ u q v, exec (.streamMap key) s = .next u ∧ tget u.streams key = some q ∧ q.mapped = true ∧ q.slot = j ∧
      tget u.streams i = some v ∧ v.mapped = false ∧ v.pending = true := by
  have hexec := streamMap_first ht hp (.inr ⟨heasy, hvictim, rfl⟩)
  unfold State.takeSlot at hexec
  rw [hon] at hexec
  dsimp only at hexec
  obtain ⟨o', ho'⟩ := tget_of_mem (List.mem_of_find?_eq_some hon)
  obtain ⟨v, hv, hmapped, hpending⟩ := State.unmap_spec ho'
  generalize s.unmap i true = w at hexec hv
  obtain ⟨q, hmap, hqm, hslot, -⟩ := State.mapTo_spec (s := w) (key := key) (t := t) (by rw [hv, tget_tset_ne _ _ hne.symm, ht]) j
  rw [hmap] at hexec
  have hstreams : (((w.setStream key q).wakeCtrl key).enliven (s.domain t.did).part).streams = tset w.streams key q := State.enliven_streams _ _
  refine ⟨_, q, v, hexec, ?_, hqm, hslot, ?_, hmapped, hpending⟩
  · exact (congrArg (fun m => tget m key) hstreams).trans (tget_tset_same _ _ _)
  · refine (congrArg (fun m => tget m i) hstreams).trans ?_
    rw [tget_tset_ne _ _ hne, hv]
    exact tget_tset_same _ _ _

theorem streamMap_reported (ht : tget s.streams key = some t) (hp : t.pending = true) (hm : s.mappable t = false) :
    exec (.streamMap key) s = .next { s.setStream key { t with pending := false } with replies := s.replies ++ [.unmappable key], turn := .choose } := by
  show execStreamMap key s = _
  unfold execStreamMap
  rw [ht]
  exact if_pos (by rw [hp, hm]; rfl)

theorem streamPriorityAging_next (ht : tget s.streams key = some t) (hp : t.pending = true) (htop : t.eff < max (s.prioOf t) (s.pcapOf t))
    (hage : t.eff < s.prioOf t + (s.etime - t.since) / 1000000) :
    exec (.streamPriorityAging key) s = .next { s.setStream key { t with eff := t.eff + 1 } with turn := .choose } := by
  show execStreamPriorityAging key s = _
  unfold execStreamPriorityAging
  rw [ht]
  exact if_pos ⟨hp, htop, hage⟩

theorem streamStop_next (ht : tget s.streams key = some t) : ∃ u q, exec (.streamStop key) s = .next u ∧ tget u.streams key = some q ∧
    q.window = t.window ∧ q.state = (if t.state = .faulted then .faulted else .stopped) := by
  have hstop := State.onStream_eq ht (fun t => if t.state = .faulted then t else { t with state := .stopped })
  refine ⟨_, if t.state = .faulted then t else { t with state := .stopped }, congrArg (fun u : State => done (u.wakeCtrl key)) hstop,
    tget_tset_same _ _ _, ?_, ?_⟩
  · split <;> rfl
  · split
    · next h => exact h
    · rfl

end

/-- Settles O51: by what each step leaves of its stream; what ends with a task keeps the streams and the orphans of the operand log. -/
theorem faultsLimitsAndMapping : Obligations.FaultsLimitsAndMapping := by
  unfold Obligations.FaultsLimitsAndMapping
  refine ⟨fun s key t ht idx f hf hn hs hheld => taskFault_takes ht hf hn hs hheld, fun s key t ht v h => fctl_ignored ht h,
    fun s key t ht v hs hr hv => fctl_held ht hs hr hv, fun s key t ht v hs hr hv => fctl_resumes ht hs hr hv,
    fun s key t idx k ht hk h9 hi hf r hr => ?_, fun w v hv => twaitHolds_intCond w hv,
    fun s key t idx k ht hk h9 hi hf h6 hlate => twaitLimit_next ht hk h9 hi hf h6 hlate,
    fun s key t idx k ht hk hi hf hb hlate => taskBudgetExpiry_next ht hk hi hf hb hlate,
    fun s key t idx k ht hk hfin hm _ => ⟨fun hr => mapintRetry_again ht hk hfin hm hr, fun hr hi hd => mapintRetry_irrevocable ht hk hfin hm hr hi hd,
      fun hr hi => mapintRetry_issues ht hk hfin hm hr hi⟩,
    fun s key t ht j hp heasy hfree => streamMap_free ht hp heasy hfree,
    fun s key t ht j k o hp heasy hvictim hon hne => streamMap_victim ht hp heasy hvictim hon hne,
    fun s key t ht hp hm => streamMap_reported ht hp hm, fun s key t ht hp htop hage => streamPriorityAging_next ht hp htop hage,
    fun s key t ht => streamStop_next ht⟩
  intro tw s1 hspace
  have hread := twaitStep_next ht hk h9 hi hf (s.twaitRead key)
  have hval := State.twaitRead_host hk hr (w := tw) rfl hspace (s1 := s1) rfl
  refine ⟨fun hno => ?_, fun htakes hholds => ?_, fun htakes hfails => ?_⟩
  · rw [if_neg (by rw [hno]; exact Bool.false_ne_true)] at hval
    exact hread.trans (congrArg done hval)
  · obtain ⟨q, hq, hdone⟩ := twait_completes ht hk hr (w := tw) rfl hspace (s1 := s1) rfl htakes hholds
    exact ⟨⟨_, q, hread, hq, hdone⟩, ⟨_, q, hread, hq, hdone⟩⟩
  · rw [if_pos htakes, if_neg (by rw [hfails]; exact Bool.false_ne_true)] at hval
    exact hread.trans (congrArg done hval)

end Sys2Proof.Machine
end

section
/-! PROOFS. The canonical form of the memories (R311): the vocabulary, the caches, translation, and the marks of what is ordered. -/

namespace Sys2Proof.Machine

/-! What keeps the form. -/

/-- The memories' form is in what an outcome goes on with. -/
def KeepsForm : Host.Outcome State Fault Refusal → Prop
  | .next s => s.MemWf
  | _ => True

/-- The memories' form is in what an act goes on with. -/
def Act.Form : Act → Prop
  | .go s _ _ _ => s.MemWf
  | .hold s => s.MemWf
  | _ => True

/-- The memories' form is in the state that there may be. -/
def OptForm : Option State → Prop
  | some s => s.MemWf
  | none => True

/-- The memories' form is in what the map stage goes on with; it stops an instruction with nothing done. -/
def StageForm : Except Act (State × Nat) → Prop
  | .ok p => p.1.MemWf
  | .error a => a.Form

theorem KeepsForm.next {s : State} (h : s.MemWf) : KeepsForm (.next s) := h
theorem KeepsForm.done {s : State} (h : s.MemWf) : KeepsForm (done s) := h
theorem Act.Form.go {s : State} (h : s.MemWf) {ws : List RegWrite} {extra : Nat} {nx : Next} : (Act.go s ws extra nx).Form := h
theorem Act.Form.hold {s : State} (h : s.MemWf) : (Act.hold s).Form := h
theorem StageForm.ok {s : State} (h : s.MemWf) {n : Nat} : StageForm (.ok (s, n)) := h
theorem StageForm.error {a : Act} (h : a.Form) : StageForm (.error a) := h

theorem KeepsForm.of_next {o : Host.Outcome State Fault Refusal} {s : State} (h : KeepsForm o) (he : o = .next s) : s.MemWf := by
  subst he
  exact h

theorem Act.Form.of_hold {a : Act} {s : State} (h : a.Form) (he : a = .hold s) : s.MemWf := by
  subst he
  exact h

theorem Act.Form.of_go {a : Act} {s : State} {ws : List RegWrite} {extra : Nat} {nx : Next} (h : a.Form) (he : a = .go s ws extra nx) : s.MemWf := by
  subst he
  exact h

theorem OptForm.of_some {o : Option State} {s : State} (h : OptForm o) (he : o = some s) : s.MemWf := by
  subst he
  exact h

theorem OptForm.some {s : State} (h : s.MemWf) : OptForm (Option.some s) := h

theorem StageForm.of_ok {r : Except Act (State × Nat)} {s : State} {n : Nat} (h : StageForm r) (he : r = .ok (s, n)) : s.MemWf := by
  subst he
  exact h

theorem StageForm.of_error {r : Except Act (State × Nat)} {a : Act} (h : StageForm r) (he : r = .error a) : a.Form := by
  subst he
  exact h

theorem State.MemKept.memWf {s t : State} (k : s.MemKept t) (h : s.MemWf) : t.MemWf := by
  obtain ⟨hm, hh, hp⟩ := k
  obtain ⟨wm, wh, wp⟩ := h
  exact ⟨hm wm, by rwa [hh], by rwa [hp]⟩

theorem State.MemWf.of_fst {α : Type} {p : State × α} (h : p.1.MemWf) {u : State} {x : α} (he : p = (u, x)) : u.MemWf := by
  subst he
  exact h

theorem State.MemWf.of_snd {α : Type} {p : α × State} (h : p.2.MemWf) {u : State} {x : α} (he : p = (x, u)) : u.MemWf := by
  subst he
  exact h

theorem State.MemWf.foldl {α : Type} {g : State → α → State} (hg : ∀ u a, u.MemWf → (g u a).MemWf) {s : State} (h : s.MemWf) {l : List α} :
    (l.foldl g s).MemWf := by
  induction l generalizing s with
  | nil => exact h
  | cons a l ih => exact ih (hg s a h)

/-- A fold that gathers results keeps the form where each step does. -/
theorem State.MemWf.gathers {α β : Type} {g : β × State → α → β × State} (hg : ∀ a x, a.2.MemWf → (g a x).2.MemWf) {l : List α} {a : β × State}
    (h : a.2.MemWf) : (l.foldl g a).2.MemWf := by
  induction l generalizing a with
  | nil => exact h
  | cons x l ih => exact ih (hg a x h)

/-- A change of other fields keeps the memories' form. -/
theorem State.MemWf.others {s : State} (h : s.MemWf) {turn cur curUnit curCtx curStream inputs free undef nextId etimePs epochPs ropes wgs slots
      arrays cores sfu ctxs log faults domains streams roots stage2 owners scrubbed l2 tlb code asids poison partRegs calendars keys digests spdm ide
      blackBox counters images duty partDuty dieOff live repairs dump stale repaired resets rotors preempts fatals replies} :
    (State.mk turn cur curUnit curCtx curStream inputs free undef nextId etimePs epochPs ropes wgs slots arrays cores sfu ctxs log faults domains
      streams s.mem s.host s.peer roots stage2 owners scrubbed l2 tlb code asids poison partRegs calendars keys digests spdm ide blackBox counters
      images duty partDuty dieOff live repairs dump stale repaired resets rotors preempts fatals replies).MemWf := h

theorem State.MemWf.snd_ite {α : Type} {a b : α × State} {c : Prop} [Decidable c] (ha : a.2.MemWf) (hb : b.2.MemWf) : (if c then a else b).2.MemWf := by
  split
  · exact ha
  · exact hb

/-- A change of the frames' memory that keeps its form. -/
theorem State.MemWf.withMem {s : State} (h : s.MemWf) {m : Tbl Byte} (hm : Memory.wf m = true) : ({ s with mem := m } : State).MemWf :=
  ⟨hm, h.2.1, h.2.2⟩

/-! What the caches write back. -/

/-- A fold of changes of a memory that each keep its form. -/
theorem Memory.wf_foldl {α : Type} {g : Tbl Byte → α → Tbl Byte} (hg : ∀ m a, Memory.wf m = true → Memory.wf (g m a) = true) (l : List α)
    {m : Tbl Byte} (h : Memory.wf m = true) : Memory.wf (l.foldl g m) = true := by
  induction l generalizing m with
  | nil => exact h
  | cons a l ih => exact ih (hg m a h)

theorem L2Line.wf_discard (l : L2Line) (c : Nat) {m : Tbl Byte} (h : Memory.wf m = true) : Memory.wf (l.discard c m) = true := by
  unfold L2Line.discard
  split
  · exact Memory.wf_foldl (fun m e hm => Memory.wf_wrByte hm e.1 e.2) l.old h
  · exact h

theorem L2Line.wf_writeBack (l : L2Line) (c : Nat) {m : Tbl Byte} (h : Memory.wf m = true) : Memory.wf (l.writeBack c m) = true :=
  wf_combineAll _ _ h

theorem State.wf_undirty {s : State} (h : s.MemWf) (p : L2Line → Nat → Bool) : Memory.wf (s.undirty p) = true := by
  refine Memory.wf_foldl (fun m l hm => ?_) s.l2 h.1
  split
  · split
    · exact l.wf_discard _ hm
    · exact hm
  · exact hm

end Sys2Proof.Machine
end

section
/-! PROOFS. The canonical form of the memories (R311): what reads, writes and moves lines. -/

namespace Sys2Proof.Machine

/-! The accesses to the parts of the state. -/

theorem State.MemWf.setCore {s : State} (h : s.MemWf) {c : Nat} {k : Core} : (s.setCore c k).MemWf := h

theorem State.MemWf.setDomain {s : State} (h : s.MemWf) {did : BitVec 16} {d : Domain} : (s.setDomain did d).MemWf := h

theorem State.MemWf.setRope {s : State} (h : s.MemWf) {k : Nat} {r : Rope} : (s.setRope k r).MemWf := h

theorem State.MemWf.onRope {s : State} (h : s.MemWf) {k : Nat} {f : Rope → Rope} : (s.onRope k f).MemWf := by
  unfold Machine.State.onRope
  split
  · exact h.setRope
  · exact h

theorem State.MemWf.setWg {s : State} (h : s.MemWf) {k : Nat} {w : Workgroup} : (s.setWg k w).MemWf := h

theorem State.MemWf.onWg {s : State} (h : s.MemWf) {k : Nat} {f : Workgroup → Workgroup} : (s.onWg k f).MemWf := by
  unfold Machine.State.onWg
  split
  · exact h.setWg
  · exact h

theorem State.MemWf.setStream {s : State} (h : s.MemWf) {k : Nat} {t : Stream} : (s.setStream k t).MemWf := h

theorem State.MemWf.onStream {s : State} (h : s.MemWf) {k : Nat} {f : Stream → Stream} : (s.onStream k f).MemWf := by
  unfold Machine.State.onStream
  split
  · exact h.setStream
  · exact h

theorem State.MemWf.draw {s : State} (h : s.MemWf) : (s.draw).2.MemWf := by
  unfold Machine.State.draw
  dsimp only
  exact h

theorem State.MemWf.drawDelay {s : State} (h : s.MemWf) : (s.drawDelay).2.MemWf := by
  unfold Machine.State.drawDelay
  dsimp only
  exact h

/-! The marks of what is ordered. -/

theorem State.MemWf.openBytes {s : State} (h : s.MemWf) {did : BitVec 16} {data : List Byte} {n : Nat} : (s.openBytes did data n).2.MemWf := h

theorem State.MemWf.onMarks {s : State} (h : s.MemWf) {g : Mark → Mark} : (s.onMarks g).MemWf := by
  unfold Machine.State.onMarks
  dsimp only
  exact h

theorem State.MemWf.publishes {s : State} (h : s.MemWf) {a : Agent} {i : Nat} {p : Place} {rel : Option Nat} {rmw : Bool} :
    (s.publishes a i p rel rmw).MemWf := by
  unfold Machine.State.publishes
  dsimp only
  exact h.onMarks

theorem State.MemWf.clobbers {s : State} (h : s.MemWf) {p : Place} : (s.clobbers p).MemWf := by
  unfold Machine.State.clobbers
  exact h.onMarks

theorem State.MemWf.observes {s : State} (h : s.MemWf) {a : Agent} {i : Nat} {p : Place} {acq : Option Nat} : (s.observes a i p acq).MemWf := by
  unfold Machine.State.observes
  exact h.onMarks

theorem State.MemWf.fenceAcquires {s : State} (h : s.MemWf) {a : Agent} {i sc : Nat} : (s.fenceAcquires a i sc).MemWf := by
  unfold Machine.State.fenceAcquires
  exact h.onMarks

theorem State.MemWf.fenceReleases {s : State} (h : s.MemWf) {a : Agent} {i sc : Nat} : (s.fenceReleases a i sc).MemWf := by
  unfold Machine.State.fenceReleases
  exact h.onMarks

theorem State.MemWf.passesOn {s : State} (h : s.MemWf) {a b : Agent} : (s.passesOn a b).MemWf := by
  unfold Machine.State.passesOn
  exact h.onMarks

theorem State.MemWf.arrives {s : State} (h : s.MemWf) {wg k b : Nat} : (s.arrives wg k b).MemWf := by
  unfold Machine.State.arrives
  exact h.publishes

theorem State.MemWf.waited {s : State} (h : s.MemWf) {wg k b : Nat} : (s.waited wg k b).MemWf := by
  unfold Machine.State.waited
  exact h.observes

theorem State.MemWf.waitReleases {s : State} (h : s.MemWf) {k : Nat} : (s.waitReleases k).MemWf := by
  unfold Machine.State.waitReleases
  dsimp only
  exact h

theorem State.MemWf.startsCopy {s : State} (h : s.MemWf) {k id : Nat} : (s.startsCopy k id).MemWf := by
  unfold Machine.State.startsCopy
  exact h.onMarks

/-! Translation, the caches and the accesses that are performed. -/

theorem State.MemWf.recallPhys {s : State} (h : s.MemWf) {p n : Nat} : (s.recallPhys p n).MemWf :=
  (State.recallPhys_kept ..).memWf h

theorem State.MemWf.walkRecall {s : State} (h : s.MemWf) {asid : BitVec 16} {va : Nat} : (s.walkRecall asid va).MemWf :=
  (State.walkRecall_kept ..).memWf h

theorem State.MemWf.hold {s : State} (h : s.MemWf) {asid : BitVec 16} {va : Nat} : (s.hold asid va).MemWf :=
  (State.hold_kept ..).memWf h

theorem State.MemWf.fatalFor {s : State} (h : s.MemWf) {p : Nat} : (s.fatalFor p).MemWf :=
  (State.fatalFor_kept ..).memWf h

theorem State.MemWf.walked {s0 : State} (h : s0.MemWf) {asid : BitVec 16} {va : Nat} : (s0.walked asid va).MemWf :=
  (State.walked_kept ..).memWf h

theorem State.MemWf.setCal {s : State} (h : s.MemWf) {p : Nat} {c : Calendar} : (s.setCal p c).MemWf := h

theorem State.MemWf.logBox {s : State} (h : s.MemWf) {hub : Nat} {cls : Nat} {w : ErrWhere} : (s.logBox hub cls w).MemWf := by
  unfold Machine.State.logBox
  dsimp only
  exact h

theorem State.MemWf.logRefused {s : State} (h : s.MemWf) {v : Requester} {asid : BitVec 16} {line : Nat} : (s.logRefused v asid line).MemWf := by
  unfold Machine.State.logRefused
  dsimp only
  exact h.logBox

theorem State.MemWf.putLine {s : State} (h : s.MemWf) {l : L2Line} : (s.putLine l).MemWf :=
  (State.putLine_kept ..).memWf h

theorem State.MemWf.evictLine {s : State} (h : s.MemWf) {l : L2Line} : (s.evictLine l).MemWf :=
  (State.evictLine_kept ..).memWf h

theorem State.MemWf.l1Leave {s : State} (h : s.MemWf) {c : Nat} {sets : Nat → Bool} {p : Nat → Bool} : (s.l1Leave c sets p).MemWf :=
  (State.l1Leave_kept ..).memWf h

theorem State.MemWf.l1Way {s : State} (h : s.MemWf) {c line policy : Nat} : (s.l1Way c line policy).1.MemWf :=
  (State.l1Way_kept ..).memWf h

theorem State.MemWf.allocLine {s : State} (h : s.MemWf) {l : L2Line} {mask : BitVec 16} : (s.allocLine l mask).MemWf :=
  (State.allocLine_kept ..).memWf h

theorem State.MemWf.own {s : State} (h : s.MemWf) {asid : BitVec 16} {va f : Nat} : (s.own asid va f).MemWf :=
  (State.own_kept ..).memWf h

theorem State.MemWf.failed {s : State} (h : s.MemWf) {t : Target} {va : Nat} {k : AccKind} : (s.failed t va k).MemWf :=
  (State.failed_kept ..).memWf h

theorem State.MemWf.xlate {s : State} (h : s.MemWf) {t : Target} {va : Nat} {k : AccKind} : (s.xlate t va k).2.MemWf :=
  (State.xlate_kept ..).memWf h

theorem State.MemWf.recall {s : State} (h : s.MemWf) {asid : BitVec 16} {va : Nat} : (s.recall asid va).MemWf :=
  (State.recall_kept ..).memWf h

theorem State.MemWf.l1Touch {s0 : State} (h : s0.MemWf) {core : Nat} {alloc : Bool} {asid : BitVec 16} {va size : Nat} {phys : Nat} {wr : Bool} :
    (s0.l1Touch core alloc asid va size phys wr).MemWf :=
  (State.l1Touch_kept ..).memWf h

theorem State.MemWf.wake {s : State} (h : s.MemWf) {space addr size : Nat} : (s.wake space addr size).MemWf :=
  (State.wake_kept ..).memWf h

theorem State.MemWf.spoil {s : State} (h : s.MemWf) {k : Nat} : (s.spoil k).MemWf := by
  unfold Machine.State.spoil
  dsimp only
  split
  · exact h
  · split
    · exact h
    · exact State.MemWf.others h.openBytes

theorem State.MemWf.raceFills {s : State} (h : s.MemWf) {wg lo size : Nat} {a : Option Agent} {i : Nat} : (s.raceFills wg lo size a i).MemWf := by
  unfold Machine.State.raceFills
  dsimp only
  refine State.MemWf.foldl (fun u a hu => ?_) (State.MemWf.others h)
  split
  · split
    · exact hu.spoil
    · exact hu
  · exact hu

theorem State.MemWf.writeScratch {s : State} (h : s.MemWf) {wg : Nat} {a : Option Agent} {num addr : Nat} {bs : List Byte} :
    (s.writeScratch wg a num addr bs).MemWf := by
  unfold Machine.State.writeScratch
  exact h.onWg.raceFills.wake

theorem State.MemWf.l1Merge {s0 : State} (h : s0.MemWf) {asid : BitVec 16} {va : Nat} : (s0.l1Merge asid va).MemWf :=
  (State.l1Merge_kept ..).memWf h

theorem State.MemWf.writePhys {s : State} (h : s.MemWf) {core : Option Nat} {alloc : Bool} {asid : BitVec 16} {va frame : Nat} {bs : List Byte} :
    (s.writePhys core alloc asid va frame bs).MemWf :=
  (State.writePhys_kept ..).memWf h

theorem State.MemWf.kick {s : State} (h : s.MemWf) {k : Nat} {v : Nat} : (s.kick k v).MemWf := by
  unfold Machine.State.kick
  dsimp only
  split
  · exact h
  · exact h.setStream

theorem State.MemWf.sysTouch {s : State} (h : s.MemWf) {hub : Nat} {asid : BitVec 16} {va n : Nat} {k : AccKind} : (s.sysTouch hub asid va n k).MemWf :=
  (State.sysTouch_kept ..).memWf h

theorem State.MemWf.sysStore {s : State} (h : s.MemWf) {hub : Nat} {asid : BitVec 16} {va : Nat} {bs : List Byte} {note : State → Place → State}
    (hn : ∀ u p, u.MemWf → (note u p).MemWf) : (s.sysStore hub asid va bs note).MemWf := by
  unfold State.sysStore
  dsimp only
  refine State.MemWf.foldl (fun u a hu => ?_) (State.MemWf.foldl (fun u a hu => ?_) h.sysTouch)
  · split
    · exact hu
    · split
      · exact hu.writePhys
      · exact hu
  · split
    · exact hn _ _ hu
    · exact hu

theorem State.MemWf.sysWrite {s : State} (h : s.MemWf) {hub : Nat} {asid : BitVec 16} {va : Nat} {bs : List Byte} :
    (s.sysWrite hub asid va bs).MemWf :=
  h.sysStore (fun _ _ hu => hu.clobbers)

theorem State.MemWf.wakeCtrl {s : State} (h : s.MemWf) {key : Nat} : (s.wakeCtrl key).MemWf := by
  unfold Machine.State.wakeCtrl
  exact h.wake

theorem State.MemWf.fctl {s : State} (h : s.MemWf) {k : Nat} {t : Stream} {v : Word} : (s.fctl k t v).MemWf := by
  unfold Machine.State.fctl
  split
  · exact h
  · split
    · exact h.setStream
    · exact h.setStream.wakeCtrl

theorem State.MemWf.writeCtrl {s : State} (h : s.MemWf) {k : Nat} {t : Stream} {off : Nat} {bs : List Byte} : (s.writeCtrl k t off bs).MemWf := by
  unfold Machine.State.writeCtrl
  dsimp only
  refine State.MemWf.wake ?_
  split
  · exact h.kick.wakeCtrl
  · exact h.fctl
  · exact h.setStream
  · exact h.sysWrite
  · exact h

theorem State.MemWf.linkTakes {s : State} (h : s.MemWf) {t : Target} {addr size : Nat} : (s.linkTakes t addr size).2.MemWf := by
  unfold Machine.State.linkTakes
  split
  · dsimp only
    exact h.draw
  · dsimp only
    exact h

theorem State.MemWf.writeAt {s : State} (h : s.MemWf) {t : Target} {frame addr : Nat} {bs : List Byte} : (s.writeAt t frame addr bs).MemWf := by
  unfold State.writeAt
  split
  · exact h.writePhys
  · split
    · exact h.writeScratch
    · split
      · exact ⟨h.1, Memory.wf_wrBytes h.2.1 _ _, h.2.2⟩
      · split
        · exact ⟨h.1, h.2.1, Memory.wf_wrBytes h.2.2 _ _⟩
        · split
          · exact h.writeCtrl
          · exact h

theorem State.MemWf.reads {s : State} (h : s.MemWf) {t : Target} {frame addr size : Nat} : (s.reads t frame addr size).MemWf := by
  unfold Machine.State.reads
  split
  · exact h.observes
  · exact h

theorem State.MemWf.released {s : State} (h : s.MemWf) {t : Target} {frame addr size : Nat} {rmw : Bool} : (s.released t frame addr size rmw).MemWf := by
  unfold Machine.State.released
  split
  · split
    · exact h.publishes.passesOn
    · exact h.publishes
  · exact h.clobbers

theorem State.MemWf.ringOwn {s : State} (h : s.MemWf) {t : Target} {addr size : Nat} : (s.ringOwn t addr size).MemWf := by
  unfold Machine.State.ringOwn
  split
  · split
    · exact h.sysTouch
    · exact h
  · exact h

theorem State.MemWf.performLane {s : State} (h : s.MemWf) {t : Target} {frame : Nat} {a : LaneAcc} : (s.performLane t frame a).1.MemWf := by
  unfold Machine.State.performLane
  dsimp only
  split
  · dsimp only
    exact h.reads.ringOwn
  · dsimp only
    exact h.writeAt.released
  · split
    · dsimp only
      refine State.MemWf.released (State.MemWf.writeAt ?_)
      split
      · exact h.reads
      · exact h
    · dsimp only
      refine State.MemWf.released (State.MemWf.writeAt ?_)
      split
      · exact h.reads
      · exact h

theorem State.MemWf.gather {s : State} (h : s.MemWf) {t : Target} {c : Nat} {op : AtomOp} {x va : Nat} : (s.gather t c op x va).MemWf :=
  (State.gather_kept ..).memWf h

theorem State.MemWf.performGlobal {s : State} (h : s.MemWf) {t : Target} {frame : Nat} {a : LaneAcc} : (s.performGlobal t frame a).1.MemWf := by
  unfold Machine.State.performGlobal
  split
  · exact h.l1Touch.performLane
  · exact h.l1Merge.performLane
  · split
    · split
      · dsimp only
        exact h.draw.gather.released
      · exact h.draw.l1Merge.performLane
    · exact h.l1Merge.performLane
  · exact h.performLane

theorem State.MemWf.reachLane {s : State} (h : s.MemWf) {t : Target} {a : LaneAcc} : (s.reachLane t a).1.MemWf := by
  unfold Machine.State.reachLane
  split
  · split
    · next _ _ _ _ _ _ he =>
      dsimp only
      exact h.xlate.of_snd he
    · next _ _ _ he =>
      dsimp only
      exact h.xlate.of_snd he
    · next _ _ he =>
      dsimp only
      exact h.xlate.of_snd he
  · split
    · dsimp only
      exact h
    · split
      · dsimp only
        exact h
      · split
        · next _ _ hf =>
          dsimp only
          exact h.linkTakes.of_snd hf
        · next _ _ hf =>
          dsimp only
          exact h.linkTakes.of_snd hf

theorem State.MemWf.performAt {s : State} (h : s.MemWf) {t : Target} {frame : Nat} {a : LaneAcc} : (s.performAt t frame a).1.MemWf := by
  unfold Machine.State.performAt
  split
  · exact h.performGlobal
  · exact h.performLane

theorem State.MemWf.performFrom {s : State} (h : s.MemWf) {t : Target} {seen : List (Nat × Except Nat Nat)} {l : List LaneAcc} :
    (s.performFrom t seen l).1.MemWf := by
  induction l generalizing s seen with
  | nil => exact h
  | cons a l ih =>
    have hreach : (match seen.find? (fun e => e.1 == a.addr) with | some e => (s, e.2) | none => s.reachLane t a : State × Except Nat Nat).1.MemWf := by
      split
      · exact h
      · exact h.reachLane
    unfold State.performFrom
    dsimp only
    split
    · exact ih hreach.performAt
    · exact ih hreach

theorem State.MemWf.performLanes {s : State} (h : s.MemWf) {t : Target} {lanes : List LaneAcc} : (s.performLanes t lanes).1.MemWf := by
  unfold Machine.State.performLanes
  exact h.performFrom

end Sys2Proof.Machine
end

section
/-! PROOFS. The canonical form of the memories (R311): traps, the issue of an instruction, and the moulds. -/

namespace Sys2Proof.Machine

/-! The map arrays and slots. -/

theorem State.MemWf.setSlot {s : State} (h : s.MemWf) {k : Nat} {m : MapSlot} : (s.setSlot k m).MemWf := h

theorem State.MemWf.takeArrays {s : State} (h : s.MemWf) {x : Issue} {apps : List (Nat × Bool)} : OptForm (x.takeArrays s apps) := by
  unfold Issue.takeArrays
  extract_lets free serving need n
  split
  · exact trivial
  · refine State.MemWf.setCore (State.MemWf.foldl (fun u a hu => ?_) h)
    exact hu

theorem State.MemWf.mapStageIn {s : State} (h : s.MemWf) {x : Issue} {rowA rowB : Nat} {intA intB facc : Bool} :
    StageForm (x.mapStageIn s rowA rowB intA intB facc) := by
  unfold Issue.mapStageIn
  split
  · split
    · next c _ => cases c <;> exact trivial
    · dsimp only
      split
      · exact trivial
      · next hv => exact h.takeArrays.of_some hv
  · exact h

/-! The end of an arithmetic instruction. -/

theorem State.MemWf.finish {s : State} (h : s.MemWf) {x : Issue} {fl : Nat → Flags} {cond : Nat → Bool} {ws : List RegWrite} {extra : Nat} :
    (x.finish s fl cond ws extra).Form := by
  unfold Machine.Issue.finish
  dsimp only
  split
  · exact trivial
  · exact h

/-! Traps, barriers and the issue of an instruction. -/

theorem State.MemWf.barTest {s : State} (h : s.MemWf) {wg b : Nat} : (s.barTest wg b).MemWf := by
  unfold Machine.State.barTest
  dsimp only
  split
  · exact h
  · split
    · refine State.MemWf.foldl (fun u a hu => ?_) (State.MemWf.others h.setWg).onMarks
      split
      · exact hu.waited
      · exact hu
    · exact h

theorem State.MemWf.barRope1 {s : State} (h : s.MemWf) {k b : Nat} : (s.barRope1 k b).MemWf := by
  unfold Machine.State.barRope1
  dsimp only
  split
  · exact h
  · split
    · exact h
    · split
      · exact h.setRope.setWg.arrives.barTest
      · exact h

theorem State.MemWf.barLate {s : State} (h : s.MemWf) {wg b : Nat} : (s.barLate wg b).MemWf := by
  unfold Machine.State.barLate
  dsimp only
  refine State.MemWf.foldl (fun u a hu => ?_) h
  exact hu.barRope1

theorem State.MemWf.barRope {s : State} (h : s.MemWf) {k b : Nat} : (s.barRope k b).MemWf := by
  unfold Machine.State.barRope
  split
  · exact h
  · exact h.barRope1.barLate

theorem State.MemWf.barArrive {s : State} (h : s.MemWf) {k b : Nat} {st : BitVec 8} : (s.barArrive k b st).MemWf := by
  unfold Machine.State.barArrive
  dsimp only
  split
  · exact h
  · exact h.setRope.barRope

theorem State.MemWf.barEnd {s : State} (h : s.MemWf) {k b : Nat} : (s.barEnd k b).MemWf := by
  unfold Machine.State.barEnd
  dsimp only
  split
  · exact h
  · split
    · exact h
    · exact h.setWg.barTest.barLate

theorem State.MemWf.endRope {s : State} (h : s.MemWf) {k : Nat} : (s.endRope k).MemWf := by
  unfold Machine.State.endRope
  refine State.MemWf.foldl (fun u a hu => ?_) h
  exact hu.barEnd

theorem State.MemWf.barRetest {s : State} (h : s.MemWf) {k : Nat} : (s.barRetest k).MemWf := by
  unfold Machine.State.barRetest
  refine State.MemWf.foldl (fun u a hu => ?_) h
  exact hu.barRope

theorem State.MemWf.freeSlots {s : State} (h : s.MemWf) {w : Workgroup} : (s.freeSlots w).MemWf := by
  unfold Machine.State.freeSlots
  dsimp only
  exact h

theorem State.MemWf.abandonLog {s : State} (h : s.MemWf) {p : LogEntry → Bool} : (s.abandonLog p).MemWf := h

theorem State.MemWf.killWg {s : State} (h : s.MemWf) {wg : Nat} : (s.killWg wg).MemWf := by
  unfold Machine.State.killWg
  dsimp only
  split
  · exact h
  · exact State.MemWf.others h.freeSlots.abandonLog

theorem State.MemWf.raiseFault {s : State} (h : s.MemWf) {w : Workgroup} {cls reason : Nat} {info : Word} {t : Option TrapRec} :
    (s.raiseFault w cls reason info t).MemWf := h

theorem State.MemWf.askFetch {s0 : State} (h : s0.MemWf) {k u : Nat} {r : Rope} {reason va : Nat} : (s0.askFetch k u r reason va).MemWf := by
  unfold Machine.State.askFetch
  dsimp only
  exact State.MemWf.others h.failed

theorem State.MemWf.dropFetch {s : State} (h : s.MemWf) {k u : Nat} : (s.dropFetch k u).MemWf := h

theorem State.MemWf.dropFrame {s : State} (h : s.MemWf) {k : Nat} : (s.dropFrame k).MemWf := by
  unfold Machine.State.dropFrame
  dsimp only
  exact State.MemWf.others h.abandonLog

theorem State.MemWf.killBy {s : State} (h : s.MemWf) {k : Nat} {reason : Nat} {t : TrapRec} : (s.killBy k reason t).MemWf := by
  unfold Machine.State.killBy
  split
  · exact h
  · split
    · exact h
    · split
      · exact h.raiseFault.killWg
      · exact h.raiseFault.killWg

theorem State.MemWf.takeTrap {s : State} (h : s.MemWf) {k u : Nat} {t : TrapRec} {access : Option Nat} {n : Nat} :
    (s.takeTrap k u t access n).MemWf := by
  induction n generalizing s k u t access with
  | zero => exact h.killBy
  | succ n ih =>
    unfold State.takeTrap
    split
    · exact h
    · dsimp only
      split
      · exact h.killBy
      · split
        · split
          · exact h.killBy
          · exact ih h.dropFrame.setRope
        · split
          · exact h.killBy
          · exact h.dropFetch.setRope

theorem State.MemWf.spend {s : State} (h : s.MemWf) {c quad cls : Nat} {f64 : Bool} : (s.spend c quad cls f64).MemWf := by
  unfold Machine.State.spend
  dsimp only
  exact h.setCore

theorem State.MemWf.raise {s : State} (h : s.MemWf) {x : Issue} {q : TrapReq} : (x.raise s q).MemWf := by
  unfold Machine.Issue.raise
  dsimp only
  exact h.spend.setRope.takeTrap

theorem State.MemWf.holdTrap {s : State} (h : s.MemWf) {k : Nat} {g : HeldTrap} : (s.holdTrap k g).MemWf := by
  unfold Machine.State.holdTrap
  exact h.onRope

theorem State.MemWf.deliverHeld {s : State} (h : s.MemWf) {k : Nat} : (s.deliverHeld k).MemWf := by
  unfold Machine.State.deliverHeld
  dsimp only
  split
  · exact h
  · split
    · exact h
    · split
      · exact h
      · exact h.setRope.takeTrap

theorem State.MemWf.dropAccess {s : State} (h : s.MemWf) {id : Nat} : (s.dropAccess id).MemWf := by
  unfold Machine.State.dropAccess
  dsimp only
  exact h

theorem State.MemWf.retryAccess {s : State} (h : s.MemWf) {k u : Nat} {t : TrapRec} {id : Nat} : (s.retryAccess k u t id).MemWf := by
  unfold Machine.State.retryAccess
  split
  · exact h.holdTrap
  · exact h

theorem State.MemWf.returnFrom {s : State} (h : s.MemWf) {k u : Nat} {c : TrapCtx} {stall skip : Nat} : (s.returnFrom k u c stall skip).MemWf := by
  unfold Machine.State.returnFrom
  dsimp only
  split
  · exact h
  · split
    · split
      · exact h.killBy
      · exact h.dropFrame.setRope.takeTrap
    · split
      · exact h.killBy
      · split
        · exact h.setRope.dropAccess
        · exact h.setRope
    · split
      · split
        · exact h.killBy
        · split
          · exact h.setRope.dropAccess
          · exact h.setRope
      · split
        · exact h.killBy
        · split
          · exact h.setRope.dropAccess
          · exact h.setRope
    · split
      · split
        · exact h.killBy
        · split
          · exact h.setRope.retryAccess
          · exact h.setRope
      · split
        · exact h.killBy
        · split
          · exact h.setRope
          · exact h.setRope

theorem State.MemWf.holdQuad {s : State} (h : s.MemWf) {c quad : Nat} : (s.holdQuad c quad).MemWf := by
  unfold Machine.State.holdQuad
  dsimp only
  split
  · exact h
  · exact State.MemWf.others (State.MemWf.others h).setCore

theorem State.MemWf.commit {s : State} (h : s.MemWf) {x : Issue} {ws : List RegWrite} {extra : Nat} {nx : Next} : (x.commit s ws extra nx).MemWf := by
  unfold Machine.Issue.commit
  dsimp only
  split
  · exact State.MemWf.others h.spend
  · exact State.MemWf.others h.setRope.setCore.holdQuad.onWg

theorem State.MemWf.drawn {s : State} (h : s.MemWf) {x : Issue} {reads : List RegRef} : (x.drawn s reads).MemWf := h

theorem State.MemWf.overtake {s1 : State} (h : s1.MemWf) {x : Issue} {ws : List RegWrite} : (x.overtake s1 ws).MemWf := by
  unfold Machine.Issue.overtake
  dsimp only
  split
  · exact h
  · exact State.MemWf.others h.onRope

/-- An instruction whose acts keep the form keeps it. -/
theorem State.MemWf.issue {op : Nat} {f : Fields} {pb : PB} {body : Issue → State → Act}
    (hbody : ∀ x u, u.MemWf → (body x u).Form) {s : State} (h : s.MemWf) : KeepsForm (issue op f pb body s) := by
  unfold Machine.issue
  split
  · exact trivial
  · split
    · exact h.raiseFault.killWg
    · split
      · exact h.raise
      · split
        · exact h.raise
        · split
          · exact h.raise
          · split
            · exact h
            · dsimp only
              split
              · exact h
              · exact h.raise
              · split
                · exact h
                · next he =>
                  have hs := (hbody _ _ h.drawn).of_hold he
                  exact hs
                · exact h.raise
                · next he =>
                  have hs := (hbody _ _ h.drawn).of_go he
                  exact hs.overtake.commit

/-! The moulds of the arithmetic instructions. -/

theorem State.MemWf.writeD {s : State} (h : s.MemWf) {x : Issue} {m : Meta} {res : Nat → ER} {extra : Nat} : (x.writeD s m res extra).Form := by
  unfold Machine.Issue.writeD
  dsimp only
  split
  · exact h
  · split
    · exact h.finish
    · exact h.finish

theorem State.MemWf.mapIn {s : State} (h : s.MemWf) {x : Issue} {m : Meta} : StageForm (x.mapIn s m) := h.mapStageIn

theorem State.MemWf.alu2 {s : State} (h : s.MemWf) {op : Nat} {f : Fields} {g : Meta → CW → EV → EV → ER} : KeepsForm (alu2 op f g s) := by
  unfold Machine.alu2
  dsimp only
  refine State.MemWf.issue (fun y u hu => ?_) h
  split
  · exact trivial
  · split
    · next _ _ he =>
      exact hu.mapIn.of_error he
    · next _ _ _ he =>
      exact (hu.mapIn.of_ok he).writeD

theorem State.MemWf.alu1 {s : State} (h : s.MemWf) {op : Nat} {f : Fields} {g : Meta → CW → EV → ER} : KeepsForm (alu1 op f g s) := by
  unfold Machine.alu1
  dsimp only
  refine State.MemWf.issue (fun y u hu => ?_) h
  split
  · exact trivial
  · split
    · next _ _ he =>
      exact hu.mapIn.of_error he
    · next _ _ _ he =>
      exact (hu.mapIn.of_ok he).writeD

theorem State.MemWf.alu3 {s : State} (h : s.MemWf) {op : Nat} {f : Fields} {g : Meta → CW → EV → EV → EV → ER} : KeepsForm (alu3 op f g s) := by
  unfold Machine.alu3
  dsimp only
  refine State.MemWf.issue (fun y u hu => ?_) h
  split
  · exact trivial
  · split
    · next _ _ he =>
      exact hu.mapIn.of_error he
    · next _ _ _ he =>
      exact (hu.mapIn.of_ok he).writeD

theorem State.MemWf.aluCmp {s : State} (h : s.MemWf) {op : Nat} {f : Fields} {g : Nat → EV → EV → Bool × Flags} : KeepsForm (aluCmp op f g s) := by
  unfold Machine.aluCmp
  dsimp only
  refine State.MemWf.issue (fun y u hu => ?_) h
  split
  · exact trivial
  · split
    · next _ _ he =>
      exact hu.mapIn.of_error he
    · next _ _ _ he =>
      split
      · exact hu.mapIn.of_ok he
      · exact (hu.mapIn.of_ok he).finish

theorem State.MemWf.aluSel {s : State} (h : s.MemWf) {op : Nat} {f : Fields} : KeepsForm (aluSel op f s) := by
  unfold Machine.aluSel
  dsimp only
  refine State.MemWf.issue (fun y u hu => ?_) h
  split
  · exact trivial
  · split
    · next _ _ he =>
      exact hu.mapIn.of_error he
    · next _ _ _ he =>
      exact (hu.mapIn.of_ok he).writeD

theorem State.MemWf.aluCvt {s : State} (h : s.MemWf) {op : Nat} {f : Fields} {g : Meta → CW → EV → ER} : KeepsForm (aluCvt op f g s) := by
  unfold Machine.aluCvt
  dsimp only
  refine State.MemWf.issue (fun y u hu => ?_) h
  split
  · exact trivial
  · split
    · next _ _ he =>
      exact hu.mapIn.of_error he
    · next _ _ _ he =>
      exact (hu.mapIn.of_ok he).writeD

end Sys2Proof.Machine
end

section
/-! PROOFS. The canonical form of the memories (R311): the cross-lane and control instructions. -/

namespace Sys2Proof.Machine

/-! The map instructions and the cross-lane moves. -/

/-- What the check of a slot answers against its instruction is a trap. -/
theorem Act.Form.of_slotCheck {x : Issue} {s : State} {n : Nat} {a : Act} (he : x.slotCheck s n = .error a) : a.Form := by
  unfold Issue.slotCheck at he
  split at he
  · exact Except.error.inj he ▸ trivial
  · split at he
    · exact Except.error.inj he ▸ trivial
    · cases he

theorem State.MemWf.execMapld {s : State} (h : s.MemWf) {f : Fields} : KeepsForm (execMapld f s) := by
  unfold Machine.execMapld
  refine State.MemWf.issue (fun y u hu => ?_) h
  split
  · split
    · exact trivial
    · exact hu
  · split
    · exact trivial
    · dsimp only
      split
      · next he => exact Act.Form.of_slotCheck he
      · split
        · exact trivial
        · split
          · exact trivial
          · split
            · exact trivial
            · split
              · exact trivial
              · split
                · exact trivial
                · split
                  · exact trivial
                  · split
                    · exact trivial
                    · exact .go (State.MemWf.setSlot (State.MemWf.others hu.drawDelay))

theorem State.MemWf.execMapclr {s : State} (h : s.MemWf) {f : Fields} : KeepsForm (execMapclr f s) := by
  unfold Machine.execMapclr
  refine State.MemWf.issue (fun y u hu => ?_) h
  split
  · split
    · exact trivial
    · exact hu
  · split
    · next he => exact Act.Form.of_slotCheck he
    · split
      · exact trivial
      · exact .go hu.setSlot

theorem State.MemWf.execMapq {s : State} (h : s.MemWf) {f : Fields} : KeepsForm (execMapq f s) := by
  unfold Machine.execMapq
  refine State.MemWf.issue (fun y u hu => ?_) h
  split
  · split
    · exact trivial
    · exact hu
  · split
    · next he => exact Act.Form.of_slotCheck he
    · split
      · exact trivial
      · exact hu

theorem State.MemWf.execShfl {s : State} (h : s.MemWf) {f : Fields} : KeepsForm (execShfl f s) := by
  unfold Machine.execShfl
  refine State.MemWf.issue (fun y u hu => ?_) h
  exact hu

theorem State.MemWf.execBcast {s : State} (h : s.MemWf) {f : Fields} : KeepsForm (execBcast f s) := by
  unfold Machine.execBcast
  refine State.MemWf.issue (fun y u hu => ?_) h
  exact hu

theorem State.MemWf.execRdlane {s : State} (h : s.MemWf) {f : Fields} : KeepsForm (execRdlane f s) := by
  unfold Machine.execRdlane
  refine State.MemWf.issue (fun y u hu => ?_) h
  exact hu

theorem State.MemWf.execWrlane {s : State} (h : s.MemWf) {f : Fields} : KeepsForm (execWrlane f s) := by
  unfold Machine.execWrlane
  refine State.MemWf.issue (fun y u hu => ?_) h
  exact hu

theorem State.MemWf.matchOp {s : State} (h : s.MemWf) {op w : Nat} {f : Fields} : KeepsForm (matchOp op w f s) := by
  unfold Machine.matchOp
  refine State.MemWf.issue (fun y u hu => ?_) h
  exact hu

/-! Transfers, splices, barriers, votes, waits and fences. -/

theorem State.MemWf.toTargets {s : State} (h : s.MemWf) {x : Issue} {perLane : Bool} {dest : List (Nat × DWord)} {act : Act} (ha : act.Form) :
    (x.toTargets s perLane dest act).Form := by
  unfold Issue.toTargets
  dsimp only
  split
  · exact h.askFetch
  · exact trivial
  · exact trivial
  · exact ha

theorem State.MemWf.transfer {s : State} (h : s.MemWf) {x : Issue} {perLane : Bool} {target : Nat → DWord} {ws : List RegWrite} :
    (x.transfer s perLane target ws).Form := by
  unfold Issue.transfer
  refine h.toTargets ?_
  split
  · exact h
  · exact h

theorem State.MemWf.execBra {s : State} (h : s.MemWf) {f : Fields} : KeepsForm (execBra f s) := by
  unfold Machine.execBra
  refine State.MemWf.issue (fun y u hu => ?_) h
  exact hu.transfer

theorem State.MemWf.execCall {s : State} (h : s.MemWf) {f : Fields} : KeepsForm (execCall f s) := by
  unfold Machine.execCall
  refine State.MemWf.issue (fun y u hu => ?_) h
  exact hu.transfer

theorem State.MemWf.execJmpi {s : State} (h : s.MemWf) {f : Fields} : KeepsForm (execJmpi f s) := by
  unfold Machine.execJmpi
  refine State.MemWf.issue (fun y u hu => ?_) h
  exact hu.transfer

theorem State.MemWf.execCalli {s : State} (h : s.MemWf) {f : Fields} : KeepsForm (execCalli f s) := by
  unfold Machine.execCalli
  refine State.MemWf.issue (fun y u hu => ?_) h
  exact hu.transfer

theorem State.MemWf.execRet {s : State} (h : s.MemWf) {f : Fields} : KeepsForm (execRet f s) := by
  unfold Machine.execRet
  refine State.MemWf.issue (fun y u hu => ?_) h
  exact hu.transfer

theorem State.MemWf.spliceOp {s : State} (h : s.MemWf) {op : Nat} {compact : Bool} {f : Fields} : KeepsForm (spliceOp op compact f s) := by
  unfold Machine.spliceOp
  dsimp only
  refine State.MemWf.issue (fun y u hu => ?_) h
  split
  · exact trivial
  · split
    · exact .go hu.setRope
    · exact .go hu.setRope

theorem State.MemWf.exitLanes {s : State} (h : s.MemWf) {x : Issue} {m : Word} : (s.exitLanes x m).MemWf := by
  unfold Machine.State.exitLanes
  dsimp only
  split
  · exact h
  · split
    · exact h.setRope.endRope
    · exact h.setRope.barRetest

theorem State.MemWf.execExit {s : State} (h : s.MemWf) {f : Fields} : KeepsForm (execExit f s) := by
  unfold Machine.execExit
  refine State.MemWf.issue (fun y u hu => ?_) h
  split
  · exact hu
  · split
    · exact trivial
    · exact .go hu.exitLanes

theorem State.MemWf.execYield {s : State} (h : s.MemWf) {f : Fields} : KeepsForm (execYield f s) := by
  unfold Machine.execYield
  refine State.MemWf.issue (fun y u hu => ?_) h
  exact hu

theorem State.MemWf.execNop {s : State} (h : s.MemWf) {f : Fields} : KeepsForm (execNop f s) := by
  unfold Machine.execNop
  refine State.MemWf.issue (fun y u hu => ?_) h
  exact hu

theorem State.MemWf.afterBarrier {s : State} (h : s.MemWf) {x : Issue} {late : Bool} {wait : Option (Nat × Bool × Bool)} :
    (x.afterBarrier s late wait).Form := by
  unfold Machine.Issue.afterBarrier
  dsimp only
  split
  · exact trivial
  · split
    · exact .go h.setRope
    · refine .go (State.MemWf.setRope ?_)
      split
      · split
        · exact h.waited
        · exact h
      · split
        · exact h.waited
        · exact h

theorem State.MemWf.barOp {body : Issue → Nat → Barrier → State → Act} (hbody : ∀ x b q u, u.MemWf → (body x b q u).Form) {op : Nat} {f : Fields}
    {s : State} (h : s.MemWf) : KeepsForm (barOp op f body s) := by
  unfold Machine.barOp
  refine State.MemWf.issue (fun y u hu => ?_) h
  dsimp only
  split
  · exact trivial
  · exact hbody _ _ _ _ hu

theorem State.MemWf.arriveOp {s : State} (h : s.MemWf) {sync : Bool} {x : Issue} {b : Nat} {q : Barrier} : (arriveOp sync x b q s).Form := by
  unfold Machine.arriveOp
  dsimp only
  split
  · exact trivial
  · exact h.barArrive.afterBarrier

theorem State.MemWf.execBarSync {s : State} (h : s.MemWf) {f : Fields} : KeepsForm (execBarSync f s) :=
  State.MemWf.barOp (fun _ _ _ _ hu => hu.arriveOp) h

theorem State.MemWf.execBarArr {s : State} (h : s.MemWf) {f : Fields} : KeepsForm (execBarArr f s) :=
  State.MemWf.barOp (fun _ _ _ _ hu => hu.arriveOp) h

theorem State.MemWf.execBarWait {s : State} (h : s.MemWf) {f : Fields} : KeepsForm (execBarWait f s) := by
  unfold Machine.execBarWait
  refine State.MemWf.barOp (fun x b q u hu => ?_) h
  split
  · exact hu.afterBarrier
  · exact hu.waited.afterBarrier

theorem State.MemWf.execBarSet {s : State} (h : s.MemWf) {f : Fields} : KeepsForm (execBarSet f s) :=
  State.MemWf.barOp (fun _ _ _ _ hu => hu.onWg.afterBarrier) h

theorem State.MemWf.voteOp {s : State} (h : s.MemWf) {op : Nat} {res : Issue → Bool} {f : Fields} : KeepsForm (voteOp op res f s) := by
  unfold Machine.voteOp
  refine State.MemWf.issue (fun y u hu => ?_) h
  exact hu

theorem State.MemWf.execVoteBal {s : State} (h : s.MemWf) {f : Fields} : KeepsForm (execVoteBal f s) := by
  unfold Machine.execVoteBal
  refine State.MemWf.issue (fun y u hu => ?_) h
  exact hu

theorem State.MemWf.execWaitc {s : State} (h : s.MemWf) {f : Fields} : KeepsForm (execWaitc f s) := by
  unfold Machine.execWaitc
  refine State.MemWf.issue (fun y u hu => ?_) h
  split
  · refine .go ?_
    split
    · exact hu.waitReleases
    · exact hu
  · exact trivial

theorem State.MemWf.fenceOp {s : State} (h : s.MemWf) {op : Nat} {acq rel : Bool} {f : Fields} : KeepsForm (fenceOp op acq rel f s) := by
  unfold Machine.fenceOp
  dsimp only
  refine State.MemWf.issue (fun y u hu => ?_) h
  refine .go (State.MemWf.onRope ?_)
  split
  · refine State.MemWf.fenceReleases ?_
    split
    · exact hu.fenceAcquires
    · exact hu
  · split
    · exact hu.fenceAcquires
    · exact hu

end Sys2Proof.Machine
end

section
/-! PROOFS. The canonical form of the memories (R311): the memory instructions and the engines. -/

namespace Sys2Proof.Machine

/-! The memory instructions. -/

theorem State.MemWf.logLeft {s : State} (h : s.MemWf) {x : Issue} {id : Nat} {pb : PB} {g : HRef} {kind : AccKind} {sc : Bool}
    {left : List (LaneAcc × Nat)} : (x.logLeft s id pb g kind sc left).MemWf := by
  unfold Machine.Issue.logLeft
  dsimp only
  split
  · exact h
  · split
    · split
      · exact (State.MemWf.others h).holdTrap
      · exact h
    · split
      · split
        · exact (State.MemWf.others h).holdTrap
        · exact h
      · split
        · split
          · exact (State.MemWf.others h).holdTrap
          · exact h
        · split
          · exact (State.MemWf.others h).holdTrap
          · exact h

theorem State.MemWf.tryLanes {s : State} (h : s.MemWf) {t : Target} {lanes : List LaneAcc} : (s.tryLanes t lanes).1.MemWf := by
  unfold Machine.State.tryLanes
  split
  · dsimp only
    exact h
  · exact h.performLanes

theorem State.MemWf.access {s : State} (h : s.MemWf) {x : Issue} {pb : PB} {need : MemNeed} {kind : AccKind} {ld sc : Bool} {size align : Nat}
    {els : List MemEl} {pre : List RegWrite} : (x.access s pb need kind ld sc size align els pre).Form := by
  unfold Machine.Issue.access
  dsimp only
  split
  · exact h
  · split
    · split
      · exact trivial
      · split
        · exact trivial
        · split
          · exact trivial
          · refine .go ?_
            split
            · exact State.MemWf.others (State.MemWf.others h.tryLanes.drawDelay).onRope
            · exact (State.MemWf.others h.tryLanes.drawDelay).onRope.logLeft
    · split
      · exact trivial
      · split
        · exact trivial
        · split
          · exact trivial
          · refine .go ?_
            split
            · exact State.MemWf.others (State.MemWf.others h.tryLanes.drawDelay).onRope
            · exact (State.MemWf.others h.tryLanes.drawDelay).onRope.logLeft

theorem State.MemWf.loadOp {s : State} (h : s.MemWf) {op size : Nat} {signed : Bool} {f : Fields} : KeepsForm (loadOp op size signed f s) := by
  unfold Machine.loadOp
  dsimp only
  refine State.MemWf.issue (fun y u hu => ?_) h
  exact hu.access

theorem State.MemWf.storeOp {s : State} (h : s.MemWf) {op size : Nat} {f : Fields} : KeepsForm (storeOp op size f s) := by
  unfold Machine.storeOp
  dsimp only
  refine State.MemWf.issue (fun y u hu => ?_) h
  exact hu.access

theorem State.MemWf.prefetch {s : State} (h : s.MemWf) {l1 : Bool} {t : Target} {va : Nat} : (s.prefetch l1 t va).MemWf := by
  unfold Machine.State.prefetch
  split
  · next _ _ _ _ _ _ _ _ he _ =>
    split
    · exact (h.xlate.of_snd he).l1Touch
    · exact h.xlate.of_snd he
  · next _ _ _ _ he _ =>
    exact h.xlate.of_snd he

theorem State.MemWf.execPref {s : State} (h : s.MemWf) {f : Fields} : KeepsForm (execPref f s) := by
  unfold Machine.execPref
  dsimp only
  refine State.MemWf.issue (fun y u hu => ?_) h
  split
  · exact trivial
  · refine .go (State.MemWf.foldl (fun u a hu => ?_) hu)
    split
    · exact hu.prefetch
    · exact hu

theorem State.MemWf.execLdt {s : State} (h : s.MemWf) {f : Fields} {pb : PB} : KeepsForm (execLdt f pb s) := by
  unfold Machine.execLdt
  dsimp only
  refine State.MemWf.issue (fun y u hu => ?_) h
  exact hu.access

theorem State.MemWf.execStt {s : State} (h : s.MemWf) {f : Fields} {pb : PB} : KeepsForm (execStt f pb s) := by
  unfold Machine.execStt
  refine State.MemWf.issue (fun y u hu => ?_) h
  exact hu.access

theorem State.MemWf.atomOp {s : State} (h : s.MemWf) {op : Nat} {red : Bool} {a : AtomOp} {f : Fields} : KeepsForm (atomOp op red a f s) := by
  unfold Machine.atomOp
  dsimp only
  refine State.MemWf.issue (fun y u hu => ?_) h
  exact hu.access

theorem State.MemWf.waitvRead {s : State} (h : s.MemWf) {x : Issue} {m : Monitor} {t : Target} {fr : Nat} {bs : List Byte} :
    (x.waitvRead s m t fr bs).Form := by
  unfold Machine.Issue.waitvRead
  dsimp only
  split
  · split
    · exact .go h.observes.fenceAcquires.onRope
    · exact .go h.onRope
  · split
    · exact .go h.observes.fenceAcquires.onRope
    · exact .go h.onRope

theorem State.MemWf.waitvLog {s : State} (h : s.MemWf) {x : Issue} {m : Monitor} {g : HRef} {reason : Nat} : (x.waitvLog s m g reason).Form := by
  unfold Machine.Issue.waitvLog
  exact .go h.onRope.logLeft

theorem State.MemWf.waitvTry {s : State} (h : s.MemWf) {x : Issue} {m : Monitor} {t : Target} : (x.waitvTry s m t).Form := by
  unfold Machine.Issue.waitvTry
  dsimp only
  split
  · exact trivial
  · split
    · split
      · next _ _ _ _ _ _ he =>
        split
        · exact (h.xlate.of_snd he).waitvLog
        · exact (h.xlate.of_snd he).recall.waitvRead
      · next _ _ _ he =>
        exact (h.xlate.of_snd he).waitvLog
      · next _ _ he =>
        exact (h.xlate.of_snd he).waitvLog
    · split
      · exact h.waitvLog
      · exact h.ringOwn.waitvRead

theorem State.MemWf.execWaitv {s : State} (h : s.MemWf) {f : Fields} : KeepsForm (execWaitv f s) := by
  unfold Machine.execWaitv
  dsimp only
  refine State.MemWf.issue (fun y u hu => ?_) h
  split
  · exact hu.waitvTry
  · split
    · exact hu
    · split
      · exact trivial
      · split
        · exact trivial
        · split
          · split
            · exact trivial
            · exact (State.MemWf.others hu).waitvTry
          · split
            · exact trivial
            · exact (State.MemWf.others hu).waitvTry

/-! The SFU and the start of copies. -/

theorem State.MemWf.sfqOp {s : State} (h : s.MemWf) {op : Nat} {f : Fields} : KeepsForm (sfqOp op f s) := by
  unfold Machine.sfqOp
  dsimp only
  refine State.MemWf.issue (fun y u hu => ?_) h
  split
  · exact trivial
  · split
    · exact trivial
    · split
      · exact trivial
      · split
        · exact trivial
        · split
          · next _ _ he =>
            exact hu.mapIn.of_error he
          · next _ _ _ he =>
            exact .go (State.MemWf.others (hu.mapIn.of_ok he).drawDelay.onRope)

theorem State.MemWf.execSfqRd {s : State} (h : s.MemWf) {f : Fields} : KeepsForm (execSfqRd f s) := by
  unfold Machine.execSfqRd
  dsimp only
  refine State.MemWf.issue (fun y u hu => ?_) h
  split
  · exact trivial
  · exact hu
  · split
    · exact trivial
    · split
      · exact trivial
      · exact .go (State.MemWf.others hu.drawDelay).onRope

theorem State.MemWf.execWaitk {s : State} (h : s.MemWf) {f : Fields} : KeepsForm (execWaitk f s) := by
  unfold Machine.execWaitk
  dsimp only
  refine State.MemWf.issue (fun y u hu => ?_) h
  split
  · exact trivial
  · split
    · exact trivial
    · exact .go hu.onRope

/-- The start of a copy program by an instruction. -/
theorem State.MemWf.startsProgram {s : State} (h : s.MemWf) {x : Issue} {start : DWord} {e : Tbl Word} {cmd : Option CpCmd} :
    (x.startCopy s start e cmd).Form := by
  unfold Issue.startCopy
  exact State.MemWf.onRope (State.MemWf.startsCopy (State.MemWf.others h))

theorem State.MemWf.execCprun {s : State} (h : s.MemWf) {f : Fields} : KeepsForm (execCprun f s) := by
  unfold Machine.execCprun
  refine State.MemWf.issue (fun y u hu => ?_) h
  dsimp only
  split
  · exact hu
  · split
    · exact trivial
    · split
      · exact trivial
      · split
        · exact trivial
        · exact hu.startsProgram

theorem State.MemWf.execCpcmd {s : State} (h : s.MemWf) {f : Fields} {pb : PB} : KeepsForm (execCpcmd f pb s) := by
  unfold Machine.execCpcmd
  refine State.MemWf.issue (fun y u hu => ?_) h
  split
  · exact hu
  · split
    · exact trivial
    · split
      · exact trivial
      · exact hu.startsProgram

theorem State.MemWf.execCpq {s : State} (h : s.MemWf) {f : Fields} : KeepsForm (execCpq f s) := by
  unfold Machine.execCpq
  dsimp only
  refine State.MemWf.issue (fun y u hu => ?_) h
  split
  · exact hu
  · split
    · split
      · exact trivial
      · exact hu
    · exact hu

end Sys2Proof.Machine
end

section
/-! PROOFS. The canonical form of the memories (R311): copy words, system instructions and the arithmetic instructions of no mould. -/

namespace Sys2Proof.Machine

/-! The copy contexts and their words. -/

theorem State.MemWf.endCtx {s : State} (h : s.MemWf) {k : Nat} {c : CopyCtx} : (s.endCtx k c).MemWf := by
  unfold Machine.State.endCtx
  exact (State.MemWf.others h).onRope

theorem State.MemWf.copyFault {s : State} (h : s.MemWf) {k : Nat} {cause reason : Nat} {addr : DWord} : (s.copyFault k cause reason addr).MemWf := by
  unfold Machine.State.copyFault
  dsimp only
  split
  · exact h
  · split
    · exact h
    · split
      · split
        · split
          · exact h.endCtx.raiseFault
          · exact h.endCtx
        · exact h.endCtx.holdTrap
      · exact h.endCtx

/-- A copy word whose effect keeps the form keeps it. -/
theorem State.MemWf.copyOp {body : Nat → CopyCtx → State → Option State} (hbody : ∀ k c u, u.MemWf → OptForm (body k c u)) {s : State} (h : s.MemWf) :
    KeepsForm (copyOp body s) := by
  unfold Machine.copyOp
  split
  · exact trivial
  · split
    · exact h
    · next hv =>
      have hs := (hbody _ _ _ h).of_some hv
      exact hs

theorem State.MemWf.copyGo {s : State} (h : s.MemWf) {k : Nat} {c : CopyCtx} {dest : DWord} : (s.copyGo k c dest).MemWf := by
  unfold Machine.State.copyGo
  split
  · exact h
  · exact h.copyFault

theorem State.MemWf.execCopySete {s : State} (h : s.MemWf) {w : CopyWord} : KeepsForm (execCopySete w s) := by
  unfold Machine.execCopySete
  refine State.MemWf.copyOp (fun k c u hu => ?_) h
  exact .some hu.copyGo

theorem State.MemWf.execCopyAdde {s : State} (h : s.MemWf) {w : CopyWord} : KeepsForm (execCopyAdde w s) := by
  unfold Machine.execCopyAdde
  refine State.MemWf.copyOp (fun k c u hu => ?_) h
  exact .some hu.copyGo

theorem State.MemWf.execCopyLoop {s : State} (h : s.MemWf) {w : CopyWord} : KeepsForm (execCopyLoop w s) := by
  unfold Machine.execCopyLoop
  refine State.MemWf.copyOp (fun k c u hu => ?_) h
  split
  · exact .some hu.copyGo
  · exact .some hu.copyGo

theorem State.MemWf.semOp {w : CopyWord} {g : BitVec 16 → Option (BitVec 16)} {sync : State → Agent → Place → State}
    (hsync : ∀ u a p, u.MemWf → (sync u a p).MemWf) {s : State} (h : s.MemWf) : KeepsForm (semOp w g sync s) := by
  unfold Machine.semOp
  refine State.MemWf.copyOp (fun k c u hu => ?_) h
  split
  · exact .some hu.copyFault
  · split
    · exact .some hu.copyFault
    · split
      · exact trivial
      · exact .some (hsync _ _ _ hu.setWg).copyGo

theorem State.MemWf.execCopySems {s : State} (h : s.MemWf) {w : CopyWord} : KeepsForm (execCopySems w s) :=
  State.MemWf.semOp (fun _ _ _ hu => hu.publishes) h

theorem State.MemWf.execCopySemw {s : State} (h : s.MemWf) {w : CopyWord} : KeepsForm (execCopySemw w s) :=
  State.MemWf.semOp (fun _ _ _ hu => hu.observes) h

theorem State.MemWf.execCopyBarr {s : State} (h : s.MemWf) {w : CopyWord} : KeepsForm (execCopyBarr w s) := by
  unfold Machine.execCopyBarr
  exact State.MemWf.copyOp (fun _ _ _ hu => .some hu.copyGo) h

theorem State.MemWf.execCopyDone {s : State} (h : s.MemWf) {w : CopyWord} : KeepsForm (execCopyDone w s) := by
  unfold Machine.execCopyDone
  dsimp only
  refine State.MemWf.copyOp (fun k c u hu => ?_) h
  split
  · exact .some hu.copyFault
  · split
    · exact .some hu.copyFault
    · split
      · exact .some hu.copyFault
      · split
        · exact trivial
        · exact .some hu.writeScratch.publishes.copyGo

theorem State.MemWf.execCopyEnd {s : State} (h : s.MemWf) {w : CopyWord} : KeepsForm (execCopyEnd w s) := by
  unfold Machine.execCopyEnd
  exact State.MemWf.copyOp (fun _ _ _ hu => .some hu.endCtx) h

theorem State.MemWf.touch {s : State} (h : s.MemWf) {t : Target} {addrs : List Nat} : (s.touch t addrs).MemWf := by
  unfold Machine.State.touch
  split
  · refine State.MemWf.foldl (fun u a hu => ?_) h
    exact hu.xlate.recall
  · exact h

theorem State.MemWf.poke {s : State} (h : s.MemWf) {t : Target} {addr : Nat} {b : Byte} : (s.poke t addr b).MemWf := by
  unfold Machine.State.poke
  split
  · split
    · next _ _ _ _ _ _ he =>
      exact (h.xlate.of_snd he).writeAt
    · next _ _ _ _ he =>
      exact h.xlate.of_snd he
  · exact h.writeAt

theorem State.MemWf.moveRefused {s : State} (h : s.MemWf) {args : List CopyArg} : (s.moveRefused args).2.MemWf := by
  unfold Machine.State.moveRefused
  split
  · dsimp only
    exact h.draw
  · dsimp only
    exact h

theorem State.MemWf.moveBytes {s : State} (h : s.MemWf) {c : CopyCtx} {m : Move} {fill : Bool} {value : Word} {hs hd : HRef} :
    (s.moveBytes c m fill value hs hd).2.MemWf := by
  unfold State.moveBytes
  exact State.MemWf.snd_ite h h

theorem State.MemWf.healLines {s : State} (h : s.MemWf) {t : Target} {l : List Nat} : (s.healLines t l).MemWf := by
  unfold Machine.State.healLines
  dsimp only
  split
  · exact h
  · exact h

theorem State.MemWf.poked {s : State} (h : s.MemWf) {t : Target} {l : List Nat} {rmw : Bool} : (s.poked t l rmw).MemWf := by
  unfold Machine.State.poked
  refine State.MemWf.foldl (fun u a hu => ?_) h
  split
  · refine State.MemWf.foldl (fun u a hu => ?_) hu
    split
    · exact hu.released
    · exact hu
  · exact hu.released

theorem State.MemWf.doMove {s : State} (h : s.MemWf) {c : CopyCtx} {hs hd : HRef} {srcs : List Int} {l : List (Nat × Byte)} :
    (s.doMove c hs hd srcs l).MemWf := by
  unfold Machine.State.doMove
  dsimp only
  refine State.MemWf.healLines (State.MemWf.poked (State.MemWf.foldl (fun u a hu => ?_) h.touch))
  exact hu.poke

theorem State.MemWf.partMove {s : State} (h : s.MemWf) {c : CopyCtx} {hd : HRef} {l : List (Nat × Byte)} {srcOk : Bool} :
    (s.partMove c hd l srcOk).MemWf := by
  unfold Machine.State.partMove
  dsimp only
  refine State.MemWf.foldl (fun u a hu => ?_) h
  split
  · refine State.MemWf.healLines (State.MemWf.poked (State.MemWf.foldl (fun u a hu => ?_) hu.draw))
    exact hu.poke
  · exact hu.draw

theorem State.MemWf.moveOp {s : State} (h : s.MemWf) {fill : Bool} {w : CopyWord} {sh : Shape} : KeepsForm (moveOp fill w sh s) := by
  unfold Machine.moveOp
  dsimp only
  refine State.MemWf.copyOp (fun k c u hu => ?_) h
  split
  · exact .some hu.copyFault
  · split
    · exact .some hu.copyFault
    · split
      · exact trivial
      · split
        · exact .some hu.copyFault
        · split
          · next _ _ he =>
            exact .some (hu.moveBytes.moveRefused.of_snd he).partMove.copyFault
          · next _ _ he =>
            exact .some (hu.moveBytes.moveRefused.of_snd he).doMove.copyGo

theorem State.MemWf.codeRead {s : State} (h : s.MemWf) {asid : BitVec 16} {va n : Nat} : (s.codeRead asid va n).MemWf := by
  unfold Machine.State.codeRead
  refine State.MemWf.foldl (fun u a hu => ?_) h
  split
  · exact hu.recallPhys
  · exact hu

theorem State.MemWf.haltMove {s : State} (h : s.MemWf) {c : CopyCtx} : (s.haltMove c).MemWf := by
  unfold State.haltMove
  split
  · exact h
  · dsimp only
    split
    · exact h
    · exact h.moveBytes.partMove

theorem State.MemWf.copyFailed {s : State} (h : s.MemWf) {c : CopyCtx} {va : Nat} : (s.copyFailed c va).MemWf := by
  unfold Machine.State.copyFailed
  dsimp only
  split
  · split
    · exact h.logRefused
    · exact h.walked
  · split
    · exact h
    · split
      · split
        · exact h.failed
        · exact h
      · exact h

theorem State.MemWf.execCopyFault {s : State} (h : s.MemWf) {ctx : Nat} {cause reason : BitVec 8} : KeepsForm (execCopyFault ctx cause reason s) := by
  unfold Machine.execCopyFault
  dsimp only
  split
  · exact h
  · split
    · split
      · refine .next (State.MemWf.others (State.MemWf.copyFault ?_))
        split
        · exact h.copyFailed.haltMove
        · exact h.copyFailed
      · exact h
    · exact h

/-! PACK. -/

theorem State.MemWf.pack {s : State} (h : s.MemWf) {op : Nat} {t : Ty} {f : Fields} : KeepsForm (pack op t f s) := by
  unfold Machine.pack
  dsimp only
  refine State.MemWf.issue (fun y u hu => ?_) h
  split
  · exact trivial
  · split
    · next _ _ he =>
      exact hu.mapIn.of_error he
    · next _ _ _ he =>
      exact (hu.mapIn.of_ok he).writeD

/-! FACC. -/

theorem State.MemWf.facc {s : State} (h : s.MemWf) {op : Nat} {f : Fields} : KeepsForm (facc op f s) := by
  unfold Machine.facc
  dsimp only
  refine State.MemWf.issue (fun y u hu => ?_) h
  split
  · next _ _ he =>
    exact hu.mapStageIn.of_error he
  · next _ _ _ he =>
    split
    · exact hu.mapStageIn.of_ok he
    · exact (hu.mapStageIn.of_ok he).finish

/-! The tests of waiting workgroups. -/

theorem State.MemWf.retest {s : State} (h : s.MemWf) {did : BitVec 16} : (s.retest did).MemWf := by
  unfold Machine.State.retest
  dsimp only
  refine State.MemWf.foldl (fun u a hu => ?_) h
  split
  · exact hu
  · exact hu

theorem State.MemWf.retestAll {s : State} (h : s.MemWf) : (s.retestAll).MemWf := by
  unfold Machine.State.retestAll
  dsimp only
  refine State.MemWf.foldl (fun u a hu => ?_) h
  exact hu.retest

/-! Gates, special registers and the system instructions. -/

theorem State.MemWf.toTarget {s : State} (h : s.MemWf) {x : Issue} {r : Rope} {pc : DWord} {act : Act} (ha : act.Form) :
    (x.toTarget s r pc act).Form := by
  unfold Issue.toTarget
  split
  · exact h.askFetch
  · exact trivial
  · exact trivial
  · exact ha

theorem State.MemWf.execGcall {s : State} (h : s.MemWf) {f : Fields} : KeepsForm (execGcall f s) := by
  unfold Machine.execGcall
  refine State.MemWf.issue (fun y u hu => ?_) h
  dsimp only
  split
  · exact trivial
  · split
    · exact trivial
    · refine hu.toTarget ?_
      split
      · exact trivial
      · exact hu.setRope

theorem State.MemWf.execGret {s : State} (h : s.MemWf) {f : Fields} : KeepsForm (execGret f s) := by
  unfold Machine.execGret
  refine State.MemWf.issue (fun y u hu => ?_) h
  split
  · exact trivial
  · split
    · exact trivial
    · split
      · exact trivial
      · exact hu.toTarget hu.setRope

theorem State.MemWf.execGateBudgetExpiry {s : State} (h : s.MemWf) {k : Nat} : KeepsForm (execGateBudgetExpiry k s) := by
  unfold Machine.execGateBudgetExpiry
  dsimp only
  split
  · exact h
  · split
    · exact h
    · exact .next (State.MemWf.others h.dropFrame.setRope.takeTrap)

theorem State.MemWf.isoMark {s : State} (h : s.MemWf) {x : Issue} : (x.isoMark s).MemWf := by
  unfold Machine.Issue.isoMark
  dsimp only
  split
  · exact h.setCore
  · exact h

theorem State.MemWf.execSread {s : State} (h : s.MemWf) {f : Fields} : KeepsForm (execSread f s) := by
  unfold Machine.execSread
  dsimp only
  refine State.MemWf.issue (fun y u hu => ?_) h
  split
  · exact hu
  · split
    · exact .go hu.isoMark
    · exact .go hu.isoMark
    · exact hu

theorem State.MemWf.execTret {s : State} (h : s.MemWf) {f : Fields} : KeepsForm (execTret f s) := by
  unfold Machine.execTret
  refine State.MemWf.issue (fun y u hu => ?_) h
  exact .go hu.returnFrom

theorem State.MemWf.execTrecRd {s : State} (h : s.MemWf) {f : Fields} : KeepsForm (execTrecRd f s) := by
  unfold Machine.execTrecRd
  refine State.MemWf.issue (fun y u hu => ?_) h
  exact hu

theorem State.MemWf.execTrecWr {s : State} (h : s.MemWf) {f : Fields} : KeepsForm (execTrecWr f s) := by
  unfold Machine.execTrecWr
  refine State.MemWf.issue (fun y u hu => ?_) h
  exact .go hu.onRope

theorem State.MemWf.execSysrd {s : State} (h : s.MemWf) {f : Fields} : KeepsForm (execSysrd f s) := by
  unfold Machine.execSysrd
  refine State.MemWf.issue (fun y u hu => ?_) h
  split
  · exact hu
  · exact hu

theorem State.MemWf.execSyswr {s : State} (h : s.MemWf) {f : Fields} : KeepsForm (execSyswr f s) := by
  unfold Machine.execSyswr
  dsimp only
  refine State.MemWf.issue (fun y u hu => ?_) h
  split
  · exact hu
  · split
    · exact trivial
    · exact .go (State.MemWf.others hu.setCore).retestAll

theorem State.MemWf.sweepL1 {s : State} (h : s.MemWf) {c : Nat} {asid : BitVec 16} {discard : Bool} : (s.sweepL1 c asid discard).MemWf := by
  refine ⟨Memory.wf_foldl (fun m l hm => ?_) s.l2 h.1, h.2.1, h.2.2⟩
  split
  · split
    · exact l.wf_discard c hm
    · exact l.wf_writeBack c hm
  · exact hm

theorem State.MemWf.dropCode {s : State} (h : s.MemWf) {c : Nat} {p : CodeLine → Bool} : (s.dropCode c p).MemWf := h

theorem State.MemWf.execCinv {s : State} (h : s.MemWf) {f : Fields} : KeepsForm (execCinv f s) := by
  unfold Machine.execCinv
  dsimp only
  refine State.MemWf.issue (fun y u hu => ?_) h
  refine .go ?_
  split
  · refine State.MemWf.others ?_
    split
    · split
      · exact hu
      · exact hu.sweepL1
    · refine State.MemWf.dropCode ?_
      split
      · exact hu
      · exact hu.sweepL1
  · split
    · split
      · exact hu
      · exact hu.sweepL1
    · refine State.MemWf.dropCode ?_
      split
      · exact hu
      · exact hu.sweepL1

theorem State.MemWf.haltWg {s : State} (h : s.MemWf) {wg : Nat} : (s.haltWg wg).MemWf := by
  unfold Machine.State.haltWg
  split
  · exact h
  · refine State.MemWf.foldl (fun u a hu => ?_) h.abandonLog
    split
    · exact hu
    · split
      · exact hu
      · exact hu.setRope.endRope

theorem State.MemWf.execHalt {s : State} (h : s.MemWf) {f : Fields} : KeepsForm (execHalt f s) := by
  unfold Machine.execHalt
  dsimp only
  refine State.MemWf.issue (fun y u hu => ?_) h
  exact .go hu.haltWg.onStream

/-! The predicate moves, IDP and the divisions. -/

theorem State.MemWf.execPlop {s : State} (h : s.MemWf) {f : Fields} : KeepsForm (execPlop f s) := by
  unfold Machine.execPlop
  dsimp only
  refine State.MemWf.issue (fun y u hu => ?_) h
  exact hu

theorem State.MemWf.execPrds {s : State} (h : s.MemWf) {f : Fields} : KeepsForm (execPrds f s) := by
  unfold Machine.execPrds
  refine State.MemWf.issue (fun y u hu => ?_) h
  exact hu

theorem State.MemWf.execPwrs {s : State} (h : s.MemWf) {f : Fields} : KeepsForm (execPwrs f s) := by
  unfold Machine.execPwrs
  refine State.MemWf.issue (fun y u hu => ?_) h
  exact hu

theorem State.MemWf.idp {s : State} (h : s.MemWf) {op : Nat} {f : Fields} : KeepsForm (idp op f s) := by
  unfold Machine.idp
  dsimp only
  refine State.MemWf.issue (fun y u hu => ?_) h
  split
  · exact trivial
  · split
    · next _ _ he =>
      exact hu.mapIn.of_error he
    · next _ _ _ he =>
      exact (hu.mapIn.of_ok he).writeD

theorem State.MemWf.divide {s : State} (h : s.MemWf) {op : Nat} {rem : Bool} {f : Fields} : KeepsForm (divide op rem f s) := by
  unfold Machine.divide
  dsimp only
  refine State.MemWf.issue (fun y u hu => ?_) h
  split
  · exact trivial
  · split
    · exact trivial
    · exact hu.writeD

end Sys2Proof.Machine
end

section
/-! PROOFS. The canonical form of the memories (R311): the events of ropes and workgroups. -/

namespace Sys2Proof.Machine

/-! The events of ropes. -/

theorem State.MemWf.done {s : State} (h : s.MemWf) : KeepsForm (done s) := h

theorem State.MemWf.execResultLands {s : State} (h : s.MemWf) {k : Nat} : KeepsForm (execResultLands k s) := by
  unfold Machine.execResultLands
  exact .done h.onRope

theorem State.MemWf.lands {s : State} (h : s.MemWf) {k : Nat} {f : Rope → Nat → Rope × Nat} : (s.lands k f).MemWf := by
  unfold Machine.State.lands
  dsimp only
  split
  · exact State.MemWf.others h.setRope
  · exact h

theorem State.MemWf.execLoadComplete {s : State} (h : s.MemWf) {k : Nat} : KeepsForm (execLoadComplete k s) := by
  unfold Machine.execLoadComplete
  exact .done h.lands

theorem State.MemWf.execStorePerformed {s : State} (h : s.MemWf) {k : Nat} : KeepsForm (execStorePerformed k s) := by
  unfold Machine.execStorePerformed
  exact .done h.onRope

theorem State.MemWf.execSfuResultDelivery {s : State} (h : s.MemWf) {n : Nat} : KeepsForm (execSfuResultDelivery n s) := by
  unfold Machine.execSfuResultDelivery
  dsimp only
  split
  · exact h
  · split
    · exact h
    · exact .done (State.MemWf.others h).onRope

theorem State.MemWf.execSfqRdWrite {s : State} (h : s.MemWf) {k : Nat} : KeepsForm (execSfqRdWrite k s) := by
  unfold Machine.execSfqRdWrite
  exact .done h.lands

theorem State.MemWf.execMapldComplete {s : State} (h : s.MemWf) {k : Nat} {err : Bool} : KeepsForm (execMapldComplete k err s) := by
  unfold Machine.execMapldComplete
  dsimp only
  split
  · exact h
  · split
    · exact h
    · split
      · exact h
      · split
        · exact .done h.setSlot
        · refine .done (State.MemWf.setSlot ?_)
          split
          · exact h.openBytes
          · dsimp only
            exact h

theorem State.MemWf.execRopePhase {s : State} (h : s.MemWf) {k : Nat} : KeepsForm (execRopePhase k s) := by
  unfold Machine.execRopePhase
  exact .done h.onRope

theorem State.MemWf.compact {s : State} (h : s.MemWf) {wg quad : Nat} {a : DWord} {r0 : Rope} : (s.compact wg quad a r0).MemWf := by
  unfold Machine.State.compact
  dsimp only
  refine State.MemWf.foldl (fun u a hu => ?_) ?_
  · split
    · exact hu.setRope.endRope
    · exact hu.setRope.barRetest
  · refine State.MemWf.foldl (fun u a hu => ?_) h
    refine State.MemWf.foldl (fun u a hu => ?_) hu
    split
    · exact hu
    · exact hu.passesOn

theorem State.MemWf.execGatherTimeout {s : State} (h : s.MemWf) {wg quad : Nat} : KeepsForm (execGatherTimeout wg quad s) := by
  unfold Machine.execGatherTimeout
  split
  · exact .done h.compact
  · exact h

theorem State.MemWf.execTrapDelivery {s : State} (h : s.MemWf) {k : Nat} : KeepsForm (execTrapDelivery k s) := by
  unfold Machine.execTrapDelivery
  exact .done h.deliverHeld

theorem State.MemWf.execWaitvWake {s : State} (h : s.MemWf) {k : Nat} : KeepsForm (execWaitvWake k s) := by
  unfold Machine.execWaitvWake
  exact .done h.onRope

theorem State.MemWf.execWaitvPoll {s : State} (h : s.MemWf) {k : Nat} : KeepsForm (execWaitvPoll k s) := by
  unfold Machine.execWaitvPoll
  exact .done h.onRope

theorem State.MemWf.setLog {s : State} (h : s.MemWf) {e : LogEntry} : (s.setLog e).MemWf := h

theorem State.MemWf.dropLog {s : State} (h : s.MemWf) {id : Nat} : (s.dropLog id).MemWf := h

theorem State.MemWf.raiseLog {s : State} (h : s.MemWf) {e : LogEntry} {reason : Nat} {lanes : Word} : (s.raiseLog e reason lanes).MemWf := by
  unfold Machine.State.raiseLog
  split
  · exact h.setLog
  · split
    · split
      · split
        · exact h.raiseFault.dropAccess
        · exact h.dropLog
      · exact h.setLog.holdTrap
    · exact h.dropLog

theorem State.MemWf.lanesFailed {s : State} (h : s.MemWf) {e : LogEntry} {lanes : Word} : (s.lanesFailed e lanes).MemWf := by
  unfold Machine.State.lanesFailed
  dsimp only
  split
  · refine State.MemWf.foldl (fun u a hu => ?_) h
    exact hu.failed
  · exact h

theorem State.MemWf.execMtlbTranslate {s : State} (h : s.MemWf) {id : Nat} : KeepsForm (execMtlbTranslate id s) := by
  unfold Machine.execMtlbTranslate
  split
  · exact h
  · split
    · exact h
    · split
      · exact .done h.setLog
      · exact .done h.raiseLog
      · exact .done h.lanesFailed.setLog

theorem State.MemWf.execFaultResolve {s : State} (h : s.MemWf) {id : Nat} {d : Decision} : KeepsForm (execFaultResolve id d s) := by
  unfold Machine.execFaultResolve
  split
  · exact h
  · split
    · refine .done ?_
      split
      · exact h.dropLog
      · exact h.setLog
    · exact .done h.raiseLog
    · exact h

theorem State.MemWf.execPluginTimeout {s : State} (h : s.MemWf) {id : Nat} : KeepsForm (execPluginTimeout id s) := by
  unfold Machine.execPluginTimeout
  split
  · exact h
  · split
    · split
      · exact .done h.raiseLog
      · exact h
    · exact h

theorem State.MemWf.rewatch {s : State} (h : s.MemWf) {e : LogEntry} : (s.rewatch e).MemWf := by
  unfold Machine.State.rewatch
  dsimp only
  exact h.dropLog.onRope

theorem State.MemWf.fencedDone {s : State} (h : s.MemWf) {e : LogEntry} : (s.fencedDone e).MemWf := by
  unfold Machine.State.fencedDone
  dsimp only
  split
  · refine State.MemWf.foldl (fun u a hu => ?_) ?_
    · split
      · exact hu.fenceReleases
      · exact hu
    · refine State.MemWf.foldl (fun u a hu => ?_) h
      split
      · exact hu.fenceAcquires
      · exact hu
  · exact h

theorem State.MemWf.execReplay {s : State} (h : s.MemWf) {id : Nat} : KeepsForm (execReplay id s) := by
  unfold Machine.execReplay
  dsimp only
  split
  · exact h
  · split
    · exact h
    · split
      · exact .done h.dropLog
      · split
        · split
          · exact .done h.rewatch
          · split
            · refine .done (State.MemWf.dropLog ?_)
              split
              · exact h.performLanes.fencedDone.drawDelay
              · exact h.performLanes.fencedDone.drawDelay.onRope
            · split
              · refine .done (State.MemWf.setLog ?_)
                split
                · exact h.performLanes.fencedDone.drawDelay
                · exact h.performLanes.fencedDone.drawDelay.onRope
              · split
                · refine .done (State.MemWf.raiseLog (State.MemWf.setLog ?_))
                  split
                  · exact h.performLanes.fencedDone.drawDelay
                  · exact h.performLanes.fencedDone.drawDelay.onRope
                · refine .done (State.MemWf.setLog ?_)
                  split
                  · exact h.performLanes.fencedDone.drawDelay
                  · exact h.performLanes.fencedDone.drawDelay.onRope
        · split
          · exact .done h.rewatch
          · split
            · refine .done (State.MemWf.dropLog ?_)
              split
              · exact h.performLanes.fencedDone.drawDelay
              · exact h.performLanes.fencedDone.drawDelay.onRope
            · split
              · refine .done (State.MemWf.setLog ?_)
                split
                · exact h.performLanes.fencedDone.drawDelay
                · exact h.performLanes.fencedDone.drawDelay.onRope
              · split
                · refine .done (State.MemWf.raiseLog (State.MemWf.setLog ?_))
                  split
                  · exact h.performLanes.fencedDone.drawDelay
                  · exact h.performLanes.fencedDone.drawDelay.onRope
                · refine .done (State.MemWf.setLog ?_)
                  split
                  · exact h.performLanes.fencedDone.drawDelay
                  · exact h.performLanes.fencedDone.drawDelay.onRope

theorem State.MemWf.execPriorityBoost {s : State} (h : s.MemWf) {k u : Nat} : KeepsForm (execPriorityBoost k u s) := by
  unfold Machine.execPriorityBoost
  dsimp only
  exact .done h.onRope

theorem State.MemWf.execYieldSkipEnd {s : State} (h : s.MemWf) {k u : Nat} : KeepsForm (execYieldSkipEnd k u s) := by
  unfold Machine.execYieldSkipEnd
  dsimp only
  exact .done h.onRope

/-! Placement, pre-emption, saves, restores, pages and arrays. -/

theorem State.MemWf.addRope {s : State} (h : s.MemWf) {wg r : Nat} : (s.addRope wg r).MemWf := by
  unfold Machine.State.addRope
  dsimp only
  split
  · exact h
  · exact State.MemWf.others h.passesOn.setRope.setWg

theorem State.MemWf.giveSlots {s : State} (h : s.MemWf) {wg quad : Nat} : (s.giveSlots wg quad).MemWf := by
  unfold Machine.State.giveSlots
  dsimp only
  split
  · exact h
  · refine State.MemWf.foldl (fun u a hu => ?_) h
    exact hu.onWg.setSlot

theorem State.MemWf.placeAt {s : State} (h : s.MemWf) {wg c slot : Nat} : (s.placeAt wg c slot).MemWf := by
  unfold Machine.State.placeAt
  dsimp only
  split
  · exact h
  · refine State.MemWf.foldl (fun u a hu => ?_) ?_
    · exact hu.addRope
    · refine State.MemWf.foldl (fun u a hu => ?_) h.setWg
      exact hu.giveSlots

theorem State.MemWf.served {s : State} (h : s.MemWf) {w : Workgroup} {c : Nat} : (s.served w c).MemWf := by
  unfold Machine.State.served
  dsimp only
  exact h

theorem State.MemWf.execWorkgroupPlace {s : State} (h : s.MemWf) {wg : Nat} : KeepsForm (execWorkgroupPlace wg s) := by
  unfold Machine.execWorkgroupPlace
  split
  · exact h
  · split
    · exact h
    · split
      · exact h
      · split
        · exact h
        · exact .done h.placeAt.served

theorem State.MemWf.execWgPriorityAging {s : State} (h : s.MemWf) {wg : Nat} : KeepsForm (execWgPriorityAging wg s) := by
  unfold Machine.execWgPriorityAging
  dsimp only
  split
  · exact h
  · split
    · split
      · exact h
      · exact .done h.setWg
    · split
      · exact h
      · exact .done h.setWg

theorem State.MemWf.stripWg {s : State} (h : s.MemWf) {wg : Nat} {w : Workgroup} : (s.stripWg wg w).MemWf := by
  unfold Machine.State.stripWg
  dsimp only
  exact State.MemWf.others h.freeSlots.abandonLog

theorem State.MemWf.discardWg {s : State} (h : s.MemWf) {wg : Nat} : (s.discardWg wg).MemWf := by
  unfold Machine.State.discardWg
  dsimp only
  split
  · exact h
  · exact (State.MemWf.others h.stripWg).setWg

theorem State.MemWf.toImage {s : State} (h : s.MemWf) {wg : Nat} : (s.toImage wg).MemWf := by
  unfold Machine.State.toImage
  dsimp only
  split
  · exact h
  · exact h.freeSlots.setWg

theorem State.MemWf.settlePreempts {s : State} (h : s.MemWf) : (s.settlePreempts).MemWf := by
  unfold Machine.State.settlePreempts
  dsimp only
  exact h

theorem State.MemWf.saveRope {s : State} (h : s.MemWf) {k : Nat} {r : Rope} {w : Workgroup} {forced : Bool} : (s.saveRope k r w forced).MemWf := by
  unfold Machine.State.saveRope
  dsimp only
  refine State.MemWf.settlePreempts ?_
  split
  · split
    · exact h.setRope.setWg.toImage
    · exact h.setRope.setWg
  · exact h.setRope.setWg

theorem State.MemWf.execRopeSave {s : State} (h : s.MemWf) {k : Nat} : KeepsForm (execRopeSave k s) := by
  unfold Machine.execRopeSave
  split
  · exact h
  · split
    · exact h
    · split
      · exact .done h.saveRope
      · exact h

theorem State.MemWf.execForcedSave {s : State} (h : s.MemWf) {k : Nat} : KeepsForm (execForcedSave k s) := by
  unfold Machine.execForcedSave
  split
  · exact h
  · split
    · exact h
    · split
      · exact .done h.saveRope
      · exact h

theorem State.MemWf.vacate {s : State} (h : s.MemWf) {wg : Nat} {did : BitVec 16} {force : Bool} : (s.vacate wg did force).MemWf := by
  unfold Machine.State.vacate
  split
  · exact h
  · split
    · exact h
    · split
      · exact h.discardWg
      · exact h.setWg

theorem State.MemWf.execPreemptRequest {s : State} (h : s.MemWf) {did : BitVec 16} {cores : List Nat} : KeepsForm (execPreemptRequest did cores s) := by
  unfold Machine.execPreemptRequest
  dsimp only
  refine .done (State.MemWf.retest (State.MemWf.settlePreempts (State.MemWf.others (State.MemWf.foldl (fun u a hu => ?_) h.setDomain))))
  split
  · exact hu
  · split
    · exact hu.vacate
    · split
      · exact hu.vacate
      · exact hu

theorem State.MemWf.execCoreMaskAdd {s : State} (h : s.MemWf) {did : BitVec 16} {cores : List Nat} : KeepsForm (execCoreMaskAdd did cores s) := by
  unfold Machine.execCoreMaskAdd
  dsimp only
  exact .done h.setDomain.retest

theorem State.MemWf.reseat {s : State} (h : s.MemWf) {k : Nat} {c slot : Nat} {before : List Nat} : (s.reseat k c slot before).MemWf := by
  unfold Machine.State.reseat
  dsimp only
  split
  · exact h
  · exact h.setRope

theorem State.MemWf.restoreAt {s : State} (h : s.MemWf) {wg c slot : Nat} : (s.restoreAt wg c slot).MemWf := by
  unfold Machine.State.restoreAt
  dsimp only
  split
  · exact h
  · split
    · refine State.MemWf.foldl (fun u a hu => ?_) ?_
      · exact hu.giveSlots
      · refine State.MemWf.onWg (State.MemWf.others (State.MemWf.foldl (fun u a hu => ?_) h.setWg))
        exact hu.reseat
    · refine State.MemWf.foldl (fun u a hu => ?_) ?_
      · split
        · exact hu.setSlot
        · exact hu
      · refine State.MemWf.foldl (fun u a hu => ?_) ?_
        · exact hu.giveSlots
        · refine State.MemWf.onWg (State.MemWf.others (State.MemWf.foldl (fun u a hu => ?_) h.setWg))
          exact hu.reseat

theorem State.MemWf.execWorkgroupRestore {s : State} (h : s.MemWf) {wg core : Nat} : KeepsForm (execWorkgroupRestore wg core s) := by
  unfold Machine.execWorkgroupRestore
  split
  · exact h
  · split
    · exact h
    · split
      · exact h
      · exact .done h.restoreAt.served

theorem State.MemWf.execImageEvent {s : State} (h : s.MemWf) {wg : Nat} {e : ImageEv} : KeepsForm (execImageEvent wg e s) := by
  unfold Machine.execImageEvent
  dsimp only
  split
  · exact h
  · split
    · exact h
    · split
      · split
        · exact .done h.endCtx
        · exact h
      · exact .done h.setWg
      · split
        · exact h
        · exact .done h.setWg
      · split
        · exact .done h.writeScratch.clobbers
        · exact h
      · split
        · exact .done h.holdTrap
        · exact h
      · split
        · exact .done h.onRope
        · exact h

theorem State.MemWf.pin {s : State} (h : s.MemWf) {wg page : Nat} : (s.pin wg page).MemWf := by
  unfold Machine.State.pin
  dsimp only
  exact State.MemWf.others h.onWg

theorem State.MemWf.execPagePin {s : State} (h : s.MemWf) {wg page : Nat} : KeepsForm (execPagePin wg page s) := by
  unfold Machine.execPagePin
  dsimp only
  split
  · exact h
  · split
    · exact h
    · split
      · exact .done h.pin
      · split
        · exact .done h.setWg.pin
        · exact h

theorem State.MemWf.execL2Eviction {s : State} (h : s.MemWf) {asid : BitVec 16} {line : Nat} : KeepsForm (execL2Eviction asid line s) := by
  unfold Machine.execL2Eviction
  refine .done (State.MemWf.foldl (fun u a hu => ?_) h)
  exact hu.evictLine

theorem State.MemWf.execScrChange {s : State} (h : s.MemWf) {core scr : Nat} : KeepsForm (execScrChange core scr s) := by
  unfold Machine.execScrChange
  dsimp only
  split
  · exact h
  · exact .done (State.MemWf.others h.l1Leave.setCore).retestAll

theorem State.MemWf.mapint {s : State} (h : s.MemWf) {wg : Nat} : (s.mapint wg).MemWf := by
  unfold Machine.State.mapint
  split
  · exact h
  · exact h.onStream

theorem State.MemWf.testArray {s : State} (h : s.MemWf) {k : Nat} {bad : BitVec 4} : (s.testArray k bad).MemWf := by
  unfold Machine.State.testArray
  dsimp only
  exact h

theorem State.MemWf.selfTest {s : State} (h : s.MemWf) {k : Nat} : (s.selfTest k).MemWf := by
  unfold Machine.State.selfTest
  dsimp only
  split
  · refine State.MemWf.others (State.MemWf.testArray ?_)
    split
    · refine State.MemWf.foldl (fun u a hu => ?_) h
      exact hu.logBox
    · refine State.MemWf.foldl (fun u a hu => ?_) ?_
      · exact hu.logBox
      · refine State.MemWf.foldl (fun u a hu => ?_) h
        exact hu.logBox
  · refine State.MemWf.retestAll (State.MemWf.others (State.MemWf.testArray ?_))
    split
    · refine State.MemWf.foldl (fun u a hu => ?_) ?_
      · exact hu.logBox
      · refine State.MemWf.foldl (fun u a hu => ?_) h
        exact hu.mapint
    · refine State.MemWf.foldl (fun u a hu => ?_) ?_
      · exact hu.logBox
      · refine State.MemWf.foldl (fun u a hu => ?_) ?_
        · exact hu.logBox
        · refine State.MemWf.foldl (fun u a hu => ?_) h
          exact hu.mapint

theorem State.MemWf.execMapSelfTest {s : State} (h : s.MemWf) {core quad arr : Nat} {bad : BitVec 4} : KeepsForm (execMapSelfTest core quad arr bad s) := by
  unfold Machine.execMapSelfTest
  dsimp only
  split
  · exact .done (State.MemWf.others h).setCore.selfTest
  · exact h

theorem State.MemWf.execNativeSwitch {s : State} (h : s.MemWf) {k : Nat} : KeepsForm (execNativeSwitch k s) := by
  unfold Machine.execNativeSwitch
  exact .done h.onRope

end Sys2Proof.Machine
end

section
/-! PROOFS. The canonical form of the memories (R311): tasks. -/

namespace Sys2Proof.Machine

/-! The task opcodes at decode. -/

theorem State.MemWf.openRange {s : State} (h : s.MemWf) {did asid : BitVec 16} {va n : Nat} : (s.openRange did asid va n).MemWf := by
  unfold State.openRange
  refine State.MemWf.foldl (fun u a hu => ?_) ?_
  · split
    · exact hu.writePhys
    · exact hu
  · exact h

theorem State.MemWf.decodeFault {s : State} (h : s.MemWf) {key idx n top : Nat} {cls reason loc : Nat} :
    (s.decodeFault key idx n top cls reason loc).MemWf := by
  unfold Machine.State.decodeFault
  dsimp only
  exact State.MemWf.others h.onStream

theorem State.MemWf.fatal {s : State} (h : s.MemWf) {t : Stream} : (s.fatal t).MemWf := by
  unfold Machine.State.fatal
  exact h.fatalFor

/-- A decode that goes on with the form kept. -/
def DcForm : DRes Dc → Prop
  | .ok d => d.s.MemWf
  | .error _ => True

/-- A use of an operand that goes on with the form kept. -/
def UseForm : DRes (Dc × BitVec 12) → Prop
  | .ok p => p.1.s.MemWf
  | .error _ => True

theorem DcForm.of_ok {r : DRes Dc} {d : Dc} (h : DcForm r) (he : r = .ok d) : d.s.MemWf := by
  subst he
  exact h

theorem UseForm.ok {d : Dc} (h : d.s.MemWf) {i : BitVec 12} : UseForm (.ok (d, i)) := h

theorem UseForm.of_ok {r : DRes (Dc × BitVec 12)} {p : Dc × BitVec 12} (h : UseForm r) (he : r = .ok p) : p.1.s.MemWf := by
  subst he
  exact h

theorem DcForm.bind {α : Type} {r : DRes α} {f : α → DRes Dc} (hf : ∀ a, r = .ok a → DcForm (f a)) : DcForm (r >>= f) := by
  cases r with
  | ok a => exact hf a rfl
  | error e => exact trivial

theorem UseForm.bind {α : Type} {r : DRes α} {f : α → DRes (Dc × BitVec 12)} (hf : ∀ a, r = .ok a → UseForm (f a)) : UseForm (r >>= f) := by
  cases r with
  | ok a => exact hf a rfl
  | error e => exact trivial

/-- A task word whose decode keeps the form keeps it. -/
theorem State.MemWf.taskOp {top : Nat} {body : TaskWord → Dc → DRes Dc} (hbody : ∀ w d, d.s.MemWf → DcForm (body w d)) {w : TaskWord}
    {s : State} (h : s.MemWf) : KeepsForm (taskOp top body w s) := by
  unfold Machine.taskOp
  split
  · exact trivial
  · dsimp only
    split
    · next hd =>
      have hs := (hbody _ _ (show State.MemWf _ from h)).of_ok hd
      exact hs
    · exact h
    · exact h.fatal
    · exact State.MemWf.others h.sysTouch.decodeFault
    · exact State.MemWf.others h.decodeFault

theorem UseForm.alloc {d : Dc} (h : d.s.MemWf) {c : Nat} : UseForm (d.alloc c) := by
  unfold Dc.alloc
  dsimp only
  split
  · split
    · exact trivial
    · exact trivial
  · split
    · exact trivial
    · split
      · exact trivial
      · exact UseForm.ok (State.MemWf.setDomain h.sysTouch)

theorem UseForm.useLb {d : Dc} (h : d.s.MemWf) {lb : Nat} {m : LbMode} {loc : Nat} : UseForm (d.useLb lb m loc) := by
  unfold Dc.useLb
  split
  · refine UseForm.bind (fun p hp => ?_)
    have h1 := (UseForm.alloc h).of_ok hp
    exact UseForm.ok (State.MemWf.openRange h1)
  · split
    · exact trivial
    · exact h

theorem DcForm.bindSlots {t : TaskWord} {l : List (Word × Nat)} {d : Dc} (h : d.s.MemWf) : DcForm (Dc.bind t l d) := by
  induction l generalizing d with
  | nil => exact h
  | cons b l ih =>
    unfold Dc.bind
    dsimp only
    split
    · exact ih h
    · exact DcForm.bind (fun p hp => ih ((UseForm.useLb h).of_ok hp))
    · exact DcForm.bind (fun p hp => ih ((UseForm.useLb h).of_ok hp))
    · exact DcForm.bind (fun p hp => ih ((UseForm.useLb h).of_ok hp))
    · exact ih h

theorem DcForm.launch {pro : Bool} {t : TaskWord} {d : Dc} (h : d.s.MemWf) : DcForm (Dc.launch pro t d) := by
  unfold Dc.launch
  refine DcForm.bind fun _ _ => DcForm.bind fun _ _ => DcForm.bind fun _ _ => DcForm.bind fun _ _ => DcForm.bind fun _ _ =>
    DcForm.bind fun _ _ => DcForm.bind fun _ _ => DcForm.bind fun d1 hd => ?_
  have h1 : d1.s.MemWf := by
    refine DcForm.of_ok (DcForm.bindSlots ?_) hd
    exact h
  dsimp only
  split
  · exact trivial
  · exact h1.sysTouch

theorem UseForm.operand {t : TaskWord} {fill src : Bool} {w : Word} {d : Dc} (h : d.s.MemWf) : UseForm (Dc.operand t fill src w d) := by
  unfold Dc.operand
  split
  · exact UseForm.useLb h
  · exact h

theorem DcForm.copyTask {fill : Bool} {t : TaskWord} {d : Dc} (h : d.s.MemWf) : DcForm (Dc.copyTask fill t d) := by
  unfold Dc.copyTask
  refine DcForm.bind fun _ _ => ?_
  dsimp only
  split
  · refine DcForm.bind fun p hp => DcForm.bind fun q hq => ?_
    exact (UseForm.operand (UseForm.of_ok (UseForm.ok h) hp)).of_ok hq
  · refine DcForm.bind fun p hp => DcForm.bind fun q hq => ?_
    exact (UseForm.operand ((UseForm.operand h).of_ok hp)).of_ok hq

theorem State.MemWf.execTnop {s : State} (h : s.MemWf) {w : TaskWord} : KeepsForm (execTnop w s) := by
  unfold Machine.execTnop
  refine State.MemWf.taskOp (fun t d hd => DcForm.bind fun _ _ => ?_) h
  exact hd

theorem State.MemWf.execTrun {s : State} (h : s.MemWf) {w : TaskWord} : KeepsForm (execTrun w s) := by
  unfold Machine.execTrun
  exact State.MemWf.taskOp (fun _ _ hd => DcForm.launch hd) h

theorem State.MemWf.execTrunp {s : State} (h : s.MemWf) {w : TaskWord} : KeepsForm (execTrunp w s) := by
  unfold Machine.execTrunp
  exact State.MemWf.taskOp (fun _ _ hd => DcForm.launch hd) h

theorem State.MemWf.execTcopy {s : State} (h : s.MemWf) {w : TaskWord} : KeepsForm (execTcopy w s) := by
  unfold Machine.execTcopy
  exact State.MemWf.taskOp (fun _ _ hd => DcForm.copyTask hd) h

theorem State.MemWf.execTfill {s : State} (h : s.MemWf) {w : TaskWord} : KeepsForm (execTfill w s) := by
  unfold Machine.execTfill
  exact State.MemWf.taskOp (fun _ _ hd => DcForm.copyTask hd) h

theorem State.MemWf.execTbind {s : State} (h : s.MemWf) {w : TaskWord} : KeepsForm (execTbind w s) := by
  unfold Machine.execTbind
  refine State.MemWf.taskOp (fun t d hd => DcForm.bind fun _ _ => DcForm.bind fun _ _ => ?_) h
  exact hd

theorem State.MemWf.execTexport {s : State} (h : s.MemWf) {w : TaskWord} : KeepsForm (execTexport w s) := by
  unfold Machine.execTexport
  refine State.MemWf.taskOp (fun t d hd => DcForm.bind fun _ _ => DcForm.bind fun _ _ => DcForm.bind fun p hp => ?_) h
  dsimp only
  split
  · exact trivial
  · exact (UseForm.useLb hd).of_ok hp

theorem State.MemWf.execTfree {s : State} (h : s.MemWf) {w : TaskWord} : KeepsForm (execTfree w s) := by
  unfold Machine.execTfree
  refine State.MemWf.taskOp (fun t d hd => DcForm.bind fun _ _ => ?_) h
  exact hd

theorem State.MemWf.execTsig {s : State} (h : s.MemWf) {w : TaskWord} : KeepsForm (execTsig w s) := by
  unfold Machine.execTsig
  refine State.MemWf.taskOp (fun t d hd => DcForm.bind fun _ _ => DcForm.bind fun _ _ => ?_) h
  dsimp only
  split
  · refine DcForm.bind fun _ _ => ?_
    exact hd
  · refine DcForm.bind fun _ _ => ?_
    exact hd

theorem State.MemWf.execTwait {s : State} (h : s.MemWf) {w : TaskWord} : KeepsForm (execTwait w s) := by
  unfold Machine.execTwait
  refine State.MemWf.taskOp (fun t d hd => DcForm.bind fun _ _ => DcForm.bind fun _ _ => ?_) h
  exact hd

theorem State.MemWf.execTfence {s : State} (h : s.MemWf) {w : TaskWord} : KeepsForm (execTfence w s) := by
  unfold Machine.execTfence
  refine State.MemWf.taskOp (fun t d hd => DcForm.bind fun _ _ => ?_) h
  split
  · exact trivial
  · exact hd

theorem State.MemWf.execTinval {s : State} (h : s.MemWf) {w : TaskWord} : KeepsForm (execTinval w s) := by
  unfold Machine.execTinval
  refine State.MemWf.taskOp (fun t d hd => DcForm.bind fun _ _ => ?_) h
  exact hd

theorem State.MemWf.execTgate {s : State} (h : s.MemWf) {w : TaskWord} : KeepsForm (execTgate w s) := by
  unfold Machine.execTgate
  refine State.MemWf.taskOp (fun t d hd => DcForm.bind fun _ _ => ?_) h
  exact hd

theorem State.MemWf.execTend {s : State} (h : s.MemWf) {w : TaskWord} : KeepsForm (execTend w s) := by
  unfold Machine.execTend
  refine State.MemWf.taskOp (fun t d hd => DcForm.bind fun _ _ => ?_) h
  exact hd

/-! The events of streams and tasks. -/

theorem State.MemWf.onTask {s : State} (h : s.MemWf) {key idx : Nat} {f : Task → Task} : (s.onTask key idx f).MemWf := by
  unfold Machine.State.onTask
  exact h.onStream

theorem State.MemWf.complete {s : State} (h : s.MemWf) {key idx : Nat} : (s.complete key idx).MemWf := by
  unfold Machine.State.complete
  exact h.onStream

theorem State.MemWf.taskFault {s : State} (h : s.MemWf) {key idx cls reason loc : Nat} : (s.taskFault key idx cls reason loc).MemWf := h

theorem State.MemWf.kicked {s : State} (h : s.MemWf) {key v : Nat} : (s.kicked key v).MemWf := by
  unfold Machine.State.kicked
  exact h.kick.wake

theorem State.MemWf.execKick {s : State} (h : s.MemWf) {key : Nat} {v : DWord} : KeepsForm (execKick key v s) := by
  unfold Machine.execKick
  exact .done h.kicked

theorem State.MemWf.execDecodeRecheck {s : State} (h : s.MemWf) {key : Nat} : KeepsForm (execDecodeRecheck key s) := by
  unfold Machine.execDecodeRecheck
  dsimp only
  split
  · exact h
  · split
    · exact h
    · split
      · exact .done h.fatal
      · split
        · refine .done (State.MemWf.foldl (fun u a hu => ?_) h)
          exact hu.sysTouch
        · split
          · refine .next (State.MemWf.others (State.MemWf.setStream (State.MemWf.foldl (fun u a hu => ?_) h)))
            exact hu.sysTouch
          · refine .done (State.MemWf.others (State.MemWf.setStream (State.MemWf.foldl (fun u a hu => ?_) h)))
            exact hu.sysTouch

theorem State.MemWf.addGrid {s : State} (h : s.MemWf) {key : Nat} {t : Stream} {k : Task} : (s.addGrid key t k).MemWf := by
  unfold Machine.State.addGrid
  dsimp only
  refine State.MemWf.foldl (fun u a hu => ?_) (State.MemWf.others h)
  exact State.MemWf.others hu.setWg

theorem State.MemWf.startPro {s : State} (h : s.MemWf) {key : Nat} {t : Stream} {k : Task} : (s.startPro key t k).MemWf := by
  unfold Machine.State.startPro
  dsimp only
  exact State.MemWf.others h.passesOn.setWg.setRope.setCore

theorem State.MemWf.startCopy {s : State} (h : s.MemWf) {key : Nat} {t : Stream} {k : Task} {cmd : Option CpCmd} {own : Option (Nat × Word × Shape)} :
    (s.startCopy key t k cmd own).MemWf := by
  unfold Machine.State.startCopy
  dsimp only
  exact h

theorem State.MemWf.putBytes {s : State} (h : s.MemWf) {t : Target} {addr : Nat} {bs : List Byte} {rmw : Bool} : (s.putBytes t addr bs rmw).MemWf := by
  unfold Machine.State.putBytes
  refine State.MemWf.poked (State.MemWf.foldl (fun u a hu => ?_) h)
  exact hu.poke

theorem State.MemWf.sigFails {s : State} (h : s.MemWf) {t : Target} {kind : AccKind} {addr n : Nat} : (s.sigFails t kind addr n).MemWf := by
  unfold Machine.State.sigFails
  split
  · exact h.failed
  · exact h

theorem State.MemWf.sigTakes {s : State} (h : s.MemWf) {t : Target} {addr n : Nat} : (s.sigTakes t addr n).2.MemWf := by
  unfold Machine.State.sigTakes
  split
  · dsimp only
    exact h
  · exact h.linkTakes

theorem State.MemWf.sigRecorded {s : State} (h : s.MemWf) {key : Nat} {t : Stream} {k : Task} {tr : Target} {value : Nat} {rec_ : List Region} :
    (s.sigRecorded key t k tr value rec_).2.MemWf := by
  unfold Machine.State.sigRecorded
  split
  · dsimp only
    exact h
  · split
    · next _ _ he =>
      dsimp only
      exact (h.sigTakes.of_snd he).putBytes
    · next _ _ he =>
      dsimp only
      exact (h.sigTakes.of_snd he).taskFault

theorem State.MemWf.sigWord {s : State} (h : s.MemWf) {key : Nat} {k : Task} {tw : Target} {base new : Nat} {add : Bool} :
    (s.sigWord key k tw base new add).MemWf := by
  unfold Machine.State.sigWord
  split
  · next _ _ he =>
    exact (h.sigTakes.of_snd he).putBytes.complete
  · next _ _ he =>
    exact (h.sigTakes.of_snd he).taskFault

theorem State.MemWf.signal {s : State} (h : s.MemWf) {key : Nat} {t : Stream} {k : Task} : (s.signal key t k).MemWf := by
  unfold Machine.State.signal
  dsimp only
  split
  · exact h
  · split
    · split
      · exact h.sigFails.sigFails
      · exact h.sigFails
    · split
      · exact h.fatal
      · split
        · next _ _ he =>
          exact (h.sigRecorded.of_snd he).sigWord
        · next _ _ he =>
          exact h.sigRecorded.of_snd he

theorem State.MemWf.delegate {s : State} (h : s.MemWf) {t : Stream} {w : TaskWord} : OptForm (s.delegate t w) := by
  unfold State.delegate
  dsimp only
  split
  · exact trivial
  · split
    · show State.MemWf (if _ then _ else _)
      split
      · exact h
      · exact h
    · split
      · split
        · split
          · exact h
          · exact trivial
        · exact trivial
      · split
        · exact trivial
        · exact h

theorem State.MemWf.inval {s : State} (h : s.MemWf) {asid : BitVec 16} {w : TaskWord} : (s.inval asid w).MemWf := by
  unfold Machine.State.inval
  dsimp only
  refine State.MemWf.others (State.MemWf.foldl (fun u a hu => ?_) h)
  exact hu.evictLine

theorem State.MemWf.markIssued {s : State} (h : s.MemWf) {key idx : Nat} {prio : Nat} : (s.markIssued key idx prio).MemWf := by
  unfold Machine.State.markIssued
  exact h.onTask

theorem State.MemWf.issueTask {s : State} (h : s.MemWf) {key : Nat} {t : Stream} {k : Task} : (s.issueTask key t k).MemWf := by
  unfold State.issueTask
  dsimp only
  split
  · split
    · exact h.markIssued.complete
    · split
      · exact h.markIssued.taskFault
      · exact h.markIssued.addGrid
  · split
    · exact h.markIssued.complete
    · split
      · exact h.markIssued.taskFault
      · split
        · exact h.markIssued.addGrid
        · exact h.markIssued.startPro
  · exact h.markIssued.startCopy
  · exact h.markIssued.startCopy
  · exact h.markIssued.startCopy
  · exact h.markIssued.signal
  · exact h.markIssued
  · exact h.markIssued
  · exact h.markIssued.inval.complete
  · split
    · next hv => exact (h.markIssued.delegate.of_some hv).complete
    · exact h.markIssued.taskFault
  · exact h.markIssued.complete

theorem State.MemWf.execTaskIssue {s : State} (h : s.MemWf) {key idx : Nat} : KeepsForm (execTaskIssue key idx s) := by
  unfold Machine.execTaskIssue
  split
  · exact h
  · split
    · exact h
    · split
      · exact .done h.issueTask
      · split
        · exact .done h.signal
        · exact h

theorem State.MemWf.dropPro {s : State} (h : s.MemWf) {wg : Nat} {w : Workgroup} : (s.dropPro wg w).MemWf := by
  unfold Machine.State.dropPro
  dsimp only
  exact State.MemWf.others h.killWg

theorem State.MemWf.verdict {s : State} (h : s.MemWf) {wg : Nat} : (s.verdict wg).MemWf := by
  unfold Machine.State.verdict
  dsimp only
  split
  · exact h
  · split
    · split
      · exact h.dropPro.onTask.taskFault
      · split
        · exact h.dropPro.onTask
        · split
          · exact h.dropPro.onTask
          · split
            · exact h.dropPro.onTask.taskFault
            · exact h.dropPro.onTask.addGrid
    · exact h

theorem State.MemWf.clearGrid {s : State} (h : s.MemWf) {key idx : Nat} : (s.clearGrid key idx).MemWf := by
  unfold Machine.State.clearGrid
  dsimp only
  refine State.MemWf.foldl (fun u a hu => ?_) h
  exact hu.killWg

theorem State.MemWf.execPrologueRepeat {s : State} (h : s.MemWf) {key idx : Nat} : KeepsForm (execPrologueRepeat key idx s) := by
  unfold Machine.execPrologueRepeat
  dsimp only
  split
  · exact h
  · split
    · exact h
    · split
      · exact h
      · split
        · exact .done h.clearGrid.taskFault
        · exact .done h.clearGrid.onTask.startPro

theorem State.MemWf.execTaskComplete {s : State} (h : s.MemWf) {key idx : Nat} : KeepsForm (execTaskComplete key idx s) := by
  unfold Machine.execTaskComplete
  dsimp only
  split
  · exact h
  · split
    · exact h
    · split
      · exact h
      · split
        · exact .done (State.MemWf.others h.clearGrid.complete)
        · exact .done h.clearGrid.complete

theorem State.MemWf.pushFree {s : State} (h : s.MemWf) {hub : Nat} {did : BitVec 16} {r : Nat × BitVec 12} : (s.pushFree hub did r).MemWf := by
  unfold Machine.State.pushFree
  dsimp only
  split
  · exact h
  · exact h.setDomain.sysWrite

theorem State.MemWf.pushAll {s : State} (h : s.MemWf) {hub : Nat} {did : BitVec 16} {l : List (Nat × BitVec 12)} : (s.pushAll hub did l).MemWf := by
  unfold Machine.State.pushAll
  refine State.MemWf.foldl (fun u a hu => ?_) h
  exact hu.pushFree

theorem State.MemWf.execTaskRetire {s : State} (h : s.MemWf) {key : Nat} : KeepsForm (execTaskRetire key s) := by
  unfold Machine.execTaskRetire
  dsimp only
  split
  · exact h
  · split
    · exact h
    · split
      · exact h
      · exact .done h.setStream.pushAll.wakeCtrl

theorem State.MemWf.acquired {s : State} (h : s.MemWf) {t : Target} {addr : Nat} : (s.acquired t addr).MemWf := by
  unfold Machine.State.acquired
  split
  · exact h.reads
  · exact h.reads

theorem State.MemWf.twaitRead {s : State} (h : s.MemWf) {key : Nat} {t : Stream} {k : Task} : (s.twaitRead key t k).MemWf := by
  unfold Machine.State.twaitRead
  dsimp only
  split
  · exact h
  · split
    · exact h.onTask.failed
    · split
      · next _ _ he =>
        exact (h.onTask.sigTakes.of_snd he).taskFault
      · next _ _ he =>
        split
        · exact (h.onTask.sigTakes.of_snd he).fatal
        · split
          · exact (h.onTask.sigTakes.of_snd he).touch.acquired.complete
          · exact (h.onTask.sigTakes.of_snd he).touch

theorem State.MemWf.twaitStep {s : State} (h : s.MemWf) {key idx : Nat} {f : Stream → Task → State} (hf : ∀ t k, (f t k).MemWf) :
    KeepsForm (twaitStep key idx f s) := by
  unfold Machine.twaitStep
  split
  · exact h
  · split
    · exact h
    · split
      · exact hf _ _
      · exact h

theorem State.MemWf.execTwaitSatisfied {s : State} (h : s.MemWf) {key idx : Nat} : KeepsForm (execTwaitSatisfied key idx s) :=
  h.twaitStep (fun _ _ => h.twaitRead)

theorem State.MemWf.execTwaitPoll {s : State} (h : s.MemWf) {key idx : Nat} : KeepsForm (execTwaitPoll key idx s) :=
  h.twaitStep (fun _ _ => h.twaitRead)

theorem State.MemWf.execTwaitLimit {s : State} (h : s.MemWf) {key idx : Nat} : KeepsForm (execTwaitLimit key idx s) := by
  refine h.twaitStep (fun t k => ?_)
  split
  · exact h.taskFault
  · exact h

theorem State.MemWf.execTaskBudgetExpiry {s : State} (h : s.MemWf) {key idx : Nat} : KeepsForm (execTaskBudgetExpiry key idx s) := by
  unfold Machine.execTaskBudgetExpiry
  split
  · exact h
  · split
    · exact h
    · split
      · exact .done h.taskFault
      · exact h

theorem State.MemWf.haltCtx {s : State} (h : s.MemWf) {id : Nat} {c : CopyCtx} : (s.haltCtx id c).MemWf := by
  unfold Machine.State.haltCtx
  dsimp only
  exact State.MemWf.others h.haltMove

theorem State.MemWf.haltFrom {s : State} (h : s.MemWf) {key idx : Nat} {hi : Option Nat} : (s.haltFrom key idx hi).MemWf := by
  unfold Machine.State.haltFrom
  dsimp only
  refine State.MemWf.foldl (fun u a hu => ?_) ?_
  · exact hu.haltCtx
  · refine State.MemWf.foldl (fun u a hu => ?_) h
    split
    · exact hu.dropPro
    · exact hu.killWg

theorem State.MemWf.recordFault {s : State} (h : s.MemWf) {t : Stream} {ws : List Word} {key : Nat} : (s.recordFault t ws key).MemWf := by
  have hrec : (s.putRecord t ws key).MemWf := by
    unfold State.putRecord
    split
    · exact h
    · exact h.sysStore (fun _ _ hu => hu.publishes)
  rw [State.recordFault_eq]
  unfold State.signalRecord
  split
  · exact hrec
  · split
    · exact hrec.fatal
    · exact hrec.sysStore (fun _ _ hu => hu.publishes)

theorem State.MemWf.dropFaults {s : State} (h : s.MemWf) {key idx : Nat} : (s.dropFaults key idx).MemWf := h

theorem State.MemWf.discard {s : State} (h : s.MemWf) {key : Nat} {t : Stream} {q : FaultReq} : (s.discard key t q).MemWf := by
  unfold Machine.State.discard
  dsimp only
  split
  · exact h.setStream.pushAll.dropFaults.recordFault.wakeCtrl.fctl
  · exact h.setStream.pushAll.dropFaults.recordFault.wakeCtrl

theorem State.MemWf.execTaskFault {s : State} (h : s.MemWf) {key idx : Nat} {f : TaskFault} : KeepsForm (execTaskFault key idx f s) := by
  unfold Machine.execTaskFault
  dsimp only
  split
  · exact h
  · split
    · exact h
    · split
      · exact .done (State.MemWf.others h.setStream).wakeCtrl
      · split
        · split
          · exact .done (State.MemWf.others h.setStream).haltFrom.wakeCtrl
          · exact .done (State.MemWf.others h.setStream).haltFrom.discard
        · split
          · exact .done (State.MemWf.others h.setStream).haltFrom.wakeCtrl
          · exact .done (State.MemWf.others h.setStream).haltFrom.discard

theorem State.MemWf.execFctl {s : State} (h : s.MemWf) {key : Nat} {v : Word} : KeepsForm (execFctl key v s) := by
  unfold Machine.execFctl
  split
  · exact h
  · exact .done h.fctl

theorem State.MemWf.execMapintRetry {s : State} (h : s.MemWf) {key idx : Nat} : KeepsForm (execMapintRetry key idx s) := by
  unfold Machine.execMapintRetry
  dsimp only
  split
  · exact h
  · split
    · exact h
    · split
      · exact h
      · split
        · exact .done h.taskFault
        · split
          · exact .done h.taskFault
          · split
            · exact .done h.haltFrom.onTask.taskFault
            · refine .done ?_
              split
              · exact h.haltFrom.onTask.startPro
              · exact h.haltFrom.onTask.addGrid

theorem State.MemWf.writeOpen {s : State} (h : s.MemWf) {t : Stream} {va : DWord} {n : Nat} : (s.writeOpen t va n).MemWf :=
  (State.MemWf.sysWrite (s := (s.openBytes t.did (s.sysRead t.hub (s.domain t.did).asid va.toNat n) n).2) h)

theorem State.MemWf.unmap {s : State} (h : s.MemWf) {key : Nat} {displaced : Bool} : (s.unmap key displaced).MemWf := by
  unfold Machine.State.unmap
  dsimp only
  split
  · exact h
  · exact h.setStream.writeOpen.writeOpen

theorem State.MemWf.mapTo {s : State} (h : s.MemWf) {key slot : Nat} : (s.mapTo key slot).MemWf := by
  unfold Machine.State.mapTo
  dsimp only
  exact h.onStream

theorem State.MemWf.enliven {s : State} (h : s.MemWf) {p : Nat} : (s.enliven p).MemWf := by
  unfold Machine.State.enliven
  split
  · exact h
  · exact h

theorem State.MemWf.takeSlot {s : State} (h : s.MemWf) {key : Nat} {t : Stream} {j : Nat} {displaced : Bool} : (s.takeSlot key t j displaced).MemWf := by
  unfold Machine.State.takeSlot
  dsimp only
  refine State.MemWf.enliven (State.MemWf.wakeCtrl (State.MemWf.mapTo ?_))
  split
  · exact h.unmap
  · exact h

theorem State.MemWf.execStreamMap {s : State} (h : s.MemWf) {key : Nat} : KeepsForm (execStreamMap key s) := by
  unfold Machine.execStreamMap
  dsimp only
  split
  · exact h
  · split
    · exact .done (State.MemWf.others h.setStream)
    · split
      · exact h
      · split
        · exact .done h.takeSlot
        · exact .done h.takeSlot
        · exact h

theorem State.MemWf.execStreamPriorityAging {s : State} (h : s.MemWf) {key : Nat} : KeepsForm (execStreamPriorityAging key s) := by
  unfold Machine.execStreamPriorityAging
  dsimp only
  split
  · exact h
  · split
    · exact .done h.setStream
    · exact h

theorem State.MemWf.execStreamStop {s : State} (h : s.MemWf) {key : Nat} : KeepsForm (execStreamStop key s) := by
  unfold Machine.execStreamStop
  exact .done h.onStream.wakeCtrl

end Sys2Proof.Machine
end

section
/-! PROOFS. The canonical form of the memories (R311): the events of the package. -/

namespace Sys2Proof.Machine

/-! Tables, calendars, registers, resets, SPDM, the host and errors. -/

theorem State.MemWf.execHandleUpdate {s : State} (h : s.MemWf) {did : BitVec 16} {idx : BitVec 12} {e : BitVec 256} :
    KeepsForm (execHandleUpdate did idx e s) := by
  unfold Machine.execHandleUpdate
  dsimp only
  exact .done h.setDomain

theorem State.MemWf.execGateTableUpdate {s : State} (h : s.MemWf) {did : BitVec 16} {g : BitVec 8} {e : BitVec 512} :
    KeepsForm (execGateTableUpdate did g e s) := by
  unfold Machine.execGateTableUpdate
  dsimp only
  exact .done (State.MemWf.others h.setDomain)

theorem State.MemWf.unscrub {s : State} (h : s.MemWf) {frame : Nat} : (s.unscrub frame).MemWf :=
  h.withMem (Memory.wf_dropRange h.1 _ _)

theorem State.MemWf.freeFrame {s : State} (h : s.MemWf) {frame : Nat} : (s.freeFrame frame).MemWf := h

theorem State.MemWf.release {s : State} (h : s.MemWf) {page : Nat} : (s.release page).MemWf := by
  unfold Machine.State.release
  dsimp only
  split
  · exact h
  · exact (State.MemWf.others h).freeFrame.unscrub

theorem State.MemWf.flushFrame {s : State} (h : s.MemWf) {frame : Nat} : (s.flushFrame frame).MemWf := by
  unfold Machine.State.flushFrame
  refine State.MemWf.foldl (fun u a hu => ?_) h
  exact hu.evictLine

theorem Memory.wf_copyFrame {m : Tbl Byte} (h : Memory.wf m = true) (src dst : Nat) : Memory.wf (copyFrame m src dst) = true :=
  Memory.wf_foldl (fun _ _ hm => Memory.wf_wrByte hm _ _) _ (Memory.wf_dropRange h _ _)

/-- What becomes of the old entry of a page and of its frame (R309). -/
def State.leavesPage (s : State) (page : Nat) (old e : Option S2Entry) (move : Bool) : State :=
  match old, e, move with
  | some o, some n, true =>
    let u := { s.flushFrame o.frame with stage2 := terase s.stage2 page, tlb := s.tlb.filter (fun t => t.ipa != page) }.freeFrame o.frame
    if n.frame = o.frame then u else ({ u with mem := copyFrame u.mem o.frame n.frame } : State).unscrub o.frame
  | _, _, _ => s.release page

theorem State.MemWf.leavesPage {s : State} (h : s.MemWf) {page : Nat} {old e : Option S2Entry} {move : Bool} : (s.leavesPage page old e move).MemWf := by
  unfold State.leavesPage
  split
  · dsimp only
    split
    · exact h.flushFrame
    · exact State.MemWf.unscrub (State.MemWf.withMem h.flushFrame (Memory.wf_copyFrame h.flushFrame.1 _ _))
  · exact h.release

theorem State.MemWf.execStage2Change {s : State} (h : s.MemWf) {page : Nat} {e : Option S2Entry} {move : Bool} :
    KeepsForm (execStage2Change page e move s) := by
  have hleaves : (s.leavesPage page (tget s.stage2 page) e move).MemWf := h.leavesPage
  unfold Machine.execStage2Change
  extract_lets old bad s1
  split
  · exact h
  · split
    · exact hleaves
    · exact hleaves

theorem State.MemWf.execScrubComplete {s : State} (h : s.MemWf) {frame : Nat} : KeepsForm (execScrubComplete frame s) := by
  unfold Machine.execScrubComplete
  refine .done ?_
  split
  · exact h
  · exact h

theorem State.MemWf.sweep {s : State} (h : s.MemWf) {asid : BitVec 16} : (s.sweep asid).MemWf := by
  unfold Machine.State.sweep
  dsimp only
  exact h

theorem State.MemWf.execRetireSweep {s : State} (h : s.MemWf) {asid : BitVec 16} : KeepsForm (execRetireSweep asid s) := by
  unfold Machine.execRetireSweep
  refine .done ?_
  split
  · exact h.sweep
  · exact h

theorem State.MemWf.beginSlot {s : State} (h : s.MemWf) {p n : Nat} {c : Calendar} : (s.beginSlot p n c).MemWf := by
  unfold Machine.State.beginSlot
  exact h.setCal

theorem State.MemWf.dropWg {s : State} (h : s.MemWf) {k : Nat} {w : Workgroup} : (s.dropWg k w).MemWf := by
  unfold Machine.State.dropWg
  split
  · exact h.dropPro
  · exact h.stripWg.setWg

theorem State.MemWf.revoke {s : State} (h : s.MemWf) {did : BitVec 16} : (s.revoke did).MemWf := by
  unfold Machine.State.revoke
  dsimp only
  refine State.MemWf.logBox (State.MemWf.others (State.MemWf.foldl (fun u a hu => ?_) ?_))
  · exact hu.release
  · refine State.MemWf.foldl (fun u a hu => ?_) (State.MemWf.others h)
    split
    · exact hu.discardWg
    · exact hu.dropWg

theorem State.MemWf.measure {s : State} (h : s.MemWf) {idx : Nat} {did : BitVec 16} {v : BitVec 256} : (s.measure idx did v).MemWf := by
  unfold Machine.State.measure
  dsimp only
  split
  · exact h
  · refine State.MemWf.foldl (fun u a hu => ?_) (State.MemWf.others h)
    exact hu.revoke

theorem State.MemWf.remeasure {s : State} (h : s.MemWf) : (s.remeasure).MemWf := by
  unfold Machine.State.remeasure
  exact h.measure

theorem State.MemWf.calWrite {s : State} (h : s.MemWf) {p : Nat} {r : SysReg} {v : Word} : (s.calWrite p r v).MemWf := by
  unfold Machine.State.calWrite
  dsimp only
  exact h.setCal

theorem State.MemWf.execCalCtl {s : State} (h : s.MemWf) {p : Nat} {v : Word} : KeepsForm (execCalCtl p v s) := by
  unfold Machine.execCalCtl
  split
  · exact .done h.calWrite
  · exact h

theorem State.MemWf.execCalendarPeriodStart {s : State} (h : s.MemWf) {p : Nat} : KeepsForm (execCalendarPeriodStart p s) := by
  unfold Machine.execCalendarPeriodStart
  dsimp only
  split
  · exact h
  · exact .done h.beginSlot.remeasure

theorem State.MemWf.execCalendarSlotBoundary {s : State} (h : s.MemWf) {p slot : Nat} : KeepsForm (execCalendarSlotBoundary p slot s) := by
  unfold Machine.execCalendarSlotBoundary
  dsimp only
  split
  · exact .done h.beginSlot
  · exact h

theorem State.MemWf.execRegisterWrite {s : State} (h : s.MemWf) {r : SysReg} {v : Word} : KeepsForm (execRegisterWrite r v s) := by
  unfold Machine.execRegisterWrite
  split
  · exact h
  · split
    · exact .done h.calWrite
    · exact .done h.calWrite
    · split
      · exact .done (State.MemWf.others h).remeasure.retestAll
      · exact h

theorem State.MemWf.resetCore {s : State} (h : s.MemWf) {c : Nat} : (s.resetCore c).MemWf := by
  unfold Machine.State.resetCore
  exact h.setCore

theorem State.MemWf.dropLines {s : State} (h : s.MemWf) {p : L2Line → Bool} : (s.dropLines p).MemWf :=
  h.withMem (State.wf_undirty h _)

theorem State.MemWf.resetCores {s : State} (h : s.MemWf) {cs : List Nat} : (s.resetCores cs).MemWf := by
  unfold State.resetCores
  refine State.MemWf.foldl (fun u c hu => hu.resetCore) ?_
  exact h.withMem (State.wf_undirty h _)

theorem State.MemWf.clearDomains {s : State} (h : s.MemWf) {p : BitVec 16 → Bool} : (s.clearDomains p).MemWf := by
  unfold Machine.State.clearDomains
  dsimp only
  refine State.MemWf.dropLines (State.MemWf.others (State.MemWf.foldl (fun u a hu => ?_) h))
  split
  · exact hu.dropPro
  · exact hu.killWg

theorem State.MemWf.keepFrames {s : State} (h : s.MemWf) {keep : Nat → Bool} : (s.keepFrames keep).MemWf :=
  h.withMem (Memory.wf_filter h.1 _)

theorem State.MemWf.resetPart {s : State} (h : s.MemWf) {p : Nat} : (s.resetPart p).MemWf := by
  unfold Machine.State.resetPart
  dsimp only
  refine State.MemWf.others (State.MemWf.foldl (fun u a hu => ?_) ?_)
  · exact hu.sweep
  · refine State.MemWf.keepFrames (State.MemWf.foldl (fun u a hu => ?_) h.clearDomains.resetCores)
    exact hu.release

theorem State.MemWf.execPartitionReset {s : State} (h : s.MemWf) {p : Nat} : KeepsForm (execPartitionReset p s) := by
  unfold Machine.execPartitionReset
  exact .done h.resetPart

theorem State.MemWf.execColdReset {s : State} (h : s.MemWf) : KeepsForm (execColdReset s) := ⟨Memory.wf_nil, h.2.1, h.2.2⟩

theorem State.MemWf.warm {s : State} (h : s.MemWf) : (s.warm).MemWf := by
  unfold Machine.State.warm
  dsimp only
  refine State.MemWf.others (State.MemWf.foldl (fun u a hu => ?_) ?_)
  · exact hu.sweep
  · refine State.MemWf.keepFrames (State.MemWf.foldl (fun u a hu => ?_) h.clearDomains.dropLines)
    exact hu.release

theorem State.MemWf.execWarmReset {s : State} (h : s.MemWf) : KeepsForm (execWarmReset s) := by
  unfold Machine.execWarmReset
  exact .done h.warm

theorem State.MemWf.execDieOffline {s : State} (h : s.MemWf) {die : Nat} : KeepsForm (execDieOffline die s) := by
  unfold Machine.execDieOffline
  dsimp only
  refine .done (State.MemWf.retestAll (State.MemWf.others (State.MemWf.foldl (fun u a hu => ?_) h)))
  exact hu.resetPart

theorem State.MemWf.execDieReturn {s : State} (h : s.MemWf) {die : Nat} : KeepsForm (execDieReturn die s) := by
  unfold Machine.execDieReturn
  dsimp only
  exact .done (State.MemWf.others h.resetCores).retestAll

theorem State.MemWf.spdmReply {s : State} (h : s.MemWf) {hub : Nat} {p : Spdm} {msg : String} {data : List (BitVec 256)} :
    (s.spdmReply hub p msg data).MemWf := h

theorem State.MemWf.spdmStep {s : State} (h : s.MemWf) {hub : Nat} {ok : Bool} {p : Spdm} {msg : String} {data : List (BitVec 256)} :
    (s.spdmStep hub ok p msg data).MemWf := by
  unfold Machine.State.spdmStep
  split
  · exact h.spdmReply
  · exact h.spdmReply

theorem State.MemWf.execGetVersion {s : State} (h : s.MemWf) {hub : Nat} : KeepsForm (execGetVersion hub s) := by
  unfold Machine.execGetVersion
  exact .done h.spdmStep

theorem State.MemWf.execGetCapabilities {s : State} (h : s.MemWf) {hub : Nat} : KeepsForm (execGetCapabilities hub s) := by
  unfold Machine.execGetCapabilities
  dsimp only
  exact .done h.spdmStep

theorem State.MemWf.execNegotiateAlgorithms {s : State} (h : s.MemWf) {hub : Nat} {a : Algorithms} : KeepsForm (execNegotiateAlgorithms hub a s) := by
  unfold Machine.execNegotiateAlgorithms
  dsimp only
  exact .done h.spdmStep

theorem State.MemWf.execGetDigests {s : State} (h : s.MemWf) {hub : Nat} : KeepsForm (execGetDigests hub s) := by
  unfold Machine.execGetDigests
  dsimp only
  exact .done h.spdmStep

theorem State.MemWf.execGetCertificate {s : State} (h : s.MemWf) {hub slot : Nat} : KeepsForm (execGetCertificate hub slot s) := by
  unfold Machine.execGetCertificate
  dsimp only
  exact .done h.spdmStep

theorem State.MemWf.execChallenge {s : State} (h : s.MemWf) {hub : Nat} {nonce : BitVec 256} : KeepsForm (execChallenge hub nonce s) := by
  unfold Machine.execChallenge
  dsimp only
  exact .done h.spdmStep

theorem State.MemWf.execGetMeasurements {s : State} (h : s.MemWf) {hub idx : Nat} {did : BitVec 16} : KeepsForm (execGetMeasurements hub idx did s) := by
  unfold Machine.execGetMeasurements
  dsimp only
  exact .done h.spdmStep

theorem State.MemWf.execKeyExchange {s : State} (h : s.MemWf) {hub : Nat} {mutualAuth : Bool} : KeepsForm (execKeyExchange hub mutualAuth s) := by
  unfold Machine.execKeyExchange
  dsimp only
  exact .done h.spdmStep

theorem State.MemWf.execFinish {s : State} (h : s.MemWf) {hub : Nat} : KeepsForm (execFinish hub s) := by
  unfold Machine.execFinish
  dsimp only
  exact .done h.spdmStep

theorem State.MemWf.execEndSession {s : State} (h : s.MemWf) {hub : Nat} : KeepsForm (execEndSession hub s) := by
  unfold Machine.execEndSession
  dsimp only
  exact .done h.spdmStep

theorem State.MemWf.takeDigests {s : State} (h : s.MemWf) {did : BitVec 16} : (s.takeDigests did).MemWf := h

theorem State.MemWf.execKeyset {s : State} (h : s.MemWf) {hub : Nat} {r : KeySetReq} : KeepsForm (execKeyset hub r s) := by
  unfold Machine.execKeyset
  dsimp only
  split
  · exact .done h.spdmReply
  · refine .done ?_
    split
    · exact State.MemWf.others (State.MemWf.others h).takeDigests
    · exact h

theorem State.MemWf.execKeydel {s : State} (h : s.MemWf) {hub idx : Nat} {did : BitVec 16} : KeepsForm (execKeydel hub idx did s) := by
  unfold Machine.execKeydel
  dsimp only
  split
  · exact .done h.spdmReply
  · refine .done ?_
    split
    · exact h
    · exact h

theorem State.MemWf.execMeasurementChange {s : State} (h : s.MemWf) {idx : Nat} {did : BitVec 16} {digest : BitVec 256} :
    KeepsForm (execMeasurementChange idx did digest s) := by
  unfold Machine.execMeasurementChange
  dsimp only
  exact .done (State.MemWf.others h.measure)

theorem State.MemWf.execSchedulerReplace {s : State} (h : s.MemWf) {digest : BitVec 256} : KeepsForm (execSchedulerReplace digest s) := by
  unfold Machine.execSchedulerReplace
  exact .done h.measure

theorem State.MemWf.execDoorbellKick {s : State} (h : s.MemWf) {vf : Doorbell} {off : BitVec 15} {size : Nat} {v : Option DWord} :
    KeepsForm (execDoorbellKick vf off size v s) := by
  unfold Machine.execDoorbellKick
  dsimp only
  split
  · exact h
  · split
    · exact h
    · split
      · exact .done h.kicked
      · exact .done h.logBox

theorem State.MemWf.healRange {s : State} (h : s.MemWf) {asid : BitVec 16} {va n : Nat} : (s.healRange asid va n).MemWf := by
  unfold Machine.State.healRange
  dsimp only
  exact h

theorem State.MemWf.execHostWrite {s : State} (h : s.MemWf) {sp : HostSpace} {addr : DWord} {bytes : List Byte} : KeepsForm (execHostWrite sp addr bytes s) := by
  unfold Machine.execHostWrite
  split
  · exact ⟨h.1, Memory.wf_wrBytes h.2.1 _ _, h.2.2⟩
  · exact .done (State.MemWf.healRange h.sysWrite)

theorem State.MemWf.execTdispRequest {s : State} (h : s.MemWf) {did : BitVec 16} {r : TdispReq} : KeepsForm (execTdispRequest did r s) := by
  unfold Machine.execTdispRequest
  dsimp only
  split
  · exact .done h.setDomain
  · exact .done h.setDomain
  · exact .done h.setDomain
  · exact h

theorem State.MemWf.execTdiError {s : State} (h : s.MemWf) {did : BitVec 16} : KeepsForm (execTdiError did s) := by
  unfold Machine.execTdiError
  dsimp only
  refine .done (State.MemWf.foldl (fun u a hu => ?_) h.setDomain)
  exact hu.raiseLog

theorem State.MemWf.execIdeKm {s : State} (h : s.MemWf) {hub stream : Nat} {key : BitVec 256} : KeepsForm (execIdeKm hub stream key s) := by
  unfold Machine.execIdeKm
  dsimp only
  split
  · exact h
  · exact .done h.spdmReply

theorem State.MemWf.rstDrop {s : State} (h : s.MemWf) {did : BitVec 16} {i : Nat} : (s.rstDrop did i).MemWf := by
  unfold Machine.State.rstDrop
  dsimp only
  exact h.setDomain

theorem State.MemWf.launch {s : State} (h : s.MemWf) {hub key : Nat} {t : Stream} {v n : Nat} {es : List (BitVec 256)} :
    (s.launch hub key t v n es).MemWf := by
  unfold Machine.State.launch
  dsimp only
  refine State.MemWf.kicked (State.MemWf.foldl (fun u a hu => ?_) h.setStream.wake)
  exact hu.sysWrite

theorem State.MemWf.packet {s : State} (h : s.MemWf) {port : Nat} {sci : DWord} {p : LaunchPkt} : (s.packet port sci p).MemWf := by
  unfold Machine.State.packet
  dsimp only
  split
  · exact h.logBox
  · split
    · exact h.logBox
    · split
      · exact h.rstDrop
      · split
        · split
          · split
            · exact h.rstDrop
            · split
              · exact h.rstDrop
              · split
                · exact h.rstDrop
                · exact h.setDomain.launch
          · split
            · exact h.rstDrop
            · split
              · exact h.rstDrop
              · split
                · exact h.rstDrop
                · exact h.setDomain.launch
        · split
          · exact h.rstDrop
          · split
            · exact h.rstDrop
            · split
              · exact h.rstDrop
              · exact h.setDomain.launch

theorem State.MemWf.execLaunchPacket {s : State} (h : s.MemWf) {port : Nat} {sci : DWord} {p : LaunchPkt} : KeepsForm (execLaunchPacket port sci p s) := by
  unfold Machine.execLaunchPacket
  exact .done h.packet

theorem State.MemWf.execEthernetFrame {s : State} (h : s.MemWf) {port : Nat} {macsecOk : Bool} {f : EthFrame} :
    KeepsForm (execEthernetFrame port macsecOk f s) := by
  unfold Machine.execEthernetFrame
  split
  · refine .done ?_
    split
    · exact h.packet
    · exact h
  · exact h

theorem State.MemWf.execCorrectableError {s : State} (h : s.MemWf) {w : ErrWhere} : KeepsForm (execCorrectableError w s) := by
  unfold Machine.execCorrectableError
  dsimp only
  exact .done (State.MemWf.others h).logBox

theorem State.MemWf.fatalAt {s : State} (h : s.MemWf) {p : Nat} {shared : Bool} {cls : Nat} {w : ErrWhere} : (s.fatalAt p shared cls w).MemWf := by
  unfold Machine.State.fatalAt
  dsimp only
  split
  · exact (State.MemWf.others h.logBox).warm
  · exact (State.MemWf.others h.logBox).resetPart

theorem State.MemWf.execFatalError {s : State} (h : s.MemWf) {p : Nat} {shared : Bool} {w : ErrWhere} : KeepsForm (execFatalError p shared w s) := by
  unfold Machine.execFatalError
  exact .done h.fatalAt

theorem State.MemWf.execUncorrectableError {s : State} (h : s.MemWf) {l : ErrLoc} {w : ErrWhere} : KeepsForm (execUncorrectableError l w s) := by
  unfold Machine.execUncorrectableError
  dsimp only
  split
  · split
    · exact .done h.logBox
    · refine .done ?_
      split
      · exact h.logBox.mapint.dropPro
      · exact h.logBox.mapint.killWg
  · refine .done ?_
    split
    · exact h.logBox.setSlot
    · exact h.logBox
  · split
    · exact .done (State.MemWf.others h.logBox)
    · exact .done h.logBox
  · exact .done h.logBox.fatalAt

theorem State.MemWf.execBlackBoxRead {s : State} (h : s.MemWf) {hub idx : Nat} : KeepsForm (execBlackBoxRead hub idx s) := h

theorem State.MemWf.execThermalTrip {s : State} (h : s.MemWf) {w : ErrWhere} : KeepsForm (execThermalTrip w s) := by
  unfold Machine.execThermalTrip
  exact .done h.fatalAt

theorem State.MemWf.execMapDutyUpdate {s : State} (h : s.MemWf) {d : DutySet} : KeepsForm (execMapDutyUpdate d s) := by
  unfold Machine.execMapDutyUpdate
  split
  · exact h
  · exact h

end Sys2Proof.Machine
end

section
/-! PROOFS. The canonical form of the memories (R311): code loading and fetch. -/

namespace Sys2Proof.Machine

/-! Code loading. -/

theorem State.MemWf.addPage {s : State} (h : s.MemWf) {x : Bool} {key : BitVec 12} : (s.addPage x key).2.MemWf := by
  unfold Machine.State.addPage
  dsimp only
  exact State.MemWf.others h.unscrub

theorem State.MemWf.putIpa {s : State} (h : s.MemWf) {ipa : Nat} {bs : List Byte} : (s.putIpa ipa bs).MemWf := by
  unfold State.putIpa
  split
  · dsimp only
    exact h.recallPhys.withMem (Memory.wf_wrBytes h.recallPhys.1 _ _)
  · exact h

theorem State.MemWf.mapFrom {s : State} (h : s.MemWf) {va leaf : Nat} {key : BitVec 12} {n lvl table : Nat} : (s.mapFrom va leaf key n lvl table).MemWf := by
  induction n generalizing s lvl table with
  | zero => exact h
  | succ n ih =>
    unfold State.mapFrom
    dsimp only
    split
    · exact h.putIpa
    · split
      · split
        · exact ih h
        · exact ih h.addPage.putIpa
      · exact h

theorem State.MemWf.placePage {s : State} (h : s.MemWf) {asid : BitVec 16} {va : Nat} {x : Bool} {key : BitVec 12} {bs : List Byte} :
    (s.placePage asid va x key bs).2.MemWf := by
  unfold Machine.State.placePage
  dsimp only
  split
  · exact h.addPage.putIpa.mapFrom
  · exact (State.MemWf.others h.addPage.putIpa.addPage).mapFrom

theorem State.MemWf.placeSection {s : State} (h : s.MemWf) {asid : BitVec 16} {key : Option (BitVec 12)} {f : List Byte} {d : Dzo} :
    (s.placeSection asid key f d).2.MemWf := by
  unfold State.placeSection
  split
  · exact h
  · exact State.MemWf.gathers (β := List Nat) (fun a i ha => ha.placePage) h

theorem State.MemWf.placeAll {s : State} (h : s.MemWf) {asid : BitVec 16} {key : Option (BitVec 12)} {f : List Byte} :
    (s.placeAll asid key f).2.MemWf :=
  State.MemWf.gathers (β := List Section) (fun a d ha => ha.placeSection) h

theorem State.MemWf.execDzoLoad {s : State} (h : s.MemWf) {did : BitVec 16} {f : List Byte} : KeepsForm (execDzoLoad did f s) := by
  unfold Machine.execDzoLoad
  dsimp only
  split
  · exact h
  · exact .done (State.MemWf.others (State.MemWf.others h).placeAll.setDomain)

theorem State.MemWf.unmapFrom {s : State} (h : s.MemWf) {va n lvl table : Nat} : (s.unmapFrom va n lvl table).MemWf := by
  induction n generalizing s lvl table with
  | zero => exact h
  | succ n ih =>
    unfold State.unmapFrom
    dsimp only
    split
    · exact h.putIpa
    · split
      · split
        · exact ih h
        · exact h
      · exact h

theorem State.MemWf.unplace {s : State} (h : s.MemWf) {asid : BitVec 16} {va page : Nat} : (s.unplace asid va page).MemWf := by
  unfold Machine.State.unplace
  dsimp only
  refine State.MemWf.release ?_
  split
  · exact h
  · split
    · split
      · exact h.unmapFrom
      · exact h
    · exact h

theorem State.MemWf.execDzoUnload {s : State} (h : s.MemWf) {image : Nat} : KeepsForm (execDzoUnload image s) := by
  unfold Machine.execDzoUnload
  dsimp only
  split
  · exact h
  · split
    · exact h
    · refine .done (State.MemWf.others (State.MemWf.foldl (fun u a hu => ?_) h))
      exact hu.unplace

theorem State.MemWf.execChoarnifTranslation {s : State} (h : s.MemWf) {image : Nat} {ok : Bool} : KeepsForm (execChoarnifTranslation image ok s) := by
  unfold Machine.execChoarnifTranslation
  split
  · exact h
  · refine .done ?_
    split
    · exact h
    · exact h

/-! Fetch and what is due. -/

theorem State.MemWf.fetchRaise {s : State} (h : s.MemWf) {k u : Nat} {r : Rope} {q : TrapReq} : (s.fetchRaise k u r q).MemWf := by
  unfold Machine.State.fetchRaise
  dsimp only
  exact State.MemWf.others h.spend.setRope.takeTrap

theorem State.MemWf.codeRoom {s : State} (h : s.MemWf) {sel : CodeLine → Bool} {cap : Nat} {f : CodeLine → Option CodeLine} :
    (s.codeRoom sel cap f).MemWf := by
  unfold Machine.State.codeRoom
  dsimp only
  split
  · exact h
  · split
    · exact State.MemWf.others h.draw
    · exact h.draw

theorem State.MemWf.putCode {s : State} (h : s.MemWf) {l : CodeLine} : (s.putCode l).MemWf := h

theorem State.MemWf.takeCode {s : State} (h : s.MemWf) {r : Rope} {line : Nat} : (s.takeCode r line).MemWf := by
  unfold Machine.State.takeCode
  dsimp only
  split
  · split
    · exact h
    · refine State.MemWf.putCode (State.MemWf.codeRoom ?_)
      split
      · exact h
      · exact h.codeRoom
  · split
    · next _ _ _ _ _ _ he =>
      refine State.MemWf.putCode (State.MemWf.codeRoom ?_)
      split
      · exact (h.xlate.of_snd he).recallPhys.codeRoom
      · exact (h.xlate.of_snd he).recallPhys.codeRoom.codeRoom
    · exact h

theorem State.MemWf.fetchFill {s : State} (h : s.MemWf) {u : Nat} {r : Rope} : (s.fetchFill u r).MemWf := by
  unfold Machine.State.fetchFill
  dsimp only
  split
  · exact h.codeRead
  · split
    · exact h.takeCode
    · exact h.takeCode.takeCode

theorem State.MemWf.take {s : State} (h : s.MemWf) {i : Instr} : (s.take i).MemWf := h

theorem State.MemWf.endWg {s : State} (h : s.MemWf) {k : Nat} {w : Workgroup} : (s.endWg k w).MemWf := by
  unfold Machine.State.endWg
  dsimp only
  split
  · refine State.MemWf.others (State.MemWf.foldl (fun u a hu => ?_) h.freeSlots)
    exact hu.passesOn
  · refine State.MemWf.others (State.MemWf.setWg (State.MemWf.foldl (fun u a hu => ?_) h.freeSlots))
    exact hu.passesOn

theorem State.MemWf.enterSlot {s : State} (h : s.MemWf) {c : Nat} : (s.enterSlot c).MemWf := by
  unfold Machine.State.enterSlot
  dsimp only
  split
  · exact h
  · split
    · split
      · exact h
      · exact h.setCal
    · split
      · exact h
      · exact h.setCal

theorem State.MemWf.selfTests {s : State} (h : s.MemWf) {c cls : Nat} : (s.selfTests c cls).MemWf := by
  unfold Machine.State.selfTests
  split
  · refine State.MemWf.foldl (fun u a hu => ?_) h
    exact hu.selfTest
  · exact h

end Sys2Proof.Machine
end

section
/-! PROOFS. Every instruction and every event keeps the memories' form (R311). -/

namespace Sys2Proof.Machine

/-- Every instruction keeps the memories' form. -/
theorem State.MemWf.exec {s : State} (h : s.MemWf) (i : Instr) : KeepsForm (exec i s) := by
  cases i with
  | iaddS32 | iaddN32 | isubS32 | isubN32 | iaddS64 | iaddN64 | isubS64 | isubN64 | iaddS16 | iaddN16 | isubS16 | isubN16 | iaddS8 | iaddN8
  | isubS8 | isubN8 | iminS32 | iminN32 | imaxS32 | imaxN32 | andB | orB | xorB | andnB | shlN32 | shrN32 | shrS32 | rolN32 | shlN64 | shrN64
  | shrS64 | leaN32 | leaN64 | imulS32 | imulN32 | imulhS32 | imulhN32 | imulS16 | imulN16 | imulS8 | imulN8 | imulS64 | imulN64 | imulhS64
  | imulhN64 | faddF32 | fsubF32 | fmulF32 | fminF32 | fmaxF32 | faddF16 | fsubF16 | fmulF16 | fminF16 | fmaxF16 | faddBf16 | fsubBf16 | fmulBf16
  | fminBf16 | fmaxBf16 | faddF64 | fsubF64 | fmulF64 | fminF64 | fmaxF64 => exact h.alu2
  | icmpS32 | icmpN32 | icmpS64 | icmpN64 | fcmpF32 | fcmpF16 | fcmpBf16 | fcmpF64 => exact h.aluCmp
  | notB | mov | mov64 | popcN32 | clzN32 | ctzN32 | brevN32 | fclassF32 | fclassF16 | fclassBf16 | fclassF64 => exact h.alu1
  | bitmix | imadS32 | imadN32 | imadS16 | imadN16 | bfiN32 | ffmaF32 | ffmaF16 | ffmaBf16 | ffmaF64 => exact h.alu3
  | sel | sel64 => exact h.aluSel
  | idpS8 | idpN8 | idpN4 => exact h.idp
  | idivS32 | idivN32 | iremS32 | iremN32 | idivS64 | idivN64 | iremS64 | iremN64 => exact h.divide
  | faccN4 | faccS8 | faccN8 | faccE2m1 | faccE4m3 | faccE5m2 => exact h.facc
  | cvtF32F16 | cvtF32Bf16 | cvtF16F32 | cvtBf16F32 | cvtF64F32 | cvtF32F64 | cvtF32E4m3 | cvtF32E5m2 | cvtE4m3F32 | cvtE5m2F32 | cvtF32E2m1
  | cvtE2m1F32 | cvtF32S32 | cvtF32N32 | cvtS32F32 | cvtN32F32 | cvtF64S64 | cvtF64N64 | cvtS64F64 | cvtN64F64 | cvtF64S32 | cvtS32F64 | frndF32
  | frndF64 => exact h.aluCvt
  | packF16 | packBf16 | packE4m3 | packE5m2 | packE2m1 | packS16 | packN16 | packS8 | packN8 | packN4 => exact h.pack
  | matchN32 | matchN64 => exact h.matchOp
  | splice | spliceC => exact h.spliceOp
  | fenceAcq | fenceRel | fenceAr => exact h.fenceOp
  | ldN8 | ldS8 | ldN16 | ldS16 | ldN32 | ldN64 | ldqN32 => exact h.loadOp
  | stN8 | stN16 | stN32 | stN64 | stqN32 => exact h.storeOp
  | atomAddN32 | atomAddN64 | atomAddF32 | atomAdd2Bf16 | atomMinS32 | atomMinN32 | atomMinF32 | atomMaxS32 | atomMaxN32 | atomMaxF32
  | atomAndN32 | atomOrN32 | atomXorN32 | atomIncN32 | atomDecN32 | atomCaddF32 | atomXchgN32 | atomXchgN64 | atomCasN32 | atomCasN64 | redAddN32
  | redAddN64 | redAddF32 | redAdd2Bf16 | redMinS32 | redMinN32 | redMinF32 | redMaxS32 | redMaxN32 | redMaxF32 | redAndN32 | redOrN32
  | redXorN32 | redIncN32 | redDecN32 | redCaddF32 => exact h.atomOp
  | sfqExp2 | sfqLog2 | sfqRcp | sfqRsq | sfqSqrt | sfqSin | sfqCos | sfqTanh | sfqSigm | sfqErf => exact h.sfqOp
  | copyXfer | copyFill => exact h.moveOp
  | plop => exact h.execPlop
  | prds => exact h.execPrds
  | pwrs => exact h.execPwrs
  | mapld => exact h.execMapld
  | mapclr => exact h.execMapclr
  | mapq => exact h.execMapq
  | shfl => exact h.execShfl
  | bcast => exact h.execBcast
  | rdlane => exact h.execRdlane
  | wrlane => exact h.execWrlane
  | bra => exact h.execBra
  | call => exact h.execCall
  | jmpi => exact h.execJmpi
  | calli => exact h.execCalli
  | ret => exact h.execRet
  | yield => exact h.execYield
  | nop => exact h.execNop
  | exit => exact h.execExit
  | barSync => exact h.execBarSync
  | barArr => exact h.execBarArr
  | barWait => exact h.execBarWait
  | barSet => exact h.execBarSet
  | voteBal => exact h.execVoteBal
  | waitc => exact h.execWaitc
  | waitv => exact h.execWaitv
  | pref => exact h.execPref
  | ldt => exact h.execLdt
  | stt => exact h.execStt
  | sfqRd => exact h.execSfqRd
  | waitk => exact h.execWaitk
  | cprun => exact h.execCprun
  | cpcmd => exact h.execCpcmd
  | cpq => exact h.execCpq
  | gcall => exact h.execGcall
  | gret => exact h.execGret
  | sread => exact h.execSread
  | tret => exact h.execTret
  | trecRd => exact h.execTrecRd
  | trecWr => exact h.execTrecWr
  | sysrd => exact h.execSysrd
  | syswr => exact h.execSyswr
  | cinv => exact h.execCinv
  | halt => exact h.execHalt
  | resultLands => exact h.execResultLands
  | loadComplete => exact h.execLoadComplete
  | storePerformed => exact h.execStorePerformed
  | sfuResultDelivery => exact h.execSfuResultDelivery
  | sfqRdWrite => exact h.execSfqRdWrite
  | mapldComplete => exact h.execMapldComplete
  | ropePhase => exact h.execRopePhase
  | gatherTimeout => exact h.execGatherTimeout
  | trapDelivery => exact h.execTrapDelivery
  | copyFault => exact h.execCopyFault
  | gateBudgetExpiry => exact h.execGateBudgetExpiry
  | copySete => exact h.execCopySete
  | copyAdde => exact h.execCopyAdde
  | copyLoop => exact h.execCopyLoop
  | copySems => exact h.execCopySems
  | copySemw => exact h.execCopySemw
  | copyDone => exact h.execCopyDone
  | kick => exact h.execKick
  | doorbellKick => exact h.execDoorbellKick
  | fctl => exact h.execFctl
  | decodeRecheck => exact h.execDecodeRecheck
  | tnop => exact h.execTnop
  | trun => exact h.execTrun
  | trunp => exact h.execTrunp
  | tcopy => exact h.execTcopy
  | tfill => exact h.execTfill
  | tbind => exact h.execTbind
  | texport => exact h.execTexport
  | tfree => exact h.execTfree
  | tsig => exact h.execTsig
  | twait => exact h.execTwait
  | tfence => exact h.execTfence
  | tinval => exact h.execTinval
  | tgate => exact h.execTgate
  | tend => exact h.execTend
  | taskIssue => exact h.execTaskIssue
  | prologueRepeat => exact h.execPrologueRepeat
  | taskComplete => exact h.execTaskComplete
  | taskRetire => exact h.execTaskRetire
  | taskFault => exact h.execTaskFault
  | mapintRetry => exact h.execMapintRetry
  | twaitSatisfied => exact h.execTwaitSatisfied
  | twaitPoll => exact h.execTwaitPoll
  | twaitLimit => exact h.execTwaitLimit
  | taskBudgetExpiry => exact h.execTaskBudgetExpiry
  | streamMap => exact h.execStreamMap
  | streamPriorityAging => exact h.execStreamPriorityAging
  | streamStop => exact h.execStreamStop
  | workgroupPlace => exact h.execWorkgroupPlace
  | wgPriorityAging => exact h.execWgPriorityAging
  | priorityBoost => exact h.execPriorityBoost
  | yieldSkipEnd => exact h.execYieldSkipEnd
  | preemptRequest => exact h.execPreemptRequest
  | ropeSave => exact h.execRopeSave
  | forcedSave => exact h.execForcedSave
  | imageEvent => exact h.execImageEvent
  | workgroupRestore => exact h.execWorkgroupRestore
  | waitvWake => exact h.execWaitvWake
  | waitvPoll => exact h.execWaitvPoll
  | mtlbTranslate => exact h.execMtlbTranslate
  | faultResolve => exact h.execFaultResolve
  | replay => exact h.execReplay
  | pluginTimeout => exact h.execPluginTimeout
  | pagePin => exact h.execPagePin
  | l2Eviction => exact h.execL2Eviction
  | mapSelfTest => exact h.execMapSelfTest
  | scrChange => exact h.execScrChange
  | handleUpdate => exact h.execHandleUpdate
  | gateTableUpdate => exact h.execGateTableUpdate
  | stage2Change => exact h.execStage2Change
  | scrubComplete => exact h.execScrubComplete
  | retireSweep => exact h.execRetireSweep
  | calCtl => exact h.execCalCtl
  | calendarPeriodStart => exact h.execCalendarPeriodStart
  | calendarSlotBoundary => exact h.execCalendarSlotBoundary
  | registerWrite => exact h.execRegisterWrite
  | partitionReset => exact h.execPartitionReset
  | coldReset => exact h.execColdReset
  | warmReset => exact h.execWarmReset
  | dieOffline => exact h.execDieOffline
  | dieReturn => exact h.execDieReturn
  | getVersion => exact h.execGetVersion
  | getCapabilities => exact h.execGetCapabilities
  | negotiateAlgorithms => exact h.execNegotiateAlgorithms
  | getDigests => exact h.execGetDigests
  | getCertificate => exact h.execGetCertificate
  | challenge => exact h.execChallenge
  | getMeasurements => exact h.execGetMeasurements
  | keyExchange => exact h.execKeyExchange
  | finish => exact h.execFinish
  | endSession => exact h.execEndSession
  | keyset => exact h.execKeyset
  | keydel => exact h.execKeydel
  | measurementChange => exact h.execMeasurementChange
  | ethernetFrame => exact h.execEthernetFrame
  | launchPacket => exact h.execLaunchPacket
  | tdiError => exact h.execTdiError
  | correctableError => exact h.execCorrectableError
  | uncorrectableError => exact h.execUncorrectableError
  | fatalError => exact h.execFatalError
  | blackBoxRead => exact h.execBlackBoxRead
  | thermalTrip => exact h.execThermalTrip
  | mapDutyUpdate => exact h.execMapDutyUpdate
  | schedulerReplace => exact h.execSchedulerReplace
  | dzoLoad => exact h.execDzoLoad
  | dzoUnload => exact h.execDzoUnload
  | choarnifTranslation => exact h.execChoarnifTranslation
  | nativeSwitch => exact h.execNativeSwitch
  | tdispRequest => exact h.execTdispRequest
  | ideKm => exact h.execIdeKm
  | hostWrite => exact h.execHostWrite
  | coreMaskAdd => exact h.execCoreMaskAdd
  | bfeS32 f => exact (h.alu2 : KeepsForm (Machine.alu2 0x064 f (fun m _ => bfeElem m true) s))
  | bfeN32 f => exact (h.alu2 : KeepsForm (Machine.alu2 0x065 f (fun m _ => bfeElem m false) s))
  | voteAny f => exact (h.voteOp : KeepsForm (Machine.voteOp 0x158 (fun x => x.votes != 0) f s))
  | voteAll f => exact (h.voteOp : KeepsForm (Machine.voteOp 0x159 (fun x => x.votes == x.act) f s))
  | copyBarr w => exact (h.execCopyBarr : KeepsForm (Machine.execCopyBarr w s))
  | copyEnd w => exact (h.execCopyEnd : KeepsForm (Machine.execCopyEnd w s))

end Sys2Proof.Machine
end

section
/-! PROOFS. The step keeps the memories' form: the turns, what is due, and what may happen next (R4). -/

namespace Sys2Proof.Machine

/-! The turns. -/

theorem KeepsForm.yieldTurn {o : Host.Outcome State Fault Refusal} (h : KeepsForm o) (t : Turn) : KeepsForm (yieldTurn t o) := by
  cases o with
  | next s =>
    refine KeepsForm.next ?_
    split
    · exact State.MemWf.others h
    · exact h
  | fault f => exact trivial
  | refused r => exact trivial

theorem State.MemWf.runRope {s : State} (h : s.MemWf) : KeepsForm s.runRope := by
  unfold Machine.State.runRope
  split
  · exact .done h
  · split
    · exact .done h
    · split
      · exact .done h.fatalFor
      · split
        · exact h.fetchFill.exec _
        · exact .next h.fetchRaise
        · exact .done h.askFetch
        · exact .next h

theorem State.MemWf.runCopy {s : State} (h : s.MemWf) : KeepsForm s.runCopy := by
  unfold Machine.State.runCopy
  split
  · exact .done h
  · split
    · exact h.exec _
    · split
      · split
        · exact .done h.copyFault
        · exact .next h
      · split
        · exact h.codeRead.exec _
        · exact .done h.copyFault

theorem State.MemWf.runStream {s : State} (h : s.MemWf) : KeepsForm s.runStream := by
  unfold Machine.State.runStream
  split
  · exact .done h
  · split
    · exact h.exec _
    · exact .next h.decodeFault

/-! What is due. -/

theorem OptForm.findSome? {α : Type} {f : α → Option State} (hf : ∀ a, OptForm (f a)) (l : List α) : OptForm (l.findSome? f) := by
  cases he : l.findSome? f with
  | none => exact trivial
  | some t =>
    obtain ⟨a, -, ha⟩ := List.exists_of_findSome?_eq_some he
    exact (hf a).of_some ha

theorem OptForm.map {α : Type} {f : α → State} (hf : ∀ a, (f a).MemWf) (o : Option α) : OptForm (o.map f) := by
  cases o with
  | none => exact trivial
  | some a => exact hf a

theorem OptForm.firstOf {l : List (Option State)} (h : ∀ o ∈ l, OptForm o) : OptForm (firstOf l) := by
  induction l with
  | nil => exact trivial
  | cons o l ih =>
    cases o with
    | none => exact ih (fun p hp => h p (List.mem_cons_of_mem _ hp))
    | some t => exact h (Option.some t) List.mem_cons_self

theorem State.MemWf.wgDuty {s : State} (h : s.MemWf) : OptForm s.wgDuty := by
  refine OptForm.findSome? (fun e => ?_) s.wgs
  dsimp only
  split
  · exact trivial
  · split
    · split
      · exact trivial
      · split
        · exact .some h.verdict
        · exact .some h.endWg
    · split
      · exact .some h.toImage
      · exact trivial

theorem State.MemWf.candDuty {s : State} (h : s.MemWf) : OptForm s.candDuty := by
  refine OptForm.findSome? (fun e => ?_) s.ropes
  dsimp only
  split
  · split
    · exact .some h.setRope
    · exact trivial
  · exact trivial

theorem State.MemWf.barDuty {s : State} (h : s.MemWf) : OptForm s.barDuty := by
  refine OptForm.findSome? (fun e => ?_) s.ropes
  dsimp only
  split
  · exact trivial
  · exact OptForm.map (fun _ => h.barRope) _

theorem State.MemWf.preemptDuty {s : State} (h : s.MemWf) : OptForm s.preemptDuty := by
  unfold Machine.State.preemptDuty
  dsimp only
  split
  · exact .some h.settlePreempts
  · exact trivial

theorem State.MemWf.duty? {s : State} (h : s.MemWf) : OptForm s.duty? := by
  refine OptForm.firstOf (fun o ho => ?_)
  simp only [List.mem_cons, List.not_mem_nil, or_false] at ho
  obtain rfl | rfl | rfl | rfl | rfl | rfl := ho
  · exact OptForm.map (fun _ => h.take) _
  · exact h.wgDuty
  · exact h.candDuty
  · exact h.barDuty
  · exact h.preemptDuty
  · exact OptForm.map (fun _ => h.take) _

/-! What may happen next. -/

/-- The memories' form is in every state of a list. -/
def AllForm (l : List State) : Prop := ∀ u ∈ l, u.MemWf

theorem AllForm.nil : AllForm [] := fun _ hu => absurd hu List.not_mem_nil

theorem AllForm.singleton {s : State} (h : s.MemWf) : AllForm [s] := by
  intro u hu
  rwa [List.mem_singleton.mp hu]

theorem AllForm.append {l m : List State} (hl : AllForm l) (hm : AllForm m) : AllForm (l ++ m) := fun u hu =>
  (List.mem_append.mp hu).elim (hl u) (hm u)

theorem AllForm.flatMap {α : Type} {f : α → List State} (hf : ∀ a, AllForm (f a)) (l : List α) : AllForm (l.flatMap f) := by
  intro u hu
  obtain ⟨a, -, ha⟩ := List.mem_flatMap.mp hu
  exact hf a u ha

theorem AllForm.filterMap {α : Type} {f : α → Option State} (hf : ∀ a, OptForm (f a)) (l : List α) : AllForm (l.filterMap f) := by
  intro u hu
  obtain ⟨a, -, ha⟩ := List.mem_filterMap.mp hu
  exact (hf a).of_some ha

theorem AllForm.map {α : Type} {f : α → State} (hf : ∀ a, (f a).MemWf) (l : List α) : AllForm (l.map f) := by
  intro u hu
  obtain ⟨a, -, rfl⟩ := List.mem_map.mp hu
  exact hf a

theorem AllForm.getD {l : List State} (hl : AllForm l) {s : State} (h : s.MemWf) (n : Nat) : (l.getD n s).MemWf := by
  rw [List.getD_eq_getElem?_getD]
  cases he : l[n]? with
  | none => exact h
  | some u => exact hl u (List.mem_of_getElem? he)

theorem State.MemWf.ropeMove {s : State} (h : s.MemWf) (c quad : Nat) : OptForm (s.ropeMove c quad) := by
  unfold Machine.State.ropeMove
  split
  · exact trivial
  · exact OptForm.map (fun _ => State.MemWf.others h) _

theorem State.MemWf.tryUnit {s : State} (h : s.MemWf) (k u : Nat) : OptForm (s.tryUnit k u) := by
  have hr : KeepsForm ({ s with turn := .rope, cur := k, curUnit := u } : State).runRope := State.MemWf.runRope (State.MemWf.others h)
  unfold Machine.State.tryUnit
  split
  case h_1 t he =>
    split
    · exact trivial
    · exact .some (hr.of_next he)
  case h_2 => exact trivial

theorem State.MemWf.askMoves {s : State} (h : s.MemWf) : AllForm s.askMoves := by
  refine AllForm.flatMap (fun e => AllForm.filterMap (fun u => ?_) _) s.ropes
  split
  · exact trivial
  · cases he : s.tryUnit e.1 u with
    | none => exact trivial
    | some t =>
      have ht : t.MemWf := (h.tryUnit e.1 u).of_some he
      dsimp only [Option.bind]
      split
      · exact .some ht
      · exact trivial

theorem State.MemWf.copyMoves {s : State} (h : s.MemWf) : AllForm s.copyMoves := by
  refine AllForm.filterMap (fun e => ?_) s.ctxs
  dsimp only
  split
  · split
    · exact trivial
    · exact .some (State.MemWf.others h)
  · exact trivial

theorem State.MemWf.inputMove {s : State} (h : s.MemWf) : AllForm s.inputMove := by
  unfold Machine.State.inputMove
  split
  · exact AllForm.nil
  · refine AllForm.singleton ?_
    split
    · exact State.MemWf.others h
    · exact State.MemWf.others h

theorem State.MemWf.tick {s : State} (h : s.MemWf) (c : Nat) : (s.tick c).MemWf := by
  unfold Machine.State.tick
  dsimp only
  split
  · exact State.MemWf.others h.selfTests.setCore
  · exact State.MemWf.enterSlot (State.MemWf.others h.selfTests.setCore)

theorem State.MemWf.timeMove {s : State} (h : s.MemWf) : AllForm s.timeMove := by
  unfold Machine.State.timeMove
  split
  · exact AllForm.singleton (State.MemWf.others h)
  · split
    · exact AllForm.nil
    · exact AllForm.singleton (h.tick _)

theorem State.MemWf.moves {s : State} (h : s.MemWf) : AllForm s.moves := by
  have hropes : AllForm (s.coreList.flatMap (fun c => ([0, 1, 2, 3] : List Nat).filterMap (fun q => s.ropeMove c q))) :=
    AllForm.flatMap (fun c => AllForm.filterMap (fun q => h.ropeMove c q) _) _
  have hevents : AllForm ((s.ropeEvents ++ s.engineEvents ++ s.copyEvents ++ s.streamEvents ++ s.gridEvents).map s.take) :=
    AllForm.map (fun _ => h.take) _
  exact ((((hropes.append h.timeMove).append h.askMoves).append h.copyMoves).append h.inputMove).append hevents

theorem State.MemWf.choose {s : State} (h : s.MemWf) : s.choose.MemWf := by
  unfold Machine.State.choose
  split
  case h_1 t he => exact h.duty?.of_some he
  case h_2 => exact State.MemWf.others (h.moves.getD h _)

theorem State.MemWf.step {s : State} (h : s.MemWf) : KeepsForm (step s) := by
  unfold Machine.step
  split
  · exact .next h.choose
  · exact h.runRope.yieldTurn _
  · exact h.runCopy.yieldTurn _
  · exact h.runStream.yieldTurn _
  · exact (h.exec _).yieldTurn _

/-- Settles O55: by the form that each instruction and each event keeps (`State.MemWf.exec`), carried through the turns and the choice of the next one. -/
theorem memoriesStayCanonical : Obligations.MemoriesStayCanonical := by
  unfold Obligations.MemoriesStayCanonical
  intro s t h hstep
  exact h.step.of_next hstep

end Sys2Proof.Machine
end
